-- ==== Sys2Proof/Word.lean ====
section
/-!
DEFINITION. The plain word types of the DX-60 and the sparse tables that hold its memories.

Multi-byte values are little-endian lists of bytes (00_scope R9); bit 0 is the least significant bit (R8).
-/

namespace Sys2Proof

/-- One byte. -/
abbrev Byte := BitVec 8
/-- A run of bytes, lowest address first (R9). -/
abbrev Bytes := List (BitVec 8)
/-- A 16-bit word. -/
abbrev W16 := BitVec 16
/-- A 32-bit word. -/
abbrev W32 := BitVec 32
/-- A 64-bit word, the width of every register (R14). -/
abbrev W64 := BitVec 64
/-- A sparse table: pairs of a number and a value, the numbers strictly rising; a number that is not listed holds
the table's default value, and no listed value equals that default. -/
abbrev SMap (α : Type) := List (Nat × α)

end Sys2Proof
end

