-- ==== Sys2Proof/Machine/StateHost.lean ====
section
/-!
DEFINITION. State of the PCIe side (functions, rings, MSI-X, ATS, RETAIN), of the dens and of the fault log
(00, 13, 14, 22). Every default of a field is its value right after a full reset.
-/

namespace Sys2Proof.Machine

/-- What leaves the package, in order (01 R40): every posted write, message, reply and read result. -/
inductive Out where
  /-- a posted write of function `fn` to a host IOVA -/
  | hostWrite (fn : Nat) (iova : Nat) (data : Bytes)
  /-- an MSI-X message of a function's vector: the table entry's address and data -/
  | msix (fn vec : Nat) (addr : W64) (data : W32)
  /-- a host read request: tag, function, IOVA, length -/
  | hostRead (tag fn iova len : Nat)
  /-- a Translation Request -/
  | xlateReq (fn iova : Nat)
  /-- an Invalidate Completion -/
  | invalDone (fn itag : Nat)
  /-- data of a CTRL read -/
  | regData (fn : Nat) (v : W64)
  /-- data of a DEVMEM read, with the EP bit -/
  | devData (fn : Nat) (data : Bytes) (ep : Bool)
  /-- a message given to a link port: port, TYPE, fields as bytes -/
  | link (port ty : Nat) (data : Bytes)
  /-- a frame on UART_SVC: TYPE and body -/
  | uart (ty : Nat) (body : Bytes)
  /-- a message on UART_MGT: destination, type, body -/
  | mgt (dst ty : Nat) (body : Bytes)
  /-- an SMBus / MCTP answer -/
  | smbus (body : Bytes)
  /-- USB: data of a control or EP1 transfer; `stall` = STALL -/
  | usb (data : Bytes) (stall : Bool)
  /-- an answer of the RF tag -/
  | rf (body : Bytes)
  /-- data shifted out of the TAP -/
  | jtag (v : W64)
  deriving DecidableEq, Repr

/-- An MSI-X table entry (14 R433, R453); masked at reset, as PCIe gives it. -/
structure MsixEntry where
  addr : W64 := 0
  data : W32 := 0
  masked : Bool := true
  pending : Bool := false
  deriving DecidableEq, Repr

/-- An entry held while Bus Master Enable is clear (14 R461): ring, bytes, vector. -/
structure HeldPost where
  ring : Nat := 0
  bytes : Bytes := []
  vec : Option Nat := none
  deriving DecidableEq, Repr

/-- A PCIe function: 0 = PF, n = VF n. -/
structure Fn where
  /-- high-half shadow: offset of the counter and 32-bit value (00 R19); none -/
  shadow : Option (Nat × W32) := none
  /-- RING_FUNC.BME (14 R475); reset 0 -/
  bme : Bool := false
  /-- RING_FUNC.FLR (14 R475); reset 0 -/
  flr : Bool := false
  /-- step 2 of R463 is waiting for host completions -/
  draining : Bool := false
  /-- RING_FUNC.DBDROP, 16 bits (14 R475); reset 0 -/
  dbdrop : W16 := 0
  /-- RING_FUNC.LATECPL, 32 bits (14 R475); reset 0 -/
  latecpl : W32 := 0
  /-- RING_EVLOST.LOST, 32 bits (14 R475); reset 0 -/
  evlost : W32 := 0
  /-- events dropped since the last EV_LOST (14 R449); 0 -/
  evlostSince : Nat := 0
  msix : SMap MsixEntry := []
  held : List HeldPost := []
  /-- ATS enabled on the function (14 R430, R455); off at reset, as PCIe gives it -/
  ats : Bool := false
  deriving DecidableEq, Repr

/-- An entry of a submission ring between HEAD and TAIL (14 R441 to R443). -/
inductive RingEntry where
  /-- its 64 bytes are on the device; true = it came by an inline doorbell -/
  | held (bytes : Bytes) (inl : Bool)
  /-- announced by a tail doorbell; its host read has not been issued -/
  | announced
  /-- a host read of it is outstanding -/
  | fetching
  /-- an inline entry that was written to its host slot and must be read back -/
  | inHost
  /-- its read failed (R442) -/
  | lost
  deriving DecidableEq, Repr

/-- A ring of a den, or of the PF (14 R439, R474). -/
structure Ring where
  /-- RING_BASE.BASE, 54 bits (R474); reset 0 -/
  base : BitVec 54 := 0
  /-- RING_CFG.EN (R474); reset 0 -/
  en : Bool := false
  /-- RING_CFG.LOG2N as written, 5 bits (R474); reset 4 -/
  log2n : BitVec 5 := 4
  /-- RING_HEAD, 32 bits (R474); reset 0 -/
  head : W32 := 0
  /-- RING_TAIL.TAIL, 32 bits (R474); reset 0 -/
  tail : W32 := 0
  /-- RING_TAIL.RSVD, 17 bits (R474); reset 0 -/
  rsvd : Nat := 0
  /-- RING_WB.WB, 54 bits (R474); reset 0 -/
  wb : BitVec 54 := 0
  /-- entries from HEAD on (submission rings) -/
  entries : List RingEntry := []
  /-- HEAD has advanced since the last write-back (R446) -/
  wbDue : Bool := false
  deriving DecidableEq, Repr

/-- Who issued a host read or waits for a translation (14 R457). -/
inductive Issuer where
  | ring (key first n : Nat)
  | tile (t acc : Nat)
  | stream (t unit dseq addr : Nat)
  | feature (req : Nat)
  | block (den ring : Nat)
  | cmd (id : Nat)
  deriving DecidableEq, Repr

/-- A non-posted host read outstanding (14 R430, R459). -/
structure HostRead where
  tag : Nat := 0
  fn : Nat := 0
  issuer : Issuer := .cmd 0
  addr : Nat := 0
  len : Nat := 0
  /-- its place in the block that its issuer reads, and the length of that block -/
  off : Nat := 0
  total : Nat := 0
  /-- its data are discarded when they arrive (R459, R461) -/
  discard : Bool := false
  /-- its function's FLR has ended without it: its completion counts in LATECPL (R463) -/
  late : Bool := false
  deriving DecidableEq, Repr

/-- An ATS cache entry (14 R455). -/
structure AtsEntry where
  fn : Nat := 0
  iova : Nat := 0
  log2 : Nat := 12
  target : Nat := 0
  r : Bool := false
  w : Bool := false
  deriving DecidableEq, Repr

/-- An access held while a Translation Request is outstanding (14 R455). -/
structure PendXlate where
  fn : Nat := 0
  issuer : Issuer := .cmd 0
  addr : Nat := 0
  len : Nat := 0
  off : Nat := 0
  total : Nat := 0
  write : Bool := false
  data : Bytes := []
  deriving DecidableEq, Repr

/-- Why a host read failed (14 R442, R455, R457, R461). -/
inductive HostFail where
  /-- a translation fault -/
  | xlate
  /-- a UR or CA completion, or a Completion Timeout -/
  | error
  /-- a completion with EP set -/
  | poison
  /-- Bus Master Enable is clear -/
  | revoked
  deriving DecidableEq, Repr

/-- What has arrived of a block that one issuer reads in several requests (R430): place and bytes, and the first place
at which it failed. -/
structure HostPart where
  issuer : Issuer := .cmd 0
  got : List (Nat × Bytes) := []
  fail : Option (Nat × HostFail) := none
  deriving DecidableEq, Repr

/-- The PCIe controller (14). -/
structure Pcie where
  fns : SMap Fn := []
  rings : SMap Ring := []
  /-- HUB_PCIE.LINKUP (R476); reset 0 -/
  linkUp : Bool := false
  /-- HUB_PCIE.RATE, 2 bits (R476); reset 0 -/
  rate : Nat := 0
  /-- HUB_PCIE.WIDTH, 5 bits (R476); reset 0 -/
  width : Nat := 0
  /-- HUB_PCIE.NOFLIT (R476); reset 0 -/
  noflit : Bool := false
  /-- PERST# is asserted -/
  perst : Bool := false
  /-- the PF still answers configuration requests with CRS (18 R607) -/
  crs : Bool := true
  /-- HUB_DEVMEM_BASE.BASE, bits [55:24] (R476); reset 0 -/
  devmemBase : W32 := 0
  /-- NumVFs with VF Enable set (R431); 0 -/
  numVfs : Nat := 0
  /-- DEVMEM window of the PF in GiB (R432) -/
  devmemPf : Nat := 4
  /-- DEVMEM window of every VF in GiB (R432) -/
  devmemVf : Nat := 4
  /-- HUB_ATS.HIT, 32 bits (R476); reset 0 -/
  atsHit : W32 := 0
  /-- HUB_ATS.MISS, 32 bits (R476); reset 0 -/
  atsMiss : W32 := 0
  ats : List AtsEntry := []
  xlate : List PendXlate := []
  /-- reads that wait for a tag: at most 4,096 are outstanding (R430) -/
  waiting : List PendXlate := []
  /-- non-posted reads outstanding (R430) -/
  reads : List HostRead := []
  /-- blocks that have arrived in part -/
  parts : List HostPart := []
  /-- HUB_RETAIN.STATE, 2 bits (R476); reset 0 -/
  retSt : Nat := 0
  /-- HUB_RETAIN.CAUSE, 2 bits (R476); reset 0 -/
  retCause : Nat := 0
  /-- HUB_RETAIN.HELD, 32 bits (R476); reset 0 -/
  retHeld : W32 := 0
  /-- Warren time of entry into RETAIN (R471, R476) -/
  retT : W64 := 0
  /-- HUB_RETAIN_T.TIMEOUT of a RETAIN entered: the profile's at entry (R472, 15 R513) -/
  retTo : Nat := 0
  /-- the flush of R175 ended (R471 FLUSH_OK) -/
  retFlushOk : Bool := false
  deriving DecidableEq, Repr

/-- One token bucket (13 R414, R425). -/
structure Bucket where
  /-- EN (R425); reset 0 -/
  en : Bool := false
  /-- RATE, 20 bits (R425); reset 0 -/
  rate : BitVec 20 := 0
  /-- BURST, 32 bits (R425); reset 0 -/
  burst : W32 := 0
  /-- LEVEL, signed 64 bits (R425); reset 0 -/
  level : Int := 0
  deriving DecidableEq, Repr

/-- State of a den (13 R391, R422). -/
inductive DenSt where
  | free | active | quiesced | destroying
  deriving DecidableEq, Repr

/-- A den (13). -/
structure Den where
  /-- DEN_STATE.STATE, 2 bits (R422); reset 0 -/
  st : DenSt := .free
  /-- DEN_STATE.GRAN, 2 bits (R422); reset 0 -/
  gran : Nat := 0
  /-- DEN_STATE.MODE: true = DEADLINE (R422); reset 0 -/
  deadline : Bool := false
  /-- attach token, 16 bytes (14 R470) -/
  token : Bytes := []
  /-- Warren time of the last failed ATTACH (14 R469) -/
  attachFail : Option W64 := none
  /-- FLR_SCRUB: true = SCRUB (14 R464, R475); reset KEEP -/
  scrub : Bool := false
  /-- DEN_TILESET, 256 bits (R423); reset 0 -/
  tiles : BitVec 256 := 0
  /-- a DEN_UNCORR fault quiesced the den, which DEN_RESUME settles (22 R735) -/
  uncorr : Bool := false
  /-- tiles marked LEAVING, 256 bits (R396, R422); reset 0 -/
  leaving : BitVec 256 := 0
  /-- DEN_HBM_r: first stripe and count, at most 16 (R424) -/
  hbm : List (Nat × Nat) := []
  /-- fill mask, 16 bits (05 R153, R180); reset 0 -/
  fill : W16 := 0
  /-- DEN_MIOSLOT, 16 bits (R423); reset 0 -/
  mioSlots : W16 := 0
  /-- DEN_MIOENT, 64 bits (R423); reset 0 -/
  mioEnts : W64 := 0
  /-- regulators HBM, HOARD, IFESIL, PCIE (R425) -/
  regHbm : Bucket := {}
  regHoard : Bucket := {}
  regIfs : Bucket := {}
  regPcie : Bucket := {}
  /-- program store of the den's tiles, 8,192 × 64 bits (08 R249) -/
  prog : SMap W64 := []
  /-- per-den counters, 64 bits each: accounting (R418), FGR (04 R147), HRD (05 R180), updates (07 R243), histories
  (12 R387), numbered as in `Machine.Ops` -/
  cnt : SMap W64 := []
  /-- the snapshot bank of the accounting counters (R420) -/
  snap : SMap W64 := []
  /-- FGR_DEN_CTRL.LA_DEPTH, 2 bits (04 R146); reset 2 -/
  laDepth : BitVec 2 := 2
  /-- FGR_DEN_CTRL.INFLIGHT_MAX, 13 bits (04 R146); reset 4,096 -/
  inflightMax : BitVec 13 := 4096
  /-- FGR_DEN_CTRL.IBUF_QUOTA, 17 bits (04 R146); reset 65,536 -/
  ibufQuota : BitVec 17 := 65536
  /-- HRD_DEN_ARR.ARR_MAX, 15 bits (05 R180); reset 16,384 -/
  arrMax : BitVec 15 := 16384
  /-- FGR_HDIR_BASE, 56 bits (12 R387); reset 0 -/
  hdirBase : BitVec 56 := 0
  /-- FGR_HDIR_LEN, 25 bits (12 R387); reset 0 -/
  hdirLen : BitVec 25 := 0
  /-- request ring admitted from last (R402) -/
  lastRing : Nat := 7
  deriving DecidableEq, Repr

/-- An entry of the fault log (22 R742). -/
structure LogEntry where
  seq : W32 := 0
  cls : Nat := 0
  evented : Bool := false
  journaled : Bool := false
  cause : Nat := 0
  loc : W64 := 0
  wtime : W64 := 0
  count : W32 := 0
  deriving DecidableEq, Repr

/-- A signature of a counted fault (22 R728). -/
structure Signature where
  den : Nat := 0
  model : Nat := 0
  entry : Nat := 0
  cause : Nat := 0
  pc : Nat := 0
  tile : Nat := 0
  /-- powered time of the fault -/
  at_ : Nat := 0
  deriving DecidableEq, Repr

/-- The ERR block (22 R741, R742) and the records behind R722, R723, R727 and R728. -/
structure Err where
  /-- ERR_STATUS.WPTR, 10 bits; reset 0 -/
  wptr : BitVec 10 := 0
  /-- ERR_STATUS.WRAPPED; reset 0 -/
  wrapped : Bool := false
  /-- ERR_STATUS.SEQ, 32 bits; reset 0 -/
  seq : W32 := 0
  /-- ERR_CNT_CLASS_0 to _4, 64 bits; reset 0 -/
  cls : SMap W64 := []
  /-- ERR_FENCE_CFG.MASK, 18 bits; reset 0x0_0D16 -/
  mask : BitVec 18 := 0x00D16
  /-- ERR_RESET.CLASS, 3 bits (R738) -/
  resetClass : BitVec 3 := 0
  /-- ERR_RESET.CAUSE, 16 bits (R738) -/
  resetCause : W16 := 0
  /-- ERR_RESET_LOC, 64 bits (R738) -/
  resetLoc : W64 := 0
  /-- ERR_DBG.JTAG_RD; reset 0 -/
  jtagRd : Bool := false
  /-- ERR_DBG.JTAG_HALT; reset 0 -/
  jtagHalt : Bool := false
  /-- ERR_DBG.LOCK; reset 0 -/
  dbgLock : Bool := false
  /-- powered times of the counted faults held for each tile, at most 2: ERR_TILE_t.RECENT is their number -/
  recent : SMap (List Nat) := []
  /-- ERR_TILE_t.TOTAL, 16 bits; reset 0 -/
  total : SMap W16 := []
  /-- ERR_LOG, 1,024 entries (R742); zero -/
  log : SMap LogEntry := []
  /-- signatures of the 256 newest counted faults, newest first (R728) -/
  sigs : List Signature := []
  /-- Warren time of the last ERROR event per EVQ and cause, number 65,536·evq + cause (R723) -/
  lastEvent : SMap (Option W64) := []
  /-- WTIME of the last entry of a corrected ECC cause per unit, number 65,536·cause + unit (R722) -/
  lastEcc : SMap (Option W64) := []
  deriving DecidableEq, Repr

end Sys2Proof.Machine
end

