-- ==== Sys2Proof/Machine/StateMem.lean ====
section
/-!
DEFINITION. State of the Mioter array, the Forager, the Hoard, the HBM stacks, the tables and the update engine
(03, 04, 05, 06, 07). Every default of a field is its value right after a full reset.
-/

namespace Sys2Proof.Machine

/-! ### Mioter array -/

/-- A word inside a quadrant (03 R74): data, slot tag, END, and the token it belongs to. -/
structure MioWord where
  data : W32 := 0
  slot : Nat := 0
  isEnd : Bool := false
  tok : Nat := 0
  deriving DecidableEq, Repr

/-- One PE (03 R76 to R78). -/
structure Pe where
  /-- register bank, 64 × 32 bits: entry 16·c + i is Li of slot C_c (R76); zero -/
  regs : SMap W32 := []
  /-- lookup RAM, 1,024 × 32 bits: word 256·c + i of slot C_c (R76); zero -/
  lut : SMap W32 := []
  /-- instruction store, 64 × 32 bits: entry 16·c + i of slot C_c (R76); zero -/
  inst : SMap W32 := []
  /-- program length of each slot's window (R77); 0 -/
  len : SMap Nat := []
  /-- input queues of 8 words (R76); empty -/
  qW : List MioWord := []
  qN : List MioWord := []
  qE : List MioWord := []
  qS : List MioWord := []
  /-- flag F of each slot (R76); 0 -/
  flag : SMap Bool := []
  /-- program counter of each slot, 4 bits (R77); 0 -/
  pc : SMap Nat := []
  /-- token being served, with its slot (R77); none -/
  tok : Option (Nat × Nat) := none
  deriving DecidableEq, Repr

/-- State of a context slot (03 R86, R112). -/
inductive SlotState where
  | empty | loading | ready | invalid
  deriving DecidableEq, Repr

/-- A context slot of a quadrant (03 R86, R112). Its owner stands in the den. -/
structure MioSlot where
  /-- STATE, 2 bits (R112); reset 0 -/
  st : SlotState := .empty
  /-- ENTRY, 6 bits (R112); reset 0 -/
  entry : Nat := 0
  /-- LANE_MASK of the loaded image, 16 bits (R84, R93); 0 -/
  laneMask : W16 := 0
  deriving DecidableEq, Repr

/-- A token steered to a quadrant (03 R73, R75, R84, R105). -/
structure MioTok where
  id : Nat := 0
  req : Nat := 0
  slot : Nat := 0
  words : List W32 := []
  /-- its boundary cycle has been spent -/
  entered : Bool := false
  /-- words given to each row -/
  fed : SMap Nat := []
  /-- rows that have taken the marker word, 16 bits -/
  marked : W16 := 0
  /-- lanes on which an END word has arrived, 16 bits -/
  ended : W16 := 0
  /-- records passed to the Forager -/
  passed : Nat := 0
  /-- the record held back so that LAST can be set in the last one (R84) -/
  held : Option Bytes := none
  /-- Warren time of the last progress (R105) -/
  progress : W64 := 0
  deriving DecidableEq, Repr

/-- One quadrant (03). -/
structure Quad where
  pes : SMap Pe := []
  slots : SMap MioSlot := []
  toks : List MioTok := []
  /-- records that each collector lane holds, at most 8: token and 16 bytes (R83); empty -/
  lanes : SMap (List (Nat × Bytes)) := []
  /-- HUB_MIOQACT.TAG, 2 bits (R113); reset 0 -/
  tag : Nat := 0
  /-- HUB_MIOQACT.TOKENS, 32 bits (R113); reset 0 -/
  tokens : W32 := 0
  /-- slot that a CTX_LOAD is loading and the command's number (R101, R102) -/
  loading : Option (Nat × Nat) := none
  deriving DecidableEq, Repr

/-- State of a config store entry (03 R92, R96, R98). -/
inductive EntryState where
  | empty | valid | invalid
  deriving DecidableEq, Repr

/-- A config store entry of 256 KiB (03 R90 to R100). -/
structure CfgEntry where
  st : EntryState := .empty
  data : Bytes := []
  /-- CTX_STORE running on it: the command's number (R100) -/
  storing : Option Nat := none
  deriving DecidableEq, Repr

/-- The Mioter array with its config store and sampling (03). -/
structure Mioter where
  quads : SMap Quad := []
  store : SMap CfgEntry := []
  /-- tokens steered so far, to number them -/
  tokSeq : Nat := 0
  /-- HUB_MIOSMP_CTRL.EN (R114); reset 0 -/
  smpEn : Bool := false
  /-- HUB_MIOSMP_CTRL.WRAP (R114); reset 0 -/
  smpWrap : Bool := false
  /-- HUB_MIOSMP_CTRL.COUNT, 7 bits (R114); reset 0 -/
  smpCount : BitVec 7 := 0
  /-- HUB_MIOSMP_CTRL.PERIOD, 20 bits (R114); reset 16 -/
  smpPeriod : BitVec 20 := 16
  /-- HUB_MIOSMP_SEL, 64 fields of 12 bits (R115); reset 0 -/
  smpSel : SMap (BitVec 12) := []
  /-- HUB_MIOSMP_WPTR.WPTR, 10 bits (R116); reset 0 -/
  smpWptr : BitVec 10 := 0
  /-- HUB_MIOSMP_WPTR.FULL (R116); reset 0 -/
  smpFull : Bool := false
  /-- HUB_MIOSMP_WPTR.DROPPED, 32 bits (R116); reset 0 -/
  smpDropped : W32 := 0
  /-- sample buffer, 1,024 records of 64 bytes (R110); zero -/
  smpBuf : SMap Bytes := []
  deriving DecidableEq, Repr

/-! ### Forager -/

/-- What a record or read is for (04 R133, R140, 12 R377). -/
inductive ReadKind where
  | demand | history | prefetch
  deriving DecidableEq, Repr

/-- An index record in the index buffer (04 R129, R142), or an event of a history walk. -/
structure FRec where
  id : Nat := 0
  req : Nat := 0
  kind : ReadKind := .demand
  smp : Nat := 0
  grp : Nat := 0
  ent : Nat := 0
  table : Nat := 0
  row : Nat := 0
  weight : W32 := 0
  /-- its place among the records of its bag (04 R135) -/
  ord : Nat := 0
  /-- a prefetch has been issued for it (04 R140) -/
  prefetched : Bool := false
  /-- bytes of the event record of a history event (12 R378) -/
  event : Bytes := []
  deriving DecidableEq, Repr

/-- A held gather-engine slot (04 R132). -/
structure GSlot where
  engine : Nat := 0
  r : FRec := {}
  kind : ReadKind := .demand
  addr : Nat := 0
  len : Nat := 0
  /-- bytes read, once every line has been served -/
  data : Option Bytes := none
  poison : Bool := false
  deriving DecidableEq, Repr

/-- The Forager (04). -/
structure Forager where
  /-- records on their way from the quadrants, oldest first: request and 16 bytes (01 R33) -/
  inq : List (Nat × Bytes) := []
  ibuf : List FRec := []
  slots : List GSlot := []
  recSeq : Nat := 0
  deriving DecidableEq, Repr

/-! ### Hoard -/

/-- Mode of a way (05 R152, R179). -/
inductive WayMode where
  | shared | pin | scratch
  deriving DecidableEq, Repr

/-- A way's mode and owner, and a change that waits for held lines (05 R152, R157). -/
structure Way where
  /-- HRD_WAYCFG.MODE, 2 bits (R179); reset 0 -/
  mode : WayMode := .shared
  /-- HRD_WAYOWN OWNER, 5 bits (R179); reset 0 -/
  owner : Nat := 0
  /-- a change to this mode and owner waits (R157) -/
  change : Option (WayMode × Nat) := none
  deriving DecidableEq, Repr

/-- Generation of a line (05 R167, R168). -/
inductive LineGen where
  | current | staged
  deriving DecidableEq, Repr

/-- A valid line (05 R148, R154, R156, R173, R177). -/
structure HLine where
  /-- device address of the line -/
  addr : Nat := 0
  /-- den that filled it -/
  den : Nat := 0
  gen : LineGen := .current
  dirty : Bool := false
  data : Bytes := []
  /-- poisoned 8-byte granules, 16 bits (R177, 22 R724) -/
  poison : W16 := 0
  deriving DecidableEq, Repr

/-- What a request at a slice port does (05 R149, R151, R162). -/
inductive HKind where
  /-- read; `fill` = a miss fills the line -/
  | read (fill : Bool)
  | write (fill : Bool)
  /-- lane atomic: OP, FMT, lanes, RET -/
  | lanes (op fmt lanes : Nat) (ret : Bool)
  | cas (cmp swap : W64)
  | swap (v : W64)
  /-- ROW_COMMIT of a row-directory entry -/
  | commit (dir : Nat)
  deriving DecidableEq, Repr

/-- Who is answered (05 R149). -/
inductive HDst where
  | none
  | tile (t acc : Nat)
  | stream (t unit dseq addr : Nat)
  | gather (recId : Nat) (kind : ReadKind)
  deriving DecidableEq, Repr

/-- A request waiting at a port of a slice (05 R149). -/
structure HReq where
  kind : HKind := .read false
  den : Option Nat := none
  addr : Nat := 0
  len : Nat := 0
  data : Bytes := []
  dst : HDst := .none
  deriving DecidableEq, Repr

/-- A row-directory entry (05 R167, R168, 07 R231, R232). -/
structure RowDir where
  id : Nat := 0
  den : Nat := 0
  ring : Nat := 0
  table : Nat := 0
  addr : Nat := 0
  len : Nat := 0
  /-- the new row, as staged -/
  row : Bytes := []
  committed : Bool := false
  /-- lines whose write-back has not ended -/
  wb : List Nat := []
  deriving DecidableEq, Repr

/-- An arrival slot (05 R169, R170). -/
structure ArrSlot where
  used : Bool := false
  den : Nat := 0
  req : Nat := 0
  smp : Nat := 0
  grp : Nat := 0
  ent : Nat := 0
  /-- remote pool requests sent for the bag -/
  expected : Nat := 0
  /-- the token has closed, so the expected count is final (04 R137) -/
  final : Bool := false
  /-- contributions of other devices that have arrived whole -/
  arrived : Nat := 0
  /-- accumulator lines held -/
  lines : Nat := 0
  deriving DecidableEq, Repr

/-- The Hoard (05). -/
structure Hoard where
  /-- lines by (slice × 4,096 + set) × 16 + way; none valid -/
  lines : SMap HLine := []
  /-- tree pseudo-LRU bits of each set, 15 bits (R156); zero -/
  plru : SMap (BitVec 15) := []
  /-- port served last by each slice (R149); 0 -/
  lastPort : SMap Nat := []
  /-- requests waiting at port p of slice s, number 5·s + p (R149); empty -/
  ports : SMap (List HReq) := []
  ways : SMap Way := []
  dirs : List RowDir := []
  dirSeq : Nat := 0
  arr : SMap ArrSlot := []
  /-- HRD_FLUSH.ACTIVE (R179); reset 0 -/
  flushActive : Bool := false
  /-- HRD_FLUSH.DONE (R179); reset 0 -/
  flushDone : Bool := false
  /-- slices powered down after a flush (R175) -/
  off : Bool := false
  /-- HRD_ECC.CORR, 32 bits (R179); reset 0 -/
  corr : W32 := 0
  /-- HRD_ECC.UNCORR, 32 bits (R179); reset 0 -/
  uncorr : W32 := 0
  deriving DecidableEq, Repr

/-! ### HBM -/

/-- A line access queued at a pseudo-channel (06 R186, R187). -/
structure HbmAcc where
  addr : Nat := 0
  write : Bool := false
  /-- later accesses served before it (R187) -/
  passedBy : Nat := 0
  deriving DecidableEq, Repr

/-- One stack (06). -/
structure HbmStack where
  /-- HBM_STATUS.TEMP, 8 bits signed (R207); reset 0 -/
  temp : BitVec 8 := 0
  /-- HBM_STATUS.LEVEL, 3 bits (R207); reset 0 -/
  level : Nat := 0
  /-- HBM_STATUS.SELFREF (R207); reset 0 -/
  selfref : Bool := false
  /-- HBM_STATUS.MARGIN (R207); reset 0 -/
  margin : Bool := false
  /-- row under online repair: HBM_STATUS.REPAIR (R198, R207); none -/
  repair : Option Nat := none
  /-- HBM_STATUS.TEMP_MAX, 8 bits signed (R207); reset 0x80 -/
  tempMax : BitVec 8 := 0x80
  /-- HBM_ECC.CORR, 32 bits (R208); reset 0 -/
  corr : W32 := 0
  /-- HBM_ECC.UNCORR, 32 bits (R208); reset 0 -/
  uncorr : W32 := 0
  /-- HBM_SCRUB.EN (R209); reset 1 -/
  scrubEn : Bool := true
  /-- HBM_SCRUB.PERIOD_H, 8 bits (R209); reset 24 -/
  scrubPeriod : BitVec 8 := 24
  /-- HBM_SCRUB.PASSES, 16 bits (R209); reset 0 -/
  scrubPasses : W16 := 0
  /-- words scrubbed of the present pass (R191); 0 -/
  scrubPos : Nat := 0
  /-- rows soft-repaired, by row key (R198); HBM_PPR.SOFT_USED is their number -/
  softRows : List Nat := []
  /-- bank groups whose hard resource is used, by group key: HBM_PPR.HARD_USED, from fuses (R210) -/
  hardGroups : List Nat := []
  /-- rows that have become repair candidates and have not been dealt with, oldest first (R192) -/
  cands : List Nat := []
  /-- rows waiting for hard repair, oldest first: HBM_PPR.PENDING counts those not soft-repaired (R199, R200) -/
  pendRows : List Nat := []
  /-- HBM_ERRLOG fields, 32 bits (R211); reset 0 -/
  errlog : W32 := 0
  /-- HBM_ERRLOG.VALID (R211); reset 0 -/
  errlogValid : Bool := false
  /-- HBM_THERM, four 16-bit counters for T1 to T4 (R212); reset 0 -/
  therm : SMap W16 := []
  /-- the corrected-read tracking table: row key and Warren times of its corrected reads, at most 64 (R192) -/
  track : List (Nat × List W64) := []
  /-- open DRAM row of each bank of each pseudo-channel (R187): row + 1, 0 = none -/
  openRow : SMap Nat := []
  /-- trained margins measured last, one record of bytes (R204) -/
  lastMargin : Bytes := []
  deriving DecidableEq, Repr

/-- HBM as a whole (06). -/
structure Hbm where
  /-- 288 GiB of bytes (R182) -/
  data : List Host.Cell := []
  /-- 32-byte words that carry a poison marker or read uncorrectable (R190, R198, R769): word number -/
  bad : SMap Bool := []
  /-- 32-byte words with a single-symbol error (R189) -/
  weak : SMap Bool := []
  stk : SMap HbmStack := []
  /-- queue of each pseudo-channel p (R187) -/
  queues : SMap (List HbmAcc) := []
  /-- RETIRED stripes (R201) -/
  retired : List Nat := []
  /-- stripes from this one on are RETIRED under R610 until the next cold bring-up; 18,432 with eight stacks -/
  limit : Nat := 18432
  deriving DecidableEq, Repr

/-! ### Tables -/

/-- A version slot of a table (04 R118, 07 R213, R214, R224). -/
structure Version where
  /-- BASE, 56 bits -/
  base : BitVec 56 := 0
  valid : Bool := false
  /-- reference count, 32 bits (R214) -/
  refs : W32 := 0
  /-- Warren hold (R224) -/
  hold : Bool := false
  deriving DecidableEq, Repr

/-- A table descriptor as the part holds it (04 R118, R119). -/
structure Table where
  present : Bool := false
  den : Nat := 0
  fmt : Nat := 0
  layout : Nat := 0
  defrow : Bool := false
  range : Bool := false
  pin : Bool := false
  rowSize : Nat := 0
  elems : Nat := 0
  rows : Nat := 0
  rowScale : W32 := 0
  active : Nat := 0
  shards : Nat := 0
  defaultAddr : Nat := 0
  v0 : Version := {}
  v1 : Version := {}
  v2 : Version := {}
  v3 : Version := {}
  pinBase : Nat := 0
  pinRows : Nat := 0
  shardAddr : Nat := 0
  rangeAddr : Nat := 0
  /-- the part's copy of the shard list (R119) -/
  shardIds : List Nat := []
  /-- the part's copy of the range boundaries (R119) -/
  bounds : List Nat := []
  /-- PIN_OFF (05 R158) -/
  pinOff : Nat := 0
  /-- PIN_VER (05 R159): none while no version is held -/
  pinVer : Option Nat := none
  /-- a background fill of the pin region is running (05 R159) -/
  pinFilling : Bool := false
  /-- locked by the prepared Warren switch of this number (07 R221) -/
  lock : Option W32 := none
  deriving DecidableEq, Repr

/-- The descriptor that an update ring is processing (07 R229 to R236). -/
structure UpdCur where
  desc : Bytes := []
  tag : W16 := 0
  irq : Bool := false
  table : Nat := 0
  vslot : Nat := 0
  count : Nat := 0
  /-- record block as far as it has arrived whole -/
  block : Bytes := []
  /-- the record block has been read, or has failed -/
  readEnded : Bool := false
  /-- status when its read failed; none while good -/
  failed : Option Nat := none
  /-- next record to stage -/
  idx : Nat := 0
  skipped : Nat := 0
  /-- completion flags SK_RANGE, SK_FOREIGN, SK_BAD -/
  flags : Nat := 0
  tAccept : W64 := 0
  deriving DecidableEq, Repr

/-- State of the device's latest Warren switch (07 R242). -/
structure WarrenSwitch where
  /-- HRD_WSW.SWITCH_ID, 32 bits; reset 0 -/
  id : W32 := 0
  /-- HRD_WSW.MASTER, 8 bits; reset 0 -/
  master : Nat := 0
  /-- HRD_WSW.STATE, 3 bits; reset 0 -/
  st : Nat := 0
  /-- HRD_WSW.LATE; reset 0 -/
  late : Bool := false
  /-- table, target slot, DURABLE; and the previous active slot once applied -/
  pairs : List (Nat × Nat) := []
  prevs : List (Nat × Nat) := []
  durable : Bool := false
  tsw : W64 := 0
  /-- DRAINED has been sent -/
  drainedSent : Bool := false
  deriving DecidableEq, Repr

/-- The master's side of a Warren switch (07 R219 to R225, 16 R550). -/
structure MasterSwitch where
  id : W32 := 0
  pairs : List (Nat × Nat) := []
  durable : Bool := false
  lead : Nat := 0
  /-- command that waits for the outcome; none for a taken-over switch -/
  cmd : Option Nat := none
  prepared : List Nat := []
  /-- 0 preparing, 1 committed, 2 querying after a take-over -/
  st : Nat := 0
  tsw : W64 := 0
  drained : List Nat := []
  started : W64 := 0
  /-- answers to SW_QUERY: Warren id and state -/
  states : List (Nat × Nat) := []
  deriving DecidableEq, Repr

end Sys2Proof.Machine
end

