-- ==== Sys2Proof/Machine/StateSys.lean ====
section
/-!
DEFINITION. State of the CP and its commands, of the Warren, of power, clocks and bring-up, of the serial ports, the
timers and watchdogs, the Ledger and the Service tag, and of JTAG (15 to 21, 23). Every default of a field is its
value right after a full reset.
-/

namespace Sys2Proof.Machine

/-! ### Commands of the CP -/

/-- Where a command packet came from (15 R479). -/
inductive CmdSrc where
  /-- ring pair `pair` of function `fn` (0 = PF, n = VF n) -/
  | ring (fn pair : Nat)
  | usb
  | uart
  deriving DecidableEq, Repr

/-- A lock of R484; `excl` says in which mode it is held. -/
inductive LockObj where
  | device
  | firmware
  | den (d : Nat)
  | table (t : Nat)
  | quadrant (q : Nat)
  | entry (e : Nat)
  | tile (t : Nat)
  deriving DecidableEq, Repr

/-- A command that is running (15 R483, R484). -/
structure Cmd where
  /-- the model's own number of the command -/
  id : Nat := 0
  src : CmdSrc := .usb
  /-- the 64 bytes of the packet (R477) -/
  pkt : Bytes := []
  /-- locks held, with their mode: true = exclusive -/
  locks : List (LockObj × Bool) := []
  /-- how far a command that runs over time has come -/
  stage : Nat := 0
  /-- data it has gathered from a host read or from EP1 OUT -/
  data : Bytes := []
  /-- the read it waits for has ended -/
  got : Bool := false
  /-- status that a failed read, a bus reset or a fault sets (R481) -/
  fail : Option Nat := none
  /-- its reply is discarded (R485) -/
  silent : Bool := false
  /-- numbers it keeps between its steps -/
  nums : List Nat := []
  deriving DecidableEq, Repr

/-- The CP (15). -/
structure Cp where
  running : List Cmd := []
  /-- commands taken so far, to number them -/
  seq : Nat := 0
  /-- source taken from last: 0 PF, n VF n, 33 USB, 34 UART_SVC (15 R483) -/
  lastSrc : Nat := 34
  /-- ring pair taken from last, by function (15 R483) -/
  lastPair : SMap Nat := []
  /-- the packet that waits on a service port -/
  usbIn : Option Bytes := none
  uartIn : Option Bytes := none
  deriving DecidableEq, Repr

/-- The settings of a profile (15 R510). -/
structure Profile where
  index : Nat := 0
  cap : Nat := 600
  tclkMax : Nat := 18
  warrenId : Nat := 0
  role : Nat := 0
  mgtAddr : Nat := 0xFF
  margin : Bool := false
  aonPeriod : Nat := 2
  wdgHw : Bool := true
  linkMask : Nat := 0
  retain : Bool := false
  retainTimeout : Nat := 0
  /-- the den records, 192 bytes each -/
  dens : List Bytes := []
  deriving DecidableEq, Repr

/-! ### Warren and links -/

/-- Who waits for the answer of a Warren transaction (16 R535). -/
inductive XIssuer where
  /-- a ROW_READ of the Forager: its record, and the shard that is asked -/
  | row (r : FRec) (shard : Nat)
  /-- a POOL_REQ: request, bag (sample, group, entry), shard asked, rows asked for -/
  | pool (req smp grp ent shard rows : Nat)
  | tile (t acc : Nat)
  | stream (t unit dseq addr : Nat)
  /-- a piece of a block that a command or the update engine reads: offset of the block at the owner, place of the piece,
  length of the block -/
  | part (iss : Issuer) (base off total : Nat)
  /-- a piece of what a command writes: offset of the block at the owner and place of the piece -/
  | cmdWrite (id base off : Nat)
  deriving DecidableEq, Repr

/-- A transaction entry (16 R534). -/
structure Xact where
  tid : W32 := 0
  issuer : XIssuer := .row {} 0
  den : Nat := 0
  dst : Nat := 0
  /-- REQIDX of a pool request, 0 otherwise -/
  ridx : Nat := 0
  /-- FP32 pieces of a contribution that has not arrived whole: PIECE and its bytes (R539) -/
  pieces : SMap Bytes := []
  deriving DecidableEq, Repr

/-- A survey in progress (16 R548). -/
structure Survey where
  cmd : Nat := 0
  answers : SMap Bytes := []
  deriving DecidableEq, Repr

/-- The fabric (16 R552). -/
structure Fab where
  /-- FAB_ID.WARREN_ID, 8 bits (R552); reset profile -/
  wid : Nat := 0
  /-- FAB_ID.ROLE, 2 bits (R552); reset profile: 0 standalone, 1 member, 2 master -/
  role : Nat := 0
  /-- FAB_ID.MASTER, 8 bits (R552); reset 0 -/
  master : Nat := 0
  /-- in HOLD (R547); reset 0 -/
  hold : Bool := false
  /-- FAB_ID.SYNCED (R552); reset 0 -/
  synced : Bool := false
  /-- FAB_ID.EPOCH, 32 bits (R552); reset 0 -/
  epoch : W32 := 0
  /-- FAB_SYNC.CORR, 32 bits (R552); reset 0 -/
  corr : W32 := 0
  /-- Warren time of the last HEARTBEAT, for FAB_SYNC.HB_AGE (R552) -/
  hbAt : W64 := 0
  /-- ticks by which the member is still ahead of the master, while it counts only every second TMCLK (R546) -/
  slow : Nat := 0
  /-- parity of the TMCLK while the member counts every second one (R546) -/
  slowPhase : Bool := false
  xacts : List Xact := []
  /-- FAB_XACT.FAILED, 32 bits (R552); reset 0 -/
  failed : W32 := 0
  /-- FAB_DROP.HOPS, 32 bits (R552); reset 0 -/
  dropHops : W32 := 0
  /-- FAB_DROP.NOROUTE, 32 bits (R552); reset 0 -/
  dropNoroute : W32 := 0
  /-- FAB_ROUTE_d, ports by destination (R552); reset none -/
  routes : SMap (List Nat) := []
  /-- transaction ids used so far (R523: chosen by the requester) -/
  tidSeq : Nat := 0
  /-- Warren ids whose HUSH_NOTE is outstanding (R536) -/
  hushed : List Nat := []
  survey : Option Survey := none
  /-- next SWITCH_ID of the master (R550) -/
  nextSwitch : W32 := 1
  deriving DecidableEq, Repr

/-- State of a link port, LNK_STATUS.STATE (16 R553). -/
inductive PortSt where
  | disabled | idle | training | l0 | down | sleep
  deriving DecidableEq, Repr

/-- A link port (16 R516 to R527, R553). -/
structure Port where
  /-- LNK_STATUS.STATE, 3 bits (R553); reset 0 -/
  st : PortSt := .disabled
  /-- LNK_STATUS.LANES, 8 bits (R553); reset 0 -/
  lanes : BitVec 8 := 0
  /-- LNK_STATUS.PEER_ID, 8 bits (R553); reset 0 -/
  peerId : Nat := 0
  /-- LNK_STATUS.PEER_PORT, 5 bits (R553); reset 0 -/
  peerPort : Nat := 0
  /-- LNK_STATUS.PEER_VALID (R553); reset 0 -/
  peerValid : Bool := false
  /-- LNK_FENCE.FENCED, 8 bits (R553); reset from Ledger -/
  fenced : BitVec 8 := 0
  /-- LNK_ERR.CORR_SYM, 32 bits (R553); reset 0 -/
  corrSym : W32 := 0
  /-- LNK_ERR.UNCORR_CW, 32 bits (R553); reset 0 -/
  uncorrCw : W32 := 0
  /-- LNK_RETRY.REPLAYS, 32 bits (R553); reset 0 -/
  replays : W32 := 0
  /-- LNK_RETRY.RETRAINS, 32 bits (R553); reset 0 -/
  retrains : W32 := 0
  /-- LNK_DELAY.DELAY, 16 bits (R553); reset 0 -/
  delay : W16 := 0
  /-- credits held: VC_RSP, VC_POOL, VC_REQ, VC_MGT (R526, R553); reset 0 -/
  credRsp : Nat := 0
  credPool : Nat := 0
  credReq : Nat := 0
  credMgt : Nat := 0
  /-- credits owed to the partner, by VC 0 to 3 (R525) -/
  owed : SMap Nat := []
  /-- messages waiting, by VC 0 to 3 (R527) -/
  queues : SMap (List Bytes) := []
  /-- SEQ of the next sequenced codeword, 8 bits (R519) -/
  txSeq : BitVec 8 := 0
  /-- sequenced codewords not yet acknowledged, oldest first: SEQ and flits (R521) -/
  retry : List (BitVec 8 × Bytes) := []
  /-- SEQ expected next from the partner, 8 bits (R521) -/
  rxNext : BitVec 8 := 0
  /-- NAK has been sent and the replay has not begun (R521) -/
  nakSent : Bool := false
  /-- consecutive replays of the oldest unacknowledged codeword (R520) -/
  cwReplays : Nat := 0
  /-- corrected symbol errors of each lane in the present second (R520) -/
  laneErr : SMap Nat := []
  /-- Warren time at which that second began -/
  errT : W64 := 0
  /-- retrains that failed in a row (R522) -/
  trainFails : Nat := 0
  /-- training stopped by LINK_ID (R518) -/
  idStop : Bool := false
  /-- the training under way keeps the retry buffer, SEQ, ACK, credits and queued messages (R520) -/
  keep : Bool := false
  /-- disabled by LINK_CTRL with ACTION 0 (15 R505) -/
  off : Bool := false
  deriving DecidableEq, Repr

/-! ### Power, clocks, thermal -/

/-- Device state, HUB_PWR.STATE (17 R564, R586). -/
inductive DevSt where
  | active | hush | standby | retain | limp | off
  deriving DecidableEq, Repr

/-- What the PCIe edge holds while the fast clocks are stopped (17 R567). -/
inductive HeldKind where
  /-- memory writes -/
  | doorbell | ctrl | devmem
  /-- reads of a HUSH entered by DEV_HUSH: a low half of a counter, DEVMEM, one that R20 or R21 refuses -/
  | lowRead | devRead | refused
  /-- a completion of the DX-60's own read: its tag in `off`, its error in `fn` -/
  | completion
  /-- the answer to a Translation Request: its IOVA in `off`, the size in `len`, then the target and the permissions -/
  | translation
  deriving DecidableEq, Repr

/-- One TLP held by the PCIe edge (17 R567). -/
structure HeldTlp where
  kind : HeldKind := .doorbell
  fn : Nat := 0
  off : Nat := 0
  len : Nat := 0
  data : Bytes := []
  deriving DecidableEq, Repr

/-- Power, clocks and temperatures (17). -/
structure Power where
  /-- HUB_PWR.STATE, 3 bits (R586); reset 0 -/
  st : DevSt := .active
  /-- HUB_PWR.THERMAL (R586); reset 0 -/
  thermal : Bool := false
  /-- HUB_PWR.THERM_HOLD (R586); reset 0 -/
  thermHold : Bool := false
  /-- HUB_PWR.WAKE, 4 bits (R586); reset 0 -/
  wake : Nat := 0
  /-- HUB_PWR.HUSHES, 16 bits (R586); reset 0 at power-on only -/
  hushes : W16 := 0
  /-- a wake event is held, with its WAKE code (R567, R569) -/
  wakePend : Option Nat := none
  /-- the fast clocks run for a service command in STANDBY (R571) -/
  svcRun : Bool := false
  /-- HUB_CLK.TCLK_CUR, 5 bits (R587); reset 0 -/
  tclkCur : Nat := 0
  /-- HUB_CLK.XTAL_OK (R587); reset 0 -/
  xtalOk : Bool := false
  /-- TCLK_MAX of the active profile in 100 MHz (R560); 18 by the default profile -/
  tclkMax : Nat := 18
  /-- HUB_PCAP.CAP, 11 bits (R588); reset profile -/
  cap : Nat := 600
  /-- HUB_PCAP.LIM_VAL, 5 bits (R588); reset 18 -/
  limVal : Nat := 18
  /-- HALFRATE held by the limiter (R577, R588); reset 0 -/
  halfLim : Bool := false
  /-- HUB_PCAP.P100, 16 bits (R588); reset 0 -/
  p100 : Nat := 0
  /-- mean power over 1 ms, as DEV_STATUS.POWER reports it (R575) -/
  p1ms : Nat := 0
  /-- consecutive low evaluations (R576); 0 -/
  low : Nat := 0
  /-- HUB_PSTEP.DOWN, 32 bits (R589); reset 0 at power-on only -/
  stepDown : W32 := 0
  /-- HUB_PSTEP.UP, 32 bits (R589); reset 0 at power-on only -/
  stepUp : W32 := 0
  /-- HUB_THERM, four 16-bit counters for J1 to J4 (R590); reset 0 at power-on only -/
  therm : SMap W16 := []
  /-- readings of the hub, west and east die, signed bytes (R590); reset 0 -/
  dieTemp : SMap (BitVec 8) := []
  /-- J level of each logic die (R580); 0 -/
  dieLevel : SMap Nat := []
  /-- level that the last THERMAL event of each source carried (R583, 14 R451): 0 to 7 a stack, 16 the device; 0 -/
  evLevel : SMap Nat := []
  /-- dies and stacks that have been read since T0 (19 R645): 0 to 2 dies, 4 to 11 stacks, 12 power -/
  seen : SMap Bool := []
  /-- HUB_HUSH.ALARM, 48 bits (R591); reset 0 -/
  alarm : BitVec 48 := 0
  /-- HUB_HUSH.WDROP, 16 bits (R591); reset 0 -/
  wdrop : W16 := 0
  /-- HUB_AONCNT, 64 bits (R591); reset 0 at power-on only -/
  aon : W64 := 0
  /-- TMCLK ticks × 256 modulo 15,625 not yet counted into HUB_AONCNT while TMCLK runs -/
  aonFrac : Nat := 0
  /-- HUB_AONCNT at the last stop of TMCLK (20 R668) -/
  stopAon : W64 := 0
  /-- TLPs held by the PCIe edge, oldest first; of memory writes at most 256 (R567) -/
  heldTlps : List HeldTlp := []
  /-- reads refused in a thermal HUSH since its entry: their functions, in order (R567) -/
  heldReads : List Nat := []
  /-- writes were discarded in this HUSH (R567) -/
  dropped : Bool := false
  /-- THERMTRIP# is asserted (R585, 23 R750, R765); low level latched until the AON rails fall -/
  thermtrip : Bool := false
  /-- energy calibration factor ACCT_CAL, 32 bits (13 R419, R428); reset 0x3F80_0000 -/
  acctCal : W32 := 0x3F800000#32
  /-- ACCT_UNATTR, 64 bits (13 R428); reset 0 -/
  acctUnattr : W64 := 0
  /-- ACCT_UNATTR as the snapshot holds it (13 R420); 0 -/
  acctUnattrSnap : W64 := 0
  /-- ACCT_CTRL.SNAPPED (13 R428); reset 0 -/
  acctSnapped : Bool := false
  /-- ACCT_SNAP_TIME, 64 bits (13 R428); reset 0 -/
  acctSnapTime : W64 := 0
  deriving DecidableEq, Repr

/-! ### Bring-up -/

/-- Where the bring-up stands (18 R597, R607, R616). -/
inductive BootPhase where
  /-- rails not valid, or clocks stopped by THERMTRIP# -/
  | off
  /-- SYS_RESET# is held low -/
  | heldReset
  /-- cold bring-up, before the full journal reading has ended -/
  | cold
  /-- cold bring-up, after it: waiting for completion -/
  | cold2
  /-- warm bring-up: the flush runs -/
  | warmFlush
  /-- warm bring-up: the CP is released -/
  | warm
  /-- RETAIN through PERST# alone: the PCIe edge restarts (R617) -/
  | edge
  | complete
  deriving DecidableEq, Repr

/-- Bring-up and identity (18 R621 to R623, fuses). -/
structure Boot where
  phase : BootPhase := .cold
  /-- HUB_BOOT.MODE, 3 bits (R621); reset 0 -/
  mode : Nat := 0
  /-- HUB_BOOT.WARM (R621); reset 0 -/
  warm : Bool := false
  /-- HUB_BOOT.PROFILE, 2 bits (R621); reset 0 -/
  profile : Nat := 0
  /-- HUB_BOOT.PDEFAULT (R621); reset 0 -/
  pdefault : Bool := false
  /-- HUB_BOOT.OVERRIDE (R621); reset 0 -/
  ovr : Bool := false
  /-- HUB_BOOT.BANK (R621); reset 0 -/
  bank : Nat := 0
  /-- HUB_BOOT.FALLBACK (R621); reset 0 -/
  fallback : Bool := false
  /-- HUB_BOOT.FAILS, 4 bits (R621); reset 0 -/
  fails : Nat := 0
  /-- HUB_BOOT.SOURCE, 3 bits (R621); reset 0 -/
  source : Nat := 0
  /-- HUB_BOOT.STACKS, 8 bits (R621); reset 0 -/
  stacks8 : BitVec 8 := 0
  /-- HUB_BOOT.SHORT, 4 bits (R621); reset 0 -/
  short : Nat := 0
  /-- HUB_BOOT_T.CP_REL, 32 bits (R622); reset 0 -/
  cpRel : W32 := 0
  /-- HUB_BOOT_T.READY, 32 bits (R622); reset 0 -/
  ready : W32 := 0
  /-- HUB_BOOT_UNITS: Hoard slices that passed, one bit each, 64 (R623); reset 0 -/
  slices : W64 := 0
  /-- HUB_BOOT_UNITS: gather engines that passed, one bit each, 32 (R623); reset 0 -/
  engines : W32 := 0
  /-- HUB_BOOT_UNITS: tiles that passed, 256 (R623); reset 0 -/
  tilesOk : BitVec 256 := 0
  /-- PROF_SEL[1:0] as sampled, 2 bits (R595) -/
  profSel : Nat := 0
  /-- settings of the profile in force (R598, R599); the default profile of R599 -/
  prof : Profile := {}
  /-- FW_VERSION and SEC_VERSION of the running image (R601); 0 -/
  fwVersion : W32 := 0
  secVersion : Nat := 0
  /-- the CP has been released -/
  cpUp : Bool := false
  /-- AON tick counter at T0 or at the hub reset (R622) -/
  t0Aon : W64 := 0
  /-- SERIAL, 64 bits, fuse (15 R490) -/
  serial : W64 := 0
  /-- fused anti-rollback counter (15 R509) -/
  fuseRoll : Nat := 0
  /-- WDG_CP start mode fuse: 0 = choice allowed, 1 = hardware start, 2 = software start (20 R671) -/
  fuseWdg : Nat := 0
  /-- DEVICE fault whose grace runs (20 R673, 22 R736): its cause, and the SOURCE of the reset that ends it -/
  graceFault : Option (Nat × Nat) := none
  deriving DecidableEq, Repr

/-! ### Serial ports -/

/-- An EP1 or DATA transfer in progress (19 R633, R651). -/
structure BulkXfer where
  /-- command that opened it -/
  cmd : Nat := 0
  /-- true: EP1 OUT, bytes taken so far in `data`; false: EP1 IN, bytes still to be taken -/
  out : Bool := false
  data : Bytes := []
  /-- bytes wanted by an OUT transfer -/
  want : Nat := 0
  deriving DecidableEq, Repr

/-- A UART_MGT message waiting to be sent (19 R639). -/
structure MgtMsg where
  dst : Nat := 0
  ty : Nat := 0
  body : Bytes := []
  losses : Nat := 0
  deriving DecidableEq, Repr

/-- The slow interfaces (19 R653 to R658). -/
structure Serial where
  /-- UART_SVC_CFG.BAUD, 23 bits (R653); reset 115,200 -/
  baud : BitVec 23 := 115200
  /-- UART_SVC_CFG.SYNC (R653); reset 0 -/
  sync : Bool := false
  /-- UART_SVC_CFG.CKDIV, 8 bits (R653); reset 8 -/
  ckdiv : BitVec 8 := 8
  /-- settings of a CFG frame that apply 1 ms after CFG_ACK: BAUD, MODE, CKDIV (R631) -/
  cfgPend : Option (Nat × Nat × Nat) := none
  /-- UART_SVC_STAT.FRAMES, 16 bits (R654); reset 0 -/
  frames : W16 := 0
  /-- UART_SVC_STAT.NAKS, 16 bits (R654); reset 0 -/
  naks : W16 := 0
  /-- bytes of a UART_SVC frame in progress (R631) -/
  rx : Bytes := []
  /-- a UART_SVC command is running, or its reply or data has not been sent (R631) -/
  uartBusy : Bool := false
  /-- UART_MGT_CFG.ADDR, 8 bits (R655); reset profile; 0xFF before step 3 -/
  mgtAddr : BitVec 8 := 0xFF
  /-- UART_MGT_CFG.MASK, 8 bits (R655); reset 0xFF -/
  mgtMask : BitVec 8 := 0xFF
  /-- UART_MGT_CFG.ALERT_DST, 8 bits (R655); reset 0xFF -/
  alertDst : BitVec 8 := 0xFF
  /-- UART_MGT_STAT.RX_OK, 16 bits (R656); reset 0 -/
  rxOk : W16 := 0
  /-- UART_MGT_STAT.RX_BAD, 16 bits (R656); reset 0 -/
  rxBad : W16 := 0
  /-- UART_MGT_STAT.COLL, 16 bits (R656); reset 0 -/
  coll : W16 := 0
  /-- UART_MGT_STAT.GIVEUP, 16 bits (R656); reset 0 -/
  giveup : W16 := 0
  /-- messages the DX-60 is to send, oldest first (R639) -/
  mgtQ : List MgtMsg := []
  /-- the oldest of them has lost the line and waits for its backoff (R639) -/
  mgtHold : Bool := false
  /-- GPIO[3:0] and STATE as the last ALERT carried them (R642) -/
  alertLast : Nat := 0
  /-- SMB_STAT.ADDR, 7 bits (R657); reset 0x4E -/
  smbAddr : BitVec 7 := 0x4E
  /-- SMB_STAT.ARP (R657); reset 0 -/
  smbArp : Bool := false
  /-- SMBus EID, 8 bits (R657); reset 0 -/
  eid : BitVec 8 := 0
  /-- PCIe VDM EID, 8 bits (R657); reset 0 -/
  vdmEid : BitVec 8 := 0
  /-- SMB_STAT.PEC_ERR, 32 bits (R657); reset 0 -/
  pecErr : W32 := 0
  /-- PLDM terminus ID, 8 bits (R645); reset 0 -/
  tid : BitVec 8 := 0
  /-- USB_STAT.ATTACHED (R658); reset 0 -/
  usbAttached : Bool := false
  /-- USB_STAT.HIGHSPEED (R658); reset 0 -/
  usbHigh : Bool := false
  /-- USB_STAT.SUSPENDED (R658); reset 0 -/
  usbSuspended : Bool := false
  /-- the running USB command's TAG, USB_STAT.CMD_RUN (R658) -/
  usbRun : Option W16 := none
  /-- held reply with its TAG, USB_STAT.HELD and HELD_TAG (R650, R658) -/
  usbHeld : Option (W16 × Bytes) := none
  /-- HELD_TAG of a reply that is no longer held (R658); reset 0 -/
  usbHeldTag : W16 := 0
  /-- USB_STAT.RESETS, 16 bits (R658); reset 0 -/
  usbResets : W16 := 0
  /-- USB_STAT.DISCARDED, 16 bits (R658); reset 0 -/
  usbDiscarded : W16 := 0
  /-- EP1 transfer that is open (R651) -/
  ep1 : Option BulkXfer := none
  /-- VBUS is present (R646, 23 R755) -/
  vbus : Bool := true
  deriving DecidableEq, Repr

/-! ### Timers and watchdogs -/

/-- A timer TMR_n (20 R677). -/
structure Tmr where
  /-- RUN (R677); reset 0 -/
  run : Bool := false
  /-- ARMED (R677); reset 0 -/
  armed : Bool := false
  /-- ROUTE, 2 bits (R677); reset 0 -/
  route : BitVec 2 := 0
  /-- SRC (R677); reset 0 -/
  src : Bool := false
  /-- PEND (R677); reset 0 -/
  pend : Bool := false
  /-- COUNT, 64 bits (R677); reset 0 -/
  count : W64 := 0
  /-- CMP, 64 bits (R677); reset 0 -/
  cmp : W64 := 0
  /-- IVL, 64 bits (R677); reset 0 -/
  ivl : W64 := 0
  /-- MATCHES, 32 bits (R677); reset 0 -/
  hits : W32 := 0
  /-- MISSED, 32 bits (R677); reset 0 -/
  missed : W32 := 0
  /-- TMR_GATE.EN (R677); reset 0 -/
  gEn : Bool := false
  /-- TMR_GATE.DEN, 5 bits (R677); reset 0 -/
  gDen : BitVec 5 := 0
  /-- TMR_GATE.RING, 3 bits (R677); reset 0 -/
  gRing : BitVec 3 := 0
  /-- TMR_GATE.BATCH, 13 bits (R677); reset 1 -/
  gBatch : BitVec 13 := 1
  /-- TMR_GATE.CREDIT, 13 bits (R677); reset 0 -/
  gCredit : BitVec 13 := 0
  deriving DecidableEq, Repr

/-- State of WDG_CP (20 R679). -/
inductive WdgSt where
  | stopped | running | held | grace
  deriving DecidableEq, Repr

/-- Timers and watchdogs (20 R678, R679). -/
structure Timers where
  tmr : SMap Tmr := []
  /-- TMR_GSTART_AT, 64 bits (R678); reset 0 -/
  gstartAt : W64 := 0
  /-- TMR_EVT, 8 bits (R678); reset 0 -/
  evt : BitVec 8 := 0
  /-- TMR_GCTRL.DBG_FREEZE (R678); reset 0 -/
  freeze : Bool := false
  /-- TMR_RESID.RESID, 8 bits (R678); reset 0 -/
  resid : BitVec 8 := 0
  /-- TMR_RESID.MAKEUPS, 32 bits (R678); reset 0 -/
  makeups : W32 := 0
  /-- the CP is in debug halt (R670) -/
  halt : Bool := false
  /-- WDG_CP_CFG.HWSTART (R679); reset fuse or profile -/
  cpHw : Bool := false
  /-- WDG_CP_CFG.LOCKED (R679); reset 0 -/
  cpLocked : Bool := false
  /-- WDG_CP_CFG.TIMEOUT, 16 bits, ms (R679); reset 2,000 -/
  cpTimeout : W16 := 2000
  /-- WDG_CP_STAT.STATE, 2 bits (R679); reset 0 -/
  cpSt : WdgSt := .stopped
  /-- WDG_CP_STAT.REMAIN, 16 bits, ms (R679); reset 0 -/
  cpRemain : W16 := 0
  /-- WDG_CP_STAT.EXPIRIES, 16 bits (R679); reset 0 -/
  cpExpiries : W16 := 0
  /-- AON ticks of the millisecond WDG_CP counts -/
  cpFrac : Nat := 0
  /-- WDG_AON_CFG.PERIOD, 2 bits (R679); reset 2 -/
  aonPeriod : BitVec 2 := 2
  /-- WDG_AON_CFG.LOCKED (R679); reset 0 -/
  aonLocked : Bool := false
  /-- WDG_AON_STAT.REMAIN, 16 bits, ms (R679); reset 16,000 -/
  aonRemain : W16 := 16000
  /-- AON ticks of the millisecond WDG_AON counts -/
  aonFrac : Nat := 0
  deriving DecidableEq, Repr

/-! ### Ledger and tag -/

/-- A journal record (21 R684): queued, or current in the journal. -/
structure LdgRec where
  ty : Nat := 0
  payload : Bytes := []
  lifeS : W32 := 0
  wtime : W64 := 0
  /-- SEQ once committed -/
  seq : W32 := 0
  /-- sector that holds it, once committed -/
  sector : Nat := 0
  /-- fault log entry whose JOURNALED bit its commit sets (22 R742): its number and SEQ -/
  logRef : Option (Nat × W32) := none
  deriving DecidableEq, Repr

/-- The Ledger (21). -/
structure Ledger where
  /-- 32 MiB of NOR, by byte address; an unlisted byte is 0xFF, the erased state (R680, R681) -/
  flash : List Host.Cell := []
  /-- records waiting (R686) -/
  queue : List LdgRec := []
  /-- LDG_STAT.HEAD_SEQ, 32 bits (R716); from Ledger -/
  headSeq : W32 := 0
  /-- sector and offset of the head (R687) -/
  headSector : Nat := 212
  headOff : Nat := 65536
  /-- sectors that serve the journal in order, oldest first, the head's last (R687) -/
  order : List Nat := []
  /-- sectors erased in advance (R686) -/
  ahead : List Nat := []
  /-- the full journal reading has ended (R687) -/
  readDone : Bool := false
  /-- current STATE records (R688) -/
  cur : List LdgRec := []
  /-- the 32 newest FAULT and TRIP records, newest first (R708): with FW_VERSION -/
  faults : List (LdgRec × W32) := []
  /-- LDG_CNT.TORN, 16 bits (R716); reset 0 -/
  torn : W16 := 0
  /-- LDG_CNT.CRCERR, 16 bits (R716); reset 0 -/
  crcErr : W16 := 0
  /-- LDG_CNT.DROPPED, 32 bits (R716); reset 0 -/
  dropped : W32 := 0
  /-- sectors retired (R699, R716); from Ledger -/
  retired : List Nat := []
  /-- spares assigned: sector replaced and spare (R699) -/
  assigned : List (Nat × Nat) := []
  /-- erases of each FW bank (R697) -/
  fwErases : SMap Nat := []
  /-- current PROFILES sector (R695); none = no valid set -/
  profSector : Option Nat := none
  /-- AON tick counter and LIFE_S at the last derivation of LIFE_S (R693) -/
  lifeBase : W32 := 0
  lifeAon : W64 := 0
  /-- POWER record contents: hours and power-ons (R690) -/
  hours : W32 := 0
  powerOns : W32 := 0
  /-- both CALIB copies failed their CRC (R698) -/
  calibBad : Bool := false
  /-- HBM_n and device thermal counts as last journaled, 9 sources × 4 (R197, R583) -/
  thermLife : SMap Nat := []
  thermSaved : SMap Nat := []
  deriving DecidableEq, Repr

/-- The Service tag (21 R703 to R717). -/
structure Tag where
  /-- UID of the RF side, 64 bits; bits [63:56] are 0xE0, the rest is the part's (R710) -/
  uid : W64 := 0xE000000000000000#64
  /-- 8 KiB of EEPROM, by byte address (R703) -/
  mem : List Host.Cell := []
  /-- an RF session is active (R712): TAG_STAT.RF -/
  rf : Bool := false
  /-- latch of block 16 taken at the start of the session (R712) -/
  latch : Bytes := []
  /-- the tag is in the quiet state, or selected (R710) -/
  quiet : Bool := false
  selected : Bool := false
  /-- TAG_STAT.PENDING: the pointer block that waits for the flip (R713, R717) -/
  pending : Option Bytes := none
  /-- TAG_STAT.DEFERRED, 16 bits (R717); reset 0 -/
  deferred : W16 := 0
  /-- TAG_CNT.SESSIONS, 32 bits (R717); reset 0 -/
  sessions : W32 := 0
  /-- TAG_CNT.LOCKED, 32 bits (R717); reset 0 -/
  locked : W32 := 0
  /-- the wired side holds block 2,047 while it writes ACK (R714) -/
  ackHeld : Bool := false
  /-- an update of the tag is due (R709) -/
  due : Bool := false
  deriving DecidableEq, Repr

/-! ### JTAG -/

/-- Instruction of the TAP (23 R756). -/
inductive TapInstr where
  | idcode | bypass | samplePreload | extest | clamp | highz | regrd
  deriving DecidableEq, Repr

/-- The TAP (23 R756, R757). -/
structure Tap where
  /-- current instruction; IDCODE in Test-Logic-Reset -/
  instr : TapInstr := .idcode
  /-- the boundary cells own the covered balls (R757) -/
  owned : Bool := false
  /-- contents of the boundary register, as captured or loaded (R757) -/
  boundary : W64 := 0
  deriving DecidableEq, Repr

end Sys2Proof.Machine
end

