-- ==== Sys2Proof/Syntax.lean ====
section
/-!
DEFINITION. The commands: one constructor for each row of spec/opcode_table.json. An operand holds what the
environment decides (an offset and bytes that the host writes, a reading, a message that arrives, which unit acts);
everything else a command needs it finds in the state.
-/

namespace Sys2Proof

open Sys2Proof.Machine (CmdSrc)

/-- What the board and the self-tests give a cold bring-up (18 R595, R609, R613, R614). -/
structure BootIn where
  /-- PROF_SEL[1:0] -/
  profSel : Nat := 0
  /-- the CP, the hub network and the PCIe PF pass their self-tests (18 R614) -/
  cpOk : Bool := true
  /-- stacks that pass PHY training -/
  stacks8 : BitVec 8 := 0xFF
  /-- Hoard slices that pass -/
  slices : W64 := BitVec.allOnes 64
  /-- gather engines that pass -/
  engines : W32 := BitVec.allOnes 32
  /-- tiles that pass -/
  tilesOk : BitVec 256 := BitVec.allOnes 256
  deriving DecidableEq, Repr

/-- How a completion of a host read ends (14 R442, R457). -/
inductive CplErr where
  | ok
  /-- a UR or CA completion -/
  | refused
  /-- the EP bit is set -/
  | poisoned
  deriving DecidableEq, Repr

/-- What the host's configuration writes hold when they set Bus Master Enable (14 R430 to R432). -/
structure PcieCfg where
  /-- NumVFs, with VF Enable set when it is not 0 -/
  numVfs : Nat := 32
  /-- ATS is enabled on the function -/
  ats : Bool := false
  /-- DEVMEM windows of the PF and of each VF, in GiB -/
  devmemPf : Nat := 4
  devmemVf : Nat := 4
  deriving DecidableEq, Repr

/-- A command to the DX-60. -/
inductive Instr where
  /-- INLINE_DOORBELL (R443). A single 64-byte Memory Write TLP at an INLINE offset puts its descriptor into the ring
  as entry TAIL without any host read. -/
  | inlineDoorbell (fn off : Nat) (data : Bytes)
  /-- TAIL_DOORBELL (R441). An aligned 4- or 8-byte write of a new TAIL count makes the DX-60 read the announced
  entries from host memory. -/
  | tailDoorbell (fn off : Nat) (data : Bytes)
  /-- CQ_HEAD_DOORBELL (R447). The host writes its consumed count to a completion ring's HEAD doorbell, which frees
  slots or is discarded as CQ_BAD. -/
  | cqHeadDoorbell (fn off : Nat) (data : Bytes)
  /-- RING_ENTRY_FETCH_DONE (R441). A host read of submission-ring entries completes and the entries are placed in the
  ring in order. -/
  | ringEntryFetchDone (tag : Nat) (data : Bytes)
  /-- HEAD_WRITE_BACK (R446). The DX-60 writes a submission ring's HEAD to RING_WB within 1 us of an advance. -/
  | headWriteBack (ring : Nat)
  /-- RING_CFG_WRITE (R440). A write of RING_CFG.EN enables the ring with HEAD and TAIL set to 0, or disables it and
  discards untaken entries. -/
  | ringCfgWrite (fn off : Nat) (data : Bytes)
  /-- MSIX_UNMASK (R453). Unmasking a vector whose pending bit is set sends the held MSI-X message. -/
  | msixUnmask (fn vec : Nat)
  /-- REG_WRITE (R15). A write to a register that has no row of its own takes effect according to its access code. -/
  | regWrite (fn off : Nat) (data : Bytes)
  /-- COUNTER_LOW_READ (R19). A 32-bit read of the low half of a 64-bit RO counter copies the counter's high half into
  the function's shadow. -/
  | counterLowRead (fn off : Nat)
  /-- DEVMEM_WRITE (R437). A host write through a DEVMEM window passes the den checks and the Hoard and updates the
  target. -/
  | devmemWrite (fn off : Nat) (data : Bytes)
  /-- DEVMEM_READ (R437). A host read through a DEVMEM window returns data after the function's earlier writes, with
  EP set for poisoned data. -/
  | devmemRead (fn off len : Nat)
  /-- BME_CLEAR (R461). Clearing Bus Master Enable stops every host request of the function and holds its completions. -/
  | bmeClear (fn : Nat)
  /-- BME_SET (R462). Setting Bus Master Enable again posts the held entries in order and resumes admission. -/
  | bmeSet (fn : Nat) (cfg : PcieCfg)
  /-- FLR (R463). An FLR of a VF resets its den's rings and tasks within 100 ms and applies FLR_SCRUB. -/
  | flr (fn : Nat)
  /-- VF_ENABLE_CLEAR (R465). Clearing VF Enable, or an FLR of the PF, applies the FLR sequence to every den. -/
  | vfEnableClear (byFlr : Bool)
  /-- FLR_DRAIN_TIMEOUT (R463). The 10 ms wait for a den's outstanding host completions ends, and later completions
  are counted and dropped. -/
  | flrDrainTimeout (fn : Nat)
  /-- ATS_INVALIDATE (R456). An ATS Invalidate Request removes the matching entries, and the Invalidate Completion
  follows once their requests have left. -/
  | atsInvalidate (fn itag iova log2 : Nat)
  /-- TRANSLATION_COMPLETION (R455). The answer to a Translation Request fills the ATS cache or causes a translation
  fault. -/
  | translationCompletion (fn iova target log2 : Nat) (r w : Bool)
  /-- HOST_READ_COMPLETION (R457). A completion of a host read delivers data or, on UR, CA or EP, causes the outcome
  for its issuer. -/
  | hostReadCompletion (tag : Nat) (data : Bytes) (err : CplErr)
  /-- COMPLETION_TIMEOUT (R457). A host read with no completion within its Completion Timeout fails. -/
  | completionTimeout (tag : Nat)
  /-- PERST_ASSERT (R592). Assertion of PERST# resets the PCIe edge and leads to RETAIN or a full reset, depending on
  the policy and bring-up state. -/
  | perstAssert (b : BootIn)
  /-- PERST_DEASSERT (R608). Deassertion of PERST# lets the PCIe link train and starts the readiness bound. -/
  | perstDeassert
  /-- LINK_LOSS (R466). The Data Link Layer stays out of DL_Active for more than 2 ms. -/
  | linkLoss
  /-- D3HOT_ENTRY (R570). The host puts the PF into D3hot, so tasks abort and the device enters STANDBY. -/
  | d3hotEntry
  /-- D0_RETURN (R571). The PF returns to D0 and the device is ACTIVE within 25 us. -/
  | d0Return
  /-- RETAIN_TIMEOUT (R472). The profile's retain timeout expires and every held den is destroyed. -/
  | retainTimeout
  /-- REQUEST_ADMIT (R28). The dispatcher admits a ring-head request once its completion slot and regulator tokens are
  available, capturing the table versions. -/
  | requestAdmit
  /-- FEATURE_READ_DONE (R458). A feature block read at a host or device address completes and the features go to the
  quadrant. -/
  | featureReadDone (req : Nat)
  /-- REQUEST_PLACE (R31). The first request in placement order takes the first free tiles of its den when enough are
  free. -/
  | requestPlace (den : Nat)
  /-- TASK_START (R36). The dispatcher sends the start message once the last bag is complete and placement is done. -/
  | taskStart (req : Nat)
  /-- TILE_WAKE (R37). A tile woken by a start message issues its first instruction after 6 TCLK from IDLE or 1.2 us
  from DOZE. -/
  | tileWake (tile : Nat)
  /-- TILE_END_REPORT (R281). After END has drained every queue and global access, the tile reports and goes to IDLE. -/
  | tileEndReport (tile : Nat)
  /-- TASK_ABORT_DONE (R46). The aborted tiles have stopped, and the task releases its tiles, slot and references with
  its completion write. -/
  | taskAbortDone (req : Nat)
  /-- GUARD_EXPIRY (R284). A tile's task-runtime guard passes GUARD_US and the task aborts with GUARD. -/
  | guardExpiry (tile : Nat)
  /-- TILE_DOZE (R285). A tile that has been IDLE for DOZE_AFTER us enters DOZE. -/
  | tileDoze (tile : Nat)
  /-- TILE_PREPARE_DONE (R286). A tile joining a den is zeroed and loaded with the program store and becomes free for
  placement. -/
  | tilePrepareDone (tile : Nat)
  /-- MIO_TOKEN_BOUNDARY (R75). The input port spends the boundary cycle for the next token and sets its slot tag. -/
  | mioTokenBoundary (quad : Nat)
  /-- MIO_INPUT_WORD (R75). The input port gives the token's words and marker words to the west queues of column 0. -/
  | mioInputWord (quad : Nat)
  /-- PE_NOP (R80). A PE executes NOP. -/
  | peNop (quad pe : Nat)
  /-- PE_MOV (R80). A PE executes MOV. -/
  | peMov (quad pe : Nat)
  /-- PE_ADD (R80). A PE executes ADD. -/
  | peAdd (quad pe : Nat)
  /-- PE_SUB (R80). A PE executes SUB. -/
  | peSub (quad pe : Nat)
  /-- PE_AND (R80). A PE executes AND. -/
  | peAnd (quad pe : Nat)
  /-- PE_OR (R80). A PE executes OR. -/
  | peOr (quad pe : Nat)
  /-- PE_XOR (R80). A PE executes XOR. -/
  | peXor (quad pe : Nat)
  /-- PE_SHL (R80). A PE executes SHL. -/
  | peShl (quad pe : Nat)
  /-- PE_SHR (R80). A PE executes a logical SHR. -/
  | peShr (quad pe : Nat)
  /-- PE_SRA (R80). A PE executes an arithmetic SRA. -/
  | peSra (quad pe : Nat)
  /-- PE_MUL (R80). A PE executes MUL, keeping the low 32 bits. -/
  | peMul (quad pe : Nat)
  /-- PE_MULH (R80). A PE executes MULH, keeping the high 32 bits. -/
  | peMulh (quad pe : Nat)
  /-- PE_MINU (R80). A PE executes MINU. -/
  | peMinu (quad pe : Nat)
  /-- PE_MAXU (R80). A PE executes MAXU. -/
  | peMaxu (quad pe : Nat)
  /-- PE_CMPLT (R80). A PE executes CMPLT, setting F. -/
  | peCmplt (quad pe : Nat)
  /-- PE_CMPEQ (R80). A PE executes CMPEQ, setting F. -/
  | peCmpeq (quad pe : Nat)
  /-- PE_SEL (R80). A PE executes SEL on F. -/
  | peSel (quad pe : Nat)
  /-- PE_HASH (R81). A PE executes HASH with the hash unit. -/
  | peHash (quad pe : Nat)
  /-- PE_CRC (R80). A PE executes a CRC-32C update. -/
  | peCrc (quad pe : Nat)
  /-- PE_RANGE (R80). A PE executes RANGE, mapping A onto 0 to B-1. -/
  | peRange (quad pe : Nat)
  /-- PE_LUT (R80). A PE executes LUT, reading a lookup word. -/
  | peLut (quad pe : Nat)
  /-- PE_BKT (R80). A PE executes BKT over ascending lookup words in 8 FCLK. -/
  | peBkt (quad pe : Nat)
  /-- PE_EMIT (R82). A PE executes EMIT, sending an index record to its row collector. -/
  | peEmit (quad pe : Nat)
  /-- PE_BRF (R80). A PE executes BRF, branching on F. -/
  | peBrf (quad pe : Nat)
  /-- MIO_OUTPUT_PASS (R83). The output port passes up to one record per lane to the Forager in an FCLK. -/
  | mioOutputPass (quad : Nat)
  /-- MIO_TOKEN_CLOSE (R84). END has arrived on every LANE_MASK lane, and the output port closes the token with LAST
  or an EMPTY record. -/
  | mioTokenClose (quad : Nat)
  /-- MIO_TOKEN_TIMEOUT (R105). A token with no progress for 1 ms makes its slot INVALID and its requests complete
  with TIMEOUT. -/
  | mioTokenTimeout (quad : Nat)
  /-- MIO_PARITY_ERROR (R104). A parity error in a READY slot's window marks the slot INVALID and drops its tokens. -/
  | mioParityError (quad slot : Nat)
  /-- SAMPLE_RECORD (R109). Every PERIOD FCLK, sampling records the depths of the selected queues. -/
  | sampleRecord
  /-- SAMPLE_RESTART (R114). A write of RESTART sets WPTR to 0 and clears FULL and DROPPED. -/
  | sampleRestart
  /-- FORAGER_RECORD_ARRIVE (R142). An index record enters the index buffer, or is dropped and counted under R129. -/
  | foragerRecordArrive
  /-- GATHER_ISSUE (R131). The Forager issues a row read to a gather engine slot when one is free, in class order. -/
  | gatherIssue
  /-- ARRIVAL_RESERVE (R169). The Forager reserves an arrival slot and its accumulator lines before sending remote
  requests. -/
  | arrivalReserve (req smp grp ent : Nat)
  /-- PREFETCH_ISSUE (R140). The Forager issues a lookahead prefetch for a candidate's record. -/
  | prefetchIssue (req : Nat)
  /-- PREFETCH_DONE (R140). A prefetch has filled its lines into the Hoard and frees its slot. -/
  | prefetchDone (rid : Nat)
  /-- ROW_POOLED (R134). A returned row is scaled and pooled into its bag, or placed for CONCAT. -/
  | rowPooled (rid : Nat)
  /-- HIST_WALK_BEGIN (R375). With the start message, the walker reads the directory entry and takes its snapshot, or
  makes the walk empty with BADID. -/
  | histWalkBegin (req : Nat)
  /-- HIST_CHUNK_POST (R380). After a chunk's header is written, the walker posts the buffer's semaphore on the
  history tile. -/
  | histChunkPost (req : Nat)
  /-- HIST_READ_RESUME (R380). A release of chunk c-2 by every history tile lets the walker issue reads for chunk c. -/
  | histReadResume (req : Nat)
  /-- NOP (R254). A tile executes NOP. -/
  | tNop (tile : Nat)
  /-- ADD (R254). A tile executes ADD. -/
  | tAdd (tile : Nat)
  /-- ADDI (R254). A tile executes ADDI. -/
  | tAddi (tile : Nat)
  /-- SUB (R254). A tile executes SUB. -/
  | tSub (tile : Nat)
  /-- MUL (R254). A tile executes MUL. -/
  | tMul (tile : Nat)
  /-- AND (R254). A tile executes AND. -/
  | tAnd (tile : Nat)
  /-- OR (R254). A tile executes OR. -/
  | tOr (tile : Nat)
  /-- XOR (R254). A tile executes XOR. -/
  | tXor (tile : Nat)
  /-- ANDI (R254). A tile executes ANDI. -/
  | tAndi (tile : Nat)
  /-- SHL (R254). A tile executes SHL. -/
  | tShl (tile : Nat)
  /-- SHR (R254). A tile executes SHR. -/
  | tShr (tile : Nat)
  /-- SRA (R254). A tile executes SRA. -/
  | tSra (tile : Nat)
  /-- SLT (R254). A tile executes SLT. -/
  | tSlt (tile : Nat)
  /-- SLTU (R254). A tile executes SLTU. -/
  | tSltu (tile : Nat)
  /-- MIN (R254). A tile executes a signed MIN. -/
  | tMin (tile : Nat)
  /-- MAX (R254). A tile executes a signed MAX. -/
  | tMax (tile : Nat)
  /-- LI (R254). A tile executes LI. -/
  | tLi (tile : Nat)
  /-- LIH (R254). A tile executes LIH. -/
  | tLih (tile : Nat)
  /-- RDSR (R254). A tile executes RDSR, reading a special value. -/
  | tRdsr (tile : Nat)
  /-- BEQ (R254). A tile executes BEQ. -/
  | tBeq (tile : Nat)
  /-- BNE (R254). A tile executes BNE. -/
  | tBne (tile : Nat)
  /-- BLT (R254). A tile executes BLT. -/
  | tBlt (tile : Nat)
  /-- BGE (R254). A tile executes BGE. -/
  | tBge (tile : Nat)
  /-- JAL (R254). A tile executes JAL. -/
  | tJal (tile : Nat)
  /-- JR (R254). A tile executes JR. -/
  | tJr (tile : Nat)
  /-- END (R281). A tile executes END and stalls until its queues and global accesses drain. -/
  | tEnd (tile : Nat)
  /-- TRAP (R254). A tile executes TRAP, aborting the task with USER_TRAP. -/
  | tTrap (tile : Nat)
  /-- YIELD (R408). A tile executes YIELD, parking under raised demand or acting as a NOP. -/
  | tYield (tile : Nat)
  /-- LDS (R258). A tile executes LDS from local SRAM. -/
  | tLds (tile : Nat)
  /-- STS (R258). A tile executes STS to local SRAM. -/
  | tSts (tile : Nat)
  /-- LDG (R259). A tile executes LDG, checked and issued to device memory. -/
  | tLdg (tile : Nat)
  /-- STG (R259). A tile executes STG, checked and issued to device memory. -/
  | tStg (tile : Nat)
  /-- LDGB (R259). A tile executes LDGB, moving 64 bytes to SRAM. -/
  | tLdgb (tile : Nat)
  /-- STGB (R259). A tile executes STGB, moving 64 bytes from SRAM. -/
  | tStgb (tile : Nat)
  /-- ATOMV (R262). A tile executes ATOMV, issuing a lane atomic in the Hoard. -/
  | tAtomv (tile : Nat)
  /-- ATOMS (R262). A tile executes ATOMS, issuing CAS64 or SWAP64. -/
  | tAtoms (tile : Nat)
  /-- FENCE (R263). A tile executes FENCE and stalls until earlier global accesses are applied. -/
  | tFence (tile : Nat)
  /-- EXEC (R265). A tile executes EXEC, copying a descriptor to an engine queue. -/
  | tExec (tile : Nat)
  /-- WAITE (R254). A tile executes WAITE, waiting for a queue to drain to IMM descriptors. -/
  | tWaite (tile : Nat)
  /-- SEMPOST (R269). A tile executes SEMPOST, incrementing a semaphore. -/
  | tSempost (tile : Nat)
  /-- SEMWAIT (R269). A tile executes SEMWAIT, waiting for a semaphore and decrementing it. -/
  | tSemwait (tile : Nat)
  /-- SEMRD (R254). A tile executes SEMRD. -/
  | tSemrd (tile : Nat)
  /-- QSEND (R272). A tile executes QSEND, queuing a quill for a local or remote destination. -/
  | tQsend (tile : Nat)
  /-- QRECV (R275). A tile executes QRECV, taking the oldest quill of a channel. -/
  | tQrecv (tile : Nat)
  /-- QWAIT (R275). A tile executes QWAIT, returning the mask of non-empty channels. -/
  | tQwait (tile : Nat)
  /-- BARRIER (R279). A tile executes BARRIER, fencing and then sending its arrival. -/
  | tBarrier (tile : Nat)
  /-- HNEXT (R381). A tile executes HNEXT, releasing a history buffer to the walker or being discarded as HNEXT_STRAY. -/
  | tHnext (tile : Nat)
  /-- GLOBAL_ACCESS_DONE (R256). A global load or atomic returns its data, or a store is applied or acknowledged. -/
  | globalAccessDone (tile acc : Nat)
  /-- QUILL_DELIVER (R274). A quill reaches its destination channel, the spill region, or aborts the task on overflow. -/
  | quillDeliver (tile : Nat)
  /-- TILE_PARKED (R408). Every tile of the task has parked and written its yield record, so the task is yielded. -/
  | tileParked (req : Nat)
  /-- YIELD_CANCEL (R410). 20 us after demand, a tile has not parked and the yield is cancelled. -/
  | yieldCancel (req : Nat)
  /-- TASK_RESUME (R412). A yielded task resumes on its tiles once they are free and no displacing request waits. -/
  | taskResume (req : Nat)
  /-- MATRIX_PASS_START (R308). A matrix descriptor starts, decrements WAIT, checks itself and begins its weight load
  or feed. -/
  | matrixPassStart (tile : Nat)
  /-- MATRIX_PASS_DONE (R309). A matrix pass writes its last result and posts POST_SEM. -/
  | matrixPassDone (tile : Nat)
  /-- VECTOR_PASS_START (R332). A vector descriptor starts, checks its chain and range, and reads its beats. -/
  | vectorPassStart (tile : Nat)
  /-- VECTOR_PASS_DONE (R332). A vector pass writes its last beat and posts POST_SEM. -/
  | vectorPassDone (tile : Nat)
  /-- REDUCTION_START (R339). A reduction descriptor starts and reads its beats. -/
  | reductionStart (tile : Nat)
  /-- REDUCTION_DONE (R339). A reduction writes its last result and completes. -/
  | reductionDone (tile : Nat)
  /-- STREAM_DESC_START (R350). A stream descriptor starts and its whole span is checked before any transfer. -/
  | streamDescStart (tile unit : Nat)
  /-- STREAM_TRANSFER_ISSUE (R346). A stream unit issues a transfer when it has an entry, a credit and tokens. -/
  | streamTransferIssue (tile unit : Nat)
  /-- STREAM_TRANSFER_DONE (R345). A transfer releases its entry, and finished slots post SLOT_SEM in order. -/
  | streamTransferDone (tile unit : Nat)
  /-- HOARD_REQUEST (R149). A slice serves one port request in round-robin order, filling or writing back lines as
  needed. -/
  | hoardRequest (slice ecc : Nat)
  /-- HOARD_ADD (R162). A slice applies an atomic ADD on INT32, FP32 or BF16 lanes. -/
  | hoardAdd (slice : Nat)
  /-- HOARD_MAX (R162). A slice applies an atomic MAX. -/
  | hoardMax (slice : Nat)
  /-- HOARD_MIN (R162). A slice applies an atomic MIN. -/
  | hoardMin (slice : Nat)
  /-- CAS64 (R162). A slice applies an atomic CAS64. -/
  | cas64 (slice : Nat)
  /-- SWAP64 (R162). A slice applies an atomic SWAP64. -/
  | swap64 (slice : Nat)
  /-- ROW_COMMIT (R167). A slice switches a row's directory entry to the staged generation in one HCLK. -/
  | rowCommit (slice : Nat)
  /-- WAY_CHANGE_DONE (R157). A way change takes effect once its held lines are released, and the den command replies. -/
  | wayChangeDone (way : Nat)
  /-- PIN_REFILL_DONE (R159). A pin region's background fill ends, and PIN_VER is set. -/
  | pinRefillDone (table : Nat)
  /-- FLUSH_DONE (R175). The flush engine has written back every dirty line, and the Hoard powers down. -/
  | flushDone
  /-- HBM_ACCESS (R187). A pseudo-channel queue serves a line access at HBM. -/
  | hbmAccess (pc : Nat) (ecc : Nat)
  /-- HBM_SCRUB_READ (R191). The scrub reads and corrects one word in its period. -/
  | hbmScrubRead (stack : Nat) (ecc : Nat)
  /-- HBM_ROW_REPAIR (R198). A repair candidate starts an online soft repair, or is listed as pending. -/
  | hbmRowRepair (stack : Nat)
  /-- HBM_REPAIR_DONE (R198). An online repair ends, the bank is released and a Ledger record is written. -/
  | hbmRepairDone (stack : Nat)
  /-- HBM_TEMP_READ (R194). The Dormouse reads a stack's temperature and moves its thermal level. -/
  | hbmTempRead (stack : Nat) (temp : BitVec 8)
  /-- DIE_TEMP_READ (R580). The sensor sequencer reads a logic die and moves its J level and ceiling. -/
  | dieTempRead (die : Nat) (temp : BitVec 8)
  /-- HUSH_EXIT (R568). A wake event or thermal exit relocks the PLLs, makes up the timers and resumes work in 25 us. -/
  | hushExit
  /-- HUSH_ALARM (R567). The AON tick counter reaches HUB_HUSH.ALARM, which is a wake. -/
  | hushAlarm
  /-- STANDBY_CLOCK_STOP (R571). 1 ms after the last service command in STANDBY, the fast clocks stop again. -/
  | standbyClockStop
  /-- POWER_LIMITER_EVAL (R576). Every 100 us the limiter compares P_100 with the cap and steps its value. -/
  | powerLimiterEval (p100 p1ms : Nat)
  /-- TCLK_STEP (R561). A 100 MHz TCLK step takes effect on every tile. -/
  | tclkStep
  /-- AONCLK_TRIM (R557). Once per second the Dormouse trims AONCLK against the crystal. -/
  | aonclkTrim (ok : Bool)
  /-- ENERGY_CALIBRATE (R419). Every second the Dormouse sets the energy calibration factor from the rail measurement. -/
  | energyCalibrate (factor : W32)
  /-- REGULATOR_REFILL (R414). Every 1 us of Warren time, RATE tokens are added to every enabled bucket up to BURST. -/
  | regulatorRefill
  /-- ACCT_SNAP (R420). A write of SNAP copies every accounting counter into the snapshot bank in one HCLK. -/
  | acctSnap
  /-- UPDATE_ACCEPT (R229). The update engine accepts a ring-head descriptor once its slot and tokens are available,
  resolving VSEL. -/
  | updateAccept (den ring : Nat)
  /-- UPDATE_STAGE (R231). The update engine starts staging a record as new-generation held lines, or skips it. -/
  | updateStage (den ring : Nat)
  /-- RECORD_BLOCK_READ_DONE (R236). A read of an update record block completes, or its failure ends the descriptor
  with ABORTED. -/
  | recordBlockReadDone (den ring : Nat)
  /-- WARREN_SWITCH_APPLY (R223). In the first HCLK at or after T_SW, a device applies the committed switch. -/
  | warrenSwitchApply
  /-- WARREN_PREPARE_TIMEOUT (R222). An answer still missing 10 ms after PREPARE makes the master send ABORT. -/
  | warrenPrepareTimeout
  /-- PREPARE (R220). A device checks the listed tables and answers PREPARED or REFUSED, locking on PREPARED. -/
  | prepare (port : Nat) (msg : Bytes)
  /-- PREPARED (R220). The master receives a device's PREPARED answer. -/
  | prepared (port : Nat) (msg : Bytes)
  /-- REFUSED (R222). The master receives a REFUSED answer and sends ABORT. -/
  | refusedMsg (port : Nat) (msg : Bytes)
  /-- COMMIT (R223). A device receives COMMIT with T_SW, or applies at once if late. -/
  | commit (port : Nat) (msg : Bytes)
  /-- ABORT (R221). A device receives ABORT and releases its lock. -/
  | abort (port : Nat) (msg : Bytes)
  /-- DRAINED (R220). The master receives DRAINED from a device. -/
  | drained (port : Nat) (msg : Bytes)
  /-- DRAINED_SEND (R220). A device sends DRAINED once every previous active slot of the switch has a count of zero. -/
  | drainedSend
  /-- RELEASE (R224). A device receives RELEASE, which removes the Warren holds. -/
  | release (port : Nat) (msg : Bytes)
  /-- SW_QUERY (R550). A device answers a SW_QUERY with SW_STATE. -/
  | swQuery (port : Nat) (msg : Bytes)
  /-- SW_STATE (R550). A new master receives a device's pending-switch state. -/
  | swState (port : Nat) (msg : Bytes)
  /-- HEARTBEAT (R546). A member receives HEARTBEAT and corrects its Warren time. -/
  | heartbeat (port : Nat) (msg : Bytes)
  /-- HEARTBEAT_TICK (R546). Every 100 us the master sends HEARTBEAT. -/
  | heartbeatTick
  /-- WARREN_HOLD_ENTRY (R547). A member with no HEARTBEAT for 2 ms enters HOLD. -/
  | warrenHoldEntry
  /-- CLAIM (R549). A device receives CLAIM and accepts a higher epoch's master. -/
  | claim (port : Nat) (msg : Bytes)
  /-- HUSH_NOTE (R536). A device receives HUSH_NOTE and stops its transaction timers. -/
  | hushNote (port : Nat) (msg : Bytes)
  /-- WAKE_NOTE (R536). A device receives WAKE_NOTE and resumes its transaction timers. -/
  | wakeNote (port : Nat) (msg : Bytes)
  /-- SURVEY_Q (R548). A device answers SURVEY_Q with its survey entry. -/
  | surveyQ (port : Nat) (msg : Bytes)
  /-- SURVEY_R (R548). The master receives a survey entry. -/
  | surveyR (port : Nat) (msg : Bytes)
  /-- ROW_READ (R537). An owner serves a ROW_READ on the named slot and answers ROW_DATA. -/
  | rowRead (port : Nat) (msg : Bytes)
  /-- POOL_REQ (R537). An owner pools the requested rows and answers POOL_CONTRIB. -/
  | poolReq (port : Nat) (msg : Bytes)
  /-- BULK_RD (R540). An owner serves a remote bulk read and answers BULK_DATA. -/
  | bulkRd (port : Nat) (msg : Bytes)
  /-- BULK_WR (R540). An owner applies a remote bulk write and answers WRITE_ACK. -/
  | bulkWr (port : Nat) (msg : Bytes)
  /-- ATOMIC (R540). An owner applies a remote atomic and answers ATOMIC_RSP. -/
  | atomic (port : Nat) (msg : Bytes)
  /-- QUILL (R541). A device receives a remote quill and delivers it, or discards it as QUILL_STRAY. -/
  | quill (port : Nat) (msg : Bytes)
  /-- ROW_DATA (R537). A requester receives a remote row and pools or places it. -/
  | rowData (port : Nat) (msg : Bytes)
  /-- BULK_DATA (R540). A requester receives bulk read data. -/
  | bulkData (port : Nat) (msg : Bytes)
  /-- WRITE_ACK (R540). A requester receives the acknowledgement of a remote write. -/
  | writeAck (port : Nat) (msg : Bytes)
  /-- ATOMIC_RSP (R540). A requester receives the old values of a remote atomic. -/
  | atomicRsp (port : Nat) (msg : Bytes)
  /-- POOL_CONTRIB (R539). A requester applies a contribution piece to its arrival slot. -/
  | poolContrib (port : Nat) (msg : Bytes)
  /-- LCTL (R525). A port receives an LCTL flit returning credits. -/
  | lctl (port : Nat) (flit : Bytes)
  /-- TRANSIT_MESSAGE (R532). A transit device forwards a message, or drops it for HOPS or NOROUTE. -/
  | transitMessage (port : Nat) (msg : Bytes)
  /-- XACT_TIMEOUT (R535). A transaction with no answer for 2 ms fails. -/
  | xactTimeout (tid : W32)
  /-- CODEWORD_RECEIVE (R521). A port receives a codeword, corrects it or sends NAK, and processes ACK and NAK. -/
  | codewordReceive (port : Nat) (header : BitVec 20) (errs : List Nat) (bad : Bool)
  /-- LANE_LOCK_LOST (R520). A lane loses lock, is fenced, and the port retrains or goes DOWN. -/
  | laneLockLost (port lane : Nat)
  /-- PORT_DOWN (R522). A port goes DOWN on partner silence, lost lanes or failed retrains. -/
  | portDown (port : Nat)
  /-- LINK_TRAIN (R517). A port allowed by LINK_MASK runs training to L0. -/
  | linkTrain (port : Nat) (locked : BitVec 8) (peerId peerPort family delay : Nat)
  /-- LINK_TRAIN_RETRY (R517). A failed training attempt is repeated every 100 ms. -/
  | linkTrainRetry (port : Nat)
  /-- CMD_NOP (R489). Command NOP does nothing. -/
  | cmdNop (src : CmdSrc)
  /-- IDENTIFY (R490). Command IDENTIFY returns the family, firmware, serial, role and state. -/
  | identify (src : CmdSrc)
  /-- DEV_STATUS (R490). Command DEV_STATUS returns power, temperatures and health. -/
  | devStatus (src : CmdSrc)
  /-- PROFILE_GET (R489). Command PROFILE_GET writes a stored profile to DEST. -/
  | profileGet (src : CmdSrc)
  /-- PROFILE_WRITE (R512). PROFILE_SET with OP WRITE stores a profile in a new profile set. -/
  | profileWrite (src : CmdSrc)
  /-- PROFILE_SELECT (R513). PROFILE_SET with OP SELECT makes a profile active and records the choice. -/
  | profileSelect (src : CmdSrc)
  /-- PROFILE_CLEAR (R512). PROFILE_SET with OP CLEAR removes the recorded choice. -/
  | profileClear (src : CmdSrc)
  /-- DEV_HUSH (R489). Command DEV_HUSH enters HUSH after its reply. -/
  | devHush (src : CmdSrc)
  /-- SCRUB_RETAINED (R472). Command SCRUB_RETAINED destroys every held den. -/
  | scrubRetained (src : CmdSrc)
  /-- P2P_PROBE (R460). Command P2P_PROBE reads 64 bytes at a host IOVA to test reachability. -/
  | p2pProbe (src : CmdSrc)
  /-- DEN_CREATE (R392). Command DEN_CREATE makes a FREE den ACTIVE with a granule, fill mask and token. -/
  | denCreate (src : CmdSrc)
  /-- DEN_CONFIG_TILES (R396). DEN_CONFIG selector TILES sets the den's tile set. -/
  | denConfigTiles (src : CmdSrc)
  /-- DEN_CONFIG_HBM (R397). DEN_CONFIG selector HBM sets the den's stripe ranges. -/
  | denConfigHbm (src : CmdSrc)
  /-- DEN_CONFIG_WAYS (R398). DEN_CONFIG selector WAYS sets the fill mask and the PIN and SCRATCH ways. -/
  | denConfigWays (src : CmdSrc)
  /-- DEN_CONFIG_MIOTER (R398). DEN_CONFIG selector MIOTER sets the den's slots and entries. -/
  | denConfigMioter (src : CmdSrc)
  /-- DEN_CONFIG_REGULATOR (R492). DEN_CONFIG selector REGULATOR sets one bucket's configuration. -/
  | denConfigRegulator (src : CmdSrc)
  /-- DEN_CONFIG_SCHED (R492). DEN_CONFIG selector SCHED sets CLASS or DEADLINE mode. -/
  | denConfigSched (src : CmdSrc)
  /-- DEN_CONFIG_FLR (R464). DEN_CONFIG selector FLR sets FLR_SCRUB. -/
  | denConfigFlr (src : CmdSrc)
  /-- DEN_CONFIG_TOKEN (R470). DEN_CONFIG selector TOKEN changes the attach token. -/
  | denConfigToken (src : CmdSrc)
  /-- DEN_CONFIG_GRAN (R185). DEN_CONFIG selector GRAN changes the granule of a den that holds no stripe. -/
  | denConfigGran (src : CmdSrc)
  /-- DEN_QUERY (R493). Command DEN_QUERY returns the den state and queue. -/
  | denQuery (src : CmdSrc)
  /-- DEN_DESTROY (R394). Command DEN_DESTROY aborts, clears and frees the den. -/
  | denDestroy (src : CmdSrc)
  /-- DEN_RESUME (R735). Command DEN_RESUME returns a QUIESCED den to ACTIVE. -/
  | denResume (src : CmdSrc)
  /-- HIST_DIR_SET (R369). Command HIST_DIR_SET sets the den's history directory. -/
  | histDirSet (src : CmdSrc)
  /-- ATTACH (R469). Command ATTACH checks the token, writes the retain record and releases the held den. -/
  | attach (src : CmdSrc)
  /-- MODEL_LOAD (R498). Command MODEL_LOAD checks and loads a model package. -/
  | modelLoad (src : CmdSrc)
  /-- MODEL_UNLOAD (R500). Command MODEL_UNLOAD removes a model with no admitted request. -/
  | modelUnload (src : CmdSrc)
  /-- MODEL_QUERY (R494). Command MODEL_QUERY returns a model's placement data. -/
  | modelQuery (src : CmdSrc)
  /-- TABLE_CREATE (R120). Command TABLE_CREATE checks and installs a table descriptor. -/
  | tableCreate (src : CmdSrc)
  /-- TABLE_MODIFY (R502). Command TABLE_MODIFY changes the scale, default or pin fields. -/
  | tableModify (src : CmdSrc)
  /-- TABLE_VERSION_SET (R216). Command TABLE_VERSION_SET writes BASE and VALID of one slot. -/
  | tableVersionSet (src : CmdSrc)
  /-- TABLE_SWITCH (R218). TABLE_SWITCH with WARREN 0 switches up to 8 tables in one HCLK. -/
  | tableSwitch (src : CmdSrc)
  /-- TABLE_SWITCH_WARREN (R219). TABLE_SWITCH with WARREN 1 on the master starts a Warren switch with PREPARE. -/
  | tableSwitchWarren (src : CmdSrc)
  /-- TABLE_QUERY (R503). Command TABLE_QUERY returns slot states and counts. -/
  | tableQuery (src : CmdSrc)
  /-- TABLE_DELETE (R501). Command TABLE_DELETE deletes an unused table descriptor. -/
  | tableDelete (src : CmdSrc)
  /-- CTX_STORE (R96). Command CTX_STORE checks a context image and writes it into a config store entry. -/
  | ctxStore (src : CmdSrc)
  /-- CTX_LOAD (R101). Command CTX_LOAD starts loading a slot from an entry. -/
  | ctxLoad (src : CmdSrc)
  /-- CTX_LOAD_DONE (R102). A slot load ends READY or INVALID and CTX_LOAD replies. -/
  | ctxLoadDone (quad : Nat)
  /-- CTX_SELECT (R106). Command CTX_SELECT rebinds an entry point and class to a slot. -/
  | ctxSelect (src : CmdSrc)
  /-- CTX_FREE (R504). Command CTX_FREE zeroes a slot and makes it EMPTY. -/
  | ctxFree (src : CmdSrc)
  /-- CTX_QUERY (R504). Command CTX_QUERY returns a quadrant's slot and entry states. -/
  | ctxQuery (src : CmdSrc)
  /-- WARREN_STATUS (R505). Command WARREN_STATUS returns the Warren state and time. -/
  | warrenStatus (src : CmdSrc)
  /-- ROUTE_SET (R529). Command ROUTE_SET replaces a routing entry. -/
  | routeSet (src : CmdSrc)
  /-- LINK_CTRL_DISABLE (R505). LINK_CTRL with ACTION 0 disables a port. -/
  | linkCtrlDisable (src : CmdSrc)
  /-- LINK_CTRL_ENABLE (R505). LINK_CTRL with ACTION 1 enables a port. -/
  | linkCtrlEnable (src : CmdSrc)
  /-- LINK_CTRL_RETRAIN (R518). LINK_CTRL with ACTION 2 retrains a port. -/
  | linkCtrlRetrain (src : CmdSrc)
  /-- LINK_CTRL_CLEAR_FENCES (R520). LINK_CTRL with ACTION 3 lifts lane fences and retrains on 8 lanes. -/
  | linkCtrlClearFences (src : CmdSrc)
  /-- WARREN_SURVEY (R548). Command WARREN_SURVEY collects survey entries from every Warren id. -/
  | warrenSurvey (src : CmdSrc)
  /-- MARGIN_RUN (R203). Command MARGIN_RUN sweeps the selected stacks and records margins. -/
  | marginRun (src : CmdSrc)
  /-- TILE_FENCE (R729). Command TILE_FENCE fences a tile. -/
  | tileFence (src : CmdSrc)
  /-- TILE_UNFENCE (R732). Command TILE_UNFENCE self-tests a fenced tile and lifts the fence on a pass. -/
  | tileUnfence (src : CmdSrc)
  /-- LEDGER_READ (R694). Command LEDGER_READ copies Ledger bytes to DEST. -/
  | ledgerRead (src : CmdSrc)
  /-- DIAG_RUN (R507). Command DIAG_RUN tests one idle unit. -/
  | diagRun (src : CmdSrc)
  /-- TAG_READ (R715). Command TAG_READ copies Service tag blocks over I2C. -/
  | tagRead (src : CmdSrc)
  /-- FW_STAGE (R602). Command FW_STAGE checks an image and writes it into the non-running bank. -/
  | fwStage (src : CmdSrc)
  /-- FW_ACTIVATE (R509). Command FW_ACTIVATE makes a bank the first choice. -/
  | fwActivate (src : CmdSrc)
  /-- FW_QUERY (R509). Command FW_QUERY returns the bank states. -/
  | fwQuery (src : CmdSrc)
  /-- FW_COMMIT (R509). Command FW_COMMIT raises the fused anti-rollback counter. -/
  | fwCommit (src : CmdSrc)
  /-- UART_CMD_FRAME (R631). A CMD frame on UART_SVC is checked and taken as a service command, or answered with NAK. -/
  | uartCmdFrame (frame : Bytes)
  /-- UART_CFG_FRAME (R631). A CFG frame is acknowledged with CFG_ACK. -/
  | uartCfgFrame (frame : Bytes)
  /-- UART_CFG_APPLY (R631). 1 ms after CFG_ACK, the new UART_SVC settings apply. -/
  | uartCfgApply
  /-- UART_FRAME_GAP (R631). A gap of 1 ms inside a frame sends NAK 5 and discards the frame. -/
  | uartFrameGap
  /-- UART_BREAK (R631). A break discards the frame in progress. -/
  | uartBreak
  /-- PING (R640). A DX-60 receives PING on UART_MGT and answers STATUS. -/
  | ping (msg : Bytes)
  /-- WAKE (R640). A DX-60 accepts WAKE, which wakes it from HUSH. -/
  | wake (msg : Bytes)
  /-- SENSORS (R640). A DX-60 receives SENSORS and answers SENSOR_DATA. -/
  | sensors (msg : Bytes)
  /-- ALERT_SEND (R642). Within 10 ms of a GPIO or state change, the DX-60 sends ALERT to ALERT_DST. -/
  | alertSend
  /-- MGT_ARB_LOSS (R639). A transmitter reads a dominant bit against its recessive one and releases the line. -/
  | mgtArbLoss
  /-- MGT_RETRY (R639). After idle plus backoff, a losing DX-60 starts its message again, or gives up after 16 losses. -/
  | mgtRetry
  /-- SMBUS_ARP (R643). The SMBus target takes part in the Address Resolution Protocol. -/
  | smbusArp (addr : BitVec 7)
  /-- SET_ENDPOINT_ID (R644). MCTP control Set Endpoint ID sets the endpoint's EID. -/
  | setEndpointId (vdm : Bool) (msg : Bytes)
  /-- GET_ENDPOINT_ID (R644). MCTP control Get Endpoint ID returns the EID. -/
  | getEndpointId (vdm : Bool) (msg : Bytes)
  /-- GET_MCTP_VERSION_SUPPORT (R644). MCTP control Get MCTP Version Support returns the supported versions. -/
  | getMctpVersionSupport (vdm : Bool) (msg : Bytes)
  /-- GET_MESSAGE_TYPE_SUPPORT (R644). MCTP control Get Message Type Support returns the supported types. -/
  | getMessageTypeSupport (vdm : Bool) (msg : Bytes)
  /-- GET_ENDPOINT_UUID (R644). MCTP control Get Endpoint UUID returns the UUID. -/
  | getEndpointUuid (vdm : Bool) (msg : Bytes)
  /-- GET_TID (R645). PLDM GetTID returns the terminus ID. -/
  | getTid (vdm : Bool) (msg : Bytes)
  /-- SET_TID (R645). PLDM SetTID sets the terminus ID. -/
  | setTid (vdm : Bool) (msg : Bytes)
  /-- GET_PLDM_VERSION (R645). PLDM GetPLDMVersion returns the version. -/
  | getPldmVersion (vdm : Bool) (msg : Bytes)
  /-- GET_PLDM_TYPES (R645). PLDM GetPLDMTypes returns types 0 and 2. -/
  | getPldmTypes (vdm : Bool) (msg : Bytes)
  /-- GET_PLDM_COMMANDS (R645). PLDM GetPLDMCommands returns the supported commands. -/
  | getPldmCommands (vdm : Bool) (msg : Bytes)
  /-- GET_PDR_REPOSITORY_INFO (R645). PLDM GetPDRRepositoryInfo returns repository information. -/
  | getPdrRepositoryInfo (vdm : Bool) (msg : Bytes)
  /-- GET_PDR (R645). PLDM GetPDR returns a PDR. -/
  | getPdr (vdm : Bool) (msg : Bytes)
  /-- GET_SENSOR_READING (R645). PLDM GetSensorReading returns a numeric sensor. -/
  | getSensorReading (vdm : Bool) (msg : Bytes)
  /-- GET_STATE_SENSOR_READINGS (R645). PLDM GetStateSensorReadings returns state sensors. -/
  | getStateSensorReadings (vdm : Bool) (msg : Bytes)
  /-- USB_COMMAND (R648). The data stage of vendor request COMMAND completes and the packet is taken as a service
  command. -/
  | usbCommand (pkt : Bytes)
  /-- GET_REPLY (R650). Vendor request GET_REPLY returns the held reply, 0 bytes, or a STALL. -/
  | getReply (tag : W16)
  /-- USB_SETUP_STALL (R647). A vendor request of any other form receives a STALL on EP0. -/
  | usbSetupStall (setup : Bytes)
  /-- USB_BUS_RESET (R649). A USB bus reset discards an incomplete COMMAND or ends an EP1 transfer. -/
  | usbBusReset (partialCmd : Bool) (high : Bool)
  /-- VBUS_LOSS (R646). A loss of VBUS acts as a bus reset and detaches D+. -/
  | vbusLoss (partialCmd : Bool)
  /-- EP1_PACKET (R651). The host takes an EP1 IN packet or sends an EP1 OUT packet of an open transfer. -/
  | ep1Packet (data : Bytes)
  /-- EP1_TIMEOUT (R651). An open EP1 transfer idle for 2 s ends and the command ends with ABORTED. -/
  | ep1Timeout
  /-- POWER_ON (R592). The always-on rails become valid, the device resets fully and starts a cold bring-up. -/
  | powerOn (b : BootIn)
  /-- SYS_RESET (R592). SYS_RESET# held low for 10 us causes a full reset and a cold bring-up at release. -/
  | sysReset (ns : Nat) (b : BootIn)
  /-- JOURNAL_READ_DONE (R687). The full journal reading ends and the derived state applies. -/
  | journalReadDone
  /-- BRING_UP_COMPLETE (R607). The PF stops answering with CRS and the device serves every window and source. -/
  | bringUpComplete
  /-- WDG_CP_EXPIRY (R673). WDG_CP expires, raising the save trap and starting the grace. -/
  | wdgCpExpiry
  /-- WDG_CP_GRACE_END (R673). The 50 ms grace ends, or firmware ends it, and the hub or device resets. -/
  | wdgCpGraceEnd (b : BootIn)
  /-- WDG_AON_EXPIRY (R675). WDG_AON expires and the device resets fully in the next AONCLK. -/
  | wdgAonExpiry (b : BootIn)
  /-- PLL_LOST (R737). A running PLL loses lock, which is a FATAL fault. -/
  | pllLost (b : BootIn)
  /-- DEN_FAULT (R734). A DEN-class uncorrectable error quiesces its den. -/
  | denFault (cause : Nat) (den index : Nat)
  /-- DEVICE_FAULT (R736). A DEVICE-class error runs the trap, grace and hub reset. -/
  | deviceFault (cause : Nat) (b : BootIn)
  /-- FATAL_FAULT (R737). A FATAL error writes its record and causes a full reset within 3 ms. -/
  | fatalFault (cause : Nat) (b : BootIn)
  /-- TMR_GSTART (R660). A TMR_GSTART write starts or arms the named timers in one TMCLK. -/
  | tmrGstart (start : BitVec 8) (defer : Bool)
  /-- TMR_DEFERRED_START (R660). Warren time reaches TMR_GSTART_AT and the armed timers start. -/
  | tmrDeferredStart
  /-- TMR_GATE_WRITE (R667). A write of TMR_GATE enables or disables a gate, or is discarded as TMR_GATE_DUP. -/
  | tmrGateWrite (tmr : Nat) (value : W64)
  /-- TMR_MATCH (R661). A timer's reference reaches TMR_CMP, so it delivers one event and re-arms or ends. -/
  | tmrMatch (tmr : Nat)
  /-- JTAG_HALT (R670). JTAG halts the CP, freezing the timers if DBG_FREEZE is set. -/
  | jtagHalt
  /-- JTAG_REGRD (R739). The private instruction REGRD reads a register, or zeros when reads are not allowed. -/
  | jtagRegrd (off : Nat)
  /-- EXTEST (R757). EXTEST gives the covered balls to the boundary cells. -/
  | extest (cells : W64)
  /-- CLAMP (R757). CLAMP gives the covered balls to the boundary cells. -/
  | clamp
  /-- HIGHZ (R757). HIGHZ gives the covered balls to the boundary cells. -/
  | highz
  /-- SAMPLE_PRELOAD (R756). SAMPLE/PRELOAD captures and loads the boundary register. -/
  | samplePreload (balls cells : W64)
  /-- IDCODE (R756). IDCODE selects the identification register 0x1D06_05AB. -/
  | idcode
  /-- BYPASS (R756). BYPASS selects the one-bit bypass register. -/
  | bypass
  /-- TEST_LOGIC_RESET (R757). The TAP enters Test-Logic-Reset and the functions return to the balls. -/
  | testLogicReset
  /-- LEDGER_COMMIT (R685). A queued journal record's trailer is programmed and the record is committed. -/
  | ledgerCommit
  /-- LEDGER_SECTOR_RECYCLE (R688). Before erasing the oldest sector, current STATE records are rewritten and anchors
  are written. -/
  | ledgerSectorRecycle
  /-- LEDGER_HOURLY (R690). Every powered hour, the POWER record and changed thermal counts are written. -/
  | ledgerHourly
  /-- TAG_UPDATE (R709). The Dormouse composes, writes and checks the inactive tag bank, then flips the pointer. -/
  | tagUpdate
  /-- TAG_FLIP_RETRY (R713). Every 50 ms a deferred pointer flip is retried. -/
  | tagFlipRetry
  /-- TECH_AREA_CHECK (R714). Every 15 minutes, a changed technician area is journaled and ACK is written. -/
  | techAreaCheck
  /-- INVENTORY (R710). The RF tag answers Inventory and begins a session. -/
  | inventory
  /-- STAY_QUIET (R710). The RF tag executes Stay Quiet. -/
  | stayQuiet
  /-- READ_SINGLE_BLOCK (R710). The RF tag returns one block from 0 to 255. -/
  | readSingleBlock (block : Nat)
  /-- WRITE_SINGLE_BLOCK (R711). The RF tag writes a technician-area block, or refuses with 0x12. -/
  | writeSingleBlock (block : Nat) (data : Bytes)
  /-- READ_MULTIPLE_BLOCKS (R710). The RF tag returns up to 32 blocks. -/
  | readMultipleBlocks (block count : Nat)
  /-- SELECT (R712). The RF tag is selected and begins a session. -/
  | select
  /-- RESET_TO_READY (R710). The RF tag executes Reset to Ready. -/
  | resetToReady
  /-- GET_SYSTEM_INFORMATION (R710). The RF tag reports 256 blocks of 4 bytes. -/
  | getSystemInformation
  /-- EXTENDED_READ_SINGLE (R710). The RF tag returns one block from 0 to 2,047. -/
  | extendedReadSingle (block : Nat)
  /-- EXTENDED_WRITE_SINGLE (R711). The RF tag writes a technician-area block by extended address, or refuses it. -/
  | extendedWriteSingle (block : Nat) (data : Bytes)
  /-- EXTENDED_READ_MULTIPLE (R710). The RF tag returns up to 32 blocks by extended address. -/
  | extendedReadMultiple (block count : Nat)
  /-- EXTENDED_GET_SYSTEM_INFO (R710). The RF tag reports 2,048 blocks of 4 bytes. -/
  | extendedGetSystemInfo
  /-- RF_SESSION_END (R712). The RF session ends on field loss or 200 ms without a valid command. -/
  | rfSessionEnd
  /-- POWER_LOSS (R747). VDD_AON or VDDIO_AON falls below its valid level, or power is removed, resetting the Dormouse
  and losing HBM, RETAIN and queued Ledger records. -/
  | powerLoss
  /-- VBUS_RETURN (R646). USB_VBUS rises again above 4.0 V and the D+ pull-up is reattached. -/
  | vbusReturn
  /-- SW_QUERY_TIMEOUT (R550). A new master's 10 ms wait for SW_STATE answers ends and it chooses COMMIT or ABORT for
  the pending switch. -/
  | swQueryTimeout
  /-- SURVEY_TIMEOUT (R548). 10 ms after SURVEY_Q, entries with no answer are written as zero and WARREN_SURVEY
  replies, or returns TIMEOUT when none answered. -/
  | surveyTimeout
  /-- DEBUG_HALT_END (R670). JTAG ends the CP's debug halt and the frozen timers resume from their held counts. -/
  | debugHaltEnd
  /-- COMMAND_DONE (R483). A command that runs over time, such as DEN_DESTROY, MARGIN_RUN or FW_STAGE, finishes its
  work, writes its reply and releases its locks. -/
  | commandDone (id : Nat) (result : Bytes)
  /-- MGT_RX_DISCARD (R636). A UART_MGT receiver discards a message on a gap of 22 tb, a stop bit of 0, an address
  character in mid-message or a bad CRC, and counts it in RX_BAD. -/
  | mgtRxDiscard
  /-- SMBUS_PEC_DROP (R643). An SMBus packet whose PEC fails is dropped and counted in SMB_STAT.PEC_ERR. -/
  | smbusPecDrop
  /-- LINK_MSG (R524). A message with a reserved TYPE, a mismatched VC or a non-zero reserved field is discarded at
  its destination and logged. -/
  | linkMsg (port : Nat) (msg : Bytes)
  /-- REFUSED_READ (R20). A read of a CTRL hole, or a misaligned or wrongly sized CTRL read, returns zero and logs
  ACCESS_HOLE or ACCESS_SIZE. -/
  | refusedRead (fn off len : Nat)
  deriving DecidableEq, Repr

end Sys2Proof
end

