-- ==== Sys2Proof/Decode.lean ====
section
/-!
DEFINITION. Words of commands. spec/opcode_table.json gives no row of the DX-60 any bits: a command is an event at one of its
interfaces, and what an event carries (a TLP, a message, a packet, an instruction word of a tile or of a PE) is read by the
meaning that takes it. So no word spells a command.
-/

namespace Sys2Proof

/-- The command that a word of `nbits` bits spells: none, since no row of the table has bits. -/
def decodeTableWord (_nbits _w : Nat) : Option Instr := none

end Sys2Proof
end

