-- ==== Sys2Proof/Config.lean ====
section
/-!
DEFINITION. What one implementation fixes, and the free values: constants with no body, so that nothing can be proved
about the value one of them has. Each is named in the assumption log.
-/

namespace Sys2Proof.Config

/-- The value the spec leaves open at the `n`-th such moment, `w` bits wide (assumption 1). -/
opaque freeValue (w : Nat) (n : Nat) : BitVec w

/-- The bits an EXP stage gives for an operand, before the bound of 10 R325 is applied (assumption 2). -/
opaque expBits : W32 → W32
/-- As `expBits`, for LOG. -/
opaque logBits : W32 → W32
/-- As `expBits`, for SIGMOID. -/
opaque sigmoidBits : W32 → W32
/-- As `expBits`, for TANH. -/
opaque tanhBits : W32 → W32
/-- As `expBits`, for GELU. -/
opaque geluBits : W32 → W32
/-- As `expBits`, for RSQRT. -/
opaque rsqrtBits : W32 → W32
/-- As `expBits`, for RECIP. -/
opaque recipBits : W32 → W32

/-- Whether an ECDSA P-384 signature over the SHA-384 hash of some bytes verifies against the fused key (03 R94,
18 R602; assumption 4). The arguments are the signed bytes and the 96 signature bytes. -/
opaque signatureVerifies : Bytes → Bytes → Bool

/-- The bytes over which the shared-field CRC of a Warren switch is taken: the list of table number, FMT, LAYOUT, FLAGS, ROWS, SHARDS,
shard list and range boundaries of a table (07 R220; assumption 7). The spec names the fields and not their encoding. -/
opaque sharedFieldBytes : List Nat → List Nat → List Nat → Bytes

end Sys2Proof.Config
end

