-- ==== Sys2Proof/Machine/Bits.lean ====
section
/-!
DEFINITION. Bytes, bit fields, CRC-32C, and the sparse tables' read and write, used by every block of the model.
-/

namespace Sys2Proof.Machine

/-- Read a sparse table: the listed value, else the default `d`. -/
def mget {α : Type} (d : α) (m : SMap α) (k : Nat) : α :=
  match m with
  | [] => d
  | (j, v) :: rest => if j = k then v else mget d rest k

/-- Remove a number from a sparse table. -/
def merase {α : Type} (m : SMap α) (k : Nat) : SMap α := m.filter (fun p => p.1 != k)

/-- Put a value under a number, the numbers kept strictly rising. -/
def mput {α : Type} (m : SMap α) (k : Nat) (v : α) : SMap α :=
  match m with
  | [] => [(k, v)]
  | (j, w) :: rest =>
    if j = k then (k, v) :: merase rest k
    else if k < j then (k, v) :: (j, w) :: merase rest k
    else (j, w) :: mput rest k v

/-- Write a sparse table in canonical form: writing the default removes the entry. -/
def mset {α : Type} [DecidableEq α] (d : α) (m : SMap α) (k : Nat) (v : α) : SMap α :=
  if v = d then merase m k else mput m k v

/-- The numbers of a sparse table rise strictly. -/
def mrising {α : Type} (m : SMap α) : Bool :=
  match m with
  | [] => true
  | (j, _) :: rest =>
    (match rest with
     | [] => true
     | (k, _) :: _ => decide (j < k)) && mrising rest

/-- The canonical form of a sparse table with default `d`. -/
def mwf {α : Type} [DecidableEq α] (d : α) (m : SMap α) : Bool :=
  mrising m && m.all (fun p => decide (p.2 ≠ d))

/-- Remove every number from `lo` up to and not including `hi`. -/
def mclear {α : Type} (m : SMap α) (lo hi : Nat) : SMap α :=
  m.filter (fun p => decide (p.1 < lo) || decide (hi ≤ p.1))

/-- The value of a little-endian run of bytes (R9). -/
def leNat (bs : Bytes) : Nat :=
  match bs with
  | [] => 0
  | b :: rest => b.toNat + 256 * leNat rest

/-- The `n` little-endian bytes of a value (R9). -/
def toLe (n v : Nat) : Bytes :=
  match n with
  | 0 => []
  | k + 1 => BitVec.ofNat 8 (v % 256) :: toLe k (v / 256)

/-- Byte `i` of a run, zero beyond its end. -/
def byteAt (bs : Bytes) (i : Nat) : Byte := bs.getD i 0

/-- `n` bytes of a run from byte `i`, zero beyond its end. -/
def sliceB (bs : Bytes) (i n : Nat) : Bytes := (List.range n).map (fun k => bs.getD (i + k) 0)

/-- The little-endian number in `n` bytes of a run from byte `i`. -/
def fld (bs : Bytes) (i n : Nat) : Nat := leNat (sliceB bs i n)

/-- A run of bytes with the bytes from `i` on replaced by `w`. -/
def patchB (bs : Bytes) (i : Nat) (w : Bytes) : Bytes :=
  (List.range bs.length).map (fun k => if i ≤ k ∧ k < i + w.length then w.getD (k - i) 0 else bs.getD k 0)

/-- Exactly `n` bytes of a run: cut, or padded with zeros. -/
def padB (n : Nat) (bs : Bytes) : Bytes := sliceB bs 0 n

/-- Bits `lo` to `lo + w - 1` of a number (R8). -/
def bits (v lo w : Nat) : Nat := v / 2 ^ lo % 2 ^ w

/-- One bit of a number (R8). -/
def tbit (v i : Nat) : Bool := v.testBit i

/-- The number of a truth value. -/
def b2n (b : Bool) : Nat := if b then 1 else 0

/-- Every byte of a run is zero. -/
def allZero (bs : Bytes) : Bool := bs.all (fun b => decide (b = 0))

/-- Every bit of the number is among the bits of `mask`. -/
def within (v mask : Nat) : Bool := decide (v &&& mask = v)

/-- Add to a counter of `w` bits that stops at its largest value. -/
def satAdd {w : Nat} (c : BitVec w) (n : Nat) : BitVec w :=
  if c.toNat + n < 2 ^ w then BitVec.ofNat w (c.toNat + n) else BitVec.allOnes w

/-- The 64-bit word with 32-bit half `hi` (true = high half) replaced (R17). -/
def putHalf (v : W64) (hi : Bool) (h : W32) : W64 :=
  if hi then h ++ v.extractLsb' 0 32 else v.extractLsb' 32 32 ++ h

/-- One step of CRC-32C on the reflected polynomial 0x82F6_3B78. -/
def crcBit (c : W32) : W32 :=
  if c.getLsbD 0 then (c >>> 1) ^^^ 0x82F63B78#32 else c >>> 1

/-- `n` steps of CRC-32C. -/
def crcBits (n : Nat) (c : W32) : W32 :=
  match n with
  | 0 => c
  | k + 1 => crcBits k (crcBit c)

/-- CRC-32C update of an accumulator with bytes, low byte first, without inversion (03 R80, operation CRC). -/
def crcUpdate (c : W32) (bs : Bytes) : W32 :=
  bs.foldl (fun a b => crcBits 8 (a ^^^ b.setWidth 32)) c

/-- CRC-32C of a run of bytes, with the usual inversion before and after. -/
def crc32c (bs : Bytes) : W32 := ~~~(crcUpdate 0xFFFFFFFF#32 bs)

/-- The first element of a list that meets a test, with its place. -/
def findIdxWith {α : Type} (p : α → Bool) (l : List α) (i : Nat) : Option (Nat × α) :=
  match l with
  | [] => none
  | a :: rest => if p a then some (i, a) else findIdxWith p rest (i + 1)

/-- Replace the first element that meets a test. -/
def modFirst {α : Type} (p : α → Bool) (f : α → α) (l : List α) : List α :=
  match l with
  | [] => []
  | a :: rest => if p a then f a :: rest else a :: modFirst p f rest

/-- Remove the first element that meets a test. -/
def dropFirst {α : Type} (p : α → Bool) (l : List α) : List α :=
  match l with
  | [] => []
  | a :: rest => if p a then rest else a :: dropFirst p rest

/-- No number of the list occurs twice. -/
def nodupNat (l : List Nat) : Bool :=
  match l with
  | [] => true
  | a :: rest => !(rest.contains a) && nodupNat rest

/-- The smallest `n` numbers below `hi`, from `lo` on, that meet a test. -/
def firstNats (p : Nat → Bool) (n : Nat) (cands : List Nat) : List Nat :=
  match cands with
  | [] => []
  | a :: rest =>
    match n with
    | 0 => []
    | k + 1 => if p a then a :: firstNats p k rest else firstNats p (k + 1) rest

/-- Read one byte of a sparse memory; an unlisted byte reads 0 (assumption 3). -/
def memGet (m : List Host.Cell) (a : Nat) : Byte := mget 0 m a

/-- Write one byte of a sparse memory, kept in canonical form. -/
def memSet (m : List Host.Cell) (a : Nat) (b : Byte) : List Host.Cell := mset 0 m a b

/-- Read `n` bytes of a sparse memory from address `a`. -/
def memRead (m : List Host.Cell) (a n : Nat) : Bytes := (List.range n).map (fun i => memGet m (a + i))

/-- Write a run of bytes into a sparse memory from address `a`. -/
def memWrite (m : List Host.Cell) (a : Nat) (bs : Bytes) : List Host.Cell :=
  match bs with
  | [] => m
  | b :: rest => memWrite (memSet m a b) (a + 1) rest

/-- Zero the bytes from `a` up to and not including `hi`. -/
def memZero (m : List Host.Cell) (a hi : Nat) : List Host.Cell := mclear m a hi

/-- The canonical form of a sparse memory. -/
def memWf (m : List Host.Cell) : Bool := mwf (0 : Byte) m

end Sys2Proof.Machine
end

