-- ==== Sys2Proof/Machine/StateTile.lean ====
section
/-!
DEFINITION. State of the tiles and their engines, of requests and tasks, and of loaded models
(01, 08, 09, 10, 11, 12). Every default of a field is its value right after a full reset.
-/

namespace Sys2Proof.Machine

/-- Power state of a tile (08 R285, R288). -/
inductive TilePwr where
  | run | idle | doze | off
  deriving DecidableEq, Repr

/-- What the sequencer of a tile is doing (08 R37, R251, R281, R283, 13 R408). -/
inductive SeqState where
  /-- no task on the tile -/
  | none
  /-- the start or resume message has arrived and the tile is waking -/
  | waking
  /-- issuing instructions -/
  | running
  /-- END executed, draining -/
  | ending
  /-- the end of this tile's part has been reported -/
  | ended
  /-- a YIELD under demand executed, draining and parked -/
  | parked
  /-- the yield record is written -/
  | yielded
  /-- the abort message has arrived -/
  | aborting
  deriving DecidableEq, Repr

/-- One 64-byte quill with its source in the encoding of R272 (08 R272, R275). -/
structure Quill where
  src : W64 := 0
  data : Bytes := []
  /-- poisoned 8-byte granules, 8 bits (22 R724) -/
  poison : BitVec 8 := 0
  deriving DecidableEq, Repr

/-- A quill held by a receive channel; `spill` is its place in the spill region when the port slots were full (08 R274). -/
structure HeldQuill where
  quill : Quill := {}
  spill : Option Nat := none
  deriving DecidableEq, Repr

/-- A quill in a tile's send queue or on the mesh: destination operand SA, channel, sender (08 R272, R273). -/
structure SentQuill where
  /-- task that sent it -/
  req : Nat := 0
  /-- SA of the QSEND -/
  dest : W64 := 0
  chan : Nat := 0
  quill : Quill := {}
  deriving DecidableEq, Repr

/-- What a global access does when it completes (08 R254, R259, R262). -/
inductive AccKind where
  | ldg (sd size : Nat) (sext : Bool)
  | stg
  | ldgb (sram : Nat)
  | stgb
  | atomv (op fmt lanes : Nat) (ret : Bool) (sc : Nat)
  | atoms (op sd : Nat)
  deriving DecidableEq, Repr

/-- How far a global access has come (08 R256, R263). -/
inductive AccState where
  /-- issued; not yet served -/
  | issued
  /-- served, with the data it returns; `poison` when a read line was poisoned -/
  | served (data : Bytes) (poison : Bool)
  /-- failed, with the task cause it raises (08 R282) -/
  | failed (cause : Nat)
  deriving DecidableEq, Repr

/-- One outstanding global access of a tile (08 R263). -/
structure GAcc where
  id : Nat := 0
  kind : AccKind := .stg
  addr : Nat := 0
  data : Bytes := []
  len : Nat := 0
  st : AccState := .issued
  deriving DecidableEq, Repr

/-- The weights of one load (09 R302, R303, R307): raw row bytes and raw scale bytes. -/
structure WeightState where
  valid : Bool := false
  wfmt : Nat := 0
  k : Nat := 0
  n : Nat := 0
  rows : List Bytes := []
  scales : List Bytes := []
  deriving DecidableEq, Repr

/-- A matrix pass that has started (09 R308): its descriptor and the weights it uses. -/
structure MxPass where
  desc : Bytes := []
  w : WeightState := {}
  deriving DecidableEq, Repr

/-- One stream transfer that holds an outstanding entry (11 R344, R345). -/
structure SuXfer where
  /-- number of the descriptor among those the unit has started -/
  dseq : Nat := 0
  slot : Nat := 0
  addr : Nat := 0
  len : Nat := 0
  sram : Nat := 0
  out : Bool := false
  /-- bytes of an OUT transfer as read from SRAM, or of an IN transfer as they returned -/
  data : Bytes := []
  served : Bool := false
  /-- failure found, a SUBCAUSE of 11 R364; 0 none -/
  fail : Nat := 0
  deriving DecidableEq, Repr

/-- A stream descriptor that has started (11 R350, R353, R355). -/
structure SuDesc where
  dseq : Nat := 0
  desc : Bytes := []
  /-- POS of slot 0 of this descriptor (11 R351) -/
  pos0 : Nat := 0
  /-- the next transfer to issue: slot, row, and bytes of the row issued (11 R344) -/
  slot : Nat := 0
  row : Nat := 0
  off : Nat := 0
  /-- slots whose SLOT_SEM has been posted -/
  posted : Nat := 0
  deriving DecidableEq, Repr

/-- A stream unit (11 R351, R354, R366, R367). -/
structure StreamUnit where
  running : List SuDesc := []
  xfers : List SuXfer := []
  credits : Nat := 0
  pos : Nat := 0
  crwait : Bool := false
  tkwait : Bool := false
  /-- descriptor last started by the unit in this task, for CONT -/
  last : Option Bytes := none
  /-- descriptors started so far, to number them -/
  started : Nat := 0
  bytes : W64 := 0
  deriving DecidableEq, Repr

/-- What a parked tile wrote to its yield store (13 R408): PC, S1 to S31, the semaphores and the channels. -/
structure YieldRec where
  pc : Nat := 0
  sregs : SMap W64 := []
  sems : SMap Nat := []
  chans : SMap (List HeldQuill) := []
  /-- the guard, which does not count while the task is yielded (08 R284), and the task's start -/
  guardElapsed : W32 := 0
  guardTicks : Nat := 0
  startT : W64 := 0
  /-- chunks posted and not released (12 R381) -/
  hbuf0 : Bool := false
  hbuf1 : Bool := false
  deriving DecidableEq, Repr

/-- One tile (08). -/
structure Tile where
  /-- TIL_STATUS.PWR (08 R288); reset 3, OFF -/
  pwr : TilePwr := .off
  /-- TIL_STATUS.FENCED (08 R288, 22 R729); reset 0, restored from the Ledger at bring-up (22 R731) -/
  fenced : Bool := false
  /-- zeroed and loaded, so free for placement (08 R286) -/
  prepared : Bool := false
  /-- TIL_PWR.DOZE_AFTER as written, 20 bits (08 R290); reset 100 -/
  dozeAfter : BitVec 20 := 100
  /-- DOZE_AFTER in force since the last entry into IDLE, 20 bits (08 R290); reset 100 -/
  dozeNow : BitVec 20 := 100
  /-- µs spent in IDLE (08 R285) -/
  idleUs : Nat := 0
  seq : SeqState := .none
  /-- task bound to the tile: its number in `State.reqs` -/
  req : Option Nat := none
  /-- TIL_TASK.TASK_ID, 32 bits (08 R289); reset 0 -/
  taskId : W32 := 0
  /-- placed index, 8 bits (08 R289); reset 0 -/
  placed : Nat := 0
  /-- tile count, 9 bits (08 R289); reset 0 -/
  count : Nat := 0
  /-- PC, 13 bits (08 R288); reset 0. A number from 8192 on lies outside the program store (R257) -/
  pc : Nat := 0
  /-- TIL_STATUS.STALL, 4 bits (08 R288); reset 0 -/
  stall : Nat := 0
  /-- S1 to S31, 64 bits (08 R248, R286) -/
  sregs : SMap W64 := []
  /-- T0 to T7 as 8 × 128 × 128 positions of 32 bits, number 16384·t + 128·entry + position (08 R248, R286) -/
  tregs : SMap W32 := []
  /-- tile SRAM, 4 MiB (08 R244) -/
  sram : List Host.Cell := []
  /-- 8-byte granules of SRAM that carry a poison mark (22 R724): 1 = marked -/
  poison : SMap Bool := []
  /-- 8-byte granules with an ECC error (08 R247): 1 single-bit, 2 double-bit -/
  ecc : SMap Nat := []
  /-- SEM 0 to 15, 8 bits (08 R269, R293); reset 0 -/
  sems : SMap Nat := []
  /-- who waits on each semaphore, oldest first: 0 the sequencer, 1 to 5 the engine of queue 0 to 4 (08 R269); none -/
  semWait : SMap (List Nat) := []
  /-- MQ, VQ, RQ, SQ_0, SQ_1: descriptors placed and not completed, oldest first, at most 8 each (08 R265, R293) -/
  engq : SMap (List Bytes) := []
  /-- send queue, at most 4 quills (08 R272) -/
  sendq : List SentQuill := []
  /-- 16 receive channels, 4 port slots each, the spill region beyond (08 R274) -/
  chans : SMap (List HeldQuill) := []
  /-- global accesses outstanding (08 R263) -/
  accs : List GAcc := []
  /-- accesses issued so far in this task, to number them -/
  accSeq : Nat := 0
  /-- barrier this tile waits at (08 R279) -/
  barrier : Option Nat := none
  /-- Warren time at the start of the task on this tile, for RDSR 2 and the guard -/
  startT : W64 := 0
  /-- TIL_GUARD.ELAPSED, 32 bits (08 R291); reset 0 -/
  guardElapsed : W32 := 0
  /-- TIL_GUARD.LIMIT, 32 bits (08 R291); reset 0 -/
  guardLimit : W32 := 0
  /-- TMCLK ticks of the µs the guard is counting (08 R284) -/
  guardTicks : Nat := 0
  /-- TIL_FAULT.CAUSE, 8 bits (08 R294); reset 0 -/
  faultCause : BitVec 8 := 0
  /-- TIL_FAULT.TRAP_CODE, 16 bits (08 R294); reset 0 -/
  trapCode : W16 := 0
  /-- TIL_FAULT.VALID (08 R294); reset 0 -/
  faultValid : Bool := false
  /-- TIL_FAULT.PC, 13 bits (08 R294); reset 0 -/
  faultPc : BitVec 13 := 0
  /-- TIL_NUMSTAT bits 0 to 5 (02 R71); reset 0 -/
  numstat : BitVec 6 := 0
  /-- TIL_NUMSTAT.SAT_COUNT, 32 bits (02 R71); reset 0 -/
  satCount : W32 := 0
  /-- weight state of the matrix array (09 R307, R316); invalid at reset -/
  weights : WeightState := {}
  /-- the running matrix pass and the one started behind it (09 R308) -/
  passes : List MxPass := []
  /-- TIL_MXCNT.PASSES, 32 bits (09 R317); reset 0 -/
  mxPasses : W32 := 0
  /-- TIL_MXCNT.FSTALL, 32 bits (09 R317); reset 0 -/
  mxStall : W32 := 0
  /-- running vector pass: its descriptor (10 R332, R342) -/
  vx : Option Bytes := none
  /-- TIL_VXCNT.PASSES, 32 bits (10 R343); reset 0 -/
  vxPasses : W32 := 0
  /-- TIL_VXCNT.STALL, 32 bits (10 R343); reset 0 -/
  vxStall : W32 := 0
  /-- running reduction: its descriptor (10 R339, R342) -/
  rd : Option Bytes := none
  /-- TIL_RDCNT.PASSES, 32 bits (10 R343); reset 0 -/
  rdPasses : W32 := 0
  /-- TIL_RDCNT.STALL, 32 bits (10 R343); reset 0 -/
  rdStall : W32 := 0
  /-- SU_0 (11 R366, R367) -/
  su0 : StreamUnit := {}
  /-- SU_1 (11 R366, R367) -/
  su1 : StreamUnit := {}
  /-- TIL_SUFLT.SUBCAUSE, 4 bits (11 R368); reset 0 -/
  sufltSub : BitVec 4 := 0
  /-- TIL_SUFLT.UNIT (11 R368); reset 0 -/
  sufltUnit : Bool := false
  /-- TIL_SUFLT.SLOT, 32 bits (11 R368); reset 0 -/
  sufltSlot : W32 := 0
  /-- TIL_SUFLT_ADDR, 56 bits (11 R368); reset 0 -/
  sufltAddr : BitVec 56 := 0
  /-- TIL_SUFLT_ADDR.VALID (11 R368); reset 0 -/
  sufltValid : Bool := false
  /-- yield store of the quill port: the record of each yielded task that holds the tile, by request number (13 R408) -/
  yields : SMap YieldRec := []
  /-- 1 = buffer 0 or 1 holds a chunk posted and not released (12 R381) -/
  hbuf0 : Bool := false
  hbuf1 : Bool := false
  deriving DecidableEq, Repr

/-- The history declaration of an entry point (12 R373). -/
structure HistDecl where
  htable : Nat := 0
  outFmt : Nat := 0
  htn : Nat := 0
  stateN : Nat := 0
  sem0 : Nat := 0
  sem1 : Nat := 0
  bufOff : Nat := 0
  bufBytes : Nat := 0
  saveOff : Nat := 0
  deriving DecidableEq, Repr

/-- A pooling group of an entry point (04 R126): its tables with their COL_OFF. -/
structure PoolGroup where
  mode : Nat := 0
  outFmt : Nat := 0
  ordered : Bool := false
  tabs : List (Nat × Nat) := []
  spt : Nat := 0
  catN : Nat := 0
  outBase : Nat := 0
  stride : Nat := 0
  deriving DecidableEq, Repr

/-- An entry point of a loaded model (08 R250, 13 R406, 15 R496, R497). -/
structure EntryPoint where
  tiles : Nat := 0
  guardUs : Nat := 0
  spillOff : Nat := 0
  spillQ : Nat := 0
  yieldable : Bool := false
  sramLo : Nat := 0
  sramHi : Nat := 0
  pcs : List Nat := []
  /-- binding of class BE = 0: quadrant and slot (03 R106, R108); none = the entry point takes no features -/
  bind0 : Option (Nat × Nat) := none
  /-- binding of class BE = 1 -/
  bind1 : Option (Nat × Nat) := none
  hist : Option HistDecl := none
  groups : List PoolGroup := []
  deriving DecidableEq, Repr

/-- A loaded model (15 R494 to R500). -/
structure Model where
  handle : Nat := 0
  den : Nat := 0
  progBase : Nat := 0
  progLen : Nat := 0
  paramBase : Nat := 0
  paramLen : Nat := 0
  entries : List EntryPoint := []
  /-- tables that the model names -/
  tables : List Nat := []
  /-- fenced under 22 R730 -/
  fenced : Bool := false
  deriving DecidableEq, Repr

/-- One row or contribution that has arrived for a bag: its order, its shard index, its FP32 elements and rows
(04 R134 to R139). -/
structure BagPart where
  ord : Nat := 0
  shard : Nat := 0
  rows : Nat := 0
  vals : List W32 := []
  weight : W32 := 0
  /-- true: a pooled contribution of another device -/
  remote : Bool := false
  poison : Bool := false
  deriving DecidableEq, Repr

/-- A bag of a request (01 R34, 04 R130). -/
structure Bag where
  smp : Nat := 0
  grp : Nat := 0
  ent : Nat := 0
  parts : List BagPart := []
  /-- records received for the bag, which gives CONCAT positions -/
  seen : Nat := 0
  /-- remote pool requests sent for the bag, by shard index -/
  sent : SMap Nat := []
  /-- rows of the bag with their weights, which a COL table's bag sends to every device of the list (04 R139) -/
  colRows : List (Nat × W32) := []
  /-- arrival slot reserved for the bag (05 R169) -/
  slot : Option Nat := none
  written : Bool := false
  deriving DecidableEq, Repr

/-- How far a request has come (01, 13). -/
inductive ReqPhase where
  /-- admitted and not yet placed -/
  | unplaced
  /-- placed; its bags or start message are awaited -/
  | placed
  /-- the start message has been sent -/
  | running
  /-- every tile has parked and written its record -/
  | yielded
  /-- aborting: the abort message has been sent -/
  | aborting
  deriving DecidableEq, Repr

/-- Arrivals at one barrier id (08 R279, R280). -/
structure BarrierSt where
  expected : Nat := 0
  tiles : List Nat := []
  deriving DecidableEq, Repr

/-- The history walk of a request (12 R375 to R386). -/
structure Walk where
  /-- the walk has begun (at most 64 run at once) -/
  begun : Bool := false
  badId : Bool := false
  base : Nat := 0
  cap : Nat := 0
  next : Nat := 0
  /-- events examined so far, counted from the oldest of the window -/
  examined : Nat := 0
  /-- index of the chunk being delivered -/
  chunk : Nat := 0
  /-- events delivered in that chunk -/
  count : Nat := 0
  /-- records skipped in that chunk -/
  skip : Nat := 0
  /-- records skipped in all chunks posted -/
  skipSum : Nat := 0
  /-- reads of the present chunk are permitted (12 R380) -/
  reading : Bool := false
  /-- every chunk has been posted -/
  done : Bool := false
  /-- posts that fell due while the task was yielded (12 R386): buffer numbers -/
  due : List Nat := []
  deriving DecidableEq, Repr

/-- The fault that set a request's status (08 R282, 22 R721, R727). -/
structure ReqFault where
  tile : Nat := 0
  cause : Nat := 0
  pc : Nat := 0
  poison : Bool := false
  /-- an uncorrectable error, not poison, in the tile's own storage (22 R726) -/
  own : Bool := false
  loc : W64 := 0
  deriving DecidableEq, Repr

/-- What a request captured of a table at admission, beside its version slot (15 R502). -/
structure TabCap where
  table : Nat := 0
  rowScale : W32 := 0
  defrow : Bool := false
  defaultAddr : Nat := 0
  deriving DecidableEq, Repr

/-- An admitted request and its task (01, 08, 13). -/
structure Req where
  /-- the model's own number of the request; its low 32 bits are TASK_ID -/
  id : Nat := 0
  den : Nat := 0
  ring : Nat := 0
  desc : Bytes := []
  model : Nat := 0
  entry : Nat := 0
  be : Bool := false
  irq : Bool := false
  deadline : W64 := 0
  samples : Nat := 0
  tAdmit : W64 := 0
  /-- version slots captured at admission: table and slot (01 R30) -/
  versions : List (Nat × Nat) := []
  /-- ROW_SCALE, DEFROW and DEFAULT_ADDR captured with them (15 R502) -/
  caps : List TabCap := []
  phase : ReqPhase := .unplaced
  /-- quadrant and slot of the binding in force at admission (03 R107); none = no binding -/
  bind : Option (Nat × Nat) := none
  /-- every bag output has been written, or there is none (01 R36) -/
  ready : Bool := false
  /-- placed tiles in placed-index order (01 R31, 04 R128) -/
  tiles : List Nat := []
  /-- features have been steered, so a token exists or none is needed (01 R32) -/
  steered : Bool := false
  /-- the feature block of FSRC 0b11, once it has been read (01 R25) -/
  feat : Option Bytes := none
  /-- the token has closed, or there is none (03 R84) -/
  closed : Bool := false
  bags : List Bag := []
  /-- placed tiles that have reported the end of their part (01 R38) -/
  reported : List Nat := []
  /-- yield demand is raised (13 R407) -/
  demand : Bool := false
  /-- status the request will complete with when it aborts (08 R282) -/
  status : Nat := 0
  /-- no completion entry is posted (01 R24) -/
  silent : Bool := false
  /-- the fault that set its status, when a tile raised one (22 R721) -/
  flt : Option ReqFault := none
  barriers : SMap BarrierSt := []
  walk : Option Walk := none
  /-- TRUNC_EVENTS before saturation (12 R384) -/
  trunc : Nat := 0
  deriving DecidableEq, Repr

end Sys2Proof.Machine
end

