-- ==== Sys2Proof/Machine/State.lean ====
section
/-!
DEFINITION. The state of the DX-60, the reasons a step can stop, and the state right after reset.

State.reset is the part at T0 of a full reset at power-on (18 R592, R597): the always-on rails have just become valid,
every unit is at its reset value, no command waits, and nothing has left the package.
-/

namespace Sys2Proof.Machine

/-- The faults of the model. -/
inductive Fault where
  /-- Raised by SYS_RESET when the low pulse lasts longer than 1 µs and less than 10 µs: the spec makes no statement
  about the outcome (18 Situations, 23 R750). Safe: nothing is claimed of the state after such a pulse. -/
  | resetPulseUnspecified
  deriving DecidableEq, Repr

/-- The refusals of the model. -/
inductive Refusal where
  /-- Raised by a dispatch arm whose command has no meaning yet. Safe: the run stops. -/
  | notModelled (mnemonic : String)
  deriving DecidableEq, Repr

/-- The state of the DX-60. A sparse table's unlisted numbers hold the default of its element type. -/
structure State where
  /-- commands waiting, first in, first out (the model's own queue) -/
  pending : List Instr := []
  /-- everything that has left the package, newest last (01 R40; the model's own record) -/
  out : List Out := []
  /-- number of free values taken so far (the model's own counter, assumption 1) -/
  freeCtr : Nat := 0
  /-- Warren time FAB_WTIME, 64 bits (16 R552); reset 0 -/
  wtime : W64 := 0
  pcie : Pcie := {}
  dens : SMap Den := []
  /-- den admitted from last (01 R29) -/
  lastDen : Nat := 31
  /-- admitted requests, in admission order -/
  reqs : List Req := []
  /-- requests admitted so far, to number them -/
  reqSeq : Nat := 0
  tiles : SMap Tile := []
  models : List Model := []
  mioter : Mioter := {}
  forager : Forager := {}
  hoard : Hoard := {}
  hbm : Hbm := {}
  tables : SMap Table := []
  /-- descriptor in progress of update ring r of den d, number 2·d + r (07 R229) -/
  upds : SMap (Option UpdCur) := []
  wsw : WarrenSwitch := {}
  msw : Option MasterSwitch := none
  cp : Cp := {}
  fab : Fab := {}
  ports : SMap Port := []
  pwr : Power := {}
  boot : Boot := {}
  ser : Serial := {}
  tim : Timers := {}
  ldg : Ledger := {}
  tag : Tag := {}
  err : Err := {}
  tap : Tap := {}
  deriving DecidableEq, Repr

/-- The state right after reset: T0 of the full reset at power-on. -/
def State.reset : State := {}

end Sys2Proof.Machine
end

