-- ==== Sys2Proof/Machine/Ops.lean ====
section
/-!
DEFINITION. The named operations that every block shares: reading and writing one element of a table of the state,
free values, Warren and powered time, Ledger records, the fault log, and what is posted to the host.
-/

namespace Sys2Proof.Machine

/-! ### Elements of the state -/

/-- Function `f`: 0 = PF, n = VF n (14 R430). -/
def State.fn (s : State) (f : Nat) : Fn := mget {} s.pcie.fns f
/-- Change function `f`. -/
def State.modFn (s : State) (f : Nat) (g : Fn → Fn) : State :=
  { s with pcie := { s.pcie with fns := mset {} s.pcie.fns f (g (s.fn f)) } }
/-- Ring `k` = 32 × function + ring id (14 R438). -/
def State.ring (s : State) (k : Nat) : Ring := mget {} s.pcie.rings k
/-- Change ring `k`. -/
def State.modRing (s : State) (k : Nat) (g : Ring → Ring) : State :=
  { s with pcie := { s.pcie with rings := mset {} s.pcie.rings k (g (s.ring k)) } }
/-- DEN_d (13). -/
def State.den (s : State) (d : Nat) : Den := mget {} s.dens d
/-- Change DEN_d. -/
def State.modDen (s : State) (d : Nat) (g : Den → Den) : State := { s with dens := mset {} s.dens d (g (s.den d)) }
/-- Tile `t` (08). -/
def State.tile (s : State) (t : Nat) : Tile := mget {} s.tiles t
/-- Change tile `t`. -/
def State.modTile (s : State) (t : Nat) (g : Tile → Tile) : State :=
  { s with tiles := mset {} s.tiles t (g (s.tile t)) }
/-- Table `t` (04). -/
def State.table (s : State) (t : Nat) : Table := mget {} s.tables t
/-- Change table `t`. -/
def State.modTable (s : State) (t : Nat) (g : Table → Table) : State :=
  { s with tables := mset {} s.tables t (g (s.table t)) }
/-- Quadrant `q` (03). -/
def State.quad (s : State) (q : Nat) : Quad := mget {} s.mioter.quads q
/-- Change quadrant `q`. -/
def State.modQuad (s : State) (q : Nat) (g : Quad → Quad) : State :=
  { s with mioter := { s.mioter with quads := mset {} s.mioter.quads q (g (s.quad q)) } }
/-- Context slot `c` of quadrant `q` (03). -/
def State.slot (s : State) (q c : Nat) : MioSlot := mget {} (s.quad q).slots c
/-- Change slot `c` of quadrant `q`. -/
def State.modSlot (s : State) (q c : Nat) (g : MioSlot → MioSlot) : State :=
  s.modQuad q (fun x => { x with slots := mset {} x.slots c (g (mget {} x.slots c)) })
/-- Config store entry `e` (03). -/
def State.cfgEntry (s : State) (e : Nat) : CfgEntry := mget {} s.mioter.store e
/-- Change config store entry `e`. -/
def State.modEntry (s : State) (e : Nat) (g : CfgEntry → CfgEntry) : State :=
  { s with mioter := { s.mioter with store := mset {} s.mioter.store e (g (s.cfgEntry e)) } }
/-- Link port `p` (16). -/
def State.port (s : State) (p : Nat) : Port := mget {} s.ports p
/-- Change link port `p`. -/
def State.modPort (s : State) (p : Nat) (g : Port → Port) : State :=
  { s with ports := mset {} s.ports p (g (s.port p)) }
/-- HBM stack `n` (06). -/
def State.stack (s : State) (n : Nat) : HbmStack := mget {} s.hbm.stk n
/-- Change HBM stack `n`. -/
def State.modStack (s : State) (n : Nat) (g : HbmStack → HbmStack) : State :=
  { s with hbm := { s.hbm with stk := mset {} s.hbm.stk n (g (s.stack n)) } }
/-- Timer `n` (20). -/
def State.tmr (s : State) (n : Nat) : Tmr := mget {} s.tim.tmr n
/-- Change timer `n`. -/
def State.modTmr (s : State) (n : Nat) (g : Tmr → Tmr) : State :=
  { s with tim := { s.tim with tmr := mset {} s.tim.tmr n (g (s.tmr n)) } }
/-- Hoard way `w` (05). -/
def State.way (s : State) (w : Nat) : Way := mget {} s.hoard.ways w
/-- Change Hoard way `w`. -/
def State.modWay (s : State) (w : Nat) (g : Way → Way) : State :=
  { s with hoard := { s.hoard with ways := mset {} s.hoard.ways w (g (s.way w)) } }
/-- The descriptor in progress on update ring `r` of den `d` (07 R229). -/
def State.upd (s : State) (d r : Nat) : Option UpdCur := mget none s.upds (2 * d + r)
/-- Set the descriptor in progress of an update ring. -/
def State.setUpd (s : State) (d r : Nat) (u : Option UpdCur) : State := { s with upds := mset none s.upds (2 * d + r) u }
/-- The admitted request of number `id`. -/
def State.req (s : State) (id : Nat) : Option Req := s.reqs.find? (fun r => r.id == id)
/-- Change the request of number `id`. -/
def State.modReq (s : State) (id : Nat) (g : Req → Req) : State :=
  { s with reqs := modFirst (fun r => r.id == id) g s.reqs }
/-- Change the running command of number `id`. -/
def State.modCmd (s : State) (id : Nat) (g : Cmd → Cmd) : State :=
  { s with cp := { s.cp with running := modFirst (fun c => c.id == id) g s.cp.running } }
/-- The loaded model of handle `h` in den `d` (15 R494). -/
def State.model (s : State) (d h : Nat) : Option Model := s.models.find? (fun m => m.den == d && m.handle == h)
/-- Change the model of handle `h` in den `d`. -/
def State.modModel (s : State) (d h : Nat) (g : Model → Model) : State :=
  { s with models := modFirst (fun m => m.den == d && m.handle == h) g s.models }
/-- Apply a change for every number of a list. -/
def State.each (s : State) (l : List Nat) (g : State → Nat → State) : State := l.foldl g s

/-- Append to what has left the package (01 R40). -/
def State.emit (s : State) (o : Out) : State := { s with out := s.out ++ [o] }

/-- A free value of `w` bits: the spec leaves it open (assumption 1). -/
def State.free (s : State) (w : Nat) : BitVec w × State :=
  (Config.freeValue w s.freeCtr, { s with freeCtr := s.freeCtr + 1 })

/-- HCLK runs: the hub does work (17 R564). A service command in STANDBY starts the clocks (R571). -/
def State.hub (s : State) : Bool :=
  (match s.pwr.st with
   | .active | .retain | .limp => true
   | .standby => s.pwr.svcRun
   | .hush | .off => false) && !s.pwr.thermHold

/-- The device serves dens: ACTIVE, bring-up complete (17 R564, 18 R607). -/
def State.serving (s : State) : Bool :=
  decide (s.pwr.st = .active) && decide (s.boot.phase = .complete) && s.hub

/-! ### Per-den counters (13 R418, 04 R147, 05 R180, 07 R243, 12 R387) -/

abbrev cTileRun : Nat := 0
abbrev cMatrix : Nat := 1
abbrev cVector : Nat := 2
abbrev cReduce : Nat := 3
abbrev cStream : Nat := 4
abbrev cMioter : Nat := 5
abbrev cHbmRd : Nat := 6
abbrev cHbmWr : Nat := 7
abbrev cHoard : Nat := 8
abbrev cIfsTx : Nat := 9
abbrev cIfsRx : Nat := 10
abbrev cPcieUp : Nat := 11
abbrev cPcieDn : Nat := 12
abbrev cEnergy : Nat := 13
abbrev cReqOk : Nat := 14
abbrev cReqErr : Nat := 15
abbrev cUpd : Nat := 16
abbrev cYields : Nat := 17
abbrev cRegWait : Nat := 18
abbrev cYcancel : Nat := 19
abbrev cRows : Nat := 32
abbrev cDefrow : Nat := 33
abbrev cDrop : Nat := 34
abbrev cPf : Nat := 35
abbrev cPfUsed : Nat := 36
abbrev cHit : Nat := 40
abbrev cMiss : Nat := 41
abbrev cAtom : Nat := 42
abbrev cWb : Nat := 43
abbrev cUpdRows : Nat := 48
abbrev cUpdSkip : Nat := 49
abbrev cUpdStall : Nat := 50
abbrev cVfreed : Nat := 51
abbrev cSwitch : Nat := 52
abbrev cHstEvents : Nat := 56
abbrev cHstTrunc : Nat := 57
abbrev cHstChunks : Nat := 58
abbrev cHstBadid : Nat := 59

/-- Add to a counter of a den, which wraps at 2^64 (13 R418). -/
def State.count (s : State) (d c n : Nat) : State :=
  s.modDen d (fun x => { x with cnt := mset 0 x.cnt c (mget 0 x.cnt c + BitVec.ofNat 64 n) })

/-! ### Time -/

/-- LIFE_S, the powered seconds of the part (21 R693); AON ticks run at 4.096 MHz (17 R558). -/
def State.lifeS (s : State) : W32 :=
  s.ldg.lifeBase + BitVec.ofNat 32 ((s.pwr.aon - s.ldg.lifeAon).toNat / 4096000)

/-- Powered seconds as a number, for the windows of R727 and R728. -/
def State.powered (s : State) : Nat := s.lifeS.toNat

/-- Ticks of Warren time since `t`. -/
def State.since (s : State) (t : W64) : Nat := (s.wtime - t).toNat

/-! ### Posting to the host (14) -/

/-- Number of entries N = 2^LOG2N, LOG2N held to 4 to 16 (14 R439, R474). -/
def Ring.n (r : Ring) : Nat := 2 ^ (max 4 (min 16 r.log2n.toNat))
/-- Entries held: TAIL − HEAD (14 R439). -/
def Ring.used (r : Ring) : Nat := (r.tail - r.head).toNat
/-- A completion slot is free: TAIL + reserved − HEAD < N (14 R448). -/
def Ring.hasFree (r : Ring) : Bool := decide (r.used + r.rsvd < r.n)

/-- Send vector `v` of function `f`: the message leaves, or its pending bit is set when it is masked (14 R453). -/
def State.sendVec (s : State) (f v : Nat) : State :=
  let e := mget {} (s.fn f).msix v
  if e.masked then s.modFn f (fun x => { x with msix := mset {} x.msix v { e with pending := true } })
  else s.emit (.msix f v e.addr e.data)

/-- Write one 32-byte entry into completion ring `k` with its PHASE, then send its vector (14 R447, R453). -/
def State.writeEntry (s : State) (k : Nat) (bytes : Bytes) (vec : Option Nat) : State :=
  let r := s.ring k
  let f := k / 32
  let phase := 1 - r.tail.toNat / r.n % 2
  let b := patchB bytes 3 [byteAt bytes 3 ||| BitVec.ofNat 8 phase]
  let s := s.emit (.hostWrite f (r.base.toNat + r.tail.toNat % r.n * 32) b)
  let s := s.modRing k (fun x => { x with tail := x.tail + 1, rsvd := if k % 32 = 29 then x.rsvd else x.rsvd - 1 })
  let s := if f = 0 then s else s.count (f - 1) cPcieUp 32
  match vec with
  | some v => s.sendVec f v
  | none => s

/-- Post an entry of a completion ring, or hold it while Bus Master Enable is clear (14 R461). An entry for a ring
that is disabled is dropped (14 R462). -/
def State.pushEntry (s : State) (k : Nat) (bytes : Bytes) (vec : Option Nat) : State :=
  if (s.fn (k / 32)).bme then
    (if (s.ring k).en then s.writeEntry k bytes vec
     else s.modRing k (fun x => { x with rsvd := if k % 32 = 29 then x.rsvd else x.rsvd - 1 }))
  else s.modFn (k / 32) (fun x => { x with held := x.held ++ [{ ring := k, bytes := bytes, vec := vec }] })

/-- The 32 bytes of an event entry (14 R450). -/
def eventBytes (ty den : Nat) (payload : Bytes) (t : W64) : Bytes :=
  toLe 1 ty ++ [0, 0, 0] ++ toLe 1 den ++ [0, 0, 0] ++ padB 16 payload ++ toLe 8 t.toNat

/-- Vector of an event class (14 R452): the VF's vector, the PF's being 10 lower. -/
def eventVec (f ty : Nat) : Nat :=
  let v := match ty with
    | 2 => 19
    | 3 => 20
    | 4 => 21
    | _ => 18
  if f = 0 then (if v = 21 then 10 else v - 10) else v

/-- Post an event on the EVQ of function `f`; one that finds EVQ full is dropped and counted (14 R449). The first
part of the result tells whether it was posted or held. -/
def State.postEvent (s : State) (f ty den : Nat) (payload : Bytes) : Bool × State :=
  let k := 32 * f + 29
  let r := s.ring k
  if !r.en then (false, s)
  else if r.n ≤ r.used + ((s.fn f).held.filter (fun (h : HeldPost) => h.ring == k)).length then
    (false, s.modFn f (fun x => { x with evlost := satAdd x.evlost 1, evlostSince := x.evlostSince + 1 }))
  else (true, s.pushEntry k (eventBytes ty den payload s.wtime) (some (eventVec f ty)))

/-- A posted write of function `f` to host memory; none leaves while Bus Master Enable is clear (14 R461). -/
def State.hostWrite (s : State) (f iova : Nat) (data : Bytes) : State :=
  if (s.fn f).bme then
    let s := s.emit (.hostWrite f iova data)
    if f = 0 then s else s.count (f - 1) cPcieUp data.length
  else s

/-! ### Ledger records (21) -/

/-- Whether a record type has class STATE, and its key (21 R690). -/
def recKey (ty : Nat) (p : Bytes) : Option Nat :=
  match ty with
  | 0x01 | 0x02 | 0x03 | 0x04 => some 0
  | 0x05 | 0x06 | 0x07 | 0x0B => some (fld p 0 1)
  | 0x08 => some (fld p 0 8)
  | 0x0E => some (fld p 0 2)
  | _ => none

/-- Bytes of a journal record with a payload of `len` bytes (21 R684). -/
def recSize (len : Nat) : Nat := (24 + len + 7) / 8 * 8

/-- Two records are STATE records of one type and key (21 R688). -/
def sameKey (ty : Nat) (p : Bytes) (r : LdgRec) : Bool :=
  decide (r.ty = ty) && decide (recKey ty p ≠ none) && decide (recKey r.ty r.payload = recKey ty p)

/-- A VERSION record whose key is ended by DELETED (21 R691). -/
def deletedRec (r : LdgRec) : Bool := decide (r.ty = 0x0E) && (byteAt r.payload 4).getLsbD 0

/-- The STATE records that are or will be current: the queue's supersede the journal's (21 R688). -/
def Ledger.state (l : Ledger) : List LdgRec :=
  l.cur.filter (fun r => !(l.queue.any (fun q => sameKey r.ty r.payload q)))
    ++ l.queue.filter (fun q => decide (recKey q.ty q.payload ≠ none))

/-- The live set in bytes (21 R692). -/
def Ledger.live (l : Ledger) : Nat :=
  ((l.state.filter (fun r => !deletedRec r)).map (fun r => recSize r.payload.length)).sum

/-- Tables with a current VERSION record (21 R692). -/
def Ledger.versions (l : Ledger) : Nat :=
  (l.state.filter (fun r => decide (r.ty = 0x0E) && !deletedRec r)).length

/-- Sectors usable by the journal: 256, less those retired, plus the spares that replace them (21 R699). -/
def Ledger.usable (l : Ledger) : Nat :=
  256 - (l.retired.filter (fun n => decide (212 ≤ n ∧ n < 468))).length
    + (l.assigned.filter (fun p => decide (212 ≤ p.1 ∧ p.1 < 468) && !(l.retired.contains p.2))).length

/-- The journal is worn (21 R701). -/
def Ledger.worn (l : Ledger) : Bool := decide (l.usable < 32)

/-- The Ledger can hold a further STATE record of this type and payload (21 R701). -/
def Ledger.canHold (l : Ledger) (ty : Nat) (p : Bytes) : Bool :=
  !l.worn &&
  decide (l.live - ((l.state.filter (fun r => sameKey ty p r && !deletedRec r)).map (fun r => recSize r.payload.length)).sum
      + recSize p.length ≤ 1048576) &&
  (decide (ty ≠ 0x0E) || l.state.any (fun r => sameKey ty p r && !deletedRec r) || decide (l.versions < 4096)
    || (byteAt p 4).getLsbD 0)

/-- Bytes of the 64 KiB queue in use (21 R686). -/
def Ledger.queued (l : Ledger) : Nat := (l.queue.map (fun r => recSize r.payload.length)).sum

/-- Put a record into the queue: a HISTORY record that does not fit is dropped and counted, a STATE record replaces a
queued one of its key when the queue is full (21 R686). -/
def Ledger.push (l : Ledger) (r : LdgRec) : Ledger :=
  if l.queued + recSize r.payload.length ≤ 65536 then { l with queue := l.queue ++ [r] }
  else if recKey r.ty r.payload = none then { l with dropped := satAdd l.dropped 1 }
  else if l.queue.any (sameKey r.ty r.payload) then
    { l with queue := modFirst (sameKey r.ty r.payload) (fun _ => r) l.queue }
  else { l with queue := l.queue ++ [r] }

/-- The record of an event now: LIFE_S, and the Warren time, 0 while HCLK is stopped (21 R684). -/
def State.mkRec (s : State) (ty : Nat) (p : Bytes) : LdgRec :=
  { ty := ty, payload := p, lifeS := s.lifeS, wtime := if s.hub then s.wtime else 0 }

/-! ### Fault log (22) -/

/-- A LOCATION (22 R720). -/
def mkLoc (unit index : Nat) (den : Option Nat) (poison : Bool) (detail : Nat) : W64 :=
  BitVec.ofNat 64 (unit + 256 * (index % 65536)
    + (match den with
       | some d => 2 ^ 24 * (d % 32) + 2 ^ 29
       | none => 0)
    + 2 ^ 30 * b2n poison + 2 ^ 32 * (detail % 2 ^ 32))

/-- Causes that write a FAULT record (22 R719). -/
def journaled (cause : Nat) : Bool :=
  [0x0105, 0x0308, 0x0502, 0x0508, 0x0509, 0x050B, 0x050C, 0x0701, 0x0702, 0x0703, 0x0801, 0x0802, 0x0803, 0x0804,
    0x0902, 0x0903].contains cause

/-- Class of a cause (22 R719). -/
def causeClass (cause : Nat) : Nat :=
  if cause ≤ 0x0013 then 1
  else if 0x0701 ≤ cause ∧ cause ≤ 0x0703 then 2
  else if 0x0801 ≤ cause ∧ cause ≤ 0x0804 then 3
  else if 0x0901 ≤ cause ∧ cause ≤ 0x0903 then 4
  else 0

/-- The corrected ECC causes of the second part of R722. -/
def eccCause (cause : Nat) : Bool := cause == 0x0101 || cause == 0x0102 || cause == 0x0104

/-- Number of the newest log entry. -/
def Err.newest (e : Err) : Nat := (e.wptr.toNat + 1023) % 1024

/-- The newest log entry, if the log holds any. -/
def Err.newestEntry (e : Err) : Option LogEntry :=
  let x := mget {} e.log e.newest
  if x.count = 0 then none else some x

/-- Send the ERROR event of the newest entry to function `f`, at most one per EVQ and cause in 1 ms (22 R723). -/
def State.errorEvent (s : State) (f cls cause : Nat) (loc : W64) : State :=
  let key := 65536 * f + cause
  let quiet := match mget none s.err.lastEvent key with
    | some t => decide (s.since t < 250000)
    | none => false
  if quiet then s
  else
    let r := s.postEvent f 1 (if (loc.toNat / 2 ^ 29) % 2 = 1 then bits loc.toNat 24 5 else 0xFF)
      (toLe 1 cls ++ toLe 2 cause ++ toLe 8 loc.toNat)
    if r.1 then
      let e := r.2.err
      { r.2 with err := { e with lastEvent := mset none e.lastEvent key (some s.wtime),
                                 log := mset {} e.log e.newest { mget ({} : LogEntry) e.log e.newest with evented := true } } }
    else r.2

/-- The ERROR events of a fault by its class (22 R723). -/
def State.errorEvents (s : State) (cls cause : Nat) (loc : W64) : State :=
  if cls = 0 ∨ cls = 2 then
    let s := if (loc.toNat / 2 ^ 29) % 2 = 1 then s.errorEvent (bits loc.toNat 24 5 + 1) cls cause loc else s
    s.errorEvent 0 cls cause loc
  else s

/-- Write a new log entry (22 R721). -/
def State.newEntry (s : State) (cls cause : Nat) (loc : W64) : State :=
  let e := s.err
  let x : LogEntry := { seq := e.seq + 1, cls := cls, cause := cause, loc := loc, wtime := s.wtime, count := 1 }
  { s with err := { e with seq := e.seq + 1, log := mset {} e.log e.wptr.toNat x, wptr := e.wptr + 1,
                           wrapped := e.wrapped || e.wptr == 1023,
                           lastEcc := if eccCause cause then
                               mset none e.lastEcc (65536 * cause + bits loc.toNat 8 16) (some s.wtime) else e.lastEcc } }

/-- A fault joins the newest entry: same class, cause and LOCATION, at most 1 ms after its WTIME (22 R722); for a
corrected ECC cause, within 1 s. -/
def State.coalesces (s : State) (cls cause : Nat) (loc : W64) : Bool :=
  match s.err.newestEntry with
  | some x => decide (x.cls = cls) && decide (x.cause = cause) && decide (x.loc = loc) &&
      decide (s.since x.wtime ≤ (if eccCause cause then 250000000 else 250000))
  | none => false

/-- A corrected ECC cause whose unit instance has an entry not more than 1 s old (22 R722). -/
def State.eccQuiet (s : State) (cause : Nat) (loc : W64) : Bool :=
  eccCause cause &&
    (match mget none s.err.lastEcc (65536 * cause + bits loc.toNat 8 16) with
     | some t => decide (s.since t ≤ 250000000)
     | none => false)

/-- Enter a fault in the log without a Ledger record: R721 to R723. -/
def State.logCore (s : State) (cls cause : Nat) (loc : W64) : State :=
  let s := { s with err := { s.err with cls := mset 0 s.err.cls cls (mget 0 s.err.cls cls + 1) } }
  if s.coalesces cls cause loc then
    let e := s.err
    let x : LogEntry := mget {} e.log e.newest
    { s with err := { e with log := mset {} e.log e.newest { x with count := satAdd x.count 1 } } }
  else if s.eccQuiet cause loc then s
  else (s.newEntry cls cause loc).errorEvents cls cause loc

/-- Queue a Ledger record that the device itself raises: a STATE record that the Ledger cannot hold is lost, and
LEDGER_FULL is logged (21 R686, R701). -/
def State.record (s : State) (ty : Nat) (p : Bytes) (ref : Option (Nat × W32)) : State :=
  if recKey ty p ≠ none ∧ !s.ldg.canHold ty p then s.logCore 0 0x050A (mkLoc 9 0 none false 0)
  else if recKey ty p = none ∧ s.ldg.worn then { s with ldg := { s.ldg with dropped := satAdd s.ldg.dropped 1 } }
  else { s with ldg := s.ldg.push { s.mkRec ty p with logRef := ref } }

/-- Enter a fault in the log, with the Ledger record that its cause names: `rcd`, or a FAULT record where R719 marks
it (22 R719, R721). -/
def State.fault (s : State) (cause : Nat) (loc : W64) (rcd : Option (Nat × Bytes) := none) : State :=
  let cls := causeClass cause
  let before := s.err.seq
  let s := s.logCore cls cause loc
  let ref := if s.err.seq = before then none else some (s.err.newest, s.err.seq)
  match rcd with
  | some (ty, p) => s.record ty p ref
  | none =>
    if journaled cause ∧ ref ≠ none then
      s.record 0x0F (toLe 1 cls ++ [0] ++ toLe 2 cause ++ toLe 8 loc.toNat) ref
    else s

/-! ### Regulators (13 R414 to R417) -/

/-- The four paths. -/
inductive Path where
  | hbm | hoard | ifs | pcie
  deriving DecidableEq, Repr

/-- A bucket of a den. -/
def Den.bucket (d : Den) (p : Path) : Bucket :=
  match p with
  | .hbm => d.regHbm
  | .hoard => d.regHoard
  | .ifs => d.regIfs
  | .pcie => d.regPcie

/-- Replace a bucket of a den. -/
def Den.setBucket (d : Den) (p : Path) (b : Bucket) : Den :=
  match p with
  | .hbm => { d with regHbm := b }
  | .hoard => { d with regHoard := b }
  | .ifs => { d with regIfs := b }
  | .pcie => { d with regPcie := b }

/-- An operation gated on the bucket may proceed: the bucket is disabled, or its level is above zero (13 R415). -/
def Den.open (d : Den) (p : Path) : Bool := !(d.bucket p).en || decide (0 < (d.bucket p).level)

/-- Charge ceil(bytes / 64) tokens, whatever the level; a disabled bucket's level records the charge too
(13 R414, R415). -/
def State.charge (s : State) (d : Nat) (p : Path) (bytes : Nat) : State :=
  s.modDen d (fun x => x.setBucket p { x.bucket p with level := (x.bucket p).level - ((bytes + 63) / 64 : Nat) })

/-- Charge the HOARD bucket and count HOARD (13 R416, R418). -/
def State.chargeHoard (s : State) (d bytes : Nat) : State := (s.charge d .hoard bytes).count d cHoard bytes
/-- Charge the PCIE bucket. -/
def State.chargePcie (s : State) (d bytes : Nat) : State := s.charge d .pcie bytes
/-- Charge the HBM bucket and count HBM_RD or HBM_WR. -/
def State.chargeHbm (s : State) (d bytes : Nat) (write : Bool) : State :=
  (s.charge d .hbm bytes).count d (if write then cHbmWr else cHbmRd) bytes
/-- Charge the IFESIL bucket and count IFS_TX (16 R545). -/
def State.chargeIfs (s : State) (d bytes : Nat) : State := (s.charge d .ifs bytes).count d cIfsTx bytes

end Sys2Proof.Machine
end

