-- ==== Sys2Proof/Machine/Life.lean ====
section
/-!
DEFINITION. The shared operations that end things: completing and aborting a request, releasing versions, fencing a
tile, resetting a ring, a function and a den, flushing the Hoard, and destroying a den (01, 05, 07, 08, 13, 14, 22).
-/

namespace Sys2Proof.Machine

/-! ### Versions (07 R213 to R215) -/

/-- Version slot `v` of a table. -/
def Table.ver (t : Table) (v : Nat) : Version :=
  match v with
  | 0 => t.v0
  | 1 => t.v1
  | 2 => t.v2
  | _ => t.v3

/-- Change version slot `v` of a table. -/
def Table.modVer (t : Table) (v : Nat) (g : Version → Version) : Table :=
  match v with
  | 0 => { t with v0 := g t.v0 }
  | 1 => { t with v1 := g t.v1 }
  | 2 => { t with v2 := g t.v2 }
  | _ => { t with v3 := g t.v3 }

/-- State of a version slot, with the codes of 15 R503: 0 EMPTY, 1 IDLE, 2 ACTIVE, 3 DRAINING (07 R213). -/
def Table.slotState (t : Table) (v : Nat) : Nat :=
  let x := t.ver v
  if !x.valid then 0 else if t.active = v then 2 else if x.refs = 0 ∧ !x.hold then 1 else 3

/-- The slot has become IDLE: VFREED counts and a VERSION_FREED event is posted, unless `quiet` (07 R215,
14 R467 step 2). -/
def State.versionFreed (s : State) (t v : Nat) (quiet : Bool) : State :=
  let d := (s.table t).den
  let s := s.count d cVfreed 1
  if quiet then s else (s.postEvent (d + 1) 3 d (toLe 2 t ++ toLe 1 v)).2

/-- Change a version slot, and free it when that takes it from DRAINING to IDLE (07 R215). -/
def State.modVersion (s : State) (t v : Nat) (quiet : Bool) (g : Version → Version) : State :=
  let was := (s.table t).slotState v
  let s := s.modTable t (fun x => x.modVer v g)
  if was = 3 ∧ (s.table t).slotState v = 1 then s.versionFreed t v quiet else s

/-- Take a reference on a version slot (07 R214). -/
def State.takeRef (s : State) (t v : Nat) : State :=
  s.modTable t (fun x => x.modVer v (fun y => { y with refs := y.refs + 1 }))

/-- Release a reference on a version slot (07 R214, R215). -/
def State.dropRef (s : State) (t v : Nat) (quiet : Bool) : State :=
  s.modVersion t v quiet (fun y => { y with refs := y.refs - 1 })

/-- Release every reference of a list of tables and slots. -/
def State.dropRefs (s : State) (l : List (Nat × Nat)) (quiet : Bool) : State :=
  l.foldl (fun s p => s.dropRef p.1 p.2 quiet) s

/-! ### Completing a request (01 R39, R42) -/

/-- Number of the RCQ of a den. -/
abbrev rcqKey (d : Nat) : Nat := 32 * (d + 1) + 24

/-- The 32 bytes of a completion entry (01 R42). -/
def completionBytes (tag status ring tiles trunc : Nat) (tAdmit tDone : W64) : Bytes :=
  toLe 2 tag ++ toLe 1 status ++ [if trunc = 0 then 0 else 2] ++ toLe 1 ring ++ [0] ++ toLe 2 tiles
    ++ toLe 4 (min trunc (2 ^ 32 - 1)) ++ [0, 0, 0, 0] ++ toLe 8 tAdmit.toNat ++ toLe 8 tDone.toNat

/-- Post the completion entry of a request into the RCQ slot it has reserved, and count it (01 R39, 13 R418). -/
def State.complete (s : State) (d ring tag status tiles trunc : Nat) (irq : Bool) (tAdmit : W64) : State :=
  let s := (s.count d (if status = 0 then cReqOk else cReqErr) 1).count d cHstTrunc trunc
  s.pushEntry (rcqKey d) (completionBytes tag status ring tiles trunc tAdmit s.wtime) (if irq then some (8 + ring) else none)

/-- A tile whose task has ended leaves the set when it is marked LEAVING (13 R396). -/
def State.leaveIfMarked (s : State) (t d : Nat) : State :=
  if (s.den d).leaving.getLsbD t then
    let m := ~~~(BitVec.ofNat 256 (2 ^ t))
    let s := s.modDen d (fun x => { x with leaving := x.leaving &&& m, tiles := x.tiles &&& m })
    s.modTile t (fun x => { x with pwr := .off, prepared := false })
  else s

/-- The tile of a task that has ended goes to IDLE and holds no task (08 R285). -/
def Tile.freed (x : Tile) : Tile :=
  { x with pwr := if x.pwr = .off then .off else .idle, dozeNow := x.dozeAfter, idleUs := 0, seq := .none, req := none,
           stall := 0, engq := [], semWait := [], sendq := [], chans := [], accs := [], barrier := none, passes := [], vx := none,
           rd := none, su0 := { x.su0 with running := [], xfers := [], crwait := false, tkwait := false },
           su1 := { x.su1 with running := [], xfers := [], crwait := false, tkwait := false },
           weights := { x.weights with valid := false }, hbuf0 := false, hbuf1 := false }

/-- Free the tiles of a request (01 R46, 13 R413). -/
def State.freeTiles (s : State) (r : Req) : State :=
  s.each r.tiles (fun s t => 
    (s.modTile t (fun x =>
      let x := { x with yields := merase x.yields r.id }
      if x.req = some r.id then x.freed else x)).leaveIfMarked t r.den)

/-- Forget what the Forager, the Hoard and the mesh still hold for a request. -/
def State.dropLookups (s : State) (id : Nat) : State :=
  { s with forager := { s.forager with ibuf := s.forager.ibuf.filter (fun x => x.req != id),
                                       slots := s.forager.slots.filter (fun x => x.r.req != id) },
           hoard := { s.hoard with arr := s.hoard.arr.filter (fun p => !(p.2.used && p.2.req == id)) } }

/-- Tiles of a request that its task holds now (a yielded task holds none). -/
def State.tilesOf (s : State) (r : Req) : List Nat := r.tiles.filter (fun t => (s.tile t).req == some r.id)

/-- A tile's task has left it: TILE_RUN takes the TCLK that it ran, which the model leaves open (13 R418, assumption 1). -/
def State.runTime (s : State) (d n : Nat) : State :=
  if n = 0 then s
  else
    let v := s.free 64
    v.2.count d cTileRun v.1.toNat

/-- The request is over: its tiles, slot and references are released in one HCLK with its completion write (01 R39,
R46). A silent request posts none, and its reserved RCQ slot is given back. `quiet` posts no VERSION_FREED. -/
def State.endReq (s : State) (r : Req) (status : Nat) (quiet : Bool) : State :=
  let s := (s.runTime r.den (s.tilesOf r).length).freeTiles r
  let s := s.dropLookups r.id
  let s := { s with reqs := s.reqs.filter (fun x => x.id != r.id) }
  let s := s.dropRefs r.versions quiet
  let tag := fld r.desc 2 2
  if r.silent then s.modRing (rcqKey r.den) (fun x => { x with rsvd := x.rsvd - 1 })
  else s.complete r.den r.ring tag status r.tiles.length r.trunc r.irq r.tAdmit

/-! ### Aborting a task (08 R282, R283) -/

/-- The completions of an issuer's reads will be discarded, and what it has not sent is given up (R459, R461). -/
def State.cancelReads (s : State) (p : Issuer → Bool) : State :=
  { s with pcie := { s.pcie with
      reads := s.pcie.reads.map (fun (r : HostRead) => if p r.issuer then { r with discard := true } else r),
      xlate := s.pcie.xlate.filter (fun (x : PendXlate) => x.write || !(p x.issuer)),
      waiting := s.pcie.waiting.filter (fun (x : PendXlate) => x.write || !(p x.issuer)),
      parts := s.pcie.parts.filter (fun (x : HostPart) => !(p x.issuer)) } }

/-- The issuer is a tile of the list, or the feature read of the request. -/
def Issuer.isOf (i : Issuer) (id : Nat) (ts : List Nat) : Bool :=
  match i with
  | .tile t _ => ts.contains t
  | .stream t _ _ _ => ts.contains t
  | .feature r => r == id
  | .ring _ _ _ | .block _ _ | .cmd _ => false

/-- A stream unit's ring state and credits are cleared (11 R365). -/
def StreamUnit.cleared (u : StreamUnit) : StreamUnit := { bytes := u.bytes, started := u.started }

/-- A tile receives the abort message (08 R283). -/
def Tile.aborted (x : Tile) : Tile :=
  { x with seq := .aborting, engq := [], semWait := [], sendq := [], chans := [], barrier := none, passes := [], vx := none, rd := none,
           su0 := x.su0.cleared, su1 := x.su1.cleared,
           stall := 0, weights := { x.weights with valid := false } }

/-- The dispatcher sends the abort message to every tile of the task in one HCLK; the first cause sets the status
(08 R282, R283). -/
def State.startAbort (s : State) (id status : Nat) (silent : Bool) : State :=
  match s.req id with
  | none => s
  | some r =>
    if r.phase = .aborting then (if silent then s.modReq id (fun x => { x with silent := true }) else s)
    else
      let s := s.modReq id (fun x => { x with phase := .aborting, status := status, silent := x.silent || silent,
                                              barriers := [], walk := none })
      let s := s.cancelReads (fun i => i.isOf id (s.tilesOf r))
      (s.each r.tiles (fun s t => s.modTile t (fun x =>
        let x := { x with yields := merase x.yields id }
        if x.req = some id then x.aborted else x))).dropLookups id

/-- Abort at once and without a completion entry: FLR, DEN_DESTROY, RETAIN, D3hot, a quiesced den (01 R24). -/
def State.killReq (s : State) (id : Nat) (quiet : Bool) : State :=
  let s := s.startAbort id 0x0C true
  match s.req id with
  | some r => s.endReq { r with silent := true } 0x0C quiet
  | none => s

/-- Abort every task of the dens that a test picks, with no completion. -/
def State.killReqs (s : State) (p : Req → Bool) (quiet : Bool) : State :=
  s.each ((s.reqs.filter p).map Req.id) (fun s id => s.killReq id quiet)

/-- Status of a task abort cause (08 R282). -/
def causeStatus (cause : Nat) : Nat :=
  match cause with
  | 0x07 => 0x03
  | 0x0D => 0x0D
  | 0x0E => 0x12
  | 0x11 => 0x0B
  | _ => 0x0C

/-- TIL_FAULT takes a cause, unless it already holds one (08 R294). -/
def Tile.recordFault (x : Tile) (cause trap pc : Nat) : Tile :=
  if x.faultValid then x
  else { x with faultCause := BitVec.ofNat 8 cause, trapCode := BitVec.ofNat 16 trap, faultValid := true,
                faultPc := BitVec.ofNat 13 pc }

/-- PC of a request's task on a tile, running or yielded. -/
def Tile.pcOf (x : Tile) (id : Nat) : Nat := if x.req = some id then x.pc else (mget ({} : YieldRec) x.yields id).pc

/-- Tile `t` raises a task abort cause: TIL_FAULT takes it, the fault is logged once for the fault that set the
status, every other tile of the task records PEER, and the dispatcher sends the abort message (08 R282, R283, R294,
22 R721). `line` is the SRAM line of DETAIL. -/
def State.tileFault (s : State) (t cause trap line : Nat) (poison own : Bool) : State :=
  let x := s.tile t
  match x.req with
  | none => s
  | some id =>
    match s.req id with
    | none => s
    | some r =>
      if r.phase = .aborting then s
      else
        let loc := mkLoc 1 t (some r.den) poison (x.pc % 8192 + 2 ^ 16 * (line % 2 ^ 16))
        let s := s.modTile t (fun y => y.recordFault cause trap y.pc)
        let s := s.each (r.tiles.filter (fun u => u != t && !(r.reported.contains u))) (fun s u => s.modTile u (fun y =>
          y.recordFault 0x10 0 (y.pcOf id)))
        let s := s.fault cause loc
        let f : ReqFault := { tile := t, cause := cause, pc := x.pc, poison := poison, own := own, loc := loc }
        let s := s.modReq id (fun y => { y with flt := some f })
        s.startAbort id (causeStatus cause) false

/-! ### Fencing (22 R726 to R730) -/

/-- Bit mask of tile `t`. -/
def tileBit (t : Nat) : BitVec 256 := BitVec.ofNat 256 (2 ^ t)

/-- Number of ones among the low `n` bits. -/
def popNat (v n : Nat) : Nat := ((List.range n).filter (fun i => v.testBit i)).length

/-- Tiles of a den's set that are not fenced (fencing removes them from the set, 22 R729). -/
def State.setSize (s : State) (d : Nat) : Nat :=
  ((List.range 256).filter (fun t => (s.den d).tiles.getLsbD t && !(s.tile t).fenced)).length

/-- Den whose set holds a tile. -/
def State.tileDen (s : State) (t : Nat) : Option Nat :=
  (List.range 32).find? (fun d => (s.den d).tiles.getLsbD t)

/-- A model with an entry point that needs more tiles than the den's unfenced set (22 R730). -/
def State.modelShort (s : State) (m : Model) : Bool := m.entries.any (fun e => decide (s.setSize m.den < e.tiles))

/-- Complete every admitted and unplaced request of a fenced model with FENCED (22 R730). -/
def State.completeFenced (s : State) (d h : Nat) : State :=
  (s.reqs.filter (fun r => r.den == d && r.model == h && r.phase == .unplaced)).foldl (fun s r => s.endReq r 0x10 false) s

/-- Fence the models of a den that a tile fence leaves short (22 R730). -/
def State.fenceModels (s : State) (d : Nat) : State :=
  (s.models.filter (fun m => m.den == d && !m.fenced && s.modelShort m)).foldl (fun s m =>
    let s := s.modModel d m.handle (fun x => { x with fenced := true })
    let s := s.fault 0x0602 (mkLoc 12 m.handle (some d) false 0)
    s.completeFenced d m.handle) s

/-- Fence a tile (22 R729): `status` is that of a task that runs or is yielded on it, `flt` the LOCATION of the fault
that caused the fence. -/
def State.fenceTile (s : State) (t reason status : Nat) (flt : Option W64) : State :=
  if (s.tile t).fenced then s
  else
    let dn := s.tileDen t
    let m := ~~~(tileBit t)
    let s := s.each ((s.reqs.filter (fun r => r.tiles.contains t)).map Req.id) (fun s id => s.startAbort id status false)
    let s := s.each (List.range 32) (fun s d => s.modDen d (fun x => { x with tiles := x.tiles &&& m, leaving := x.leaving &&& m }))
    let s := s.modTile t (fun x => { x with pwr := .off, fenced := true, prepared := false })
    let s := { s with err := { s.err with recent := mset [] s.err.recent t [] }, tag := { s.tag with due := true } }
    let loc := match flt with
      | some l => l
      | none => mkLoc 1 t dn false 0
    let s := s.fault 0x0601 loc (some (0x06, toLe 1 t ++ [1] ++ toLe 1 reason ++ [0]))
    match dn with
    | some d => s.fenceModels d
    | none => s

/-- Count a TASK fault against its tile, or fence it: R726 (own storage), R727, R728. -/
def State.countFault (s : State) (r : Req) (f : ReqFault) : State :=
  if f.own then s.fenceTile f.tile 1 0x0C (some f.loc)
  else if !(s.err.mask.getLsbD f.cause) || f.poison then s
  else
    let sigOf (g : Signature) : Bool := g.den == r.den && g.model == r.model && g.entry == r.entry && g.cause == f.cause &&
      g.pc == f.pc && g.tile != f.tile && decide (s.powered - g.at_ ≤ 86400)
    if s.err.sigs.any sigOf then s
    else
      let now := s.powered
      let old := (mget [] s.err.recent f.tile).filter (fun p => decide (now - p ≤ 86400))
      let e := s.err
      let s := { s with err := { e with
        total := mset 0 e.total f.tile (satAdd (mget 0 e.total f.tile) 1),
        sigs := ({ den := r.den, model := r.model, entry := r.entry, cause := f.cause, pc := f.pc, tile := f.tile,
                   at_ := now } :: e.sigs).take 256,
        recent := mset [] e.recent f.tile ((now :: mget [] e.recent f.tile).take 2) } }
      if 2 ≤ old.length then s.fenceTile f.tile 3 (causeStatus f.cause) (some f.loc) else s

/-! ### Hoard flush and den contents (05 R175, R178) -/

/-- Device addresses of the Hoard scratch range start here (01 R23). -/
abbrev scratchBase : Nat := 0x8000000000

/-- Write a line to HBM: data, and the poison marks of its four 32-byte words (05 R173, 22 R724). -/
def Hbm.putLine (h : Hbm) (l : HLine) : Hbm :=
  let bad := (List.range 4).foldl (fun b i =>
    mset false b (l.addr / 32 + i) (decide (bits l.poison.toNat (4 * i) 4 ≠ 0))) h.bad
  let weak := (List.range 4).foldl (fun b i => mset false b (l.addr / 32 + i) false) h.weak
  { h with data := memWrite h.data l.addr (padB 128 l.data), bad := bad, weak := weak }

/-- A line that a flush writes back: dirty, of HBM, current (05 R175). A committed row's lines are current. -/
def Hoard.flushes (_h : Hoard) (l : HLine) : Bool :=
  l.dirty && decide (l.addr < scratchBase) &&
    l.gen == LineGen.current

/-- Steps 2 to 4 of the sequence of R175, without the power-down. -/
def State.flushAll (s : State) : State :=
  let h := s.hoard
  let hbm := (h.lines.filter (fun p => h.flushes p.2)).foldl (fun b p => b.putLine p.2) s.hbm
  { s with hbm := hbm,
           hoard := { h with lines := [], plru := [], ports := [], arr := [], dirs := [] },
           tables := s.tables.map (fun p => (p.1, { p.2 with pinVer := none, pinFilling := false })) }

/-- Discard the staged rows of a den that have not been committed (07 R237). -/
def State.discardStaged (s : State) (d : Nat) : State :=
  let h := s.hoard
  let gone := h.dirs.filter (fun x => x.den == d && !x.committed)
  let inGone (a : Nat) : Bool := gone.any (fun x => decide (x.addr / 128 * 128 ≤ a ∧ a < x.addr + x.len))
  let s := { s with hoard := { h with dirs := h.dirs.filter (fun x => !(x.den == d && !x.committed)),
                                      lines := h.lines.filter (fun p => !(p.2.gen == LineGen.staged && inGone p.2.addr)) } }
  (s.setUpd d 0 none).setUpd d 1 none

/-- Version references of the update descriptors in progress of a den (07 R214). -/
def State.updRefs (s : State) (d : Nat) : List (Nat × Nat) :=
  [0, 1].filterMap (fun r => (s.upd d r).map (fun u => (u.table, u.vslot)))

/-- UCQ slots reserved by the update descriptors in progress of a den are given back. -/
def State.dropUpdates (s : State) (d : Nat) (quiet : Bool) : State :=
  let refs := s.updRefs d
  let s := s.each ([0, 1].filter (fun r => (s.upd d r).isSome)) (fun s r =>
    s.modRing (32 * (d + 1) + 27 + r) (fun x => { x with rsvd := x.rsvd - 1 }))
  (s.discardStaged d).dropRefs refs quiet

/-- Everything of a slot leaves a PE: its windows are zeroed and its words dropped (03 R86, R92, R104). -/
def Pe.zeroSlot (p : Pe) (c : Nat) : Pe :=
  let other (w : MioWord) : Bool := w.slot != c
  { regs := mclear p.regs (16 * c) (16 * c + 16), lut := mclear p.lut (256 * c) (256 * c + 256),
    inst := mclear p.inst (16 * c) (16 * c + 16), len := merase p.len c, flag := merase p.flag c, pc := merase p.pc c,
    qW := p.qW.filter other, qN := p.qN.filter other, qE := p.qE.filter other, qS := p.qS.filter other,
    tok := match p.tok with
      | some t => if t.2 = c then none else some t
      | none => none }

/-- A slot's windows in every PE are zeroed, and every token of the slot in the quadrant is dropped (03 R86, R92, R104). -/
def zeroSlot (q : Quad) (c : Nat) : Quad :=
  let mine (id : Nat) : Bool := q.toks.any (fun t => t.id == id && t.slot == c)
  { q with pes := q.pes.map (fun p => (p.1, p.2.zeroSlot c)),
           lanes := q.lanes.map (fun l => (l.1, l.2.filter (fun (x : Nat × Bytes) => !(mine x.1)))),
           toks := q.toks.filter (fun t => t.slot != c) }

/-- A slot becomes EMPTY (or INVALID) with its windows zeroed (03 R86). -/
def State.clearSlot (s : State) (q c : Nat) (st : SlotState) : State :=
  let s := s.modQuad q (fun x => zeroSlot x c)
  s.modSlot q c (fun x => { x with st := st, laneMask := 0, entry := if st = .empty then 0 else x.entry })

/-- Remove a table descriptor; its pin copies go with it (04 R119, 05 R160). -/
def State.dropTable (s : State) (t : Nat) : State := { s with tables := merase s.tables t }

/-- Zero HBM stripes `first` to `first + count - 1` of 16 MiB (13 R394, R395). -/
def Hbm.zeroStripes (h : Hbm) (first count : Nat) : Hbm :=
  let lo := first * 16777216
  let hi := (first + count) * 16777216
  { h with data := memZero h.data lo hi, bad := mclear h.bad (lo / 32) (hi / 32), weak := mclear h.weak (lo / 32) (hi / 32) }

/-- Line slot numbers: way of a line's number. -/
def lineWay (k : Nat) : Nat := k % 16

/-- The lines of a way are zeroed (05 R157, R178). -/
def Hoard.zeroWay (h : Hoard) (w : Nat) : Hoard :=
  { h with lines := h.lines.filter (fun p => lineWay p.1 != w) }

/-- The Hoard rule of R178. -/
def State.dropHoard (s : State) (d : Nat) : State :=
  let ws := (List.range 16).filter (fun w => (s.way w).mode != .shared && (s.way w).owner == d)
  let h := s.hoard
  let h := { h with lines := h.lines.filter (fun p => !(p.2.den == d && decide (p.2.addr < scratchBase))),
                    arr := h.arr.filter (fun p => !(p.2.used && p.2.den == d)),
                    dirs := h.dirs.filter (fun x => x.den != d) }
  { s with hoard := ws.foldl Hoard.zeroWay h }

/-- Slots of a den: quadrant and slot. -/
def Den.slotList (x : Den) : List (Nat × Nat) :=
  ((List.range 16).filter (fun i => x.mioSlots.getLsbD i)).map (fun i => (i / 4, i % 4))

/-- Entries of a den. -/
def Den.entryList (x : Den) : List Nat := (List.range 64).filter (fun e => x.mioEnts.getLsbD e)

/-- Steps 2 to 5 of R394: staged rows, models, tables, Mioter slots and entries, the Hoard rule, and the stripes. -/
def State.scrubDen (s : State) (d : Nat) : State :=
  let x := s.den d
  let s := s.dropUpdates d true
  let s := { s with models := s.models.filter (fun m => m.den != d),
                    tables := s.tables.filter (fun p => !(p.2.present && p.2.den == d)) }
  let s := x.slotList.foldl (fun s p => s.clearSlot p.1 p.2 .empty) s
  let s := s.each x.entryList (fun s e => s.modEntry e (fun _ => {}))
  let s := s.dropHoard d
  let s := s.modDen d (fun y => { y with prog := [] })
  { s with hbm := x.hbm.foldl (fun h p => h.zeroStripes p.1 p.2) s.hbm }

/-- Commands already running from a function finish, and their replies are discarded (14 R463, 15 R485). -/
def State.silenceCmds (s : State) (p : Nat → Bool) : State :=
  { s with cp := { s.cp with running := s.cp.running.map (fun c =>
      match c.src with
      | .ring f _ => if p f then { c with silent := true } else c
      | _ => c) } }

/-- Every ring of a function is reset with RING_BASE and RING_WB zero (14 R463 step 3); completion slots that running
commands hold stay promised to nothing. -/
def State.resetRings (s : State) (f : Nat) : State :=
  { s with pcie := { s.pcie with rings := mclear s.pcie.rings (32 * f) (32 * f + 32) } }

/-- Steps 3 to 5 of R463 for function `f`. -/
def State.flrFinish (s : State) (f : Nat) : State :=
  let s := s.resetRings f
  let s := { s with pcie := { s.pcie with ats := s.pcie.ats.filter (fun e => e.fn != f),
                                          xlate := s.pcie.xlate.filter (fun e => e.fn != f),
                                          waiting := s.pcie.waiting.filter (fun e => e.fn != f) } }
  let s := s.modFn f (fun x => { x with msix := [], shadow := none, held := [], flr := false, draining := false,
                                        bme := false, ats := false, evlostSince := 0 })
  if f = 0 then s
  else
    let d := f - 1
    if (s.den d).scrub ∧ (s.den d).st = .active then
      let s := s.scrubDen d
      s.each ((List.range 256).filter (fun t => (s.den d).tiles.getLsbD t)) (fun s t =>
        s.modTile t (fun x => { x with pwr := if x.fenced then .off else .idle, dozeNow := x.dozeAfter, idleUs := 0 }))
    else s

/-- Outstanding host reads of a function. -/
def State.readsOf (s : State) (f : Nat) : List HostRead := s.pcie.reads.filter (fun r => r.fn == f)

/-- Step 1 and 2 of R463 for VF `f`: DEN_(f − 1) stops; when no host completion is outstanding, steps 3 to 5 follow. -/
def State.flrStart (s : State) (f : Nat) : State :=
  let d := f - 1
  let s := if f = 0 then s else (s.killReqs (fun r => r.den == d) false).dropUpdates d false
  let s := s.silenceCmds (fun g => g == f)
  let s := s.modFn f (fun x => { x with flr := true, draining := true })
  let s := { s with pcie := { s.pcie with reads := s.pcie.reads.map (fun (r : HostRead) => if r.fn = f then { r with discard := true } else r) } }
  if (s.readsOf f).isEmpty then s.flrFinish f else s

/-! ### Destroying a den (13 R394) -/

/-- A FREE den: it owns nothing. What no rule resets at DEN_DESTROY stays: the counters, which DEN_CREATE resets, and
the RW limits of R146 and R180 (13 R391, R392). -/
def Den.freed (x : Den) : Den :=
  { cnt := x.cnt, snap := x.snap, laDepth := x.laDepth, inflightMax := x.inflightMax, ibufQuota := x.ibufQuota,
    arrMax := x.arrMax, attachFail := x.attachFail, lastRing := x.lastRing }

/-- Steps 1 to 6 of R394, and the den FREE. The DEN_STATE event is posted before its rings are disabled (14 R473). -/
def State.destroyDen (s : State) (d : Nat) : State :=
  let s := s.modDen d (fun x => { x with st := .destroying })
  let s := s.killReqs (fun r => r.den == d) false
  let s := s.scrubDen d
  let s := (s.postEvent (d + 1) 4 d [0, 0]).2
  let s := s.resetRings (d + 1)
  let x := s.den d
  let s := s.each ((List.range 256).filter (fun t => x.tiles.getLsbD t)) (fun s t =>
    s.modTile t (fun y => { y with pwr := .off, prepared := false }))
  let s := s.each ((List.range 16).filter (fun w => (s.way w).owner == d && (s.way w).mode != .shared)) (fun s w =>
    s.modWay w (fun _ => {}))
  let s := { s with pcie := { s.pcie with retHeld := s.pcie.retHeld &&& ~~~(BitVec.ofNat 32 (2 ^ d)) } }
  s.modDen d Den.freed

/-! ### RETAIN (14 R467) -/

/-- Entry into RETAIN: steps 1, 2, 4 to 7 of R467, and the flush of step 3 begins; FLUSH_DONE ends it. -/
def State.enterRetain (s : State) (cause : Nat) : State :=
  if s.pwr.st = .retain then { s with pcie := { s.pcie with retCause := if cause = 2 then 2 else s.pcie.retCause } }
  else
    let s := s.killReqs (fun _ => true) true
    let s := s.each (List.range 32) (fun s d => s.dropUpdates d true)
    let held := (List.range 32).foldl (fun v d => if (s.den d).st = .active then v + 2 ^ d else v) 0
    let s := s.each (List.range 33) (fun s f => (s.resetRings f).modFn f (fun x =>
      { x with msix := [], held := [], bme := false, ats := false, evlostSince := 0, flr := false, draining := false, shadow := none }))
    let s := s.each (List.range 256) (fun s t => s.modTile t (fun x => if x.pwr = .off then x else { x with pwr := .doze }))
    { s with pcie := { s.pcie with ats := [], xlate := [], waiting := [], parts := [], reads := s.pcie.reads.map (fun (r : HostRead) => { r with discard := true }),
                                   retSt := 1, retCause := cause, retHeld := BitVec.ofNat 32 held, retT := s.wtime,
                                   retTo := s.boot.prof.retainTimeout, retFlushOk := false },
             hoard := { s.hoard with flushActive := true, flushDone := false },
             pwr := { s.pwr with st := .retain, thermal := false, svcRun := false } }

/-- The device leaves RETAIN when no den is held (14 R469, 17 R565). -/
def State.leaveRetain (s : State) : State :=
  if s.pwr.st = .retain ∧ s.pcie.retHeld = 0 ∧ ¬ s.hoard.flushActive then
    { s with pwr := { s.pwr with st := if s.boot.mode = 1 then .limp else .active }, pcie := { s.pcie with retSt := 0 },
             hoard := { s.hoard with off := false } }
  else s

/-! ### Quiescing a den (22 R734) -/

/-- Steps 1 to 4 of R734; the ERROR event has been posted with the fault. -/
def State.quiesce (s : State) (d : Nat) : State :=
  let s := (s.postEvent (d + 1) 4 d [2, 1]).2
  let s := s.killReqs (fun r => r.den == d) false
  let s := s.dropUpdates d false
  let s := s.each (List.range 32) (fun s i => s.modRing (32 * (d + 1) + i) (fun x => { x with en := false, entries := [] }))
  s.modDen d (fun x => { x with st := .quiesced })

end Sys2Proof.Machine
end

