-- ==== Sys2Proof/Machine/Mem.lean ====
section
/-!
DEFINITION. Device memory as the den ranges and the Hoard present it: which addresses a den may reach, and coherent
reads and writes of HBM, Hoard scratch and tile SRAM (01 R23, 05 R151, R161, 13 R399, 14 R436).
-/

namespace Sys2Proof.Machine

/-! ### Address ranges (01 R23) -/

/-- Size of HBM: 18,432 stripes of 16 MiB (06 R182). -/
abbrev hbmSize : Nat := 18432 * 16777216
/-- Tile SRAM aperture, 256 × 4 MiB. -/
abbrev sramBase : Nat := 0xC000000000
/-- Mioter config store, 16 MiB. -/
abbrev storeBase : Nat := 0xE000000000
/-- Start of the host window: IOVA 0. -/
abbrev hostBase : Nat := 0xC0000000000000
/-- Remote device space: bit 55 set and bit 54 clear, Warren id in bits [47:40]. -/
abbrev remoteBase : Nat := 0x80000000000000

/-- What an address names. -/
inductive Space where
  | hbm
  /-- Hoard scratch, offset -/
  | scratch (o : Nat)
  /-- tile SRAM: tile and local address -/
  | sram (t a : Nat)
  | store
  /-- host window: IOVA -/
  | host (iova : Nat)
  /-- remote device space: Warren id and offset -/
  | remote (w o : Nat)
  | hole
  deriving DecidableEq, Repr

/-- The range an address lies in (01 R23). -/
def space (a : Nat) : Space :=
  if a < hbmSize then .hbm
  else if scratchBase ≤ a ∧ a < scratchBase + 0x20000000 then .scratch (a - scratchBase)
  else if sramBase ≤ a ∧ a < sramBase + 0x40000000 then .sram ((a - sramBase) / 4194304) ((a - sramBase) % 4194304)
  else if storeBase ≤ a ∧ a < storeBase + 0x1000000 then .store
  else if hostBase ≤ a ∧ a < hostBase + 2 ^ 54 then .host (a - hostBase)
  else if remoteBase ≤ a ∧ a < remoteBase + 2 ^ 48 then .remote ((a - remoteBase) / 2 ^ 40) ((a - remoteBase) % 2 ^ 40)
  else .hole

/-- Stripe `n` belongs to the den (13 R389). -/
def Den.hasStripe (x : Den) (n : Nat) : Bool := x.hbm.any (fun p => decide (p.1 ≤ n ∧ n < p.1 + p.2))

/-! ### Interleave (06 R183) -/

/-- Bytes of granule code `g`: 256 B, 4 KiB or 64 KiB. -/
def granBytes (g : Nat) : Nat := if g = 0 then 256 else if g = 1 then 4096 else 65536

/-- Pseudo-channel of offset `o` of stripe `st`, and the offset within the stripe's 64 KiB piece there (R183). -/
def locate (gran st o : Nat) : Nat × Nat :=
  let g := granBytes gran
  let j := o / g
  let rnd := j / 256
  (((j % 256) ^^^ (rnd % 256)) ^^^ (st % 256), rnd * g + o % g)

/-- The offset within stripe `st` of byte `q` of the stripe's piece on pseudo-channel `p`: R183 read backwards. -/
def unlocate (gran st p q : Nat) : Nat :=
  let g := granBytes gran
  let rnd := q / g
  (rnd * 256 + ((p ^^^ (st % 256)) ^^^ (rnd % 256))) * g + q % g

/-- Granule code of a stripe: that of the den that holds it, else 256 B (R185). -/
def State.granOf (s : State) (st : Nat) : Nat :=
  match (List.range 32).find? (fun d => (s.den d).hasStripe st) with
  | some d => (s.den d).gran
  | none => 0

/-- Where a byte of HBM lies: stack, pseudo-channel within the stack, and pseudo-channel offset, with the layers that
missing stacks bring (06 R181 to R183, R211, 18 R610). -/
def State.hbmPlace (s : State) (a : Nat) : Nat × Nat × Nat :=
  let st := a / 16777216
  let pq := locate (s.granOf st) st (a % 16777216)
  let pass := (List.range 8).filter (fun n => s.boot.stacks8.getLsbD n)
  let n := max 1 pass.length
  let i := pq.1 % 8
  let span := 18432 / ((7 + n) / n)
  (pass.getD (i % n) i, bits pq.1 3 4 * 2 + bits pq.1 7 1, (i / n) * span * 65536 + st * 65536 + pq.2)

/-- Key of the DRAM row of a byte of HBM: STACK, DIE, PC, BANK, one byte each, then ROW (06 R768, 21 R690). -/
def State.rowKey (s : State) (a : Nat) : Nat :=
  let p := s.hbmPlace a
  let r := p.2.2 / 1024
  p.1 + 2 ^ 8 * (r / 16 % 12) + 2 ^ 16 * p.2.1 + 2 ^ 24 * (r % 16) + 2 ^ 32 * (r / 192)

/-- The fields of HBM_ERRLOG for a row key (06 R211). -/
def errlogOf (key : Nat) : W32 :=
  BitVec.ofNat 32 (bits key 16 8 + 2 ^ 5 * bits key 8 8 + 2 ^ 9 * bits key 24 8 + 2 ^ 13 * (key / 2 ^ 32))

/-- Words of a stack found uncorrectable at a byte of HBM: UNCORR and HBM_ERRLOG (06 R190, R769). -/
def State.hbmUncorr (s : State) (a n : Nat) : State :=
  let key := s.rowKey a
  if n = 0 then s
  else s.modStack (key % 256) (fun y => { y with uncorr := satAdd y.uncorr n, errlog := errlogOf key, errlogValid := true })

/-- Words of a stack corrected by a read (06 R190). -/
def State.hbmCorr (s : State) (a n : Nat) : State :=
  s.modStack (s.rowKey a % 256) (fun y => { y with corr := satAdd y.corr n })

/-- Write bytes to HBM past the Hoard: whole words lose their errors; a word written in part is read first, which
corrects a single-symbol error and leaves an uncorrectable word poisoned (06 R769). -/
def State.hbmWrite (s : State) (a : Nat) (bs : Bytes) : State :=
  let e := a + bs.length
  let ws := (List.range (e / 32 + 1 - a / 32)).map (fun i => a / 32 + i)
  let whole := ws.filter (fun w => decide (a ≤ 32 * w ∧ 32 * w + 32 ≤ e))
  let part := ws.filter (fun w => decide (32 * w < e) && !(whole.contains w))
  let bad := (part.filter (fun w => mget false s.hbm.bad w)).length
  let weak := (part.filter (fun w => mget false s.hbm.weak w && !(mget false s.hbm.bad w))).length
  let s := { s with hbm := { s.hbm with data := memWrite s.hbm.data a bs,
                                        bad := whole.foldl (fun b w => mset false b w false) s.hbm.bad,
                                        weak := (whole ++ part).foldl (fun b w => mset false b w false) s.hbm.weak } }
  (s.hbmUncorr a bad).hbmCorr a weak

/-- Number of SCRATCH ways below way `w` over the whole device (05 R161). -/
def State.scratchRank (s : State) (w : Nat) : Nat :=
  ((List.range w).filter (fun v => (s.way v).mode == .scratch)).length

/-- The SCRATCH way that holds scratch line `l` (05 R161). -/
def State.scratchWay (s : State) (l : Nat) : Option Nat :=
  (List.range 16).find? (fun w => (s.way w).mode == .scratch && s.scratchRank w == l / 262144)

/-- The den may reach `n` bytes at `a` under the tile column of R399, `sram` adding the SRAM of its set. -/
def State.denMay (s : State) (d a n : Nat) (sram : Bool) : Bool :=
  let last := a + (n - 1)
  match space a with
  | .hbm => decide (last < hbmSize) && (List.range (last / 16777216 + 1 - a / 16777216)).all (fun i =>
      (s.den d).hasStripe (a / 16777216 + i))
  | .scratch o => decide (o + n ≤ 0x20000000) && (List.range ((o + (n - 1)) / 33554432 + 1 - o / 33554432)).all (fun i =>
      match s.scratchWay ((o / 33554432 + i) * 262144) with
      | some w => (s.way w).owner == d
      | none => false)
  | .sram t b => sram && decide (b + n ≤ 4194304) && (s.den d).tiles.getLsbD t
  | .host i => decide (d < s.pcie.numVfs) && decide (i + n ≤ 2 ^ 54)
  | .remote _ o => decide (o + n ≤ 2 ^ 40)
  | .store | .hole => false

/-! ### Coherent memory (05 R151, R155, R164) -/

/-- The current line of the Hoard that holds an address, with its place. -/
def Hoard.find (h : Hoard) (a : Nat) : Option (Nat × HLine) :=
  h.lines.find? (fun p => p.2.addr == a / 128 * 128 && p.2.gen == LineGen.current)

/-- One byte of HBM or scratch as a coherent reader sees it. -/
def State.devByte (s : State) (a : Nat) : Byte :=
  match s.hoard.find a with
  | some p => byteAt p.2.data (a % 128)
  | none => if a < hbmSize then memGet s.hbm.data a else 0

/-- The byte carries a poison mark, or its HBM word reads uncorrectable (22 R724). -/
def State.devPoison (s : State) (a : Nat) : Bool :=
  match s.hoard.find a with
  | some p => p.2.poison.getLsbD (a % 128 / 8)
  | none => decide (a < hbmSize) && mget false s.hbm.bad (a / 32)

/-- `n` bytes of device memory: HBM, scratch, or the SRAM of a tile; a tile in OFF reads zero (14 R437). -/
def State.devRead (s : State) (a n : Nat) : Bytes :=
  match space a with
  | .sram t b => if (s.tile t).pwr = .off then List.replicate n 0 else memRead (s.tile t).sram b n
  | _ => (List.range n).map (fun i => s.devByte (a + i))

/-- Some byte of a range is poisoned. -/
def State.devBad (s : State) (a n : Nat) : Bool :=
  match space a with
  | .sram t b => (List.range n).any (fun i => mget false (s.tile t).poison ((b + i) / 8))
  | _ => (List.range n).any (fun i => s.devPoison (a + i))

/-- Granules of 8 bytes that `n` bytes from offset `o` cover whole. -/
def wholeGranules (o n : Nat) : List Nat :=
  (List.range ((o + n) / 8 + 1)).filter (fun g => decide (o ≤ 8 * g) && decide (8 * g + 8 ≤ o + n))

/-- Bytes written into a line: it becomes dirty, and a granule written whole loses its mark (22 R724). -/
def HLine.write (l : HLine) (o : Nat) (bs : Bytes) : HLine :=
  let m := (wholeGranules o bs.length).foldl (fun v g => v + 2 ^ g) 0
  { l with data := patchB (padB 128 l.data) o bs, dirty := true, poison := l.poison &&& ~~~(BitVec.ofNat 16 m) }

/-- Write bytes into one line of HBM or scratch, at offset `o` of line `a` (05 R151, R155, R161). A scratch line comes
to exist in its SCRATCH way; an HBM line that the Hoard does not hold is written at HBM. -/
def State.lineWrite (s : State) (a o : Nat) (bs : Bytes) : State :=
  match s.hoard.find a with
  | some p => { s with hoard := { s.hoard with lines := mput s.hoard.lines p.1 (p.2.write o bs) } }
  | none =>
    if a < hbmSize then s.hbmWrite (a + o) bs
    else
      let l := (a - scratchBase) / 128
      match s.scratchWay l with
      | some w =>
        let k := ((l % 64) * 4096 + l / 64 % 4096) * 16 + w
        let x : HLine := { addr := a, den := (s.way w).owner, data := List.replicate 128 0 }
        { s with hoard := { s.hoard with lines := mput s.hoard.lines k (x.write o bs) } }
      | none => s

/-- Write line by line; `fuel` bounds the number of lines. -/
def State.devLines (s : State) (fuel a : Nat) (bs : Bytes) : State :=
  match fuel with
  | 0 => s
  | f + 1 =>
    if bs.isEmpty then s
    else
      let n := min (128 - a % 128) bs.length
      (s.lineWrite (a / 128 * 128) (a % 128) (bs.take n)).devLines f (a + n) (bs.drop n)

/-- Write `bs` into the SRAM of a tile: granules written whole lose their marks and their ECC state (08 R246, 22 R724). -/
def Tile.putSram (x : Tile) (b : Nat) (bs : Bytes) : Tile :=
  let gs := (wholeGranules (b % 8) bs.length).map (fun g => b / 8 + g)
  { x with sram := memWrite x.sram b bs, poison := gs.foldl (fun p g => mset false p g false) x.poison,
           ecc := gs.foldl (fun p g => mset 0 p g 0) x.ecc }

/-- Mark the granules that `n` bytes from `b` touch as poisoned (22 R724). -/
def Tile.poisonSram (x : Tile) (b n : Nat) : Tile :=
  { x with poison := (List.range ((b % 8 + n + 7) / 8)).foldl (fun p g => mset false p (b / 8 + g) true) x.poison }

/-- Write 64 bytes with the marks of their granules (22 R724). -/
def Tile.putMarked (x : Tile) (b : Nat) (bs : Bytes) (m : BitVec 8) : Tile :=
  (List.range 8).foldl (fun y g => if m.getLsbD g then y.poisonSram (b + 8 * g) 8 else y) (x.putSram b bs)

/-- Write device memory: HBM, scratch, or the SRAM of a tile that is not OFF (14 R437). -/
def State.devWrite (s : State) (a : Nat) (bs : Bytes) : State :=
  match space a with
  | .sram t b => if (s.tile t).pwr = .off then s else s.modTile t (fun x => x.putSram b bs)
  | .hbm | .scratch _ => s.devLines (bs.length + 1) a bs
  | _ => s

end Sys2Proof.Machine
end

