-- ==== Sys2Proof/Machine/Nor.lean ====
section
/-!
DEFINITION. The Ledger: its NOR die, sectors, the journal, the PROFILES region and profile records, and the three
commands of the journal (21 R680 to R702, 15 R510, R511).
-/

namespace Sys2Proof.Machine

/-! ### The die (21 R681, R682) -/

/-- A byte of the Ledger; an unlisted byte is erased, 0xFF. -/
def Ledger.get (l : Ledger) (a : Nat) : Byte := mget 0xFF l.flash a

/-- `n` bytes of the Ledger. -/
def Ledger.read (l : Ledger) (a n : Nat) : Bytes := (List.range n).map (fun i => l.get (a + i))

/-- Program bytes: bits change from 1 to 0 only (R681). -/
def Ledger.program (l : Ledger) (a : Nat) (bs : Bytes) : Ledger :=
  match bs with
  | [] => l
  | b :: rest => Ledger.program { l with flash := mset 0xFF l.flash a (l.get a &&& b) } (a + 1) rest

/-- Address of a sector. -/
abbrev secAt (n : Nat) : Nat := n * 65536

/-- Every byte of a range is erased. -/
def Ledger.blank (l : Ledger) (lo hi : Nat) : Bool := l.flash.all (fun p => decide (p.1 < lo) || decide (hi ≤ p.1))

/-- The 64 bytes of a sector header (R682). -/
def sectorHeader (role erases first : Nat) : Bytes :=
  let b := [0x44, 0x4C, 0x44, 0x53] ++ toLe 1 role ++ [0, 0, 0] ++ toLe 4 erases ++ toLe 4 first ++ List.replicate 44 0
  b ++ toLe 4 (crc32c b).toNat

/-- The header of a sector is whole, of the role given: MAGIC, ROLE and CRC (R682, R683). -/
def Ledger.headerOk (l : Ledger) (n role : Nat) : Bool :=
  let b := l.read (secAt n) 64
  decide (fld b 0 4 = 0x53444C44) && decide (fld b 4 1 = role) && decide (fld b 0x3C 4 = (crc32c (b.take 60)).toNat)

/-- ERASES of a sector whose MAGIC reads whole; 0 otherwise. -/
def Ledger.erases (l : Ledger) (n : Nat) : Nat :=
  let b := l.read (secAt n) 12
  if fld b 0 4 = 0x53444C44 then fld b 8 4 else 0

/-- Erase a sector: every byte 0xFF (R681). -/
def Ledger.erase (l : Ledger) (n : Nat) : Ledger := { l with flash := mclear l.flash (secAt n) (secAt (n + 1)) }

/-! ### Regions and spares (21 R680, R699) -/

/-- Usable sectors of a region: those not retired, and the spares that took the place of retired ones. -/
def Ledger.region (l : Ledger) (lo hi : Nat) : List Nat :=
  ((List.range (hi - lo)).map (fun i => lo + i)).filter (fun n => !(l.retired.contains n))
    ++ ((l.assigned.filter (fun p => decide (lo ≤ p.1 ∧ p.1 < hi) && !(l.retired.contains p.2))).map Prod.snd)

/-- The journal's sectors. -/
def Ledger.journal (l : Ledger) : List Nat := l.region 212 468
/-- The PROFILES sectors. -/
def Ledger.profiles (l : Ledger) : List Nat := l.region 192 196
/-- Spares of ROLE 0x03 not assigned and not retired. -/
def Ledger.spares (l : Ledger) : List Nat :=
  ((List.range 44).map (fun i => 468 + i)).filter (fun n => !(l.assigned.any (fun p => p.2 == n)) && !(l.retired.contains n))

/-- Highest ERASES of a list of sectors. -/
def Ledger.maxErases (l : Ledger) (ns : List Nat) : Nat := ns.foldl (fun m n => max m (l.erases n)) 0

/-- Retire a sector: ROLE is programmed to 0x00, the lowest spare takes its place, and a FAULT record is written
(R683, R699). -/
def State.retireSector (s : State) (n : Nat) : State :=
  let l := s.ldg.program (secAt n + 4) [0]
  let l := { l with retired := l.retired ++ [n],
                    assigned := match l.spares with
                      | x :: _ => l.assigned ++ [(n, x)]
                      | [] => l.assigned }
  { s with ldg := l }.record 0x0F (toLe 1 0 ++ [0] ++ toLe 2 0x0509 ++ toLe 8 (mkLoc 9 0 none false n).toNat) none

/-- Erase a JOURNAL or PROFILES sector and write its header, but for FIRST and CRC, which are programmed when the
sector is opened (assumption 5). A blank or bad header takes one more than the region's highest count (R683). At
90,000 erases the wear is logged once (R700). -/
def State.eraseSector (s : State) (n role : Nat) (ns : List Nat) : State :=
  let l := s.ldg
  let e := (if l.headerOk n role then l.erases n else l.maxErases ns) + 1
  let l := (l.erase n).program (secAt n) ([0x44, 0x4C, 0x44, 0x53] ++ toLe 1 role ++ [0, 0, 0] ++ toLe 4 e)
  let s := { s with ldg := l }
  if e = 90000 then s.fault 0x0509 (mkLoc 9 0 none false n) else s

/-- Open an erased sector: the rest of its header is programmed. -/
def Ledger.openSector (l : Ledger) (n role first : Nat) : Ledger :=
  l.program (secAt n) (sectorHeader role (l.erases n) first)

/-! ### Records (21 R684, R685, R687) -/

/-- The bytes of a record. -/
def recBytes (r : LdgRec) (seq : W32) : Bytes :=
  let b := [0xA7] ++ toLe 1 r.ty ++ toLe 2 r.payload.length ++ toLe 4 r.lifeS.toNat ++ toLe 8 r.wtime.toNat
    ++ padB (recSize r.payload.length - 24) r.payload ++ toLe 4 seq.toNat
  b ++ toLe 4 (crc32c b).toNat

/-- The record at an address with the SEQ expected there, and its size; `none` when it is not valid (R687). -/
def Ledger.parseRec (l : Ledger) (n off : Nat) (seq : Nat) : Option (LdgRec × Nat) :=
  let a := secAt n + off
  if l.get a ≠ 0xA7 then none
  else
    let len := fld (l.read a 4) 2 2
    if 4072 < len ∨ 65536 < off + recSize len then none
    else
      let sz := recSize len
      let b := l.read a sz
      if fld b (sz - 8) 4 = seq ∧ fld b (sz - 4) 4 = (crc32c (b.take (sz - 4))).toNat then
        some ({ ty := fld b 1 1, payload := sliceB b 16 len, lifeS := BitVec.ofNat 32 (fld b 4 4),
                wtime := BitVec.ofNat 64 (fld b 8 8), seq := BitVec.ofNat 32 seq, sector := n }, sz)
      else none

/-- The valid records of a sector, with the offset where reading ended. -/
def Ledger.parseFrom (l : Ledger) (fuel n off seq : Nat) : List LdgRec × Nat :=
  match fuel with
  | 0 => ([], off)
  | f + 1 =>
    match l.parseRec n off seq with
    | none => ([], off)
    | some (r, sz) =>
      let rest := l.parseFrom f n (off + sz) ((seq + 1) % 2 ^ 32)
      (r :: rest.1, rest.2)

/-- FIRST of a sector. -/
def Ledger.first (l : Ledger) (n : Nat) : Nat := fld (l.read (secAt n) 16) 12 4

/-- The records of a journal sector (R687). -/
def Ledger.parseSector (l : Ledger) (n : Nat) : List LdgRec × Nat := l.parseFrom 2730 n 0x40 (l.first n)

/-- Insert a sector into a list kept in rising order of FIRST. -/
def Ledger.insertBy (l : Ledger) (n : Nat) (ns : List Nat) : List Nat :=
  match ns with
  | [] => [n]
  | m :: rest => if l.first n < l.first m then n :: m :: rest else m :: l.insertBy n rest

/-- The opened journal sectors in order of FIRST (R687). -/
def Ledger.sorted (l : Ledger) : List Nat :=
  (l.journal.filter (fun n => l.headerOk n 1)).foldl (fun acc n => l.insertBy n acc) []

/-- Make a record current: it supersedes the record of its type and key; DELETED ends the key (R688, R691). -/
def setCurrent (cur : List LdgRec) (r : LdgRec) : List LdgRec :=
  if recKey r.ty r.payload = none then cur
  else
    let rest := cur.filter (fun x => !(sameKey r.ty r.payload x))
    if deletedRec r then rest else rest ++ [r]

/-- The two newest sectors only, for the boot anchors (R689). -/
def lastTwo (ns : List Nat) : List Nat := ns.drop (ns.length - 2)

/-- Current records that a list of sectors gives, and the newest FAULT and TRIP records. -/
def Ledger.derive (l : Ledger) (ns : List Nat) : List LdgRec :=
  ns.foldl (fun cur n => (l.parseSector n).1.foldl setCurrent cur) []

/-- Place the head after reading the newest sector: at the end when the rest is erased, else the sector is closed
(R687). The Bool tells whether a torn record was dropped. -/
def Ledger.placeHead (l : Ledger) (ns : List Nat) : Ledger × Bool :=
  match ns.getLast? with
  | none => ({ l with headSector := 212, headOff := 65536, headSeq := 0, order := [] }, false)
  | some n =>
    let p := l.parseSector n
    let seq := BitVec.ofNat 32 (l.first n + p.1.length) - 1
    if l.blank (secAt n + p.2) (secAt (n + 1)) then
      ({ l with headSector := n, headOff := p.2, headSeq := seq, order := ns }, false)
    else ({ l with headSector := n, headOff := 65536, headSeq := seq, order := ns }, true)

/-- Payload of the current record of a type, when there is one. -/
def Ledger.curOf (l : Ledger) (ty : Nat) : Option LdgRec := l.cur.find? (fun r => r.ty == ty)

/-- Program a record at the head (header, payload and padding first, then the trailer: R685) and make it current. -/
def Ledger.write (l : Ledger) (r : LdgRec) : Ledger :=
  let seq := l.headSeq + 1
  let b := recBytes r seq
  let a := secAt l.headSector + l.headOff
  let l := (l.program a (b.take (b.length - 8))).program (a + (b.length - 8)) (b.drop (b.length - 8))
  { l with headSeq := seq, headOff := l.headOff + b.length,
           cur := setCurrent l.cur { r with seq := seq, sector := l.headSector, logRef := none } }

/-- The record fits into the head sector. -/
def Ledger.fits (l : Ledger) (r : LdgRec) : Bool := decide (l.headOff + recSize r.payload.length ≤ 65536)

/-! ### LEDGER_COMMIT, LEDGER_SECTOR_RECYCLE, LEDGER_HOURLY -/

/-- The record at the front of the queue can be committed now (R685 to R687). -/
def State.canCommit (s : State) : Bool :=
  match s.ldg.queue with
  | r :: _ => s.ldg.fits r
  | [] => false

/-- LEDGER_COMMIT (R685): the oldest queued record is programmed and its trailer after it; a FAULT or TRIP record joins
the 32 of the tag, and the log entry's JOURNALED bit is set (R708, 22 R742). -/
def execLedgerCommit (s : State) : Host.Outcome State Fault Refusal :=
  match s.ldg.queue with
  | [] => .next s
  | r :: rest =>
    if s.ldg.fits r then
      let l := { s.ldg with queue := rest }.write r
      let l := if r.ty = 0x0F ∨ r.ty = 0x0C then
          { l with faults := (({ r with seq := l.headSeq }, s.boot.fwVersion) :: l.faults).take 32 } else l
      let s := { s with ldg := l }
      match r.logRef with
      | some (n, q) =>
        let x : LogEntry := mget {} s.err.log n
        .next (if x.seq = q then { s with err := { s.err with log := mset {} s.err.log n { x with journaled := true } } } else s)
      | none => .next s
    else .next s

/-- Types of the anchors (R689). -/
def anchorType (ty : Nat) : Bool := [0x01, 0x02, 0x03, 0x04, 0x05, 0x07].contains ty

/-- Rewrite records at the head with a new SEQ, LIFE_S and WTIME kept; what does not fit goes to the front of the
queue (R688, R689). -/
def Ledger.rewrite (l : Ledger) (rs : List LdgRec) : Ledger :=
  rs.foldl (fun l r => if l.fits r then l.write r else { l with queue := l.queue ++ [r] }) l

/-- Take one more sector into those erased in advance: a sector that is not open when there is one, else the oldest,
whose current STATE records are first rewritten at the head (R686, R688). -/
def State.eraseAhead (s : State) : State :=
  let l := s.ldg
  match l.journal.filter (fun n => !(l.order.contains n) && !(l.ahead.contains n)) with
  | n :: _ =>
    let s := s.eraseSector n 1 l.journal
    { s with ldg := { s.ldg with ahead := s.ldg.ahead ++ [n] } }
  | [] =>
    match l.order with
    | [] => s
    | [_] => s
    | n :: rest =>
      let l := l.rewrite (l.cur.filter (fun r => r.sector == n))
      let s := { s with ldg := { l with order := rest } }
      if 100000 ≤ l.erases n then
        let s := s.retireSector n
        match s.ldg.journal.filter (fun m => !(s.ldg.order.contains m) && !(s.ldg.ahead.contains m)) with
        | m :: _ =>
          let s := s.eraseSector m 1 s.ldg.journal
          { s with ldg := { s.ldg with ahead := s.ldg.ahead ++ [m] } }
        | [] => s
      else
        let s := s.eraseSector n 1 s.ldg.journal
        { s with ldg := { s.ldg with ahead := s.ldg.ahead ++ [n] } }

/-- The journal needs a new sector: the full reading has ended and the next queued record does not fit (R687). -/
def State.needsSector (s : State) : Bool :=
  s.ldg.readDone && (match s.ldg.queue with
    | r :: _ => !(s.ldg.fits r)
    | [] => false)

/-- The sector `n`, erased in advance, becomes the head of the journal; `rest` stay erased (R686). -/
def Ledger.headTo (l : Ledger) (n : Nat) (rest : List Nat) : Ledger :=
  let l := l.openSector n 1 ((l.headSeq + 1).toNat)
  { l with headSector := n, headOff := 0x40, order := l.order ++ [n], ahead := rest }

/-- Rewrite the current anchors at the head (R688). -/
def Ledger.rewriteAnchors (l : Ledger) : Ledger := l.rewrite (l.cur.filter (fun r => anchorType r.ty))

/-- Erase one sector more in advance when fewer than two are (R686). -/
def State.keepAhead (s : State) : State := if s.ldg.ahead.length < 2 then s.eraseAhead else s

/-- A sector erased in advance is opened, the anchors are written first, and two sectors are kept erased ahead of the
head, the current STATE records of the oldest being rewritten before its erase (R686, R688, R689). -/
def State.recycle (s : State) : State :=
  let s := if s.ldg.ahead.isEmpty then s.eraseAhead else s
  match s.ldg.ahead with
  | [] => s
  | n :: rest =>
    (State.keepAhead { s with ldg := (s.ldg.headTo n rest).rewriteAnchors }).keepAhead

/-- LEDGER_SECTOR_RECYCLE (R688). -/
def execLedgerSectorRecycle (s : State) : Host.Outcome State Fault Refusal := .next (if s.needsSector then s.recycle else s)

/-- Write a record at the head before every queued one (22 R737). -/
def State.writeDirect (s : State) (r : LdgRec) : State :=
  let s := if s.ldg.fits r then s else s.recycle
  if s.ldg.fits r then
    let l := s.ldg.write r
    { s with ldg := if r.ty = 0x0F ∨ r.ty = 0x0C then
        { l with faults := (({ r with seq := l.headSeq }, s.boot.fwVersion) :: l.faults).take 32 } else l }
  else s

/-- Thermal counts of a source: HBM_n for 0 to 7, the device for 0x10 (21 R690 type 0x0B, 06 R212, 17 R590). -/
def State.thermCounts (s : State) (src : Nat) : List Nat :=
  (List.range 4).map (fun i => (mget 0 s.ldg.thermLife (4 * src + i)))

/-- LEDGER_HOURLY (R690): the POWER record with one hour more, and the thermal counts that have changed. -/
def execLedgerHourly (s : State) : Host.Outcome State Fault Refusal :=
  let l := { s.ldg with hours := s.ldg.hours + 1 }
  let s := { s with ldg := { l with lifeBase := (l.hours * 3600), lifeAon := s.pwr.aon } }
  let s := s.record 0x01 (toLe 4 s.ldg.hours.toNat ++ toLe 4 s.ldg.powerOns.toNat) none
  .next (s.each [0, 1, 2, 3, 4, 5, 6, 7, 16] (fun s src =>
    if (List.range 4).any (fun i => mget 0 s.ldg.thermLife (4 * src + i) != mget 0 s.ldg.thermSaved (4 * src + i)) then
      let s := s.record 0x0B (toLe 1 src ++ [0, 0, 0] ++ (s.thermCounts src).flatMap (toLe 4)) none
      { s with ldg := { s.ldg with thermSaved := (List.range 4).foldl (fun m i =>
          mset 0 m (4 * src + i) (mget 0 s.ldg.thermLife (4 * src + i))) s.ldg.thermSaved } }
    else s))

/-! ### Profiles (15 R510 to R512, 21 R695, R696) -/

/-- A list of den records names no den, tile, stripe, exclusive way, slot or entry twice (15 R512). -/
def densDisjoint (rs : List Bytes) : Bool :=
  match rs with
  | [] => true
  | a :: rest =>
    rest.all (fun b =>
      decide (fld a 0 1 ≠ fld b 0 1) && decide (fld a 0x20 32 &&& fld b 0x20 32 = 0) &&
      decide ((fld a 6 2 ||| fld a 8 2) &&& (fld b 6 2 ||| fld b 8 2) = 0) && decide (fld a 0xA 2 &&& fld b 0xA 2 = 0) &&
      decide (fld a 0x10 8 &&& fld b 0x10 8 = 0) &&
      (List.range 16).all (fun i => (List.range 16).all (fun j =>
        let x := fld a (0x40 + 4 * i) 4
        let y := fld b (0x40 + 4 * j) 4
        !(tbit x 31 && tbit y 31 && decide (bits x 0 15 < bits y 0 15 + bits y 16 15) &&
          decide (bits y 0 15 < bits x 0 15 + bits x 16 15)))))
    && densDisjoint rest

/-- Field checks of one den record (15 R511). -/
def denRecordOk (a : Bytes) : Bool :=
  decide (fld a 0 1 < 32) && decide (fld a 1 1 ≤ 2) && decide (fld a 2 1 ≤ 1) && decide (fld a 3 1 ≤ 1) &&
  decide (fld a 6 2 &&& fld a 8 2 = 0) && decide (fld a 4 2 &&& (fld a 6 2 ||| fld a 8 2) = 0) &&
  allZero (sliceB a 0xC 4) && allZero (sliceB a 0x18 8) && allZero (sliceB a 0xB0 16) && !(allZero (sliceB a 0xA0 16)) &&
  (List.range 16).all (fun i =>
    let x := fld a (0x40 + 4 * i) 4
    if tbit x 31 then decide (bits x 0 15 + bits x 16 15 ≤ 18432) && !(tbit x 15) else !(tbit x 15)) &&
  (List.range 4).all (fun p => within (fld a (0x80 + 8 * p) 8) (1 + 2 ^ 8 * (2 ^ 20 - 1) + 2 ^ 32 * (2 ^ 32 - 1)))

/-- The den records of a profile. -/
def profileDens (b : Bytes) : List Bytes := (List.range (fld b 7 1)).map (fun k => sliceB b (0x80 + 192 * k) 192)

/-- The field checks that WRITE applies (15 R510 to R512, 19 R637). -/
def profileFieldsOk (b : Bytes) : Bool :=
  decide (fld b 4 2 = 1) && decide (fld b 6 1 ≤ 3) && decide (fld b 7 1 ≤ 32) &&
  [600, 750, 900, 1050].contains (fld b 8 2) &&
  decide (900 ≤ fld b 0xA 2 ∧ fld b 0xA 2 ≤ 1800 ∧ fld b 0xA 2 % 100 = 0) && decide (fld b 0xD 1 ≤ 2) &&
  !(decide (0xF0 ≤ fld b 0xE 1 ∧ fld b 0xE 1 ≤ 0xFE)) && decide (fld b 0xF 1 < 16) && decide (bits (fld b 0xF 1) 1 2 ≤ 2) &&
  decide (fld b 0x10 4 < 2 ^ 24) && decide (fld b 0x14 1 ≤ 1) && allZero (sliceB b 0x15 3) && allZero (sliceB b 0x1C 100) &&
  allZero (sliceB b (0x80 + 192 * fld b 7 1) (0x1FFC - (0x80 + 192 * fld b 7 1))) &&
  (profileDens b).all denRecordOk && densDisjoint (profileDens b)

/-- MAGIC and CRC of a profile (15 R510). -/
def profileMagicOk (b : Bytes) : Bool := decide (fld b 0 4 = 0x464F5250)
/-- The CRC of a profile matches (15 R510). -/
def profileCrcOk (b : Bytes) : Bool := decide (fld b 0x1FFC 4 = (crc32c (b.take 0x1FFC)).toNat)

/-- The settings that a profile's bytes hold (15 R510). -/
def parseProfile (b : Bytes) : Profile :=
  { index := fld b 6 1, cap := fld b 8 2, tclkMax := fld b 0xA 2 / 100, warrenId := fld b 0xC 1, role := fld b 0xD 1,
    mgtAddr := fld b 0xE 1, margin := tbit (fld b 0xF 1) 0, aonPeriod := bits (fld b 0xF 1) 1 2,
    wdgHw := tbit (fld b 0xF 1) 3, linkMask := fld b 0x10 4, retain := tbit (fld b 0x14 1) 0,
    retainTimeout := fld b 0x18 4, dens := profileDens b }

/-- The trailer of a PROFILES sector is valid (21 R695). -/
def Ledger.setOk (l : Ledger) (n : Nat) : Bool :=
  l.headerOk n 2 && decide (l.first n = fld (l.read (secAt n + 0x9000) 8) 0 4) &&
  decide (fld (l.read (secAt n + 0x9000) 8) 4 4 = (crc32c (l.read (secAt n + 0x40) 0x8FC0)).toNat)

/-- The current profile set: the highest GEN whose trailer is valid (21 R695). -/
def Ledger.currentSet (l : Ledger) : Option Nat :=
  (l.profiles.filter l.setOk).foldl (fun best n =>
    match best with
    | none => some n
    | some m => if l.first m < l.first n then some n else some m) none

/-- CHOICE of the current set: the index recorded by SELECT (21 R695). -/
def Ledger.choice (l : Ledger) : Option Nat :=
  match l.profSector with
  | none => none
  | some n =>
    let c := fld (l.read (secAt n + 0x40) 4) 0 4
    if c ≤ 3 then some c else none

/-- The bytes stored as profile `p`, when present (21 R695). -/
def Ledger.profBytes (l : Ledger) (p : Nat) : Option Bytes :=
  match l.profSector with
  | none => none
  | some n => if tbit (fld (l.read (secAt n + 0x44) 4) 0 4) p then some (l.read (secAt n + 0x1000 + 0x2000 * p) 8192) else none

/-- A valid profile `p` is stored (15 R512, 18 R599). -/
def Ledger.profOk (l : Ledger) (p : Nat) : Bool :=
  match l.profBytes p with
  | none => false
  | some b => profileMagicOk b && profileCrcOk b && profileFieldsOk b && decide (fld b 6 1 = p)

/-- The next usable PROFILES sector after the current one, in ascending order with wrap (21 R696). -/
def Ledger.nextSetSector (l : Ledger) : Option Nat :=
  let ns := l.profiles
  match l.profSector with
  | none => ns.head?
  | some c =>
    match ns.find? (fun n => decide (c < n)) with
    | some n => some n
    | none => (ns.filter (fun n => n != c)).head?

/-- Write a whole new profile set with GEN one higher, its trailer last (21 R696). -/
def State.writeSet (s : State) (choice : Nat) (prof : Nat → Option Bytes) : State :=
  match s.ldg.nextSetSector with
  | none => s
  | some n =>
    let gen := match s.ldg.profSector with
      | some c => s.ldg.first c + 1
      | none => 1
    let present := (List.range 4).foldl (fun v p => if (prof p).isSome then v + 2 ^ p else v) 0
    let body := toLe 4 choice ++ toLe 4 present ++ List.replicate 4024 (0 : Byte) ++ (List.range 4).flatMap (fun p =>
      match prof p with
      | some b => padB 8192 b
      | none => List.replicate 8192 (0 : Byte))
    let s := s.eraseSector n 2 s.ldg.profiles
    let l := s.ldg.openSector n 2 gen
    let l := (l.program (secAt n + 0x40) body).program (secAt n + 0x9000) (toLe 4 gen ++ toLe 4 (crc32c body).toNat)
    { s with ldg := { l with profSector := some n } }

/-- CHOICE as it is stored: 0xFF when none is recorded. -/
def Ledger.choiceCode (l : Ledger) : Nat :=
  match l.choice with
  | some c => c
  | none => 0xFF

/-- Fewer than two usable PROFILES sectors (21 R701). -/
def Ledger.profilesWorn (l : Ledger) : Bool := decide (l.profiles.length < 2)

end Sys2Proof.Machine
end

