-- ==== Sys2Proof/Machine/Status.lean ====
section
/-!
DEFINITION. What the device reports of itself: counts of fenced and retired units, HEALTH, temperatures, GPIO, the
survey entry, and the firmware images of the Ledger (15 R490, 16 R548, 18 R601, R602, R611, 19 R641).
-/

namespace Sys2Proof.Machine

/-- Tiles fenced: DEV_STATUS.TILES_FENCED (15 R490). -/
def State.tilesFenced (s : State) : Nat := (s.tiles.filter (fun p => p.2.fenced)).length

/-- Lanes fenced, over all link ports (15 R490). -/
def State.lanesFenced (s : State) : Nat := (s.ports.map (fun p => popNat p.2.fenced.toNat 8)).sum

/-- Stripes RETIRED (15 R490). -/
def State.stripesRetired (s : State) : Nat :=
  (s.hbm.retired.filter (fun n => decide (n < s.hbm.limit))).length + (18432 - s.hbm.limit)

/-- A stripe is RETIRED (06 R201, 18 R610). -/
def State.isRetired (s : State) (n : Nat) : Bool := s.hbm.retired.contains n || decide (s.hbm.limit ≤ n)

/-- A tile, stack, slice, engine or lane is out of service (18 R611). -/
def State.unitOut (s : State) : Bool :=
  decide (0 < s.tilesFenced) || decide (0 < s.lanesFenced) || s.boot.stacks8 != 0xFF || s.boot.slices != BitVec.allOnes 64 ||
  s.boot.engines != BitVec.allOnes 32

/-- LIMP or ROM recovery, in which IDENTIFY reports STATE 2 (18 R613, R615). -/
def State.limp (s : State) : Bool := decide (s.boot.mode ≠ 0)

/-- HEALTH: 0 no fence and no retirement, 1 degraded, 2 LIMP (15 R490, 21 R698). -/
def State.health (s : State) : Nat :=
  if s.limp then 2 else if 0 < s.stripesRetired ∨ s.unitOut ∨ s.ldg.calibBad then 1 else 0

/-- STATE of IDENTIFY: 0 ACTIVE, 1 RETAIN, 2 LIMP (15 R490). -/
def State.identState (s : State) : Nat := if s.limp then 2 else if s.pwr.st = .retain then 1 else 0

/-- STATE of the Warren: 0 standalone, 1 normal, 2 HOLD (15 R505). -/
def State.warrenState (s : State) : Nat := if s.fab.role = 0 then 0 else if s.fab.hold then 2 else 1

/-- Ports in L0. -/
def State.portsL0 (s : State) : Nat := (s.ports.filter (fun p => p.2.st == .l0)).length

/-- The survey entry of R548. -/
def State.surveyEntry (s : State) : Bytes :=
  toLe 1 s.fab.wid ++ toLe 1 s.fab.role ++ toLe 1 s.warrenState ++
  toLe 1 (1 + 2 * b2n s.fab.synced + 4 * b2n (s.pwr.st = .retain) + 8 * b2n s.limp) ++ toLe 4 s.boot.fwVersion.toNat ++
  toLe 1 s.portsL0 ++ toLe 1 s.lanesFenced ++ toLe 2 s.tilesFenced ++ toLe 4 s.fab.epoch.toNat

/-- The J level of the device: the highest of its three logic dies (17 R580). -/
def State.devLevel (s : State) : Nat := (List.range 3).foldl (fun m d => max m (mget 0 s.pwr.dieLevel d)) 0

/-- The hottest reading of the three logic dies, signed. -/
def State.hottestDie (s : State) : BitVec 8 :=
  (List.range 3).foldl (fun m d => if m.toInt < (mget 0 s.pwr.dieTemp d).toInt then mget 0 s.pwr.dieTemp d else m)
    (mget 0 s.pwr.dieTemp 0)

/-- A stack that is out of service (18 R609). -/
def State.stackOut (s : State) (n : Nat) : Bool := !(s.boot.stacks8.getLsbD n)

/-- The hottest HBM_STATUS.TEMP, sign-extended to 16 bits (15 R490). -/
def State.hottestStack (s : State) : BitVec 16 :=
  let t := (List.range 8).foldl (fun m n => if m.toInt < (s.stack n).temp.toInt then (s.stack n).temp else m) (s.stack 0).temp
  t.signExtend 16

/-- GPIO[3:0]: READY, DEGRADED, HOLD, HOT (18 R611). -/
def State.gpio (s : State) : Nat :=
  b2n (s.boot.phase = .complete ∧ (s.pwr.st = .active ∨ s.pwr.st = .retain) ∧ s.limp = false) +
  2 * b2n (s.limp || s.unitOut) + 4 * b2n s.fab.hold +
  8 * b2n (decide (2 ≤ s.devLevel) || (List.range 8).any (fun n => decide (3 ≤ (s.stack n).level)))

/-- The GPIO and STATE that an ALERT carries (19 R642). -/
def State.alertWord (s : State) : Nat := s.gpio + 256 * s.identState

/-- SENSOR_DATA (19 R641). -/
def State.sensorData (s : State) : Bytes :=
  (List.range 3).map (fun d => mget 0 s.pwr.dieTemp d) ++ toLe 1 s.devLevel ++
  (List.range 8).map (fun n => if s.stackOut n then 0x80 else (s.stack n).temp) ++
  toLe 2 s.pwr.p1ms ++ toLe 2 s.pwr.cap ++ toLe 1 s.health ++ toLe 1 s.lanesFenced ++ toLe 2 s.tilesFenced ++
  toLe 4 s.stripesRetired

/-! ### Firmware images (18 R601, R602) -/

/-- Start of a firmware bank: 0 FW_A, 1 FW_B (21 R680). -/
def bankAt (b : Nat) : Nat := b * 0x600000

/-- Checks 1 to 5 of R602 on a header, of `n` bytes supplied: none when they pass, else the status of FW_STAGE. -/
def imageHead (b : Bytes) (n : Nat) : Option Nat :=
  let len := fld b 8 4
  if n < 256 then some 0x09
  else if fld b 0 4 ≠ 0x57465844 then some 0x07
  else if fld b 4 2 ≠ 0xD060 ∨ fld b 6 2 ≠ 1 then some 0x08
  else if len % 4096 ≠ 0 ∨ len < 65536 ∨ 6291456 < len ∨ fld b 0x18 4 % 4096 ≠ 0 ∨ fld b 0x1C 4 < 4096 ∨ 524288 < fld b 0x1C 4 ∨
      fld b 0x20 4 % 4096 ≠ 0 ∨ len < fld b 0x18 4 + fld b 0x1C 4 ∨ len < fld b 0x20 4 + fld b 0x24 4 ∨ 63 < fld b 0x14 4 ∨
      (fld b 0x18 4 < fld b 0x20 4 + fld b 0x24 4 ∧ fld b 0x20 4 < fld b 0x18 4 + fld b 0x1C 4) ∨
      allZero (sliceB b 0x28 120) = false then some 0x03
  else if n < len then some 0x09
  else none

/-- The checks of R602 on the bytes supplied, in order: none when the image passes, else the status of FW_STAGE. -/
def imageCheck (b : Bytes) (fuse : Nat) : Option Nat :=
  let len := fld b 8 4
  match imageHead b b.length with
  | some e => some e
  | none =>
    if fld b 0xC 4 ≠ (crc32c ((b.take len).drop 0x100)).toNat then some 0x07
    else if Config.signatureVerifies (patchB (b.take len) 0xA0 (List.replicate 96 0)) (sliceB b 0xA0 96) = false then some 0x0A
    else if fld b 0x14 4 < fuse then some 0x0E
    else none

/-- The bytes of a bank that its header announces, at most the bank (18 R601). -/
def Ledger.bankBytes (l : Ledger) (b : Nat) : Bytes :=
  let h := l.read (bankAt b) 256
  if fld h 0 4 = 0x57465844 then l.read (bankAt b) (min (fld h 8 4) 0x600000) else h

/-- The bank holds a checked image (18 R602). -/
def State.bankOk (s : State) (b : Nat) : Bool := decide (imageCheck (s.ldg.bankBytes b) s.boot.fuseRoll = none)

/-- FW_VERSION of a bank; 0 when its header is blank. -/
def Ledger.bankVersion (l : Ledger) (b : Nat) : Nat :=
  if fld (l.read (bankAt b) 4) 0 4 = 0x57465844 then fld (l.read (bankAt b + 0x10) 4) 0 4 else 0
/-- SEC_VERSION of a bank; 0 when its header is blank. -/
def Ledger.bankSec (l : Ledger) (b : Nat) : Nat :=
  if fld (l.read (bankAt b) 4) 0 4 = 0x57465844 then fld (l.read (bankAt b + 0x14) 4) 0 4 else 0

/-- First-choice bank: the latest activation record's, else FW_A (18 R603). -/
def Ledger.firstChoice (l : Ledger) : Nat :=
  match l.curOf 0x04 with
  | some r => fld r.payload 0 1
  | none => 0

end Sys2Proof.Machine
end

