-- ==== Sys2Proof/Machine/DenOps.lean ====
section
/-!
DEFINITION. Changing what a den owns: creating it, and the selectors of DEN_CONFIG, as the commands and the den records
of a profile use them; and where a byte of a stripe lies in HBM (06 R181 to R185, 13 R392 to R398, 15 R492, R511).
-/

namespace Sys2Proof.Machine

/-! ### A stripe that changes its granule (06 R185) -/

/-- Keep the cells outside a range and move those inside it. -/
def moveCells {α : Type} (m : SMap α) (lo hi : Nat) (f : Nat → Nat) : SMap α :=
  (m.filter (fun p => decide (lo ≤ p.1 ∧ p.1 < hi))).foldl (fun acc p => mput acc (f p.1) p.2) (mclear m lo hi)

/-- A stripe changes its granule: no data move in HBM, so bytes appear at other device addresses of the stripe (R185). -/
def Hbm.regranule (h : Hbm) (st g0 g1 : Nat) : Hbm :=
  if g0 = g1 then h
  else
    let lo := st * 16777216
    let hi := lo + 16777216
    let dest (a : Nat) : Nat :=
      let pq := locate g0 st (a - lo)
      lo + unlocate g1 st pq.1 pq.2
    let word (w : Nat) : Nat := dest (32 * w) / 32
    { h with data := moveCells h.data lo hi dest, bad := moveCells h.bad (lo / 32) (hi / 32) word,
             weak := moveCells h.weak (lo / 32) (hi / 32) word }

/-! ### Creating a den (13 R392, R393) -/

/-- DEN_CREATE's effect. -/
def Den.created (x : Den) (gran fill : Nat) (token : Bytes) : Den :=
  { st := .active, gran := gran, token := token, fill := BitVec.ofNat 16 fill, laDepth := x.laDepth,
    inflightMax := x.inflightMax, ibufQuota := x.ibufQuota, arrMax := x.arrMax, attachFail := x.attachFail,
    lastRing := x.lastRing, snap := x.snap }

/-! ### Selectors of DEN_CONFIG (13 R396 to R398, R414, 15 R492) -/

/-- Numbers of the set bits of a 256-bit mask. -/
def bits256 (m : BitVec 256) : List Nat := (List.range 256).filter (fun t => m.getLsbD t)

/-- A removed tile leaves at once, or is marked LEAVING while a task holds it; a yielded task on it aborts with ABORTED
(13 R396). -/
def State.removeTile (s : State) (d t : Nat) : State :=
  if s.reqs.any (fun r => r.tiles.contains t) then
    let s := s.modDen d (fun x => { x with leaving := x.leaving ||| tileBit t })
    s.each ((s.reqs.filter (fun r => r.phase == .yielded && r.tiles.contains t)).map Req.id)
      (fun s id => s.startAbort id 0x0C false)
  else
    let s := s.modDen d (fun x => { x with tiles := x.tiles &&& ~~~(tileBit t) })
    s.modTile t (fun x => { x with pwr := .off, prepared := false })

/-- Selector TILES: the whole new set. An added tile is prepared under 08 R286. -/
def State.setTiles (s : State) (d : Nat) (mask : BitVec 256) : State :=
  let old := (s.den d).tiles
  let s := s.modDen d (fun x => { x with tiles := x.tiles ||| mask })
  let s := s.each (bits256 (mask &&& ~~~old)) (fun s t => s.modTile t (fun x => { x with prepared := false }))
  s.each (bits256 (old &&& ~~~mask)) (fun s t => s.removeTile d t)

/-- A list of ranges holds a stripe. -/
def inRanges (l : List (Nat × Nat)) (n : Nat) : Bool := l.any (fun p => decide (p.1 ≤ n ∧ n < p.1 + p.2))

/-- Stripes of a list of ranges, in order. -/
def stripesOf (l : List (Nat × Nat)) : List Nat := l.flatMap (fun p => (List.range p.2).map (fun i => p.1 + i))

/-- Stripes of a list of ranges that hold a listed byte, a poisoned word or a weak word: the others are all zero. -/
def Hbm.touched (h : Hbm) (l : List (Nat × Nat)) : List Nat :=
  ((h.data.map (fun (c : Host.Cell) => c.1 / 16777216) ++ h.bad.map (fun (c : Nat × Bool) => c.1 / 524288) ++ h.weak.map (fun (c : Nat × Bool) => c.1 / 524288)).filter
    (inRanges l)).eraseDups

/-- Lines of the Hoard of a stripe are dropped. -/
def Hoard.dropStripe (h : Hoard) (st : Nat) : Hoard :=
  { h with lines := h.lines.filter (fun p => p.2.addr / 16777216 != st) }

/-- Selector HBM: the whole new list. A stripe that leaves is zeroed (R395); one that joins takes the den's granule
(06 R185). -/
def State.setHbm (s : State) (d : Nat) (new : List (Nat × Nat)) : State :=
  let x := s.den d
  let gone := (s.hbm.touched x.hbm ++ (s.hoard.lines.map (fun p => p.2.addr / 16777216)).filter (inRanges x.hbm)).eraseDups.filter
    (fun n => !(inRanges new n))
  let come := (s.hbm.touched new).filter (fun n => !(inRanges x.hbm n))
  let hb := gone.foldl (fun h n => h.zeroStripes n 1) s.hbm
  let hb := come.foldl (fun h n => h.regranule n 0 x.gran) hb
  { s with hbm := hb, hoard := gone.foldl Hoard.dropStripe s.hoard }.modDen d (fun y => { y with hbm := new })

/-- Mode and owner of way `w` under masks of PIN and SCRATCH ways of den `d`; `none` = no change. -/
def State.wayTarget (s : State) (d pin scratch w : Nat) : Option (WayMode × Nat) :=
  let x := s.way w
  let mine := x.mode != .shared && x.owner == d
  if tbit pin w then (if mine && x.mode == .pin then none else some (.pin, d))
  else if tbit scratch w then (if mine && x.mode == .scratch then none else some (.scratch, d))
  else if mine then some (.shared, 0) else none

/-- Selector MIOTER: slots that leave are cleared, entries that leave are cleared (R398). -/
def State.setMioter (s : State) (d slots ents : Nat) : State :=
  let x := s.den d
  let s := ((x.slotList).filter (fun p => !(tbit slots (4 * p.1 + p.2)))).foldl (fun s p => s.clearSlot p.1 p.2 .empty) s
  let s := s.each ((x.entryList).filter (fun e => !(tbit ents e))) (fun s e => s.modEntry e (fun _ => {}))
  s.modDen d (fun y => { y with mioSlots := BitVec.ofNat 16 slots, mioEnts := BitVec.ofNat 64 ents })

/-- Selector REGULATOR: the value has the layout of DEN_REG_CFG_p. A bucket that is enabled starts at BURST (R414). -/
def Bucket.config (b : Bucket) (cfg : Nat) : Bucket :=
  let en := tbit cfg 0
  let burst := bits cfg 32 32
  { en := en, rate := BitVec.ofNat 20 (bits cfg 8 20), burst := BitVec.ofNat 32 burst,
    level := if en ∧ !b.en then (burst : Int) else b.level }

/-- Path of a PATH code. -/
def pathOf (n : Nat) : Path :=
  match n with
  | 0 => .hbm
  | 1 => .hoard
  | 2 => .ifs
  | _ => .pcie

/-! ### Den records (15 R511, 18 R612) -/

/-- The ranges that 16 words in the layout of DEN_HBM_r name. -/
def rangesOf (b : Bytes) : List (Nat × Nat) :=
  (List.range 16).filterMap (fun i =>
    let x := fld b (4 * i) 4
    if tbit x 31 then some (bits x 0 15, bits x 16 15) else none)

/-- A range ends before its first RETIRED stripe (18 R612). -/
def State.cutRange (s : State) (p : Nat × Nat) : Nat × Nat :=
  (p.1, s.hbm.retired.foldl (fun n r => if p.1 ≤ r ∧ r < p.1 + n then r - p.1 else n) (min p.2 (s.hbm.limit - p.1)))

/-- PROFILE_EVT record and CORRECTED fault of an adjustment or a bad profile (R599, R612, 21 R690). -/
def State.profileFault (s : State) (cause idx code : Nat) (den : Option Nat) : State :=
  s.fault cause (mkLoc 9 0 den false 0) (some (0x0D, toLe 1 idx ++ toLe 1 code ++
    toLe 1 (match den with
      | some d => d
      | none => 0xFF) ++ [0]))

/-- Apply one den record at a cold bring-up, adjusted as R612 states. Every quadrant is in service. -/
def State.applyDenRecord (s : State) (rcd : Bytes) : State :=
  let d := fld rcd 0 1
  let idx := s.boot.profile
  if fld rcd 4 2 = 0 then s.profileFault 0x0504 idx 5 (some d)
  else
    let want := BitVec.ofNat 256 (fld rcd 0x20 32)
    let bad := (bits256 want).filter (fun t => (s.tile t).fenced)
    let s := s.each bad (fun s _ => s.profileFault 0x0505 idx 5 (some d))
    let tiles := bad.foldl (fun m t => m &&& ~~~(tileBit t)) want
    let rs := rangesOf (sliceB rcd 0x40 64)
    let s := rs.foldl (fun s p => if s.cutRange p = p then s else s.profileFault 0x0506 idx 5 (some d)) s
    let rs := (rs.map s.cutRange).filter (fun p => decide (p.2 ≠ 0))
    let s := s.modDen d (fun x => x.created (fld rcd 1 1) (fld rcd 4 2) (sliceB rcd 0xA0 16))
    let s := s.setTiles d tiles
    let s := s.setHbm d rs
    let s := s.each (List.range 16) (fun s w =>
      match s.wayTarget d (fld rcd 6 2) (fld rcd 8 2) w with
      | some m => s.modWay w (fun _ => { mode := m.1, owner := m.2 })
      | none => s)
    let s := s.setMioter d (fld rcd 0xA 2) (fld rcd 0x10 8)
    s.modDen d (fun x =>
      { x with deadline := fld rcd 2 1 == 1, scrub := fld rcd 3 1 == 1,
               regHbm := x.regHbm.config (fld rcd 0x80 8), regHoard := x.regHoard.config (fld rcd 0x88 8),
               regIfs := x.regIfs.config (fld rcd 0x90 8), regPcie := x.regPcie.config (fld rcd 0x98 8) })

/-- Insert a den record into a list kept in ascending DEN. -/
def insertDen (r : Bytes) (l : List Bytes) : List Bytes :=
  match l with
  | [] => [r]
  | a :: rest => if fld r 0 1 < fld a 0 1 then r :: a :: rest else a :: insertDen r rest

/-- Apply the den records of the profile in force, in ascending DEN (R612). -/
def State.applyDenRecords (s : State) : State :=
  ((s.boot.prof.dens.foldl (fun l r => insertDen r l) []).foldl State.applyDenRecord s)

end Sys2Proof.Machine
end

