-- ==== Sys2Proof/Machine/Link.lean ====
section
/-!
DEFINITION. Link ports and messages: building a message, routing it, sending it under credits, the link-level retry,
training and fencing of lanes, and the commands of the link layer (16 R514 to R533).
-/

namespace Sys2Proof.Machine

/-! ### Messages (R523, R524) -/

/-- TYPE of a message. -/
def mType (m : Bytes) : Nat := fld m 0 1
/-- VC of a message: 0 RSP, 1 POOL, 2 REQ, 3 MGT. -/
def mVc (m : Bytes) : Nat := fld m 1 1 % 4
/-- NDATA of a message. -/
def mNdata (m : Bytes) : Nat := fld m 2 1
/-- SRC of a message. -/
def mSrc (m : Bytes) : Nat := fld m 4 1
/-- DST of a message. -/
def mDst (m : Bytes) : Nat := fld m 5 1
/-- DEN of a message. -/
def mDen (m : Bytes) : Nat := fld m 6 1 % 32
/-- STATUS of a message. -/
def mStatus (m : Bytes) : Nat := fld m 7 1
/-- TID of a message. -/
def mTid (m : Bytes) : W32 := BitVec.ofNat 32 (fld m 8 4)
/-- Data flits of a message, as one run of bytes. -/
def mData (m : Bytes) : Bytes := m.drop 32
/-- Flits of a message, header included. -/
def mFlits (m : Bytes) : Nat := 1 + mNdata m

/-- VC of a message type; `none` = a reserved TYPE (R524). -/
def vcOf (ty : Nat) : Option Nat :=
  if 0x10 ≤ ty ∧ ty ≤ 0x15 then some 2
  else if 0x20 ≤ ty ∧ ty ≤ 0x23 then some 0
  else if ty = 0x30 then some 1
  else if 0x40 ≤ ty ∧ ty ≤ 0x4E then some 3
  else none

/-- Bytes up to the next whole flit. -/
def padFlits (b : Bytes) : Bytes := padB ((b.length + 31) / 32 * 32) b

/-- A message of this device: header flit and data flits. -/
def State.mkMsg (s : State) (ty dst den status : Nat) (tid : W32) (fields data : Bytes) : Bytes :=
  let vc := match vcOf ty with
    | some v => v
    | none => 0
  let d := padFlits data
  toLe 1 ty ++ toLe 1 vc ++ toLe 1 (d.length / 32) ++ [15] ++ toLe 1 s.fab.wid ++ toLe 1 dst ++ toLe 1 den ++
  toLe 1 status ++ toLe 4 tid.toNat ++ padB 20 fields ++ d

/-- Bytes that the type names in the header, from 0x0C on, and the data flits that the type asks for (R524). -/
def typeShape (m : Bytes) : Nat × Bool :=
  let n := mNdata m
  match mType m with
  | 0x10 => (16, decide (n = 0))
  | 0x11 => (10, decide (n = (fld m 0x10 1 + 1) / 2))
  | 0x12 => (10, decide (n = 0))
  | 0x13 => (10, decide (n = (fld m 0x14 2 + 31) / 32))
  | 0x14 => (12, decide (1 ≤ n ∧ n ≤ 4))
  | 0x15 => (3, decide (n = 2))
  | 0x20 => (7, decide (n = (fld m 0x10 2 + 31) / 32) || decide (n = 0))
  | 0x21 => (2, decide (n = (fld m 0xC 2 + 31) / 32) || decide (n = 0))
  | 0x22 => (0, decide (n = 0))
  | 0x23 => (0, decide (n ≤ 4))
  | 0x30 => (10, decide (n ≤ 128))
  | 0x40 => (5, decide (n = 2))
  | 0x42 | 0x48 => (5, decide (n = 0))
  | 0x41 | 0x44 | 0x45 | 0x46 | 0x4A => (4, decide (n = 0))
  | 0x43 => (12, decide (n = 0))
  | 0x49 => (16, decide (n = 0))
  | 0x4E => (0, decide (n = 1))
  | _ => (0, decide (n = 0))

/-- A field of the type that must be zero is zero: the fourth byte of ROW_READ, byte 7 of POOL_REQ and bits [7:1] of
its FLAGS, byte 5 of POOL_CONTRIB, and address bits above [39:0] (R524). -/
def typeZeros (m : Bytes) : Bool :=
  match mType m with
  | 0x10 => decide (fld m 0xF 1 = 0) && decide (fld m 0x10 8 < 2 ^ 40)
  | 0x11 => decide (fld m 0x13 1 = 0) && decide (fld m 0x12 1 < 2)
  | 0x12 | 0x13 | 0x14 => decide (fld m 0xC 8 < 2 ^ 40)
  | 0x30 => decide (fld m 0x11 1 = 0)
  | _ => true

/-- The message is one that its destination takes: its TYPE is defined, its VC matches, and every reserved field is
zero (R523, R524). -/
def msgOk (m : Bytes) : Bool :=
  decide (m.length = 32 * mFlits m) && decide (vcOf (mType m) = some (fld m 1 1)) && decide (fld m 6 1 < 32) &&
  (decide (mVc m ≠ 3) || decide (fld m 6 1 = 0)) &&
  (decide (mVc m ≠ 2 ∧ mVc m ≠ 3) || decide (mStatus m = 0)) && decide (mStatus m ≤ 4) &&
  (typeShape m).2 && allZero (sliceB m (0xC + (typeShape m).1) (20 - (typeShape m).1)) && typeZeros m

/-! ### Routing (R529, R530) -/

/-- XOR of the bytes of a run. -/
def xorBytes (b : Bytes) : Nat := (b.foldl (fun a x => a ^^^ x) (0 : Byte)).toNat

/-- K of R530. -/
def flowKey (m : Bytes) : Nat :=
  match mType m with
  | 0x12 | 0x13 | 0x14 => xorBytes (toLe 4 (bits (fld m 0xC 8) 11 29))
  | 0x15 => xorBytes (sliceB m 0xC 2)
  | _ => if mVc m = 3 then 0 else xorBytes (sliceB m 8 4)

/-- Ports of the routing entry for `dst` that are neither DOWN nor DISABLED (R530). -/
def State.livePorts (s : State) (dst : Nat) : List Nat :=
  (mget [] s.fab.routes dst).filter (fun p => (s.port p).st != .down && (s.port p).st != .disabled)

/-- Port on which a message leaves; `none` = no route (R529, R530). -/
def State.routePort (s : State) (m : Bytes) : Option Nat :=
  let ps := s.livePorts (mDst m)
  if ps.isEmpty then none
  else ps[((((mSrc m ^^^ mDst m) ^^^ mDen m) ^^^ mVc m) ^^^ flowKey m) % ps.length]?

/-! ### Sending (R519 to R527) -/

/-- Credits that a port holds for a VC. -/
def Port.cred (p : Port) (vc : Nat) : Nat :=
  match vc with
  | 0 => p.credRsp
  | 1 => p.credPool
  | 2 => p.credReq
  | _ => p.credMgt

/-- Change the credits of a VC. -/
def Port.modCred (p : Port) (vc : Nat) (f : Nat → Nat) : Port :=
  match vc with
  | 0 => { p with credRsp := f p.credRsp }
  | 1 => { p with credPool := f p.credPool }
  | 2 => { p with credReq := f p.credReq }
  | _ => { p with credMgt := f p.credMgt }

/-- The partner's buffer of each VC, in flits (R526). -/
def vcBuffer (vc : Nat) : Nat :=
  match vc with
  | 0 => 2048
  | 1 => 1024
  | 2 => 1024
  | _ => 64

/-- Cut a message into the flits of its sequenced codewords; each message begins a codeword of its own (assumption 6). -/
def codewords (fuel : Nat) (m : Bytes) : List Bytes :=
  match fuel with
  | 0 => []
  | f + 1 => if m.isEmpty then [] else m.take 640 :: codewords f (m.drop 640)

/-- Codewords of a message. -/
def msgWords (m : Bytes) : List Bytes := codewords (m.length + 1) m

/-- Put sequenced codewords on the line and into the retry buffer (R521). -/
def Port.transmit (p : Port) (ws : List Bytes) : Port :=
  ws.foldl (fun p w => { p with retry := p.retry ++ [(p.txSeq, w)], txSeq := p.txSeq + 1 }) p

/-- The LCTL flit that returns what is owed (R525). -/
def lctlFlit (owed : SMap Nat) : Bytes :=
  padB 32 ([1, 0] ++ (List.range 4).flatMap (fun v => toLe 2 (mget 0 owed v)))

/-- The VC whose first message the port starts next: strict priority MGT, RSP, POOL, REQ among those with credits and
room in the retry buffer (R521, R526, R527). -/
def Port.nextVc (p : Port) : Option Nat :=
  [3, 0, 1, 2].find? (fun v =>
    match mget [] p.queues v with
    | m :: _ => decide (mFlits m ≤ p.cred v) && decide (p.retry.length + (msgWords m).length ≤ 128)
    | [] => false)

/-- Send what a port in L0 can send: an LCTL flit first when credits are owed, then messages (R527). -/
def State.pump (s : State) (fuel p : Nat) : State :=
  match fuel with
  | 0 => s
  | f + 1 =>
    let x := s.port p
    if x.st ≠ .l0 then s
    else if !x.owed.isEmpty ∧ x.retry.length < 128 then
      let l := lctlFlit x.owed
      ((s.modPort p (fun y => { y.transmit [l] with owed := [] })).emit (.link p 1 l)).pump f p
    else
      match x.nextVc with
      | none => s
      | some v =>
        match mget [] x.queues v with
        | [] => s
        | m :: rest =>
          ((s.modPort p (fun y => { (y.modCred v (fun c => c - mFlits m)).transmit (msgWords m) with
              queues := mset [] y.queues v rest })).emit (.link p (mType m) m)).pump f p

/-- Messages that wait on a port. -/
def Port.waiting (p : Port) : Nat := (p.queues.map (fun q => q.2.length)).sum

/-- Send all that a port can send. -/
def State.pumpAll (s : State) (p : Nat) : State := s.pump ((s.port p).waiting + 2) p

/-- Queue a message on a port and send what can be sent. -/
def State.enqueue (s : State) (p : Nat) (m : Bytes) : State :=
  (s.modPort p (fun y => { y with queues := mset [] y.queues (mVc m) (mget [] y.queues (mVc m) ++ [m]) })).pumpAll p

/-- Give a message of this device to its route; `none` = STATUS NOROUTE (R529). A message that is not VC_MGT is charged
to its den's IFESIL bucket and IFS_TX (R545). -/
def State.send (s : State) (m : Bytes) : Option State :=
  match s.routePort m with
  | none => none
  | some p =>
    let s := if mVc m = 3 then s else s.chargeIfs (mDen m) (32 * mFlits m)
    some (s.enqueue p m)

/-- Send a message whose loss for want of a route has no further effect here (VC_MGT, and answers). -/
def State.sendOr (s : State) (m : Bytes) : State :=
  match s.send m with
  | some t => t
  | none => s

/-- Warren ids other than the own that have a routing entry with a port. -/
def State.routed (s : State) : List Nat := (s.fab.routes.map Prod.fst).filter (fun d => d != s.fab.wid)

/-- Send a VC_MGT message to every Warren id that has a routing entry (R543, R546, R549). -/
def State.mgtAll (s : State) (ty : Nat) (fields data : Bytes) : State :=
  s.each s.routed (fun s d => s.sendOr (s.mkMsg ty d 0 0 0 fields data))

/-! ### Receiving -/

/-- Return the credits of a message that has left the receive buffer (R525, R526). -/
def State.creditBack (s : State) (p : Nat) (m : Bytes) : State :=
  (s.modPort p (fun y => { y with owed := mset 0 y.owed (mVc m) (mget 0 y.owed (mVc m) + mFlits m) })).pumpAll p

/-- A port can take a message now: it is in L0, and the hub runs. -/
def State.portUp (s : State) (p : Nat) : Bool := s.hub && decide (p < 24) && (s.port p).st == .l0

/-- LINK_MSG: discarded and logged (R524). -/
def State.linkMsgFault (s : State) (p : Nat) : State := s.fault 0x0305 (mkLoc 4 p none false 0)

/-- A message of type `ty` addressed to this device arrives on port `p`; `f` is what it does. One that R524 refuses is
discarded and logged; one of another type, or for another device, is none of this event's. -/
def State.receive (s : State) (p : Nat) (m : Bytes) (ty : Nat) (f : State → State) : State :=
  if s.portUp p ∧ mType m = ty ∧ mDst m = s.fab.wid ∧ m.length = 32 * mFlits m then
    let s := s.creditBack p m
    if msgOk m then
      f (if mVc m = 3 then s else s.count (mDen m) cIfsRx (32 * mFlits m))
    else s.linkMsgFault p
  else s

/-- LINK_MSG (R524): a message that its destination refuses. -/
def execLinkMsg (port : Nat) (msg : Bytes) (s : State) : Host.Outcome State Fault Refusal :=
  .next (if s.portUp port ∧ mDst msg = s.fab.wid ∧ ¬ msgOk msg ∧ mType msg ≠ 0 ∧ mType msg ≠ 1 then
    (s.creditBack port msg).linkMsgFault port else s)

/-- LCTL (R525): the partner returns credits. -/
def execLctl (port : Nat) (flit : Bytes) (s : State) : Host.Outcome State Fault Refusal :=
  .next (if s.portUp port ∧ fld flit 0 1 = 1 then
    ((List.range 4).foldl (fun s v => s.modPort port (fun y =>
      y.modCred v (fun c => min (vcBuffer v) (c + fld flit (2 + 2 * v) 2)))) s).pumpAll port
  else s)

/-- TRANSIT_MESSAGE (R529, R530, R532): forward a message that is addressed to another device, or drop it for HOPS or
NOROUTE. It stays in the receive buffer until the port it leaves on can start it. -/
def execTransitMessage (port : Nat) (msg : Bytes) (s : State) : Host.Outcome State Fault Refusal :=
  .next (
    if s.portUp port ∧ mDst msg ≠ s.fab.wid ∧ msg.length = 32 * mFlits msg then
      if fld msg 3 1 = 0 then
        let s := s.creditBack port msg
        { s with fab := { s.fab with dropHops := satAdd s.fab.dropHops 1 } }
      else
        match s.routePort msg with
        | none =>
          let s := s.creditBack port msg
          { s with fab := { s.fab with dropNoroute := satAdd s.fab.dropNoroute 1 } }
        | some p =>
          let x := s.port p
          if x.st = .l0 ∧ (mget [] x.queues (mVc msg)).isEmpty ∧ mFlits msg ≤ x.cred (mVc msg) ∧
              x.retry.length + (msgWords msg).length ≤ 128 then
            (s.enqueue p (patchB msg 3 (toLe 1 (fld msg 3 1 - 1)))).creditBack port msg
          else s
    else s)

/-! ### Lanes, training and retry (R517 to R522) -/

/-- Unfenced lanes of a port. -/
def Port.unfenced (p : Port) : Nat := popNat (~~~p.fenced).toNat 8

/-- The port goes DOWN: its queues and retry buffer are lost (R522). -/
def Port.goDown (p : Port) : Port :=
  { p with st := .down, lanes := 0, queues := [], retry := [], owed := [], nakSent := false, keep := false, trainFails := 0 }

/-- Fence a lane, with its Ledger record (R520): REASON 1 lock lost, 2 training, 3 symbol rate, 4 replays. -/
def State.fenceLane (s : State) (p lane reason : Nat) : State :=
  if (s.port p).fenced.getLsbD lane then s
  else
    let s := s.modPort p (fun y => { y with fenced := y.fenced ||| BitVec.ofNat 8 (2 ^ lane) })
    let s := { s with tag := { s.tag with due := true } }
    s.fault 0x0309 (mkLoc 4 p none false (2 ^ lane))
      (some (0x07, toLe 1 p ++ toLe 1 (s.port p).fenced.toNat ++ toLe 1 lane ++ toLe 1 reason))

/-- After a fence of a port that was in L0: it retrains on the remaining lanes and keeps what it holds, or goes DOWN
with fewer than 4 lanes (R520, R522). -/
def State.afterFence (s : State) (p : Nat) : State :=
  if (s.port p).unfenced < 4 then s.modPort p Port.goDown
  else if (s.port p).st = .l0 then
    s.modPort p (fun y => { y with st := .training, lanes := 0, keep := true, retrains := y.retrains + 1 })
  else s

/-- LANE_LOCK_LOST (R520). -/
def execLaneLockLost (port lane : Nat) (s : State) : Host.Outcome State Fault Refusal :=
  .next (if s.hub ∧ port < 24 ∧ lane < 8 ∧ (s.port port).st = .l0 ∧ (s.port port).lanes.getLsbD lane then
    (s.fenceLane port lane 1).afterFence port else s)

/-- PORT_DOWN (R522): the partner has sent no codeword for 100 µs outside SLEEP, or a fourth retrain in a row failed. -/
def execPortDown (port : Nat) (s : State) : Host.Outcome State Fault Refusal :=
  .next (if s.hub ∧ port < 24 ∧ ((s.port port).st = .l0 ∨ (s.port port).st = .training) then
    s.modPort port Port.goDown else s)

/-- A port may train: its LINK_MASK bit is set, LINK_CTRL has not disabled it, and LINK_ID has not stopped it. -/
def State.mayTrain (s : State) (p : Nat) : Bool :=
  tbit s.boot.prof.linkMask p && !(s.port p).off && !(s.port p).idStop

/-- The port enters L0 with these lanes and partner; a fresh training sets credits, SEQ and ACK (R517). -/
def Port.toL0 (p : Port) (lanes : BitVec 8) (peerId peerPort delay : Nat) : Port :=
  let q := { p with st := .l0, lanes := lanes, peerId := peerId, peerPort := peerPort, peerValid := true,
                    delay := BitVec.ofNat 16 delay, keep := false, trainFails := 0, cwReplays := 0, nakSent := false }
  if p.keep then q
  else { q with credRsp := 2048, credPool := 1024, credReq := 1024, credMgt := 64, txSeq := 0, rxNext := 0, retry := [],
                owed := [] }

/-- LINK_TRAIN (R517, R518): the steps of training, with the lanes that locked, the identity that the partner gave and
the delay measured. -/
def execLinkTrain (port : Nat) (locked : BitVec 8) (peerId peerPort family delay : Nat) (s : State) :
    Host.Outcome State Fault Refusal :=
  .next (
    if s.hub ∧ port < 24 ∧ s.mayTrain port ∧ ((s.port port).st = .training ∨ (s.port port).st = .down) then
      let s := s.each ((List.range 8).filter (fun l => !((s.port port).fenced.getLsbD l) && !(locked.getLsbD l)))
        (fun s l => s.fenceLane port l 2)
      if (s.port port).unfenced < 4 then s.modPort port Port.goDown
      else if peerId = s.fab.wid ∨ family ≠ 0xD060 then
        (s.modPort port (fun y => { y.goDown with st := .idle, idStop := true, peerValid := false })).fault 0x0304
          (mkLoc 4 port none false 0)
      else
        (s.modPort port (fun y => y.toL0 (~~~y.fenced) (peerId % 256) (peerPort % 32) delay)).pumpAll port
    else s)

/-- LINK_TRAIN_RETRY (R517, R522): an attempt has failed and is repeated; the fourth retrain in a row that fails takes
the port DOWN. -/
def execLinkTrainRetry (port : Nat) (s : State) : Host.Outcome State Fault Refusal :=
  .next (
    if s.hub ∧ port < 24 ∧ s.mayTrain port ∧ ((s.port port).st = .training ∨ (s.port port).st = .down) then
      if (s.port port).keep ∧ 4 ≤ (s.port port).trainFails + 1 then s.modPort port Port.goDown
      else s.modPort port (fun y => { y with st := .training, trainFails := y.trainFails + 1 })
    else s)

/-- The partner acknowledges every codeword up to `ack`: they leave the retry buffer (R521). -/
def Port.acked (p : Port) (ack : BitVec 8) : Port :=
  let d := (ack - (p.txSeq - BitVec.ofNat 8 p.retry.length)).toNat
  if d < p.retry.length then { p with retry := p.retry.drop (d + 1), cwReplays := 0 } else p

/-- Corrected symbol errors of each lane count towards 10,000 in one second (R520). -/
def Port.addErrs (p : Port) (now : W64) (errs : List Nat) : Port :=
  let p := if 250000000 ≤ (now - p.errT).toNat then { p with laneErr := [], errT := now } else p
  (List.range 8).foldl (fun p l => { p with laneErr := mset 0 p.laneErr l (mget 0 p.laneErr l + errs.getD l 0) }) p

/-- A NAK starts a replay of every unacknowledged codeword; 16 consecutive replays of one codeword fence the lanes that
took part (R520, R521). -/
def State.replay (s : State) (p : Nat) : State :=
  let x := s.port p
  if x.retry.isEmpty then s
  else
    let s := s.modPort p (fun y => { y with replays := y.replays + 1, cwReplays := y.cwReplays + 1 })
    let s := x.retry.foldl (fun s w => s.emit (.link p 0 w.2)) s
    if 16 ≤ (s.port p).cwReplays then
      let s := s.modPort p (fun y => { y with cwReplays := 0 })
      (s.each ((List.range 8).filter (fun l => x.lanes.getLsbD l)) (fun s l => s.fenceLane p l 4)).afterFence p
    else s

/-- CODEWORD_RECEIVE (R519 to R521): a codeword with its header, the symbol errors found on each lane, and whether it
is uncorrectable. Its messages are events of their own. -/
def execCodewordReceive (port : Nat) (header : BitVec 20) (errs : List Nat) (bad : Bool) (s : State) :
    Host.Outcome State Fault Refusal :=
  .next (
    if s.portUp port then
      if bad then
        s.modPort port (fun y => { y with uncorrCw := satAdd y.uncorrCw 1, nakSent := true })
      else
        let h := header.toNat
        let s := s.modPort port (fun y => { (y.addErrs s.wtime errs) with corrSym := satAdd y.corrSym errs.sum })
        let s := s.modPort port (fun y => y.acked (BitVec.ofNat 8 (bits h 8 8)))
        let s := if tbit h 17 then s
          else if bits h 0 8 = (s.port port).rxNext.toNat then
            s.modPort port (fun y => { y with rxNext := y.rxNext + 1, nakSent := false })
          else s.modPort port (fun y => { y with nakSent := true })
        let s := if tbit h 16 then s.replay port else s
        let s := s.pumpAll port
        let noisy := (List.range 8).filter (fun l => decide (10000 < mget 0 (s.port port).laneErr l) &&
          !((s.port port).fenced.getLsbD l))
        if noisy.isEmpty then s else (s.each noisy (fun s l => s.fenceLane port l 3)).afterFence port
    else s)

/-- Apply LINK_MASK (R517, 15 R513): a port that leaves the mask goes to electrical idle and is DISABLED, a port that
enters it begins training. -/
def State.applyLinkMask (s : State) : State :=
  s.each (List.range 24) (fun s p =>
    let x := s.port p
    if tbit s.boot.prof.linkMask p ∧ !x.off then
      (match x.st with
       | .disabled | .idle | .down => s.modPort p (fun y => { y with st := .training, idStop := false, trainFails := 0 })
       | _ => s)
    else s.modPort p (fun y => { y.goDown with st := .disabled, peerValid := false }))

end Sys2Proof.Machine
end

