-- ==== Sys2Proof/Machine/Timers.lean ====
section
/-!
DEFINITION. The timers TMR_A to TMR_H, their gates, the make-up after the fast clocks have stopped, debug halt, and the
tick of the block on an empty queue (20 R659 to R670, R672, R674, 08 R284).
-/

namespace Sys2Proof.Machine

/-! ### Matches (R661, R662) -/

/-- The timers are frozen: the CP is in debug halt and DBG_FREEZE is 1 (R670). -/
def State.frozen (s : State) : Bool := s.tim.halt && s.tim.freeze

/-- The reference value of a timer (R662). -/
def State.tmrRef (s : State) (x : Tmr) : W64 := if x.src then s.wtime else x.count

/-- A match of the timer is due (R661, R662, R670). -/
def State.matchDue (s : State) (n : Nat) : Bool :=
  let x := s.tmr n
  x.armed && !s.frozen && (!x.src || x.run) && decide (x.cmp ≤ s.tmrRef x)

/-- Admissions that a window opens: BATCH held to 1 to 4,096 (R677). -/
def Tmr.batch (x : Tmr) : BitVec 13 := if x.gBatch = 0 then 1 else if 4096 < x.gBatch.toNat then 4096 else x.gBatch

/-- The k of R661: the smallest number that leaves CMP above the reference value. -/
def Tmr.steps (x : Tmr) (ref : W64) : Nat := (ref.toNat - x.cmp.toNat) / x.ivl.toNat + 1

/-- Steps 1 to 3 of a match, in the timer (R661), and the batch window that it opens (R666). -/
def Tmr.matched (x : Tmr) (ref : W64) : Tmr :=
  let y := { x with hits := x.hits + 1, gCredit := if x.route = 1 ∧ x.gEn then x.batch else x.gCredit }
  if x.ivl = 0 then { y with armed := false }
  else { y with cmp := x.cmp + BitVec.ofNat 64 (x.steps ref) * x.ivl, missed := satAdd x.missed (x.steps ref - 1) }

/-- A match of timer `n`: its event, and its bit in TMR_EVT (R661, R665). -/
def State.timerMatch (s : State) (n : Nat) : State :=
  let s := { s with tim := { s.tim with evt := s.tim.evt ||| BitVec.ofNat 8 (2 ^ n) } }
  s.modTmr n (fun x => x.matched (s.tmrRef x))

/-- A match of timer `n` when one is due. -/
def State.tryMatch (s : State) (n : Nat) : State := if s.matchDue n then s.timerMatch n else s

/-- TMR_MATCH (R661). -/
def execTmrMatch (tmr : Nat) (s : State) : Host.Outcome State Fault Refusal :=
  .next (if s.hub ∧ tmr < 8 then s.tryMatch tmr else s)

/-! ### Starting (R660) -/

/-- A TMR_GSTART write: with DEFER = 0 the named timers run at once; with DEFER = 1 the timers named that do not run are
the pending set, in place of any earlier one. -/
def State.gstart (s : State) (start : BitVec 8) (defer : Bool) : State :=
  s.each (List.range 8) (fun s n => s.modTmr n (fun x =>
    if defer then { x with pend := start.getLsbD n && !x.run }
    else if start.getLsbD n then { x with run := true, pend := false } else x))

/-- TMR_GSTART (R660). -/
def execTmrGstart (start : BitVec 8) (defer : Bool) (s : State) : Host.Outcome State Fault Refusal :=
  .next (if s.hub then s.gstart start defer else s)

/-- A deferred start takes effect when Warren time has reached TMR_GSTART_AT (R660, R670). -/
def State.deferredStart (s : State) : State :=
  if s.tim.gstartAt ≤ s.wtime ∧ ¬ s.frozen then
    s.each (List.range 8) (fun s n => if (s.tmr n).pend then s.modTmr n (fun x => { x with run := true, pend := false }) else s)
  else s

/-- TMR_DEFERRED_START (R660). -/
def execTmrDeferredStart (s : State) : Host.Outcome State Fault Refusal :=
  .next (if s.hub then s.deferredStart else s)

/-! ### Gates (R666, R667) -/

/-- Another enabled gate names the ring that this value of TMR_GATE names (R667). -/
def State.gateDup (s : State) (n : Nat) (v : W64) : Bool :=
  v.getLsbD 0 && (List.range 8).any (fun m => m != n && (s.tmr m).gEn && (s.tmr m).gDen == v.extractLsb' 8 5 &&
    (s.tmr m).gRing == v.extractLsb' 16 3)

/-- The fields that a write of TMR_GATE sets; EN from 0 to 1 sets CREDIT to 0 (R666). -/
def Tmr.setGate (x : Tmr) (v : W64) : Tmr :=
  { x with gEn := v.getLsbD 0, gDen := v.extractLsb' 8 5, gRing := v.extractLsb' 16 3, gBatch := v.extractLsb' 32 13,
           gCredit := if v.getLsbD 0 ∧ !x.gEn then 0 else x.gCredit }

/-- A write of TMR_GATE: discarded with TMR_GATE_DUP when it would enable a second gate of a ring (R667). -/
def State.gateWrite (s : State) (n : Nat) (v : W64) : State :=
  if s.gateDup n v then s.fault 0x0503 (mkLoc 11 0 none false 0) else s.modTmr n (fun x => x.setGate v)

/-- TMR_GATE_WRITE (R666, R667). -/
def execTmrGateWrite (tmr : Nat) (value : W64) (s : State) : Host.Outcome State Fault Refusal :=
  .next (if s.hub ∧ tmr < 8 then s.gateWrite tmr value else s)

/-! ### Debug halt (R670, R672) -/

/-- WDG_CP holds its count; the grace is held by nothing (R672, R673). -/
def State.wdgHold (s : State) : State :=
  if s.tim.cpSt = .running then { s with tim := { s.tim with cpSt := .held } } else s

/-- WDG_CP resumes its count when neither debug halt nor stopped clocks hold it (R672). -/
def State.wdgResume (s : State) : State :=
  if s.tim.cpSt = .held ∧ ¬ s.tim.halt ∧ s.hub then { s with tim := { s.tim with cpSt := .running } } else s

/-- JTAG_HALT (R670): the CP enters debug halt where ERR_DBG.JTAG_HALT permits it (22 R741). -/
def execJtagHalt (s : State) : Host.Outcome State Fault Refusal :=
  .next (if s.hub ∧ s.err.jtagHalt then
    { s with tim := { s.tim with halt := true } }.wdgHold else s)

/-- DEBUG_HALT_END (R670). -/
def execDebugHaltEnd (s : State) : Host.Outcome State Fault Refusal :=
  .next (if s.tim.halt then { s with tim := { s.tim with halt := false } }.wdgResume else s)

/-! ### Make-up (R668) -/

/-- The make-up at the release of TMCLK after `e` AON ticks: every running timer and Warren time advance together, and
RESID carries the rest; then the timers that were passed match once, and a deferred start that was passed takes effect. -/
def State.makeup (s : State) (e : Nat) : State :=
  let total := e * 15625 + s.tim.resid.toNat
  let add := BitVec.ofNat 64 (total / 256)
  let s := { s with wtime := s.wtime + add,
                    tim := { s.tim with resid := BitVec.ofNat 8 (total % 256), makeups := s.tim.makeups + 1 } }
  let s := if s.frozen then s
    else s.each (List.range 8) (fun s n => if (s.tmr n).run then s.modTmr n (fun x => { x with count := x.count + add }) else s)
  (s.each (List.range 8) State.tryMatch).deferredStart

/-- AON ticks since TMCLK stopped. -/
def State.sinceStop (s : State) : Nat := (s.pwr.aon - s.pwr.stopAon).toNat

/-! ### Ticks -/

/-- One AON tick of a count in ms: ticks of the running ms, and ms that remain; a count at 0 stays there until its
event. -/
def wdgTick (frac : Nat) (remain : W16) : Nat × W16 :=
  if frac + 1 < 4096 then (frac + 1, remain) else (0, if remain = 0 then 0 else remain - 1)

/-- One AON tick: HUB_AONCNT, and the watchdogs that count (R672 to R674). -/
def State.aonTick (s : State) : State :=
  let t := s.tim
  let a := wdgTick t.aonFrac t.aonRemain
  let c := wdgTick t.cpFrac t.cpRemain
  let counts := t.cpSt = .running ∨ t.cpSt = .grace
  { s with pwr := { s.pwr with aon := s.pwr.aon + 1 },
           tim := { t with aonFrac := a.1, aonRemain := a.2, cpFrac := if counts then c.1 else t.cpFrac,
                           cpRemain := if counts then c.2 else t.cpRemain } }

/-- A tile's task-runtime guard counts one TMCLK: in whole µs of 250 ticks, while the task is on the tile and not
yielded (08 R284). The count ends one above LIMIT, where the check aborts the task. -/
def Tile.guardTick (x : Tile) : Tile :=
  match x.seq with
  | .running | .ending | .parked =>
    if x.guardTicks + 1 < 250 then { x with guardTicks := x.guardTicks + 1 }
    else { x with guardTicks := 0,
                  guardElapsed := if x.guardLimit.toNat < x.guardElapsed.toNat then x.guardElapsed else x.guardElapsed + 1 }
  | .none | .waking | .ended | .yielded | .aborting => x

/-- Warren time counts one TMCLK; a member that is ahead of its master counts every second one (16 R546). -/
def State.wtimeTick (s : State) : State :=
  if s.fab.slow = 0 then { s with wtime := s.wtime + 1 }
  else if s.fab.slowPhase then { s with wtime := s.wtime + 1, fab := { s.fab with slowPhase := false } }
  else { s with fab := { s.fab with slowPhase := true, slow := s.fab.slow - 1 } }

/-- The running timers count one TMCLK (R659, R670). -/
def State.tmrCount (s : State) : State :=
  if s.frozen then s
  else s.each (List.range 8) (fun s n => if (s.tmr n).run then s.modTmr n (fun x => { x with count := x.count + 1 }) else s)

/-- The guards of the tiles count one TMCLK. -/
def State.guardTicks (s : State) : State := { s with tiles := s.tiles.map (fun p => (p.1, p.2.guardTick)) }

/-- A TMCLK is 256/15,625 of an AON tick (R668). -/
def State.aonShare (s : State) : State :=
  let f := s.pwr.aonFrac + 256
  if f < 15625 then { s with pwr := { s.pwr with aonFrac := f } }
  else State.aonTick { s with pwr := { s.pwr with aonFrac := f - 15625 } }

/-- One TMCLK edge: Warren time, the running timers, their matches and a deferred start, the guards, and the share of
an AON tick (R659 to R662). -/
def State.tmclkTick (s : State) : State :=
  (((s.wtimeTick.tmrCount.each (List.range 8) State.tryMatch).deferredStart).guardTicks).aonShare

/-- The oldest message for UART_MGT has kept the line to its end, unless it waits for its backoff (19 R639). -/
def State.mgtSend (s : State) : State :=
  match s.ser.mgtQ with
  | m :: rest =>
    if s.ser.mgtHold || decide (s.ser.mgtAddr = 0xFF) then s
    else State.emit { s with ser := { s.ser with mgtQ := rest } } (.mgt m.dst m.ty m.body)
  | [] => s

/-- What an empty queue does: one TMCLK where TMCLK runs, else one AON tick, and nothing in OFF. -/
def State.tick (s : State) : State :=
  if s.hub then s.mgtSend.tmclkTick else if s.pwr.st = .off ∧ ¬ s.pwr.thermtrip then s else s.mgtSend.aonTick

end Sys2Proof.Machine
end

