-- ==== Sys2Proof/Machine/Power.lean ====
section
/-!
DEFINITION. Power, clocks and temperatures: stopping and starting the fast clocks, HUSH and STANDBY, the power limiter,
TCLK, the thermal levels of dies and stacks, THERMTRIP#, and the accounting that runs on time (17, 06 R193 to R197,
13 R414, R419, R420, 23 R765).
-/

namespace Sys2Proof.Machine

/-! ### Stopping and starting the fast clocks (R566, R568, 16 R543) -/

/-- Steps 2 to 5 of R566: HUSH_NOTE, ports into SLEEP, self-refresh, WDG_CP held, the clocks stopped. -/
def State.stopClocks (s : State) : State :=
  let s := s.mgtAll 0x4B [] []
  let s := s.each (List.range 24) (fun s p => if (s.port p).st = .l0 then s.modPort p (fun y => { y with st := .sleep }) else s)
  let s := s.each ((List.range 8).filter (fun n => !(s.stackOut n))) (fun s n => s.modStack n (fun y => { y with selfref := true }))
  let s := s.wdgHold
  { s with pwr := { s.pwr with stopAon := s.pwr.aon } }

/-- The rest of R568, once the state says that the clocks run: the make-up, WDG_CP, HBM, the ports and WAKE_NOTE. -/
def State.startClocks (s : State) : State :=
  let s := (s.makeup s.sinceStop).wdgResume
  let s := s.each (List.range 8) (fun s n => s.modStack n (fun y => { y with selfref := false }))
  let s := s.each (List.range 24) (fun s p =>
    if (s.port p).st = .sleep then (s.modPort p (fun y => { y with st := .l0 })).pumpAll p else s)
  s.mgtAll 0x4C [] []

/-- Entry into HUSH from ACTIVE (R566). None begins during the grace of WDG_CP (20 R673). -/
def State.hushEntry (s : State) (thermal : Bool) : State :=
  if s.tim.cpSt = .grace then s
  else
    let s := s.stopClocks
    { s with pwr := { s.pwr with st := .hush, thermal := thermal, hushes := satAdd s.pwr.hushes 1, wakePend := none } }

/-- A wake event of R567, with its WAKE code: the first one counts. In a thermal HUSH it is held with no effect of its
own. -/
def State.wakeReq (s : State) (code : Nat) : State :=
  if s.pwr.st = .hush ∧ ¬ s.pwr.thermal ∧ s.pwr.wakePend = none then
    { s with pwr := { s.pwr with wakePend := some code } } else s

/-- A service command in STANDBY starts the hub clocks, unless a hold of R584 keeps them stopped (R571). -/
def State.svcStart (s : State) : State :=
  if s.pwr.st = .standby ∧ ¬ s.pwr.svcRun ∧ ¬ s.pwr.thermHold then
    State.startClocks { s with pwr := { s.pwr with svcRun := true } } else s

/-- HUSH_ALARM (R567, R591): the AON tick counter has reached ALARM. -/
def execHushAlarm (s : State) : Host.Outcome State Fault Refusal :=
  .next (if s.pwr.st = .hush ∧ s.pwr.alarm ≠ 0 then
    State.wakeReq { s with pwr := { s.pwr with aon := if s.pwr.aon.toNat < s.pwr.alarm.toNat then s.pwr.alarm.setWidth 64
                                                      else s.pwr.aon } } 7
  else s)

/-- STANDBY_CLOCK_STOP (R571): 1 ms after the last service command has ended. -/
def execStandbyClockStop (s : State) : Host.Outcome State Fault Refusal :=
  .next (if s.pwr.st = .standby ∧ s.pwr.svcRun ∧ s.cp.running = [] ∧ s.cp.usbIn = none ∧ s.cp.uartIn = none ∧
      s.tim.cpSt ≠ .grace then
    let s := s.stopClocks
    { s with pwr := { s.pwr with svcRun := false } }
  else s)

/-! ### STANDBY (R570, R571) -/

/-- D3HOT_ENTRY (R565, R570): every task aborts with no completion, and the entry of R566 runs; a thermal HUSH becomes
a hold of R584. -/
def execD3hotEntry (s : State) : Host.Outcome State Fault Refusal :=
  .next (
    if s.pwr.st = .active ∧ s.tim.cpSt ≠ .grace then
      let s := (s.killReqs (fun _ => true) false).stopClocks
      { s with pwr := { s.pwr with st := .standby } }
    else if s.pwr.st = .hush then
      let s := s.killReqs (fun _ => true) false
      { s with pwr := { s.pwr with st := .standby, thermHold := s.pwr.thermal, thermal := false, wakePend := none } }
    else s)

/-- D0_RETURN (R565, R571): ACTIVE again; under a hold of R584 the device is in a thermal HUSH instead. -/
def execD0Return (s : State) : Host.Outcome State Fault Refusal :=
  .next (
    if s.pwr.st = .standby then
      if s.pwr.thermHold then
        { s with pwr := { s.pwr with st := .hush, thermal := true, thermHold := false, hushes := satAdd s.pwr.hushes 1 } }
      else if s.pwr.svcRun then { s with pwr := { s.pwr with st := .active, svcRun := false } }
      else State.startClocks { s with pwr := { s.pwr with st := .active } }
    else s)

/-! ### TCLK and the power limiter (R560, R561, R575 to R578, R581) -/

/-- Thermal ceiling of a device level, in 100 MHz (R581). -/
def thermalCeiling (j : Nat) : Nat :=
  match j with
  | 0 => 18
  | 1 => 15
  | 2 => 12
  | _ => 9

/-- Target TCLK in 100 MHz: the lowest of profile, limiter and ceiling (R560). -/
def State.tclkTarget (s : State) : Nat := min s.pwr.tclkMax (min s.pwr.limVal (thermalCeiling s.devLevel))

/-- LIMITER: which value governs; the thermal ceiling is named first, then the limiter (R560). -/
def State.limiter (s : State) : Nat :=
  if thermalCeiling s.devLevel = s.tclkTarget then 2 else if s.pwr.limVal = s.tclkTarget then 1 else 0

/-- HALFRATE: held by the limiter, or by J3 (R577, R581). -/
def State.halfRate (s : State) : Bool := s.pwr.halfLim || decide (s.devLevel = 3)

/-- TCLK_STEP (R561): one step of 100 MHz towards the target. -/
def execTclkStep (s : State) : Host.Outcome State Fault Refusal :=
  .next (if s.hub ∧ s.pwr.tclkCur ≠ 0 then
    { s with pwr := { s.pwr with tclkCur :=
        if s.pwr.tclkCur < s.tclkTarget then s.pwr.tclkCur + 1
        else if s.tclkTarget < s.pwr.tclkCur then s.pwr.tclkCur - 1 else s.pwr.tclkCur } }
  else s)

/-- One evaluation of the limiter at P_100 = `p` (R576, R577). -/
def Power.limit (w : Power) (p : Nat) : Power :=
  let w := { w with halfLim := w.halfLim && decide (w.cap < p + 30) }
  if w.cap < p then
    if 9 < w.limVal then { w with limVal := w.limVal - 1, stepDown := w.stepDown + 1, low := 0 }
    else { w with halfLim := true, low := 0 }
  else if p + 30 < w.cap then
    if 9 ≤ w.low ∧ w.limVal < w.tclkMax then { w with limVal := w.limVal + 1, stepUp := w.stepUp + 1, low := 0 }
    else { w with low := min 10 (w.low + 1) }
  else { w with low := 0 }

/-- POWER_LIMITER_EVAL (R575 to R578), with P_100 and the mean of the last 1 ms in watts. A new cap is in force from
here on. -/
def execPowerLimiterEval (p100 p1ms : Nat) (s : State) : Host.Outcome State Fault Refusal :=
  .next (if s.hub then
    let w := { s.pwr with cap := min 1050 s.boot.prof.cap, p100 := p100 % 65536, p1ms := p1ms % 65536,
                          seen := mset false s.pwr.seen 12 true }
    { s with pwr := w.limit p100 }
  else s)

/-- AONCLK_TRIM (R557): `ok` tells whether AONCLK is trimmed against the crystal. -/
def execAonclkTrim (ok : Bool) (s : State) : Host.Outcome State Fault Refusal :=
  .next (if s.pwr.st = .off then s
    else if s.pwr.xtalOk ∧ ¬ ok then
      State.fault { s with pwr := { s.pwr with xtalOk := false } } 0x0502 (mkLoc 11 0 none false 0)
    else { s with pwr := { s.pwr with xtalOk := ok } })

/-! ### Thermal levels (R580 to R585, 06 R193 to R197) -/

/-- Entry limits of levels 1 to 4. -/
def jEntry : List Int := [95, 105, 110, 115]
/-- Exit limits of levels 1 to 4. -/
def jExit : List Int := [93, 103, 108, 100]
/-- Entry limits of T1 to T4. -/
def tEntry : List Int := [85, 95, 105, 110]
/-- Exit limits of T1 to T3; T4 is left only under 06 R196. -/
def tExit : List Int := [83, 93, 103, 100]

/-- Highest of levels 1 to `n` whose limit the reading exceeds, or 0. -/
def highest (limits : List Int) (n : Nat) (t : Int) : Nat :=
  match n with
  | 0 => 0
  | k + 1 => if limits.getD k 0 < t then k + 1 else highest limits k t

/-- The level that a reading gives from level `l`, by one rule for dies and stacks (R580, 06 R194). -/
def nextLevel (entry exit : List Int) (l : Nat) (t : Int) : Nat :=
  let up := highest entry 4 t
  if l < up then up
  else if l = 0 then 0
  else if t ≤ exit.getD (l - 1) 0 then highest exit (l - 1) t
  else l

/-- Post a THERMAL event of a source on the PF's EVQ and on that of every ACTIVE den (R583, 14 R451). -/
def State.thermalEvent (s : State) (src level : Nat) (reading : Nat) : State :=
  let b := toLe 1 src ++ toLe 1 level ++ toLe 2 reading
  let s := { s with pwr := { s.pwr with evLevel := mset 0 s.pwr.evLevel src level } }
  let s := (s.postEvent 0 2 0xFF b).2
  s.each (List.range 32) (fun s d => if (s.den d).st = .active then (s.postEvent (d + 1) 2 d b).2 else s)

/-- The hottest die reading as the event carries it, 2 bytes signed. -/
def State.dieReading (s : State) : Nat := (s.hottestDie.signExtend 16).toNat

/-- Post the events of sources whose level has changed since their last event; none while HCLK is stopped. -/
def State.thermalEvents (s : State) : State :=
  if s.hub then
    let s := s.each (List.range 8) (fun s n =>
      if mget 0 s.pwr.evLevel n ≠ (s.stack n).level then
        s.thermalEvent n (s.stack n).level ((s.stack n).temp.signExtend 16).toNat else s)
    if mget 0 s.pwr.evLevel 16 ≠ s.devLevel then s.thermalEvent 16 s.devLevel s.dieReading else s
  else s

/-- Count an entry for the Ledger, and write the excursion record of an entry into level 3 or 4 (R583, 06 R197,
21 R690). `key` is 0 to 7 for a stack, 16 for the device; `src` is the record's SOURCE. -/
def State.thermalEntry (s : State) (key src level : Nat) (temp : BitVec 8) : State :=
  let k := 4 * key + (level - 1)
  let s := { s with ldg := { s.ldg with thermLife := mset 0 s.ldg.thermLife k (mget 0 s.ldg.thermLife k + 1) } }
  if 3 ≤ level then s.record 0x0A (toLe 1 src ++ toLe 1 level ++ toLe 2 (temp.signExtend 16).toNat) none else s

/-- Logic die `d` moves to level `l` (R580, R583). -/
def State.setDieLevel (s : State) (d l : Nat) : State :=
  let old := mget 0 s.pwr.dieLevel d
  let s := { s with pwr := { s.pwr with dieLevel := mset 0 s.pwr.dieLevel d l } }
  if old < l then
    let s := { s with pwr := { s.pwr with therm := mset 0 s.pwr.therm (l - 1) (satAdd (mget 0 s.pwr.therm (l - 1)) 1) } }
    s.thermalEntry 16 (16 + d) l (mget 0 s.pwr.dieTemp d)
  else s

/-- Stack `n` moves to level `l` (06 R194, R197). -/
def State.setStackLevel (s : State) (n l : Nat) : State :=
  let old := (s.stack n).level
  let s := s.modStack n (fun y =>
    { y with level := l,
             therm := if old < l then mset 0 y.therm (l - 1) (satAdd (mget 0 y.therm (l - 1)) 1) else y.therm })
  if old < l then s.thermalEntry n n l (s.stack n).temp else s

/-- A stack is at T4, or a die at J4. -/
def State.tooHot (s : State) : Bool :=
  (List.range 8).any (fun n => decide ((s.stack n).level = 4)) || (List.range 3).any (fun d => mget 0 s.pwr.dieLevel d == 4)

/-- What T4 or J4 does to the device (R565, R584): a thermal HUSH from ACTIVE, a HUSH that becomes thermal, a hold of
the clocks in STANDBY and RETAIN. -/
def State.heatAct (s : State) : State :=
  if s.tooHot then
    match s.pwr.st with
    | .active => s.hushEntry true
    | .hush => { s with pwr := { s.pwr with thermal := true, wakePend := none } }
    | .standby =>
      if s.pwr.thermHold then s
      else
        let s := if s.pwr.svcRun then s.stopClocks else s
        { s with pwr := { s.pwr with thermHold := true } }
    | .retain =>
      if s.pwr.thermHold ∨ s.tim.cpSt = .grace then s
      else
        let s := s.stopClocks
        { s with pwr := { s.pwr with thermHold := true } }
    | .limp | .off => s
  else s

/-- A reading moves a level; while a thermal stop holds, level 4 is left only at its end (R582). -/
def State.movesTo (s : State) (entry exit : List Int) (l : Nat) (t : BitVec 8) : Nat :=
  let n := nextLevel entry exit l t.toInt
  if l = 4 ∧ !s.hub then 4 else n

/-- The exit condition of R582: every stack and every logic die reads 100 °C or below. -/
def State.cool (s : State) : Bool :=
  (List.range 8).all (fun n => s.stackOut n || decide ((s.stack n).temp.toInt ≤ 100)) &&
  (List.range 3).all (fun d => decide ((mget 0 s.pwr.dieTemp d).toInt ≤ 100))

/-- At the end of a thermal stop every stack and every die resumes at the level that its reading gives (R582). -/
def State.resumeLevels (s : State) : State :=
  let s := s.each (List.range 8) (fun s n =>
    if (s.stack n).level = 4 then s.setStackLevel n (nextLevel tEntry tExit 4 (s.stack n).temp.toInt) else s)
  s.each (List.range 3) (fun s d =>
    if mget 0 s.pwr.dieLevel d = 4 then s.setDieLevel d (nextLevel jEntry jExit 4 (mget 0 s.pwr.dieTemp d).toInt) else s)

/-- THERMTRIP# (R585, 23 R765): the trip record, every clock but AONCLK stopped, the device OFF. -/
def State.trip (s : State) (src : Nat) (temp : BitVec 8) : State :=
  let s := s.record 0x0C (toLe 1 src ++ [0] ++ toLe 2 (temp.signExtend 16).toNat) none
  { s with pwr := { s.pwr with st := .off, thermtrip := true, thermal := false, thermHold := false, svcRun := false },
           boot := { s.boot with phase := .off }, hbm := { s.hbm with data := [], bad := [], weak := [] },
           tag := { s.tag with due := true } }

/-- DIE_TEMP_READ (R579 to R585): the reading of logic die 0 (hub), 1 (west) or 2 (east). -/
def execDieTempRead (die : Nat) (temp : BitVec 8) (s : State) : Host.Outcome State Fault Refusal :=
  .next (if s.pwr.st = .off ∨ 3 ≤ die then s
    else
      let s := { s with pwr := { s.pwr with dieTemp := mset 0 s.pwr.dieTemp die temp, seen := mset false s.pwr.seen die true } }
      if 125 ≤ temp.toInt then s.trip (16 + die) temp
      else ((s.setDieLevel die (s.movesTo jEntry jExit (mget 0 s.pwr.dieLevel die) temp)).thermalEvents).heatAct)

/-- HBM_TEMP_READ (06 R193 to R197, 23 R765). -/
def execHbmTempRead (stack : Nat) (temp : BitVec 8) (s : State) : Host.Outcome State Fault Refusal :=
  .next (if s.pwr.st = .off ∨ 8 ≤ stack ∨ s.stackOut stack then s
    else
      let s := s.modStack stack (fun y =>
        { y with temp := temp,
                 tempMax := if y.tempMax.toInt < temp.toInt then temp else y.tempMax })
      let s := { s with pwr := { s.pwr with seen := mset false s.pwr.seen (4 + stack) true } }
      if 120 ≤ temp.toInt then s.trip stack temp
      else
        let l := (s.stack stack).level
        ((s.setStackLevel stack (s.movesTo tEntry tExit l temp)).thermalEvents).heatAct)

/-! ### Accounting on time (13 R414, R419, R420) -/

/-- One refill of a bucket (13 R414). -/
def Bucket.refill (b : Bucket) : Bucket :=
  if b.en then { b with level := min (b.burst.toNat : Int) (b.level + b.rate.toNat) } else b

/-- REGULATOR_REFILL (13 R414). -/
def execRegulatorRefill (s : State) : Host.Outcome State Fault Refusal :=
  .next (if s.hub then
    s.each (List.range 32) (fun s d => s.modDen d (fun x =>
      { x with regHbm := x.regHbm.refill, regHoard := x.regHoard.refill, regIfs := x.regIfs.refill, regPcie := x.regPcie.refill }))
  else s)

/-- Energy of the last second: what the activity model charges a den is open (13 R419; assumption 1). -/
def State.chargeEnergy (s : State) (d : Nat) : State :=
  let r := s.free 32
  r.2.count d cEnergy r.1.toNat

/-- ENERGY_CALIBRATE (13 R419): the charges of the second that ends, and the factor of the next one. -/
def execEnergyCalibrate (factor : W32) (s : State) : Host.Outcome State Fault Refusal :=
  .next (if s.hub then
    let s := s.each ((List.range 32).filter (fun d => (s.den d).st ≠ .free)) State.chargeEnergy
    let r := s.free 32
    let s := r.2
    { s with pwr := { s.pwr with acctCal := factor, acctUnattr := s.pwr.acctUnattr + r.1.setWidth 64 } }
  else s)

/-- The snapshot of R420. -/
def State.acctSnap (s : State) : State :=
  let s := s.each (List.range 32) (fun s d => s.modDen d (fun x => { x with snap := x.cnt.filter (fun p => decide (p.1 < 20)) }))
  { s with pwr := { s.pwr with acctSnapped := true, acctSnapTime := s.wtime, acctUnattrSnap := s.pwr.acctUnattr } }

/-- ACCT_SNAP (13 R420). -/
def execAcctSnap (s : State) : Host.Outcome State Fault Refusal := .next (if s.hub then s.acctSnap else s)

end Sys2Proof.Machine
end

