-- ==== Sys2Proof/Machine/Boot.lean ====
section
/-!
DEFINITION. Reset and bring-up: full reset, hub reset, reset of the PCIe edge, cold and warm bring-up, RETAIN by PERST#
and link loss, the watchdogs' expiries, and DEN, DEVICE and FATAL faults (18, 14 R466 to R472, 20 R671 to R676,
22 R734 to R738, 23 R750).
-/

namespace Sys2Proof.Machine

/-! ### Shared -/

/-- A free number from 0 to `n` - 1. -/
def State.freeNat (s : State) (n : Nat) : Nat × State :=
  let r := s.free 32
  (r.1.toNat % n, r.2)

/-- The device becomes master: the next epoch, CLAIM to every Warren id with a route, and the question for pending
switches (16 R549, R550, 07 R225). -/
def State.becomeMaster (s : State) : State :=
  let f := s.fab
  let s := { s with fab := { f with role := 2, master := f.wid, hold := false, epoch := f.epoch + 1, slow := 0 } }
  let s := s.mgtAll 0x4A (toLe 4 s.fab.epoch.toNat) []
  let s := { s with msw := some { st := 2, started := s.wtime } }
  s.mgtAll 0x47 [] []

/-- The PCIe link trains: rate, width and the partner's Flit Mode are the partner's (14 R430). -/
def State.trainPcie (s : State) : State :=
  let a := s.freeNat 2
  let b := a.2.freeNat 3
  let c := b.2.freeNat 3
  let s := c.2
  if a.1 = 1 then { s with pcie := { s.pcie with linkUp := false, rate := 0, width := 0, noflit := true } }
  else { s with pcie := { s.pcie with linkUp := true, rate := b.1 + 1, width := 4 * 2 ^ c.1, noflit := false } }

/-- The configuration of the PCIe edge returns to its reset values: functions, MSI-X tables, ATS, reads, VFs. -/
def Pcie.edge (p : Pcie) : Pcie :=
  { p with fns := [], rings := [], linkUp := false, rate := 0, width := 0, noflit := false, crs := true, numVfs := 0, ats := [],
           xlate := [], waiting := [], parts := [], reads := [], devmemPf := 4, devmemVf := 4 }

/-- Milliseconds of a WDG_AON period code (20 R679). -/
def aonMs (p : BitVec 2) : W16 := if p = 0 then 1000 else if p = 1 then 4000 else 16000

/-! ### Full reset (R593) -/

/-- Every unit at its reset value; the Ledger's and the tag's contents, the fuses and the power-on registers stay, and
so do the balls' levels and the queue of commands. -/
def State.fullReset (s : State) (powerOn : Bool) : State :=
  let w := s.pwr
  let p : Power := if powerOn then {}
    else { hushes := w.hushes, stepDown := w.stepDown, stepUp := w.stepUp, therm := w.therm, aon := w.aon, aonFrac := w.aonFrac }
  let period : BitVec 2 := if powerOn then 2 else s.tim.aonPeriod
  { pending := s.pending, out := s.out, freeCtr := s.freeCtr, pcie := { perst := s.pcie.perst },
    hbm := { stk := s.hbm.stk.map (fun (x : Nat × HbmStack) => (x.1, { hardGroups := x.2.hardGroups })) },
    pwr := p, ser := { vbus := s.ser.vbus },
    boot := { serial := s.boot.serial, fuseRoll := s.boot.fuseRoll, fuseWdg := s.boot.fuseWdg, t0Aon := p.aon },
    tim := { aonPeriod := period, aonRemain := aonMs period },
    ldg := { flash := s.ldg.flash, retired := s.ldg.retired, assigned := s.ldg.assigned, faults := s.ldg.faults, lifeAon := p.aon },
    tag := { s.tag with pending := none, deferred := 0, sessions := 0, locked := 0, ackHeld := false, due := false },
    tap := if powerOn then {} else s.tap }

/-! ### Cold bring-up (R597 to R606) -/

/-- Code of PROFILE_EVT for a profile that is not valid; 0 when it is (R599, 21 R690). -/
def profileCode (b : Option Bytes) (p : Nat) : Nat :=
  match b with
  | none => 1
  | some b =>
    if !profileMagicOk b ∨ fld b 4 2 ≠ 1 then 1
    else if fld b 6 1 ≠ p then 4
    else if !profileCrcOk b then 2
    else if !profileFieldsOk b then 3 else 0

/-- Step 2: the boot anchors from the two newest sectors, the head of the journal, and CALIB (21 R687, R689, R698). -/
def State.bootLedger (s : State) : State :=
  let l := s.ldg
  let ns := l.sorted
  let h := l.placeHead ns
  let cur := (l.derive (lastTwo ns)).filter (fun r => anchorType r.ty)
  let l := { h.1 with cur := cur, torn := if h.2 then satAdd l.torn 1 else l.torn, profSector := l.currentSet,
                      fwErases := (cur.filter (fun (r : LdgRec) => r.ty == 5)).foldl (fun m (r : LdgRec) => mset 0 m (fld r.payload 0 1) (fld r.payload 4 4)) [] }
  let l := match l.curOf 1 with
    | some r => { l with hours := BitVec.ofNat 32 (fld r.payload 0 4), powerOns := BitVec.ofNat 32 (fld r.payload 4 4) }
    | none => l
  let l := { l with lifeBase := l.hours * 3600 }
  let copyOk (a : Nat) : Bool := !l.blank a (a + 0x80000) &&
    decide (fld (l.read (a + 0x7FFFC) 4) 0 4 = (crc32c (l.read a 0x7FFFC)).toNat)
  let ok := copyOk 0xC40000 || copyOk 0xCC0000
  let s := { s with ldg := { l with calibBad := !ok } }
  if ok then s else s.fault 0x050B (mkLoc 9 0 none false 0)

/-- Steps 1 and 2: the strap, the choice and the profile in force (R595, R598, R599). -/
def State.bootProfile (s : State) (b : BootIn) : State :=
  let sel := b.profSel % 4
  let p := match s.ldg.choice with
    | some c => c
    | none => sel
  let code := profileCode (s.ldg.profBytes p) p
  let s := { s with boot := { s.boot with profSel := sel, profile := p, ovr := s.ldg.choice.isSome, pdefault := decide (code ≠ 0),
                                          prof := match s.ldg.profBytes p with
                                            | some x => if code = 0 then parseProfile x else {}
                                            | none => {} } }
  if code = 0 then s else s.profileFault 0x0504 p code none

/-- Step 3: MGT_ADDR, the period of WDG_AON, the POWER record, and what the profile sets in the fabric and the limiter
(R597, R620, 17 R560, R578). -/
def State.bootStep3 (s : State) : State :=
  let pr := s.boot.prof
  let per := BitVec.ofNat 2 pr.aonPeriod
  let s := { s with
    tim := { s.tim with aonPeriod := per, aonLocked := true, aonRemain := aonMs per },
    ser := { s.ser with mgtAddr := BitVec.ofNat 8 pr.mgtAddr },
    pwr := { s.pwr with cap := min 1050 pr.cap, tclkMax := pr.tclkMax, tclkCur := min 18 pr.tclkMax },
    fab := { s.fab with wid := pr.warrenId, role := pr.role, hold := decide (pr.role = 1) },
    ldg := { s.ldg with powerOns := s.ldg.powerOns + 1 } }
  s.record 1 (toLe 4 s.ldg.hours.toNat ++ toLe 4 s.ldg.powerOns.toNat) none

/-- SEQ of the current record of a type. -/
def Ledger.seqOf (l : Ledger) (ty : Nat) : Option W32 := (l.curOf ty).map LdgRec.seq

/-- The bring-up before this one failed: its BOOT record has no later BOOT_DONE record (R604). -/
def Ledger.bootFailed (l : Ledger) : Bool :=
  match l.seqOf 2 with
  | none => false
  | some q => match l.seqOf 3 with
    | none => true
    | some r => decide (r < q)

/-- Failed bring-ups in a row before this one (R604, R605). -/
def Ledger.bootFails (l : Ledger) : Nat :=
  if l.bootFailed then
    match l.curOf 2 with
    | some r => fld r.payload 2 1 + 1
    | none => 0
  else 0

/-- The bank to boot; `none` = ROM recovery (R603 to R605). -/
def State.chooseBank (s : State) : Option Nat :=
  let first := s.ldg.firstChoice % 2
  let failedBank := match s.ldg.curOf 2 with
    | some r => fld r.payload 0 1 % 2
    | none => 0
  let first := if s.ldg.bootFailed ∧ s.bankOk (1 - failedBank) then 1 - failedBank else first
  if 4 ≤ s.ldg.bootFails then none
  else if s.bankOk first then some first
  else if s.bankOk (1 - first) then some (1 - first) else none

/-- ERR_RESET is filled from the newest FAULT record of class DEVICE or FATAL after the last BOOT_DONE record
(22 R738). -/
def State.fillErrReset (s : State) : State :=
  let new (r : LdgRec) : Bool := match s.ldg.seqOf 3 with
    | some q => decide (q < r.seq)
    | none => true
  match s.ldg.faults.find? (fun f => f.1.ty == 0x0F && decide (3 ≤ fld f.1.payload 0 1) && new f.1) with
  | some f => { s with err := { s.err with resetClass := BitVec.ofNat 3 (fld f.1.payload 0 1),
                                           resetCause := BitVec.ofNat 16 (fld f.1.payload 2 2),
                                           resetLoc := BitVec.ofNat 64 (fld f.1.payload 4 8) } }
  | none => { s with err := { s.err with resetClass := 0, resetCause := 0, resetLoc := 0 } }

/-- The CP is released: WDG_CP starts by fuse or profile (R600, 20 R671), and CP_REL is at most 90,000 µs (R596). -/
def State.releaseCp (s : State) : State :=
  let hw := s.boot.fuseWdg = 1 ∨ (s.boot.fuseWdg = 0 ∧ s.boot.prof.wdgHw)
  let r := s.freeNat 90001
  let s := r.2
  { s with boot := { s.boot with cpUp := true, cpRel := BitVec.ofNat 32 r.1 },
           tim := { s.tim with cpHw := decide hw, cpLocked := false, cpTimeout := 2000, cpSt := if hw then .running else .stopped,
                               cpRemain := if hw then 2000 else 0, cpFrac := 0 } }

/-- The BOOT record of R604. -/
def State.bootRecord (s : State) : State :=
  s.record 2 (toLe 1 s.boot.bank ++ toLe 1 s.boot.source ++ toLe 1 s.boot.fails ++ toLe 1 s.boot.profile ++
    toLe 4 s.boot.fwVersion.toNat) none

/-- The bank and mode of this bring-up, as the registers show them. -/
def State.setBank (s : State) (bank : Option Nat) : State :=
  match bank with
  | some k => { s with boot := { s.boot with bank := k, mode := 0, fallback := decide (k ≠ s.ldg.firstChoice % 2),
                                             fwVersion := BitVec.ofNat 32 (s.ldg.bankVersion k), secVersion := s.ldg.bankSec k } }
  | none => { s with boot := { s.boot with mode := 2, fwVersion := 0, secVersion := 0 } }

/-- Lane fences come from the LANE_FENCE anchors (16 R520, 21 R689). -/
def State.restoreLanes (s : State) : State :=
  (s.ldg.cur.filter (fun r => r.ty == 7)).foldl (fun s r =>
    s.modPort (fld r.payload 0 1) (fun y => { y with fenced := BitVec.ofNat 8 (fld r.payload 1 1) })) s

/-- Step 8: the self-tests; a tile that fails is fenced with REASON 2; with n stacks, stripes from
18,432 / ceil(8 / n) on are RETIRED (R609, R610). -/
def State.selfTests (s : State) (b : BootIn) : State :=
  let n := popNat b.stacks8.toNat 8
  let lim := if n = 0 ∨ n = 8 then 18432 else 18432 / ((8 + n - 1) / n)
  let s := { s with boot := { s.boot with stacks8 := b.stacks8, slices := b.slices, engines := b.engines, tilesOk := b.tilesOk },
                    hbm := { s.hbm with limit := lim } }
  s.each (bits256 (~~~b.tilesOk)) (fun s t => s.fenceTile t 2 0x10 none)

/-- LINK_MASK is applied; a device that its profile names master starts as one (R597 step 7, R620). -/
def State.startLinks (s : State) : State :=
  let s := s.applyLinkMask
  if s.fab.role = 2 then s.becomeMaster else s

/-- Steps 1 to 5, with SOURCE and FAILS as the registers show them; an expiry of WDG_AON is logged and recorded now
(20 R675). -/
def State.bootFirst (s : State) (b : BootIn) (source : Nat) : State :=
  let s := ((s.bootLedger.bootProfile b).bootStep3).restoreLanes
  let s := { s with boot := { s.boot with source := source, fails := min 15 s.ldg.bootFails, phase := .cold } }
  if source = 2 then s.fault 0x0903 (mkLoc 11 0 none false 0) else s

/-- Step 6: the bank, its BOOT record, the release of the CP. -/
def State.bootBank (s : State) : State :=
  let s := s.setBank s.chooseBank
  (if s.boot.mode = 0 then s.bootRecord else s).releaseCp

/-- Steps 6 to 8 of a device whose CP passes its self-test. -/
def State.bootHub (s : State) (b : BootIn) : State :=
  let s := s.bootBank.fillErrReset
  let s := (if s.boot.mode = 0 then s.startLinks else s).selfTests b
  if s.pcie.perst then s else s.trainPcie

/-- SERVICE_ONLY (R614): the Dormouse serves the service ports itself. -/
def State.serviceOnly (s : State) : State :=
  { s with boot := { s.boot with mode := 3 }, ser := { s.ser with usbAttached := s.ser.vbus } }

/-- A cold bring-up up to the end of step 8; JOURNAL_READ_DONE and BRING_UP_COMPLETE do the rest. `source` is
HUB_BOOT.SOURCE. -/
def State.coldBoot (s : State) (b : BootIn) (source : Nat) : State :=
  let s := s.bootFirst b source
  if b.cpOk then s.bootHub b else s.fillErrReset.serviceOnly

/-- A full reset and the cold bring-up that follows it. -/
def State.restart (s : State) (b : BootIn) (source : Nat) : State := (s.fullReset false).coldBoot b source

/-- POWER_ON (R592). -/
def execPowerOn (b : BootIn) (s : State) : Host.Outcome State Fault Refusal := .next ((s.fullReset true).coldBoot b 0)

/-- SYS_RESET (R592, 23 R750): SYS_RESET# held low for `ns`. A pulse of 1 µs to 10 µs is the one case of which the spec
makes no statement. The ball has no function while the boundary cells own it (23 R757). -/
def execSysReset (ns : Nat) (b : BootIn) (s : State) : Host.Outcome State Fault Refusal :=
  if s.pwr.st = .off ∨ s.tap.owned ∨ ns < 1000 then .next s
  else if ns < 10000 then .fault .resetPulseUnspecified
  else .next (s.restart b 1)

/-! ### The end of a cold bring-up (R597 steps 9 to 12, 21 R687) -/

/-- Bank group of a row, from its row key: STACK, DIE, PC and BANK / 4 (06 R768). -/
def rowGroup (key : Nat) : Nat := key % 2 ^ 24 + 2 ^ 24 * (key / 2 ^ 24 % 256 / 4)

/-- Stack of a row key. -/
def rowStack (key : Nat) : Nat := key % 256

/-- Stripe that a row makes RETIRED, from its place in the pseudo-channel (06 R201, R768, 18 R610). -/
def State.rowStripe (s : State) (key : Nat) : Nat :=
  let r := key / 2 ^ 32 * 192 + key / 2 ^ 8 % 256 * 16 + key / 2 ^ 24 % 256
  let st := r * 1024 / 65536
  if s.hbm.limit = 0 then st else st % s.hbm.limit

/-- Payload of a ROW_REPAIR record (21 R690). -/
def rowRecord (key kind stripe : Nat) : Bytes := toLe 8 key ++ toLe 1 kind ++ [0] ++ toLe 2 stripe ++ [0, 0, 0, 0]

/-- Insert a record into a list in the order of LIFE_S and WTIME, in which rows were first listed (06 R200). -/
def insertRec (r : LdgRec) (l : List LdgRec) : List LdgRec :=
  match l with
  | [] => [r]
  | x :: rest =>
    if r.lifeS < x.lifeS ∨ (r.lifeS = x.lifeS ∧ r.wtime < x.wtime) then r :: x :: rest else x :: insertRec r rest

/-- Harden one listed row, or retire its stripe (06 R200, R201). -/
def State.hardenRow (s : State) (key : Nat) : State :=
  let n := rowStack key
  if (s.stack n).hardGroups.contains (rowGroup key) then
    let st := s.rowStripe key
    let s := { s with hbm := { s.hbm with retired := if s.hbm.retired.contains st then s.hbm.retired else s.hbm.retired ++ [st] } }
    s.record 8 (rowRecord key 3 st) none
  else
    (s.modStack n (fun y => { y with hardGroups := y.hardGroups ++ [rowGroup key] })).record 8 (rowRecord key 2 0) none

/-- Soft repair of a listed row again where its group's soft resource is free, else it stays pending (06 R199, R200). -/
def State.resoftRow (s : State) (key : Nat) : State :=
  s.modStack (rowStack key) (fun y =>
    if y.softRows.any (fun k => rowGroup k == rowGroup key) then { y with pendRows := y.pendRows ++ [key] }
    else { y with softRows := y.softRows ++ [key] })

/-- Step 9: the listed rows of each stack, the first 16 hardened (06 R200). -/
def State.repairRows (s : State) : State :=
  let rs := s.ldg.cur.filter (fun r => r.ty == 8 && decide (fld r.payload 8 1 ≤ 1))
  let keys := (rs.foldl (fun l r => insertRec r l) []).map (fun r => fld r.payload 0 8)
  s.each (List.range 8) (fun s n =>
    let ks := keys.filter (fun k => rowStack k == n)
    ((s.each (ks.take 16) State.hardenRow)).each (ks.drop 16) State.resoftRow)

/-- One free byte held to 0 to `n`, or 0xFF when its sweep was not run (06 R204). -/
def State.marginByte (s : State) (swept : Bool) (n : Nat) : Byte × State :=
  if swept then
    let r := s.freeNat (n + 1)
    (BitVec.ofNat 8 r.1, r.2)
  else (0xFF, s)

/-- The 8 bytes of one pseudo-channel: what a sweep measures is open (06 R203, R204; assumption 1). -/
def State.marginPc (s : State) (sweeps : Nat) : Bytes × State :=
  [(0, 32), (0, 32), (1, 32), (1, 32), (2, 16), (2, 16), (3, 16), (3, 16)].foldl (fun (acc : Bytes × State) p =>
    let r := acc.2.marginByte (tbit sweeps p.1) p.2
    (acc.1 ++ [r.1], r.2)) ([], s)

/-- A pseudo-channel below the margins of R205. -/
def marginLow (sweeps : Nat) (b : Bytes) : Bool :=
  (tbit sweeps 0 && decide (fld b 0 1 + fld b 1 1 < 12)) || (tbit sweeps 1 && decide (fld b 2 1 + fld b 3 1 < 12)) ||
  (tbit sweeps 2 && decide (fld b 4 1 + fld b 5 1 < 6)) || (tbit sweeps 3 && decide (fld b 6 1 + fld b 7 1 < 6))

/-- MARGIN_RUN on stack `n`: its record, and the faults of R205 (06 R203 to R205). -/
def State.marginStack (s : State) (n sweeps : Nat) : State :=
  let lo := if tbit sweeps 4 then s.freeNat 6 else s.freeNat 256
  let hi := if tbit sweeps 4 then lo.2.freeNat 4 else lo.2.freeNat 256
  let vlo : Byte := if tbit sweeps 4 then 0 - BitVec.ofNat 8 lo.1 else BitVec.ofNat 8 lo.1
  let head := toLe 1 n ++ toLe 1 sweeps ++ [vlo, BitVec.ofNat 8 hi.1] ++ toLe 2 ((s.stack n).temp.signExtend 16).toNat ++ [0, 0]
  let r := (List.range 32).foldl (fun (acc : Bytes × State) _ =>
    let x := acc.2.marginPc sweeps
    (acc.1 ++ x.1, x.2)) (head, hi.2)
  let s := r.2.modStack n (fun y => { y with lastMargin := r.1 })
  let low := (List.range 32).filter (fun i => marginLow sweeps (sliceB r.1 (8 + 8 * i) 8))
  match low with
  | [] => s.record 9 r.1 none
  | i :: rest =>
    let s := s.fault 0x0501 (mkLoc 3 n none false i) (some (9, r.1))
    s.each rest (fun s i => s.logCore 0 0x0501 (mkLoc 3 n none false i))

/-- SHORT: the requirements of the serviceable set that are not met (R613, R621). -/
def State.shortOf (s : State) : Nat :=
  b2n (popNat s.boot.slices.toNat 64 < 16) + 2 * b2n (s.boot.stacks8 = 0) + 4 * b2n (popNat s.boot.engines.toNat 32 < 4) +
  8 * b2n (s.boot.tilesOk = 0)

/-- What the whole journal reading gives: records, tile fences, retired stripes, thermal counts (21 R687, 22 R731). -/
def State.wholeJournal (s : State) : State :=
  let l := s.ldg
  let ns := l.sorted
  let old := ns.take (ns.length - 1)
  let torn := old.filter (fun n => !(l.blank (secAt n + (l.parseSector n).2) (secAt (n + 1))))
  let cur := l.derive ns
  let s := { s with ldg := { l with cur := cur, readDone := true, crcErr := satAdd l.crcErr torn.length } }
  let s := s.each torn (fun s n => s.fault 0x0508 (mkLoc 9 0 none false n))
  let s := s.eraseAhead.eraseAhead
  let s := (cur.filter (fun r => r.ty == 6 && decide (fld r.payload 1 1 = 1))).foldl (fun s r =>
    s.modTile (fld r.payload 0 1) (fun x => { x with fenced := true })) s
  let s := (cur.filter (fun r => r.ty == 8 && decide (fld r.payload 8 1 = 3))).foldl (fun (s : State) r =>
    { s with hbm := { s.hbm with retired := s.hbm.retired ++ [fld r.payload 10 2] } }) s
  (cur.filter (fun r => r.ty == 0xB)).foldl (fun (s : State) r =>
    let src := fld r.payload 0 1
    let add (m : SMap Nat) : SMap Nat := (List.range 4).foldl (fun m i =>
      mset 0 m (4 * src + i) (mget 0 m (4 * src + i) + fld r.payload (4 + 4 * i) 4)) m
    { s with ldg := { s.ldg with thermLife := add s.ldg.thermLife, thermSaved := add s.ldg.thermSaved } }) s

/-- What the full reading leads to in normal operation: rows are repaired, the stacks are margined where the profile asks
for it, and the den records apply, or the device enters LIMP (R597, R613). -/
def State.afterJournal (s : State) : State :=
  if s.boot.mode ≠ 0 then s
  else
    let s := s.repairRows
    let s := if s.boot.prof.margin then
        s.each ((List.range 8).filter (fun n => !(s.stackOut n))) (fun s n => s.marginStack n 0x1F) else s
    if s.shortOf = 0 then s.applyDenRecords
    else { s with boot := { s.boot with mode := 1, short := s.shortOf }, pwr := { s.pwr with st := .limp } }

/-- JOURNAL_READ_DONE (R597 steps 9 to 11, R612, R613, 21 R687): the whole reading has ended; rows are repaired, the
stacks are margined where the profile asks for it, and the den records apply, or the device enters LIMP. -/
def execJournalReadDone (s : State) : Host.Outcome State Fault Refusal :=
  .next (if s.boot.phase = .cold ∧ (s.boot.cpUp ∨ s.boot.mode = 3) then
    let s := s.wholeJournal
    State.afterJournal { s with boot := { s.boot with phase := .cold2 } }
  else s)

/-- The FALLBACK activation record of R606. -/
def State.fallbackRecord (s : State) : State :=
  if s.boot.mode ≠ 2 ∧ s.boot.bank ≠ s.ldg.firstChoice % 2 then
    s.record 4 (toLe 1 s.boot.bank ++ [1, 0, 0] ++ toLe 4 s.boot.fwVersion.toNat ++ toLe 4 s.boot.secVersion) none
  else s

/-- BRING_UP_COMPLETE (R607, R616, R617): the PF stops answering with CRS. -/
def execBringUpComplete (s : State) : Host.Outcome State Fault Refusal :=
  .next (
    if s.pcie.perst ∨ s.boot.mode = 3 then s
    else
      match s.boot.phase with
      | .edge => { s with boot := { s.boot with phase := .complete }, pcie := { s.pcie with crs := false } }
      | .cold2 | .warm =>
        let r := s.freeNat 400001
        let s := r.2
        let s := { s with boot := { s.boot with phase := .complete, ready := BitVec.ofNat 32 r.1 }, pcie := { s.pcie with crs := false },
                          ser := { s.ser with usbAttached := s.ser.vbus }, tag := { s.tag with due := true } }
        let s := s.record 3 (toLe 1 s.boot.bank ++ toLe 1 s.boot.mode ++ toLe 1 (b2n s.boot.warm) ++ [0] ++
          toLe 4 s.boot.ready.toNat) none
        s.fallbackRecord
      | .off | .heldReset | .cold | .warmFlush | .complete => s)

end Sys2Proof.Machine
end

