-- ==== Sys2Proof/Machine/Float.lean ====
section
/-!
DEFINITION. The number formats of 02_number_formats: decoding to exact values, exact arithmetic, rounding to nearest
with ties to even, the conversions R54, R61 to R64, and the bounded transcendental functions of 10 R325.
-/

namespace Sys2Proof.Machine

/-- A floating-point datum: NaN, an infinity, or the exact value (−1)^neg × m × 2^e. -/
inductive FVal where
  | nan
  | inf (neg : Bool)
  | fin (neg : Bool) (m : Nat) (e : Int)
  deriving DecidableEq, Repr

/-- The shape of a floating-point format: exponent bits, mantissa bits and bias (R51). -/
structure FFmt where
  eb : Nat
  mb : Nat
  bias : Nat
  deriving DecidableEq, Repr

/-- FP32. -/
def fp32 : FFmt := ⟨8, 23, 127⟩
/-- BF16. -/
def bf16 : FFmt := ⟨8, 7, 127⟩
/-- FP16. -/
def fp16 : FFmt := ⟨5, 10, 15⟩
/-- FP8 E4M3. -/
def e4m3 : FFmt := ⟨4, 3, 7⟩
/-- FP8 E5M2. -/
def e5m2 : FFmt := ⟨5, 2, 15⟩
/-- FP4 E2M1. -/
def e2m1 : FFmt := ⟨2, 1, 1⟩

/-- The format of an FMT code (R47); MXFP8 and MXFP4 give the format of their elements. -/
def ffmtOf (fmt : Nat) : Option FFmt :=
  match fmt with
  | 0 => some fp32
  | 1 => some bf16
  | 2 => some fp16
  | 3 => some e4m3
  | 4 => some e5m2
  | 7 => some e2m1
  | 8 => some e4m3
  | 9 => some e2m1
  | _ => none

/-- Bits of one element of an FMT code (R47); 0 for a reserved code. -/
def elemBits (fmt : Nat) : Nat :=
  match fmt with
  | 0 => 32 | 1 => 16 | 2 => 16 | 3 => 8 | 4 => 8 | 5 => 8 | 6 => 4 | 7 => 4 | 8 => 8 | 9 => 4 | 10 => 32
  | _ => 0

/-- The code names an MX format (R53). -/
def isMx (fmt : Nat) : Bool := fmt == 8 || fmt == 9
/-- The code names an integer format. -/
def isIntFmt (fmt : Nat) : Bool := fmt == 5 || fmt == 6 || fmt == 10

/-- Decode the bits of an element of a floating-point format (R51). E4M3 has one NaN mantissa and no infinity;
E2M1 has neither. -/
def decodeF (f : FFmt) (v : Nat) : FVal :=
  let m := bits v 0 f.mb
  let x := bits v f.mb f.eb
  let s := tbit v (f.mb + f.eb)
  let top := 2 ^ f.eb - 1
  if f = e4m3 ∧ x = top ∧ m = 7 then .nan
  else if f ≠ e4m3 ∧ f ≠ e2m1 ∧ x = top then (if m = 0 then .inf s else .nan)
  else if x = 0 then .fin s m (1 - (f.bias : Int) - f.mb)
  else .fin s (2 ^ f.mb + m) ((x : Int) - f.bias - f.mb)

/-- The value of FP32 bits. -/
def decF32 (v : W32) : FVal := decodeF fp32 v.toNat

/-- Round m × 2^e (m > 0) to a quantum of a format, to nearest with ties to even, exponents unbounded above: the
biased exponent field and the mantissa field. -/
def roundField (f : FFmt) (m : Nat) (e : Int) : Nat × Nat :=
  let lo : Int := 1 - (f.bias : Int) - f.mb
  let q : Int := max ((Nat.log2 m : Int) + e - f.mb) lo
  let (n, q) : Nat × Int :=
    if q ≤ e then (m * 2 ^ (e - q).toNat, q)
    else
      let s := (q - e).toNat
      let d := m / 2 ^ s
      let r := m % 2 ^ s
      let h := 2 ^ (s - 1)
      let up := decide (h < r) || (decide (r = h) && tbit d 0)
      (if up then d + 1 else d, q)
  let (n, q) : Nat × Int := if 2 ^ (f.mb + 1) ≤ n then (n / 2, q + 1) else (n, q)
  if n < 2 ^ f.mb then (0, n) else ((q + f.mb + f.bias).toNat, n - 2 ^ f.mb)

/-- The canonical NaN of a format (R61, R65); E2M1 has none and holds +0. -/
def nanBits (f : FFmt) : Nat :=
  if f = fp32 then 0x7FC00000 else if f = bf16 then 0x7FC0 else if f = fp16 then 0x7E00
  else if f = e5m2 then 0x7E else if f = e4m3 then 0x7F else 0

/-- What a conversion produced beside its bits: which bits of TIL_NUMSTAT it sets (R62, R64, R66). -/
structure NumEv where
  nanSeen : Bool := false
  infSeen : Bool := false
  satFp : Bool := false
  satInt : Bool := false
  nanLost : Bool := false
  accWrap : Bool := false
  satCount : Nat := 0
  deriving DecidableEq, Repr

/-- Nothing happened. -/
def NumEv.none : NumEv := {}

/-- Both sets of events. -/
def NumEv.join (a b : NumEv) : NumEv :=
  { nanSeen := a.nanSeen || b.nanSeen, infSeen := a.infSeen || b.infSeen, satFp := a.satFp || b.satFp,
    satInt := a.satInt || b.satInt, nanLost := a.nanLost || b.nanLost, accWrap := a.accWrap || b.accWrap,
    satCount := a.satCount + b.satCount }

/-- The sign bit of a format. -/
def signBit (f : FFmt) (s : Bool) : Nat := if s then 2 ^ (f.mb + f.eb) else 0

/-- Convert an exact value to a format: one rounding to nearest with ties to even, then the overflow rule of R61, with
the flags of R62 and R66. -/
def encodeF (f : FFmt) (v : FVal) : Nat × NumEv :=
  let top := 2 ^ f.eb - 1
  match v with
  | .nan => (nanBits f, { nanSeen := true, nanLost := decide (f = e2m1) })
  | .inf s =>
    if f = e4m3 then (signBit f s + 0x7E, { satFp := true })
    else if f = e2m1 then (signBit f s + 7, { satFp := true })
    else (signBit f s + top * 2 ^ f.mb, { infSeen := true })
  | .fin s m e =>
    if m = 0 then (signBit f s, {})
    else
      let (x, n) := roundField f m e
      if f = e4m3 then
        if top < x ∨ (x = top ∧ n = 7) then (signBit f s + 0x7E, { satFp := true })
        else (signBit f s + x * 8 + n, {})
      else if f = e2m1 then
        if top < x then (signBit f s + 7, { satFp := true }) else (signBit f s + x * 2 + n, {})
      else if top ≤ x then (signBit f s + top * 2 ^ f.mb, { infSeen := true })
      else (signBit f s + x * 2 ^ f.mb + n, {})

/-- An exact value rounded to FP32. -/
def rndF32 (v : FVal) : W32 := BitVec.ofNat 32 (encodeF fp32 v).1

/-- The signed integer m × 2^e of a finite value as a numerator over 2^k, for alignment. -/
def fsigned (s : Bool) (m : Nat) : Int := if s then -(m : Int) else m

/-- The exact sum of two values (IEEE 754 for specials; an exact zero sum of unlike signs is +0). -/
def faddX (a b : FVal) : FVal :=
  match a, b with
  | .nan, _ => .nan
  | _, .nan => .nan
  | .inf s, .inf t => if s = t then .inf s else .nan
  | .inf s, _ => .inf s
  | _, .inf t => .inf t
  | .fin s m e, .fin t n g =>
    if m = 0 ∧ n = 0 then .fin (s && t) 0 0
    else
      let q := min e g
      let x : Int := fsigned s (m * 2 ^ (e - q).toNat) + fsigned t (n * 2 ^ (g - q).toNat)
      .fin (decide (x < 0)) x.natAbs q

/-- The exact product of two values. -/
def fmulX (a b : FVal) : FVal :=
  match a, b with
  | .nan, _ => .nan
  | _, .nan => .nan
  | .inf s, .inf t => .inf (s != t)
  | .inf s, .fin t n _ => if n = 0 then .nan else .inf (s != t)
  | .fin s m _, .inf t => if m = 0 then .nan else .inf (s != t)
  | .fin s m e, .fin t n g => .fin (s != t) (m * n) (e + g)

/-- FP32 addition, one rounding. -/
def f32add (a b : W32) : W32 := rndF32 (faddX (decF32 a) (decF32 b))
/-- FP32 multiplication, one rounding. -/
def f32mul (a b : W32) : W32 := rndF32 (fmulX (decF32 a) (decF32 b))
/-- FP32 fused multiply-add a × b + c, one rounding. -/
def f32fma (a b c : W32) : W32 := rndF32 (faddX (fmulX (decF32 a) (decF32 b)) (decF32 c))

/-- A rational num / den × 2^e as a value that rounds the same way: enough quotient bits and a sticky bit. -/
def fratio (s : Bool) (num den : Nat) (e : Int) : FVal :=
  if num = 0 then .fin s 0 0
  else
    let k := 64 + Nat.log2 den
    let q := num * 2 ^ k / den
    let r := num * 2 ^ k % den
    .fin s (2 * q + (if r = 0 then 0 else 1)) (e - k - 1)

/-- FP32 division by an exact positive integer, one rounding (04 R134, MEAN). -/
def f32divNat (a : W32) (n : Nat) : W32 :=
  match decF32 a with
  | .fin s m e => rndF32 (fratio s m n e)
  | v => rndF32 v

/-- The order key of a value: −0 below +0, infinities at the ends (10 R321, 05 R163). -/
def fkeyLt (a b : FVal) : Bool :=
  match a, b with
  | .nan, _ => false
  | _, .nan => false
  | .inf s, .inf t => s && !t
  | .inf s, _ => s
  | _, .inf t => !t
  | .fin s m e, .fin t n g =>
    if m = 0 ∧ n = 0 then s && !t
    else
      let q := min e g
      decide (fsigned s (m * 2 ^ (e - q).toNat) < fsigned t (n * 2 ^ (g - q).toNat))

/-- The larger of two FP32 values, −0 below +0; NaN if either is NaN (R65). -/
def f32max (a b : W32) : W32 :=
  let x := decF32 a
  let y := decF32 b
  if x = .nan ∨ y = .nan then 0x7FC00000#32 else if fkeyLt x y then b else a

/-- The smaller of two FP32 values, −0 below +0; NaN if either is NaN (R65). -/
def f32min (a b : W32) : W32 :=
  let x := decF32 a
  let y := decF32 b
  if x = .nan ∨ y = .nan then 0x7FC00000#32 else if fkeyLt y x then b else a

/-- Numeric comparison of two values, −0 equal to +0: none when either is NaN. -/
def fcompare (a b : FVal) : Option Ordering :=
  match a, b with
  | .nan, _ => none
  | _, .nan => none
  | .inf s, .inf t => some (if s = t then .eq else if s then .lt else .gt)
  | .inf s, _ => some (if s then .lt else .gt)
  | _, .inf t => some (if t then .gt else .lt)
  | .fin s m e, .fin t n g =>
    let q := min e g
    some (compare (fsigned s (m * 2 ^ (e - q).toNat)) (fsigned t (n * 2 ^ (g - q).toNat)))

/-- A value times 2^k. -/
def fscale (v : FVal) (k : Int) : FVal :=
  match v with
  | .fin s m e => .fin s m (e + k)
  | w => w

/-- An integer as an exact value. -/
def fofInt (x : Int) : FVal := .fin (decide (x < 0)) x.natAbs 0

/-- A finite value rounded to an integer, to nearest with ties to even. -/
def roundInt (s : Bool) (m : Nat) (e : Int) : Int :=
  if 0 ≤ e then fsigned s (m * 2 ^ e.toNat)
  else
    let k := (-e).toNat
    let d := m / 2 ^ k
    let r := m % 2 ^ k
    let h := 2 ^ (k - 1)
    fsigned s (if h < r ∨ (r = h ∧ tbit d 0 = true) then d + 1 else d)

/-- The range of an integer format (R69). -/
def intRange (fmt : Nat) : Int × Int :=
  if fmt = 5 then (-128, 127) else if fmt = 6 then (-8, 7) else (-2147483648, 2147483647)

/-- Clamp to the range of an integer format; true when it clamped. -/
def clampInt (fmt : Nat) (x : Int) : Int × Bool :=
  let r := intRange fmt
  if x < r.1 then (r.1, true) else if r.2 < x then (r.2, true) else (x, false)

/-- A float converted to an integer format (R64): the INT32 value and the flags. -/
def floatToInt (fmt : Nat) (v : FVal) : W32 × NumEv :=
  match v with
  | .nan => (0, { nanSeen := true, nanLost := true })
  | .inf s => (BitVec.ofInt 32 (if s then (intRange fmt).1 else (intRange fmt).2), { satInt := true })
  | .fin s m e =>
    let (x, c) := clampInt fmt (roundInt s m e)
    (BitVec.ofInt 32 x, { satInt := c })

/-- A float converted to a float format and held as FP32 (R50, R61), with its flags. -/
def floatToFmtHeld (fmt : Nat) (v : FVal) : W32 × NumEv :=
  match ffmtOf fmt with
  | some f =>
    let (b, ev) := encodeF f v
    (rndF32 (decodeF f b), ev)
  | none => (rndF32 v, {})

/-- The value of an MX element: element × 2^(scale − 127), rounded once to FP32; a scale of 0xFF is NaN (R53, R54). -/
def mxWiden (f : FFmt) (elem scale : Nat) : W32 :=
  if scale = 0xFF then 0x7FC00000#32 else rndF32 (fscale (decodeF f elem) ((scale : Int) - 127))

/-- The bits of an element written against a parameter scale byte (R63). -/
def mxNarrow (f : FFmt) (v : FVal) (scale : Nat) : Nat × NumEv :=
  if scale = 0xFF then (0, {}) else encodeF f (fscale v (127 - (scale : Int)))

/-- Element `k` of a packed vector (R49). -/
def elemAt (fmt : Nat) (bs : Bytes) (k : Nat) : Nat :=
  match elemBits fmt with
  | 32 => fld bs (4 * k) 4
  | 16 => fld bs (2 * k) 2
  | 8 => fld bs k 1
  | 4 => bits (byteAt bs (k / 2)).toNat (4 * (k % 2)) 4
  | _ => 0

/-- Bytes of `n` packed elements (R49). -/
def packedBytes (fmt n : Nat) : Nat := (elemBits fmt * n + 7) / 8

/-- Pack elements (R49). -/
def packElems (fmt : Nat) (es : List Nat) : Bytes :=
  match elemBits fmt with
  | 32 => es.flatMap (toLe 4)
  | 16 => es.flatMap (toLe 2)
  | 8 => es.flatMap (toLe 1)
  | 4 => (List.range ((es.length + 1) / 2)).map
      (fun i => BitVec.ofNat 8 (es.getD (2 * i) 0 % 16 + 16 * (es.getD (2 * i + 1) 0 % 16)))
  | _ => []

/-- An element widened for a tile register (R50): floats exactly to FP32, INT8 and INT4 by sign extension. -/
def widenElem (fmt v : Nat) : W32 :=
  match fmt with
  | 5 => (BitVec.ofNat 8 v).signExtend 32
  | 6 => (BitVec.ofNat 4 v).signExtend 32
  | 10 => BitVec.ofNat 32 v
  | 0 => BitVec.ofNat 32 v
  | _ => match ffmtOf fmt with
    | some f => rndF32 (decodeF f v)
    | none => 0

/-- The FMT codes permitted for table rows (R47). -/
def rowFmtOk (fmt : Nat) : Bool := decide (fmt ≤ 9)
/-- The FMT codes permitted as matrix operands (R47). -/
def matFmtOk (fmt : Nat) : Bool := decide (1 ≤ fmt ∧ fmt ≤ 9)

/-- Requantisation of an INT32 value (R69): the result and whether it clamped. -/
def requant (x m zp : Int) (n tgt : Nat) : Int × Bool :=
  let t := x * m
  let t := if 0 < n then t + 2 ^ (n - 1) else t
  let t := t / 2 ^ n
  clampInt tgt (t + zp)

/-! ### The transcendental stages (10 R325)

The exact result is approached in fixed point with 320 fraction bits, and rounded to FP32; the bits the part gives are
a free value of `Config`, taken when it lies within the bound of R325 and replaced by the rounded exact result when it
does not. -/

/-- One in the fixed point of this section. -/
def fxOne : Int := 2 ^ 320

/-- A finite value in fixed point. -/
def fxOf (s : Bool) (m : Nat) (e : Int) : Int :=
  let k := e + 320
  if 0 ≤ k then fsigned s (m * 2 ^ k.toNat) else fsigned s (m / 2 ^ (-k).toNat)

/-- A fixed-point number as a value; a zero keeps the sign given. -/
def fxVal (s : Bool) (x : Int) : FVal :=
  if x = 0 then .fin s 0 0 else .fin (decide (x < 0)) x.natAbs (-320)

/-- Fixed-point product. -/
def fxMul (a b : Int) : Int := a * b / fxOne

/-- Taylor terms of e^r, from term k on: `t` is the current term. -/
def fxExpTerms (fuel : Nat) (r t : Int) (k : Nat) : Int :=
  match fuel with
  | 0 => 0
  | n + 1 => t + fxExpTerms n r (fxMul t r / (k + 1 : Nat)) (k + 1)

/-- Square a fixed-point number `n` times. -/
def fxSquares (n : Nat) (x : Int) : Int :=
  match n with
  | 0 => x
  | k + 1 => fxSquares k (fxMul x x)

/-- e^x in fixed point for x at most about 104 in size, by e^(x / 256) squared eight times; a negative argument by the
reciprocal. -/
def fxExp (x : Int) : Int :=
  let y := fxSquares 8 (fxExpTerms 70 ((x.natAbs : Int) / 256) fxOne 0)
  if 0 ≤ x then y else fxOne * fxOne / y

/-- Terms of atanh z = z + z^3/3 + …, `z2` the square. -/
def fxAtanhTerms (fuel : Nat) (z2 t : Int) (k : Nat) : Int :=
  match fuel with
  | 0 => 0
  | n + 1 => t / (2 * k + 1 : Nat) + fxAtanhTerms n z2 (fxMul t z2) (k + 1)

/-- ln of m / 2^p for a mantissa between 1 and 2. -/
def fxLnUnit (x : Int) : Int :=
  let z := (x - fxOne) * fxOne / (x + fxOne)
  2 * fxAtanhTerms 110 (fxMul z z) z 0

/-- ln 2. -/
def fxLn2 : Int := fxLnUnit (2 * fxOne)

/-- Terms of the error function's series. -/
def fxErfTerms (fuel : Nat) (x2 t : Int) (k : Nat) : Int :=
  match fuel with
  | 0 => 0
  | n + 1 => t / (2 * k + 1 : Nat) + fxErfTerms n x2 (-(fxMul t x2) / (k + 1 : Nat)) (k + 1)

/-- The square root of `n`, rounded down, whose bits from `k` on are those of `r`: one bit at a time. -/
def isqrtFrom (k n r : Nat) : Nat :=
  match k with
  | 0 => r
  | j + 1 => isqrtFrom j n (if (r + 2 ^ j) * (r + 2 ^ j) ≤ n then r + 2 ^ j else r)

/-- The square root of a natural number, rounded down. -/
def isqrt (n : Nat) : Nat := isqrtFrom (Nat.log2 n / 2 + 1) n 0

/-- Terms of arctan(1 / q). -/
def fxAtanTerms (fuel : Nat) (q2 : Nat) (t : Int) (k : Nat) : Int :=
  match fuel with
  | 0 => 0
  | n + 1 => t / (2 * k + 1 : Nat) + fxAtanTerms n q2 (-t / (q2 : Int)) (k + 1)

/-- π by Machin's formula. -/
def fxPi : Int :=
  4 * (4 * fxAtanTerms 150 25 (fxOne / 5) 0 - fxAtanTerms 150 57121 (fxOne / 239) 0)

/-- Φ(x), the standard normal distribution function, in fixed point. -/
def fxPhi (x : Int) : Int :=
  let z := x * fxOne / (isqrt (2 * fxOne.natAbs * fxOne.natAbs) : Int)
  let s := fxErfTerms 400 (fxMul z z) z 0
  let rootPi : Int := isqrt (fxPi.natAbs * fxOne.natAbs)
  (fxOne + 2 * s * fxOne / rootPi) / 2

/-- The place of FP32 bits on the number line, both zeros at 0, in units of the last place. -/
def ulpIndex (v : W32) : Int := fsigned (v.getLsbD 31) (v.toNat % 2 ^ 31)

/-- The part's bits when they are a number within `n` units in the last place of the reference, else the reference. -/
def boundUlp (n : Nat) (ref cand : W32) : W32 :=
  if decF32 cand ≠ .nan ∧ (ulpIndex cand - ulpIndex ref).natAbs ≤ n then cand else ref

/-- A decimal threshold num / 10^5 compared with a finite value: true when the value is above it. -/
def aboveE5 (s : Bool) (m : Nat) (e : Int) (num : Int) : Bool :=
  decide (num * fxOne < fxOf s m e * 100000)

/-- EXP (R321, R325). -/
def stageExp (v : W32) : W32 :=
  match decF32 v with
  | .nan => 0x7FC00000#32
  | .inf s => if s then 0 else 0x7F800000#32
  | .fin s m e =>
    if aboveE5 s m e 8872284 then 0x7F800000#32
    else if aboveE5 (!s) m e 10397208 then 0
    else boundUlp 2 (rndF32 (fxVal false (fxExp (fxOf s m e)))) (Config.expBits v)

/-- LOG (R321, R325). -/
def stageLog (v : W32) : W32 :=
  match decF32 v with
  | .nan => 0x7FC00000#32
  | .inf s => if s then 0x7FC00000#32 else 0x7F800000#32
  | .fin s m e =>
    if m = 0 then 0xFF800000#32
    else if s then 0x7FC00000#32
    else
      let l := Nat.log2 m
      let x := fxLnUnit (fxOf false m (-(l : Int))) + (e + l) * fxLn2
      boundUlp 2 (rndF32 (fxVal false x)) (Config.logBits v)

/-- SIGMOID (R321, R325). -/
def stageSigmoid (v : W32) : W32 :=
  match decF32 v with
  | .nan => 0x7FC00000#32
  | .inf s => if s then 0 else 0x3F800000#32
  | .fin s m e =>
    if s = false ∧ decide (17 * fxOne ≤ fxOf s m e) = true then 0x3F800000#32
    else if decide (fxOf s m e ≤ -88 * fxOne) then boundUlp 2 (stageExp v) (Config.sigmoidBits v)
    else boundUlp 3 (rndF32 (fxVal false (fxOne * fxOne / (fxOne + fxExp (-(fxOf s m e)))))) (Config.sigmoidBits v)

/-- TANH (R321, R325). -/
def stageTanh (v : W32) : W32 :=
  match decF32 v with
  | .nan => 0x7FC00000#32
  | .inf s => if s then 0xBF800000#32 else 0x3F800000#32
  | .fin s m e =>
    if m = 0 then v
    else if decide (901 * fxOne ≤ fxOf false m e * 100) then (if s then 0xBF800000#32 else 0x3F800000#32)
    else
      let x := fxOf s m e
      let y := fxExp (2 * x)
      let ref := if decide (fxOf false m e * 2 ^ 40 < fxOne) then v else rndF32 (fxVal s ((y - fxOne) * fxOne / (y + fxOne)))
      boundUlp 3 ref (Config.tanhBits v)

/-- GELU (R321, R325): the absolute error is at most 2^−22 × max(1, |V|). -/
def stageGelu (v : W32) : W32 :=
  match decF32 v with
  | .nan => 0x7FC00000#32
  | .inf s => if s then 0x80000000#32 else v
  | .fin s m e =>
    let x := fxOf s m e
    if decide (6 * fxOne ≤ x) then v
    else if decide (x ≤ -10 * fxOne) then 0x80000000#32
    else
      let y := fxMul x (fxPhi x)
      let bound := (max fxOne (x.natAbs : Int)) / 2 ^ 22
      match decF32 (Config.geluBits v) with
      | .fin t n g =>
        if (fxOf t n g - y).natAbs ≤ bound.natAbs then Config.geluBits v else rndF32 (fxVal s y)
      | _ => rndF32 (fxVal s y)

/-- RSQRT (R321, R325). -/
def stageRsqrt (v : W32) : W32 :=
  match decF32 v with
  | .nan => 0x7FC00000#32
  | .inf s => if s then 0x7FC00000#32 else 0
  | .fin s m e =>
    if m = 0 then (if s then 0xFF800000#32 else 0x7F800000#32)
    else if s then 0x7FC00000#32
    else
      let (m, e) : Nat × Int := if e % 2 = 0 then (m, e) else (2 * m, e - 1)
      -- 1 / √(m × 2^e) = √(2^200 / m) × 2^(−100 − e/2)
      boundUlp 1 (rndF32 (.fin false (2 * isqrt (2 ^ 200 / m) + 1) (-101 - e / 2))) (Config.rsqrtBits v)

/-- RECIP (R321, R325). -/
def stageRecip (v : W32) : W32 :=
  match decF32 v with
  | .nan => 0x7FC00000#32
  | .inf s => if s then 0x80000000#32 else 0
  | .fin s m e =>
    if m = 0 then (if s then 0xFF800000#32 else 0x7F800000#32)
    else boundUlp 1 (rndF32 (fratio s 1 m (-e))) (Config.recipBits v)

end Sys2Proof.Machine
end

