-- ==== Sys2Proof/Machine/Reset.lean ====
section
/-!
DEFINITION. Events that reset the hub or the PCIe edge, RETAIN and its end, the watchdogs' expiries, and DEN, DEVICE and
FATAL faults (18 R592 to R594, R608, R616, R617, 14 R463 to R472, 20 R671 to R676, 22 R734 to R738, 23 R749).
-/

namespace Sys2Proof.Machine

/-! ### Hub reset and warm bring-up (18 R594, R616) -/

/-- What the hub reset does to the Mioter array: a slot in LOADING and an entry being stored become INVALID, tokens and
lanes are gone (03 R92, R113, R116). -/
def State.resetMioter (s : State) : State :=
  let s := s.each (List.range 16) (fun s i =>
    if (s.slot (i / 4) (i % 4)).st = .loading then s.clearSlot (i / 4) (i % 4) .invalid else s)
  let s := s.each (List.range 64) (fun s e =>
    if (s.cfgEntry e).storing.isSome then s.modEntry e (fun x => { x with st := .invalid, storing := none, data := [] }) else s)
  let s := s.each (List.range 4) (fun s q => s.modQuad q (fun x =>
    { x with toks := [], lanes := [], tag := 0, tokens := 0, loading := none,
             pes := x.pes.map (fun (p : Nat × Pe) => (p.1, { p.2 with qW := [], qN := [], qE := [], qS := [], tok := none })) }))
  let m := s.mioter
  { s with mioter := { quads := m.quads, store := m.store, tokSeq := m.tokSeq } }

/-- What the hub reset does to a den: the FGR, HRD, update and history counters and the RW limits of 04 R146 and
05 R180 return to reset; configuration and accounting stay (04 R147, 05 R180, 07 R243, 12 R387, 14 R467). -/
def Den.hubReset (x : Den) : Den :=
  { x with cnt := x.cnt.filter (fun p => decide (p.1 < 32)), laDepth := 2, inflightMax := 4096, ibufQuota := 65536,
           arrMax := 16384 }

/-- What the hub reset does to a stack: its counters; level, reading, repairs and margins stay (06 R208 to R212). -/
def HbmStack.hubReset (y : HbmStack) : HbmStack :=
  { y with tempMax := 0x80, corr := 0, uncorr := 0, scrubEn := true, scrubPeriod := 24, scrubPasses := 0, errlog := 0,
           errlogValid := false, therm := [], margin := false }

/-- Every link port goes DOWN and keeps its fences (16 R522). -/
def Port.hubReset (p : Port) : Port := { fenced := p.fenced, st := .down }

/-- The TMR registers, but for TMR_RESID, and WDG_CP (20 R669, R671). -/
def Timers.hubReset (t : Timers) : Timers :=
  { resid := t.resid, makeups := t.makeups, cpExpiries := t.cpExpiries, aonPeriod := t.aonPeriod, aonLocked := t.aonLocked,
    aonRemain := t.aonRemain, aonFrac := t.aonFrac, cpHw := t.cpHw }

/-- The fabric at a hub reset: what the profile gives stays (16 R552, 18 R616). -/
def Fab.hubReset (f : Fab) : Fab :=
  { wid := f.wid, role := f.role, hold := decide (f.role = 1), tidSeq := f.tidSeq }

/-- The CP and the service ports that wait on it. A USB COMMAND whose data stage has completed still waits (R618). -/
def State.resetCp (s : State) : State :=
  { s with cp := { seq := s.cp.seq, usbIn := s.cp.usbIn },
           ser := { s.ser with usbRun := none, uartBusy := false, rx := [], ep1 := none },
           msw := s.msw.map (fun m => { m with cmd := none }) }

/-- The units that a hub reset restarts (R594). -/
def State.resetHubUnits (s : State) : State :=
  let s := s.resetMioter.resetCp
  { s with pcie := { s.pcie.edge with devmemBase := 0, atsHit := 0, atsMiss := 0 },
           dens := s.dens.map (fun (p : Nat × Den) => (p.1, p.2.hubReset)),
           forager := {}, upds := [], lastDen := 31,
           hoard := { s.hoard with corr := 0, uncorr := 0, lastPort := [] },
           hbm := { s.hbm with stk := s.hbm.stk.map (fun (p : Nat × HbmStack) => (p.1, p.2.hubReset)) } }

/-- The parts of R594 that the fabric, the timers and the bring-up registers see. -/
def State.resetHubRest (s : State) (source : Nat) : State :=
  { s with ports := (List.range 24).foldl (fun m p => mset {} m p (mget ({} : Port) m p).hubReset) s.ports,
           fab := s.fab.hubReset, tim := s.tim.hubReset,
           boot := { s.boot with phase := .warmFlush, cpUp := false, warm := true, source := source, graceFault := none,
                                 t0Aon := s.pwr.aon, cpRel := 0, ready := 0 } }

/-- The bank that was running is checked again, then the other; a device in ROM recovery stays in it (R616). -/
def State.warmBank (s : State) : Option Nat :=
  if s.boot.mode = 2 then none
  else if s.bankOk s.boot.bank then some s.boot.bank
  else if s.bankOk (1 - s.boot.bank) then some (1 - s.boot.bank) else none

/-- A warm bring-up, once the flush has ended (R616). LIMP is left only at a cold bring-up (R613). -/
def State.warmStart (s : State) : State :=
  let mode := s.boot.mode
  let s := s.setBank s.warmBank
  let s := if s.boot.mode = 0 then
      State.bootRecord { s with boot := { s.boot with mode := if mode = 1 then 1 else 0, fails := min 15 s.ldg.bootFails } }
    else s
  let s := s.releaseCp.fillErrReset
  let s := if s.boot.mode = 2 then s else s.startLinks
  let s := { s with boot := { s.boot with phase := .warm } }
  if s.pcie.perst then s else s.trainPcie

/-- A hub reset with its SOURCE: RETAIN with CAUSE 2, the reset of the units, and the warm bring-up, which waits for the
flush (R594, R616, 05 R176). -/
def State.hubReset (s : State) (source : Nat) : State :=
  let s := if s.pwr.st = .limp then s else s.enterRetain 2
  let s := (s.resetHubUnits.resetHubRest source).makeup 0
  if s.hoard.flushActive then s else s.warmStart

/-- The reset of R592 for a DEVICE-class fault or an expiry of WDG_CP. In RETAIN through PERST# it is a hub reset too
(20 R676). -/
def State.deviceReset (s : State) (b : BootIn) (source : Nat) : State :=
  if (s.boot.phase = .complete ∨ s.boot.phase = .edge) ∧ s.boot.prof.retain then s.hubReset source else s.restart b source

/-- FLUSH_DONE (05 R175, 14 R469, 18 R616): the flush has ended. -/
def execFlushDone (s : State) : Host.Outcome State Fault Refusal :=
  .next (if s.hub ∧ s.hoard.flushActive then
    let s := s.flushAll
    let s := { s with hoard := { s.hoard with flushActive := false, flushDone := true, off := true },
                      pcie := { s.pcie with retFlushOk := true, retSt := 2 } }
    (if s.boot.phase = .warmFlush then s.warmStart else s).leaveRetain
  else s)

/-! ### PERST#, link loss, RETAIN timeout, power (R592, R608, 14 R465, R466, R472) -/

/-- RETAIN by PERST# or link loss; a device in HUSH wakes first, and a thermal stop becomes a hold of 17 R584. -/
def State.retainBy (s : State) (cause : Nat) : State :=
  match s.pwr.st with
  | .hush =>
    if s.pwr.thermal then
      let s := s.enterRetain cause
      { s with pwr := { s.pwr with thermHold := true } }
    else
      let s := State.startClocks { s with pwr := { s.pwr with st := .active, wakePend := none, heldTlps := [], heldReads := [] } }
      s.enterRetain cause
  | .standby =>
    if s.pwr.svcRun ∨ s.pwr.thermHold then s.enterRetain cause
    else (State.startClocks { s with pwr := { s.pwr with st := .active } }).enterRetain cause
  | .active | .retain => s.enterRetain cause
  | .limp | .off => s

/-- PERST_ASSERT (R592, R608). -/
def execPerstAssert (b : BootIn) (s : State) : Host.Outcome State Fault Refusal :=
  .next (
    if s.pwr.st = .off then { s with pcie := { s.pcie with perst := true } }
    else if s.boot.phase = .complete then
      if s.boot.prof.retain then
        let s := s.retainBy 0
        { s with pcie := { s.pcie.edge with perst := true }, boot := { s.boot with phase := .edge } }
      else State.restart { s with pcie := { s.pcie with perst := true } } b 3
    else { s with pcie := { s.pcie.edge with perst := true } })

/-- PERST_DEASSERT (R607): the link trains. A SERVICE_ONLY device keeps its link in Detect (R614). -/
def execPerstDeassert (s : State) : Host.Outcome State Fault Refusal :=
  .next (if s.pcie.perst then
    let s := { s with pcie := { s.pcie with perst := false } }
    if s.pwr.st = .off ∨ s.boot.mode = 3 then s else s.trainPcie
  else s)

/-- LINK_LOSS (14 R466): the Data Link Layer has left DL_Active for more than 2 ms. -/
def execLinkLoss (s : State) : Host.Outcome State Fault Refusal :=
  .next (if s.pcie.linkUp ∧ s.pwr.st ≠ .off then
    let s := { s with pcie := { s.pcie with linkUp := false } }
    if s.boot.phase ≠ .complete then s
    else if s.boot.prof.retain then s.retainBy 1
    else s.each (List.range 32) (fun s d => s.flrStart (d + 1))
  else s)

/-- Every held den is destroyed, and the device leaves RETAIN when the flush has ended (14 R472). -/
def State.scrubRetained (s : State) : State :=
  (s.each ((List.range 32).filter (fun d => s.pcie.retHeld.getLsbD d)) State.destroyDen).leaveRetain

/-- RETAIN_TIMEOUT (14 R472). -/
def execRetainTimeout (s : State) : Host.Outcome State Fault Refusal :=
  .next (if s.hub ∧ s.pwr.st = .retain ∧ s.pcie.retTo ≠ 0 then s.scrubRetained else s)

/-- POWER_LOSS (14 R472, 23 R749): the always-on rails fall. -/
def execPowerLoss (s : State) : Host.Outcome State Fault Refusal :=
  let s := s.fullReset true
  .next { s with pwr := { s.pwr with st := .off }, boot := { s.boot with phase := .off } }

/-! ### Watchdogs (20 R671 to R676) -/

/-- The grace begins: STATE GRACE with its 50 ms, and the fault and SOURCE of the reset that ends it. -/
def State.beginGrace (s : State) (cause source : Nat) : State :=
  { s with tim := { s.tim with cpSt := .grace, cpRemain := 50, cpFrac := 0 },
           boot := { s.boot with graceFault := some (cause, source) } }

/-- WDG_CP_EXPIRY (20 R673): the save trap, and the grace. -/
def execWdgCpExpiry (s : State) : Host.Outcome State Fault Refusal :=
  .next (if s.hub ∧ s.tim.cpSt = .running then
    let s := { s with tim := { s.tim with cpExpiries := satAdd s.tim.cpExpiries 1 } }
    (s.fault 0x0804 (mkLoc 11 0 none false 0)).beginGrace 0x0804 4
  else s)

/-- WDG_CP_GRACE_END (20 R673, 22 R736). -/
def execWdgCpGraceEnd (b : BootIn) (s : State) : Host.Outcome State Fault Refusal :=
  .next (match s.boot.graceFault with
    | some g => s.deviceReset b g.2
    | none => s)

/-- WDG_AON_EXPIRY (20 R675): a full reset in the next AONCLK cycle. -/
def execWdgAonExpiry (b : BootIn) (s : State) : Host.Outcome State Fault Refusal :=
  .next (if s.pwr.st = .off then s else s.restart b 2)

/-! ### DEN, DEVICE and FATAL faults (22 R734 to R737) -/

/-- LOCATION of a DEN-class fault (22 R719, R720). -/
def denFaultLoc (cause den index : Nat) : W64 :=
  if cause = 0x0701 then mkLoc 7 index (some den) false 0
  else if cause = 0x0702 then mkLoc 13 index (some den) false 0
  else mkLoc 11 0 (some den) false 0

/-- DEN_FAULT (22 R734, R735): RING_UNCORR, DESC_UNCORR or DEN_UNCORR in a den's state. -/
def execDenFault (cause den index : Nat) (s : State) : Host.Outcome State Fault Refusal :=
  .next (if s.hub ∧ den < 32 ∧ (s.den den).st ≠ .free ∧ 0x0701 ≤ cause ∧ cause ≤ 0x0703 then
    let s := (s.fault cause (denFaultLoc cause den index)).quiesce den
    if cause = 0x0702 then
      (if (s.table index).present ∧ (s.table index).den = den then s.dropTable index else s)
    else if cause = 0x0703 then s.modDen den (fun x => { x with uncorr := true })
    else s
  else s)

/-- DEVICE_FAULT (22 R736): trap, grace and reset; CP_UNCORR resets at once; one that falls into a grace changes
neither its end nor its reset. -/
def execDeviceFault (cause : Nat) (b : BootIn) (s : State) : Host.Outcome State Fault Refusal :=
  .next (if s.hub ∧ 0x0801 ≤ cause ∧ cause ≤ 0x0803 then
    let s := s.fault cause (mkLoc 11 0 none false 0)
    if s.tim.cpSt = .grace then s
    else if cause = 0x0801 then s.deviceReset b 5
    else s.beginGrace cause 5
  else s)

/-- A FATAL fault (22 R737): PLL_LOST writes its FAULT record directly, AON_UNCORR writes none; a full reset follows. -/
def State.fatal (s : State) (cause : Nat) (b : BootIn) : State :=
  let loc := mkLoc 11 0 none false 0
  let s := if cause = 0x0902 then
      s.writeDirect (s.mkRec 0x0F (toLe 1 4 ++ [0] ++ toLe 2 cause ++ toLe 8 loc.toNat)) else s
  s.restart b 6

/-- FATAL_FAULT (22 R737): AON_UNCORR in any powered state, PLL_LOST while the fast clocks run. -/
def execFatalFault (cause : Nat) (b : BootIn) (s : State) : Host.Outcome State Fault Refusal :=
  .next (if (cause = 0x0901 ∧ s.pwr.st ≠ .off) ∨ (cause = 0x0902 ∧ s.hub) then s.fatal cause b else s)

/-- PLL_LOST (22 R719, R737). -/
def execPllLost (b : BootIn) (s : State) : Host.Outcome State Fault Refusal :=
  .next (if s.hub then s.fatal 0x0902 b else s)

end Sys2Proof.Machine
end

