-- ==== Sys2Proof/Machine/TagTap.lean ====
section
/-!
DEFINITION. The Service tag with its wired updates and its RF side, and the TAP with the boundary register
(21 R703 to R717, 23 R756, R757).
-/

namespace Sys2Proof.Machine

/-- The Dormouse runs: the always-on rails are up (17 R556). -/
def State.aonUp (s : State) : Bool := decide (s.pwr.st ≠ .off) || s.pwr.thermtrip

/-! ### Banks and pointer (R705 to R708) -/

/-- Address of bank A (false) or B (true). -/
def bankAddr (b : Bool) : Nat := if b then 0x0A80 else 0x0080

/-- The CRC of a bank matches. -/
def Tag.bankOk (t : Tag) (b : Bool) : Bool :=
  decide (fld (memRead t.mem (bankAddr b) 16) 12 4 = (crc32c (memRead t.mem (bankAddr b + 16) 2544)).toNat)

/-- GEN of a bank. -/
def Tag.gen (t : Tag) (b : Bool) : Nat := fld (memRead t.mem (bankAddr b + 4) 4) 0 4

/-- The 4 bytes of a pointer block. -/
def pointerBlock (b : Bool) (gen : Nat) : Bytes :=
  let x := [if b then 0xB0 else 0xA0] ++ toLe 1 gen
  x ++ toLe 2 (crc32c x).toNat

/-- The bank that the pointer block names; with a wrong check, the bank with a valid CRC and the higher GEN (R706). -/
def Tag.active (t : Tag) : Bool :=
  let p := memRead t.mem 0x40 4
  if fld p 2 2 = (crc32c (p.take 2)).toNat % 65536 then decide (fld p 0 1 = 0xB0)
  else t.bankOk true && (!t.bankOk false || decide (t.gen false < t.gen true))

/-- One fault record of R708. -/
def faultSlot (r : LdgRec) (fw : W32) : Bytes :=
  let body := if r.ty = 0x0C then [0] ++ [0x0C] ++ padB 10 r.payload
    else sliceB r.payload 0 1 ++ toLe 1 r.ty ++ sliceB r.payload 2 10
  padB 64 (toLe 4 r.seq.toNat ++ toLe 4 r.lifeS.toNat ++ body ++ toLe 4 fw.toNat)

/-- A lifetime count of the tag, 2 bytes that stop at 0xFFFF. -/
def cap16 (n : Nat) : Nat := min n 0xFFFF

/-- Bank bytes 0x010 to 0x9FF (R707). -/
def State.bankBody (s : State) : Bytes :=
  let life (k : Nat) : Nat := mget 0 s.ldg.thermLife k
  let sum (i : Nat) : Nat := ((List.range 8).map (fun n => life (4 * n + i))).sum
  let tiles := ((List.range 256).filter (fun t => (s.tile t).fenced)).foldl (fun v t => v + 2 ^ t) 0
  toLe 4 s.boot.fwVersion.toNat ++ toLe 1 s.health ++ toLe 1 s.boot.mode ++ toLe 1 s.boot.profile ++ toLe 1 s.fab.wid ++
  toLe 4 s.ldg.hours.toNat ++ toLe 4 s.ldg.powerOns.toNat ++ toLe 2 s.tilesFenced ++ toLe 2 s.lanesFenced ++
  toLe 4 s.stripesRetired ++ toLe 2 (cap16 (sum 2)) ++ toLe 2 (cap16 (sum 3)) ++ toLe 2 (cap16 (life 66)) ++
  toLe 2 (cap16 (life 67)) ++ toLe 32 tiles ++ (List.range 24).map (fun p => (s.port p).fenced) ++
  toLe 4 s.ldg.headSeq.toNat ++ List.replicate 404 0 ++
  padB 2048 ((s.ldg.faults.take 32).flatMap (fun f => faultSlot f.1 f.2))

/-- The whole bank with its GEN (R707). -/
def State.composeBank (s : State) (gen : Nat) : Bytes :=
  let b := s.bankBody
  [0x42, 0x41, 0x4E, 0x4B] ++ toLe 4 gen ++ toLe 4 s.lifeS.toNat ++ toLe 4 (crc32c b).toNat ++ b

/-! ### Wired side (R709, R713, R714) -/

/-- TAG_UPDATE (R709, R713): the inactive bank is written, and the pointer block flips. An RF session that is active
now began after step 2 had begun: the flip is refused, counted and left for a retry. -/
def execTagUpdate (s : State) : Host.Outcome State Fault Refusal :=
  .next (if s.aonUp then
    let t := s.tag
    let b := !t.active
    let gen := t.gen t.active + 1
    let mem := memWrite t.mem (bankAddr b) (s.composeBank gen)
    let p := pointerBlock b gen
    { s with tag := if t.rf then { t with mem := mem, pending := some p, deferred := t.deferred + 1, due := false }
                    else { t with mem := memWrite mem 0x40 p, pending := none, due := false } }
  else s)

/-- TAG_FLIP_RETRY (R713). -/
def execTagFlipRetry (s : State) : Host.Outcome State Fault Refusal :=
  .next (match s.tag.pending with
    | some p =>
      if s.aonUp ∧ ¬ s.tag.rf then { s with tag := { s.tag with mem := memWrite s.tag.mem 0x40 p, pending := none } } else s
    | none => s)

/-- TECH_AREA_CHECK (R714): a technician area that differs from ACK is journaled, and its CRC is written to ACK. -/
def execTechAreaCheck (s : State) : Host.Outcome State Fault Refusal :=
  .next (if s.aonUp ∧ ¬ s.tag.rf then
    let c := (crc32c (memRead s.tag.mem 0x1F00 252)).toNat
    if c = fld (memRead s.tag.mem 0x1FFC 4) 0 4 then s
    else
      let s := s.record 0x10 (memRead s.tag.mem 0x1F00 256) none
      { s with tag := { s.tag with mem := memWrite s.tag.mem 0x1FFC (toLe 4 c) } }
  else s)

/-! ### RF side (R710 to R712) -/

/-- An RF session begins, unless one is active: the pointer block is latched (R712). -/
def State.rfBegin (s : State) : State :=
  if s.tag.rf then s
  else { s with tag := { s.tag with rf := true, latch := memRead s.tag.mem 0x40 4,
                                    sessions := if s.aonUp then s.tag.sessions + 1 else s.tag.sessions } }

/-- An answer of the tag: flags, and data. -/
def State.rfOk (s : State) (data : Bytes) : State := s.emit (.rf ([0] ++ data))

/-- An error answer with its code. -/
def State.rfErr (s : State) (code : Nat) : State := s.emit (.rf ([1] ++ toLe 1 code))

/-- One block as the RF side reads it: block 16 from the latch in a session (R712). -/
def Tag.block (t : Tag) (n : Nat) : Bytes := if n = 16 ∧ t.rf then padB 4 t.latch else memRead t.mem (4 * n) 4

/-- RF read of `count` blocks from `block`, with `limit` blocks known to the command (R710). -/
def State.rfRead (s : State) (limit block count : Nat) : State :=
  if 32 < count then s.rfErr 0x01
  else if limit < block + count then s.rfErr 0x10
  else s.rfOk ((List.range count).flatMap (fun i => s.tag.block (block + i)))

/-- RF write of a block (R711). -/
def State.rfWrite (s : State) (limit block : Nat) (data : Bytes) : State :=
  if limit ≤ block then s.rfErr 0x10
  else if block < 1984 ∨ (block = 2047 ∧ s.tag.ackHeld) then
    State.rfErr { s with tag := { s.tag with locked := if s.aonUp then s.tag.locked + 1 else s.tag.locked } } 0x12
  else State.rfOk { s with tag := { s.tag with mem := memWrite s.tag.mem (4 * block) (padB 4 data) } } []

/-- INVENTORY (R710, R712): no answer in the quiet state. -/
def execInventory (s : State) : Host.Outcome State Fault Refusal :=
  .next (if s.tag.quiet then s else s.rfBegin.rfOk ([0] ++ toLe 8 s.tag.uid.toNat))

/-- STAY_QUIET (R710): no answer is sent. -/
def execStayQuiet (s : State) : Host.Outcome State Fault Refusal :=
  .next { s with tag := { s.tag with quiet := true, selected := false } }

/-- SELECT (R710, R712). -/
def execSelect (s : State) : Host.Outcome State Fault Refusal :=
  .next (State.rfOk (State.rfBegin { s with tag := { s.tag with quiet := false, selected := true } }) [])

/-- RESET_TO_READY (R710). -/
def execResetToReady (s : State) : Host.Outcome State Fault Refusal :=
  .next (State.rfOk { s with tag := { s.tag with quiet := false, selected := false } } [])

/-- READ_SINGLE_BLOCK (R710). -/
def execReadSingleBlock (block : Nat) (s : State) : Host.Outcome State Fault Refusal := .next (s.rfRead 256 block 1)
/-- WRITE_SINGLE_BLOCK (R710, R711). -/
def execWriteSingleBlock (block : Nat) (data : Bytes) (s : State) : Host.Outcome State Fault Refusal :=
  .next (s.rfWrite 256 block data)
/-- READ_MULTIPLE_BLOCKS (R710). -/
def execReadMultipleBlocks (block count : Nat) (s : State) : Host.Outcome State Fault Refusal := .next (s.rfRead 256 block count)
/-- EXTENDED_READ_SINGLE (R710). -/
def execExtendedReadSingle (block : Nat) (s : State) : Host.Outcome State Fault Refusal := .next (s.rfRead 2048 block 1)
/-- EXTENDED_WRITE_SINGLE (R710, R711). -/
def execExtendedWriteSingle (block : Nat) (data : Bytes) (s : State) : Host.Outcome State Fault Refusal :=
  .next (s.rfWrite 2048 block data)
/-- EXTENDED_READ_MULTIPLE (R710). -/
def execExtendedReadMultiple (block count : Nat) (s : State) : Host.Outcome State Fault Refusal :=
  .next (s.rfRead 2048 block count)

/-- The answer of a system information command: UID, last block number, last byte number of a block (R710). -/
def State.rfInfo (s : State) (blocks width : Nat) : State :=
  s.rfOk ([0x04] ++ toLe 8 s.tag.uid.toNat ++ toLe width (blocks - 1) ++ [3])

/-- GET_SYSTEM_INFORMATION (R710): 256 blocks of 4 bytes. -/
def execGetSystemInformation (s : State) : Host.Outcome State Fault Refusal := .next (s.rfInfo 256 1)
/-- EXTENDED_GET_SYSTEM_INFO (R710): 2,048 blocks of 4 bytes. -/
def execExtendedGetSystemInfo (s : State) : Host.Outcome State Fault Refusal := .next (s.rfInfo 2048 2)

/-- RF_SESSION_END (R712). -/
def execRfSessionEnd (s : State) : Host.Outcome State Fault Refusal :=
  .next (if s.tag.rf then { s with tag := { s.tag with rf := false, latch := [], quiet := false, selected := false } } else s)

/-! ### TAP (23 R756, R757) -/

/-- The current instruction, when the TAP is powered. -/
def State.setInstr (s : State) (i : TapInstr) : State := if s.aonUp then { s with tap := { s.tap with instr := i } } else s

/-- The boundary cells take the covered balls until Test-Logic-Reset (23 R757). -/
def State.ownBalls (s : State) (i : TapInstr) : State :=
  if s.aonUp then { s with tap := { s.tap with instr := i, owned := true } } else s

/-- EXTEST (23 R757): the cells drive `cells`. -/
def execExtest (cells : W64) (s : State) : Host.Outcome State Fault Refusal :=
  .next (if s.aonUp then { s with tap := { instr := .extest, owned := true, boundary := cells } } else s)
/-- CLAMP (23 R757). -/
def execClamp (s : State) : Host.Outcome State Fault Refusal := .next (s.ownBalls .clamp)
/-- HIGHZ (23 R757). -/
def execHighz (s : State) : Host.Outcome State Fault Refusal := .next (s.ownBalls .highz)
/-- SAMPLE_PRELOAD (23 R756): the levels of the balls are captured and shifted out, and `cells` are loaded. -/
def execSamplePreload (balls cells : W64) (s : State) : Host.Outcome State Fault Refusal :=
  .next (if s.aonUp then
    State.emit { s with tap := { s.tap with instr := .samplePreload, boundary := cells } } (.jtag balls) else s)
/-- IDCODE (23 R756). -/
def execIdcode (s : State) : Host.Outcome State Fault Refusal :=
  .next (if s.aonUp then (s.setInstr .idcode).emit (.jtag 0x1D0605AB) else s)
/-- BYPASS (23 R756): the one-bit register captures 0. -/
def execBypass (s : State) : Host.Outcome State Fault Refusal :=
  .next (if s.aonUp then (s.setInstr .bypass).emit (.jtag 0) else s)
/-- TEST_LOGIC_RESET (23 R757): the functions return to the balls. -/
def execTestLogicReset (s : State) : Host.Outcome State Fault Refusal :=
  .next { s with tap := { s.tap with instr := .idcode, owned := false } }

end Sys2Proof.Machine
end

