-- ==== Sys2Proof/Machine/Host.lean ====
section
/-!
DEFINITION. The PCIe side: what arrives while the clocks are stopped, host reads and their translation, the rings'
doorbells and fetches, HEAD write-backs, MSI-X, Bus Master Enable and Function Level Reset (14, 17 R567).
-/

namespace Sys2Proof.Machine

/-! ### When the windows answer (R431, 17 R567, R571, 18 R607) -/

/-- Function `f` exists (R431). -/
def State.fnOk (s : State) (f : Nat) : Bool := decide (f = 0) || decide (f ≤ s.pcie.numVfs)

/-- The part is up and its PCIe edge is out of reset. -/
def State.edgeUp (s : State) (f : Nat) : Bool :=
  decide (s.boot.phase = .complete) && !s.pcie.perst && s.fnOk f

/-- A function's windows serve accesses: the hub runs, and the PF is in D0. -/
def State.winUp (s : State) (f : Nat) : Bool := s.edgeUp f && s.hub && decide (s.pwr.st ≠ .standby)

/-- The fast clocks are stopped in HUSH, or by a hold of 17 R584 in RETAIN: the PCIe edge holds what arrives (17 R567). -/
def State.asleep (s : State) : Bool :=
  decide (s.pwr.st = .hush) || (s.pwr.thermHold && decide (s.pwr.st = .retain))

/-- The HUSH is thermal, or the clocks are stopped by a hold of 17 R584. -/
def State.hotSleep (s : State) : Bool := s.pwr.thermal || s.pwr.thermHold

/-- Kinds of held TLP that are memory writes (17 R567). -/
def HeldKind.isWrite (k : HeldKind) : Bool :=
  match k with
  | .doorbell | .ctrl | .devmem => true
  | .lowRead | .devRead | .refused | .completion | .translation => false

/-- Append a TLP to those that the PCIe edge holds. -/
def State.hold (s : State) (t : HeldTlp) : State := { s with pwr := { s.pwr with heldTlps := s.pwr.heldTlps ++ [t] } }

/-- A memory write that arrives in HUSH: queued, up to 256; one that finds the queue full in a thermal HUSH is discarded
and counted (17 R567). -/
def State.holdWrite (s : State) (k : HeldKind) (fn off : Nat) (data : Bytes) : State :=
  if ((s.pwr.heldTlps.filter (fun (t : HeldTlp) => t.kind.isWrite)).length < 256) then
    (s.hold { kind := k, fn := fn, off := off, len := data.length, data := data }).wakeReq 1
  else if s.hotSleep then { s with pwr := { s.pwr with wdrop := satAdd s.pwr.wdrop 1, dropped := true } }
  else s

/-- A memory read that arrives in HUSH: refused in a thermal one, held in the other (17 R567). -/
def State.holdRead (s : State) (k : HeldKind) (fn off len : Nat) : State :=
  if s.hotSleep then { s with pwr := { s.pwr with heldReads := s.pwr.heldReads ++ [fn] } }
  else (s.hold { kind := k, fn := fn, off := off, len := len }).wakeReq 2

/-- A memory write to a window: served as `f`, or held. -/
def State.memWrite (s : State) (k : HeldKind) (fn off : Nat) (data : Bytes) (f : State → State) : State :=
  if s.asleep ∧ s.edgeUp fn then s.holdWrite k fn off data else if s.winUp fn then f s else s

/-- A memory read of a window: served as `f`, or held. -/
def State.memRead (s : State) (k : HeldKind) (fn off len : Nat) (f : State → State) : State :=
  if s.asleep ∧ s.edgeUp fn then s.holdRead k fn off len else if s.winUp fn then f s else s

/-- Den of a function, when it is a VF. -/
def fnDen (f : Nat) : Option Nat := if f = 0 then none else some (f - 1)

/-- An access refused in window `w` of function `fn`: 0 CTRL, 1 DOORBELL, 2 DEVMEM (00 R20, R21, 22 R720). -/
def State.accessFault (s : State) (cause fn w off : Nat) : State :=
  s.fault cause (mkLoc 8 (fn + 256 * w) (fnDen fn) false (off / 128))

/-! ### Host reads and their translation (R430, R454, R455) -/

/-- Cut a read into requests of at most 4 KiB that cross no 4 KiB boundary (R430): address, place and length. -/
def hostPieces (fuel addr off len : Nat) : List (Nat × Nat × Nat) :=
  match fuel with
  | 0 => []
  | k + 1 =>
    if len = 0 then []
    else
      let n := min len (4096 - addr % 4096)
      (addr, off, n) :: hostPieces k (addr + n) (off + n) (len - n)

/-- The cache entry that translates an address of a function with the permission needed (R455). -/
def Pcie.lookup (p : Pcie) (f addr : Nat) (write : Bool) : Option AtsEntry :=
  p.ats.find? (fun e => e.fn == f && addr / 2 ^ e.log2 == e.iova / 2 ^ e.log2 && (if write then e.w else e.r))

/-- The address that an entry gives. -/
def AtsEntry.apply (e : AtsEntry) (addr : Nat) : Nat := e.target + addr % 2 ^ e.log2

/-- The smallest tag that no outstanding read holds. -/
def Pcie.freeTag (p : Pcie) : Nat :=
  match (List.range 16384).find? (fun t => p.reads.all (fun r => r.tag != t)) with
  | some t => t
  | none => 0

/-- The read request leaves. -/
def State.sendRead (s : State) (x : PendXlate) (addr : Nat) : State :=
  let t := s.pcie.freeTag
  let r : HostRead := { tag := t, fn := x.fn, issuer := x.issuer, addr := x.addr, len := x.len, off := x.off, total := x.total }
  State.emit { s with pcie := { s.pcie with reads := s.pcie.reads ++ [r] } } (.hostRead t x.fn addr x.len)

/-- A posted write leaves, and counts as PCIE_UP of its den (13 R418). -/
def State.sendWrite (s : State) (f addr : Nat) (data : Bytes) : State :=
  let s := s.emit (.hostWrite f addr data)
  if f = 0 then s else s.count (f - 1) cPcieUp data.length

/-- An access is translated or not, and leaves or waits for its translation (R455). -/
def State.translate (s : State) (x : PendXlate) : State :=
  if (s.fn x.fn).ats then
    match s.pcie.lookup x.fn x.addr x.write with
    | some e =>
      let s := { s with pcie := { s.pcie with atsHit := s.pcie.atsHit + 1 } }
      if x.write then s.sendWrite x.fn (e.apply x.addr) x.data else s.sendRead x (e.apply x.addr)
    | none =>
      State.emit { s with pcie := { s.pcie with atsMiss := s.pcie.atsMiss + 1, xlate := s.pcie.xlate ++ [x] } }
        (.xlateReq x.fn (x.addr / 4096 * 4096))
  else if x.write then s.sendWrite x.fn x.addr x.data else s.sendRead x x.addr

/-- Non-posted requests outstanding. -/
def Pcie.outstanding (p : Pcie) : Nat := p.reads.length + p.xlate.length

/-- An access goes out, or waits for a tag: at most 4,096 non-posted requests are outstanding (R430). -/
def State.issueAcc (s : State) (x : PendXlate) : State :=
  if s.pcie.outstanding < 4096 ∧ s.pcie.waiting.isEmpty then s.translate x
  else { s with pcie := { s.pcie with waiting := s.pcie.waiting ++ [x] } }

/-- A host read of `len` bytes at an IOVA, under the requester id of function `f`. -/
def State.issueRead (s : State) (f : Nat) (iss : Issuer) (addr len : Nat) : State :=
  (hostPieces (len / 4096 + 2) addr 0 len).foldl (fun s p =>
    s.issueAcc { fn := f, issuer := iss, addr := p.1, len := p.2.2, off := p.2.1, total := len }) s

/-- A posted host write of a tile or a stream (R40, R454). -/
def State.issueWrite (s : State) (f : Nat) (iss : Issuer) (addr : Nat) (data : Bytes) : State :=
  (hostPieces (data.length / 4096 + 2) addr 0 data.length).foldl (fun s p =>
    let x : PendXlate := { fn := f, issuer := iss, addr := p.1, len := p.2.2, off := p.2.1, total := data.length, write := true,
                           data := sliceB data p.2.1 p.2.2 }
    if (s.fn f).ats then s.issueAcc x else s.translate x) s

/-- Tags have become free: what waits goes out, in order. -/
def State.drainWaiting (s : State) (fuel : Nat) : State :=
  match fuel with
  | 0 => s
  | k + 1 =>
    match s.pcie.waiting with
    | [] => s
    | x :: rest =>
      if s.pcie.outstanding < 4096 then
        (State.translate { s with pcie := { s.pcie with waiting := rest } } x).drainWaiting k
      else s

/-- Everything that waits and can go out does. -/
def State.drainAll (s : State) : State := s.drainWaiting s.pcie.waiting.length

/-- Requests of an issuer still under way for bytes below `off`. -/
def Pcie.before (p : Pcie) (iss : Issuer) (off : Nat) : Bool :=
  p.reads.any (fun r => r.issuer == iss && !r.discard && decide (r.off < off)) ||
  p.xlate.any (fun x => x.issuer == iss && !x.write && decide (x.off < off)) ||
  p.waiting.any (fun x => x.issuer == iss && !x.write && decide (x.off < off))

/-- The bytes that have arrived from the start of the block on, without a gap. -/
def partPrefix (fuel : Nat) (got : List (Nat × Bytes)) (off : Nat) : Bytes :=
  match fuel with
  | 0 => []
  | k + 1 =>
    match got.find? (fun p => p.1 == off && !p.2.isEmpty) with
    | some p => p.2 ++ partPrefix k got (off + p.2.length)
    | none => []

/-- What the end of one request of a block brings about: the block whole, the block failed with the bytes that arrived
before the failure, or nothing yet. -/
inductive BlockEnd where
  | open
  | whole (data : Bytes)
  | failed (why : HostFail) (before : Bytes)
  deriving DecidableEq, Repr

/-- One request of a block ends: its bytes, or why it failed. -/
def State.endPiece (s : State) (iss : Issuer) (off total : Nat) (r : Sum Bytes HostFail) : BlockEnd × State :=
  let x : HostPart := match s.pcie.parts.find? (fun p => p.issuer == iss) with
    | some p => p
    | none => { issuer := iss }
  let x : HostPart := match r with
    | .inl b => { x with got := x.got ++ [(off, b)] }
    | .inr w =>
      (match x.fail with
       | some f => if off < f.1 then { x with fail := some (off, w) } else x
       | none => { x with fail := some (off, w) })
  let rest := s.pcie.parts.filter (fun (p : HostPart) => p.issuer != iss)
  let pre := partPrefix (x.got.length + 1) x.got 0
  match x.fail with
  | some f =>
    if s.pcie.before iss f.1 then (.open, { s with pcie := { s.pcie with parts := x :: rest } })
    else (.failed f.2 pre, State.cancelReads { s with pcie := { s.pcie with parts := rest } } (fun i => i == iss))
  | none =>
    if total ≤ pre.length then (.whole (pre.take total), { s with pcie := { s.pcie with parts := rest } })
    else (.open, { s with pcie := { s.pcie with parts := x :: rest } })

/-- A function's FLR that waits ends when no host read of it is outstanding (R463 step 2). -/
def State.drained (s : State) (f : Nat) : State :=
  if (s.fn f).draining ∧ (s.readsOf f).isEmpty then s.flrFinish f else s

/-- A completion, or its timeout, frees the tag; one that comes after the FLR of its function ended counts in LATECPL,
and one that is discarded has no further effect (R459, R461, R463). `none` = nothing more to do. -/
def State.takeRead (s : State) (tag : Nat) (arrived : Bool) : Option HostRead × State :=
  match s.pcie.reads.find? (fun r => r.tag == tag) with
  | none => (none, s)
  | some r =>
    let s := { s with pcie := { s.pcie with reads := s.pcie.reads.filter (fun (x : HostRead) => x.tag != tag) } }
    let s := if r.late ∧ arrived then s.modFn r.fn (fun x => { x with latecpl := satAdd x.latecpl 1 }) else s
    let s := (s.drained r.fn).drainAll
    if r.discard ∨ r.late then (none, s) else (some r, s)

/-! ### Rings (R438 to R449) -/

/-- Submission rings of a function. -/
def isSubmission (id : Nat) : Bool := decide (id ≤ 7) || decide (16 ≤ id ∧ id ≤ 23) || id == 25 || id == 26

/-- Location of a fault of ring `id` of function `f` (22 R720). -/
def ringLoc (f id detail : Nat) : W64 := mkLoc 7 id (fnDen f) false detail

/-- Write HEAD to RING_WB (R446). -/
def State.writeBack (s : State) (k : Nat) : State :=
  let r := s.ring k
  if r.wbDue ∧ (s.fn (k / 32)).bme then
    (s.hostWrite (k / 32) r.wb.toNat (toLe 4 r.head.toNat ++ [0, 0, 0, 0])).modRing k (fun x => { x with wbDue := false })
  else s

/-- HEAD advances over the entry at the front (R446). -/
def Ring.pop (r : Ring) : Ring :=
  { r with head := r.head + 1, entries := r.entries.drop 1, wbDue := r.wbDue || r.wb != 0 }

/-- Lost entries at the front are taken without a reservation (R442). -/
def Ring.skipLost (r : Ring) (fuel : Nat) : Ring :=
  match fuel with
  | 0 => r
  | k + 1 => if r.entries.head? = some .lost then r.pop.skipLost k else r

/-- Place of the first entry that is announced and whose read has not been issued. -/
def announcedFrom (l : List RingEntry) (i : Nat) : Option Nat :=
  match l with
  | [] => none
  | .announced :: _ => some i
  | _ :: rest => announcedFrom rest (i + 1)

/-- Length of the run of announced entries at the front of a list. -/
def announcedRun (l : List RingEntry) : Nat :=
  match l with
  | .announced :: rest => announcedRun rest + 1
  | _ => 0

/-- Mark `n` entries from place `i` on. -/
def markEntries (l : List RingEntry) (i n : Nat) (e : RingEntry) : List RingEntry :=
  l.take i ++ List.replicate (min n (l.length - i)) e ++ l.drop (i + n)

/-- Issue the reads of announced entries: each of at most 4 KiB, ending at a multiple of 64 slots (R441, R430). -/
def State.fetchRing (s : State) (fuel k : Nat) : State :=
  match fuel with
  | 0 => s
  | f + 1 =>
    let r := s.ring k
    match announcedFrom r.entries 0 with
    | none => s
    | some i =>
      let slot := (r.head.toNat + i) % r.n
      let n := min (announcedRun (r.entries.drop i)) (min (64 - slot % 64) (r.n - slot))
      let first := (r.head + BitVec.ofNat 32 i).toNat
      let s := s.modRing k (fun x => { x with entries := markEntries x.entries i n .fetching })
      (s.issueRead (k / 32) (.ring k first n) (r.base.toNat + slot * 64) (n * 64)).fetchRing f k

/-- An inline entry that was written to its host slot is read back when it reaches the front (R443). -/
def State.readBack (s : State) (k : Nat) : State :=
  let r := s.ring k
  if r.entries.head? = some .inHost then
    let slot := r.head.toNat % r.n
    let s := s.modRing k (fun x => { x with entries := markEntries x.entries 0 1 .fetching })
    s.issueRead (k / 32) (.ring k r.head.toNat 1) (r.base.toNat + slot * 64) 64
  else s

/-- After any change of a submission ring: lost entries at the front go, reads go out, and HEAD is written back at once
when the ring has become empty (R441 to R443, R446). While Bus Master Enable is clear no entry is read (R461). -/
def State.kickRing (s : State) (k : Nat) : State :=
  let s := s.modRing k (fun x => x.skipLost x.entries.length)
  let s := if (s.fn (k / 32)).bme then (s.fetchRing (s.ring k).entries.length k).readBack k else s
  if (s.ring k).entries.isEmpty then s.writeBack k else s

/-- The entry at the front of a submission ring, when its bytes are on the device. -/
def State.ringFront (s : State) (k : Nat) : Option Bytes :=
  match (s.ring k).entries with
  | .held b _ :: _ => some b
  | _ => none

/-- The entry at the front is taken: HEAD advances (R446). -/
def State.takeFront (s : State) (k : Nat) : State := (s.modRing k Ring.pop).kickRing k

/-- The entries of a read have arrived: they are placed in the ring in their order (R441). -/
def placeEntries (l : List RingEntry) (i : Nat) (data : Bytes) (n : Nat) : List RingEntry :=
  (List.range n).foldl (fun l j =>
    match l[i + j]? with
    | some .fetching => l.set (i + j) (.held (sliceB data (64 * j) 64) false)
    | _ => l) l

/-- A read of ring entries is over. -/
def State.ringRead (s : State) (k first n : Nat) (r : Sum Bytes HostFail) : State :=
  let i := (BitVec.ofNat 32 first - (s.ring k).head).toNat
  match r with
  | .inl data => (s.modRing k (fun x => { x with entries := placeEntries x.entries i data n })).kickRing k
  | .inr _ =>
    let s := s.modRing k (fun x => { x with entries := markEntries x.entries i n .lost })
    (s.fault 0x020B (ringLoc (k / 32) (k % 32) first)).kickRing k

/-! ### Doorbells (R435, R441, R443, R444, R447) -/

/-- What an offset of a DOORBELL window names (R435). -/
inductive DbArea where
  | inline (id : Nat)
  | tail (id : Nat)
  | head (id : Nat)
  | hole
  deriving DecidableEq, Repr

/-- Submission and completion ring of slot `j` (R435, R438). -/
def dbArea (fn off : Nat) : DbArea :=
  let j := off / 2048
  let o := off % 2048
  let sub : Option Nat := if j ≤ 7 then some j else if j ≤ 15 then (if fn = 0 then none else some (j + 8))
    else if j ≤ 17 then (if fn = 0 then none else some (j + 9)) else none
  if j = 18 then
    (if 0x48 ≤ o ∧ o < 0x50 ∧ fn ≠ 0 then .head 24 else if 0x50 ≤ o ∧ o < 0x58 then .head 29 else .hole)
  else
    match sub with
    | none => .hole
    | some id =>
      if o < 0x40 then .inline id
      else if o < 0x48 then .tail id
      else if o < 0x50 then
        (if id ≤ 7 then .head (id + 8) else if id = 25 ∨ id = 26 then .head (id + 2) else .hole)
      else .hole

/-- A doorbell is discarded and logged (R444). -/
def State.dbDrop (s : State) (fn id cause : Nat) : State :=
  (s.fault cause (ringLoc fn id 0)).modFn fn (fun x => { x with dbdrop := satAdd x.dbdrop 1 })

/-- DB_OFF: the ring is disabled, or the den is not ACTIVE or is held. The command, reply and event rings of a held den stay
open: its VF issues ATTACH, as in the host crash that 14 works through (R468, R469) (DEDUCED). -/
def State.dbOff (s : State) (fn id : Nat) : Bool :=
  !(s.ring (32 * fn + id)).en ||
    (decide (fn ≠ 0) && (decide ((s.den (fn - 1)).st ≠ .active) ||
      (s.pcie.retHeld.getLsbD (fn - 1) && decide (16 ≤ id ∧ id ≤ 28))))

/-- An inline descriptor becomes entry TAIL (R443). -/
def State.putInline (s : State) (fn id : Nat) (data : Bytes) : State :=
  let k := 32 * fn + id
  let r := s.ring k
  let full := decide (16 ≤ (r.entries.filter (fun e => match e with
    | .held _ true => true
    | _ => false)).length)
  let s := if full then s.hostWrite fn (r.base.toNat + r.tail.toNat % r.n * 64) data else s
  let e : RingEntry := if full then .inHost else .held data true
  (s.modRing k (fun x => { x with tail := x.tail + 1, entries := x.entries ++ [e] })).kickRing k

/-- An inline doorbell (R443, R444). -/
def State.inlineWrite (s : State) (fn id off : Nat) (data : Bytes) : State :=
  let r := s.ring (32 * fn + id)
  if data.length ≠ 64 ∨ off % 2048 ≠ 0 then s.dbDrop fn id 0x0204
  else if s.dbOff fn id then s.dbDrop fn id 0x0205
  else if r.n ≤ r.used then s.dbDrop fn id 0x0206
  else s.putInline fn id data

/-- A tail doorbell (R441, R444). -/
def State.tailWrite (s : State) (fn id off : Nat) (data : Bytes) : State :=
  let k := 32 * fn + id
  let r := s.ring k
  let t := BitVec.ofNat 32 (fld data 0 4)
  let n := (t - r.tail).toNat
  if (data.length ≠ 4 ∧ data.length ≠ 8) ∨ off % 2048 ≠ 0x40 then s.dbDrop fn id 0x0204
  else if s.dbOff fn id then s.dbDrop fn id 0x0205
  else if r.n - r.used < n then s.dbDrop fn id 0x0206
  else (s.modRing k (fun x => { x with tail := t, entries := x.entries ++ List.replicate n .announced })).kickRing k

/-- A slot of EVQ has become free: EV_LOST is posted first (R449). -/
def State.postLost (s : State) (f : Nat) : State :=
  let n := (s.fn f).evlostSince
  if n = 0 then s
  else
    let p := s.postEvent f 5 (match fnDen f with
      | some d => d
      | none => 0xFF) (toLe 4 (min n (2 ^ 32 - 1)))
    if p.1 then p.2.modFn f (fun x => { x with evlostSince := 0 }) else s

/-- A HEAD doorbell of a completion ring (R444, R447). -/
def State.headWrite (s : State) (fn id off : Nat) (data : Bytes) : State :=
  let k := 32 * fn + id
  let r := s.ring k
  let h := BitVec.ofNat 32 (fld data 0 4)
  if (data.length ≠ 4 ∧ data.length ≠ 8) ∨ off % 8 ≠ 0 then s.dbDrop fn id 0x0204
  else if s.dbOff fn id then s.dbDrop fn id 0x0205
  else if r.used < (h - r.head).toNat then s.fault 0x0207 (ringLoc fn id 0)
  else
    let s := s.modRing k (fun x => { x with head := h })
    if id = 29 then s.postLost fn else s

/-- A write to a DOORBELL window. -/
def State.doorbell (s : State) (fn off : Nat) (data : Bytes) : State :=
  match dbArea fn off with
  | .inline id => s.inlineWrite fn id off data
  | .tail id => s.tailWrite fn id off data
  | .head id => s.headWrite fn id off data
  | .hole => s.accessFault 0x0201 fn 1 off

/-- The offset belongs to an inline doorbell, or names nothing. -/
def DbArea.takesInline (a : DbArea) : Bool :=
  match a with
  | .inline _ | .hole => true
  | _ => false

/-- The offset belongs to a tail doorbell. -/
def DbArea.isTail (a : DbArea) : Bool :=
  match a with
  | .tail _ => true
  | _ => false

/-- The offset belongs to a HEAD doorbell. -/
def DbArea.isHead (a : DbArea) : Bool :=
  match a with
  | .head _ => true
  | _ => false

/-- INLINE_DOORBELL (R443, R444, 01 R27): a write to an INLINE area of a DOORBELL window, or to an offset that names
nothing. -/
def execInlineDoorbell (fn off : Nat) (data : Bytes) (s : State) : Host.Outcome State Fault Refusal :=
  .next (if (dbArea fn off).takesInline then s.memWrite .doorbell fn off data (fun s => s.doorbell fn off data) else s)

/-- TAIL_DOORBELL (R441, R444). -/
def execTailDoorbell (fn off : Nat) (data : Bytes) (s : State) : Host.Outcome State Fault Refusal :=
  .next (if (dbArea fn off).isTail then s.memWrite .doorbell fn off data (fun s => s.doorbell fn off data) else s)

/-- CQ_HEAD_DOORBELL (R447, R449). -/
def execCqHeadDoorbell (fn off : Nat) (data : Bytes) (s : State) : Host.Outcome State Fault Refusal :=
  .next (if (dbArea fn off).isHead then s.memWrite .doorbell fn off data (fun s => s.doorbell fn off data) else s)

/-- HEAD_WRITE_BACK (R446): within 1 µs of an advance. -/
def execHeadWriteBack (ring : Nat) (s : State) : Host.Outcome State Fault Refusal :=
  .next (if s.hub then s.writeBack ring else s)

/-! ### MSI-X (R453) -/

/-- Vectors of a function: 64 on the PF, 24 on a VF (R430). -/
def vectors (f : Nat) : Nat := if f = 0 then 64 else 24

/-- Clear a vector's mask; its message leaves when its pending bit is set, unless Bus Master Enable is clear (R453, R461). -/
def State.unmask (s : State) (f v : Nat) : State :=
  let e := mget {} (s.fn f).msix v
  if e.pending ∧ (s.fn f).bme then
    (s.modFn f (fun x => { x with msix := mset {} x.msix v { e with masked := false, pending := false } })).emit
      (.msix f v e.addr e.data)
  else s.modFn f (fun x => { x with msix := mset {} x.msix v { e with masked := false } })

/-- MSIX_UNMASK (R453). -/
def execMsixUnmask (fn vec : Nat) (s : State) : Host.Outcome State Fault Refusal :=
  .next (if s.winUp fn ∧ vec < vectors fn then s.unmask fn vec else s)

/-! ### Bus Master Enable (R461, R462) -/

/-- The bytes of an unfinished block that have arrived from its start on. -/
def State.arrived (s : State) (iss : Issuer) : Bytes :=
  match s.pcie.parts.find? (fun p => p.issuer == iss) with
  | some x => partPrefix (x.got.length + 1) x.got 0
  | none => []

/-- An issuer whose read will be discarded: a task aborts with HOST_REVOKED, a request with its feature block likewise,
a record block and a command end with HOST_ACCESS_REVOKED, and ring entries are read again (R461, 07 R236, 15 R481). -/
def State.revoke (s : State) (iss : Issuer) : State :=
  match iss with
  | .ring k _ _ => s.modRing k (fun x => { x with entries := x.entries.map (fun e => if e = .fetching then .announced else e) })
  | .tile t _ => s.tileFault t 0x11 0 0 false false
  | .stream t _ _ _ => s.tileFault t 0x11 0 0 false false
  | .feature r => s.startAbort r 0x0B false
  | .block d r => (s.setUpd d r ((s.upd d r).map (fun u =>
      if u.readEnded then u else { u with block := u.block ++ s.arrived iss, readEnded := true, failed := some 0x0B })))
  | .cmd i => s.modCmd i (fun c => { c with got := true, fail := some 0x0B })

/-- Issuers of a function that wait for host data. -/
def Pcie.issuers (p : Pcie) (f : Nat) : List Issuer :=
  ((p.reads.filter (fun r => r.fn == f && !r.discard)).map HostRead.issuer ++
   ((p.xlate ++ p.waiting).filter (fun x => x.fn == f)).map PendXlate.issuer).eraseDups

/-- Bus Master Enable of a function is cleared (R461). -/
def State.bmeClear (s : State) (f : Nat) : State :=
  let l := s.pcie.issuers f
  let s := s.modFn f (fun x => { x with bme := false })
  let s := { s with pcie := { s.pcie with
      reads := s.pcie.reads.map (fun (r : HostRead) => if r.fn = f then { r with discard := true } else r),
      xlate := s.pcie.xlate.filter (fun (x : PendXlate) => x.fn != f),
      waiting := s.pcie.waiting.filter (fun (x : PendXlate) => x.fn != f) } }
  let s := l.foldl State.revoke s
  { s with pcie := { s.pcie with parts := s.pcie.parts.filter (fun (x : HostPart) => !(l.contains x.issuer)) } }

/-- BME_CLEAR (R461). -/
def execBmeClear (fn : Nat) (s : State) : Host.Outcome State Fault Refusal :=
  .next (if s.edgeUp fn then s.bmeClear fn else s)

/-- Post the entries held for a function, in order; one whose ring has been disabled is dropped (R462). -/
def State.postHeld (s : State) (f : Nat) : State :=
  let l := (s.fn f).held
  let s := s.modFn f (fun x => { x with held := [] })
  l.foldl (fun s h => s.pushEntry h.ring h.bytes h.vec) s

/-- Messages that unmasked vectors have kept pending while Bus Master Enable was clear. -/
def State.postVectors (s : State) (f : Nat) : State :=
  ((s.fn f).msix.filter (fun (p : Nat × MsixEntry) => p.2.pending && !p.2.masked)).foldl (fun s p => s.unmask f p.1) s

/-- The host's configuration as it stands when Bus Master Enable is set: VFs and BAR sizes can change only while VF
Enable is clear (R430 to R432). -/
def Pcie.configure (p : Pcie) (c : PcieCfg) : Pcie :=
  let okSize (n old : Nat) : Nat := if [4, 8, 16, 32, 64, 128, 256, 512].contains n then n else old
  if p.numVfs = 0 then
    { p with numVfs := min 32 c.numVfs, devmemPf := okSize c.devmemPf p.devmemPf, devmemVf := okSize c.devmemVf p.devmemVf }
  else { p with devmemPf := okSize c.devmemPf p.devmemPf }

/-- Bus Master Enable of a function is set (R462). -/
def State.bmeSet (s : State) (f : Nat) (ats : Bool) : State :=
  let s := s.modFn f (fun x => { x with bme := true, ats := ats })
  let s := { s with pcie := { s.pcie with linkUp := true, noflit := false, crs := false } }
  let s := (s.postHeld f).postVectors f
  s.each ((List.range 32).filter isSubmission) (fun s id => s.kickRing (32 * f + id))

/-- BME_SET (R462). -/
def execBmeSet (fn : Nat) (cfg : PcieCfg) (s : State) : Host.Outcome State Fault Refusal :=
  .next (
    let s1 : State := { s with pcie := s.pcie.configure cfg }
    if s1.edgeUp fn ∧ fn ≤ 32 then s1.bmeSet fn cfg.ats else s)

/-! ### Function Level Reset (R463 to R465) -/

/-- VF Enable is cleared: R463 runs on every den, and no VF is left (R465). -/
def State.vfClear (s : State) : State :=
  let s := s.each (List.range 32) (fun s d => s.flrStart (d + 1))
  { s with pcie := { s.pcie with numVfs := 0 } }

/-- An FLR of the PF: VF Enable is cleared, and the PF's own rings and replies go (R465). -/
def State.pfFlr (s : State) : State := s.vfClear.flrStart 0

/-- FLR (R463, R465). -/
def execFlr (fn : Nat) (s : State) : Host.Outcome State Fault Refusal :=
  .next (if s.edgeUp fn ∧ fn ≤ 32 then (if fn = 0 then s.pfFlr else s.flrStart fn) else s)

/-- VF_ENABLE_CLEAR (R465): by a configuration write, or by an FLR of the PF. -/
def execVfEnableClear (byFlr : Bool) (s : State) : Host.Outcome State Fault Refusal :=
  .next (if s.edgeUp 0 then (if byFlr then s.pfFlr else s.vfClear) else s)

/-- Step 2 of R463 ends after 10 ms: later completions are counted and dropped. -/
def State.drainEnd (s : State) (f : Nat) : State :=
  State.flrFinish { s with pcie := { s.pcie with
    reads := s.pcie.reads.map (fun (r : HostRead) => if r.fn = f then { r with discard := true, late := true } else r) } } f

/-- FLR_DRAIN_TIMEOUT (R463). -/
def execFlrDrainTimeout (fn : Nat) (s : State) : Host.Outcome State Fault Refusal :=
  .next (if (s.fn fn).draining then s.drainEnd fn else s)

/-- ATS_INVALIDATE (R456): every request that has a translation has been sent, so the Invalidate Completion follows. -/
def execAtsInvalidate (fn itag iova log2 : Nat) (s : State) : Host.Outcome State Fault Refusal :=
  .next (if s.edgeUp fn ∧ (s.fn fn).ats then
    let hits (e : AtsEntry) : Bool := e.fn == fn && decide (e.iova / 2 ^ e.log2 * 2 ^ e.log2 < iova / 2 ^ log2 * 2 ^ log2 + 2 ^ log2) &&
      decide (iova / 2 ^ log2 * 2 ^ log2 < e.iova / 2 ^ e.log2 * 2 ^ e.log2 + 2 ^ e.log2)
    State.emit { s with pcie := { s.pcie with ats := s.pcie.ats.filter (fun e => !(hits e)) } } (.invalDone fn itag)
  else s)

end Sys2Proof.Machine
end

