-- ==== Sys2Proof/Machine/Pool.lean ====
section
/-!
DEFINITION. Table rows and pooling: the owner functions, the elements of a row, pooling a bag under its mode, and writing
a bag's output into the SRAM of its tile (01 R34, 04 R122 to R139, 05 R169 to R171).
-/

namespace Sys2Proof.Machine

/-! ### Rows (R122 to R125, R134) -/

/-- The shard index of a row of a ROW table, and its local row there (R122). -/
def Table.owner (t : Table) (row : Nat) : Nat × Nat :=
  let n := t.shards + 1
  if t.range then
    let k := ((List.range n).filter (fun k => decide (t.bounds.getD k 0 ≤ row))).length - 1
    (k, row - t.bounds.getD k 0)
  else (row % n, row / n)

/-- Warren id of shard `k`. -/
def Table.shardId (t : Table) (k : Nat) : Nat := t.shardIds.getD k 0

/-- This device's own shard index, when it is in the shard list. -/
def Table.ownShard (t : Table) (wid : Nat) : Option Nat := (List.range (t.shards + 1)).find? (fun k => t.shardId k == wid)

/-- Rows that this device holds (R121, R122): LOCAL and COL hold every row. -/
def Table.localRows (t : Table) (wid : Nat) : Nat :=
  if t.layout = 1 then
    match t.ownShard wid with
    | none => 0
    | some k =>
      if t.range then (if k = t.shards then t.rows else t.bounds.getD (k + 1) 0) - t.bounds.getD k 0
      else (t.rows + t.shards - k) / (t.shards + 1)
  else if t.layout = 2 ∧ (t.ownShard wid).isNone then 0
  else t.rows

/-- Element `k` of a stored row, widened to FP32 and multiplied by ROW_SCALE (R134, 02 R54, R55). -/
def Table.elem (t : Table) (row : Bytes) (k : Nat) : W32 :=
  let raw := elemAt t.fmt row k
  let x : W32 := if isMx t.fmt then
      (match ffmtOf t.fmt with
       | some f => mxWiden f raw (byteAt row (packedBytes t.fmt t.elems + k / 32)).toNat
       | none => 0)
    else if isIntFmt t.fmt then rndF32 (fofInt (widenElem t.fmt raw).toInt)
    else widenElem t.fmt raw
  if t.rowScale = 0x3F800000#32 then x else f32mul x t.rowScale

/-- The elements of a stored row. -/
def Table.rowVals (t : Table) (row : Bytes) : List W32 := (List.range t.elems).map (fun k => t.elem row k)

/-! ### Pooling (R134, R135, R138, R139) -/

/-- A vector of zeros. -/
def zeros (n : Nat) : List W32 := List.replicate n 0

/-- Element-wise maximum of a list of vectors. -/
def maxVecs (n : Nat) (l : List (List W32)) : List W32 :=
  match l with
  | [] => zeros n
  | v :: rest => rest.foldl (fun a b => List.zipWith f32max a b) v

/-- Pool rows, each with its weight, in the order given; MEAN gives the sum (R134). -/
def poolRows (mode n : Nat) (rows : List (W32 × List W32)) : List W32 :=
  match mode with
  | 2 => maxVecs n (rows.map Prod.snd)
  | 3 => rows.foldl (fun p r => List.zipWith (fun a b => f32fma r.1 b a) p r.2) (zeros n)
  | _ => rows.foldl (fun p r => List.zipWith f32add p r.2) (zeros n)

/-- Combine contributions: a sum from +0.0 on, or the maximum (05 R170). -/
def combine (mode n : Nat) (l : List (List W32)) : List W32 :=
  if mode = 2 then maxVecs n l else l.foldl (fun a b => List.zipWith f32add a b) (zeros n)

/-- Insert a part in ascending order of a key. -/
def insertPart (key : BagPart → Nat) (p : BagPart) (l : List BagPart) : List BagPart :=
  match l with
  | [] => [p]
  | a :: rest => if key p < key a then p :: a :: rest else a :: insertPart key p rest

/-- Parts in ascending order of a key, equal keys in their order. -/
def sortParts (key : BagPart → Nat) (l : List BagPart) : List BagPart := l.foldl (fun acc p => insertPart key p acc) []

/-- The local rows of a bag, pooled (R134, R135). -/
def localPool (g : PoolGroup) (n : Nat) (parts : List BagPart) : List W32 :=
  let l := parts.filter (fun p => !p.remote)
  let l := if g.ordered then sortParts BagPart.ord l else l
  poolRows g.mode n (l.map (fun p => (p.weight, p.vals)))

/-- A sum of `rows` rows divided for MEAN (R134). -/
def meanDiv (mode rows : Nat) (v : List W32) : List W32 :=
  if mode = 1 ∧ rows ≠ 0 then v.map (fun x => f32divNat x rows) else v

/-- The contributions of a bag of a ROW table, in the order in which they are combined (R137, R138). With ORDERED = 0 the
local contribution arrives with its last row. -/
def rowContribs (g : PoolGroup) (n own : Nat) (parts : List BagPart) : List (List W32) :=
  let pooled := localPool g n parts
  let loc := parts.filter (fun p => !p.remote)
  let rem := parts.filter (fun p => p.remote)
  if loc.isEmpty then (if g.ordered then sortParts (fun p => 256 * p.shard + p.ord) rem else rem).map BagPart.vals
  else if g.ordered then
    (sortParts (fun p => if p.remote then 256 * p.shard + p.ord + 1 else own)
      ({ remote := false, vals := pooled } :: rem)).map BagPart.vals
  else
    let tail := (parts.reverse.takeWhile (fun p => p.remote)).reverse
    let before := (parts.take (parts.length - tail.length)).filter (fun p => p.remote)
    before.map BagPart.vals ++ [pooled] ++ tail.map BagPart.vals

/-- The slice of shard `k` of a bag of a COL table (R139). -/
def colSlice (g : PoolGroup) (n own rows k : Nat) (parts : List BagPart) : List W32 :=
  if k = own then meanDiv g.mode rows (localPool g n parts)
  else combine g.mode n ((sortParts BagPart.ord (parts.filter (fun p => p.remote && p.shard == k))).map BagPart.vals)

/-- The CONCAT positions of one shard's slice (R124, R134). -/
def concatSlice (g : PoolGroup) (n : Nat) (p : BagPart → Bool) (parts : List BagPart) : List W32 :=
  (List.range g.catN).flatMap (fun j =>
    match parts.find? (fun x => p x && x.ord == j) with
    | some x => x.vals
    | none => zeros n)

/-- The elements of a bag's output (R124, R130, R134 to R139). -/
def bagElems (g : PoolGroup) (t : Table) (wid : Nat) (b : Bag) : List W32 :=
  let n := t.elems
  let own := match t.ownShard wid with
    | some k => k
    | none => t.shards + 1
  if t.layout = 2 then
    (List.range (t.shards + 1)).flatMap (fun k =>
      if g.mode = 4 then concatSlice g n (fun p => if p.remote then p.shard == k else k == own) b.parts
      else colSlice g n own b.seen k b.parts)
  else if g.mode = 4 then concatSlice g n (fun _ => true) b.parts
  else if b.sent.isEmpty then
    meanDiv g.mode (b.parts.map BagPart.rows).sum (localPool g n b.parts)
  else
    let first := if (t.ownShard wid).isNone then 0 else 256 * own + 1
    meanDiv g.mode (b.parts.map BagPart.rows).sum (combine g.mode n (rowContribs g n first b.parts))

/-- Convert pooled elements to OUT_FMT and pack them, up to a multiple of 16 bytes (R127, R134, 02 R61). -/
def outBytes (fmt : Nat) (v : List W32) : Bytes :=
  let f := match ffmtOf fmt with
    | some f => f
    | none => fp32
  let b := packElems fmt (v.map (fun x => (encodeF f (decF32 x)).1))
  padB ((b.length + 15) / 16 * 16) b

/-! ### Bags of a request (R126 to R130) -/

/-- The entry point of a request. -/
def State.entryOf (s : State) (r : Req) : EntryPoint :=
  match s.model r.den r.model with
  | some m => m.entries.getD r.entry {}
  | none => {}

/-- A table as a request reads it: with the ROW_SCALE, DEFROW and DEFAULT_ADDR captured at admission (15 R502). -/
def State.tabOf (s : State) (r : Req) (tn : Nat) : Table :=
  let t := s.table tn
  match r.caps.find? (fun c => c.table == tn) with
  | some c => { t with rowScale := c.rowScale, defrow := c.defrow, defaultAddr := c.defaultAddr }
  | none => t

/-- Pooling group `g` of a request. -/
def State.groupOf (s : State) (r : Req) (g : Nat) : PoolGroup := (s.entryOf r).groups.getD g {}

/-- The bag of a request. -/
def Req.bag (r : Req) (smp grp ent : Nat) : Bag :=
  match r.bags.find? (fun b => b.smp == smp && b.grp == grp && b.ent == ent) with
  | some b => b
  | none => { smp := smp, grp := grp, ent := ent }

/-- Change a bag of a request. -/
def Req.modBag (r : Req) (smp grp ent : Nat) (f : Bag → Bag) : Req :=
  let b := f (r.bag smp grp ent)
  { r with bags := b :: r.bags.filter (fun x => !(x.smp == smp && x.grp == grp && x.ent == ent)) }

/-- Write the output of a bag into the SRAM of its tile; one to which poison contributes is poisoned whole (R128,
22 R724). -/
def State.writeBag (s : State) (r : Req) (b : Bag) : State :=
  let g := s.groupOf r b.grp
  let e := g.tabs.getD b.ent (0, 0)
  let out := outBytes g.outFmt (bagElems g (s.table e.1) s.fab.wid b)
  let at_ := g.outBase + b.smp % g.spt * g.stride + e.2
  match r.tiles[b.smp / g.spt]? with
  | none => s
  | some t => s.modTile t (fun x =>
      let x := x.putSram at_ out
      if b.parts.any BagPart.poison then x.poisonSram at_ out.length else x)

/-- Shards other than the own to which a COL bag's rows have not all been sent: the shard and the rows sent (R139, 16 R538). -/
def State.colUnsent (s : State) (r : Req) (b : Bag) : List (Nat × Nat) :=
  let g := s.groupOf r b.grp
  let t := s.table (g.tabs.getD b.ent (0, 0)).1
  if t.layout = 2 ∧ g.mode ≠ 4 then
    ((List.range (t.shards + 1)).filter (fun k => t.shardId k != s.fab.wid)).filterMap (fun k =>
      let n := 256 * mget 0 b.sent k
      if n < b.colRows.length then some (k, n) else none)
  else []

/-- Something of a bag is still on its way: a record, a row, or an answer (R130). -/
def State.bagOpen (s : State) (id smp grp ent : Nat) : Bool :=
  let col := match s.req id with
    | some r => !(s.colUnsent r (r.bag smp grp ent)).isEmpty
    | none => false
  let same (x : FRec) : Bool := x.req == id && x.kind == .demand && x.smp == smp && x.grp == grp && x.ent == ent
  col || s.forager.ibuf.any same || s.forager.slots.any (fun x => x.kind == .demand && same x.r) ||
  s.fab.xacts.any (fun x => match x.issuer with
    | .row f _ => same f
    | .pool q a b c _ _ => q == id && a == smp && b == grp && c == ent
    | _ => false)

/-- Something of a request's bags is still on its way. -/
def State.bagsOpen (s : State) (id : Nat) : Bool :=
  let same (x : FRec) : Bool := x.req == id && x.kind == .demand
  let col := match s.req id with
    | some r => r.bags.any (fun b => !(s.colUnsent r b).isEmpty)
    | none => false
  col || s.forager.inq.any (fun p => p.1 == id) || s.forager.ibuf.any same ||
  s.forager.slots.any (fun x => x.kind == .demand && same x.r) ||
  s.fab.xacts.any (fun x => match x.issuer with
    | .row f _ => same f
    | .pool q _ _ _ _ _ => q == id
    | _ => false)

/-- The arrival slot of a bag is freed (05 R171). -/
def State.freeArr (s : State) (b : Bag) : State :=
  match b.slot with
  | some n => { s with hoard := { s.hoard with arr := mset {} s.hoard.arr n {} } }
  | none => s

/-- A bag with remote contributions is complete: its slot is released and its output written (05 R171). -/
def State.closeBag (s : State) (id smp grp ent : Nat) : State :=
  match s.req id with
  | none => s
  | some r =>
    let b := r.bag smp grp ent
    if r.phase = .placed ∧ r.closed ∧ b.slot.isSome ∧ ¬ b.written ∧ ¬ s.forager.inq.any (fun p => p.1 == id) ∧
        ¬ s.bagOpen id smp grp ent then
      ((s.writeBag r b).freeArr b).modReq id (fun x => x.modBag smp grp ent (fun y =>
        { y with written := true, slot := none, parts := [] }))
    else s

/-- Every bag of a request: sample, group and entry (R130). -/
def State.allBags (s : State) (r : Req) : List (Nat × Nat × Nat) :=
  (List.range r.samples).flatMap (fun a => (List.range (s.entryOf r).groups.length).flatMap (fun g =>
    (List.range (s.groupOf r g).tabs.length).map (fun e => (a, g, e))))

/-- When the set of bags of a placed request is complete, every bag output is written (R130, 01 R34). -/
def State.finishBags (s : State) (id : Nat) : State :=
  match s.req id with
  | none => s
  | some r =>
    if r.phase = .placed ∧ r.closed ∧ ¬ r.ready ∧ ¬ s.bagsOpen id then
      let s := (s.allBags r).foldl (fun s p =>
        let b := r.bag p.1 p.2.1 p.2.2
        if b.written then s else (s.writeBag r b).freeArr b) s
      s.modReq id (fun x => { x with ready := true, bags := [] })
    else s

/-- A part has arrived for a bag. -/
def State.addPart (s : State) (id smp grp ent : Nat) (p : BagPart) : State :=
  ((s.modReq id (fun r => r.modBag smp grp ent (fun b => { b with parts := b.parts ++ [p] }))).closeBag id smp grp ent).finishBags id

end Sys2Proof.Machine
end

