-- ==== Sys2Proof/Machine/Tasks.lean ====
section
/-!
DEFINITION. The request dispatcher: admission, steering of features, placement, yield and resume, task start and wake,
reports, aborts, and the life of a tile (01, 08 R281 to R286, 13 R402 to R413).
-/

namespace Sys2Proof.Machine

/-! ### Admission (01 R26, R28 to R30, 13 R402, R403) -/

/-- Fields of a request descriptor (01 R25). -/
abbrev dKind (b : Bytes) : Nat := fld b 0 1
abbrev dBe (b : Bytes) : Bool := tbit (fld b 1 1) 0
abbrev dIrq (b : Bytes) : Bool := tbit (fld b 1 1) 1
abbrev dFsrc (b : Bytes) : Nat := bits (fld b 1 1) 2 2
abbrev dModel (b : Bytes) : Nat := fld b 4 2
abbrev dEntry (b : Bytes) : Nat := fld b 6 2
abbrev dDeadline (b : Bytes) : Nat := fld b 8 8
abbrev dOutAddr (b : Bytes) : Nat := fld b 0x10 8
abbrev dOutLen (b : Bytes) : Nat := fld b 0x18 4
abbrev dSamples (b : Bytes) : Nat := fld b 0x1C 2
abbrev dFeatLen (b : Bytes) : Nat := fld b 0x20 4
abbrev dHistId (b : Bytes) : Nat := fld b 0x24 4
abbrev dFeat (b : Bytes) : Nat := fld b 0x28 8

/-- Reserved bits and bytes of a descriptor are zero (01 R25, R26). -/
def descZeros (b : Bytes) : Bool :=
  decide (fld b 1 1 < 16) && decide (fld b 0x1E 2 = 0) && decide (dOutAddr b < 2 ^ 54) &&
  (match dFsrc b with
   | 0 => allZero (sliceB b 0x28 24)
   | 1 => true
   | _ => allZero (sliceB b 0x30 16))

/-- The descriptor is invalid (01 R26). -/
def State.descBad (s : State) (d : Nat) (b : Bytes) : Bool :=
  decide (dKind b ≠ 1) || !(descZeros b) || decide (dSamples b = 0 ∨ 4096 < dSamples b) ||
  (decide (dFsrc b = 1) && decide (dFeatLen b = 0 ∨ 24 < dFeatLen b)) ||
  (decide (2 ≤ dFsrc b) && decide (dFeatLen b = 0 ∨ 1048576 < dFeatLen b)) ||
  (match s.model d (dModel b) with
   | some m => decide (m.entries.length ≤ dEntry b)
   | none => true)

/-- Number of request ring `r` of den `d`. -/
abbrev reqKey (d r : Nat) : Nat := 32 * (d + 1) + 16 + r

/-- An enabled gate keeps a ring closed (20 R666). -/
def State.gated (s : State) (d r : Nat) : Bool :=
  (List.range 8).any (fun n =>
    let x := s.tmr n
    x.gEn && x.gDen.toNat == d && x.gRing.toNat == r && x.gCredit == 0)

/-- The den admits requests and accepts update descriptors: ACTIVE, not held, its function's Bus Master Enable set and
no FLR running, and a SHARED way in its fill mask (13 R391, R393, 14 R461, R463, R468). -/
def State.denServes (s : State) (d : Nat) : Bool :=
  s.serving && decide ((s.den d).st = .active) && !(s.pcie.retHeld.getLsbD d) && (s.fn (d + 1)).bme && !(s.fn (d + 1)).flr &&
  (List.range 16).any (fun w => (s.den d).fill.getLsbD w && (s.way w).mode == .shared)

/-- The head of a request ring is admissible but for tokens (01 R28, 14 R448, 20 R666). -/
def State.headReady (s : State) (d r : Nat) : Bool :=
  (s.ringFront (reqKey d r)).isSome && (s.ring (rcqKey d)).en && (s.ring (rcqKey d)).hasFree && !(s.gated d r)

/-- The den's PCIE and HOARD buckets hold tokens (13 R416). -/
def State.admitTokens (s : State) (d : Nat) : Bool := (s.den d).open .pcie && (s.den d).open .hoard

/-- The bytes at the head of a request ring. -/
def State.headBytes (s : State) (d r : Nat) : Bytes :=
  match s.ringFront (reqKey d r) with
  | some b => b
  | none => []

/-- Rings of a den in round-robin order, after the one admitted from last (13 R402). -/
def rrRings (last : Nat) : List Nat := (List.range 8).map (fun i => (last + 1 + i) % 8)

/-- A deadline as it orders requests: 0 comes last (13 R403). -/
def deadlineKey (v : Nat) : Nat := if v = 0 then 2 ^ 64 else v

/-- The first of a list with the smallest key. -/
def firstMin (key : Nat → Nat) (l : List Nat) : Option Nat :=
  l.foldl (fun acc r => match acc with
    | some a => if key r < key a then some r else acc
    | none => some r) none

/-- The ring whose head the den offers (13 R402, R403). -/
def State.offer (s : State) (d : Nat) : Option Nat :=
  let l := (rrRings (s.den d).lastRing).filter (fun r => s.headReady d r)
  if (s.den d).deadline then firstMin (fun r => deadlineKey (dDeadline (s.headBytes d r))) l
  else
    match l.find? (fun r => !(dBe (s.headBytes d r))) with
    | some r => some r
    | none => l.head?

/-- Tables that an entry point reads: those of its groups and of its history declaration (01 R30). -/
def EntryPoint.tables (e : EntryPoint) : List Nat :=
  ((e.groups.flatMap (fun g => g.tabs.map Prod.fst)) ++ (match e.hist with
    | some h => [h.htable]
    | none => [])).eraseDups

/-- The binding of a class of an entry point. -/
def EntryPoint.bind (e : EntryPoint) (be : Bool) : Option (Nat × Nat) := if be then e.bind1 else e.bind0

/-- 32-bit words of a feature block, padded with zero bytes (03 R73). -/
def featWords (b : Bytes) : List W32 := (List.range ((b.length + 3) / 4)).map (fun i => BitVec.ofNat 32 (fld b (4 * i) 4))

/-- Steer the features of a request: a token for the bound slot when that is READY, else NOT_READY (01 R32, 03 R87, R88). -/
def State.steer (s : State) (r : Req) (feat : Bytes) : State :=
  match r.bind with
  | some b =>
    if (s.slot b.1 b.2).st = .ready then
      let t : MioTok := { id := s.mioter.tokSeq, req := r.id, slot := b.2, words := featWords feat }
      let s := { s with mioter := { s.mioter with tokSeq := s.mioter.tokSeq + 1 } }
      (s.modQuad b.1 (fun q => { q with toks := q.toks ++ [t] })).modReq r.id (fun x => { x with steered := true, feat := none })
    else s.endReq r 0x06 false
  | none => s.endReq r 0x06 false

/-- An admitted request's features: steered at once when they are inline; a host read goes out for FSRC 0b11. -/
def State.beginFeatures (s : State) (r : Req) : State :=
  match dFsrc r.desc with
  | 0 => s.modReq r.id (fun x => { x with steered := true, closed := true, ready := true })
  | 1 => s.steer r (sliceB r.desc 0x28 (dFeatLen r.desc))
  | 2 => s
  | _ => (s.chargePcie r.den (dFeatLen r.desc)).issueRead (r.den + 1) (.feature r.id) (dFeat r.desc) (dFeatLen r.desc)

/-- The gate of a ring loses one credit (20 R666). -/
def State.useCredit (s : State) (d r : Nat) : State :=
  s.each ((List.range 8).filter (fun n => (s.tmr n).gEn && (s.tmr n).gDen.toNat == d && (s.tmr n).gRing.toNat == r))
    (fun s n => s.modTmr n (fun x => { x with gCredit := x.gCredit - 1 }))

/-- The new request of a valid descriptor. -/
def State.newReq (s : State) (d ring : Nat) (b : Bytes) : Req :=
  let e : EntryPoint := match s.model d (dModel b) with
    | some m => m.entries.getD (dEntry b) {}
    | none => {}
  { id := s.reqSeq, den := d, ring := ring, desc := b, model := dModel b, entry := dEntry b, be := dBe b, irq := dIrq b,
    deadline := BitVec.ofNat 64 (dDeadline b), samples := dSamples b, tAdmit := s.wtime, bind := e.bind (dBe b),
    versions := (e.tables.filter (fun t => (s.table t).present)).map (fun t => (t, (s.table t).active)),
    caps := e.tables.map (fun t => { table := t, rowScale := (s.table t).rowScale, defrow := (s.table t).defrow,
                                     defaultAddr := (s.table t).defaultAddr }) }

/-- The part of admission that every descriptor sees: the slot reserved, the tokens charged, HEAD advanced (01 R28). -/
def State.takeRequest (s : State) (d ring : Nat) : State :=
  let s := (s.takeFront (reqKey d ring)).modRing (rcqKey d) (fun x => { x with rsvd := x.rsvd + 1 })
  let s := ((s.chargePcie d 64).chargePcie d 32).count d cPcieDn 64
  { (s.useCredit d ring) with lastDen := d }.modDen d (fun x => { x with lastRing := ring })

/-- Admit the head of a ring (01 R26, R28, R30, R45). -/
def State.admitHead (s : State) (d ring : Nat) : State :=
  let b := s.headBytes d ring
  let s := s.takeRequest d ring
  if s.descBad d b then s.complete d ring (fld b 2 2) 0x03 0 0 (dIrq b) 0
  else
    let r := s.newReq d ring b
    let s := r.versions.foldl (fun s p => s.takeRef p.1 p.2) { s with reqs := s.reqs ++ [r], reqSeq := s.reqSeq + 1 }
    let fenced := match s.model d r.model with
      | some m => m.fenced
      | none => false
    if fenced then s.endReq r 0x10 false else s.beginFeatures r

/-- Dens in round-robin order, after the one admitted last (01 R29). -/
def State.rrDens (s : State) : List Nat := (List.range 32).map (fun i => (s.lastDen + 1 + i) % 32)

/-- A wait for tokens of a den whose head is admissible otherwise (13 R417). -/
def State.waits (s : State) (d : Nat) : Bool := s.denServes d && (s.offer d).isSome && !(s.admitTokens d)

/-- The admission of one HCLK: the next den in turn that has an admissible head admits it. -/
def State.admitNext (s : State) : State :=
  let s := s.each ((List.range 32).filter s.waits) (fun s d => s.count d cRegWait 1)
  match s.rrDens.find? (fun d => s.denServes d && s.admitTokens d && (s.offer d).isSome) with
  | some d =>
    (match s.offer d with
     | some r => s.admitHead d r
     | none => s)
  | none => s

/-- REQUEST_ADMIT (01 R28 to R30). -/
def execRequestAdmit (s : State) : Host.Outcome State Fault Refusal := .next (if s.serving then s.admitNext else s)

/-- A feature block cannot be read: the request completes with the status, and a task that is already placed aborts with
it (14 R455, R457, 13 R400, 22 R725). -/
def State.failFeatures (s : State) (r : Req) (status : Nat) : State :=
  if r.tiles.isEmpty then s.endReq r status false else s.startAbort r.id status false

/-- A feature block at a device address: outside the den's ranges NOT_PERMITTED, poisoned ABORTED (01 R45, 13 R400,
22 R725). -/
def State.readFeatures (s : State) (r : Req) : State :=
  let a := dFeat r.desc
  let n := dFeatLen r.desc
  let inMem := match space a with
    | .hbm | .scratch _ => true
    | _ => false
  if inMem = false ∨ s.denMay r.den a n false = false then s.failFeatures r 0x05
  else if s.devBad a n then s.failFeatures r 0x0C
  else s.steer r (s.devRead a n)

/-- FEATURE_READ_DONE (14 R458, 01 R32): the features of a request are at the quadrant. -/
def execFeatureReadDone (req : Nat) (s : State) : Host.Outcome State Fault Refusal :=
  .next (
    match s.req req with
    | none => s
    | some r =>
      if s.hub ∧ ¬ r.steered ∧ r.phase ≠ .aborting then
        if dFsrc r.desc = 2 then s.readFeatures r
        else
          match r.feat with
          | some b => s.steer r b
          | none => s
      else s)

/-! ### Placement and yield demand (01 R31, 13 R404 to R407) -/

/-- Key of placement order: class, then admission order; or deadline (13 R404). -/
def Req.placeKey (r : Req) (deadline : Bool) : Nat := if deadline then deadlineKey r.deadline.toNat else b2n r.be

/-- The first request of a den in placement order. -/
def State.firstUnplaced (s : State) (d : Nat) : Option Req :=
  (s.reqs.filter (fun r => r.den == d && r.phase == .unplaced)).foldl (fun acc r => match acc with
    | some a => if r.placeKey (s.den d).deadline < a.placeKey (s.den d).deadline then some r else acc
    | none => some r) none

/-- Request `q` may displace the task of request `r` (13 R407). -/
def State.mayDisplace (s : State) (q r : Req) : Bool :=
  if (s.den q.den).deadline then
    decide (q.deadline ≠ 0) && decide (q.deadline.toNat < deadlineKey r.deadline.toNat)
  else !q.be

/-- A tile is free for a request (13 R405). -/
def State.tileFree (s : State) (q : Req) (t : Nat) : Bool :=
  (s.den q.den).tiles.getLsbD t && !((s.den q.den).leaving.getLsbD t) && (s.tile t).prepared && !(s.tile t).fenced &&
  (s.tile t).req.isNone &&
  (s.tile t).yields.all (fun p => match s.req p.1 with
    | some r => s.mayDisplace q r
    | none => true)

/-- A task is yieldable (13 R407). -/
def State.yieldable (s : State) (r : Req) : Bool := r.be && (s.entryOf r).yieldable && r.phase == .running

/-- The request whose running task holds a tile. -/
def State.holder (s : State) (t : Nat) : Option Req :=
  match (s.tile t).req with
  | some id => s.req id
  | none => none

/-- A tile of the set that is free, or held by a yieldable task (13 R407). -/
def State.tileWon (s : State) (q : Req) (t : Nat) : Bool :=
  s.tileFree q t ||
  ((s.den q.den).tiles.getLsbD t && !((s.den q.den).leaving.getLsbD t) && (match s.holder t with
    | some r => r.den == q.den && s.yieldable r
    | none => false))

/-- Bind the placed tiles to a request. -/
def State.bindTiles (s : State) (id : Nat) (ts : List Nat) : State :=
  s.each ts (fun s t => s.modTile t (fun x => { x with req := some id, seq := .none }))

/-- Place a request on tiles; what waited for its placement goes on (01 R31, R34). -/
def State.placeOn (s : State) (r : Req) (ts : List Nat) : State :=
  ((s.modReq r.id (fun x => { x with phase := .placed, tiles := ts })).bindTiles r.id ts).finishBags r.id

/-- Raise yield demand for a request that cannot be placed (13 R407). -/
def State.raiseDemand (s : State) (q : Req) (n : Nat) : State :=
  let ts := firstNats (s.tileWon q) n (List.range 256)
  if ts.length < n then s
  else
    let ids := (ts.filterMap (fun t => match s.holder t with
      | some r => if s.yieldable r ∧ s.mayDisplace q r then some r.id else none
      | none => none)).eraseDups
    s.each ids (fun s id => s.modReq id (fun x => { x with demand := true }))

/-- REQUEST_PLACE (01 R31, 13 R404 to R407). -/
def execRequestPlace (den : Nat) (s : State) : Host.Outcome State Fault Refusal :=
  .next (
    if s.serving then
      match s.firstUnplaced den with
      | none => s
      | some r =>
        let n := (s.entryOf r).tiles
        let ts := firstNats (s.tileFree r) n (List.range 256)
        if ts.length = n then s.placeOn r ts else s.raiseDemand r n
    else s)

/-! ### Start and wake (01 R36, R37, 08 R251, R284) -/

/-- Write a scalar register; S0 discards what is written (08 R248). -/
def Tile.setS (x : Tile) (n : Nat) (v : W64) : Tile := if n = 0 then x else { x with sregs := mset 0 x.sregs n v }

/-- Read a scalar register; S0 reads zero (08 R248). -/
def Tile.getS (x : Tile) (n : Nat) : W64 := if n = 0 then 0 else mget 0 x.sregs n

/-- The scalar registers at a task's first instruction (08 R251). -/
def startRegs (r : Req) (i : Nat) : List (Nat × W64) :=
  let b := r.desc
  [(1, BitVec.ofNat 64 i), (2, BitVec.ofNat 64 r.tiles.length), (3, BitVec.ofNat 64 r.samples),
   (4, BitVec.ofNat 64 (hostBase + dOutAddr b)), (5, BitVec.ofNat 64 (dOutLen b)),
   (6, BitVec.ofNat 64 (fld b 2 2 + 2 ^ 16 * r.ring + 2 ^ 24 * b2n r.be)), (7, BitVec.ofNat 64 (dHistId b))]

/-- The start message reaches a tile (08 R251, R285). -/
def Tile.start (x : Tile) (r : Req) (e : EntryPoint) (i : Nat) (now : W64) : Tile :=
  let y : Tile :=
    { x with
      pwr := .run, seq := .waking, req := some r.id, taskId := BitVec.ofNat 32 r.id, placed := i
      count := r.tiles.length, pc := e.pcs.getD i 0, stall := 0, sregs := [], sems := [], semWait := [], engq := []
      sendq := [], chans := [], accs := [], barrier := none, startT := now, guardElapsed := 0
      guardLimit := BitVec.ofNat 32 e.guardUs, guardTicks := 0, weights := {}, passes := [], vx := none
      rd := none, su0 := x.su0.cleared, su1 := x.su1.cleared, hbuf0 := false
      hbuf1 := false }
  (startRegs r i).foldl (fun t p => t.setS p.1 p.2) y

/-- Send the start message to every tile of a task (01 R36). -/
def State.startTask (s : State) (r : Req) : State :=
  let e := s.entryOf r
  let s := r.tiles.zipIdx.foldl (fun s p => s.modTile p.1 (fun x => x.start r e p.2 s.wtime)) s
  let w : Option Walk := if e.hist.isSome ∧ dHistId r.desc ≠ 0xFFFFFFFF then some {} else none
  s.modReq r.id (fun x => { x with phase := .running, walk := w })

/-- TASK_START (01 R36): placement is done and every bag is complete. -/
def execTaskStart (req : Nat) (s : State) : Host.Outcome State Fault Refusal :=
  .next (
    match s.req req with
    | none => s
    | some r => if s.serving ∧ r.phase = .placed ∧ r.ready then s.startTask r else s)

/-- TILE_WAKE (01 R37): the tile issues its first instruction. -/
def execTileWake (tile : Nat) (s : State) : Host.Outcome State Fault Refusal :=
  .next (if s.hub ∧ (s.tile tile).seq = .waking then s.modTile tile (fun x => { x with seq := .running }) else s)

/-! ### End, abort and guard (01 R38, R39, R46, 08 R281 to R284) -/

/-- A stream unit has nothing to do. -/
def StreamUnit.quiet (u : StreamUnit) : Bool := u.running.isEmpty && u.xfers.isEmpty

/-- Every engine queue of a tile is empty and no engine runs. -/
def Tile.enginesIdle (x : Tile) : Bool :=
  x.engq.isEmpty && x.passes.isEmpty && x.vx.isNone && x.rd.isNone && x.su0.quiet && x.su1.quiet

/-- END's and a parking tile's wait is over: queues and send queue empty, no global access outstanding (08 R281). -/
def Tile.drained (x : Tile) : Bool := x.enginesIdle && x.sendq.isEmpty && x.accs.isEmpty

/-- The tile reports the end of its part; the last report completes the request (01 R38, R39, R42). -/
def State.reportEnd (s : State) (t : Nat) (r : Req) : State :=
  let s := s.modTile t (fun x => { x with seq := .ended, pwr := .idle, stall := 0, idleUs := 0, dozeNow := x.dozeAfter,
                                          chans := [] })
  let r := { r with reported := t :: r.reported }
  let s := s.modReq r.id (fun _ => r)
  if r.tiles.all (fun u => r.reported.contains u) then s.endReq r 0x00 false else s

/-- TILE_END_REPORT (08 R281, 01 R39). -/
def execTileEndReport (tile : Nat) (s : State) : Host.Outcome State Fault Refusal :=
  .next (
    match s.holder tile with
    | none => s
    | some r =>
      if s.hub ∧ (s.tile tile).seq = .ending ∧ (s.tile tile).drained ∧ r.phase = .running then s.reportEnd tile r else s)

/-- The tiles of an aborted task have stopped: the request ends with its status, and the fault that set it is counted
(01 R46, 08 R283, 22 R726 to R728). -/
def State.abortDone (s : State) (r : Req) : State :=
  let s := s.endReq r r.status false
  match r.flt with
  | some f => s.countFault r f
  | none => s

/-- TASK_ABORT_DONE (01 R46). -/
def execTaskAbortDone (req : Nat) (s : State) : Host.Outcome State Fault Refusal :=
  .next (
    match s.req req with
    | none => s
    | some r => if s.hub ∧ r.phase = .aborting then s.abortDone r else s)

/-- GUARD_EXPIRY (08 R284): ELAPSED has become GUARD_US + 1. -/
def execGuardExpiry (tile : Nat) (s : State) : Host.Outcome State Fault Refusal :=
  .next (
    match s.holder tile with
    | none => s
    | some r =>
      if s.hub ∧ r.phase = .running ∧ ((s.tile tile).seq = .running ∨ (s.tile tile).seq = .ending ∨ (s.tile tile).seq = .parked) then
        (s.modTile tile (fun x => { x with guardElapsed := x.guardLimit + 1 })).tileFault tile 0x0D 0 0 false false
      else s)

/-! ### Tile power (08 R285, R286) -/

/-- TILE_DOZE (08 R285): DOZE_AFTER µs in IDLE have passed. -/
def execTileDoze (tile : Nat) (s : State) : Host.Outcome State Fault Refusal :=
  .next (if s.hub ∧ (s.tile tile).pwr = .idle ∧ (s.tile tile).dozeNow ≠ 0 ∧ (s.tile tile).seq ≠ .waking then
    s.modTile tile (fun x => { x with pwr := .doze }) else s)

/-- A tile that joins a den is zeroed and free for placement (08 R286, 02 R71). The fault records and DOZE_AFTER stay. -/
def Tile.joined (x : Tile) : Tile :=
  { pwr := .idle, prepared := true, dozeAfter := x.dozeAfter, dozeNow := x.dozeAfter, faultCause := x.faultCause,
    trapCode := x.trapCode, faultValid := x.faultValid, faultPc := x.faultPc, sufltSub := x.sufltSub, sufltUnit := x.sufltUnit,
    sufltSlot := x.sufltSlot, sufltAddr := x.sufltAddr, sufltValid := x.sufltValid }

/-- TILE_PREPARE_DONE (08 R286). -/
def execTilePrepareDone (tile : Nat) (s : State) : Host.Outcome State Fault Refusal :=
  .next (if s.hub ∧ (s.tileDen tile).isSome ∧ ¬ (s.tile tile).prepared ∧ ¬ (s.tile tile).fenced then
    s.modTile tile Tile.joined else s)

/-! ### Parking and resuming (13 R408 to R412, 12 R385) -/

/-- Number of the first word of a tile register. -/
abbrev tregBase (t : Nat) : Nat := 16384 * t

/-- A history task's registers T0 to T(n − 1) go to the save area (12 R385). -/
def Tile.saveHist (x : Tile) (n off : Nat) : Tile :=
  let cleared := memZero x.sram off (off + 65536 * n)
  let words := x.tregs.filter (fun (p : Nat × W32) => decide (p.1 < tregBase n))
  { x with sram := words.foldl (fun m p => memWrite m (off + 4 * p.1) (toLe 4 p.2.toNat)) cleared }

/-- The save area goes back into the registers (12 R385). -/
def Tile.loadHist (x : Tile) (n off : Nat) : Tile :=
  let cells := x.sram.filter (fun (c : Host.Cell) => decide (off ≤ c.1 ∧ c.1 < off + 65536 * n))
  let idx := (cells.map (fun (c : Host.Cell) => (c.1 - off) / 4)).eraseDups
  let kept := x.tregs.filter (fun (p : Nat × W32) => decide (tregBase n ≤ p.1))
  { x with tregs := idx.foldl (fun m i => mset 0 m i (BitVec.ofNat 32 (leNat (memRead x.sram (off + 4 * i) 4)))) kept }

/-- A parked tile writes its yield record and is free for another task (13 R408, R411). -/
def Tile.park (x : Tile) (id : Nat) (h : Option HistDecl) : Tile :=
  let x := match h with
    | some d => x.saveHist d.stateN d.saveOff
    | none => x
  let y : YieldRec := { pc := x.pc, sregs := x.sregs, sems := x.sems, chans := x.chans, guardElapsed := x.guardElapsed,
                        guardTicks := x.guardTicks, startT := x.startT, hbuf0 := x.hbuf0, hbuf1 := x.hbuf1 }
  { x.freed with yields := mput x.yields id y, sems := [] }

/-- Every tile of a task has parked (13 R408). -/
def State.allParked (s : State) (r : Req) : Bool :=
  r.tiles.all (fun t => (s.tile t).seq == .parked && (s.tile t).drained)

/-- The task is yielded. -/
def State.yieldTask (s : State) (r : Req) : State :=
  let h := (s.entryOf r).hist
  let s := (s.runTime r.den r.tiles.length).count r.den cYields 1
  let s := s.each r.tiles (fun s t => (s.modTile t (fun x => x.park r.id h)))
  let s := s.modReq r.id (fun x => { x with phase := .yielded, demand := false })
  if r.tiles.any (fun t => (s.den r.den).leaving.getLsbD t) then s.startAbort r.id 0x0C false else s

/-- TILE_PARKED (13 R408). -/
def execTileParked (req : Nat) (s : State) : Host.Outcome State Fault Refusal :=
  .next (
    match s.req req with
    | none => s
    | some r => if s.hub ∧ r.phase = .running ∧ r.demand ∧ s.allParked r then s.yieldTask r else s)

/-- YIELD_CANCEL (13 R410): 20 µs after demand reached the tiles, one of them has not parked. -/
def execYieldCancel (req : Nat) (s : State) : Host.Outcome State Fault Refusal :=
  .next (
    match s.req req with
    | none => s
    | some r =>
      if s.hub ∧ r.phase = .running ∧ r.demand ∧ ¬ s.allParked r then
        (s.each r.tiles (fun s t => s.modTile t (fun x => if x.seq = .parked then { x with seq := .running, stall := 0 } else x))).count
          r.den cYcancel 1
      else s)

/-- A resumed tile restores its record (13 R412, 12 R385). -/
def Tile.unpark (x : Tile) (r : Req) (e : EntryPoint) (i : Nat) : Tile :=
  let y := mget ({} : YieldRec) x.yields r.id
  let x := match e.hist with
    | some d => x.loadHist d.stateN d.saveOff
    | none => x
  { x with yields := merase x.yields r.id, pwr := .run, seq := .waking, req := some r.id, taskId := BitVec.ofNat 32 r.id,
           placed := i, count := r.tiles.length, pc := y.pc, stall := 0, sregs := y.sregs, sems := y.sems, chans := y.chans,
           guardElapsed := y.guardElapsed, guardTicks := y.guardTicks, startT := y.startT,
           guardLimit := BitVec.ofNat 32 e.guardUs, hbuf0 := y.hbuf0, hbuf1 := y.hbuf1, engq := [], sendq := [], accs := [],
           barrier := none, weights := {}, su0 := x.su0.cleared, su1 := x.su1.cleared }

/-- Increment a semaphore; above 255 the task aborts with SEM_OVERFLOW (08 R269). -/
def State.postSem (s : State) (t n : Nat) : State :=
  let v := mget 0 (s.tile t).sems n
  if 255 ≤ v then s.tileFault t 0x08 0 0 false false
  else s.modTile t (fun x => { x with sems := mset 0 x.sems n (v + 1) })

/-- Semaphore of a history buffer. -/
def HistDecl.sem (h : HistDecl) (b : Nat) : Nat := if b = 0 then h.sem0 else h.sem1

/-- Posts of a history walk that fell due while the task was yielded (12 R386). -/
def State.postDue (s : State) (r : Req) (h : HistDecl) : State :=
  match r.walk with
  | none => s
  | some w =>
    let s := w.due.foldl (fun s b => (r.tiles.take h.htn).foldl (fun s t =>
      (s.modTile t (fun x => if b = 0 then { x with hbuf0 := true } else { x with hbuf1 := true })).postSem t (h.sem b)) s) s
    s.modReq r.id (fun x => { x with walk := x.walk.map (fun y => { y with due := [] }) })

/-- A yielded task resumes on its tiles (13 R412). -/
def State.resumeTask (s : State) (r : Req) : State :=
  let e := s.entryOf r
  let s := r.tiles.zipIdx.foldl (fun s p => s.modTile p.1 (fun x => x.unpark r e p.2)) s
  let s := s.modReq r.id (fun x => { x with phase := .running })
  match e.hist with
  | some h => s.postDue r h
  | none => s

/-- Every tile of a yielded task is free, and no admitted request that may displace it is unplaced (13 R412). -/
def State.mayResume (s : State) (r : Req) : Bool :=
  r.tiles.all (fun t => (s.tile t).req.isNone && (s.tile t).prepared) &&
  s.reqs.all (fun q => !(q.den == r.den && q.phase == .unplaced && s.mayDisplace q r))

/-- TASK_RESUME (13 R412). -/
def execTaskResume (req : Nat) (s : State) : Host.Outcome State Fault Refusal :=
  .next (
    match s.req req with
    | none => s
    | some r => if s.serving ∧ r.phase = .yielded ∧ s.mayResume r then s.resumeTask r else s)

end Sys2Proof.Machine
end

