-- ==== Sys2Proof/Machine/Mioter.lean ====
section
/-!
DEFINITION. The Mioter array: input port, PEs, collector lanes and output port, dropped tokens, and queue-depth sampling
(03 R73 to R85, R104, R105, R109 to R117).
-/

namespace Sys2Proof.Machine

/-! ### Queues of the PEs (R74, R76, R79) -/

/-- PE `p` of a quadrant. -/
def Quad.pe (x : Quad) (p : Nat) : Pe := mget {} x.pes p

/-- Change PE `p` of a quadrant. -/
def Quad.modPe (x : Quad) (p : Nat) (f : Pe → Pe) : Quad := { x with pes := mset {} x.pes p (f (x.pe p)) }

/-- Input queue of a PE: 0 = W, 1 = N, 2 = E, 3 = S. -/
def Pe.queue (e : Pe) (d : Nat) : List MioWord :=
  match d with
  | 0 => e.qW
  | 1 => e.qN
  | 2 => e.qE
  | _ => e.qS

/-- Replace an input queue of a PE. -/
def Pe.setQueue (e : Pe) (d : Nat) (l : List MioWord) : Pe :=
  match d with
  | 0 => { e with qW := l }
  | 1 => { e with qN := l }
  | 2 => { e with qE := l }
  | _ => { e with qS := l }

/-- The queue that output `d` of PE `p` is: its PE and direction (R79). -/
def peNbr (p d : Nat) : Nat × Nat :=
  match d with
  | 0 => (p - 1, 2)
  | 1 => (p - 16, 3)
  | 2 => (p + 1, 0)
  | _ => (p + 16, 1)

/-- Append a word to a queue of a PE. -/
def Quad.push (x : Quad) (p d : Nat) (w : MioWord) : Quad := x.modPe p (fun e => e.setQueue d (e.queue d ++ [w]))

/-- A queue of 8 words has no room (R76). -/
def Quad.queueFull (x : Quad) (p d : Nat) : Bool := decide (8 ≤ ((x.pe p).queue d).length)

/-! ### Input port (R73 to R75) -/

/-- Words of a token that row `r` receives: one in 16. -/
def rowWords (n r : Nat) : Nat := (n + 15 - r) / 16

/-- The token that the input port is feeding: entered, with a row that has not taken its marker word. -/
def MioTok.feeding (t : MioTok) : Bool := t.entered && t.marked != BitVec.allOnes 16

/-- Give row `r` its next word, or its marker word after the last, when its west queue has room. -/
def Quad.feedRow (x : Quad) (id r : Nat) : Quad :=
  match x.toks.find? (fun t => t.id == id) with
  | none => x
  | some t =>
    let k := mget 0 t.fed r
    if t.marked.getLsbD r || x.queueFull (16 * r) 0 then x
    else if k < rowWords t.words.length r then
      { x.push (16 * r) 0 { data := t.words.getD (r + 16 * k) 0, slot := t.slot, tok := id } with
        toks := modFirst (fun y => y.id == id) (fun y => { y with fed := mset 0 y.fed r (k + 1) }) x.toks }
    else
      { x.push (16 * r) 0 { data := BitVec.ofNat 32 t.words.length, slot := t.slot, isEnd := true, tok := id } with
        toks := modFirst (fun y => y.id == id) (fun y => { y with marked := y.marked ||| BitVec.ofNat 16 (2 ^ r) }) x.toks }

/-- One FCLK of the input port (R75): up to 16 words, one to each row. -/
def Quad.feed (x : Quad) : Quad :=
  match x.toks.find? MioTok.feeding with
  | some t => (List.range 16).foldl (fun q r => q.feedRow t.id r) x
  | none => x

/-- The boundary cycle of the next token (R75, R105, R113): its slot's tag is set. -/
def Quad.boundary (x : Quad) (now : W64) : Quad :=
  if x.toks.any MioTok.feeding then x
  else
    match x.toks.find? (fun t => !t.entered) with
    | some t => { x with tag := t.slot, tokens := x.tokens + 1
                         toks := modFirst (fun y => y.id == t.id) (fun y => { y with entered := true, progress := now }) x.toks }
    | none => x

/-- MIO_TOKEN_BOUNDARY (R75). -/
def execMioTokenBoundary (quad : Nat) (s : State) : Host.Outcome State Fault Refusal :=
  .next (if s.hub then s.modQuad quad (fun x => x.boundary s.wtime) else s)

/-- MIO_INPUT_WORD (R75). -/
def execMioInputWord (quad : Nat) (s : State) : Host.Outcome State Fault Refusal :=
  .next (if s.hub then s.modQuad quad Quad.feed else s)

/-! ### PEs (R77 to R83) -/

/-- The token that a PE serves, or starts: of the tokens at the heads of its queues whose slot has a program in the PE,
the one that entered first (R77). -/
def Pe.serves (e : Pe) : Option (Nat × Nat) :=
  match e.tok with
  | some t => some t
  | none =>
    ([e.qW, e.qN, e.qE, e.qS].filterMap List.head?).foldl (fun acc w =>
      if mget 0 e.len w.slot = 0 then acc
      else match acc with
        | some t => if w.tok < t.1 then some (w.tok, w.slot) else acc
        | none => some (w.tok, w.slot)) none

/-- The instruction that a PE executes next for a slot (R77, R79). -/
def Pe.ins (e : Pe) (c : Nat) : Nat := (mget (0 : W32) e.inst (16 * c + mget 0 e.pc c)).toNat

/-- Queue that an operand or destination code names. -/
def peDir (x : Nat) : Option Nat := if 16 ≤ x ∧ x ≤ 19 then some (x - 16) else none

/-- What an operation does with its operands. -/
inductive PeKind where
  /-- writes D -/
  | alu
  /-- sends a record (R82) -/
  | emit
  /-- BRF -/
  | branch
  /-- NOP -/
  | nothing
  deriving DecidableEq, Repr

/-- The operands of an instruction. -/
structure PeIn where
  a : W32 := 0
  b : W32 := 0
  k : Nat := 0
  f : Bool := false
  /-- lookup words of the slot -/
  lut : Nat → W32 := fun _ => 0

/-- Queues that an instruction reads, each once (R77). -/
def peReads (ins : Nat) (useA useB : Bool) : List Nat :=
  let a := if useA then peDir (bits ins 16 5) else none
  let b := if useB then peDir (bits ins 11 5) else none
  match a, b with
  | some x, some y => if x = y then [x] else [x, y]
  | some x, none => [x]
  | none, some y => [y]
  | none, none => []

/-- Value of an operand code: a register of the slot, the head of a queue, K sign-extended, or zero (R79). -/
def Pe.operand (e : Pe) (c ins x : Nat) : W32 :=
  if x < 16 then mget 0 e.regs (16 * c + x)
  else
    match peDir x with
    | some d => (match (e.queue d).head? with
      | some w => w.data
      | none => 0)
    | none => if x = 20 then (BitVec.ofNat 11 (bits ins 0 11)).signExtend 32 else 0

/-- The operands of an instruction of slot `c`. -/
def Pe.input (e : Pe) (c ins : Nat) : PeIn :=
  { a := e.operand c ins (bits ins 16 5), b := e.operand c ins (bits ins 11 5), k := bits ins 0 11,
    f := mget false e.flag c, lut := fun i => mget 0 e.lut (256 * c + i) }

/-- The heads of the queues that an instruction reads, if every one holds a word of the served token. -/
def Pe.heads (e : Pe) (tok : Nat) (dirs : List Nat) : Option (List MioWord) :=
  let l := dirs.filterMap (fun d => (e.queue d).head?)
  if l.length = dirs.length ∧ l.all (fun w => w.tok == tok) then some l else none

/-- Queue that an ALU instruction writes. -/
def peDest (kind : PeKind) (ins : Nat) : Option Nat := if kind = .alu then peDir (bits ins 21 5) else none

/-- The destination cannot take a word: a full queue, or for EMIT a lane that holds 8 records (R77, R83). -/
def Quad.destFull (x : Quad) (p : Nat) (kind : PeKind) (ins : Nat) : Bool :=
  match peDest kind ins with
  | some d => x.queueFull (peNbr p d).1 (peNbr p d).2
  | none => kind == .emit && decide (8 ≤ (mget [] x.lanes (p / 16)).length)

/-- Remove the words that an instruction reads; its token has made progress (R77, R105). -/
def Quad.consume (x : Quad) (p tok : Nat) (dirs : List Nat) (now : W64) : Quad :=
  if dirs.isEmpty then x
  else
    { x.modPe p (fun e => dirs.foldl (fun e d => e.setQueue d (e.queue d).tail) e) with
      toks := modFirst (fun t => t.id == tok) (fun t => { t with progress := now }) x.toks }

/-- An END word arrives on a lane (R84). -/
def Quad.laneEnd (x : Quad) (tok row : Nat) : Quad :=
  { x with toks := modFirst (fun t => t.id == tok) (fun t => { t with ended := t.ended ||| BitVec.ofNat 16 (2 ^ row) }) x.toks }

/-- The END merge (R78): the END words are removed, one goes to a queue or EMIT destination, the slot's program counter
and F become 0, and the PE serves no token. -/
def Quad.endMerge (x : Quad) (p : Nat) (t : Nat × Nat) (kind : PeKind) (ins : Nat) (dirs : List Nat) (data : W32)
    (now : W64) : Quad :=
  let x := (x.consume p t.1 dirs now).modPe p (fun e =>
    { e with tok := none, pc := mset 0 e.pc t.2 0, flag := mset false e.flag t.2 false })
  match peDest kind ins with
  | some d => x.push (peNbr p d).1 (peNbr p d).2 { data := data, slot := t.2, isEnd := true, tok := t.1 }
  | none => if kind = .emit then x.laneEnd t.1 (p / 16) else x

/-- The program counter after an instruction: after the last of the program it is 0 (R77). -/
def Pe.advance (e : Pe) (c : Nat) : Pe :=
  let n := mget 0 e.pc c + 1
  { e with pc := mset 0 e.pc c (if n < mget 0 e.len c then n else 0) }

/-- Write D and F (R79, R80). -/
def Quad.writeD (x : Quad) (p : Nat) (t : Nat × Nat) (ins : Nat) (v : W32) (f : Bool) : Quad :=
  let x := x.modPe p (fun e => { e with flag := mset false e.flag t.2 f })
  let d := bits ins 21 5
  if d < 16 then x.modPe p (fun e => { e with regs := mset 0 e.regs (16 * t.2 + d) v })
  else
    match peDir d with
    | some n => x.push (peNbr p n).1 (peNbr p n).2 { data := v, slot := t.2, tok := t.1 }
    | none => x

/-- The record that EMIT forms; the output port sets byte 7 (R82). -/
def Pe.recordOf (e : Pe) (c : Nat) (i : PeIn) : Bytes :=
  toLe 4 i.a.toNat ++ toLe 1 (bits i.b.toNat 0 8) ++ toLe 2 (bits i.b.toNat 8 16) ++ [0] ++
  toLe 2 (bits (mget (0 : W32) e.regs (16 * c + 14)).toNat 0 16) ++ [0, 0] ++ toLe 4 (mget (0 : W32) e.regs (16 * c + 15)).toNat

/-- Put a record into the collector lane of a row. After its token has closed no record of it is passed (R84), so the
record is not taken. -/
def Quad.laneAdd (x : Quad) (tok row : Nat) (rcd : Bytes) : Quad :=
  if x.toks.any (fun t => t.id == tok) then { x with lanes := mset [] x.lanes row (mget [] x.lanes row ++ [(tok, rcd)]) } else x

/-- The effect of an instruction that neither stalls nor merges; `v` is the value and F of an ALU operation. -/
def Quad.peEffect (x : Quad) (p : Nat) (t : Nat × Nat) (kind : PeKind) (ins : Nat) (dirs : List Nat) (v : W32 × Bool)
    (now : W64) : Quad :=
  let e := x.pe p
  let i := e.input t.2 ins
  let y := x.consume p t.1 dirs now
  match kind with
  | .alu => (y.writeD p t ins v.1 v.2).modPe p (fun e => e.advance t.2)
  | .emit => (y.laneAdd t.1 (p / 16) (e.recordOf t.2 i)).modPe p (fun e => e.advance t.2)
  | .branch => y.modPe p (fun e => if i.f then { e with pc := mset 0 e.pc t.2 (i.k % 16) } else e.advance t.2)
  | .nothing => y.modPe p (fun e => e.advance t.2)

/-- An instruction of PE `p` executes: a value that the spec leaves open is a free value (assumption 1). -/
def State.peExec (s : State) (q p : Nat) (t : Nat × Nat) (kind : PeKind) (ins : Nat) (dirs : List Nat)
    (f : PeIn → Option (W32 × Bool)) : State :=
  let i := ((s.quad q).pe p).input t.2 ins
  match f i with
  | some v => s.modQuad q (fun x => x.peEffect p t kind ins dirs v s.wtime)
  | none =>
    let v := s.free 32
    v.2.modQuad q (fun x => x.peEffect p t kind ins dirs (v.1, i.f) s.wtime)

/-- PE `p` of quadrant `q` executes its next instruction, whose operation must be `op` (R77 to R80). -/
def State.peRow (s : State) (q p op : Nat) (kind : PeKind) (useA useB : Bool) (f : PeIn → Option (W32 × Bool)) : State :=
  let x := s.quad q
  let e := x.pe p
  match e.serves with
  | none => s
  | some t =>
    let ins := e.ins t.2
    if s.hub = false ∨ bits ins 26 6 ≠ op then s
    else
      let s := s.modQuad q (fun y => y.modPe p (fun e => { e with tok := some t }))
      let dirs := peReads ins useA useB
      match e.heads t.1 dirs with
      | none => s
      | some hs =>
        let anyEnd := hs.any MioWord.isEnd
        if x.destFull p kind ins && !(anyEnd && kind == .emit) then s
        else if anyEnd then
          if hs.all MioWord.isEnd then
            s.modQuad q (fun y => y.endMerge p t kind ins dirs ((hs.head?.map MioWord.data).getD 0) s.wtime)
          else s
        else s.peExec q p t kind ins dirs f

/-- An ALU operation on A and B that leaves F. -/
def State.peAlu (s : State) (q p op : Nat) (f : W32 → W32 → W32) : State :=
  s.peRow q p op .alu true true (fun i => some (f i.a i.b, i.f))

/-- H(a, s) of the hash unit (R81). -/
def mioHash (a seed : W32) : W32 :=
  let h := a ^^^ seed
  let h := (h ^^^ (h >>> 15)) * 0x2C1B3C6D#32
  let h := (h ^^^ (h >>> 12)) * 0x297A2D39#32
  h ^^^ (h >>> 15)

/-- The high 32 bits of A × B. -/
def mulHigh (a b : W32) : W32 := BitVec.ofNat 32 (a.toNat * b.toNat / 2 ^ 32)

/-- The result of BKT: open unless B is 1 to 255, the words lie in the slot's window and ascend (R80). -/
def bucketOf (i : PeIn) : Option (W32 × Bool) :=
  let n := i.b.toNat
  let ws := (List.range n).map (fun j => (i.lut (i.k + j)).toNat)
  let asc := (List.range (n - 1)).all (fun j => decide (ws.getD j 0 ≤ ws.getD (j + 1) 0))
  if 1 ≤ n ∧ n ≤ 255 ∧ i.k + n ≤ 256 ∧ asc then
    some (BitVec.ofNat 32 (ws.filter (fun w => decide (w ≤ i.a.toNat))).length, i.f)
  else none

/-- PE_NOP (R80): reads no queue. -/
def execPeNop (quad pe : Nat) (s : State) : Host.Outcome State Fault Refusal :=
  .next (s.peRow quad pe 0x00 .nothing false false (fun i => some (0, i.f)))

/-- PE_MOV (R80): D ← A. -/
def execPeMov (quad pe : Nat) (s : State) : Host.Outcome State Fault Refusal :=
  .next (s.peRow quad pe 0x01 .alu true false (fun i => some (i.a, i.f)))

/-- PE_ADD (R80): D ← A + B. -/
def execPeAdd (quad pe : Nat) (s : State) : Host.Outcome State Fault Refusal :=
  .next (s.peAlu quad pe 0x02 (fun a b => a + b))

/-- PE_SUB (R80): D ← A − B. -/
def execPeSub (quad pe : Nat) (s : State) : Host.Outcome State Fault Refusal :=
  .next (s.peAlu quad pe 0x03 (fun a b => a - b))

/-- PE_AND (R80): D ← A & B. -/
def execPeAnd (quad pe : Nat) (s : State) : Host.Outcome State Fault Refusal :=
  .next (s.peAlu quad pe 0x04 (fun a b => a &&& b))

/-- PE_OR (R80): D ← A | B. -/
def execPeOr (quad pe : Nat) (s : State) : Host.Outcome State Fault Refusal :=
  .next (s.peAlu quad pe 0x05 (fun a b => a ||| b))

/-- PE_XOR (R80): D ← A ^ B. -/
def execPeXor (quad pe : Nat) (s : State) : Host.Outcome State Fault Refusal :=
  .next (s.peAlu quad pe 0x06 (fun a b => a ^^^ b))

/-- PE_SHL (R80): D ← A << (B & 31). -/
def execPeShl (quad pe : Nat) (s : State) : Host.Outcome State Fault Refusal :=
  .next (s.peAlu quad pe 0x07 (fun a b => a <<< (b.toNat % 32)))

/-- PE_SHR (R80): D ← A >> (B & 31), logical. -/
def execPeShr (quad pe : Nat) (s : State) : Host.Outcome State Fault Refusal :=
  .next (s.peAlu quad pe 0x08 (fun a b => a >>> (b.toNat % 32)))

/-- PE_SRA (R80): D ← A >> (B & 31), arithmetic. -/
def execPeSra (quad pe : Nat) (s : State) : Host.Outcome State Fault Refusal :=
  .next (s.peAlu quad pe 0x09 (fun a b => a.sshiftRight (b.toNat % 32)))

/-- PE_MUL (R80): D ← low 32 bits of A × B. -/
def execPeMul (quad pe : Nat) (s : State) : Host.Outcome State Fault Refusal :=
  .next (s.peAlu quad pe 0x0A (fun a b => a * b))

/-- PE_MULH (R80): D ← high 32 bits of A × B. -/
def execPeMulh (quad pe : Nat) (s : State) : Host.Outcome State Fault Refusal :=
  .next (s.peAlu quad pe 0x0B mulHigh)

/-- PE_MINU (R80): D ← smaller of A and B. -/
def execPeMinu (quad pe : Nat) (s : State) : Host.Outcome State Fault Refusal :=
  .next (s.peAlu quad pe 0x0C (fun a b => if a.toNat ≤ b.toNat then a else b))

/-- PE_MAXU (R80): D ← larger of A and B. -/
def execPeMaxu (quad pe : Nat) (s : State) : Host.Outcome State Fault Refusal :=
  .next (s.peAlu quad pe 0x0D (fun a b => if a.toNat ≤ b.toNat then b else a))

/-- PE_CMPLT (R80): F ← A < B; D ← F. -/
def execPeCmplt (quad pe : Nat) (s : State) : Host.Outcome State Fault Refusal :=
  .next (s.peRow quad pe 0x0E .alu true true (fun i =>
    some (BitVec.ofNat 32 (b2n (decide (i.a.toNat < i.b.toNat))), decide (i.a.toNat < i.b.toNat))))

/-- PE_CMPEQ (R80): F ← A = B; D ← F. -/
def execPeCmpeq (quad pe : Nat) (s : State) : Host.Outcome State Fault Refusal :=
  .next (s.peRow quad pe 0x0F .alu true true (fun i => some (BitVec.ofNat 32 (b2n (i.a == i.b)), i.a == i.b)))

/-- PE_SEL (R80): D ← A if F = 1, else B. -/
def execPeSel (quad pe : Nat) (s : State) : Host.Outcome State Fault Refusal :=
  .next (s.peRow quad pe 0x10 .alu true true (fun i => some (if i.f then i.a else i.b, i.f)))

/-- PE_HASH (R81): D ← H(A, B). -/
def execPeHash (quad pe : Nat) (s : State) : Host.Outcome State Fault Refusal := .next (s.peAlu quad pe 0x11 mioHash)

/-- PE_CRC (R80): D ← CRC-32C update of accumulator B with the four bytes of A. -/
def execPeCrc (quad pe : Nat) (s : State) : Host.Outcome State Fault Refusal :=
  .next (s.peAlu quad pe 0x12 (fun a b => crcUpdate b (toLe 4 a.toNat)))

/-- PE_RANGE (R80): D ← high 32 bits of A × B. -/
def execPeRange (quad pe : Nat) (s : State) : Host.Outcome State Fault Refusal := .next (s.peAlu quad pe 0x13 mulHigh)

/-- PE_LUT (R80): D ← lookup word (A + K) mod 256. -/
def execPeLut (quad pe : Nat) (s : State) : Host.Outcome State Fault Refusal :=
  .next (s.peRow quad pe 0x14 .alu true false (fun i => some (i.lut ((i.a.toNat + i.k) % 256), i.f)))

/-- PE_BKT (R80): D ← count of lookup words K to K + B − 1 that are ≤ A. -/
def execPeBkt (quad pe : Nat) (s : State) : Host.Outcome State Fault Refusal :=
  .next (s.peRow quad pe 0x15 .alu true true bucketOf)

/-- PE_EMIT (R82, R83). -/
def execPeEmit (quad pe : Nat) (s : State) : Host.Outcome State Fault Refusal :=
  .next (s.peRow quad pe 0x16 .emit true true (fun i => some (0, i.f)))

/-- PE_BRF (R80): the next instruction is K[3:0] if F = 1. -/
def execPeBrf (quad pe : Nat) (s : State) : Host.Outcome State Fault Refusal :=
  .next (s.peRow quad pe 0x17 .branch false false (fun i => some (0, i.f)))

/-! ### Output port (R83, R84, R142) -/

/-- The index buffer, with the records on their way to it, has room for a further record of a request (R142). -/
def State.recordFits (s : State) (id : Nat) : Bool :=
  let dem := s.forager.ibuf
  decide (dem.length + s.forager.inq.length < 65536) &&
  (match s.req id with
   | none => true
   | some r =>
     let ofDen (i : Nat) : Bool := match s.req i with
       | some x => x.den == r.den
       | none => false
     decide ((dem.filter (fun x => ofDen x.req)).length + (s.forager.inq.filter (fun (p : Nat × Bytes) => ofDen p.1)).length
       < max 16 (min 65536 (s.den r.den).ibufQuota.toNat)))

/-- The token whose records the output port passes: the one that entered first of those not closed (R84). -/
def Quad.front (x : Quad) : Option MioTok := x.toks.find? (fun t => t.entered)

/-- Give a record to the Forager. -/
def State.passRecord (s : State) (id : Nat) (rcd : Bytes) : State :=
  { s with forager := { s.forager with inq := s.forager.inq ++ [(id, rcd)] } }

/-- Take the first record of a token from a lane: it waits as the token's newest record, so that LAST can be set in it,
and the one that waited goes to the Forager (R84). -/
def State.passLane (s : State) (q lane : Nat) (id : Nat) : State :=
  match (s.quad q).toks.find? (fun t => t.id == id) with
  | none => s
  | some t =>
    let l := mget [] (s.quad q).lanes lane
    match l.find? (fun (p : Nat × Bytes) => p.1 == id) with
    | none => s
    | some x =>
      if t.held.isSome ∧ ¬ s.recordFits t.req then s
      else
        let s := match t.held with
          | some h => s.passRecord t.req h
          | none => s
        s.modQuad q (fun y =>
          { y with lanes := mset [] y.lanes lane (dropFirst (fun (p : Nat × Bytes) => p.1 == id) l)
                   toks := modFirst (fun u => u.id == id) (fun u =>
                     { u with held := some x.2, passed := u.passed + 1, progress := s.wtime }) y.toks })

/-- MIO_OUTPUT_PASS (R83). -/
def execMioOutputPass (quad : Nat) (s : State) : Host.Outcome State Fault Refusal :=
  .next (
    match (s.quad quad).front with
    | some t => if s.hub then s.each (List.range 16) (fun s l => s.passLane quad l t.id) else s
    | none => s)

/-- The last record of a token, with LAST; an EMPTY record when there was none (R84). -/
def MioTok.last (t : MioTok) : Bytes :=
  match t.held with
  | some h => patchB h 7 [1]
  | none => patchB (List.replicate 16 0) 7 [3]

/-- A token leaves the quadrant: MIOTER takes the FCLK it was there, which the model leaves open (13 R418,
assumption 1). -/
def State.mioTime (s : State) (id : Nat) : State :=
  match s.req id with
  | some r =>
    let v := s.free 64
    v.2.count r.den cMioter v.1.toNat
  | none => s

/-- An END word has arrived on every lane of LANE_MASK, and every record of the token has been passed (R84). -/
def Quad.mayClose (x : Quad) (t : MioTok) : Bool :=
  decide ((mget ({} : MioSlot) x.slots t.slot).laneMask &&& ~~~t.ended = 0) &&
  x.lanes.all (fun l => l.2.all (fun (p : Nat × Bytes) => p.1 != t.id))

/-- A CTX_LOAD that waited for the tokens of its slot begins (R102). -/
def State.loadBegin (s : State) (q : Nat) : State :=
  match (s.quad q).loading with
  | some (c, _) =>
    if ((s.slot q c).st = .ready ∨ (s.slot q c).st = .invalid) ∧ (s.quad q).toks.all (fun t => t.slot != c) then
      s.clearSlot q c .loading
    else s
  | none => s

/-- The output port closes a token (R84). -/
def State.closeToken (s : State) (q : Nat) (t : MioTok) : State :=
  let s := (s.mioTime t.req).passRecord t.req t.last
  let s := s.modQuad q (fun x => { x with toks := x.toks.filter (fun u => u.id != t.id) })
  (s.modReq t.req (fun r => { r with closed := true })).loadBegin q

/-- MIO_TOKEN_CLOSE (R84). -/
def execMioTokenClose (quad : Nat) (s : State) : Host.Outcome State Fault Refusal :=
  .next (
    match (s.quad quad).front with
    | some t => if s.hub ∧ (s.quad quad).mayClose t ∧ s.recordFits t.req then s.closeToken quad t else s
    | none => s)

/-! ### Dropped tokens (R104, R105) -/

/-- A slot becomes INVALID and every token of it in the quadrant is dropped: each request completes with the status, and
a TASK fault is logged for it. -/
def State.dropSlot (s : State) (q c cause status : Nat) : State :=
  let ts := (s.quad q).toks.filter (fun t => t.slot == c)
  let s := (s.clearSlot q c .invalid).loadBegin q
  s.each (ts.map MioTok.req) (fun s id =>
    let s := s.mioTime id
    match s.req id with
    | some r => (s.fault cause (mkLoc 5 q (some r.den) false 0)).endReq r status false
    | none => s)

/-- Of the watched tokens of a quadrant, the one whose last progress is oldest (R105). -/
def Quad.stuck (x : Quad) : Option MioTok :=
  (x.toks.filter (fun t => t.entered)).foldl (fun acc t => match acc with
    | some a => if t.progress.toNat < a.progress.toNat then some t else acc
    | none => some t) none

/-- MIO_TOKEN_TIMEOUT (R105): 1 ms without progress has passed. -/
def execMioTokenTimeout (quad : Nat) (s : State) : Host.Outcome State Fault Refusal :=
  .next (
    match (s.quad quad).stuck with
    | some t => if s.hub then s.dropSlot quad t.slot 0x0013 0x0D else s
    | none => s)

/-- MIO_PARITY_ERROR (R104). -/
def execMioParityError (quad slot : Nat) (s : State) : Host.Outcome State Fault Refusal :=
  .next (if s.hub ∧ (s.slot quad slot).st = .ready then s.dropSlot quad slot 0x0012 0x06 else s)

/-! ### Sampling (R109 to R117) -/

/-- Depth of the queue of a 12-bit queue id. -/
def State.queueDepth (s : State) (id : Nat) : Nat := (((s.quad (bits id 10 2)).pe (bits id 2 8)).queue (bits id 0 2)).length

/-- Selections recorded: COUNT, values above 64 acting as 64 (R114). -/
def Mioter.selCount (m : Mioter) : Nat := min 64 m.smpCount.toNat

/-- DEPTH of selection `k`; 0 from COUNT on. -/
def State.smpDepth (s : State) (k : Nat) : Nat :=
  if k < s.mioter.selCount then s.queueDepth (mget (0 : BitVec 12) s.mioter.smpSel k).toNat else 0

/-- A record of the sample buffer (R110). -/
def State.smpRecord (s : State) : Bytes :=
  toLe 8 s.wtime.toNat ++
  toLe 1 ((List.range 4).foldl (fun n q => n + (s.quad q).tag % 4 * 4 ^ q) 0) ++ List.replicate 7 0 ++
  (List.range 32).map (fun j => BitVec.ofNat 8 (s.smpDepth (2 * j) + 16 * s.smpDepth (2 * j + 1))) ++ List.replicate 16 0

/-- Write a record, or skip it and count it (R111, R116). -/
def Mioter.sample (m : Mioter) (rcd : Bytes) : Mioter :=
  if m.smpFull && !m.smpWrap then { m with smpDropped := satAdd m.smpDropped 1 }
  else { m with smpBuf := mset (List.replicate 64 0) m.smpBuf m.smpWptr.toNat rcd, smpWptr := m.smpWptr + 1
                smpFull := m.smpFull || m.smpWptr == 1023 }

/-- SAMPLE_RECORD (R109): PERIOD FCLK have passed. -/
def execSampleRecord (s : State) : Host.Outcome State Fault Refusal :=
  .next (if s.hub ∧ s.mioter.smpEn then { s with mioter := s.mioter.sample s.smpRecord } else s)

/-- WPTR becomes 0; FULL and DROPPED are cleared (R114). -/
def Mioter.restart (m : Mioter) : Mioter := { m with smpWptr := 0, smpFull := false, smpDropped := 0 }

/-- SAMPLE_RESTART (R114). -/
def execSampleRestart (s : State) : Host.Outcome State Fault Refusal :=
  .next (if s.hub then { s with mioter := s.mioter.restart } else s)

end Sys2Proof.Machine
end

