-- ==== Sys2Proof/Machine/Hoard.lean ====
section
/-!
DEFINITION. The Hoard: homes of lines, fills and pseudo-LRU replacement, service of the requests at the ports of a slice,
atomics, ROW_COMMIT and the completion of update descriptors, way changes and pin refills (05, 07 R230 to R236).
-/

namespace Sys2Proof.Machine

/-! ### Homes of lines (05 R148, R156) -/

/-- Home slice of an HBM line (R148). -/
def hSlice (a : Nat) : Nat := (List.range 8).foldl (fun x i => x ^^^ bits a (7 + 6 * i) 6) 0

/-- Slice × 4,096 + set of an HBM line (R148). -/
def hSet (a : Nat) : Nat := hSlice a * 4096 + bits a 13 12

/-- Home slice of an address of HBM or scratch (R148, R161). -/
def homeSlice (a : Nat) : Nat := if a < hbmSize then hSlice a else (a - scratchBase) / 128 % 64

/-- Victim of a set's tree among the ways that `ok` admits: at each node the half that the node's bit points to, unless
that half holds no candidate (R156). Node `n` covers `w` ways from `lo` on. -/
def plruWalk (b : BitVec 15) (ok : Nat → Bool) (fuel n lo w : Nat) : Nat :=
  match fuel with
  | 0 => lo
  | f + 1 =>
    let h := w / 2
    let left := (List.range h).any (fun i => ok (lo + i))
    let right := (List.range h).any (fun i => ok (lo + h + i))
    if (b.getLsbD n && right) || !left then plruWalk b ok f (2 * n + 2) (lo + h) h else plruWalk b ok f (2 * n + 1) lo h

/-- The bits on the path of way `v` point away from it (R156). -/
def plruTouch (b : BitVec 15) (v fuel n lo w : Nat) : BitVec 15 :=
  match fuel with
  | 0 => b
  | f + 1 =>
    let h := w / 2
    let m := BitVec.ofNat 15 (2 ^ n)
    if v < lo + h then plruTouch (b ||| m) v f (2 * n + 1) lo h else plruTouch (b &&& ~~~m) v f (2 * n + 2) (lo + h) h

/-- An access to line number `k` sets its set's tree bits. -/
def Hoard.touch (h : Hoard) (k : Nat) : Hoard :=
  { h with plru := mset 0 h.plru (k / 16) (plruTouch (mget 0 h.plru (k / 16)) (k % 16) 4 0 0 16) }

/-- A line is listed under number `k`. -/
def Hoard.lineAt (h : Hoard) (k : Nat) : Option HLine := (h.lines.find? (fun p => p.1 == k)).map Prod.snd

/-- A way of a set holds a held line: a staged row's (R156). -/
def Hoard.heldAt (h : Hoard) (k : Nat) : Bool :=
  match h.lineAt k with
  | some l => l.gen == LineGen.staged
  | none => false

/-- Held lines of a set in its SHARED ways (R156). -/
def State.heldIn (s : State) (set : Nat) : Nat :=
  ((List.range 16).filter (fun w => (s.way w).mode == .shared && s.hoard.heldAt (16 * set + w))).length

/-- Ways into which a den's misses allocate: SHARED ways of its fill mask with no change waiting (R153, R157). -/
def State.fillWays (s : State) (d : Nat) : List Nat :=
  (List.range 16).filter (fun w => (s.den d).fill.getLsbD w && (s.way w).mode == .shared && (s.way w).change.isNone)

/-- The way that a fill of a den takes in a set (R156); none = no line may be replaced. -/
def State.chooseWay (s : State) (d set : Nat) : Option Nat :=
  let ws := s.fillWays d
  match ws.find? (fun w => (s.hoard.lineAt (16 * set + w)).isNone) with
  | some w => some w
  | none =>
    let ok (w : Nat) : Bool := ws.contains w && !(s.hoard.heldAt (16 * set + w))
    if ws.any ok then some (plruWalk (mget 0 s.hoard.plru set) ok 4 0 0 16) else none

/-! ### HBM side of a line (05 R173, 06 R183 to R187) -/

/-- Pseudo-channel of an HBM address (06 R183). -/
def State.pcOf (s : State) (a : Nat) : Nat := (locate (s.granOf (a / 16777216)) (a / 16777216) (a % 16777216)).1

/-- Queue a line access at its pseudo-channel (06 R187). -/
def State.queueHbm (s : State) (a : Nat) (write : Bool) : State :=
  let p := s.pcOf a
  { s with hbm := { s.hbm with queues := mset [] s.hbm.queues p (mget [] s.hbm.queues p ++ [{ addr := a, write := write }]) } }

/-- A line as HBM holds it: a word that reads uncorrectable marks its four granules (06 R190, 22 R724). -/
def State.fromHbm (s : State) (d a : Nat) : HLine :=
  let m := (List.range 4).foldl (fun v i => if mget false s.hbm.bad (a / 32 + i) then v + 15 * 16 ^ i else v) 0
  { addr := a, den := d, data := Machine.memRead s.hbm.data a 128, poison := BitVec.ofNat 16 m }

/-- The write-back of a committed row's line has ended; the entry retires when all have (05 R168). -/
def Hoard.wbEnded (h : Hoard) (a : Nat) : Hoard :=
  let less (x : RowDir) : RowDir := if x.committed then { x with wb := x.wb.filter (fun b => b != a) } else x
  { h with dirs := (h.dirs.map less).filter (fun x => !(x.committed && x.wb.isEmpty)) }

/-- Write a dirty line back to HBM (05 R173): counted in WB and charged to the den that filled it (13 R416). -/
def State.writeLineBack (s : State) (l : HLine) : State :=
  let s := { s with hbm := s.hbm.putLine l, hoard := s.hoard.wbEnded l.addr }
  (((s.queueHbm l.addr true).chargeHbm l.den 128 true).count l.den cWb 1)

/-- Remove line number `k`, writing it back when it is a dirty HBM line (R173). -/
def State.evict (s : State) (k : Nat) : State :=
  match s.hoard.lineAt k with
  | some l =>
    let s := if l.dirty && decide (l.addr < hbmSize) && l.gen == LineGen.current then s.writeLineBack l else s
    { s with hoard := { s.hoard with lines := merase s.hoard.lines k } }
  | none => s

/-- Place a line into a way of its set that the filling den's misses take; none = it must wait. -/
def State.placeLine (s : State) (l : HLine) : Option State :=
  let set := hSet l.addr
  match s.chooseWay l.den set with
  | some w =>
    let s := s.evict (16 * set + w)
    some { s with hoard := ({ s.hoard with lines := mput s.hoard.lines (16 * set + w) l }).touch (16 * set + w) }
  | none => none

/-! ### One line of an access (05 R151, R154, R155, R159) -/

/-- The line that an access hits: the den's own, or any for an access without a den tag (R154, R155). -/
def Hoard.hit (h : Hoard) (d : Option Nat) (a : Nat) : Option (Nat × HLine) :=
  h.lines.find? (fun p => p.2.addr == a && p.2.gen == LineGen.current && (match d with
    | some x => p.2.den == x
    | none => true))

/-- Count for a den, if the access has one. -/
def State.countFor (s : State) (d : Option Nat) (c : Nat) : State :=
  match d with
  | some x => s.count x c 1
  | none => s

/-- Make an access to HBM line `a`: a hit, a fill, or a pass to HBM without a fill; none = it must wait. `bill` charges the
HBM bytes of a miss (13 R416). -/
def State.touchLine (s : State) (d : Option Nat) (a : Nat) (fill write bill : Bool) : Option State :=
  if hbmSize ≤ a then some s
  else
    match s.hoard.hit d a with
    | some p => some ({ s with hoard := s.hoard.touch p.1 }.countFor d cHit)
    | none =>
      let s := s.countFor d cMiss
      match d with
      | some x =>
        let s := if bill then s.chargeHbm x 128 write else s
        if fill then (s.queueHbm a false).placeLine (s.fromHbm x a) else some (s.queueHbm a write)
      | none => some (s.queueHbm a write)

/-- Addresses of the lines that `n` bytes at `a` touch. -/
def linesOf (a n : Nat) : List Nat :=
  if n = 0 then [] else (List.range ((a + n - 1) / 128 + 1 - a / 128)).map (fun i => (a / 128 + i) * 128)

/-- Make an access to every line of a range. -/
def State.touchLines (s : State) (d : Option Nat) (fill write bill : Bool) (l : List Nat) : Option State :=
  match l with
  | [] => some s
  | a :: rest =>
    match s.touchLine d a fill write bill with
    | some t => t.touchLines d fill write bill rest
    | none => none

/-- A row address lies in a pin region whose copy is in force: tables of the den whose pin region holds it (R158, R159). -/
def State.pinned (s : State) (d a : Nat) : Bool :=
  s.tables.any (fun p =>
    let t := p.2
    t.den == d && t.pin && !t.pinFilling && (match t.pinVer with
      | some v =>
        let lo := (t.ver v).base.toNat + t.pinBase * t.rowSize
        decide (lo ≤ a ∧ a < lo + t.pinRows * t.rowSize)
      | none => false))

/-! ### Atomics (05 R162 to R164) -/

/-- Bytes of a lane; 0 = not a format of lane atomics. -/
def laneBytes (fmt : Nat) : Nat :=
  match fmt with
  | 0xA => 4
  | 0x0 => 4
  | 0x1 => 2
  | _ => 0

/-- One lane of INT32: 1 ADD wraps, 2 MAX and 3 MIN are signed (R163). -/
def laneInt (op : Nat) (a b : W32) : W32 :=
  match op with
  | 1 => a + b
  | 2 => if a.toInt < b.toInt then b else a
  | _ => if b.toInt < a.toInt then b else a

/-- One lane of FP32. -/
def laneF32 (op : Nat) (a b : W32) : W32 :=
  match op with
  | 1 => f32add a b
  | 2 => f32max a b
  | _ => f32min a b

/-- One lane of BF16: ADD rounds the exact sum once; MAX and MIN are exact (R163). -/
def laneBf16 (op a b : Nat) : Nat :=
  match op with
  | 1 => (encodeF bf16 (faddX (decodeF bf16 a) (decodeF bf16 b))).1
  | 2 => (f32max (BitVec.ofNat 32 (a * 65536)) (BitVec.ofNat 32 (b * 65536))).toNat / 65536
  | _ => (f32min (BitVec.ofNat 32 (a * 65536)) (BitVec.ofNat 32 (b * 65536))).toNat / 65536

/-- The bytes of one lane after an atomic. -/
def laneOp (op fmt : Nat) (old arg : Nat) : Bytes :=
  match fmt with
  | 0xA => toLe 4 (laneInt op (BitVec.ofNat 32 old) (BitVec.ofNat 32 arg)).toNat
  | 0x0 => toLe 4 (laneF32 op (BitVec.ofNat 32 old) (BitVec.ofNat 32 arg)).toNat
  | _ => toLe 2 (laneBf16 op old arg)

/-- The extent after a lane atomic. -/
def laneAtomic (op fmt lanes : Nat) (old arg : Bytes) : Bytes :=
  let n := laneBytes fmt
  (List.range lanes).flatMap (fun i => laneOp op fmt (fld old (n * i) n) (fld arg (n * i) n))

/-! ### Completing an update descriptor (07 R232 to R236) -/

/-- Number of update ring `r` of den `d`, and of its completion ring. -/
abbrev updKey (d r : Nat) : Nat := 32 * (d + 1) + 25 + r
abbrev ucqKey (d r : Nat) : Nat := 32 * (d + 1) + 27 + r

/-- An update completion entry (07 R235). -/
def updEntry (tag status flags ring vslot done skipped : Nat) (tAccept tDone : W64) : Bytes :=
  toLe 2 tag ++ toLe 1 status ++ toLe 1 (2 * flags) ++ toLe 1 ring ++ toLe 1 vslot ++ [0, 0] ++ toLe 4 done ++
  toLe 4 skipped ++ toLe 8 tAccept.toNat ++ toLe 8 tDone.toNat

/-- Post an update completion into the slot that was reserved, and send the vector of the ring when IRQ asks for it. -/
def State.postUpd (s : State) (d r : Nat) (irq : Bool) (e : Bytes) : State :=
  (s.count d cUpd 1).pushEntry (ucqKey d r) e (if irq then some (16 + r) else none)

/-- Stride of the records of a block (07 R227). -/
def State.updStride (s : State) (u : UpdCur) : Nat := 16 + (s.table u.table).rowSize

/-- Record `idx` has arrived whole. -/
def State.updHas (s : State) (u : UpdCur) : Bool :=
  decide (u.idx < u.count) && decide ((u.idx + 1) * s.updStride u ≤ u.block.length)

/-- Every record of the descriptor in progress has been staged or skipped, or can no longer arrive, and every staged row
has been committed. -/
def State.updEnded (s : State) (d r : Nat) (u : UpdCur) : Bool :=
  !(s.updHas u) && (decide (u.count ≤ u.idx) || u.failed.isSome) &&
  !(s.hoard.dirs.any (fun x => x.den == d && x.ring == r && !x.committed))

/-- Complete the descriptor in progress of an update ring when it has ended (07 R234, R236). -/
def State.updCheck (s : State) (d r : Nat) : State :=
  match s.upd d r with
  | none => s
  | some u =>
    if s.updEnded d r u then
      let s := (s.setUpd d r none).dropRef u.table u.vslot false
      s.postUpd d r u.irq (updEntry u.tag.toNat (u.failed.getD 0) u.flags r u.vslot u.idx u.skipped u.tAccept s.wtime)
    else s

/-! ### ROW_COMMIT (05 R167, R168, 07 R231) -/

/-- The line of a row that becomes current: what the line holds now, overwritten with the bytes of the row; the marks of
granules that the row covers whole come from the staged copy (05 R177). -/
def State.commitLine (s : State) (x : RowDir) (staged : HLine) : HLine :=
  let a := staged.addr
  let lo := max a x.addr
  let hi := min (a + 128) (x.addr + x.len)
  let cur := (List.range 128).map (fun i => s.devByte (a + i))
  let curP := (List.range 16).foldl (fun v g => if s.devPoison (a + 8 * g) then v + 2 ^ g else v) 0
  let inside := (wholeGranules (lo - a) (hi - lo)).foldl (fun v g => v + 2 ^ g) 0
  { staged with gen := .current, dirty := true, data := patchB cur (lo - a) (sliceB x.row (lo - x.addr) (hi - lo)),
                poison := (BitVec.ofNat 16 curP &&& ~~~(BitVec.ofNat 16 inside)) ||| staged.poison }

/-- One staged line becomes current; the old line leaves, since no read of the row is in progress (R167). -/
def State.commitOne (s : State) (x : RowDir) (p : Nat × HLine) : State :=
  let l := s.commitLine x p.2
  let rest := s.hoard.lines.filter (fun q => !(q.2.addr == l.addr && q.2.gen == LineGen.current))
  ({ s with hoard := { s.hoard with lines := mput rest p.1 l } }).queueHbm l.addr true

/-- ROW_COMMIT of a staged row: every new line is current, dirty and queued for write-back (R167, R168). -/
def State.commitRow (s : State) (x : RowDir) : State :=
  let ls := s.hoard.lines.filter (fun p => p.2.gen == LineGen.staged &&
    decide (x.addr / 128 * 128 ≤ p.2.addr ∧ p.2.addr < x.addr + x.len))
  let s := ls.foldl (fun s p => s.commitOne x p) s
  let h := s.hoard
  let done (y : RowDir) : RowDir := { y with committed := true, wb := ls.map (fun (p : Nat × HLine) => p.2.addr) }
  let s := { s with hoard := { h with dirs := modFirst (fun y => y.id == x.id) done h.dirs } }
  ((s.count x.den cUpdRows 1).count x.den cAtom 1).updCheck x.den x.ring

/-! ### Answers (05 R149) -/

/-- A tile access has been served (08 R263). -/
def Tile.serveAcc (x : Tile) (acc : Nat) (data : Bytes) (poison : Bool) : Tile :=
  { x with accs := modFirst (fun g => g.id == acc) (fun g => { g with st := .served data poison }) x.accs }

/-- A stream transfer has been served; poison of an IN transfer is SUBCAUSE 4 (11 R364). -/
def StreamUnit.serveXfer (u : StreamUnit) (dseq addr : Nat) (data : Bytes) (fail : Nat) : StreamUnit :=
  let serve (x : SuXfer) : SuXfer := { x with served := true, data := if x.out then x.data else data, fail := fail }
  { u with xfers := modFirst (fun x => x.dseq == dseq && x.addr == addr && !x.served) serve u.xfers }

/-- Change a stream unit of a tile. -/
def Tile.modUnit (x : Tile) (unit : Nat) (f : StreamUnit → StreamUnit) : Tile :=
  if unit = 0 then { x with su0 := f x.su0 } else { x with su1 := f x.su1 }

/-- A gather read has been served. -/
def Forager.serveSlot (f : Forager) (id : Nat) (kind : ReadKind) (data : Bytes) (poison : Bool) : Forager :=
  let serve (x : GSlot) : GSlot := { x with data := some data, poison := poison }
  { f with slots := modFirst (fun x => x.r.id == id && x.kind == kind && x.data.isNone) serve f.slots }

/-- SUBCAUSE POISON of a failed IN transfer (11 R364). -/
abbrev subPoison : Nat := 2

/-- Give the answer of a request to its issuer. -/
def State.answer (s : State) (dst : HDst) (data : Bytes) (poison : Bool) : State :=
  match dst with
  | .none => s
  | .tile t acc => s.modTile t (fun x => x.serveAcc acc data poison)
  | .stream t unit dseq addr => s.modTile t (fun x => x.modUnit unit (fun u =>
      u.serveXfer dseq addr data (if poison then subPoison else 0)))
  | .gather id kind => { s with forager := s.forager.serveSlot id kind data poison }

/-! ### Serving a request (05 R149 to R151) -/

/-- A gather read of a pinned row is served from pin space (R159). -/
def State.fromPin (s : State) (r : HReq) : Bool :=
  match r.dst, r.den with
  | .gather _ _, some d => s.pinned d r.addr
  | _, _ => false

/-- A gather read charges its den for the HBM bytes of a miss (13 R416). -/
def HDst.bills (d : HDst) : Bool :=
  match d with
  | .gather _ _ => true
  | _ => false

/-- The accesses that a read, a write or an atomic makes to its lines; none = it must wait. -/
def State.reach (s : State) (r : HReq) (fill write : Bool) : Option State :=
  if s.fromPin r then some (s.countFor r.den cHit)
  else s.touchLines r.den fill write r.dst.bills (linesOf r.addr r.len)

/-- Apply an atomic to its extent (R162 to R164); one whose extent is poisoned is not applied (22 R725). -/
def State.applyAtomic (s : State) (r : HReq) (f : Bytes → Bytes) (ret : Bool) : State :=
  let old := s.devRead r.addr r.len
  if s.devBad r.addr r.len then s.answer r.dst [] true
  else (((s.devWrite r.addr (f old)).countFor r.den cAtom).answer r.dst (if ret then old else []) false)

/-- Serve a request; none = it cannot be served in this HCLK (R149). -/
def State.serveReq (s : State) (r : HReq) : Option State :=
  match r.kind with
  | .read fill => (s.reach r fill false).map (fun s => s.answer r.dst (s.devRead r.addr r.len) (s.devBad r.addr r.len))
  | .write fill => (s.reach r fill true).map (fun s => (s.devWrite r.addr r.data).answer r.dst [] false)
  | .lanes op fmt n ret => (s.reach r true true).map (fun s =>
      s.applyAtomic r (fun old => laneAtomic op fmt n old r.data) ret)
  | .cas cmp swap => (s.reach r true true).map (fun s =>
      s.applyAtomic r (fun old => if leNat old = cmp.toNat then toLe 8 swap.toNat else old) true)
  | .swap v => (s.reach r true true).map (fun s => s.applyAtomic r (fun _ => toLe 8 v.toNat) true)
  | .commit dir =>
    some (match s.hoard.dirs.find? (fun x => x.id == dir) with
      | some x => s.commitRow x
      | none => s)

/-- Queue of port `p` of a slice: 0 West, 1 East, 2 Forager, 3 Link, 4 Hub (R149). -/
def State.hPort (s : State) (slice p : Nat) : List HReq := mget [] s.hoard.ports (5 * slice + p)

/-- Put a request at a port of its home slice. -/
def State.askHoard (s : State) (port : Nat) (r : HReq) : State :=
  let k := 5 * homeSlice r.addr + port
  { s with hoard := { s.hoard with ports := mset [] s.hoard.ports k (mget [] s.hoard.ports k ++ [r]) } }

/-- Take the head of a port. -/
def State.popPort (s : State) (slice p : Nat) : State :=
  let k := 5 * slice + p
  { s with hoard := { s.hoard with ports := mset [] s.hoard.ports k (mget [] s.hoard.ports k).tail,
                                   lastPort := mset 4 s.hoard.lastPort slice p } }

/-- The first port in round-robin order, after the one served last, whose head can be served, with that request and the
state after its service (R149). -/
def State.nextServed (s : State) (slice : Nat) : Option (HReq × State) :=
  let last := mget 4 s.hoard.lastPort slice
  ((List.range 5).map (fun i => (last + 1 + i) % 5)).findSome? (fun p =>
    match s.hPort slice p with
    | r :: _ => ((s.popPort slice p).serveReq r).map (fun t => (r, t))
    | [] => none)

/-- One HCLK of a slice, when the request it serves is of the kind that the row names. -/
def State.sliceRow (s : State) (slice : Nat) (kind : HKind → Bool) : State :=
  if s.hub then
    match s.nextServed slice with
    | some (r, t) => if kind r.kind then t else s
    | none => s
  else s

/-! ### ECC of Hoard SRAM (05 R177) -/

/-- An ECC error in the line that the next request of a slice reads: 1 corrected, 2 uncorrectable. -/
def State.hoardEcc (s : State) (slice ecc : Nat) : State :=
  match s.nextServed slice with
  | none => s
  | some (r, _) =>
    match s.hoard.find r.addr with
    | none => s
    | some p =>
      let loc := mkLoc 2 slice none false (p.1 / 16 % 4096 + 4096 * (p.1 % 16))
      let h := s.hoard
      if ecc = 1 then { s with hoard := { h with corr := satAdd h.corr 1 } }.fault 0x0102 loc
      else
        let h := { h with uncorr := satAdd h.uncorr 1 }
        let keep := p.2.dirty || decide (hbmSize ≤ p.2.addr)
        let lines := if keep then mput h.lines p.1 { p.2 with poison := p.2.poison ||| BitVec.ofNat 16 (2 ^ (r.addr % 128 / 8)) }
          else merase h.lines p.1
        { s with hoard := { h with lines := lines } }.fault 0x0103 loc

/-! ### The rows -/

/-- HOARD_REQUEST (R149): the slice serves a read or a write; `ecc` 1 or 2 is an error found in the line (R177). -/
def execHoardRequest (slice ecc : Nat) (s : State) : Host.Outcome State Fault Refusal :=
  let s := if s.hub ∧ (ecc = 1 ∨ ecc = 2) then s.hoardEcc slice ecc else s
  .next (s.sliceRow slice (fun k => match k with
    | .read _ => true
    | .write _ => true
    | _ => false))

/-- The request is a lane atomic of this OP. -/
def HKind.isLane (k : HKind) (op : Nat) : Bool :=
  match k with
  | .lanes o _ _ _ => o == op
  | _ => false

/-- HOARD_ADD (R162). -/
def execHoardAdd (slice : Nat) (s : State) : Host.Outcome State Fault Refusal :=
  .next (s.sliceRow slice (fun k => k.isLane 1))

/-- HOARD_MAX (R162). -/
def execHoardMax (slice : Nat) (s : State) : Host.Outcome State Fault Refusal :=
  .next (s.sliceRow slice (fun k => k.isLane 2))

/-- HOARD_MIN (R162). -/
def execHoardMin (slice : Nat) (s : State) : Host.Outcome State Fault Refusal :=
  .next (s.sliceRow slice (fun k => k.isLane 3))

/-- CAS64 (R162). -/
def execCas64 (slice : Nat) (s : State) : Host.Outcome State Fault Refusal :=
  .next (s.sliceRow slice (fun k => match k with
    | .cas _ _ => true
    | _ => false))

/-- SWAP64 (R162). -/
def execSwap64 (slice : Nat) (s : State) : Host.Outcome State Fault Refusal :=
  .next (s.sliceRow slice (fun k => match k with
    | .swap _ => true
    | _ => false))

/-- ROW_COMMIT (R162, R167). -/
def execRowCommit (slice : Nat) (s : State) : Host.Outcome State Fault Refusal :=
  .next (s.sliceRow slice (fun k => match k with
    | .commit _ => true
    | _ => false))

/-- Some line of a way is held (R157). -/
def Hoard.wayHeld (h : Hoard) (w : Nat) : Bool := h.lines.any (fun p => p.1 % 16 == w && p.2.gen == LineGen.staged)

/-- A way changes mode and owner: a SHARED way's dirty lines are written back first, and every line of the way is zeroed
(R157). -/
def State.applyWay (s : State) (w : Nat) (m : WayMode × Nat) : State :=
  let ks := (s.hoard.lines.filter (fun p => p.1 % 16 == w)).map Prod.fst
  let s := if (s.way w).mode = .shared then s.each ks State.evict else s
  ({ s with hoard := s.hoard.zeroWay w }).modWay w (fun _ => { mode := m.1, owner := m.2 })

/-- WAY_CHANGE_DONE (R157): a change that waited takes effect, no line of the way being held. -/
def execWayChangeDone (way : Nat) (s : State) : Host.Outcome State Fault Refusal :=
  .next (
    match (s.way way).change with
    | some m => if s.hub ∧ ¬ s.hoard.wayHeld way then s.applyWay way m else s
    | none => s)

/-- PIN_REFILL_DONE (R159): PIN_VER becomes the slot whose rows the region now holds. -/
def execPinRefillDone (table : Nat) (s : State) : Host.Outcome State Fault Refusal :=
  .next (
    let t := s.table table
    if s.hub ∧ t.present ∧ t.pin ∧ t.pinFilling then
      s.modTable table (fun x => { x with pinVer := some x.active, pinFilling := false })
    else s)

end Sys2Proof.Machine
end

