-- ==== Sys2Proof/Machine/HbmOps.lean ====
section
/-!
DEFINITION. The HBM controllers: serving a pseudo-channel's queue, ECC, scrub, repair candidates and online repair
(06 R186 to R192, R198, R199, R769).
-/

namespace Sys2Proof.Machine

/-! ### Repair candidates (R192) -/

/-- Ticks of 24 hours of Warren time. -/
abbrev dayTicks : Nat := 86400 * 250000000

/-- A row becomes a candidate, unless it already is one, is being repaired or waits for hard repair. -/
def HbmStack.candidate (y : HbmStack) (key : Nat) : HbmStack :=
  if y.cands.contains key ∨ y.repair = some key ∨ y.pendRows.contains key then y else { y with cands := y.cands ++ [key] }

/-- The tracking entry with the oldest first error leaves a full table. -/
def dropOldest (l : List (Nat × List W64)) : List (Nat × List W64) :=
  let first (p : Nat × List W64) : Nat := (p.2.head?.getD 0).toNat
  match l.foldl (fun acc p => match acc with
    | some q => if first p < first q then some p else acc
    | none => some p) none with
  | some q => l.filter (fun p => p.1 != q.1)
  | none => l

/-- Count a corrected read of a row: three within 24 hours make it a candidate. -/
def HbmStack.correctedRead (y : HbmStack) (key : Nat) (now : W64) : HbmStack :=
  let old := ((y.track.find? (fun p => p.1 == key)).map Prod.snd).getD []
  let times := (old.filter (fun t => decide ((now - t).toNat ≤ dayTicks))) ++ [now]
  let rest := y.track.filter (fun p => p.1 != key)
  if 3 ≤ times.length then ({ y with track := rest }).candidate key
  else { y with track := (if 64 ≤ rest.length then dropOldest rest else rest) ++ [(key, times)] }

/-! ### ECC of a read (R189, R190) -/

/-- A read of words finds `corr` corrected and `unc` uncorrectable ones in the row at `a`: counters, log, candidate, and
the corrected words are written back. -/
def State.eccRead (s : State) (a : Nat) (ws corr unc : List Nat) : State :=
  let key := s.rowKey a
  let n := key % 256
  let s := (s.hbmUncorr a unc.length).hbmCorr a corr.length
  let s := { s with hbm := { s.hbm with weak := ws.foldl (fun m w => mset false m w false) s.hbm.weak,
                                        bad := unc.foldl (fun m w => mset false m w true) s.hbm.bad } }
  let loc := mkLoc 3 n none false (s.stack n).errlog.toNat
  let s := if corr.isEmpty then s else (s.modStack n (fun y => y.correctedRead key s.wtime)).fault 0x0104 loc
  if unc.isEmpty then s else (s.modStack n (fun y => y.candidate key)).fault 0x0105 loc

/-- The words of a line that read corrected, and those that read uncorrectable: what the model holds of each word, and the
error that this read meets (`ecc` 1 to 4 one symbol of word ecc − 1, 5 to 8 more symbols of word ecc − 5). -/
def State.lineErrors (s : State) (a ecc : Nat) : List Nat × List Nat :=
  let ws := (List.range 4).map (fun i => a / 32 + i)
  let unc := ws.filter (fun w => mget false s.hbm.bad w || decide (5 ≤ ecc ∧ ecc ≤ 8 ∧ w % 4 = ecc - 5))
  let corr := ws.filter (fun w => !(unc.contains w) &&
    (mget false s.hbm.weak w || decide (1 ≤ ecc ∧ ecc ≤ 4 ∧ w % 4 = ecc - 1)))
  (corr, unc)

/-- The granules of uncorrectable words are marked in the line that the Hoard holds clean (R190, 22 R724). -/
def Hoard.poisonWords (h : Hoard) (a : Nat) (unc : List Nat) : Hoard :=
  let m := unc.foldl (fun v w => v + 15 * 16 ^ (w % 4)) 0
  { h with lines := h.lines.map (fun (p : Nat × HLine) =>
      if p.2.addr = a ∧ p.2.gen = LineGen.current ∧ p.2.dirty = false then
        (p.1, { p.2 with poison := p.2.poison ||| BitVec.ofNat 16 m }) else p) }

/-- A line read is served. -/
def State.serveHbmRead (s : State) (a ecc : Nat) : State :=
  let e := s.lineErrors a ecc
  let s := s.eccRead a ((List.range 4).map (fun i => a / 32 + i)) e.1 e.2
  if e.2.isEmpty then s else { s with hoard := s.hoard.poisonWords a e.2 }

/-- A line write is served: the line of a committed row that waited for its write-back is clean from here on (05 R168). -/
def State.serveHbmWrite (s : State) (a : Nat) : State :=
  if s.hoard.dirs.any (fun x => x.committed && x.wb.contains a) then
    match s.hoard.find a with
    | some p =>
      let s := { s with hbm := s.hbm.putLine p.2,
                        hoard := { s.hoard with lines := mput s.hoard.lines p.1 { p.2 with dirty := false } }.wbEnded a }
      (s.chargeHbm p.2.den 128 true).count p.2.den cWb 1
    | none => { s with hoard := s.hoard.wbEnded a }
  else s

/-! ### The queue of a pseudo-channel (R186, R187) -/

/-- Bank of a row key: STACK, DIE, PC and BANK. -/
def bankKey (key : Nat) : Nat := key % 2 ^ 32

/-- The bank of an access is blocked by a repair (R198). -/
def State.bankBlocked (s : State) (a : Nat) : Bool :=
  let key := s.rowKey a
  match (s.stack (key % 256)).repair with
  | some k => bankKey k == bankKey key
  | none => false

/-- The DRAM row of an access is open. -/
def State.rowIsOpen (s : State) (a : Nat) : Bool :=
  let key := s.rowKey a
  mget 0 (s.stack (key % 256)).openRow (bankKey key) == key / 2 ^ 32 + 1

/-- The access served next: one that 16 later ones have passed, else the oldest to an open row, else the oldest. -/
def State.hbmNext (s : State) (q : List HbmAcc) : Option (Nat × HbmAcc) :=
  let free (x : HbmAcc) : Bool := !(s.bankBlocked x.addr)
  match findIdxWith (fun x => free x && decide (16 ≤ x.passedBy)) q 0 with
  | some p => some p
  | none =>
    match findIdxWith (fun x => free x && s.rowIsOpen x.addr) q 0 with
    | some p => some p
    | none => findIdxWith free q 0

/-- A row stays open while a queued access targets it (R187). -/
def State.keepRow (s : State) (a : Nat) (rest : List HbmAcc) : State :=
  let key := s.rowKey a
  let more := rest.any (fun x => s.rowKey x.addr == key)
  s.modStack (key % 256) (fun y => { y with openRow := mset 0 y.openRow (bankKey key) (if more then key / 2 ^ 32 + 1 else 0) })

/-- HBM_ACCESS (R187): the controller serves one access of pseudo-channel `pc`; `ecc` is the error that a read meets. -/
def execHbmAccess (pc : Nat) (ecc : Nat) (s : State) : Host.Outcome State Fault Refusal :=
  .next (
    let q := mget [] s.hbm.queues pc
    match s.hbmNext q with
    | some (i, x) =>
      if s.hub then
        let rest := ((q.take i).map (fun y => { y with passedBy := y.passedBy + 1 })) ++ q.drop (i + 1)
        let s := { s with hbm := { s.hbm with queues := mset [] s.hbm.queues pc rest } }.keepRow x.addr rest
        if x.write then s.serveHbmWrite x.addr else s.serveHbmRead x.addr ecc
      else s
    | none => s)

/-! ### Scrub (R191) -/

/-- 32-byte words of a stack: 36 GiB. -/
abbrev stackWords : Nat := 36 * 2 ^ 30 / 32

/-- Address of the `n`-th 32-byte word that a stack holds, in the order of layers, stripes and their bytes
(06 R181 to R183, 18 R610). -/
def State.scrubAddr (s : State) (stack n : Nat) : Nat :=
  let pass := (List.range 8).filter (fun n => s.boot.stacks8.getLsbD n)
  let k := max 1 pass.length
  let span := 18432 / ((7 + k) / k)
  let st := n / 65536 % span
  let logical := (List.idxOf stack pass + k * (n / 65536 / span)) % 8
  let p := logical + 8 * (n % 65536 / 2048)
  st * 16777216 + unlocate (s.granOf st) st p (n % 2048 * 32)

/-- HBM_SCRUB_READ (R191): one word is read and corrected; `ecc` 1 = one symbol in error, 2 = more. -/
def execHbmScrubRead (stack : Nat) (ecc : Nat) (s : State) : Host.Outcome State Fault Refusal :=
  .next (
    let y := s.stack stack
    if s.hub ∧ stack < 8 ∧ y.scrubEn then
      let a := s.scrubAddr stack y.scrubPos
      let w := a / 32
      let bad := mget false s.hbm.bad w || ecc == 2
      let weak := !bad && (mget false s.hbm.weak w || ecc == 1)
      let last := decide (stackWords ≤ y.scrubPos + 1)
      let s := s.modStack stack (fun y => { y with scrubPos := if last then 0 else y.scrubPos + 1
                                                   scrubPasses := if last then y.scrubPasses + 1 else y.scrubPasses })
      s.eccRead a [w] (if weak then [w] else []) (if bad then [w] else [])
    else s)

/-! ### Online repair (R198, R199) -/

/-- The soft resource of a row's bank group is free. -/
def HbmStack.softFree (y : HbmStack) (key : Nat) : Bool := !(y.softRows.any (fun k => rowGroup k == rowGroup key))

/-- HBM_ROW_REPAIR (R198, R199): the oldest candidate's online repair begins, or it is recorded as pending. -/
def execHbmRowRepair (stack : Nat) (s : State) : Host.Outcome State Fault Refusal :=
  .next (
    let y := s.stack stack
    match y.cands with
    | key :: rest =>
      if s.hub ∧ y.repair = none then
        if y.softFree key then s.modStack stack (fun y => { y with cands := rest, repair := some key })
        else
          (s.modStack stack (fun y => { y with cands := rest, pendRows := y.pendRows ++ [key] })).record 8 (rowRecord key 0 0) none
      else s
    | [] => s)

/-- The words of a row that hold a single-symbol error are corrected as the row is read into the repair buffer; the
uncorrectable ones keep their mark. -/
def State.rowRead (s : State) (key : Nat) : State :=
  { s with hbm := { s.hbm with weak := s.hbm.weak.filter (fun (p : Nat × Bool) => s.rowKey (32 * p.1) != key) } }

/-- HBM_REPAIR_DONE (R198): the spare row serves, and the retirement is recorded. -/
def execHbmRepairDone (stack : Nat) (s : State) : Host.Outcome State Fault Refusal :=
  .next (
    match (s.stack stack).repair with
    | some key =>
      if s.hub then
        ((s.rowRead key).modStack stack (fun y => { y with repair := none, softRows := y.softRows ++ [key] })).record 8
          (rowRecord key 1 0) none
      else s
    | none => s)

end Sys2Proof.Machine
end

