-- ==== Sys2Proof/Machine/ForagerOps.lean ====
section
/-!
DEFINITION. The Forager: records, reads of rows, remote requests, arrival slots, prefetches and the history walker
(04 R125 to R143, 05 R169 to R172, 12 R375 to R386).
-/

namespace Sys2Proof.Machine

/-! ### Records (04 R82, R129, R142) -/

/-- Fields of an index record (03 R82). -/
abbrev rRow (b : Bytes) : Nat := fld b 0 5
abbrev rSample (b : Bytes) : Nat := bits (fld b 5 2) 0 12
abbrev rGroup (b : Bytes) : Nat := bits (fld b 5 2) 12 4
abbrev rEmpty (b : Bytes) : Bool := tbit (fld b 7 1) 1
abbrev rTable (b : Bytes) : Nat := fld b 8 2
abbrev rWeight (b : Bytes) : W32 := BitVec.ofNat 32 (fld b 0xC 4)

/-- The entry of a group that a record's table is (R129). -/
def PoolGroup.entOf (g : PoolGroup) (table : Nat) : Option Nat := (findIdxWith (fun (p : Nat × Nat) => p.1 == table) g.tabs 0).map Prod.fst

/-- Where a record of a request belongs: its entry, unless R129 drops it. -/
def State.recordEnt (s : State) (q : Req) (b : Bytes) : Option Nat :=
  if (s.entryOf q).groups.length ≤ rGroup b ∨ q.samples ≤ rSample b then none
  else
    let g := s.groupOf q (rGroup b)
    match g.entOf (rTable b) with
    | some e => if g.mode = 4 ∧ g.catN ≤ (q.bag (rSample b) (rGroup b) e).seen then none else some e
    | none => none

/-- Take a record into the index buffer. -/
def State.storeRecord (s : State) (q : Req) (e : Nat) (b : Bytes) : State :=
  let bag := q.bag (rSample b) (rGroup b) e
  let x : FRec := { id := s.forager.recSeq, req := q.id, smp := rSample b, grp := rGroup b, ent := e, table := rTable b,
                    row := rRow b, weight := rWeight b, ord := bag.seen }
  let col := decide ((s.table (rTable b)).layout = 2)
  let f := s.forager
  { s with forager := { f with ibuf := f.ibuf ++ [x], recSeq := f.recSeq + 1 } }.modReq q.id (fun r =>
    r.modBag x.smp x.grp e (fun y => { y with seen := y.seen + 1
                                              colRows := if col then y.colRows ++ [(x.row, x.weight)] else y.colRows }))

/-- One record of a live request arrives. -/
def State.arrive (s : State) (q : Req) (b : Bytes) : State :=
  if rEmpty b then s.finishBags q.id
  else
    match s.recordEnt q b with
    | some e => s.storeRecord q e b
    | none => (s.count q.den cDrop 1).finishBags q.id

/-- FORAGER_RECORD_ARRIVE (R129, R142): the oldest record on its way; one whose request has ended is lost. -/
def execForagerRecordArrive (s : State) : Host.Outcome State Fault Refusal :=
  .next (
    match s.forager.inq with
    | (id, b) :: rest =>
      if s.hub then
        let t := { s with forager := { s.forager with inq := rest } }
        match s.req id with
        | some q => if q.phase = .aborting then t else t.arrive q b
        | none => t
      else s
    | [] => s)

/-! ### Slots (R131, R132) -/

/-- Slots that a den holds. -/
def State.slotsOf (s : State) (d : Nat) : Nat :=
  (s.forager.slots.filter (fun x => match s.req x.r.req with
    | some q => q.den == d
    | none => false)).length

/-- The lowest-numbered engine that has a free slot. -/
def State.freeEngine (s : State) : Option Nat :=
  (List.range 32).find? (fun e => s.boot.engines.getLsbD e &&
    decide ((s.forager.slots.filter (fun x => x.engine == e)).length < 128))

/-- A den may hold a further slot (R132, R146). -/
def State.maySlot (s : State) (d : Nat) : Bool := decide (s.slotsOf d < max 1 (min 4096 (s.den d).inflightMax.toNat))

/-- The den's buckets let a row read go (13 R416). -/
def State.readTokens (s : State) (d : Nat) : Bool := (s.den d).open .hoard && (s.den d).open .hbm

/-- Issue a read of `len` bytes at `a` on an engine: the slot is held, the HOARD bucket charged for its lines, and the read
is presented at the Forager's port (R131, R132, 13 R416). -/
def State.issueSlot (s : State) (d e : Nat) (x : FRec) (kind : ReadKind) (a len : Nat) : State :=
  let f := s.forager
  let slot : GSlot := { engine := e, r := x, kind := kind, addr := a, len := len }
  let c := if kind = ReadKind.prefetch then cPf else cRows
  let s := ({ s with forager := { f with slots := f.slots ++ [slot] } }.chargeHoard d (128 * (linesOf a len).length)).count d c 1
  s.askHoard 2 { kind := .read true, den := some d, addr := a, len := len, dst := .gather x.id kind }

/-- Issue a read when an engine, the den's share and its tokens allow it. -/
def State.trySlot (s : State) (d : Nat) (x : FRec) (kind : ReadKind) (a len : Nat) : Option State :=
  match s.freeEngine with
  | some e => if s.maySlot d && s.readTokens d then some (s.issueSlot d e x kind a len) else none
  | none => none

/-- Version slot of a table that a request captured (01 R30). -/
def Req.slotOf (q : Req) (t : Nat) : Nat := ((q.versions.find? (fun p => p.1 == t)).map Prod.snd).getD 0

/-- Device address of a local row in a version slot. -/
def Table.rowAddr (t : Table) (v l : Nat) : Nat := (t.ver v).base.toNat + l * t.rowSize

/-- What this device reads for a row: the row itself, or the default row; `none` = a zero vector (R125). -/
def Table.localAddr (t : Table) (v row : Nat) : Option Nat :=
  if t.rows ≤ row then (if t.defrow then some t.defaultAddr else none)
  else some (t.rowAddr v (if t.layout = 1 then (t.owner row).2 else row))

/-- The device that holds a row of a ROW table; 0 to SHARDS. For another layout, and for a default row, none: the row is
read here (R122, R125). -/
def State.remoteShard (s : State) (t : Table) (row : Nat) : Option Nat :=
  if t.layout = 1 ∧ row < t.rows ∧ t.shardId (t.owner row).1 ≠ s.fab.wid then some (t.owner row).1 else none

/-! ### What a part becomes (R128, R134, 12 R377, R378) -/

/-- Placed history tiles of a request: indices 0 to HTN − 1. -/
def histTiles (q : Req) (h : HistDecl) : List Nat := q.tiles.take h.htn

/-- Output elements of the history table, packed in HOUT_FMT, up to a multiple of 16 bytes (12 R373). -/
def State.embBytes (s : State) (h : HistDecl) : Nat :=
  let t := s.table h.htable
  let n := if t.layout = 2 then (t.shards + 1) * t.elems else t.elems
  (n * elemBits h.outFmt / 8 + 15) / 16 * 16

/-- Write into a buffer of every history tile. -/
def State.histWrite (s : State) (q : Req) (h : HistDecl) (off : Nat) (bs : Bytes) (poison : Bool) : State :=
  s.each (histTiles q h) (fun s t => s.modTile t (fun x =>
    let x := x.putSram (h.bufOff + off) bs
    if poison then x.poisonSram (h.bufOff + off) bs.length else x))

/-- Bytes of elements in an output format, not padded. -/
def fmtBytes (fmt : Nat) (v : List W32) : Bytes :=
  let f := (ffmtOf fmt).getD fp32
  packElems fmt (v.map (fun x => (encodeF f (decF32 x)).1))

/-- Place the embedding, or one slice of it, of the event at position `ent` of chunk `smp` (12 R378). -/
def State.placeEmb (s : State) (q : Req) (x : FRec) (shard : Nat) (v : List W32) (poison : Bool) : State :=
  match (s.entryOf q).hist with
  | none => s
  | some h =>
    let t := s.table h.htable
    let slice := t.elems * elemBits h.outFmt / 8
    let k := if t.layout = 2 then shard else 0
    let b := fmtBytes h.outFmt v
    let b := if t.layout = 2 then b else padB (s.embBytes h) b
    s.histWrite q h (x.smp % 2 * h.bufBytes + 0x20000 + x.ent * s.embBytes h + k * slice) b poison

/-- The elements of a row that a record asked for have come: they join its bag, or the history buffer. -/
def State.takeRow (s : State) (x : FRec) (shard : Nat) (remote : Bool) (v : List W32) (poison : Bool) : State :=
  match s.req x.req with
  | none => s
  | some q =>
    if x.kind = .history then s.placeEmb q x shard v poison
    else s.addPart q.id x.smp x.grp x.ent
      { ord := x.ord, shard := shard, rows := 1, vals := v, weight := x.weight, remote := remote, poison := poison }

/-- This device's shard index in a table; 0 for a table without shards. -/
def State.ownOf (s : State) (t : Table) : Nat := (t.ownShard s.fab.wid).getD 0

/-! ### Failing and remote lookups (16 R529, R535) -/

/-- A lookup that cannot be answered ends its request with ABORTED (16 R535). -/
def State.failLookup (s : State) (id : Nat) : State :=
  let s := { s with fab := { s.fab with failed := satAdd s.fab.failed 1 } }
  match s.req id with
  | none => s
  | some q =>
    match q.phase with
    | .running | .yielded => s.startAbort id 0x0C false
    | .unplaced | .placed => s.endReq q 0x0C false
    | .aborting => s

/-- A transaction entry is free (16 R534), and the den's IFESIL bucket lets a request go (13 R416). -/
def State.mayAsk (s : State) (d : Nat) : Bool := decide (s.fab.xacts.length < 16384) && (s.den d).open .ifs

/-- Send a request and hold its transaction entry; without a route it fails at once (16 R529). -/
def State.ask (s : State) (m : Bytes) (x : Xact) (req : Nat) : State :=
  match s.send m with
  | some t => { t with fab := { t.fab with xacts := t.fab.xacts ++ [x] } }
  | none => s.failLookup req

/-- A fresh transaction id: those below 65,536 are arrival slots. -/
def State.newTid (s : State) : W32 × State :=
  (BitVec.ofNat 32 (65536 + s.fab.tidSeq), { s with fab := { s.fab with tidSeq := (s.fab.tidSeq + 1) % (2 ^ 32 - 65536) } })

/-- ROW_READ of a row from shard `k` (16 R524). -/
def State.askRow (s : State) (q : Req) (x : FRec) (t : Table) (k : Nat) : State :=
  let n := s.newTid
  let m := n.2.mkMsg 0x10 (t.shardId k) q.den 0 n.1
    (toLe 2 x.table ++ toLe 1 (q.slotOf x.table) ++ [0] ++ toLe 8 x.row) []
  n.2.ask m { tid := n.1, issuer := .row x k, den := q.den, dst := t.shardId k } q.id

/-- ROW_READs of a row from every other device of a COL table's list (04 R124, R136). -/
def State.askSlices (s : State) (q : Req) (x : FRec) (t : Table) : State :=
  ((List.range (t.shards + 1)).filter (fun k => t.shardId k != s.fab.wid)).foldl (fun s k => s.askRow q x t k) s

/-- Accumulator lines of a bag: its output elements in FP32 (05 R169). -/
def Table.accLines (t : Table) : Nat := ((if t.layout = 2 then (t.shards + 1) * t.elems else t.elems) * 4 + 127) / 128

/-- Rows and weights as the data flits of a POOL_REQ (16 R524). -/
def poolRowsData (l : List (Nat × W32)) : Bytes := l.flatMap (fun p => toLe 8 p.1 ++ toLe 4 p.2.toNat ++ [0, 0, 0, 0])

/-- Send a POOL_REQ for rows of a bag to shard `k`; the arrival slot is its TID (04 R136, R139, 16 R538). -/
def State.askPool (s : State) (q : Req) (b : Bag) (slot k : Nat) (rows : List (Nat × W32)) (div : Nat) : State :=
  let g := s.groupOf q b.grp
  let tn := (g.tabs.getD b.ent (0, 0)).1
  let t := s.table tn
  let idx := mget 0 b.sent k
  let m := s.mkMsg 0x11 (t.shardId k) q.den 0 (BitVec.ofNat 32 slot)
    (toLe 2 tn ++ toLe 1 (q.slotOf tn) ++ toLe 1 g.mode ++ toLe 1 rows.length ++ toLe 1 idx ++ toLe 1 (b2n (decide (t.layout = 2))) ++
     [0] ++ toLe 2 div) (poolRowsData rows)
  let a := mget ({} : ArrSlot) s.hoard.arr slot
  let a := { a with expected := a.expected + 1, lines := a.lines + (if g.ordered then t.accLines else 0) }
  let s := { s with hoard := { s.hoard with arr := mset {} s.hoard.arr slot a } }
  let s := s.modReq q.id (fun r => r.modBag b.smp b.grp b.ent (fun y => { y with sent := mset 0 y.sent k (idx + 1) }))
  s.ask m { tid := BitVec.ofNat 32 slot, issuer := .pool q.id b.smp b.grp b.ent k rows.length, den := q.den,
            dst := t.shardId k, ridx := idx % 256 } q.id

/-! ### Issuing (R131, R133, R136, R139) -/

/-- Remove records from the index buffer. -/
def State.dropRecs (s : State) (ids : List Nat) : State :=
  { s with forager := { s.forager with ibuf := s.forager.ibuf.filter (fun x => !(ids.contains x.id)) } }

/-- The read of a row on this device: a zero default row needs no slot; a row outside the den's ranges is dropped (R125,
R132, 13 R400). -/
def State.readHere (s : State) (q : Req) (x : FRec) (t : Table) (kind : ReadKind) : Option State :=
  let s' := if t.rows ≤ x.row then s.count q.den cDefrow 1 else s
  match t.localAddr (q.slotOf x.table) x.row with
  | none => some ((s'.dropRecs [x.id]).takeRow x (s.ownOf t) false (zeros t.elems) false)
  | some a =>
    if s.denMay q.den a t.rowSize false then (s'.dropRecs [x.id]).trySlot q.den x kind a t.rowSize
    else some (((s.dropRecs [x.id]).count q.den cDrop 1).finishBags q.id)

/-- A demand read that finds the first line of a prefetched row in the Hoard (R141). -/
def State.prefetchUsed (s : State) (q : Req) (x : FRec) (t : Table) : State :=
  match x.prefetched, t.localAddr (q.slotOf x.table) x.row with
  | true, some a => if (s.hoard.hit (some q.den) (a / 128 * 128)).isSome then s.count q.den cPfUsed 1 else s
  | _, _ => s

/-- Records of the same bag for the same owner, in record order. -/
def State.sameOwner (s : State) (x : FRec) (t : Table) (k : Nat) : List FRec :=
  s.forager.ibuf.filter (fun y => y.req == x.req && y.smp == x.smp && y.grp == x.grp && y.ent == x.ent &&
    s.remoteShard t y.row == some k)

/-- A remote row of a ROW table: a ROW_READ for CONCAT; else a request with up to 8 rows of the bag for that owner, sent
when 8 wait or when no further record of the token can come (R136, R137). -/
def State.issueRemote (s : State) (q : Req) (x : FRec) (t : Table) (k : Nat) : Option State :=
  if s.freeEngine.isNone ∨ s.maySlot q.den = false ∨ s.mayAsk q.den = false then none
  else if (s.groupOf q x.grp).mode = 4 then some (((s.dropRecs [x.id]).count q.den cRows 1).askRow q x t k)
  else
    let b := q.bag x.smp x.grp x.ent
    let l := s.sameOwner x t k
    match b.slot with
    | none => none
    | some n =>
      if 8 ≤ l.length ∨ (q.closed ∧ ¬ s.forager.inq.any (fun p => p.1 == q.id)) then
        let l := l.take 8
        some (((s.dropRecs (l.map FRec.id)).count q.den cRows l.length).askPool q b n k
          (l.map (fun y => (y.row, y.weight))) 0)
      else none

/-- A record of a COL table: this device's slice, and for CONCAT the other devices' slices (R124, R136, R139). -/
def State.issueCol (s : State) (q : Req) (x : FRec) (t : Table) : Option State :=
  let cat := decide ((s.groupOf q x.grp).mode = 4)
  let others := t.shards + 1 - b2n (t.ownShard s.fab.wid).isSome
  if cat ∧ (s.mayAsk q.den = false ∨ 16384 < s.fab.xacts.length + others) then none
  else
    let s1 := if (t.ownShard s.fab.wid).isSome then s.readHere q x t .demand
      else some (if t.rows ≤ x.row then (s.dropRecs [x.id]).count q.den cDefrow 1 else s.dropRecs [x.id])
    s1.map (fun s => if cat then s.askSlices q x t else s)

/-- Issue the demand read of one record; none = it must wait. -/
def State.issueDemand (s : State) (q : Req) (x : FRec) : Option State :=
  let t := s.tabOf q x.table
  if t.layout = 2 then s.issueCol q x t
  else
    match s.remoteShard t x.row with
    | some k => s.issueRemote q x t k
    | none => (s.prefetchUsed q x t).readHere q x t .demand

/-- Send the next rows of a COL bag to a device of the list, once the token has closed (R139, 16 R538). -/
def State.issueColRows (s : State) (q : Req) (b : Bag) : Option State :=
  match s.colUnsent q b, b.slot with
  | (k, n) :: _, some slot =>
    if q.closed ∧ s.mayAsk q.den ∧ ¬ s.forager.inq.any (fun p => p.1 == q.id) then
      some (s.askPool q b slot k ((b.colRows.drop n).take 256)
        (if (s.groupOf q b.grp).mode = 1 then b.seen % 65536 else 1))
    else none
  | _, _ => none

/-- The next demand read of a placed request, in record order. -/
def State.issueFor (s : State) (q : Req) : Option State :=
  match (s.forager.ibuf.filter (fun x => x.req == q.id)).findSome? (fun x => s.issueDemand q x) with
  | some t => some t
  | none => q.bags.findSome? (fun b => s.issueColRows q b)

/-! ### The history walker (12 R375 to R377) -/

/-- Events of the window. -/
def Walk.window (w : Walk) : Nat := min w.next w.cap
/-- Events lost at the snapshot. -/
def Walk.lost (w : Walk) : Nat := w.next - w.window
/-- Number of the first event that the present chunk does not cover. -/
def Walk.chunkEnd (w : Walk) : Nat := min w.window (4096 * (w.chunk + 1))

/-- The walk may read the next event record (R380, R386). -/
def Walk.mayRead (w : Walk) : Bool := w.begun && w.reading && !w.done && decide (w.examined < w.chunkEnd)

/-- A read of the walker that goes straight through the Hoard: its lines are filled and charged (05 R151, 13 R416). -/
def State.walkRead (s : State) (d a n : Nat) : Option (Bytes × Bool × State) :=
  if s.readTokens d then
    ((s.chargeHoard d (128 * (linesOf a n).length)).touchLines (some d) true false true (linesOf a n)).map (fun t =>
      (t.devRead a n, t.devBad a n, t))
  else none

/-- Change the walk of a request. -/
def State.modWalk (s : State) (id : Nat) (f : Walk → Walk) : State := s.modReq id (fun r => { r with walk := r.walk.map f })

/-- The embedding of a delivered event is looked up; none = it must wait. -/
def State.issueEmb (s : State) (q : Req) (x : FRec) : Option State :=
  let t := s.tabOf q x.table
  let own := (t.ownShard s.fab.wid).isSome
  if t.layout = 2 then
    if s.mayAsk q.den = false then none
    else
      let s1 := if own then s.readHere q x t .history else some s
      s1.map (fun s => s.askSlices q x t)
  else
    match s.remoteShard t x.row with
    | some k => if s.mayAsk q.den then some ((s.count q.den cRows 1).askRow q x t k) else none
    | none => s.readHere q x t .history

/-- The record of one event of the window: delivered to every history tile and its embedding asked for, or skipped when its
SEQ differs (R376, R377). -/
def State.walkEvent (s : State) (q : Req) (h : HistDecl) (w : Walk) : Option State :=
  let n := w.lost + w.examined
  match s.walkRead q.den (w.base + 32 * (n % w.cap)) 32 with
  | none => none
  | some (b, poison, s) =>
    if fld b 0 4 ≠ n % 2 ^ 32 then
      some (s.modWalk q.id (fun y => { y with examined := y.examined + 1, skip := y.skip + 1 }))
    else
      let x : FRec := { id := s.forager.recSeq, req := q.id, kind := .history, smp := w.chunk, ent := w.count,
                        table := h.htable, row := fld b 4 5, ord := w.count }
      let s := { s with forager := { s.forager with recSeq := s.forager.recSeq + 1 } }
      let s := s.histWrite q h (w.chunk % 2 * h.bufBytes + 32 * w.count) b poison
      (s.modWalk q.id (fun y => { y with examined := y.examined + 1, count := y.count + 1 })).issueEmb q x

/-- The walker's next read for a running request. -/
def State.issueWalk (s : State) (q : Req) : Option State :=
  match q.walk, (s.entryOf q).hist with
  | some w, some h => if q.phase = .running ∧ w.mayRead then s.walkEvent q h w else none
  | _, _ => none

/-- Dens whose demand reads wait for tokens (13 R417). -/
def State.readWaits (s : State) : List Nat :=
  ((s.reqs.filter (fun q => q.phase == .placed && s.forager.ibuf.any (fun x => x.req == q.id) &&
    !(s.readTokens q.den))).map Req.den).eraseDups

/-- GATHER_ISSUE (R131, R133): demand reads of placed requests first, oldest request first, then the walker's. -/
def execGatherIssue (s : State) : Host.Outcome State Fault Refusal :=
  .next (
    if s.hub then
      let s := s.each s.readWaits (fun s d => s.count d cRegWait 1)
      match (s.reqs.filter (fun q => q.phase == .placed)).findSome? s.issueFor with
      | some t => t
      | none =>
        match s.reqs.findSome? s.issueWalk with
        | some t => t
        | none => s
    else s)

/-! ### Arrival slots (05 R169) -/

/-- The bag has rows that go to other devices in pool requests. -/
def State.bagRemote (s : State) (q : Req) (smp grp ent : Nat) : Bool :=
  decide ((s.groupOf q grp).mode ≠ 4) &&
  (!(s.colUnsent q (q.bag smp grp ent)).isEmpty ||
   s.forager.ibuf.any (fun x => x.req == q.id && x.smp == smp && x.grp == grp && x.ent == ent &&
     (s.remoteShard (s.table x.table) x.row).isSome))

/-- Arrival slots that a den holds. -/
def State.arrOf (s : State) (d : Nat) : Nat := (s.hoard.arr.filter (fun p => p.2.used && p.2.den == d)).length

/-- The lowest free arrival slot. -/
def State.freeArrSlot (s : State) : Option Nat :=
  let used := (s.hoard.arr.filter (fun p => p.2.used)).map Prod.fst
  if 16384 ≤ used.length then none else (List.range (used.length + 1)).find? (fun n => !(used.contains n))

/-- ARRIVAL_RESERVE (05 R169): a slot and the accumulator lines of a bag. -/
def execArrivalReserve (req smp grp ent : Nat) (s : State) : Host.Outcome State Fault Refusal :=
  .next (
    match s.req req, s.freeArrSlot with
    | some q, some n =>
      let b := q.bag smp grp ent
      if s.hub ∧ q.phase = .placed ∧ b.slot = none ∧ s.bagRemote q smp grp ent ∧
          s.arrOf q.den < max 1 (s.den q.den).arrMax.toNat then
        let t := s.table ((s.groupOf q grp).tabs.getD ent (0, 0)).1
        let a : ArrSlot := { used := true, den := q.den, req := req, smp := smp, grp := grp, ent := ent, final := q.closed,
                             lines := t.accLines }
        { s with hoard := { s.hoard with arr := mset {} s.hoard.arr n a } }.modReq req (fun r =>
          r.modBag smp grp ent (fun y => { y with slot := some n }))
      else s
    | _, _ => s)

/-! ### Prefetches (R140, R141) -/

/-- A lookahead candidate: among the first LA_DEPTH requests of its den that are admitted and not placed. -/
def State.isCandidate (s : State) (q : Req) : Bool :=
  let l := s.reqs.filter (fun r => r.den == q.den && r.phase == .unplaced)
  (l.take (min 2 (s.den q.den).laDepth.toNat)).any (fun r => r.id == q.id)

/-- The lowest-numbered engine with a free slot of which prefetches hold fewer than 32. -/
def State.prefetchEngine (s : State) : Option Nat :=
  (List.range 32).find? (fun e => s.boot.engines.getLsbD e &&
    decide ((s.forager.slots.filter (fun x => x.engine == e)).length < 128) &&
    decide ((s.forager.slots.filter (fun x => x.engine == e && x.kind == .prefetch)).length < 32))

/-- A record that may be prefetched: once, owned by this device, not a default row. -/
def State.prefetchable (s : State) (q : Req) (x : FRec) : Bool :=
  let t := s.table x.table
  x.req == q.id && !x.prefetched && decide (x.row < t.rows) && (s.remoteShard t x.row).isNone &&
  (decide (t.layout ≠ 2) || (t.ownShard s.fab.wid).isSome)

/-- A demand read of a placed request waits for an engine (R140). -/
def State.demandWaits (s : State) : Bool :=
  (s.reqs.filter (fun q => q.phase == .placed)).any (fun q => (s.issueFor q).isSome)

/-- Issue the prefetch of a record. -/
def State.prefetch (s : State) (q : Req) (x : FRec) (e : Nat) : State :=
  let t := s.tabOf q x.table
  match t.localAddr (q.slotOf x.table) x.row with
  | some a =>
    let f := s.forager
    let mark (y : FRec) : FRec := { y with prefetched := true }
    if s.denMay q.den a t.rowSize false then
      { s with forager := { f with ibuf := modFirst (fun y => y.id == x.id) mark f.ibuf } }.issueSlot q.den e x .prefetch a t.rowSize
    else s
  | none => s

/-- PREFETCH_ISSUE (R140). -/
def execPrefetchIssue (req : Nat) (s : State) : Host.Outcome State Fault Refusal :=
  .next (
    match s.req req, s.prefetchEngine with
    | some q, some e =>
      (match s.forager.ibuf.find? (s.prefetchable q) with
       | some x => if s.hub ∧ s.isCandidate q ∧ s.maySlot q.den ∧ s.readTokens q.den ∧ ¬ s.demandWaits then s.prefetch q x e else s
       | none => s)
    | _, _ => s)

/-- Free a slot. -/
def State.freeSlot (s : State) (id : Nat) (prefetch : Bool) : State :=
  let mine (x : GSlot) : Bool := x.r.id == id && (x.kind == .prefetch) == prefetch
  { s with forager := { s.forager with slots := dropFirst mine s.forager.slots } }

/-- PREFETCH_DONE (R140): the slot of a prefetch whose lines have been filled. -/
def execPrefetchDone (rid : Nat) (s : State) : Host.Outcome State Fault Refusal :=
  .next (if s.hub ∧ s.forager.slots.any (fun x => x.r.id == rid && x.kind == .prefetch && x.data.isSome) then
    s.freeSlot rid true else s)

/-! ### ROW_POOLED (R134) -/

/-- ROW_POOLED (R134, 12 R377): a row that has been read joins its bag, or its history buffer. -/
def execRowPooled (rid : Nat) (s : State) : Host.Outcome State Fault Refusal :=
  .next (
    match s.forager.slots.find? (fun x => x.r.id == rid && x.kind != .prefetch && x.data.isSome) with
    | some g =>
      if s.hub then
        let t := match s.req g.r.req with
          | some q => s.tabOf q g.r.table
          | none => s.table g.r.table
        (s.freeSlot rid false).takeRow g.r (s.ownOf t) false (t.rowVals (g.data.getD [])) g.poison
      else s
    | none => s)

/-! ### Walks and chunks (12 R375, R379, R380, R386) -/

/-- Walks that run (R375, R388). -/
def State.walksRunning (s : State) : Nat :=
  (s.reqs.filter (fun q => match q.walk with
    | some w => w.begun && !w.done
    | none => false)).length

/-- The directory entry makes the walk (R375): none = empty, with BADID. -/
def State.readEntry (s : State) (d : Nat) (b : Bytes) : Option Walk :=
  let v := fld b 0 8
  let base := v % 2 ^ 56
  let cap := 2 ^ fld b 8 1
  if tbit v 63 ∧ bits v 56 7 = 0 ∧ 6 ≤ fld b 8 1 ∧ fld b 8 1 ≤ 24 ∧ allZero (sliceB b 9 7) ∧ allZero (sliceB b 0x18 8) ∧
      base + 32 * cap ≤ hbmSize ∧ s.denMay d base (32 * cap) false then
    some { begun := true, base := base, cap := cap, next := fld b 0x10 8, reading := true }
  else none

/-- The walk begins; an empty one is logged (R375). -/
def State.beginWalk (s : State) (q : Req) (w : Option Walk) : State :=
  match w with
  | some w => s.modReq q.id (fun r => { r with walk := some w, trunc := w.lost })
  | none =>
    let w : Walk := { begun := true, badId := true, cap := 64, reading := true }
    ((s.modReq q.id (fun r => { r with walk := some w })).count q.den cHstBadid 1).fault 0x0401 (mkLoc 0 0 (some q.den) false 0)

/-- HIST_WALK_BEGIN (R375). -/
def execHistWalkBegin (req : Nat) (s : State) : Host.Outcome State Fault Refusal :=
  .next (
    match s.req req with
    | none => s
    | some q =>
      match q.walk with
      | none => s
      | some w =>
        if s.hub ∧ ¬ w.begun ∧ q.phase = .running ∧ s.walksRunning < 64 then
          let id := dHistId q.desc
          if (s.den q.den).hdirLen.toNat ≤ id then s.beginWalk q none
          else
            match s.walkRead q.den ((s.den q.den).hdirBase.toNat + 32 * id) 32 with
            | some (b, _, s) => s.beginWalk q (s.readEntry q.den b)
            | none => s
        else s)

/-- Reads of a walk are outstanding. -/
def State.walkOpen (s : State) (id : Nat) : Bool :=
  let mine (x : FRec) : Bool := x.req == id && x.kind == .history
  s.forager.slots.any (fun x => x.kind == .history && mine x.r) ||
  s.fab.xacts.any (fun x => match x.issuer with
    | .row f _ => mine f
    | _ => false)

/-- The present chunk is the last. -/
def Walk.last (w : Walk) : Bool := decide (w.window ≤ 4096 * (w.chunk + 1))

/-- The chunk header (R379). -/
def Walk.header (w : Walk) : Bytes :=
  toLe 4 w.chunk ++ toLe 4 w.count ++ toLe 8 (if w.window = 0 then 0 else w.lost + 4096 * w.chunk) ++
  toLe 4 (b2n w.last + 2 * b2n w.badId) ++ toLe 4 w.skip ++ toLe 8 w.lost ++ toLe 8 w.next ++ List.replicate 24 0

/-- The walk after a chunk has been posted: reads of chunk c ≥ 2 wait for a release (R380). -/
def Walk.posted (w : Walk) : Walk :=
  if w.last then { w with done := true, reading := false, skipSum := w.skipSum + w.skip }
  else { w with chunk := w.chunk + 1, count := 0, skip := 0, skipSum := w.skipSum + w.skip, reading := decide (w.chunk + 1 < 2) }

/-- Mark a buffer of a tile as holding a chunk posted and not released, or as released (R381). -/
def Tile.setBuf (x : Tile) (b : Nat) (v : Bool) : Tile := if b = 0 then { x with hbuf0 := v } else { x with hbuf1 := v }

/-- Post a buffer's semaphore on every history tile (R380). -/
def State.postChunk (s : State) (q : Req) (h : HistDecl) (b : Nat) : State :=
  s.each (histTiles q h) (fun s t => (s.modTile t (fun x => x.setBuf b true)).postSem t (h.sem b))

/-- HIST_CHUNK_POST (R379, R380, R386): header, then the semaphores, or the post that falls due at resumption. -/
def State.chunkPost (s : State) (q : Req) (h : HistDecl) (w : Walk) : State :=
  let b := w.chunk % 2
  let s := s.histWrite q h (b * h.bufBytes + 0x20000 + 4096 * s.embBytes h) w.header false
  let s := (s.count q.den cHstEvents w.count).count q.den cHstChunks 1
  let s := s.modReq q.id (fun r => { r with walk := some w.posted, trunc := r.trunc + w.skip })
  if q.phase = .yielded then s.modWalk q.id (fun y => { y with due := y.due ++ [b] }) else s.postChunk q h b

/-- HIST_CHUNK_POST (R380). -/
def execHistChunkPost (req : Nat) (s : State) : Host.Outcome State Fault Refusal :=
  .next (
    match s.req req with
    | none => s
    | some q =>
      match q.walk, (s.entryOf q).hist with
      | some w, some h =>
        if s.hub ∧ w.begun ∧ ¬ w.done ∧ w.reading ∧ w.examined = w.chunkEnd ∧ ¬ s.walkOpen req ∧
            (q.phase = .running ∨ q.phase = .yielded) then s.chunkPost q h w
        else s
      | _, _ => s)

/-- Every history tile has released a buffer. -/
def State.bufFree (s : State) (q : Req) (h : HistDecl) (b : Nat) : Bool :=
  (histTiles q h).all (fun t => if b = 0 then !(s.tile t).hbuf0 else !(s.tile t).hbuf1)

/-- HIST_READ_RESUME (R380): chunk c − 2 has been released by every history tile. -/
def execHistReadResume (req : Nat) (s : State) : Host.Outcome State Fault Refusal :=
  .next (
    match s.req req with
    | none => s
    | some q =>
      match q.walk, (s.entryOf q).hist with
      | some w, some h =>
        if s.hub ∧ q.phase = .running ∧ w.begun ∧ ¬ w.done ∧ ¬ w.reading ∧ s.bufFree q h (w.chunk % 2) then
          s.modWalk req (fun y => { y with reading := true })
        else s
      | _, _ => s)

end Sys2Proof.Machine
end

