-- ==== Sys2Proof/Machine/Reply.lean ====
section
/-!
DEFINITION. Commands as the CP takes and answers them: sources and their turn, the reply, and the data that a command
reads and writes (15 R477 to R485, R488, R508).
-/

namespace Sys2Proof.Machine

/-! ### Packets and sources (R477, R479, R483) -/

/-- Fields of a command packet. -/
abbrev cOp (b : Bytes) : Nat := fld b 0 1
abbrev cFlags (b : Bytes) : Nat := fld b 1 1
abbrev cTag (b : Bytes) : Nat := fld b 2 2
abbrev cDen (b : Bytes) : Nat := fld b 4 1

/-- Function whose requester id a source uses; none for a service port. -/
def CmdSrc.fn? (c : CmdSrc) : Option Nat :=
  match c with
  | .ring f _ => some f
  | .usb | .uart => none

/-- Number of a source in the turn of R483. -/
def CmdSrc.num (c : CmdSrc) : Nat :=
  match c with
  | .ring f _ => f
  | .usb => 33
  | .uart => 34

/-- Number of the command ring and of the reply ring of a pair. -/
abbrev cmdKey (f p : Nat) : Nat := 32 * f + p
abbrev rplKey (f p : Nat) : Nat := 32 * f + 8 + p

/-- The packet at the head of a source. -/
def State.cmdPkt (s : State) (c : CmdSrc) : Option Bytes :=
  match c with
  | .ring f p => if p < 8 ∧ f ≤ 32 then s.ringFront (cmdKey f p) else none
  | .usb => s.cp.usbIn
  | .uart => s.cp.uartIn

/-- A source has a packet that the CP may take: none of its commands is running, and a reply slot is free
(R448, R483). -/
def State.srcReady (s : State) (c : CmdSrc) : Bool :=
  (s.cmdPkt c).isSome && s.cp.running.all (fun (x : Cmd) => x.src != c) &&
  (match c with
   | .ring f p => (s.ring (rplKey f p)).en && (s.ring (rplKey f p)).hasFree
   | .usb | .uart => true)

/-- Sources of one number of the turn, in the order in which they are looked at. -/
def State.srcsOf (s : State) (n : Nat) : List CmdSrc :=
  if n = 33 then [.usb]
  else if n = 34 then [.uart]
  else
    let l := mget 7 s.cp.lastPair n
    (List.range 8).map (fun i => .ring n ((l + 1 + i) % 8))

/-- The source whose turn it is (R483). -/
def State.nextSrc (s : State) : Option CmdSrc :=
  ((List.range 35).flatMap (fun i => s.srcsOf ((s.cp.lastSrc + 1 + i) % 35))).find? s.srcReady

/-- The CP takes commands now: the hub runs, the CP is up and not halted, and fewer than 16 commands run (R483). -/
def State.cpTakes (s : State) : Bool :=
  s.hub && decide (s.boot.phase = .complete) && s.boot.cpUp && !s.tim.halt && decide (s.cp.running.length < 16)

/-- The packet leaves its source, and its reply slot is reserved (R448). -/
def State.takeCmd (s : State) (c : CmdSrc) : State :=
  let s := { s with cp := { s.cp with lastSrc := c.num } }
  match c with
  | .ring f p =>
    let s := { s with cp := { s.cp with lastPair := mset 7 s.cp.lastPair f p } }
    (s.takeFront (cmdKey f p)).modRing (rplKey f p) (fun x => { x with rsvd := x.rsvd + 1 })
  | .usb => { s with cp := { s.cp with usbIn := none } }
  | .uart => { s with cp := { s.cp with uartIn := none } }

/-! ### Replies (R478, R485) -/

/-- What a command ends with. -/
structure CmdRes where
  status : Nat := 0
  detail : Nat := 0
  result : Bytes := []
  deriving DecidableEq, Repr

/-- The 32 bytes of a reply (R478). -/
def replyBytes (pkt : Bytes) (r : CmdRes) : Bytes :=
  toLe 2 (cTag pkt) ++ toLe 1 r.status ++ [0] ++ toLe 1 (cOp pkt) ++ toLe 1 (cDen pkt) ++ toLe 2 r.detail ++ padB 24 r.result

/-- A UART_SVC frame's TYPE and payload leave (19 R629). -/
def State.uartSend (s : State) (ty : Nat) (body : Bytes) : State := s.emit (.uart ty body)

/-- The reply of a command reaches its issuer (R485); a silent command's is discarded. -/
def State.reply (s : State) (c : CmdSrc) (pkt : Bytes) (silent : Bool) (r : CmdRes) : State :=
  let b := replyBytes pkt r
  match c with
  | .ring f p => if silent then s else s.pushEntry (rplKey f p) b (if tbit (cFlags pkt) 0 then some p else none)
  | .usb => { s with ser := { s.ser with usbRun := none, usbHeld := some (BitVec.ofNat 16 (cTag pkt), b),
                                         usbHeldTag := BitVec.ofNat 16 (cTag pkt) } }
  | .uart => State.uartSend { s with ser := { s.ser with uartBusy := false } } 0x02 b

/-- The data of a DEST 0 transfer on UART_SVC: DATA frames and one DATA_LAST (19 R633). -/
def State.uartData (s : State) (fuel : Nat) (b : Bytes) : State :=
  match fuel with
  | 0 => s
  | n + 1 => if b.length < 4096 then s.uartSend 0x04 b else (s.uartSend 0x03 (b.take 4096)).uartData n (b.drop 4096)

/-- A running command. -/
def State.cmd (s : State) (id : Nat) : Option Cmd := s.cp.running.find? (fun c => c.id == id)

/-- A running command ends: its reply is written and its locks are released (R484, R485). -/
def State.finishCmd (s : State) (id : Nat) (r : CmdRes) : State :=
  match s.cmd id with
  | none => s
  | some c =>
    let s := s.reply c.src c.pkt c.silent r
    { s with cp := { s.cp with running := s.cp.running.filter (fun (x : Cmd) => x.id != id) } }

/-- Start a command that runs over time, with the locks that it holds. -/
def State.startCmd (s : State) (c : CmdSrc) (pkt : Bytes) (locks : List (LockObj × Bool)) : State :=
  let x : Cmd := { id := s.cp.seq, src := c, pkt := pkt, locks := locks }
  { s with cp := { s.cp with running := s.cp.running ++ [x], seq := s.cp.seq + 1 } }

/-! ### Locks (R484) -/

/-- A lock is free in the mode asked for. -/
def State.lockFree (s : State) (l : LockObj × Bool) : Bool :=
  s.cp.running.all (fun (c : Cmd) => c.locks.all (fun h => !(h.1 == l.1 && (h.2 || l.2))))

/-- Every lock of a list is free. -/
def State.locksFree (s : State) (l : List (LockObj × Bool)) : Bool := l.all s.lockFree

/-! ### Addresses of parameters (R481) -/

/-- What the CP does with an address parameter. -/
inductive ParamAddr where
  | bad (status : Nat)
  | host (fn iova : Nat)
  | dev (a : Nat)
  /-- offset `o` of another device -/
  | rem (w o : Nat)
  deriving DecidableEq, Repr

/-- Any range of R23 of this device but the config store (R481). -/
def devAddrOk (a n : Nat) : Bool :=
  match space a with
  | .hbm => decide (a + n ≤ hbmSize)
  | .scratch o => decide (o + n ≤ 0x20000000)
  | .sram _ b => decide (b + n ≤ 4194304)
  | .host _ | .remote _ _ | .store | .hole => false

/-- The den whose tag an access of the update engine, or of a command of a VF, carries; none for the PF and a service
issuer. -/
def CmdSrc.den (c : CmdSrc) : Option Nat :=
  match c with
  | .ring f _ => fnDen f
  | .usb | .uart => none

/-- An address on this device with den tag `d`, or without one. -/
def State.localParam (s : State) (d : Option Nat) (a n : Nat) : ParamAddr :=
  match d with
  | none => if devAddrOk a n then .dev a else .bad 0x05
  | some x => if s.denMay x a n true then .dev a else .bad 0x05

/-- An address parameter with the `n` bytes from it: `d` is the den tag, `fn` the function for the host window (R481). An
access to the own Warren id is served here (16 R514). -/
def State.paramAddr (s : State) (fn d : Option Nat) (a n : Nat) : ParamAddr :=
  match space a, fn with
  | .host _, none => .bad 0x03
  | .host i, some f => if i + n ≤ 2 ^ 54 then .host f i else .bad 0x05
  | .remote w o, _ => if 2 ^ 40 < o + n then .bad 0x05 else if w = s.fab.wid then s.localParam d o n else .rem w o
  | _, _ => s.localParam d a n

/-! ### Reading and writing blocks in the memory of another device (16 R534, R535, R540) -/

/-- What a part of a block brings to its issuer: bytes, and whether it was the last; or the status with which the read
failed. -/
def State.partTake (s : State) (iss : Issuer) (r : Sum (Bytes × Bool) Nat) : State :=
  match iss with
  | .cmd id => s.modCmd id (fun c => match r with
      | .inl p => { c with data := c.data ++ p.1, got := p.2 }
      | .inr st => { c with got := true, fail := some st })
  | .block d k => s.setUpd d k ((s.upd d k).map (fun u =>
      if u.readEnded then u else match r with
      | .inl p => { u with block := u.block ++ p.1, readEnded := p.2 }
      | .inr st => { u with readEnded := true, failed := some st }))
  | .ring _ _ _ | .tile _ _ | .stream _ _ _ _ | .feature _ => s

/-- A transaction has failed (R535). -/
def State.xactFailed (s : State) : State := { s with fab := { s.fab with failed := satAdd s.fab.failed 1 } }

/-- Ask for the next piece of a block: at most 2,048 bytes. A missing route fails the read (R529). -/
def State.partAsk (s : State) (iss : Issuer) (d w base off total : Nat) : State :=
  let n := s.newTid
  let m := n.2.mkMsg 0x12 w d 0 n.1 (toLe 8 (base + off) ++ toLe 2 (min 2048 (total - off))) []
  let x : Xact := { tid := n.1, issuer := .part iss base off total, den := d, dst := w }
  if s.fab.role = 0 then s.xactFailed.partTake iss (.inr 0x0C)
  else
    match n.2.send m with
    | some t => { t with fab := { t.fab with xacts := t.fab.xacts ++ [x] } }
    | none => s.xactFailed.partTake iss (.inr 0x0C)

/-- Send the next piece of what a command writes; none is left once `got` is set. -/
def State.partSend (s : State) (id d w base off : Nat) : State :=
  match s.cmd id with
  | none => s
  | some c =>
    if c.data.length ≤ off then s.modCmd id (fun y => { y with got := true })
    else
      let b := (c.data.drop off).take 2048
      let n := s.newTid
      let m := n.2.mkMsg 0x13 w d 0 n.1 (toLe 8 (base + off) ++ toLe 2 b.length) b
      let x : Xact := { tid := n.1, issuer := .cmdWrite id base off, den := d, dst := w }
      let bad := s.xactFailed.modCmd id (fun y => { y with got := true, fail := some 0x0C })
      if s.fab.role = 0 then bad
      else
        match n.2.send m with
        | some t => { t with fab := { t.fab with xacts := t.fab.xacts ++ [x] } }
        | none => bad

/-- Begin to read `n` bytes at an address that has been checked, for an issuer with den tag `d`: at once from this device,
by host reads, or from another device. -/
def State.fetch (s : State) (iss : Issuer) (d : Nat) (p : ParamAddr) (n : Nat) : State :=
  match p with
  | .bad st => s.partTake iss (.inr st)
  | .host f i => if (s.fn f).bme then s.issueRead f iss i n else s.partTake iss (.inr 0x0B)
  | .dev a => if s.devBad a n then s.partTake iss (.inr 0x0C) else s.partTake iss (.inl (s.devRead a n, true))
  | .rem w o => s.partAsk iss d w o 0 n

/-- Write a running command's data to a DEST that has been checked. -/
def State.store (s : State) (id d : Nat) (p : ParamAddr) (b : Bytes) : State :=
  let fin (t : State) (st : Option Nat) : State := t.modCmd id (fun c => { c with got := true, fail := st })
  match p with
  | .bad st => fin s (some st)
  | .host f i =>
    if (s.fn f).bme then
      let s := (s.modCmd id (fun c => { c with got := false })).issueWrite f (.cmd id) i b
      if (s.pcie.xlate ++ s.pcie.waiting).any (fun x => x.issuer == .cmd id) then s else fin s none
    else fin s (some 0x0B)
  | .dev a => fin (s.devWrite a b) none
  | .rem w o => (s.modCmd id (fun c => { c with data := b, got := false })).partSend id d w o 0

end Sys2Proof.Machine
end

