-- ==== Sys2Proof/Machine/Updates.lean ====
section
/-!
DEFINITION. The update engine: accepting a descriptor, reading its record block, staging its records (07 R226 to R237).
-/

namespace Sys2Proof.Machine

/-! ### Descriptors (R226 to R228) -/

/-- Fields of an update descriptor (R226). -/
abbrev uSrc (b : Bytes) : Nat := bits (fld b 1 1) 2 2
abbrev uIrq (b : Bytes) : Bool := tbit (fld b 1 1) 1
abbrev uTag (b : Bytes) : Nat := fld b 2 2
abbrev uTable (b : Bytes) : Nat := fld b 4 2
abbrev uVsel (b : Bytes) : Nat := fld b 6 1
abbrev uCount (b : Bytes) : Nat := fld b 8 4
abbrev uAddr (b : Bytes) : Nat := fld b 0x10 8

/-- Reserved bits and bytes are zero (R226). With inline data, the bytes behind the row are reserved; `rowSize` is 32 where the
table is not the den's, since no row then says where they begin. -/
def updZeros (b : Bytes) (rowSize : Nat) : Bool :=
  decide (fld b 1 1 &&& 0xF1 = 0) && decide (uSrc b ≠ 1) && decide (uVsel b < 8) && !(tbit (uVsel b) 2 && decide (uVsel b % 4 ≠ 0)) &&
  allZero (sliceB b 7 1) && allZero (sliceB b 0xC 4) && allZero (sliceB b 0x18 8) &&
  (if uSrc b = 0 then decide (uAddr b < 2 ^ 40) && allZero (sliceB b (0x20 + rowSize) (32 - rowSize))
   else allZero (sliceB b 0x20 32) && decide (uAddr b % 16 = 0) && decide (uAddr b < if uSrc b = 3 then 2 ^ 54 else 2 ^ 56))

/-- Bytes of the record block. -/
def updLen (b : Bytes) (rowSize : Nat) : Nat := uCount b * (16 + rowSize)

/-- The slot that VSEL names. -/
def updSlot (b : Bytes) (t : Table) : Nat := if tbit (uVsel b) 2 then t.active else uVsel b % 4

/-- The slot of a table is named in a Warren switch that is prepared on this device (R216, R221). -/
def State.namedSlot (s : State) (t v : Nat) : Bool :=
  (s.table t).lock.isSome && s.wsw.pairs.any (fun p => p.1 == t && p.2 == v)

/-- Status with which the update engine refuses a descriptor, in the order of R228; 0 = it is accepted. The checks that need
a row size are made for a table of the den alone (DEDUCED): NOT_PERMITTED tells nothing of another den's table. -/
def State.updRefusal (s : State) (d : Nat) (b : Bytes) : Nat :=
  let t := s.table (uTable b)
  let mine := t.present && decide (t.den = d)
  let rs := if mine then t.rowSize else 0
  if fld b 0 1 ≠ 2 ∨ ¬ updZeros b (if mine then rs else 32) ∨ uCount b = 0 ∨ 65536 < uCount b ∨ 67108864 < updLen b rs then 0x03
  else if uSrc b = 0 ∧ (uCount b ≠ 1 ∨ 32 < rs) then 0x03
  else if 4000 ≤ rs ∧ rs ≤ 4080 then 0x03
  else if ¬ mine then 0x05
  else if t.slotState (updSlot b t) = 0 ∨ s.namedSlot (uTable b) (updSlot b t) then 0x0E
  else 0x00

/-! ### Acceptance (R229) -/

/-- The head of an update ring can be accepted but for tokens. -/
def State.updReady (s : State) (d r : Nat) : Bool :=
  decide (r < 2) && s.denServes d && (s.upd d r).isNone && (s.ringFront (updKey d r)).isSome && (s.ring (ucqKey d r)).en &&
  (s.ring (ucqKey d r)).hasFree

/-- The den's PCIE, HOARD and HBM buckets hold tokens. -/
def State.updTokens (s : State) (d : Nat) : Bool := (s.den d).open .pcie && (s.den d).open .hoard && (s.den d).open .hbm

/-- The record block of an inline descriptor: its one record (R227). -/
def inlineBlock (b : Bytes) (rowSize : Nat) : Bytes := sliceB b 0x10 8 ++ List.replicate 8 0 ++ sliceB b 0x20 rowSize

/-- The read of the record block begins; one in this device's own memory ends with RECORD_BLOCK_READ_DONE. -/
def State.beginBlock (s : State) (d r : Nat) (b : Bytes) (n : Nat) : State :=
  match uSrc b with
  | 0 => s.partTake (.block d r) (.inl (inlineBlock b (s.table (uTable b)).rowSize, true))
  | 3 => (s.chargePcie d n).fetch (.block d r) d (.host (d + 1) (uAddr b)) n
  | _ =>
    match space (uAddr b) with
    | .remote w o =>
      if 2 ^ 40 < o + n then s.partTake (.block d r) (.inr 0x0C)
      else if w = s.fab.wid then s else s.partAsk (.block d r) d w o 0 n
    | .host i =>
      if i + n ≤ 2 ^ 54 ∧ d < s.pcie.numVfs then (s.chargePcie d n).fetch (.block d r) d (.host (d + 1) i) n
      else s.partTake (.block d r) (.inr 0x0C)
    | _ => s

/-- Take the descriptor at the head of an update ring: its completion slot is reserved and its tokens charged. -/
def State.takeUpd (s : State) (d r : Nat) : State :=
  let s := (s.takeFront (updKey d r)).modRing (ucqKey d r) (fun x => { x with rsvd := x.rsvd + 1 })
  ((s.chargePcie d 64).chargePcie d 32).count d cPcieDn 64

/-- Accept the descriptor at the head of a ring, or refuse it with a completion. -/
def State.acceptUpd (s : State) (d r : Nat) (b : Bytes) : State :=
  let st := s.updRefusal d b
  let s := s.takeUpd d r
  if st ≠ 0 then s.postUpd d r (uIrq b) (updEntry (uTag b) st 0 r 0xFF 0 0 0 s.wtime)
  else
    let v := updSlot b (s.table (uTable b))
    let u : UpdCur := { desc := b, tag := BitVec.ofNat 16 (uTag b), irq := uIrq b, table := uTable b, vslot := v, count := uCount b,
                        tAccept := s.wtime }
    ((s.takeRef (uTable b) v).setUpd d r (some u)).beginBlock d r b (updLen b (s.table (uTable b)).rowSize)

/-- UPDATE_ACCEPT (R228, R229): the head of update ring `ring` of a den; a wait for tokens counts in REG_WAIT. -/
def execUpdateAccept (den ring : Nat) (s : State) : Host.Outcome State Fault Refusal :=
  .next (
    match s.ringFront (updKey den ring) with
    | some b =>
      if s.updReady den ring then (if s.updTokens den then s.acceptUpd den ring b else s.count den cRegWait 1) else s
    | none => s)

/-! ### The record block (R227, R236) -/

/-- Bytes of a range before the first poisoned one, found line by line. -/
def State.cleanBytes (s : State) (a n : Nat) : Nat :=
  match (List.range n).find? (fun i => s.devPoison (a + i)) with
  | some i => i
  | none => n

/-- How many records of a block at `a` lie whole in the den's ranges, up to the first that does not. -/
def State.recordsIn (s : State) (d a stride count : Nat) : Nat :=
  match (List.range count).find? (fun i => !(s.denMay d (a + stride * i) stride false)) with
  | some i => i
  | none => count

/-- The record block as this device's memory holds it: the read fails at the first record that does not lie in the den's
ranges, and at the first poisoned byte. -/
def State.readBlock (s : State) (d r : Nat) (u : UpdCur) : State :=
  let a := match space (uAddr u.desc) with
    | .remote _ o => o
    | _ => uAddr u.desc
  let rs := (s.table u.table).rowSize
  let n := updLen u.desc rs
  let k := s.cleanBytes a ((16 + rs) * s.recordsIn d a (16 + rs) (uCount u.desc))
  let s := s.partTake (.block d r) (.inl (s.devRead a k, decide (k = n)))
  if k = n then s else s.partTake (.block d r) (.inr 0x0C)

/-- The record block lies in this device's own memory. -/
def State.blockLocal (s : State) (u : UpdCur) : Bool :=
  uSrc u.desc == 2 && (match space (uAddr u.desc) with
    | .remote w _ => w == s.fab.wid
    | .host _ => false
    | _ => true)

/-- RECORD_BLOCK_READ_DONE (R236): the block is read from this device's memory; a block that the host or another device
gives has ended with the completion or answer that brought its last bytes, and this event looks whether the descriptor
has thereby ended. -/
def execRecordBlockReadDone (den ring : Nat) (s : State) : Host.Outcome State Fault Refusal :=
  .next (
    match s.upd den ring with
    | none => s
    | some u =>
      if s.hub then
        (if s.blockLocal u ∧ ¬ u.readEnded then s.readBlock den ring u else s).updCheck den ring
      else s)

/-! ### Staging (R230 to R233, 05 R156, R167) -/

/-- The record at `idx`: its row number, its reserved bytes and bits, and its row. -/
def recordAt (block : Bytes) (stride idx : Nat) : Bytes := sliceB block (stride * idx) stride

/-- The completion flag of a record that is skipped (R230): 1 SK_RANGE, 2 SK_FOREIGN, 4 SK_BAD; 0 = it is staged. One flag
per record: malformed, else out of range, else foreign. -/
def State.skipFlag (s : State) (t : Table) (x : Bytes) : Nat :=
  let row := fld x 0 5
  if ¬ allZero (sliceB x 5 11) then 4
  else if t.rows ≤ row then 1
  else if (s.remoteShard t row).isSome ∨ (t.layout = 2 ∧ (t.ownShard s.fab.wid).isNone) then 2
  else 0

/-- Local row number of a row that this device holds. -/
def Table.localRow (t : Table) (row : Nat) : Nat := if t.layout = 1 then (t.owner row).2 else row

/-- A line is shared with a row that is staged and not yet committed (R231). -/
def State.lineStaged (s : State) (a : Nat) : Bool := s.hoard.lines.any (fun p => p.2.addr == a && p.2.gen == LineGen.staged)

/-- Row-directory entries in use at a slice: at most 256 of the 16,384 (05 R167). -/
def State.dirsAt (s : State) (slice : Nat) : Nat := (s.hoard.dirs.filter (fun x => hSlice x.addr == slice)).length

/-- The staged copy of a line: its current contents, overwritten with the row's bytes; a granule that the row covers whole
has no mark (R231, 22 R724). -/
def State.stagedLine (s : State) (d a addr : Nat) (row : Bytes) : HLine :=
  let lo := max a addr
  let hi := min (a + 128) (addr + row.length)
  let cur := (List.range 128).map (fun i => s.devByte (a + i))
  { addr := a, den := d, gen := .staged, data := patchB cur (lo - a) (sliceB row (lo - addr) (hi - lo)) }

/-- Stage one line: a miss reads it from HBM first, charged as in 13 R416. none = it must wait. -/
def State.stageLine (s : State) (d a addr : Nat) (row : Bytes) : Option State :=
  if 8 ≤ s.heldIn (hSet a) then none
  else
    let l := s.stagedLine d a addr row
    match s.hoard.find a with
    | some p => ({ s with hoard := s.hoard.touch p.1 }.count d cHit 1).placeLine l
    | none => (((s.chargeHbm d 128 false).count d cMiss 1).queueHbm a false).placeLine l

/-- Stage every line of a row. -/
def State.stageLines (s : State) (d addr : Nat) (row : Bytes) (l : List Nat) : Option State :=
  match l with
  | [] => some s
  | a :: rest =>
    match s.stageLine d a addr row with
    | some t => t.stageLines d addr row rest
    | none => none

/-- Stage a row: held lines, a row-directory entry, and its ROW_COMMIT at the home slice (R231, R232). none = it waits. -/
def State.stageRow (s : State) (d r tn addr : Nat) (row : Bytes) : Option State :=
  let ls := linesOf addr row.length
  if ls.any s.lineStaged ∨ 256 ≤ s.dirsAt (hSlice addr) then none
  else
    match (s.chargeHoard d (128 * ls.length)).stageLines d addr row ls with
    | none => none
    | some t =>
      let x : RowDir := { id := t.hoard.dirSeq, den := d, ring := r, table := tn, addr := addr, len := row.length, row := row }
      let t := { t with hoard := { t.hoard with dirs := t.hoard.dirs ++ [x], dirSeq := t.hoard.dirSeq + 1 } }
      some (t.askHoard 4 { kind := .commit x.id, den := some d, addr := addr, len := row.length })

/-- The descriptor has gone past one record. -/
def State.nextRecord (s : State) (d r flag : Nat) : State :=
  let s := s.setUpd d r ((s.upd d r).map (fun u =>
    { u with idx := u.idx + 1, flags := u.flags ||| flag, skipped := u.skipped + (if flag = 0 then 0 else 1) }))
  if flag = 0 then s else (s.count d cUpdSkip 1).updCheck d r

/-- Stage or skip the next record of a descriptor; a staging that must wait counts in UPDSTALL. -/
def State.stageRecord (s : State) (d r : Nat) (u : UpdCur) : State :=
  let t := s.table u.table
  let x := recordAt u.block (s.updStride u) u.idx
  let k := s.skipFlag t x
  if k ≠ 0 then s.nextRecord d r k
  else
    let addr := t.rowAddr u.vslot (t.localRow (fld x 0 5))
    match s.stageRow d r u.table addr (x.drop 16) with
    | some s' => s'.nextRecord d r 0
    | none => s.count d cUpdStall 1

/-- UPDATE_STAGE (R230, R231). -/
def execUpdateStage (den ring : Nat) (s : State) : Host.Outcome State Fault Refusal :=
  .next (
    match s.upd den ring with
    | none => s
    | some u => if s.hub ∧ s.updHas u then s.stageRecord den ring u else s)

end Sys2Proof.Machine
end

