-- ==== Sys2Proof/Machine/Switch.lean ====
section
/-!
DEFINITION. Version switches, on one device and across a Warren: the checks, the switch itself, and the messages of the
master and of every device (07 R216 to R225, R240, 16 R549, R550).
-/

namespace Sys2Proof.Machine

/-! ### Checks and records (R217, R220, R240, 21 R691, R701) -/

/-- The payload of a VERSION record (21 R691): the table as it stands. -/
def versionPayload (tn : Nat) (t : Table) (deleted : Bool) (sw : Nat) : Bytes :=
  let v (x : Version) : Bytes := toLe 8 (x.base.toNat + 2 ^ 63 * b2n x.valid)
  toLe 2 tn ++ toLe 1 t.den ++ toLe 1 t.active ++ toLe 1 (b2n deleted) ++ [0, 0, 0] ++ v t.v0 ++ v t.v1 ++ v t.v2 ++ v t.v3 ++
  toLe 4 sw ++ [0, 0, 0, 0]

/-- The Ledger can hold one further VERSION record of each of these tables (21 R701). -/
def Ledger.canHoldAll (l : Ledger) (ps : List Bytes) : Bool :=
  match ps with
  | [] => true
  | p :: rest => l.canHold 0x0E p && (l.push { ty := 0x0E, payload := p }).canHoldAll rest

/-- The Ledger can hold the records of a durable switch of these tables. -/
def State.durableOk (s : State) (ts : List Nat) : Bool :=
  s.ldg.canHoldAll (ts.map (fun t => versionPayload t (s.table t) false 0))

/-- The checks of R217 on pairs, other than those of the den and of LOCAL: no table twice, no EMPTY target, and no table that
is named in a prepared Warren switch. -/
def State.pairChecks (s : State) (ps : List (Nat × Nat)) : Nat :=
  if ¬ nodupNat (ps.map Prod.fst) then 0x03
  else if ps.any (fun p => (s.table p.1).slotState p.2 == 0 || decide (3 < p.2)) then 0x0E
  else if ps.any (fun p => (s.table p.1).lock.isSome) then 0x0E
  else 0x00

/-- The CRC of the shared fields of a table; 0 for a table that is not here, and for a LOCAL one (R220). -/
def State.sharedCrc (s : State) (tn : Nat) : Nat :=
  let t := s.table tn
  if t.present ∧ t.layout ≠ 0 then
    (crc32c (Config.sharedFieldBytes [tn, t.fmt, t.layout, b2n t.defrow + 2 * b2n t.range + 4 * b2n t.pin, t.rows, t.shards]
      t.shardIds t.bounds)).toNat
  else 0

/-- Pairs whose table is here. -/
def State.heldPairs (s : State) (ps : List (Nat × Nat)) : List (Nat × Nat) := ps.filter (fun p => (s.table p.1).present)

/-- The status with which this device refuses a PREPARE; 0 = it answers PREPARED (R220, 21 R701). -/
def State.prepareStatus (s : State) (ps : List (Nat × Nat)) (crcs : List Nat) (durable : Bool) : Nat :=
  let h := s.heldPairs ps
  let bad := (ps.zip crcs).any (fun x => (s.table x.1.1).present && x.2 != 0 && x.2 != s.sharedCrc x.1.1)
  if s.pairChecks h ≠ 0 then s.pairChecks h
  else if bad then 0x0E
  else if s.wsw.st = 1 ∨ s.wsw.st = 2 ∨ s.wsw.st = 3 then 0x01
  else if durable ∧ ¬ s.durableOk (h.map Prod.fst) then 0x0F
  else 0x00

/-! ### The switch (R218, R224) -/

/-- One pair takes effect: the target becomes ACTIVE, and the previous slot is held for the Warren, or freed when it has no
reference. The pin region refills (05 R159). -/
def State.switchOne (s : State) (hold : Bool) (p : Nat × Nat) : State :=
  let t := s.table p.1
  if ¬ t.present ∨ t.active = p.2 then s
  else
    let old := t.active
    let s := s.modTable p.1 (fun x => { (x.modVer old (fun y => { y with hold := hold })) with active := p.2, pinFilling := x.pin })
    let s := s.count t.den cSwitch 1
    if (s.table p.1).slotState old = 1 then s.versionFreed p.1 old false else s

/-- Apply pairs in one HCLK; the durable records name the switch (R240). -/
def State.switchAll (s : State) (ps : List (Nat × Nat)) (hold durable : Bool) (sw : Nat) : State :=
  let moved := ps.filter (fun p => (s.table p.1).present && (s.table p.1).active != p.2)
  let s := ps.foldl (fun s p => s.switchOne hold p) s
  if durable then moved.foldl (fun s p => s.record 0x0E (versionPayload p.1 (s.table p.1) false sw) none) s else s

/-- Slots that a switch of these pairs would replace. -/
def State.previous (s : State) (ps : List (Nat × Nat)) : List (Nat × Nat) :=
  (ps.filter (fun p => (s.table p.1).present && (s.table p.1).active != p.2)).map (fun p => (p.1, (s.table p.1).active))

/-- Release the locks of a switch. -/
def State.unlockAll (s : State) (id : W32) : State :=
  { s with tables := s.tables.map (fun p => if p.2.lock = some id then (p.1, { p.2 with lock := none }) else p) }

/-! ### A device's part of a Warren switch (R220 to R224) -/

/-- PREPARE is accepted: the tables are locked (R221). -/
def State.lockPairs (s : State) (id : W32) (master : Nat) (ps : List (Nat × Nat)) (durable : Bool) : State :=
  let s := (s.heldPairs ps).foldl (fun s p => s.modTable p.1 (fun t => { t with lock := some id })) s
  { s with wsw := { id := id, master := master, st := 1, pairs := ps, durable := durable } }

/-- The committed switch takes effect here (R223, R224). -/
def State.applySwitch (s : State) : State :=
  let w := s.wsw
  let prevs := s.previous w.pairs
  let s := (s.switchAll w.pairs true w.durable w.id.toNat).unlockAll w.id
  { s with wsw := { s.wsw with st := 3, prevs := prevs } }

/-- COMMIT reaches this device (R223): a repeated one is ignored; one after T_SW applies at once and is logged. -/
def State.commitHere (s : State) (id : W32) (tsw : W64) : State :=
  if s.wsw.id = id ∧ s.wsw.st = 1 then
    let s := { s with wsw := { s.wsw with st := 2, tsw := tsw } }
    if tsw.toNat < s.wtime.toNat then
      (State.applySwitch { s with wsw := { s.wsw with late := true } }).fault 0x0307 (mkLoc 11 0 none false 0)
    else s
  else s

/-- ABORT reaches this device (R221). -/
def State.abortHere (s : State) (id : W32) : State :=
  if s.wsw.id = id ∧ s.wsw.st = 1 then
    let s := s.unlockAll id
    { s with wsw := { s.wsw with st := 5 } }
  else s

/-- RELEASE reaches this device: the Warren holds go, and R215 applies (R224). -/
def State.releaseHere (s : State) (id : W32) : State :=
  if s.wsw.id = id ∧ s.wsw.st = 3 then
    let s := s.wsw.prevs.foldl (fun s p => s.modVersion p.1 p.2 false (fun v => { v with hold := false })) s
    { s with wsw := { s.wsw with st := 4 } }
  else s

/-- Every previous active slot of the switch has a count of zero here (R220 step 4). -/
def State.swDrained (s : State) : Bool :=
  s.wsw.prevs.all (fun p => decide (((s.table p.1).ver p.2).refs = 0))

/-! ### The master's part (R220, R222, R225, 16 R550) -/

/-- Devices of the Warren as the master knows them: those it has a route to, and itself. -/
def State.members (s : State) : List Nat := s.routed ++ [s.fab.wid]

/-- The master sends RELEASE once every device has sent DRAINED (R220 step 5). -/
def State.tryRelease (s : State) : State :=
  match s.msw with
  | none => s
  | some m =>
    if m.st = 1 ∧ s.members.all (fun d => m.drained.contains d) then
      { (s.mgtAll 0x46 (toLe 4 m.id.toNat) []).releaseHere m.id with msw := none }
    else s

/-- A device has drained. -/
def State.addDrained (s : State) (src : Nat) (id : W32) : State :=
  match s.msw with
  | none => s
  | some m =>
    if m.id = id ∧ m.st = 1 then State.tryRelease { s with msw := some { m with drained := src :: m.drained } } else s

/-- The master sends COMMIT to the devices of a list and to itself (R222). -/
def State.sendCommit (s : State) (m : MasterSwitch) (to_ : List Nat) (tsw : W64) : State :=
  let f := toLe 4 m.id.toNat ++ toLe 8 tsw.toNat
  let s := to_.foldl (fun s d => if d = s.fab.wid then s else s.sendOr (s.mkMsg 0x43 d 0 0 0 f [])) s
  let s := { s with msw := some { m with st := 1, tsw := tsw } }
  if to_.contains s.fab.wid then s.commitHere m.id tsw else s

/-- Ticks of EPOCH_LEAD: 0 means 100 µs (R222). -/
def leadTicks (lead : Nat) : W64 := BitVec.ofNat 64 (250 * (if lead = 0 then 100 else lead))

/-- Every device has answered PREPARED: COMMIT, and the command returns OK with T_SW (R222). -/
def State.commitAll (s : State) (m : MasterSwitch) : State :=
  let tsw := s.wtime + leadTicks m.lead
  let s := s.sendCommit m s.members tsw
  match m.cmd with
  | some c => s.finishCmd c { result := toLe 8 m.id.toNat ++ toLe 8 tsw.toNat }
  | none => s

/-- The master sends ABORT, and the command returns a status (R222). -/
def State.abortAll (s : State) (m : MasterSwitch) (status : Nat) : State :=
  let s := if s.fab.role = 2 then (s.mgtAll 0x44 (toLe 4 m.id.toNat) []).abortHere m.id else s
  let s := { s with msw := none }
  match m.cmd with
  | some c => s.finishCmd c { status := status }
  | none => s

/-- A device has answered PREPARED. -/
def State.addPrepared (s : State) (src : Nat) (id : W32) : State :=
  match s.msw with
  | none => s
  | some m =>
    if m.id = id ∧ m.st = 0 then
      let m := { m with prepared := src :: m.prepared }
      let s := { s with msw := some m }
      if s.members.all (fun d => m.prepared.contains d) then s.commitAll m else s
    else s

/-- A device has answered REFUSED. -/
def State.addRefused (s : State) (id : W32) (status : Nat) : State :=
  match s.msw with
  | none => s
  | some m => if m.id = id ∧ m.st = 0 then s.abortAll m status else s

/-- The bytes of the pairs and of their CRCs in a PREPARE; bit 0 of a pair's fourth byte carries DURABLE (assumption 8). -/
def prepareData (s : State) (ps : List (Nat × Nat)) (durable : Bool) : Bytes :=
  padB 32 (ps.flatMap (fun p => toLe 2 p.1 ++ toLe 1 p.2 ++ toLe 1 (b2n durable))) ++
  padB 32 (ps.flatMap (fun p => toLe 4 (s.sharedCrc p.1)))

/-- The master answers its own PREPARE (R220). -/
def State.prepareOwn (s : State) (id : W32) (ps : List (Nat × Nat)) (durable : Bool) : State :=
  let st := s.prepareStatus ps [] durable
  if st = 0 then (s.lockPairs id s.fab.wid ps durable).addPrepared s.fab.wid id else s.addRefused id st

/-- The master begins a switch: PREPARE to every device, and to itself (R220). -/
def State.beginSwitch (s : State) (cmd : Nat) (ps : List (Nat × Nat)) (durable : Bool) (lead : Nat) : State :=
  let id := s.fab.nextSwitch
  let m : MasterSwitch := { id := id, pairs := ps, durable := durable, lead := lead, cmd := some cmd, started := s.wtime }
  let data := prepareData s ps durable
  (State.mgtAll { s with fab := { s.fab with nextSwitch := id + 1 }, msw := some m } 0x40
    (toLe 4 id.toNat ++ toLe 1 ps.length) data).prepareOwn id ps durable

/-- The new master has heard what it can: it commits the pending switch where any device has received COMMIT, and aborts it
otherwise (R225, 16 R550). A state is STATE + 8 × SWITCH_ID. -/
def State.endQuery (s : State) (m : MasterSwitch) : State :=
  let all := (s.fab.wid, s.wsw.st + 8 * s.wsw.id.toNat) :: m.states
  let id := all.foldl (fun a p => max a (p.2 / 8)) 0
  let now := all.filter (fun p => p.2 / 8 == id)
  let st (p : Nat × Nat) : Nat := p.2 % 8
  let s := { s with fab := { s.fab with nextSwitch := if id = 0 then s.fab.nextSwitch else BitVec.ofNat 32 (id + 1) }, msw := none }
  let m := { m with id := BitVec.ofNat 32 id, drained := (now.filter (fun p => st p == 4)).map Prod.fst }
  if now.any (fun p => st p == 2 || st p == 3) then
    s.sendCommit m ((s.members).filter (fun d => !(now.any (fun p => p.1 == d && (st p == 2 || st p == 3 || st p == 4)))))
      (s.wtime + leadTicks 0)
  else if now.any (fun p => st p == 1) then s.abortAll { m with cmd := none } 0
  else s

/-- A device has answered SW_QUERY. -/
def State.addState (s : State) (src v : Nat) : State :=
  match s.msw with
  | none => s
  | some m =>
    if m.st = 2 then
      let m := { m with states := (src, v) :: m.states.filter (fun p => p.1 != src) }
      let s := { s with msw := some m }
      if s.routed.all (fun d => m.states.any (fun p => p.1 == d)) then s.endQuery m else s
    else s

/-! ### The rows -/

/-- SWITCH_ID of a message. -/
abbrev mSwitch (m : Bytes) : W32 := BitVec.ofNat 32 (fld m 0xC 4)

/-- PREPARE at a device: it locks and answers PREPARED, or answers REFUSED (R220, R221). -/
def State.onPrepare (s : State) (m : Bytes) : State :=
  let ps := (List.range (min 8 (fld m 0x10 1))).map (fun i => (fld m (32 + 4 * i) 2, fld m (34 + 4 * i) 1))
  let crcs := (List.range (min 8 (fld m 0x10 1))).map (fun i => fld m (64 + 4 * i) 4)
  let durable := tbit (fld m 35 1) 0
  let st := s.prepareStatus ps crcs durable
  if st = 0 then
    (s.lockPairs (mSwitch m) (mSrc m) ps durable).sendOr (s.mkMsg 0x41 (mSrc m) 0 0 (mTid m) (toLe 4 (mSwitch m).toNat) [])
  else s.sendOr (s.mkMsg 0x42 (mSrc m) 0 0 (mTid m) (toLe 4 (mSwitch m).toNat ++ toLe 1 st) [])

/-- PREPARE (R220). -/
def execPrepare (port : Nat) (msg : Bytes) (s : State) : Host.Outcome State Fault Refusal :=
  .next (s.receive port msg 0x40 (fun s => s.onPrepare msg))

/-- PREPARED (R220). -/
def execPrepared (port : Nat) (msg : Bytes) (s : State) : Host.Outcome State Fault Refusal :=
  .next (s.receive port msg 0x41 (fun s => s.addPrepared (mSrc msg) (mSwitch msg)))

/-- REFUSED (R222). -/
def execRefusedMsg (port : Nat) (msg : Bytes) (s : State) : Host.Outcome State Fault Refusal :=
  .next (s.receive port msg 0x42 (fun s => s.addRefused (mSwitch msg) (fld msg 0x10 1)))

/-- COMMIT (R223). -/
def execCommit (port : Nat) (msg : Bytes) (s : State) : Host.Outcome State Fault Refusal :=
  .next (s.receive port msg 0x43 (fun s => s.commitHere (mSwitch msg) (BitVec.ofNat 64 (fld msg 0x10 8))))

/-- ABORT (R221). -/
def execAbort (port : Nat) (msg : Bytes) (s : State) : Host.Outcome State Fault Refusal :=
  .next (s.receive port msg 0x44 (fun s => s.abortHere (mSwitch msg)))

/-- DRAINED (R220). -/
def execDrained (port : Nat) (msg : Bytes) (s : State) : Host.Outcome State Fault Refusal :=
  .next (s.receive port msg 0x45 (fun s => s.addDrained (mSrc msg) (mSwitch msg)))

/-- RELEASE (R224). -/
def execRelease (port : Nat) (msg : Bytes) (s : State) : Host.Outcome State Fault Refusal :=
  .next (s.receive port msg 0x46 (fun s => s.releaseHere (mSwitch msg)))

/-- SW_QUERY (16 R550): answered with the state of the latest switch. -/
def execSwQuery (port : Nat) (msg : Bytes) (s : State) : Host.Outcome State Fault Refusal :=
  .next (s.receive port msg 0x47 (fun s =>
    s.sendOr (s.mkMsg 0x48 (mSrc msg) 0 0 (mTid msg) (toLe 4 s.wsw.id.toNat ++ toLe 1 s.wsw.st) [])))

/-- SW_STATE (16 R550). -/
def execSwState (port : Nat) (msg : Bytes) (s : State) : Host.Outcome State Fault Refusal :=
  .next (s.receive port msg 0x48 (fun s => s.addState (mSrc msg) (fld msg 0x10 1 % 8 + 8 * fld msg 0xC 4)))

/-- SW_QUERY_TIMEOUT (16 R550): 10 ms have passed. -/
def execSwQueryTimeout (s : State) : Host.Outcome State Fault Refusal :=
  .next (
    match s.msw with
    | some m => if s.hub ∧ m.st = 2 then s.endQuery m else s
    | none => s)

/-- WARREN_SWITCH_APPLY (R223): the first HCLK whose Warren time is T_SW or later. -/
def execWarrenSwitchApply (s : State) : Host.Outcome State Fault Refusal :=
  .next (if s.hub ∧ s.wsw.st = 2 ∧ s.wsw.tsw.toNat ≤ s.wtime.toNat then s.applySwitch else s)

/-- DRAINED_SEND (R220 step 4). -/
def execDrainedSend (s : State) : Host.Outcome State Fault Refusal :=
  .next (
    if s.hub ∧ s.wsw.st = 3 ∧ ¬ s.wsw.drainedSent ∧ s.swDrained then
      let s := { s with wsw := { s.wsw with drainedSent := true } }
      if s.wsw.master = s.fab.wid then s.addDrained s.fab.wid s.wsw.id
      else s.sendOr (s.mkMsg 0x45 s.wsw.master 0 0 0 (toLe 4 s.wsw.id.toNat) [])
    else s)

/-- WARREN_PREPARE_TIMEOUT (R222): 10 ms after PREPARE an answer is still missing. -/
def execWarrenPrepareTimeout (s : State) : Host.Outcome State Fault Refusal :=
  .next (
    match s.msw with
    | some m => if s.hub ∧ m.st = 0 then s.abortAll m 0x0D else s
    | none => s)

end Sys2Proof.Machine
end

