-- ==== Sys2Proof/Machine/Fabric.lean ====
section
/-!
DEFINITION. The Warren's management messages: heartbeats and Warren time, HOLD, claims, HUSH notes and surveys
(16 R536, R543, R546 to R549).
-/

namespace Sys2Proof.Machine

/-! ### Warren time (R546) -/

/-- A member takes the master's Warren time, given in 1/16 tick. -/
def State.syncTime (s : State) (m16 : Nat) : State :=
  let t := m16 / 16
  let now := s.wtime.toNat
  let f := s.fab
  let corr := BitVec.ofInt 32 ((m16 : Int) - 16 * (now : Int))
  let f := { f with corr := corr, hbAt := BitVec.ofNat 64 t }
  if f.synced = false ∨ now ≤ t then
    { s with wtime := BitVec.ofNat 64 t, fab := { f with synced := true, slow := 0 } }
  else { s with fab := { f with slow := now - t, hbAt := s.wtime } }

/-- A HEARTBEAT of the current epoch: a member that has accepted none since its bring-up takes the sender as its master. -/
def State.onHeartbeat (s : State) (m : Bytes) : State :=
  let e := BitVec.ofNat 32 (fld m 0xC 4)
  let f := s.fab
  if f.role ≠ 1 ∨ (f.epoch ≠ 0 ∧ f.epoch ≠ e) then s
  else
    let s := { s with fab := { f with epoch := e, master := mSrc m, hold := false } }
    s.syncTime (16 * fld m 0x10 8 + fld m 0x18 4)

/-- HEARTBEAT (R546, R547). -/
def execHeartbeat (port : Nat) (msg : Bytes) (s : State) : Host.Outcome State Fault Refusal :=
  .next (s.receive port msg 0x49 (fun s => s.onHeartbeat msg))

/-- HEARTBEAT_TICK (R546): every 100 µs the master sends HEARTBEAT. -/
def execHeartbeatTick (s : State) : Host.Outcome State Fault Refusal :=
  .next (if s.hub ∧ s.fab.role = 2 then
    s.mgtAll 0x49 (toLe 4 s.fab.epoch.toNat ++ toLe 8 s.wtime.toNat ++ toLe 4 0) []
  else s)

/-! ### HOLD and claims (R547, R549) -/

/-- WARREN_HOLD_ENTRY (R547): 2 ms without a HEARTBEAT of the current epoch, which a HUSH_NOTE of the master stops. -/
def execWarrenHoldEntry (s : State) : Host.Outcome State Fault Refusal :=
  .next (if s.hub ∧ s.fab.role = 1 ∧ ¬ s.fab.hold ∧ ¬ s.fab.hushed.contains s.fab.master then
    { s with fab := { s.fab with hold := true } }
  else s)

/-- A claim is accepted: its epoch is higher, or equal from a lower Warren id than the accepted master's (R549). -/
def Fab.accepts (f : Fab) (src : Nat) (e : W32) : Bool :=
  decide (f.role ≠ 0) && (decide (f.epoch.toNat < e.toNat) || (f.epoch == e && decide (src < f.master)))

/-- The device takes a new master (R549). A pending switch is the new master's from now on, and what the device has told the
old one it tells again; a deposed master gives up what it has committed. -/
def State.takeMaster (s : State) (src : Nat) (e : W32) : State :=
  let was := s.fab.role
  let w := s.wsw
  let s := { s with fab := { s.fab with master := src, epoch := e, hold := false, role := 1 },
                    wsw := if w.st = 1 ∨ w.st = 2 ∨ w.st = 3 then { w with master := src, drainedSent := false } else w }
  if was = 2 then
    let s := match s.msw with
      | some m => if m.st = 0 then s else { s with msw := none }
      | none => s
    s.fault 0x0308 (mkLoc 11 0 none false 0)
  else s

/-- CLAIM (R549). -/
def execClaim (port : Nat) (msg : Bytes) (s : State) : Host.Outcome State Fault Refusal :=
  .next (s.receive port msg 0x4A (fun s =>
    let e := BitVec.ofNat 32 (fld msg 0xC 4)
    if s.fab.accepts (mSrc msg) e then s.takeMaster (mSrc msg) e else s))

/-! ### HUSH notes (R536, R543) -/

/-- HUSH_NOTE (R536). -/
def execHushNote (port : Nat) (msg : Bytes) (s : State) : Host.Outcome State Fault Refusal :=
  .next (s.receive port msg 0x4B (fun s =>
    { s with fab := { s.fab with hushed := (mSrc msg :: s.fab.hushed).eraseDups } }))

/-- WAKE_NOTE (R536). -/
def execWakeNote (port : Nat) (msg : Bytes) (s : State) : Host.Outcome State Fault Refusal :=
  .next (s.receive port msg 0x4C (fun s =>
    { s with fab := { s.fab with hushed := s.fab.hushed.filter (fun x => x != mSrc msg) } }))

/-! ### Surveys (R548) -/

/-- SURVEY_Q (R548): answered with the survey entry. -/
def execSurveyQ (port : Nat) (msg : Bytes) (s : State) : Host.Outcome State Fault Refusal :=
  .next (s.receive port msg 0x4D (fun s => s.sendOr (s.mkMsg 0x4E (mSrc msg) 0 0 (mTid msg) [] s.surveyEntry)))

/-- SURVEY_R (R548): the entry is kept for the survey in progress. -/
def execSurveyR (port : Nat) (msg : Bytes) (s : State) : Host.Outcome State Fault Refusal :=
  .next (s.receive port msg 0x4E (fun s =>
    match s.fab.survey with
    | some v => { s with fab := { s.fab with survey := some { v with
        answers := mset [] v.answers (mSrc msg) (sliceB (mData msg) 0 16) } } }
    | none => s))

/-- The 256 entries of a survey: one with no answer is zero. -/
def Survey.entries (v : Survey) : Bytes :=
  (List.range 256).flatMap (fun i => padB 16 (mget [] v.answers i))

/-- What a command that has written its data ends with: at once, or when the last piece is acknowledged (16 R540). -/
def State.endStored (s : State) (id : Nat) (res : Bytes) : State :=
  match s.cmd id with
  | none => s
  | some c =>
    if c.got then
      match c.fail with
      | some st => s.finishCmd id { status := st }
      | none => s.finishCmd id { result := res }
    else s.modCmd id (fun y => { y with stage := 9, nums := res.map BitVec.toNat })

/-- The survey ends: the entries go to DEST, and the command replies (R548, 15 R505). -/
def State.endSurvey (s : State) (v : Survey) : State :=
  let s := { s with fab := { s.fab with survey := none } }
  match s.cmd v.cmd with
  | none => s
  | some c =>
    if (v.answers.filter (fun p => p.1 != s.fab.wid)).isEmpty then s.finishCmd c.id { status := 0x0D }
    else
      let p := s.paramAddr c.src.fn? c.src.den (fld c.pkt 0x10 8) 4096
      (s.store c.id 0 p v.entries).endStored c.id (toLe 2 v.answers.length)

/-- SURVEY_TIMEOUT (R548): 10 ms after SURVEY_Q. -/
def execSurveyTimeout (s : State) : Host.Outcome State Fault Refusal :=
  .next (
    match s.fab.survey with
    | some v => if s.hub then s.endSurvey v else s
    | none => s)

end Sys2Proof.Machine
end

