-- ==== Sys2Proof/Machine/Remote.lean ====
section
/-!
DEFINITION. Remote work: quills at a tile, what an owner does with requests that arrive over Ifesil, what a requester does
with their answers, and transactions that fail (05 R170 to R172, 08 R274 to R278, 16 R534 to R542).
-/

namespace Sys2Proof.Machine

/-! ### Quills at a tile (08 R274 to R278) -/

/-- Quills of a tile that lie in the spill region. -/
def Tile.spilled (x : Tile) : List Nat := x.chans.flatMap (fun (p : Nat × List HeldQuill) => p.2.filterMap HeldQuill.spill)

/-- Put a quill into a channel: into a port slot, or into the lowest free place of the spill region (R274). none = both are
full. -/
def Tile.putQuill (x : Tile) (c : Nat) (q : Quill) (e : EntryPoint) : Option Tile :=
  let l := mget [] x.chans c
  if (l.filter (fun (h : HeldQuill) => h.spill.isNone)).length < 4 then
    some { x with chans := mset [] x.chans c (l ++ [{ quill := q }]) }
  else
    match (List.range e.spillQ).find? (fun n => !(x.spilled.contains n)) with
    | some n => some { (x.putMarked (e.spillOff + 64 * n) q.data q.poison) with chans := mset [] x.chans c (l ++ [{ quill := q, spill := some n }]) }
    | none => none

/-- Deliver a quill to a channel of a tile that runs a task (R274, R278). -/
def State.putQuill (s : State) (t c : Nat) (q : Quill) : State :=
  match s.holder t with
  | none => s.fault 0x0303 (mkLoc 1 t none false 0)
  | some r =>
    if (s.tile t).seq = .ending ∨ (s.tile t).seq = .ended ∨ r.phase = .aborting then s.fault 0x0303 (mkLoc 1 t (some r.den) false 0)
    else
      match (s.tile t).putQuill c q (s.entryOf r) with
      | some x => s.modTile t (fun _ => x)
      | none => s.tileFault t 0x0A 0 0 false false

/-- A quill with REMOTE = 1 for tile id `t`: delivered while that tile runs a task of den `d`; otherwise QUILL_STRAY, or
QUILL_LATE after END or an abort (R277, R278). -/
def State.remoteQuill (s : State) (d t c : Nat) (q : Quill) : State :=
  match s.holder t with
  | some r => if r.den = d then s.putQuill t c q else s.fault 0x0302 (mkLoc 1 t (some d) false 0)
  | none => s.fault 0x0302 (mkLoc 1 t (some d) false 0)

/-- QUILL (16 R541): a device in RETAIN or LIMP discards it (R542). -/
def execQuill (port : Nat) (msg : Bytes) (s : State) : Host.Outcome State Fault Refusal :=
  .next (s.receive port msg 0x15 (fun s =>
    if s.pwr.st = .retain ∨ s.pwr.st = .limp then s
    else s.remoteQuill (mDen msg) (fld msg 0xC 1) (fld msg 0xD 1 % 16)
      { src := BitVec.ofNat 64 (fld msg 0xE 1 + 256 * mSrc msg + 65536), data := sliceB (mData msg) 0 64 }))

/-! ### The owner's side (16 R514, R537 to R540, R542) -/

/-- The device answers no request: RETAIN or LIMP (R542). -/
def State.refuses (s : State) : Bool := decide (s.pwr.st = .retain) || decide (s.pwr.st = .limp)

/-- An answer to a message. -/
def State.respond (s : State) (m : Bytes) (ty status : Nat) (fields data : Bytes) : State :=
  s.sendOr (s.mkMsg ty (mSrc m) (mDen m) status (mTid m) fields data)

/-- The lines of a range are read, filled or written through the Hoard for a den (05 R151); where none of its lines may be
replaced the access goes past the Hoard. -/
def State.throughHoard (s : State) (d a n : Nat) (write : Bool) : State :=
  match s.touchLines (some d) true write false (linesOf a n) with
  | some t => t
  | none => s

/-- A row as stored here in a slot, with its poison; `none` = outside the den's ranges. -/
def State.ownerRow (s : State) (d : Nat) (t : Table) (v row : Nat) : Option (Bytes × Bool × State) :=
  match t.localAddr v row with
  | none => some (List.replicate t.rowSize 0, false, s)
  | some a =>
    if s.denMay d a t.rowSize false then
      let s := s.throughHoard d a t.rowSize false
      some (s.devRead a t.rowSize, s.devBad a t.rowSize, s)
    else none

/-- STATUS of a remote lookup of a table and slot: 3 RETAIN, 2 NO_TABLE, 0 OK. -/
def State.lookupStatus (s : State) (tn v : Nat) : Nat :=
  if s.refuses then 3 else if (s.table tn).present ∧ v < 4 ∧ ((s.table tn).ver v).valid then 0 else 2

/-- Serve a ROW_READ (R537). -/
def State.serveRow (s : State) (m : Bytes) : State :=
  let tn := fld m 0xC 2
  let v := fld m 0xE 1
  let t := s.table tn
  let st := s.lookupStatus tn v
  let zero := toLe 4 0 ++ toLe 2 0 ++ toLe 1 0
  if st ≠ 0 then s.respond m 0x20 st zero []
  else
    match s.ownerRow (mDen m) t v (fld m 0x10 8) with
    | none => s.respond m 0x20 1 zero []
    | some (b, bad, s) => s.respond m 0x20 (if bad then 4 else 0) (toLe 4 t.rowScale.toNat ++ toLe 2 t.rowSize ++ toLe 1 t.fmt) b

/-- ROW_READ (R537). -/
def execRowRead (port : Nat) (msg : Bytes) (s : State) : Host.Outcome State Fault Refusal :=
  .next (s.receive port msg 0x10 (fun s => s.serveRow msg))

/-- `n` free values of 32 bits. -/
def State.frees32 (s : State) (n : Nat) : List W32 × State :=
  match n with
  | 0 => ([], s)
  | k + 1 =>
    let a := s.free 32
    let b := a.2.frees32 k
    (a.1 :: b.1, b.2)

/-- The rows of a POOL_REQ with their weights. -/
def poolReqRows (m : Bytes) : List (Nat × W32) :=
  (List.range (fld m 0x10 1 + (if fld m 0x10 1 = 0 then 256 else 0))).map (fun i =>
    (fld m (32 + 16 * i) 5, BitVec.ofNat 32 (fld m (40 + 16 * i) 4)))

/-- Read the rows of a POOL_REQ; none = one lies outside the den's ranges. -/
def State.ownerRows (s : State) (d : Nat) (t : Table) (v : Nat) (rows : List (Nat × W32)) :
    Option (List (W32 × List W32) × Bool × State) :=
  match rows with
  | [] => some ([], false, s)
  | (r, w) :: rest =>
    match s.ownerRow d t v r with
    | none => none
    | some (b, bad, s) =>
      match s.ownerRows d t v rest with
      | none => none
      | some (l, bad2, s) => some ((w, t.rowVals b) :: l, bad || bad2, s)

/-- The pieces of a contribution (R539). -/
def State.contribute (s : State) (m : Bytes) (status rows : Nat) (v : List W32) : State :=
  let n := (v.length + 1023) / 1024
  let idx := fld m 0x11 1
  (List.range n).foldl (fun s p =>
    let part := (v.drop (1024 * p)).take 1024
    s.respond m 0x30 status (toLe 2 (mTid m).toNat ++ toLe 1 idx ++ toLe 1 p ++ toLe 1 n ++ [0] ++ toLe 2 rows ++ toLe 2 (1024 * p))
      (part.flatMap (fun x => toLe 4 x.toNat))) s

/-- A contribution of no rows: NPIECE 1 and no data (R542). -/
def State.noContrib (s : State) (m : Bytes) (status : Nat) : State :=
  s.respond m 0x30 status (toLe 2 (mTid m).toNat ++ toLe 1 (fld m 0x11 1) ++ [0, 1, 0]) []

/-- DIV = 1 divides by DIVN; the quotient by zero is left open (R537, assumption 1). -/
def State.divide (s : State) (div : Bool) (n : Nat) (v : List W32) : List W32 × State :=
  if ¬ div then (v, s) else if n = 0 then s.frees32 v.length else (v.map (fun x => f32divNat x n), s)

/-- Serve a POOL_REQ (R537, R538). -/
def State.servePool (s : State) (m : Bytes) : State :=
  let tn := fld m 0xC 2
  let v := fld m 0xE 1
  let mode := fld m 0xF 1
  let t := s.table tn
  let st := s.lookupStatus tn v
  if st ≠ 0 then s.noContrib m st
  else
    match s.ownerRows (mDen m) t v (poolReqRows m) with
    | none => s.noContrib m 1
    | some (l, bad, s) =>
      let d := s.divide (tbit (fld m 0x12 1) 0) (fld m 0x14 2) (poolRows mode t.elems l)
      d.2.contribute m (if bad then 4 else 0) l.length d.1

/-- POOL_REQ (R537): it stays in its buffer while the den's IFESIL bucket holds no token for the contribution (13 R416). -/
def execPoolReq (port : Nat) (msg : Bytes) (s : State) : Host.Outcome State Fault Refusal :=
  .next (if (s.den (mDen msg)).open .ifs then s.receive port msg 0x11 (fun s => s.servePool msg)
    else if s.portUp port then s.count (mDen msg) cRegWait 1 else s)

/-- An access to this device's memory that arrives for a den: STATUS 3 RETAIN, 1 DEN_RANGE, 0 OK (R514). -/
def State.bulkStatus (s : State) (m : Bytes) (n : Nat) : Nat :=
  if s.refuses then 3 else if s.denMay (mDen m) (fld m 0xC 8) n false then 0 else 1

/-- Serve a BULK_RD (R540). -/
def State.serveRead (s : State) (m : Bytes) : State :=
  let a := fld m 0xC 8
  let n := fld m 0x14 2
  let st := s.bulkStatus m n
  if st ≠ 0 then s.respond m 0x21 st (toLe 2 0) []
  else
    let s := s.throughHoard (mDen m) a n false
    s.respond m 0x21 (if s.devBad a n then 4 else 0) (toLe 2 n) (s.devRead a n)

/-- BULK_RD (R540). -/
def execBulkRd (port : Nat) (msg : Bytes) (s : State) : Host.Outcome State Fault Refusal :=
  .next (s.receive port msg 0x12 (fun s => s.serveRead msg))

/-- Serve a BULK_WR (R540). -/
def State.serveWrite (s : State) (m : Bytes) : State :=
  let a := fld m 0xC 8
  let n := fld m 0x14 2
  let st := s.bulkStatus m n
  if st ≠ 0 then s.respond m 0x22 st [] []
  else ((s.throughHoard (mDen m) a n true).devWrite a (sliceB (mData m) 0 n)).respond m 0x22 0 [] []

/-- BULK_WR (R540). -/
def execBulkWr (port : Nat) (msg : Bytes) (s : State) : Host.Outcome State Fault Refusal :=
  .next (s.receive port msg 0x13 (fun s => s.serveWrite msg))

/-- Bytes of the extent of an atomic; 0 = one that R166 refuses (05 R162). -/
def atomExtent (op fmt lanes a : Nat) : Nat :=
  if op = 4 ∨ op = 5 then (if a % 8 = 0 then 8 else 0)
  else if 1 ≤ op ∧ op ≤ 3 then
    let n := laneBytes fmt * lanes
    if n = 0 ∨ a % (laneBytes fmt) ≠ 0 ∨ 128 < a % 128 + n then 0 else n
  else 0

/-- The value that an atomic leaves in its extent: `arg` holds the operands, for CAS64 the compare value and then the swap
value (05 R162). -/
def atomNew (op fmt lanes : Nat) (old arg : Bytes) : Bytes :=
  match op with
  | 4 => if old = sliceB arg 0 8 then sliceB arg 8 8 else old
  | 5 => sliceB arg 0 8
  | _ => laneAtomic op fmt lanes old arg

/-- Serve an ATOMIC at its home slice (R540, 05 R162 to R166): one that R166 refuses answers DEN_RANGE, one on a poisoned
extent POISON. -/
def State.serveAtomic (s : State) (m : Bytes) : State :=
  let a := fld m 0xC 8
  let op := fld m 0x14 1
  let fmt := fld m 0x15 1
  let lanes := fld m 0x16 1
  let ret := decide (fld m 0x17 1 ≠ 0) || decide (op = 4 ∨ op = 5)
  let n := atomExtent op fmt lanes a
  let inMem := match space a with
    | .hbm | .scratch _ => true
    | _ => false
  if s.refuses then s.respond m 0x23 3 [] []
  else if n = 0 ∨ inMem = false ∨ s.denMay (mDen m) a n false = false then s.respond m 0x23 1 [] []
  else
    let s := s.throughHoard (mDen m) a n true
    if s.devBad a n then s.respond m 0x23 4 [] []
    else
      let old := s.devRead a n
      ((s.devWrite a (atomNew op fmt lanes old (mData m))).count (mDen m) cAtom 1).respond m 0x23 0 [] (if ret then old else [])

/-- ATOMIC (R540). -/
def execAtomic (port : Nat) (msg : Bytes) (s : State) : Host.Outcome State Fault Refusal :=
  .next (s.receive port msg 0x14 (fun s => s.serveAtomic msg))

/-! ### The requester's side (16 R535, 05 R170 to R172) -/

/-- The transaction that an answer belongs to; a contribution also carries its REQIDX. -/
def State.xactOf (s : State) (m : Bytes) : Option Xact :=
  s.fab.xacts.find? (fun x => x.tid == mTid m && x.dst == mSrc m && (mType m != 0x30 || x.ridx == fld m 0xE 1))

/-- Remove a transaction. -/
def State.endXact (s : State) (x : Xact) : State :=
  { s with fab := { s.fab with xacts := dropFirst (fun (y : Xact) => y.tid == x.tid && y.dst == x.dst && y.ridx == x.ridx) s.fab.xacts } }

/-- An answer for no transaction: XACT_LATE (R535). -/
def State.lateAnswer (s : State) : State := s.fault 0x0306 (mkLoc 11 0 none false 0)

/-- SUBCAUSE REMOTE (11 R364). -/
abbrev subRemote : Nat := 3

/-- Status with which a block read or write of the CP or the update engine ends when the owner answers `st`. -/
def partStatus (iss : Issuer) (st : Nat) : Nat :=
  match iss with
  | .cmd _ => if st = 1 then 0x05 else 0x0C
  | _ => 0x0C

/-- Records of a lookup are dropped and counted; the request goes on (R535). -/
def State.dropRows (s : State) (x : Xact) (n : Nat) : State := s.count x.den cDrop n

/-- One more contribution has arrived at the arrival slot (05 R170). -/
def ArrSlot.oneMore (a : ArrSlot) : ArrSlot := { a with arrived := a.arrived + 1 }

/-- The arrival slot of a pooled transaction counts a contribution (05 R170). -/
def State.countArrived (s : State) (x : Xact) : State :=
  let f (p : Nat × ArrSlot) : Nat × ArrSlot := if p.1 = x.tid.toNat ∧ p.2.used then (p.1, p.2.oneMore) else p
  { s with hoard := { s.hoard with arr := s.hoard.arr.map f } }

/-- A transaction has failed: `st` is the STATUS of its answer, 0 for a missing route or a timeout (R535). -/
def State.failXact (s : State) (x : Xact) (st : Nat) : State :=
  let gone := decide (st = 1 ∨ st = 2)
  match x.issuer with
  | .row r _ => if gone then (s.xactFailed.dropRows x 1).finishBags r.req else s.failLookup r.req
  | .pool q a b c _ n =>
    if gone then
      let s := s.xactFailed.dropRows x n
      let s := s.countArrived x
      (s.closeBag q a b c).finishBags q
    else s.failLookup q
  | .tile t acc => s.xactFailed.modTile t (fun y =>
      { y with accs := modFirst (fun g => g.id == acc) (fun g => { g with st := .failed 0x03 }) y.accs })
  | .stream t u d a => s.xactFailed.modTile t (fun y => y.modUnit u (fun z => z.serveXfer d a [] subRemote))
  | .part iss _ _ _ => s.xactFailed.partTake iss (.inr (partStatus iss st))
  | .cmdWrite id _ _ => s.xactFailed.modCmd id (fun c => { c with got := true, fail := some (partStatus (.cmd id) st) })

/-- An answer of the right kind reaches its transaction: `good` takes one that carries data (STATUS OK, or POISON). -/
def State.takeAnswer (s : State) (m : Bytes) (good : State → Xact → Bool → State) : State :=
  match s.xactOf m with
  | none => s.lateAnswer
  | some x =>
    let s := s.endXact x
    if mStatus m = 0 then good s x false
    else if mStatus m = 4 then good s.xactFailed x true
    else s.failXact x (mStatus m)

/-- The elements of a row that another device has sent, with its FMT and ROW_SCALE (R537). -/
def State.remoteVals (s : State) (r : FRec) (m : Bytes) : List W32 :=
  let t := s.table r.table
  { t with fmt := fld m 0x12 1, rowScale := BitVec.ofNat 32 (fld m 0xC 4) }.rowVals (mData m)

/-- ROW_DATA (R537). -/
def execRowData (port : Nat) (msg : Bytes) (s : State) : Host.Outcome State Fault Refusal :=
  .next (s.receive port msg 0x20 (fun s => s.takeAnswer msg (fun s x bad =>
    match x.issuer with
    | .row r k => s.takeRow r k true (s.remoteVals r msg) bad
    | _ => s)))

/-- Data of a bulk read reach their issuer; a poisoned block fails the CP's and the update engine's read. -/
def State.takeBulk (s : State) (x : Xact) (b : Bytes) (bad : Bool) : State :=
  match x.issuer with
  | .tile t acc => s.modTile t (fun y => y.serveAcc acc b bad)
  | .stream t u d a => s.modTile t (fun y => y.modUnit u (fun z => z.serveXfer d a b (if bad then subPoison else 0)))
  | .part iss base off total =>
    if bad then s.partTake iss (.inr 0x0C)
    else
      let last := decide (total ≤ off + b.length)
      let s := s.partTake iss (.inl (b, last))
      if last ∨ b.isEmpty then s else s.partAsk iss x.den x.dst base (off + b.length) total
  | .row _ _ | .pool _ _ _ _ _ _ | .cmdWrite _ _ _ => s

/-- BULK_DATA (R540). -/
def execBulkData (port : Nat) (msg : Bytes) (s : State) : Host.Outcome State Fault Refusal :=
  .next (s.receive port msg 0x21 (fun s => s.takeAnswer msg (fun s x bad =>
    s.takeBulk x (sliceB (mData msg) 0 (fld msg 0xC 2)) bad)))

/-- A remote write has been applied. -/
def State.takeAck (s : State) (x : Xact) : State :=
  match x.issuer with
  | .tile t acc => s.modTile t (fun y => y.serveAcc acc [] false)
  | .stream t u d a => s.modTile t (fun y => y.modUnit u (fun z => z.serveXfer d a [] 0))
  | .cmdWrite id base off => s.partSend id x.den x.dst base (off + 2048)
  | .row _ _ | .pool _ _ _ _ _ _ | .part _ _ _ _ => s

/-- WRITE_ACK (R540). -/
def execWriteAck (port : Nat) (msg : Bytes) (s : State) : Host.Outcome State Fault Refusal :=
  .next (s.receive port msg 0x22 (fun s => s.takeAnswer msg (fun s x _ => s.takeAck x)))

/-- ATOMIC_RSP (R540). -/
def execAtomicRsp (port : Nat) (msg : Bytes) (s : State) : Host.Outcome State Fault Refusal :=
  .next (s.receive port msg 0x23 (fun s => s.takeAnswer msg (fun s x bad =>
    match x.issuer with
    | .tile t acc => s.modTile t (fun y => y.serveAcc acc (mData msg) bad)
    | _ => s)))

/-- Every piece of a contribution has arrived. -/
def Xact.whole (x : Xact) (n : Nat) : Bool := decide (n ≤ x.pieces.length)

/-- The elements of a whole contribution. -/
def Xact.vals (x : Xact) (elems : Nat) : List W32 :=
  let b := x.pieces.flatMap Prod.snd
  (List.range elems).map (fun i => BitVec.ofNat 32 (fld b (4 * i) 4))

/-- A whole contribution is applied to its bag (R539, 05 R170). -/
def State.applyContrib (s : State) (x : Xact) (rows : Nat) (bad : Bool) : State :=
  match x.issuer with
  | .pool q a b c k _ =>
    let s := s.endXact x
    let s := s.countArrived x
    match s.req q with
    | none => s
    | some r =>
      let tn := ((s.groupOf r b).tabs.getD c (0, 0)).1
      s.addPart q a b c { ord := x.ridx, shard := k, rows := rows, vals := x.vals (s.table tn).elems, remote := true, poison := bad }
  | _ => s

/-- One piece arrives: it is kept until every piece of the contribution has. -/
def State.takePiece (s : State) (x : Xact) (m : Bytes) (bad : Bool) : State :=
  let y := { x with pieces := mset [] x.pieces (fld m 0xF 1) (mData m) }
  if y.whole (fld m 0x10 1) then s.applyContrib y (fld m 0x12 2) bad
  else
    let same (z : Xact) : Bool := z.tid == x.tid && z.dst == x.dst && z.ridx == x.ridx
    let l := modFirst same (fun _ => y) s.fab.xacts
    { s with fab := { s.fab with xacts := l } }

/-- POOL_CONTRIB (R539, 05 R172): one for no transaction is stray. -/
def execPoolContrib (port : Nat) (msg : Bytes) (s : State) : Host.Outcome State Fault Refusal :=
  .next (s.receive port msg 0x30 (fun s =>
    match s.xactOf msg with
    | none => s.fault 0x0301 (mkLoc 2 (fld msg 0xC 2 % 64) none false 0)
    | some x =>
      if mStatus msg = 0 then s.takePiece x msg false
      else if mStatus msg = 4 then s.xactFailed.takePiece x msg true
      else (s.endXact x).failXact x (mStatus msg)))

/-- XACT_TIMEOUT (R535, R536): a transaction has had no answer for 2 ms; the timers stand while a HUSH_NOTE is outstanding. -/
def execXactTimeout (tid : W32) (s : State) : Host.Outcome State Fault Refusal :=
  .next (
    match s.fab.xacts.find? (fun x => x.tid == tid) with
    | some x => if s.hub ∧ s.fab.hushed.isEmpty then (s.endXact x).failXact x 0 else s
    | none => s)

end Sys2Proof.Machine
end

