-- ==== Sys2Proof/Machine/Command.lean ====
section
/-!
DEFINITION. How the CP takes a command: the order of the checks, scopes and rights, the states that refuse commands, the
parameters and the locks (15 R477 to R488, 18 R613 to R615).
-/

namespace Sys2Proof.Machine

/-! ### Opcodes (15 R489 to R509) -/

/-- Scope of a defined opcode, 0 device, 1 den, 2 den with 0xFF allowed to the PF and a service issuer, and whether a VF may
issue it; none for an undefined opcode. -/
def opInfo (op : Nat) : Option (Nat × Bool) :=
  if op ≤ 2 then some (0, true)
  else if op ≤ 6 then some (0, false)
  else if op = 7 then some (1, true)
  else if 0x10 ≤ op ∧ op ≤ 0x16 then some (1, [0x12, 0x15, 0x16].contains op)
  else if 0x20 ≤ op ∧ op ≤ 0x22 then some (1, true)
  else if 0x30 ≤ op ∧ op ≤ 0x35 then some (if op = 0x33 then 2 else 1, true)
  else if 0x40 ≤ op ∧ op ≤ 0x44 then some (2, true)
  else if 0x50 ≤ op ∧ op ≤ 0x53 then some (0, op == 0x50)
  else if (0x60 ≤ op ∧ op ≤ 0x65) ∨ (0x70 ≤ op ∧ op ≤ 0x73) then some (0, false)
  else none

/-- The den of a VF issuer; none for the PF and a service issuer. -/
def CmdSrc.vf (c : CmdSrc) : Option Nat :=
  match c with
  | .ring f _ => if f = 0 then none else some (f - 1)
  | .usb | .uart => none

/-- A service issuer (R479). -/
def CmdSrc.service (c : CmdSrc) : Bool :=
  match c with
  | .ring _ _ => false
  | .usb | .uart => true

/-! ### Checks 2 to 4 (R480, R482, R486, 18 R613 to R615) -/

/-- DEN suits the scope. -/
def denOk (scope : Nat) (vf : Bool) (d : Nat) : Bool :=
  if scope = 0 then decide (d = 0xFF) else decide (d < 32) || (decide (d = 0xFF) && decide (scope = 2) && !vf)

/-- Check 2: the offset of the first header field that fails. -/
def headBad (b : Bytes) (scope : Nat) (vf : Bool) : Option Nat :=
  if 1 < cFlags b then some 1
  else if !(denOk scope vf (cDen b)) then some 4
  else if !(allZero (sliceB b 5 3)) then some 5
  else none

/-- Check 3: the issuer class may not issue the opcode, or a VF names another den. -/
def notAllowed (c : CmdSrc) (b : Bytes) (scope : Nat) (vfOk : Bool) : Bool :=
  match c.vf with
  | none => false
  | some d => !vfOk || (decide (scope ≠ 0) && decide (cDen b ≠ d))

/-- Opcodes that a device accepts in LIMP, in ROM recovery and in SERVICE_ONLY (R486, 18 R613 to R615). -/
def modeOps (mode : Nat) : List Nat :=
  match mode with
  | 1 => [0x01, 0x02, 0x63, 0x64, 0x65, 0x72]
  | 2 => [0x01, 0x02, 0x63, 0x65, 0x70, 0x71, 0x72]
  | _ => [0x01, 0x02, 0x63, 0x65]

/-- The state of den `d` refuses an opcode. -/
def State.denRefuses (s : State) (d op : Nat) : Bool :=
  if s.pcie.retHeld.getLsbD d then !([0x12, 0x13, 0x16].contains op)
  else
    match (s.den d).st with
    | .active => false
    | .free => !([0x10, 0x12].contains op)
    | .destroying => !([0x12].contains op)
    | .quiesced => !([0x12, 0x13, 0x14, 0x22, 0x34, 0x44].contains op)

/-- WARREN of a TABLE_SWITCH (R501). -/
abbrev cWarren (b : Bytes) : Bool := tbit (fld b 9 1) 0

/-- Check 4: the device, the Warren or the den does not allow the opcode. -/
def State.stateRefuses (s : State) (c : CmdSrc) (b : Bytes) (scope : Nat) : Bool :=
  (decide (s.boot.mode ≠ 0) && (c.vf.isSome || !((modeOps s.boot.mode).contains (cOp b)))) ||
  (s.fab.hold && (decide (cOp b = 0x53) || (decide (cOp b = 0x33) && cWarren b))) ||
  (decide (scope ≠ 0) && decide (cDen b < 32) && s.denRefuses (cDen b) (cOp b))

/-- Checks 1 to 4: the reply with which a packet is refused. -/
def State.headCheck (s : State) (c : CmdSrc) (b : Bytes) : Option CmdRes :=
  match opInfo (cOp b) with
  | none => some { status := 0x02 }
  | some (scope, vfOk) =>
    match headBad b scope c.vf.isSome with
    | some o => some { status := 0x03, detail := o }
    | none =>
      if notAllowed c b scope vfOk then some { status := 0x05 }
      else if s.stateRefuses c b scope then some { status := 0x06 }
      else none

/-! ### Check 5: parameters (R477, R481, R488) -/

/-- A parameter: its offset, its size, and whether it lies within its range. -/
abbrev Param := Nat × Nat × Bool

/-- The offset of the first parameter that fails: parameters in ascending order, and every byte from `pos` on that they do not
name is reserved. -/
def paramBad (b : Bytes) (pos : Nat) (ps : List Param) : Option Nat :=
  match ps with
  | [] => if allZero (b.drop pos) then none else some pos
  | (o, n, ok) :: rest =>
    if !(allZero (sliceB b pos (o - pos))) then some pos else if !ok then some o else paramBad b (o + n) rest

/-- A parameter of any value. -/
abbrev anyP (o n : Nat) : Param := (o, n, true)

/-- A parameter of at most `m`. -/
abbrev maxP (b : Bytes) (o n m : Nat) : Param := (o, n, decide (fld b o n ≤ m))

/-- An address parameter: 56 bits; a service issuer names no address in the host window (R481). -/
def addrP (c : CmdSrc) (b : Bytes) (o : Nat) : Param :=
  (o, 8, decide (fld b o 8 < 2 ^ 56) && !(c.service && decide (hostBase ≤ fld b o 8)))

/-! ### Running a command (R482 to R485) -/

/-- The CP takes from a source now; in SERVICE_ONLY the Dormouse serves the service ports itself (18 R614). -/
def State.takesFrom (s : State) (c : CmdSrc) : Bool :=
  (s.cpTakes || (decide (s.boot.mode = 3) && c.service && decide (s.cp.running.length < 16))) && decide (s.nextSrc = some c)

/-- What a command row asks of a packet, checks and locks included. -/
structure CmdRow where
  /-- the packet is of the row -/
  mine : Bytes → Bool
  /-- its parameters, in ascending order -/
  params : CmdSrc → Bytes → List Param
  /-- its locks -/
  locks : State → Bytes → List (LockObj × Bool)

/-- The reply with which checks 1 to 6 refuse a packet. -/
def State.cmdRefusal (s : State) (r : CmdRow) (c : CmdSrc) (b : Bytes) : Option CmdRes :=
  match s.headCheck c b with
  | some x => some x
  | none =>
    match paramBad b 8 (r.params c b) with
    | some o => some { status := 0x03, detail := o }
    | none => if s.locksFree (r.locks s b) then none else some { status := 0x01 }

/-- A row takes the packet at the front of its source and runs `f` on it, once it has passed checks 1 to 6. -/
def State.runCmd (s : State) (r : CmdRow) (c : CmdSrc) (f : State → Bytes → State) : State :=
  match s.cmdPkt c with
  | none => s
  | some b =>
    if s.takesFrom c && r.mine b then
      match s.cmdRefusal r c b with
      | some x => (s.takeCmd c).reply c b false x
      | none => f (s.takeCmd c) b
    else s

/-- A command that ends at once: what it does, and its reply. -/
def State.quick (c : CmdSrc) (g : State → Bytes → CmdRes × State) (s : State) (b : Bytes) : State :=
  let r := g s b
  r.2.reply c b false r.1

/-- A command that runs over time begins: `g` acts on it by its number. -/
def State.begin (c : CmdSrc) (r : CmdRow) (g : State → Nat → Bytes → State) (s : State) (b : Bytes) : State :=
  g (s.startCmd c b (r.locks s b)) s.cp.seq b

/-- A status alone. -/
abbrev st (n : Nat) : CmdRes := { status := n }

/-- BAD_PARAM on data that was read from an address (R488). -/
abbrev badData : CmdRes := { status := 0x03, detail := 0xFFFF }

/-- BAD_PARAM on the field at an offset. -/
abbrev badAt (o : Nat) : CmdRes := { status := 0x03, detail := o }

/-- DEVICE in shared mode (R484). -/
abbrev devShared : List (LockObj × Bool) := [(.device, false)]

/-- DEVICE shared and the den's lock. -/
def denLocks (b : Bytes) (excl : Bool) : List (LockObj × Bool) :=
  (.device, false) :: (if cDen b < 32 then [(.den (cDen b), excl)] else [])

/-- Opcode `op`. -/
abbrev isOp (op : Nat) (b : Bytes) : Bool := decide (cOp b = op)

/-- The den tag of what a command of this source sends to another device (R481; 0 without one). -/
def CmdSrc.tag (c : CmdSrc) : Nat :=
  match c.den with
  | some d => d
  | none => 0

/-- A started command ends. -/
abbrev State.fin (s : State) (id : Nat) (r : CmdRes) : State := s.finishCmd id r

/-- A started command writes bytes to an address and ends with a result, at once or when the last piece is acknowledged. -/
def State.writeOut (s : State) (c : CmdSrc) (id a : Nat) (bytes res : Bytes) : State :=
  (s.store id c.tag (s.paramAddr c.fn? c.den a bytes.length) bytes).endStored id res

/-- A started command reads `n` bytes at an address; what arrives is appended to its data. -/
def State.readIn (s : State) (c : CmdSrc) (id a n : Nat) : State :=
  (s.modCmd id (fun y => { y with got := false })).fetch (.cmd id) c.tag (s.paramAddr c.fn? c.den a n) n

/-- A running command notes its stage and its numbers. -/
def State.mark (s : State) (id stage : Nat) (nums : List Nat) : State :=
  s.modCmd id (fun y => { y with stage := stage, nums := nums })

end Sys2Proof.Machine
end

