-- ==== Sys2Proof/Machine/CmdDevice.lean ====
section
/-!
DEFINITION. The device family of commands (15 R489, R490, R510 to R513, 14 R460, R472).
-/

namespace Sys2Proof.Machine

/-! ### NOP, IDENTIFY, DEV_STATUS (R489, R490) -/

/-- A command without parameters that takes no lock. -/
def plainRow (op : Nat) : CmdRow := { mine := isOp op, params := fun _ _ => [], locks := fun _ _ => [] }

/-- NOP, and every packet with an undefined opcode, which ends at check 1. -/
def nopRow : CmdRow :=
  { mine := fun b => isOp 0 b || (opInfo (cOp b)).isNone, params := fun _ _ => [], locks := fun _ _ => [] }

/-- NOP does nothing and replies OK; a packet with an undefined opcode is taken here too (R482, R489). -/
def execCmdNop (src : CmdSrc) (s : State) : Host.Outcome State Fault Refusal :=
  .next (s.runCmd nopRow src (State.quick src (fun s _ => (st 0, s))))

/-- RESULT of IDENTIFY (R490). -/
def State.identity (s : State) : Bytes :=
  toLe 2 0xD060 ++ toLe 2 1 ++ toLe 4 s.boot.fwVersion.toNat ++ toLe 8 s.boot.serial.toNat ++ toLe 1 s.fab.wid ++
  toLe 1 s.fab.role ++ toLe 1 (s.boot.profile % 4 + 128 * b2n s.boot.ovr) ++ toLe 1 s.identState

/-- IDENTIFY (R490). -/
def execIdentify (src : CmdSrc) (s : State) : Host.Outcome State Fault Refusal :=
  .next (s.runCmd (plainRow 1) src (State.quick src (fun s _ => ({ result := s.identity }, s))))

/-- RESULT of DEV_STATUS (R490). -/
def State.devStatus (s : State) : Bytes :=
  toLe 2 s.pwr.p1ms ++ toLe 2 s.pwr.cap ++ toLe 2 ((mget (0 : BitVec 8) s.pwr.dieTemp 0).signExtend 16).toNat ++
  toLe 2 s.hottestStack.toNat ++ toLe 2 s.tilesFenced ++ toLe 2 s.lanesFenced ++ toLe 4 s.stripesRetired ++
  toLe 4 s.ldg.hours.toNat ++ toLe 1 s.health

/-- DEV_STATUS (R490). -/
def execDevStatus (src : CmdSrc) (s : State) : Host.Outcome State Fault Refusal :=
  .next (s.runCmd (plainRow 2) src (State.quick src (fun s _ => ({ result := s.devStatus }, s))))

/-! ### Profiles (R489, R510 to R513) -/

/-- A profile with its TOKEN bytes zero and its CRC computed anew (R489). -/
def hideTokens (b : Bytes) : Bytes :=
  let b := (List.range (fld b 7 1)).foldl (fun b k => patchB b (0x80 + 192 * k + 0xA0) (List.replicate 16 0)) b
  patchB b 0x1FFC (toLe 4 (crc32c (b.take 0x1FFC)).toNat)

/-- PROFILE_GET: it changes no state and takes no lock. -/
def profileGetRow : CmdRow :=
  { mine := isOp 3, params := fun c b => [maxP b 8 1 3, addrP c b 0x10], locks := fun _ _ => [] }

/-- PROFILE_GET (R489). -/
def execProfileGet (src : CmdSrc) (s : State) : Host.Outcome State Fault Refusal :=
  .next (s.runCmd profileGetRow src (State.begin src profileGetRow (fun s id b =>
    match s.ldg.profBytes (fld b 8 1) with
    | some p => if s.ldg.profOk (fld b 8 1) then s.writeOut src id (fld b 0x10 8) (hideTokens p) [] else s.fin id (st 0x07)
    | none => s.fin id (st 0x07))))

/-- PROFILE_SET: INDEX, OP and SRC, which must be 0 for SELECT and CLEAR (R512). -/
def profileParams (c : CmdSrc) (b : Bytes) : List Param :=
  let a := addrP c b 0x10
  [maxP b 8 1 3, maxP b 9 1 2, (a.1, a.2.1, a.2.2 && (decide (fld b 9 1 = 0) || decide (fld b 0x10 8 = 0)))]

/-- PROFILE_SET with OP WRITE, or with an OP that check 5 refuses. -/
def profileWriteRow : CmdRow :=
  { mine := fun b => isOp 4 b && (decide (fld b 9 1 = 0) || decide (2 < fld b 9 1)), params := profileParams,
    locks := fun _ _ => devShared }

/-- PROFILE_SET WRITE (R512): the profile is read; COMMAND_DONE checks and stores it. -/
def execProfileWrite (src : CmdSrc) (s : State) : Host.Outcome State Fault Refusal :=
  .next (s.runCmd profileWriteRow src (State.begin src profileWriteRow (fun s id b => s.readIn src id (fld b 0x10 8) 8192)))

/-- WRITE once the profile has been read (R512). -/
def State.storeProfile (s : State) (c : Cmd) : State :=
  let b := c.data
  if !profileMagicOk b || !profileCrcOk b then s.fin c.id (st 0x07)
  else if !profileFieldsOk b then s.fin c.id badData
  else if s.ldg.profilesWorn then s.fin c.id (st 0x0F)
  else
    let i := fld c.pkt 8 1
    State.fin (s.writeSet s.ldg.choiceCode (fun p => if p = i then some b else s.ldg.profBytes p)) c.id {}

/-- ROLE takes effect: a device that becomes master takes over (R513, 16 R549). -/
def State.setRole (s : State) (r : Nat) : State :=
  if s.fab.role = r then s
  else if r = 2 then s.becomeMaster
  else { s with fab := { s.fab with role := r, hold := s.fab.hold && decide (r = 1), slow := 0, hbAt := s.wtime } }

/-- The live settings of a profile (R513). -/
def State.applyLive (s : State) (i : Nat) (p : Profile) : State :=
  let q := s.boot.prof
  let s := { s with boot := { s.boot with profile := i, ovr := true, pdefault := false,
                                          prof := { q with index := i, cap := p.cap, tclkMax := p.tclkMax, role := p.role,
                                                           linkMask := p.linkMask, retain := p.retain,
                                                           retainTimeout := p.retainTimeout } },
                    pwr := { s.pwr with tclkMax := p.tclkMax } }
  s.applyLinkMask.setRole p.role

/-- SELECT (R512, R513). -/
def State.selectProfile (s : State) (i : Nat) : CmdRes × State :=
  match s.ldg.profBytes i with
  | some b =>
    if !s.ldg.profOk i then (st 0x07, s)
    else if s.ldg.profilesWorn then (st 0x0F, s)
    else (st 0, (s.writeSet i s.ldg.profBytes).applyLive i (parseProfile b))
  | none => (st 0x07, s)

/-- PROFILE_SET with OP SELECT. -/
def profileSelectRow : CmdRow :=
  { mine := fun b => isOp 4 b && decide (fld b 9 1 = 1), params := profileParams, locks := fun _ _ => [(.device, true)] }

/-- PROFILE_SET SELECT (R513). -/
def execProfileSelect (src : CmdSrc) (s : State) : Host.Outcome State Fault Refusal :=
  .next (s.runCmd profileSelectRow src (State.quick src (fun s b => s.selectProfile (fld b 8 1))))

/-- PROFILE_SET with OP CLEAR. -/
def profileClearRow : CmdRow :=
  { mine := fun b => isOp 4 b && decide (fld b 9 1 = 2), params := profileParams, locks := fun _ _ => devShared }

/-- PROFILE_SET CLEAR (R512, 21 R696): a new set without a recorded choice. -/
def execProfileClear (src : CmdSrc) (s : State) : Host.Outcome State Fault Refusal :=
  .next (s.runCmd profileClearRow src (State.quick src (fun s _ =>
    if s.ldg.profilesWorn then (st 0x0F, s) else (st 0, s.writeSet 0xFF s.ldg.profBytes))))

/-! ### DEV_HUSH, SCRUB_RETAINED, P2P_PROBE (R489, 14 R460, R472, 17 R565) -/

/-- DEV_HUSH. -/
def devHushRow : CmdRow := { mine := isOp 5, params := fun _ _ => [], locks := fun _ _ => [(.device, true)] }

/-- DEV_HUSH may enter HUSH: no request is admitted, no other command runs, the device is ACTIVE, and no grace of WDG_CP runs
(R489, 17 R565, 20 R673). -/
def State.mayHush (s : State) : Bool :=
  s.reqs.isEmpty && s.cp.running.isEmpty && decide (s.pwr.st = .active) && decide (s.tim.cpSt ≠ .grace)

/-- DEV_HUSH (R489): the reply, then HUSH. -/
def execDevHush (src : CmdSrc) (s : State) : Host.Outcome State Fault Refusal :=
  .next (s.runCmd devHushRow src (fun s b =>
    if s.mayHush then State.hushEntry (s.reply src b false {}) false else s.reply src b false (st 0x01)))

/-- SCRUB_RETAINED. -/
def scrubRow : CmdRow := { mine := isOp 6, params := fun _ _ => [], locks := fun _ _ => [(.device, true)] }

/-- Every held den is DESTROYING. -/
def State.destroyHeld (s : State) : State :=
  s.each ((List.range 32).filter (fun d => s.pcie.retHeld.getLsbD d)) (fun s d => s.modDen d (fun x => { x with st := .destroying }))

/-- SCRUB_RETAINED (14 R472): COMMAND_DONE ends it. -/
def execScrubRetained (src : CmdSrc) (s : State) : Host.Outcome State Fault Refusal :=
  .next (s.runCmd scrubRow src (fun s b =>
    if s.pcie.retHeld = 0 then s.reply src b false (st 0x06) else State.begin src scrubRow (fun s _ _ => s.destroyHeld) s b))

/-- P2P_PROBE. -/
def probeRow : CmdRow :=
  { mine := isOp 7, params := fun _ b => [(0x10, 8, decide (fld b 0x10 8 < 2 ^ 54))], locks := fun _ b => denLocks b false }

/-- P2P_PROBE (14 R460): 64 bytes are read under the den's requester id; COMMAND_DONE replies. -/
def execP2pProbe (src : CmdSrc) (s : State) : Host.Outcome State Fault Refusal :=
  .next (s.runCmd probeRow src (State.begin src probeRow (fun s id b =>
    s.fetch (.cmd id) 0 (.host (cDen b + 1) (fld b 0x10 8)) 64)))

end Sys2Proof.Machine
end

