-- ==== Sys2Proof/Machine/CmdTable.lean ====
section
/-!
DEFINITION. Table descriptors and the table family of commands (04 R118 to R122, 05 R158 to R160, 07 R213 to R219, R240,
15 R501 to R503).
-/

namespace Sys2Proof.Machine

/-! ### Descriptors (04 R118) -/

/-- A version as the descriptor holds it. -/
def versionWord (v : Version) : Nat := v.base.toNat + 2 ^ 63 * b2n v.valid

/-- A version slot from its 8 bytes. -/
def parseVersion (x : Nat) : Version := { base := BitVec.ofNat 56 x, valid := tbit x 63 }

/-- The 128 bytes of the descriptor of table `tn` as held (R118). -/
def Table.descBytes (t : Table) (tn : Nat) : Bytes :=
  toLe 2 tn ++ toLe 1 (t.fmt + 16 * t.layout) ++ toLe 1 (b2n t.defrow + 2 * b2n t.range + 4 * b2n t.pin) ++ toLe 2 t.rowSize ++
  toLe 2 t.elems ++ toLe 8 t.rows ++ toLe 4 t.rowScale.toNat ++ toLe 1 t.active ++ toLe 1 t.shards ++ [0, 0] ++
  toLe 8 t.defaultAddr ++ toLe 8 (versionWord t.v0) ++ toLe 8 (versionWord t.v1) ++ toLe 8 (versionWord t.v2) ++
  toLe 8 (versionWord t.v3) ++ toLe 8 t.pinBase ++ toLe 4 t.pinRows ++ [0, 0, 0, 0] ++ toLe 8 t.shardAddr ++
  toLe 8 t.rangeAddr ++ List.replicate 32 0

/-- The table that a descriptor's bytes describe, for den `d`; its lists are read apart (R118, R119). -/
def parseDesc (b : Bytes) (d : Nat) : Table :=
  { present := true, den := d, fmt := bits (fld b 2 1) 0 4, layout := bits (fld b 2 1) 4 2, defrow := tbit (fld b 3 1) 0,
    range := tbit (fld b 3 1) 1, pin := tbit (fld b 3 1) 2, rowSize := fld b 4 2, elems := fld b 6 2, rows := fld b 8 8,
    rowScale := BitVec.ofNat 32 (fld b 0x10 4), active := fld b 0x14 1 % 4, shards := fld b 0x15 1,
    defaultAddr := fld b 0x18 8, v0 := parseVersion (fld b 0x20 8), v1 := parseVersion (fld b 0x28 8),
    v2 := parseVersion (fld b 0x30 8), v3 := parseVersion (fld b 0x38 8), pinBase := fld b 0x40 8, pinRows := fld b 0x48 4,
    shardAddr := fld b 0x50 8, rangeAddr := fld b 0x58 8 }

/-- Bytes of a row of a format: elements, scale bytes, and padding to a multiple of 16 (02 R55). -/
def rowBytes (fmt elems : Nat) : Nat := (packedBytes fmt elems + (if isMx fmt then elems / 32 else 0) + 15) / 16 * 16

/-- Reserved bits and bytes of a descriptor are zero, and no address exceeds 56 bits (R118). -/
def descReserved (b : Bytes) : Bool :=
  decide (fld b 2 1 < 64) && decide (fld b 3 1 < 8) && decide (fld b 8 8 < 2 ^ 41) && decide (fld b 0x14 1 < 4) &&
  allZero (sliceB b 0x16 2) && decide (fld b 0x18 8 < 2 ^ 56) &&
  (List.range 4).all (fun i => decide (fld b (0x27 + 8 * i) 1 % 128 = 0)) && allZero (sliceB b 0x4C 4) &&
  decide (fld b 0x50 8 < 2 ^ 56) && decide (fld b 0x58 8 < 2 ^ 56) && allZero (sliceB b 0x60 32)

/-- FMT, LAYOUT, ELEMS, ROW_SIZE and ROWS are in order (R120, 02 R47, R55). -/
def Table.shapeOk (t : Table) : Bool :=
  decide (t.fmt ≤ 9) && decide (t.layout ≤ 2) && decide (1 ≤ t.elems ∧ t.elems ≤ 8192) &&
  !(decide (t.fmt = 6 ∨ t.fmt = 7) && decide (t.elems % 2 = 1)) && !(isMx t.fmt && decide (t.elems % 32 ≠ 0)) &&
  decide (16 ≤ t.rowSize ∧ t.rowSize ≤ 4096) && decide (t.rowSize = rowBytes t.fmt t.elems) &&
  decide (1 ≤ t.rows ∧ t.rows ≤ 2 ^ 40)

/-- The fields that R118 says are 0 in a case are 0 in it, BASE and DEFAULT_ADDR are aligned, and ACTIVE names a VALID slot
(R118, R120, 07 R213). -/
def Table.fieldsOk (t : Table) : Bool :=
  !(decide (t.layout = 0) && (decide (t.shards ≠ 0) || decide (t.shardAddr ≠ 0))) && !(!t.range && decide (t.rangeAddr ≠ 0)) &&
  !(!t.defrow && decide (t.defaultAddr ≠ 0)) && !(!t.pin && decide (t.pinRows ≠ 0)) && decide (t.defaultAddr % 16 = 0) &&
  (List.range 4).all (fun v => !(t.ver v).valid || decide ((t.ver v).base.toNat % 128 = 0)) && (t.ver t.active).valid

/-- Strictly ascending numbers below a limit. -/
def ascending (l : List Nat) (lim : Nat) : Bool :=
  match l with
  | [] => true
  | [a] => decide (a < lim)
  | a :: b :: rest => decide (a < b) && ascending (b :: rest) lim

/-- The shard list repeats no Warren id; the boundaries start at 0, ascend, and stay below ROWS; the pin region lies within the
local rows (R120). -/
def Table.listsOk (t : Table) (wid : Nat) : Bool :=
  nodupNat t.shardIds && (!t.range || (decide (t.bounds.head? = some 0) && ascending t.bounds t.rows)) &&
  (!t.pin || decide (t.pinBase + t.pinRows ≤ t.localRows wid))

/-! ### Ranges and pin space (04 R121, 05 R158) -/

/-- `n` bytes lie in the HBM ranges of den `d` (R121). -/
def State.inHbm (s : State) (d a n : Nat) : Bool := decide (n = 0) || (decide (a + n ≤ hbmSize) && s.denMay d a n false)

/-- PIN ways of a den, ascending. -/
def State.pinWays (s : State) (d : Nat) : List Nat :=
  (List.range 16).filter (fun w => (s.way w).mode == .pin && (s.way w).owner == d)

/-- Bytes of pin space of a table's pin region. -/
def Table.pinBytes (t : Table) : Nat := if t.pin then t.pinRows * t.rowSize else 0

/-- Pin regions of a den's tables other than `tn`: offset and size. -/
def State.pinRegions (s : State) (d tn : Nat) : List (Nat × Nat) :=
  (s.tables.filter (fun p => p.2.present && p.2.den == d && p.2.pin && p.1 != tn)).map (fun p => (p.2.pinOff, p.2.pinBytes))

/-- Two regions share a byte. -/
def meet (a b : Nat × Nat) : Bool := decide (a.1 < b.1 + b.2) && decide (b.1 < a.1 + a.2) && decide (a.2 ≠ 0) && decide (b.2 ≠ 0)

/-- The lowest pin-space offset, a multiple of 128, at which `n` bytes fit for table `tn` (05 R158). -/
def State.pinPlace (s : State) (d tn n : Nat) : Option Nat :=
  let rs := s.pinRegions d tn
  let cap := 33554432 * (s.pinWays d).length
  let cands := 0 :: rs.map (fun r => (r.1 + r.2 + 127) / 128 * 128)
  let good := cands.filter (fun o => decide (o + n ≤ cap) && rs.all (fun r => !(meet (o, n) r)))
  good.foldl (fun acc o => match acc with
    | some m => some (min m o)
    | none => some o) none

/-- R121 on a table: 0, NOT_PERMITTED or NO_RESOURCE. -/
def State.permStatus (s : State) (tn : Nat) (t : Table) : Nat :=
  let n := t.localRows s.fab.wid * t.rowSize
  if (List.range 4).any (fun v => (t.ver v).valid && !(s.inHbm t.den (t.ver v).base.toNat n)) then 0x05
  else if t.defrow && !(s.inHbm t.den t.defaultAddr t.rowSize) then 0x05
  else if t.pin && (s.pinPlace t.den tn t.pinBytes).isNone then 0x04
  else 0

/-- A table with its pin region placed; the background fill begins (05 R158, R159). -/
def State.placePin (s : State) (tn : Nat) (t : Table) : Table :=
  if t.pin then
    { t with pinOff := match s.pinPlace t.den tn t.pinBytes with
               | some o => o
               | none => 0
             pinVer := none, pinFilling := true }
  else { t with pinOff := 0, pinVer := none, pinFilling := false }

/-! ### TABLE_CREATE (R501) -/

/-- TABLE_CREATE: the lock of the table is taken when its number has been read. -/
def tableCreateRow : CmdRow :=
  { mine := isOp 0x30, params := fun c b => [addrP c b 0x10], locks := fun _ b => denLocks b false }

/-- TABLE_CREATE: the descriptor is read; COMMAND_DONE goes on. -/
def execTableCreate (src : CmdSrc) (s : State) : Host.Outcome State Fault Refusal :=
  .next (s.runCmd tableCreateRow src (State.begin src tableCreateRow (fun s id b => s.readIn src id (fld b 0x10 8) 128)))

/-- The descriptor with its lists, which follow it in the command's data. -/
def withLists (b : Bytes) (d : Nat) : Table :=
  let t := parseDesc b d
  let n := if t.layout = 0 then 0 else t.shards + 1
  { t with shardIds := (List.range n).map (fun i => fld b (128 + i) 1),
           bounds := if t.range then (List.range (t.shards + 1)).map (fun i => fld b (128 + n + 8 * i) 8) else [] }

/-- The last checks of TABLE_CREATE, and its effect. -/
def State.createTable (s : State) (c : Cmd) : State :=
  let tn := fld c.data 0 2
  let t := withLists c.data (cDen c.pkt)
  if !(t.listsOk s.fab.wid) then s.fin c.id badData
  else if s.permStatus tn t ≠ 0 then s.fin c.id (st (s.permStatus tn t))
  else State.fin { s with tables := mset {} s.tables tn (s.placePin tn t) } c.id {}

/-- TABLE_CREATE after a read: 0 the descriptor, 1 the shard list, 2 the boundaries (04 R119, R120). -/
def State.createStep (s : State) (c : Cmd) : State :=
  let tn := fld c.data 0 2
  let t := parseDesc c.data (cDen c.pkt)
  let old := s.table tn
  let bounds (s : State) : State :=
    if t.range then (s.mark c.id 2 []).readIn c.src c.id t.rangeAddr (8 * (t.shards + 1)) else s.createTable c
  match c.stage with
  | 0 =>
    if old.present ∧ old.den = cDen c.pkt then s.fin c.id badData
    else if old.present then s.fin c.id (st 0x05)
    else if !(s.locksFree [(.table tn, true)]) then s.fin c.id (st 0x01)
    else if !(descReserved c.data) || !t.shapeOk || !t.fieldsOk then s.fin c.id badData
    else
      let s := s.modCmd c.id (fun y => { y with locks := (.table tn, true) :: y.locks, stage := 1 })
      if t.layout = 0 then bounds s else s.readIn c.src c.id t.shardAddr (t.shards + 1)
  | 1 => bounds s
  | _ => s.createTable c

/-! ### TABLE_MODIFY and TABLE_VERSION_SET (R502, 07 R216) -/

/-- TABLE of a table command. -/
abbrev cTable (b : Bytes) : Nat := fld b 8 2

/-- Locks of a command on one table. -/
def tableLocks (b : Bytes) : List (LockObj × Bool) := denLocks b false ++ [(.table (cTable b), true)]

/-- The table of the command exists and is the den's: else the reply. -/
def State.tableRefusal (s : State) (b : Bytes) : Option CmdRes :=
  let t := s.table (cTable b)
  if !t.present then some (badAt 8) else if t.den ≠ cDen b then some (st 0x05) else none

/-- TABLE_MODIFY. -/
def tableModifyRow : CmdRow :=
  { mine := isOp 0x31,
    params := fun _ b => [anyP 8 2, maxP b 0xA 1 7, maxP b 0xB 1 3, anyP 0xC 4, (0x10, 8, decide (fld b 0x10 8 < 2 ^ 56)),
                          anyP 0x18 8, anyP 0x20 4],
    locks := fun _ b => tableLocks b }

/-- The table with the fields that MASK names (R502). -/
def modified (b : Bytes) (t : Table) : Table :=
  let m := fld b 0xA 1
  let t := if tbit m 0 then { t with rowScale := BitVec.ofNat 32 (fld b 0xC 4) } else t
  let t := if tbit m 1 then { t with defrow := tbit (fld b 0xB 1) 0, defaultAddr := fld b 0x10 8 } else t
  if tbit m 2 then { t with pin := tbit (fld b 0xB 1) 1, pinBase := fld b 0x18 8, pinRows := fld b 0x20 4 } else t

/-- R120 on the result of TABLE_MODIFY: the offset of the field that fails. -/
def modifyBad (t : Table) (wid : Nat) : Option Nat :=
  if t.defaultAddr % 16 ≠ 0 ∨ (t.defrow = false ∧ t.defaultAddr ≠ 0) then some 0x10
  else if t.pin = true ∧ t.localRows wid < t.pinBase + t.pinRows then some 0x18
  else if t.pin = false ∧ t.pinRows ≠ 0 then some 0x20
  else none

/-- TABLE_MODIFY's own part (R502). -/
def State.modifyTable (s : State) (b : Bytes) : CmdRes × State :=
  let tn := cTable b
  let t := modified b (s.table tn)
  match s.tableRefusal b with
  | some x => (x, s)
  | none =>
    match modifyBad t s.fab.wid with
    | some o => (badAt o, s)
    | none =>
      if s.permStatus tn t ≠ 0 then (st (s.permStatus tn t), s)
      else (st 0, s.modTable tn (fun _ => if tbit (fld b 0xA 1) 2 then s.placePin tn t else t))

/-- TABLE_MODIFY (R502). -/
def execTableModify (src : CmdSrc) (s : State) : Host.Outcome State Fault Refusal :=
  .next (s.runCmd tableModifyRow src (State.quick src State.modifyTable))

/-- TABLE_VERSION_SET. -/
def tableVersionRow : CmdRow :=
  { mine := isOp 0x32,
    params := fun _ b => [anyP 8 2, maxP b 0xA 1 3, maxP b 0xB 1 3, (0x10, 8, decide (fld b 0x10 8 < 2 ^ 56))],
    locks := fun _ b => tableLocks b }

/-- TABLE_VERSION_SET's own part (07 R216, R240, 21 R701). -/
def State.setVersion (s : State) (b : Bytes) : CmdRes × State :=
  let tn := cTable b
  let v := fld b 0xA 1
  let valid := tbit (fld b 0xB 1) 0
  let base := fld b 0x10 8
  let t := s.table tn
  let u := t.modVer v (fun x => { x with base := BitVec.ofNat 56 base, valid := valid })
  match s.tableRefusal b with
  | some x => (x, s)
  | none =>
    if 2 ≤ t.slotState v ∨ s.namedSlot tn v then (st 0x0E, s)
    else if valid = true ∧ base % 128 ≠ 0 then (badAt 0x10, s)
    else if valid = true ∧ s.inHbm t.den base (t.localRows s.fab.wid * t.rowSize) = false then (st 0x05, s)
    else if tbit (fld b 0xB 1) 1 = true ∧ s.ldg.canHold 0x0E (versionPayload tn u false 0) = false then (st 0x0F, s)
    else
      let s := s.modTable tn (fun _ => u)
      (st 0, if tbit (fld b 0xB 1) 1 then s.record 0x0E (versionPayload tn u false 0) none else s)

/-- TABLE_VERSION_SET (07 R216). -/
def execTableVersionSet (src : CmdSrc) (s : State) : Host.Outcome State Fault Refusal :=
  .next (s.runCmd tableVersionRow src (State.quick src State.setVersion))

/-! ### TABLE_SWITCH (R501, 07 R217 to R219) -/

/-- The pairs of a TABLE_SWITCH: table and target slot. -/
def cPairs (b : Bytes) : List (Nat × Nat) :=
  (List.range (min 8 (fld b 8 1))).map (fun i => (fld b (0x10 + 4 * i) 2, fld b (0x12 + 4 * i) 1))

/-- Parameters of TABLE_SWITCH. -/
def switchParams (b : Bytes) : List Param :=
  [(8, 1, decide (1 ≤ fld b 8 1 ∧ fld b 8 1 ≤ 8)), maxP b 9 1 3, maxP b 0xC 4 1000000] ++
  (List.range (min 8 (fld b 8 1))).flatMap (fun i => [anyP (0x10 + 4 * i) 2, maxP b (0x12 + 4 * i) 1 3, maxP b (0x13 + 4 * i) 1 0])

/-- Locks of TABLE_SWITCH: every table that it names. -/
def switchLocks (b : Bytes) : List (LockObj × Bool) := denLocks b false ++ (cPairs b).map (fun p => (.table p.1, true))

/-- TABLE_SWITCH with WARREN 0. -/
def switchRow : CmdRow :=
  { mine := fun b => isOp 0x33 b && !(cWarren b), params := fun _ b => switchParams b, locks := fun _ b => switchLocks b }

/-- DURABLE of a TABLE_SWITCH. -/
abbrev cDurable (b : Bytes) : Bool := tbit (fld b 9 1) 1

/-- Every listed table is the issuer's den's, or the issuer is not a VF (07 R217). -/
def State.switchOwned (s : State) (c : CmdSrc) (ps : List (Nat × Nat)) : Bool :=
  match c.vf with
  | none => true
  | some d => ps.all (fun p => (s.table p.1).present && (s.table p.1).den == d)

/-- The offset of the first pair whose table is not a LOCAL table of this device. -/
def State.notLocal (s : State) (ps : List (Nat × Nat)) : Option Nat :=
  (findIdxWith (fun (p : Nat × Nat) => !(s.table p.1).present || decide ((s.table p.1).layout ≠ 0)) ps 0).map (fun x => 0x10 + 4 * x.1)

/-- The offset of the first pair that names a table listed before it. -/
def repeated (seen : List Nat) (ps : List (Nat × Nat)) (o : Nat) : Option Nat :=
  match ps with
  | [] => none
  | p :: rest => if seen.contains p.1 then some o else repeated (p.1 :: seen) rest (o + 4)

/-- The reply with which R217 refuses pairs, the check of LOCAL apart. -/
def State.switchRefusal (s : State) (ps : List (Nat × Nat)) : Option CmdRes :=
  match repeated [] ps 0x10 with
  | some o => some (badAt o)
  | none => if s.pairChecks ps ≠ 0 then some (st (s.pairChecks ps)) else none

/-- TABLE_SWITCH's own part with WARREN 0 (07 R217, R218, 21 R701). -/
def State.switchHere (c : CmdSrc) (s : State) (b : Bytes) : CmdRes × State :=
  let ps := cPairs b
  if !(s.switchOwned c ps) then (st 0x05, s)
  else
    match s.notLocal ps with
    | some o => (badAt o, s)
    | none =>
      match s.switchRefusal ps with
      | some x => (x, s)
      | none =>
        if cDurable b && !(s.durableOk (ps.map Prod.fst)) then (st 0x0F, s)
        else (st 0, s.switchAll ps false (cDurable b) 0)

/-- TABLE_SWITCH (07 R218). -/
def execTableSwitch (src : CmdSrc) (s : State) : Host.Outcome State Fault Refusal :=
  .next (s.runCmd switchRow src (State.quick src (State.switchHere src)))

/-- TABLE_SWITCH with WARREN 1. -/
def switchWarrenRow : CmdRow :=
  { mine := fun b => isOp 0x33 b && cWarren b, params := fun _ b => switchParams b, locks := fun _ b => switchLocks b }

/-- The conditions of 07 R219, in order; the HOLD of the Warren has been found at check 4. -/
def State.warrenRefusal (s : State) (c : CmdSrc) (b : Bytes) : Option CmdRes :=
  let ps := (cPairs b)
  let held := s.heldPairs ps
  if s.fab.role ≠ 2 then some (st 0x05)
  else if s.msw.isSome then some (st 0x01)
  else if !(s.switchOwned c held) then some (st 0x05)
  else
    match repeated [] ps 0x10 with
    | some o => some (badAt o)
    | none => if s.pairChecks held ≠ 0 then some (st (s.pairChecks held)) else none

/-- TABLE_SWITCH across the Warren (07 R219, R220): PREPARE leaves; the reply follows COMMIT or ABORT. -/
def execTableSwitchWarren (src : CmdSrc) (s : State) : Host.Outcome State Fault Refusal :=
  .next (s.runCmd switchWarrenRow src (State.begin src switchWarrenRow (fun s id b =>
    match s.warrenRefusal src b with
    | some x => s.fin id x
    | none => s.beginSwitch id (cPairs b) (cDurable b) (fld b 0xC 4))))

/-! ### TABLE_QUERY and TABLE_DELETE (R501, R503) -/

/-- TABLE_QUERY takes no lock. -/
def tableQueryRow : CmdRow :=
  { mine := isOp 0x34, params := fun c b => [anyP 8 2, addrP c b 0x10], locks := fun _ _ => [] }

/-- RESULT of TABLE_QUERY (R503). -/
def Table.queryResult (t : Table) : Bytes :=
  let slots := List.range 4
  toLe 1 t.active ++ toLe 1 (slots.foldl (fun v i => v + t.slotState i * 4 ^ i) 0) ++
  toLe 1 (slots.foldl (fun v i => v + b2n (t.ver i).hold * 2 ^ i) 0) ++ toLe 1 (b2n t.lock.isSome) ++ [0, 0, 0, 0] ++
  slots.flatMap (fun i => toLe 4 (t.ver i).refs.toNat)

/-- TABLE_QUERY (R501, R503). -/
def execTableQuery (src : CmdSrc) (s : State) : Host.Outcome State Fault Refusal :=
  .next (s.runCmd tableQueryRow src (State.begin src tableQueryRow (fun s id b =>
    let t := s.table (cTable b)
    match s.tableRefusal b with
    | some x => s.fin id x
    | none =>
      if fld b 0x10 8 = 0 then s.fin id { result := t.queryResult }
      else s.writeOut src id (fld b 0x10 8) (t.descBytes (cTable b)) t.queryResult)))

/-- TABLE_DELETE. -/
def tableDeleteRow : CmdRow := { mine := isOp 0x35, params := fun _ _ => [anyP 8 2], locks := fun _ b => tableLocks b }

/-- A loaded model of the den names the table (R501). -/
def State.modelNames (s : State) (d tn : Nat) : Bool := s.models.any (fun m => m.den == d && m.tables.contains tn)

/-- A current VERSION record of a table stands in the Ledger (21 R690). -/
def State.hasVersionRecord (s : State) (p : Bytes) : Bool := s.ldg.state.any (fun r => sameKey 0x0E p r && !(deletedRec r))

/-- TABLE_DELETE's own part (R501, 21 R690, R691). -/
def State.deleteTable (s : State) (b : Bytes) : CmdRes × State :=
  let tn := cTable b
  let t := s.table tn
  match s.tableRefusal b with
  | some x => (x, s)
  | none =>
    if (List.range 4).any (fun v => decide ((t.ver v).refs ≠ 0) || t.slotState v == 3) || s.modelNames t.den tn then (st 0x01, s)
    else if t.lock.isSome then (st 0x0E, s)
    else
      let p := versionPayload tn t true 0
      let s := if s.hasVersionRecord p then s.record 0x0E p none else s
      (st 0, s.dropTable tn)

/-- TABLE_DELETE (R501). -/
def execTableDelete (src : CmdSrc) (s : State) : Host.Outcome State Fault Refusal :=
  .next (s.runCmd tableDeleteRow src (State.quick src State.deleteTable))

end Sys2Proof.Machine
end

