-- ==== Sys2Proof/Machine/CmdDen.lean ====
section
/-!
DEFINITION. The den family of commands (13 R389 to R398, R422, R426, 12 R369, 14 R468 to R471, 15 R491 to R493, 22 R735).
-/

namespace Sys2Proof.Machine

/-! ### DEN_STATE and DEN_QUEUE (13 R422, R426) -/

/-- Code of a den state. -/
def DenSt.code (x : DenSt) : Nat :=
  match x with
  | .free => 0
  | .active => 1
  | .quiesced => 2
  | .destroying => 3

/-- Stripes that a den holds. -/
def Den.stripes (x : Den) : Nat := (x.hbm.map Prod.snd).sum

/-- DEN_STATE (R422). -/
def State.denStateReg (s : State) (d : Nat) : Nat :=
  let x := s.den d
  x.st.code + 4 * x.gran + 16 * b2n x.deadline + 2 ^ 16 * s.setSize d + 2 ^ 32 * popNat x.leaving.toNat 256 + 2 ^ 48 * x.stripes

/-- Requests of a den that a test picks. -/
def State.countReqs (s : State) (d : Nat) (p : Req → Bool) : Nat := (s.reqs.filter (fun r => r.den == d && p r)).length

/-- DEN_QUEUE (R426). -/
def State.denQueueReg (s : State) (d : Nat) : Nat :=
  s.countReqs d (fun r => r.phase == .unplaced) % 2 ^ 16 +
  2 ^ 16 * (s.countReqs d (fun r => r.phase != .unplaced && r.phase != .yielded && !r.tiles.isEmpty) % 2 ^ 16) +
  2 ^ 32 * (s.countReqs d (fun r => r.phase == .yielded) % 2 ^ 16) + 2 ^ 48 * b2n (s.countReqs d (fun r => r.demand) ≠ 0)

/-! ### DEN_CREATE (R392, R393, 14 R470) -/

/-- DEN_CREATE. -/
def denCreateRow : CmdRow :=
  { mine := isOp 0x10,
    params := fun _ b => [maxP b 8 1 2, (0xA, 2, decide (fld b 0xA 2 ≠ 0)), (0x10, 16, !(allZero (sliceB b 0x10 16)))],
    locks := fun _ b => denLocks b true }

/-- Every way of a mask is SHARED and does not wait to become PIN or SCRATCH (05 R153). -/
def State.allShared (s : State) (mask : Nat) : Bool :=
  (List.range 16).all (fun w => !(tbit mask w) || ((s.way w).mode == .shared && (s.way w).change.isNone))

/-- DEN_CREATE's own part: BUSY unless the den is FREE; the mask names SHARED ways only. -/
def State.createDen (s : State) (b : Bytes) : CmdRes × State :=
  let d := cDen b
  if (s.den d).st ≠ .free then (st 0x01, s)
  else if !(s.allShared (fld b 0xA 2)) then (badAt 0xA, s)
  else (st 0, s.modDen d (fun x => x.created (fld b 8 1) (fld b 0xA 2) (sliceB b 0x10 16)))

/-- DEN_CREATE (R392). -/
def execDenCreate (src : CmdSrc) (s : State) : Host.Outcome State Fault Refusal :=
  .next (s.runCmd denCreateRow src (State.quick src State.createDen))

/-! ### DEN_CONFIG (15 R492) -/

/-- SEL of a DEN_CONFIG. -/
abbrev cSel (b : Bytes) : Nat := fld b 8 1

/-- DEN_CONFIG with a selector and its parameters. -/
def configRow (sel : Nat) (ps : CmdSrc → Bytes → List Param) : CmdRow :=
  { mine := fun b => isOp 0x11 b && decide (cSel b = sel), params := fun c b => anyP 8 1 :: ps c b,
    locks := fun _ b => denLocks b true }

/-- DEN_CONFIG TILES, and a selector that check 5 refuses. -/
def configTilesRow : CmdRow :=
  { mine := fun b => isOp 0x11 b && (decide (cSel b = 0) || decide (8 < cSel b)),
    params := fun _ b => [maxP b 8 1 8, anyP 0x10 32], locks := fun _ b => denLocks b true }

/-- The largest tile count of any entry point loaded in a den (R396). -/
def State.maxTiles (s : State) (d : Nat) : Nat :=
  (s.models.filter (fun m => m.den == d)).foldl (fun n m => m.entries.foldl (fun n e => max n e.tiles) n) 0

/-- The checks of R396 on a mask. -/
def State.tilesRefusal (s : State) (d mask : Nat) : Nat :=
  let named := bits256 (BitVec.ofNat 256 mask)
  if named.any (fun t => (s.tile t).fenced || (match s.tileDen t with
    | some x => x != d
    | none => false)) then 0x04
  else if named.length < s.maxTiles d then 0x01
  else 0

/-- DEN_CONFIG TILES replies once every LEAVING tile has left (R396). -/
def State.tilesStep (s : State) (c : Cmd) : State := if (s.den (cDen c.pkt)).leaving = 0 then s.fin c.id {} else s

/-- Apply a step of a running command, by its number. -/
def State.onCmd (s : State) (id : Nat) (f : State → Cmd → State) : State :=
  match s.cmd id with
  | some c => f s c
  | none => s

/-- DEN_CONFIG TILES (R396). -/
def execDenConfigTiles (src : CmdSrc) (s : State) : Host.Outcome State Fault Refusal :=
  .next (s.runCmd configTilesRow src (State.begin src configTilesRow (fun s id b =>
    let e := s.tilesRefusal (cDen b) (fld b 0x10 32)
    if e ≠ 0 then s.fin id (st e)
    else (s.setTiles (cDen b) (BitVec.ofNat 256 (fld b 0x10 32))).onCmd id State.tilesStep)))

/-- DEN_CONFIG HBM. -/
def configHbmRow : CmdRow := configRow 1 (fun c b => [addrP c b 0x10])

/-- DEN_CONFIG HBM (R397): the list is read once; COMMAND_DONE goes on. -/
def execDenConfigHbm (src : CmdSrc) (s : State) : Host.Outcome State Fault Refusal :=
  .next (s.runCmd configHbmRow src (State.begin src configHbmRow (fun s id b => s.readIn src id (fld b 0x10 8) 64)))

/-- No two ranges of a list share a stripe. -/
def disjointRanges (l : List (Nat × Nat)) : Bool :=
  match l with
  | [] => true
  | a :: rest => rest.all (fun b => !(meet a b)) && disjointRanges rest

/-- The list of 16 entries is well formed: bit 15 zero, no overlap, nothing beyond stripe 18,431 (R397, R424). -/
def rangeListOk (b : Bytes) : Bool :=
  (List.range 16).all (fun i => !(tbit (fld b (4 * i) 4) 15)) && (rangesOf b).all (fun p => decide (p.1 + p.2 ≤ 18432)) &&
  disjointRanges (rangesOf b)

/-- A stripe of `p` is added that is not FREE: another den holds it, or it is RETIRED (R397, 06 R201, 18 R610). -/
def State.rangeTaken (s : State) (d : Nat) (p : Nat × Nat) : Bool :=
  (List.range 32).any (fun e => e != d && (s.den e).hbm.any (meet p)) ||
  s.hbm.retired.any (fun n => inRanges [p] n && !(inRanges (s.den d).hbm n)) ||
  (List.range (p.1 + p.2 - max p.1 s.hbm.limit)).any (fun i => !(inRanges (s.den d).hbm (max p.1 s.hbm.limit + i)))

/-- Regions of a den under which no stripe may be removed: rows of VALID versions, the history directory, and the weights of its
models (R397). -/
def State.usedRegions (s : State) (d : Nat) : List (Nat × Nat) :=
  (s.tables.filter (fun p => p.2.present && p.2.den == d)).flatMap (fun p =>
    ((List.range 4).filter (fun v => (p.2.ver v).valid)).map (fun v =>
      ((p.2.ver v).base.toNat, p.2.localRows s.fab.wid * p.2.rowSize))) ++
  [((s.den d).hdirBase.toNat, 32 * (s.den d).hdirLen.toNat)] ++
  (s.models.filter (fun m => m.den == d)).map (fun m => (m.paramBase, m.paramLen))

/-- Some stripe under a region leaves the den. -/
def regionLeaves (old new : List (Nat × Nat)) (r : Nat × Nat) : Bool :=
  decide (r.2 ≠ 0) && (List.range ((r.1 + r.2 - 1) / 16777216 + 1 - r.1 / 16777216)).any (fun i =>
    inRanges old (r.1 / 16777216 + i) && !(inRanges new (r.1 / 16777216 + i)))

/-- DEN_CONFIG HBM once the list has been read (R397). -/
def State.hbmStep (s : State) (c : Cmd) : State :=
  let d := cDen c.pkt
  let new := (rangesOf c.data).filter (fun p => decide (p.2 ≠ 0))
  if !(rangeListOk c.data) then s.fin c.id badData
  else if new.any (s.rangeTaken d) then s.fin c.id (st 0x04)
  else if (s.usedRegions d).any (regionLeaves (s.den d).hbm new) then s.fin c.id (st 0x01)
  else State.fin (s.setHbm d new) c.id {}

/-- DEN_CONFIG WAYS: FILL names at least one way, and no way is in two masks (05 R153, 15 R492). -/
def configWaysRow : CmdRow :=
  configRow 2 (fun _ b =>
    [(0x10, 2, decide (fld b 0x10 2 ≠ 0)), (0x12, 2, decide (fld b 0x10 2 &&& fld b 0x12 2 = 0)),
     (0x14, 2, decide ((fld b 0x10 2 ||| fld b 0x12 2) &&& fld b 0x14 2 = 0))])

/-- A way is, or waits to become, PIN or SCRATCH of a den other than `d`. -/
def Way.ofOther (w : Way) (d : Nat) : Bool :=
  (w.mode != .shared && w.owner != d) || (match w.change with
    | some (m, o) => m != .shared && o != d
    | none => false)

/-- A pin region of the den lies in its PIN way number `i`. -/
def State.pinUsed (s : State) (d i : Nat) : Bool := (s.pinRegions d 65536).any (meet (33554432 * i, 33554432))

/-- The checks of R398 for WAYS, after that of 05 R153: the reply that refuses. -/
def State.waysRefusal (s : State) (d fill pin scratch : Nat) : Option CmdRes :=
  let named := (List.range 16).filter (fun w => tbit pin w || tbit scratch w)
  if (List.range 16).any (fun w => tbit fill w && (s.way w).ofOther d) then some (badAt 0x10)
  else if named.any (fun w => (s.way w).ofOther d) then some (st 0x04)
  else if named.any (fun w => (List.range 32).any (fun e => e != d && (s.den e).fill.getLsbD w)) then some (st 0x01)
  else if (List.range (s.pinWays d).length).any (fun i => !(tbit pin ((s.pinWays d).getD i 0)) && s.pinUsed d i) then some (st 0x01)
  else none

/-- The masks of a den take effect; a way that changes waits for WAY_CHANGE_DONE (05 R157). -/
def State.setWays (s : State) (d fill pin scratch : Nat) : State :=
  let s := s.modDen d (fun x => { x with fill := BitVec.ofNat 16 fill })
  s.each (List.range 16) (fun s w =>
    match s.wayTarget d pin scratch w with
    | some m => s.modWay w (fun x => { x with change := some m })
    | none => s)

/-- Ways that a WAYS command changes. -/
def State.waysMoved (s : State) (d pin scratch : Nat) : List Nat :=
  (List.range 16).filter (fun w => (s.wayTarget d pin scratch w).isSome)

/-- DEN_CONFIG WAYS replies when every change has taken effect (R398). -/
def State.waysStep (s : State) (c : Cmd) : State := if c.nums.all (fun w => (s.way w).change.isNone) then s.fin c.id {} else s

/-- DEN_CONFIG WAYS (R398). -/
def execDenConfigWays (src : CmdSrc) (s : State) : Host.Outcome State Fault Refusal :=
  .next (s.runCmd configWaysRow src (State.begin src configWaysRow (fun s id b =>
    let d := cDen b
    match s.waysRefusal d (fld b 0x10 2) (fld b 0x12 2) (fld b 0x14 2) with
    | some x => s.fin id x
    | none =>
      ((s.mark id 0 (s.waysMoved d (fld b 0x12 2) (fld b 0x14 2))).setWays d (fld b 0x10 2) (fld b 0x12 2)
        (fld b 0x14 2)).onCmd id State.waysStep)))

/-- DEN_CONFIG MIOTER. -/
def configMioterRow : CmdRow := configRow 3 (fun _ _ => [anyP 0x10 2, anyP 0x18 8])

/-- A binding of a loaded model names a slot (03 R108). -/
def State.slotBound (s : State) (q c : Nat) : Bool :=
  s.models.any (fun m => m.entries.any (fun e => e.bind0 == some (q, c) || e.bind1 == some (q, c)))

/-- A CTX_LOAD reads entry `e`. -/
def State.entryLoading (s : State) (e : Nat) : Bool :=
  s.cp.running.any (fun (c : Cmd) => decide (cOp c.pkt = 0x41) && decide (fld c.pkt 8 1 = e))

/-- A CTX_LOAD is loading slot `c` of quadrant `q`, or waits for its tokens. -/
def State.slotLoading (s : State) (q c : Nat) : Bool :=
  match (s.quad q).loading with
  | some p => p.1 == c
  | none => false

/-- The checks of R398 for MIOTER. -/
def State.mioterRefusal (s : State) (d slots ents : Nat) : Nat :=
  let x := s.den d
  let other (p : Den → Bool) : Bool := (List.range 32).any (fun e => e != d && p (s.den e))
  let lost := (List.range 16).filter (fun i => x.mioSlots.getLsbD i && !(tbit slots i))
  if (List.range 16).any (fun i => tbit slots i && other (fun y => y.mioSlots.getLsbD i)) then 0x04
  else if (List.range 64).any (fun e => tbit ents e && other (fun y => y.mioEnts.getLsbD e)) then 0x04
  else if lost.any (fun i => s.slotBound (i / 4) (i % 4) || s.slotLoading (i / 4) (i % 4)) then 0x01
  else if (x.entryList).any (fun e => !(tbit ents e) && (s.entryLoading e || (s.cfgEntry e).storing.isSome)) then 0x01
  else 0

/-- No token is left in a slot that the command removes. -/
def State.slotsQuiet (s : State) (d slots : Nat) : Bool :=
  ((s.den d).slotList).all (fun p => tbit slots (4 * p.1 + p.2) || (s.quad p.1).toks.all (fun t => t.slot != p.2))

/-- DEN_CONFIG MIOTER takes effect once the slots that leave hold no token (R398). -/
def State.mioterStep (s : State) (c : Cmd) : State :=
  let d := cDen c.pkt
  if s.slotsQuiet d (fld c.pkt 0x10 2) then State.fin (s.setMioter d (fld c.pkt 0x10 2) (fld c.pkt 0x18 8)) c.id {} else s

/-- DEN_CONFIG MIOTER (R398). -/
def execDenConfigMioter (src : CmdSrc) (s : State) : Host.Outcome State Fault Refusal :=
  .next (s.runCmd configMioterRow src (State.begin src configMioterRow (fun s id b =>
    let e := s.mioterRefusal (cDen b) (fld b 0x10 2) (fld b 0x18 8)
    if e ≠ 0 then s.fin id (st e) else s.onCmd id State.mioterStep)))

/-- DEN_CONFIG REGULATOR: CFG in the layout of DEN_REG_CFG_p (R425). -/
def configRegulatorRow : CmdRow :=
  configRow 4 (fun _ b => [maxP b 0xC 1 3, (0x10, 8, within (fld b 0x10 8) (1 + 2 ^ 8 * (2 ^ 20 - 1) + 2 ^ 32 * (2 ^ 32 - 1)))])

/-- DEN_CONFIG REGULATOR (R414). -/
def execDenConfigRegulator (src : CmdSrc) (s : State) : Host.Outcome State Fault Refusal :=
  .next (s.runCmd configRegulatorRow src (State.quick src (fun s b =>
    (st 0, s.modDen (cDen b) (fun x => x.setBucket (pathOf (fld b 0xC 1)) ((x.bucket (pathOf (fld b 0xC 1))).config (fld b 0x10 8)))))))

/-- DEN_CONFIG SCHED. -/
def configSchedRow : CmdRow := configRow 5 (fun _ b => [maxP b 0xC 1 1])

/-- DEN_CONFIG SCHED (R402 to R404). -/
def execDenConfigSched (src : CmdSrc) (s : State) : Host.Outcome State Fault Refusal :=
  .next (s.runCmd configSchedRow src (State.quick src (fun s b =>
    (st 0, s.modDen (cDen b) (fun x => { x with deadline := fld b 0xC 1 == 1 })))))

/-- DEN_CONFIG FLR. -/
def configFlrRow : CmdRow := configRow 6 (fun _ b => [maxP b 0xC 1 1])

/-- DEN_CONFIG FLR (14 R464). -/
def execDenConfigFlr (src : CmdSrc) (s : State) : Host.Outcome State Fault Refusal :=
  .next (s.runCmd configFlrRow src (State.quick src (fun s b =>
    (st 0, s.modDen (cDen b) (fun x => { x with scrub := fld b 0xC 1 == 1 })))))

/-- DEN_CONFIG TOKEN: an all-zero token is refused (14 R470). -/
def configTokenRow : CmdRow := configRow 7 (fun _ b => [(0x10, 16, !(allZero (sliceB b 0x10 16)))])

/-- DEN_CONFIG TOKEN (14 R470). -/
def execDenConfigToken (src : CmdSrc) (s : State) : Host.Outcome State Fault Refusal :=
  .next (s.runCmd configTokenRow src (State.quick src (fun s b =>
    (st 0, s.modDen (cDen b) (fun x => { x with token := sliceB b 0x10 16 })))))

/-- DEN_CONFIG GRAN. -/
def configGranRow : CmdRow := configRow 8 (fun _ b => [maxP b 0xC 1 2])

/-- DEN_CONFIG GRAN: a change is refused while the den holds a stripe (06 R185). -/
def execDenConfigGran (src : CmdSrc) (s : State) : Host.Outcome State Fault Refusal :=
  .next (s.runCmd configGranRow src (State.quick src (fun s b =>
    let x := s.den (cDen b)
    if x.gran ≠ fld b 0xC 1 ∧ x.stripes ≠ 0 then (st 0x01, s)
    else (st 0, s.modDen (cDen b) (fun x => { x with gran := fld b 0xC 1 })))))

/-! ### DEN_QUERY, DEN_DESTROY, DEN_RESUME, HIST_DIR_SET (R394, 15 R491, R493, 12 R369, 22 R735) -/

/-- RESULT of DEN_QUERY (15 R493). -/
def State.denResult (s : State) (d : Nat) : Bytes :=
  toLe 8 (s.denStateReg d) ++ toLe 8 (s.denQueueReg d) ++ toLe 1 (s.models.filter (fun m => m.den == d)).length ++
  toLe 1 (b2n (s.pcie.retHeld.getLsbD d)) ++ [0, 0] ++ toLe 4 (s.tables.filter (fun p => p.2.present && p.2.den == d)).length

/-- DEN_QUERY (15 R493). -/
def execDenQuery (src : CmdSrc) (s : State) : Host.Outcome State Fault Refusal :=
  .next (s.runCmd (plainRow 0x12) src (State.quick src (fun s b => ({ result := s.denResult (cDen b) }, s))))

/-- DEN_DESTROY. -/
def denDestroyRow : CmdRow := { mine := isOp 0x13, params := fun _ _ => [], locks := fun _ b => denLocks b true }

/-- Step 1 of R394: the den is DESTROYING, and its tasks abort. -/
def State.destroyBegin (s : State) (d : Nat) : State :=
  (s.modDen d (fun x => { x with st := .destroying })).killReqs (fun r => r.den == d) false

/-- DEN_DESTROY (R394): COMMAND_DONE ends it. -/
def execDenDestroy (src : CmdSrc) (s : State) : Host.Outcome State Fault Refusal :=
  .next (s.runCmd denDestroyRow src (State.begin src denDestroyRow (fun s _ b => s.destroyBegin (cDen b))))

/-- DEN_RESUME. -/
def denResumeRow : CmdRow := { mine := isOp 0x14, params := fun _ _ => [], locks := fun _ b => denLocks b true }

/-- An enabled bucket is at BURST. -/
def Bucket.full (b : Bucket) : Bucket := { b with level := (b.burst.toNat : Int) }

/-- A QUIESCED den is ACTIVE again (22 R735). -/
def Den.resumed (x : Den) : Den :=
  let x := if x.uncorr then
      { x with regHbm := x.regHbm.full, regHoard := x.regHoard.full, regIfs := x.regIfs.full, regPcie := x.regPcie.full,
               cnt := mclear x.cnt 0 32 }
    else x
  { x with st := .active, uncorr := false }

/-- DEN_RESUME (22 R735). -/
def execDenResume (src : CmdSrc) (s : State) : Host.Outcome State Fault Refusal :=
  .next (s.runCmd denResumeRow src (State.quick src (fun s b =>
    if (s.den (cDen b)).st ≠ .quiesced then (st 0x06, s) else (st 0, (s.resetRings (cDen b + 1)).modDen (cDen b) Den.resumed))))

/-- HIST_DIR_SET. -/
def histDirRow : CmdRow :=
  { mine := isOp 0x15,
    params := fun _ b => [(0x10, 8, decide (fld b 0x10 8 < 2 ^ 56 ∧ fld b 0x10 8 % 128 = 0)), maxP b 0x18 4 16777216],
    locks := fun _ b => denLocks b true }

/-- HIST_DIR_SET (12 R369). -/
def execHistDirSet (src : CmdSrc) (s : State) : Host.Outcome State Fault Refusal :=
  .next (s.runCmd histDirRow src (State.quick src (fun s b =>
    if s.inHbm (cDen b) (fld b 0x10 8) (32 * fld b 0x18 4) = false then (st 0x05, s)
    else (st 0, s.modDen (cDen b) (fun x =>
      { x with hdirBase := BitVec.ofNat 56 (fld b 0x10 8), hdirLen := BitVec.ofNat 25 (fld b 0x18 4) })))))

/-! ### ATTACH (14 R469, R471) -/

/-- ATTACH. -/
def attachRow : CmdRow :=
  { mine := isOp 0x16, params := fun c b => [anyP 0x10 16, addrP c b 0x20, anyP 0x28 4], locks := fun _ b => denLocks b true }

/-- The retain record with a CRC field (R471). -/
def State.retainBytes (s : State) (d crc : Nat) : Bytes :=
  let x := s.den d
  let ts := s.tables.filter (fun p => p.2.present && p.2.den == d)
  let ready := (x.slotList.filter (fun p => (s.slot p.1 p.2).st == .ready)).length
  toLe 4 0x4E544552 ++ toLe 4 (64 + 48 * ts.length) ++ toLe 1 s.pcie.retCause ++ List.replicate 7 0 ++ toLe 8 s.pcie.retT.toNat ++
  toLe 4 crc ++ [0, 0, 0, 0] ++
  toLe 1 d ++ toLe 1 (b2n s.pcie.retFlushOk) ++ toLe 2 (s.models.filter (fun m => m.den == d)).length ++ toLe 4 ts.length ++
  toLe 4 x.stripes ++ toLe 2 ready ++ List.replicate 18 0 ++
  ts.flatMap (fun p =>
    toLe 2 p.1 ++ toLe 1 (p.2.active + 16 * (List.range 4).foldl (fun v i => v + b2n (p.2.ver i).valid * 2 ^ i) 0) ++ [0] ++
    toLe 4 (crc32c (p.2.descBytes p.1)).toNat ++ toLe 8 (versionWord p.2.v0) ++ toLe 8 (versionWord p.2.v1) ++
    toLe 8 (versionWord p.2.v2) ++ toLe 8 (versionWord p.2.v3) ++ List.replicate 8 0)

/-- The retain record (R471). -/
def State.retainRecord (s : State) (d : Nat) : Bytes := s.retainBytes d (crc32c (s.retainBytes d 0)).toNat

/-- A failed ATTACH for the den is less than 1 s old (R469). -/
def State.attachBlocked (s : State) (d : Nat) : Bool :=
  match (s.den d).attachFail with
  | some t => decide (s.since t < 250000000)
  | none => false

/-- The den is held no more: it serves again, its pin regions refill, and the device may leave RETAIN (R469, 05 R159). -/
def State.releaseHeld (s : State) (d : Nat) : State :=
  let s := { s with pcie := { s.pcie with retHeld := s.pcie.retHeld &&& ~~~(BitVec.ofNat 32 (2 ^ d)) },
                    tables := s.tables.map (fun (p : Nat × Table) =>
                      if p.2.present && p.2.den == d && p.2.pin then (p.1, { p.2 with pinFilling := true }) else p) }
  (s.postEvent (d + 1) 4 d [1, 2]).2.leaveRetain

/-- ATTACH once its bytes are written: stage 1 with the whole record, stage 2 with part of it (R469). -/
def State.attachStep (s : State) (c : Cmd) : State :=
  match c.fail with
  | some e => s.fin c.id (st e)
  | none =>
    let res := c.nums.map (BitVec.ofNat 8)
    if c.stage = 1 then (s.releaseHeld (cDen c.pkt)).fin c.id { result := res } else s.fin c.id { status := 0x09, result := res }

/-- ATTACH's own checks, and the write (R469). -/
def State.attachBegin (src : CmdSrc) (s : State) (id : Nat) (b : Bytes) : State :=
  let d := cDen b
  let rcd := s.retainRecord d
  let len := fld b 0x28 4
  if s.attachBlocked d then s.fin id (st 0x05)
  else if (s.den d).token ≠ sliceB b 0x10 16 then
    State.fin (s.modDen d (fun x => { x with attachFail := some s.wtime })) id (st 0x05)
  else if s.pcie.retHeld.getLsbD d = false then s.fin id (st 0x06)
  else
    let out := rcd.take len
    let s := s.mark id (if rcd.length ≤ len then 1 else 2) ((toLe 4 rcd.length).map BitVec.toNat)
    let s := if out = [] then s.modCmd id (fun y => { y with got := true })
      else s.store id src.tag (s.paramAddr src.fn? src.den (fld b 0x20 8) out.length) out
    s.onCmd id (fun s c => if c.got then s.attachStep c else s)

/-- ATTACH (14 R469). -/
def execAttach (src : CmdSrc) (s : State) : Host.Outcome State Fault Refusal :=
  .next (s.runCmd attachRow src (State.begin src attachRow (State.attachBegin src)))

end Sys2Proof.Machine
end

