-- ==== Sys2Proof/Machine/SeqOps.lean ====
section
/-!
DEFINITION. What the instructions of a tile share: the fields of an instruction and which of them are legal, reads and
writes of tile SRAM with ECC and poison, semaphores, where a global address leads, and the issue of a global access
(08 R247 to R263, R269).
-/

namespace Sys2Proof.Machine

/-! ### Fields of an instruction (R252) -/

/-- OP. -/
abbrev iOp (w : W64) : Nat := bits w.toNat 56 8
/-- SD. -/
abbrev iSd (w : W64) : Nat := bits w.toNat 51 5
/-- SA. -/
abbrev iSa (w : W64) : Nat := bits w.toNat 46 5
/-- SB. -/
abbrev iSb (w : W64) : Nat := bits w.toNat 41 5
/-- SC. -/
abbrev iSc (w : W64) : Nat := bits w.toNat 36 5
/-- SUB. -/
abbrev iSub (w : W64) : Nat := bits w.toNat 32 4
/-- The 32 bits of IMM. -/
abbrev iRaw (w : W64) : Nat := bits w.toNat 0 32
/-- IMM sign-extended to 64 bits. -/
def iImm (w : W64) : W64 := (w.extractLsb' 0 32).signExtend 64

/-! ### Which words a program may hold (R253 to R255, R262) -/

/-- Fields that an OP uses: SD, SA, SB, SC, SUB, IMM; none = a reserved OP (R254). The shifts use SB or IMM by SUB. -/
def opFields (op sub : Nat) : Option (Bool × Bool × Bool × Bool × Bool × Bool) :=
  match op with
  | 0x00 | 0x26 | 0x28 | 0x3A => some (false, false, false, false, false, false)
  | 0x01 | 0x03 | 0x04 | 0x05 | 0x06 | 0x07 | 0x0C | 0x0D | 0x0E | 0x0F => some (true, true, true, false, false, false)
  | 0x02 | 0x08 | 0x11 => some (true, true, false, false, false, true)
  | 0x09 | 0x0A | 0x0B => some (true, true, sub == 0, false, true, sub == 1)
  | 0x10 | 0x12 | 0x24 | 0x44 => some (true, false, false, false, false, true)
  | 0x20 | 0x21 | 0x22 | 0x23 | 0x36 | 0x37 => some (false, true, true, false, false, true)
  | 0x25 => some (false, true, false, false, false, false)
  | 0x27 | 0x42 | 0x43 => some (false, false, false, false, false, true)
  | 0x30 | 0x34 => some (true, true, false, false, true, true)
  | 0x31 | 0x35 => some (false, true, true, false, true, true)
  | 0x38 => some (false, true, true, true, true, true)
  | 0x39 => some (true, true, true, true, true, false)
  | 0x40 | 0x53 => some (false, true, false, false, true, false)
  | 0x41 => some (false, false, false, false, true, true)
  | 0x50 => some (false, true, true, false, true, false)
  | 0x51 => some (true, false, true, false, true, false)
  | 0x52 => some (true, false, false, false, true, true)
  | 0x60 => some (false, false, false, false, true, false)
  | _ => none

/-- Bytes of a lane of an ATOMV format; 0 = not permitted (R262, 05 R162). -/
def atomLane (fmt : Nat) : Nat := laneBytes fmt

/-- SUB and IMM hold no reserved encoding (R254, R255, R262). -/
def subImmOk (op sub imm : Nat) (sb sc : Nat) : Bool :=
  match op with
  | 0x09 | 0x0A | 0x0B => decide (sub ≤ 1)
  | 0x12 => decide (imm ≤ 5)
  | 0x30 | 0x34 => decide (sub < 8)
  | 0x31 | 0x35 => decide (sub < 4)
  | 0x38 => decide (1 ≤ sub ∧ sub ≤ 3) && decide (imm < 2048) && decide (atomLane (bits imm 0 4) ≠ 0) &&
      decide ((bits imm 4 6 + 1) * atomLane (bits imm 0 4) ≤ 128) && (tbit imm 10 || sc == 0)
  | 0x39 => decide (sub = 4) || (decide (sub = 5) && sb == 0)
  | 0x40 => decide (sub ≤ 4)
  | 0x41 => decide (sub ≤ 4) && decide (imm ≤ 8)
  | 0x42 | 0x43 | 0x44 => decide (imm ≤ 15)
  | 0x52 => decide (sub ≤ 1) && decide (imm < 65536)
  | 0x60 => decide (sub ≤ 1)
  | _ => true

/-- Target of a branch at instruction index `pc`. -/
def branchTarget (pc : Nat) (w : W64) : Nat := (BitVec.ofNat 64 pc + iImm w).toNat

/-- The word may stand at instruction index `pc` of a program store (R253). -/
def instrOk (pc : Nat) (w : W64) : Bool :=
  match opFields (iOp w) (iSub w) with
  | none => false
  | some (d, a, b, c, u, i) =>
    (d || iSd w == 0) && (a || iSa w == 0) && (b || iSb w == 0) && (c || iSc w == 0) && (u || iSub w == 0) &&
    (i || iRaw w == 0) && subImmOk (iOp w) (iSub w) (iRaw w) (iSb w) (iSc w) &&
    (if 0x20 ≤ iOp w ∧ iOp w ≤ 0x24 then decide (branchTarget pc w < 8192) else true)

/-! ### Issue (R256, R257) -/

/-- An outstanding access will write a scalar register. -/
def AccKind.target (k : AccKind) : Nat :=
  match k with
  | .ldg sd _ _ => sd
  | .atoms _ sd => sd
  | .stg | .ldgb _ | .stgb | .atomv _ _ _ _ _ => 0

/-- A register is still being written by an earlier instruction (R256). -/
def Tile.pendingReg (x : Tile) (n : Nat) : Bool := n != 0 && x.accs.any (fun g => g.kind.target == n)

/-- What TIL_STATUS.STALL shows (R288). -/
def State.stallAt (s : State) (t code : Nat) : State := s.modTile t (fun x => { x with stall := code })

/-- The instruction at issue on a tile. -/
def State.word (s : State) (t : Nat) (d : Nat) : W64 := mget 0 (s.den d).prog (s.tile t).pc

/-- A tile of a running task has an instruction of OP `op` at issue; the instruction is one that the program store may hold
(R253). -/
def State.atIssue (s : State) (t op : Nat) (r : Req) : Bool :=
  s.hub && (s.tile t).seq == .running && r.phase == .running && decide ((s.tile t).pc < 8192) &&
  iOp (s.word t r.den) == op && instrOk (s.tile t).pc (s.word t r.den)

/-- Issue the instruction of a tile when its OP is `op`: it waits while a register it reads or writes is still being
written, else `f` gives its effect from the word and the request (R256). -/
def State.issue (s : State) (t op : Nat) (regs : W64 → List Nat) (f : State → W64 → Req → State) : State :=
  match s.holder t with
  | none => s
  | some r =>
    if s.atIssue t op r then
      if (regs (s.word t r.den)).any (s.tile t).pendingReg then s.stallAt t 1
      else f (s.stallAt t 0) (s.word t r.den) r
    else s

/-- The next instruction is at index `n`: one outside the program store aborts the task with PROG_RANGE (R257). -/
def State.goto (s : State) (t n : Nat) : State :=
  let s := s.modTile t (fun x => { x with pc := n })
  if n < 8192 then s else s.tileFault t 0x01 0 0 false false

/-- The instruction after this one is next. -/
def State.advance (s : State) (t : Nat) : State := s.goto t ((s.tile t).pc + 1)

/-- Write a scalar register and go on (R248). -/
def State.setReg (s : State) (t n : Nat) (v : W64) : State := (s.modTile t (fun x => x.setS n v)).advance t

/-! ### Tile SRAM with ECC and poison (R247, 22 R724 to R726) -/

/-- Size of tile SRAM. -/
abbrev sramSize : Nat := 4194304

/-- Granules of 8 bytes that `n` bytes from `a` touch. -/
def granulesOf (a n : Nat) : List Nat := if n = 0 then [] else (List.range ((a + n - 1) / 8 + 1 - a / 8)).map (fun i => a / 8 + i)

/-- A granule has an ECC error of this kind: 1 single-bit, 2 double-bit. -/
def Tile.eccAny (x : Tile) (l : List Nat) (k : Nat) : Bool := l.any (fun g => mget 0 x.ecc g == k)

/-- Some granule carries a poison mark. -/
def Tile.marked (x : Tile) (l : List Nat) : Bool := l.any (fun g => mget false x.poison g)

/-- Single-bit errors in these granules are gone. -/
def Tile.corrected (x : Tile) (l : List Nat) : Tile :=
  { x with ecc := l.foldl (fun e g => if mget 0 e g = 1 then mset 0 e g 0 else e) x.ecc }

/-- LOCATION of a fault of a tile at an SRAM address (22 R720). -/
def State.tileLoc (s : State) (t a : Nat) : W64 := mkLoc 1 t (s.tileDen t) false ((s.tile t).pc % 8192 + 2 ^ 16 * (a / 128 % 2 ^ 16))

/-- Single-bit errors are corrected, which logs one CORRECTED fault (R247). -/
def State.correctSram (s : State) (t a : Nat) (l : List Nat) : State :=
  if (s.tile t).eccAny l 1 then (s.modTile t (fun x => x.corrected l)).fault 0x0101 (s.tileLoc t a) else s

/-- An uncorrectable error in a tile's storage: its task aborts with SRAM_UNCORR, which fences the tile; a tile with no task
is fenced at once (R247, 22 R726). -/
def State.storageUncorr (s : State) (t a : Nat) : State :=
  match s.holder t with
  | some _ => s.tileFault t 0x0F 0 (a / 128) false true
  | none => s.fenceTile t 1 0x0C none

/-- Read `n` bytes of SRAM and the marks among them; none = an uncorrectable error, which has been dealt with. -/
def State.sramCarry (s : State) (t a n : Nat) : Option Bytes × State :=
  let l := granulesOf a n
  if (s.tile t).eccAny l 2 then (none, s.storageUncorr t a)
  else
    let s := s.correctSram t a l
    (some (Machine.memRead (s.tile t).sram a n), s)

/-- Read `n` bytes of SRAM for the sequencer or an engine: poison aborts the task with SRAM_UNCORR (22 R725). -/
def State.sramRead (s : State) (t a n : Nat) : Option Bytes × State :=
  let r := s.sramCarry t a n
  match r.1 with
  | none => r
  | some _ => if (r.2.tile t).marked (granulesOf a n) then (none, r.2.tileFault t 0x0F 0 (a / 128) true false) else r

/-- Go on with the bytes read, or stop after the fault. -/
def State.withSram (s : State) (t a n : Nat) (f : State → Bytes → State) : State :=
  let r := s.sramRead t a n
  match r.1 with
  | some b => f r.2 b
  | none => r.2

/-- Granules that a write covers in part only. -/
def partGranules (a n : Nat) : List Nat := (granulesOf a n).filter (fun g => !(decide (a ≤ 8 * g) && decide (8 * g + 8 ≤ a + n)))

/-- Write SRAM: a granule written in part is read through ECC first, and a double-bit error there raises SRAM_UNCORR after
the write (R247). -/
def State.sramWrite (s : State) (t a : Nat) (b : Bytes) : State :=
  let l := partGranules a b.length
  let s := (s.correctSram t a l).modTile t (fun x => x.putSram a b)
  if (s.tile t).eccAny l 2 then s.storageUncorr t a else s

/-- The poison marks of 64 bytes at an SRAM address, one for each 8 bytes. -/
def Tile.marks64 (x : Tile) (a : Nat) : BitVec 8 :=
  BitVec.ofNat 8 ((List.range 8).foldl (fun v g => if x.marked (granulesOf (a + 8 * g) 8) then v + 2 ^ g else v) 0)

/-! ### Semaphores (R269) -/

/-- Waiter `k` comes first among those that wait on a semaphore, or none waits. -/
def Tile.semTurn (x : Tile) (n k : Nat) : Bool :=
  match mget [] x.semWait n with
  | [] => true
  | j :: _ => j == k

/-- Waiter `k` may pass: the semaphore is above zero and no older waiter stands before it. -/
def Tile.semFree (x : Tile) (n k : Nat) : Bool := decide (0 < mget 0 x.sems n) && x.semTurn n k

/-- Decrement a semaphore for waiter `k`. -/
def Tile.semTake (x : Tile) (n k : Nat) : Tile :=
  { x with sems := mset 0 x.sems n (mget 0 x.sems n - 1),
           semWait := mset [] x.semWait n ((mget [] x.semWait n).filter (fun j => j != k)) }

/-- Waiter `k` waits on a semaphore from now on. -/
def Tile.semQueue (x : Tile) (n k : Nat) : Tile :=
  if (mget [] x.semWait n).contains k then x else { x with semWait := mset [] x.semWait n (mget [] x.semWait n ++ [k]) }

/-! ### Where a global address leads (R259 to R261, 13 R399, 16 R514, R515) -/

/-- Where an access of a tile or a stream goes. -/
inductive Reach where
  /-- outside what the access may reach -/
  | bad
  | dev (a : Nat)
  | host (iova : Nat)
  /-- offset `o` of another device -/
  | far (w o : Nat)
  deriving DecidableEq, Repr

/-- Bytes of the host window lie within the score buffer of a request (R261). -/
def inScore (r : Req) (iova n : Nat) : Bool :=
  decide (dOutAddr r.desc ≤ iova) && decide (iova + n ≤ dOutAddr r.desc + dOutLen r.desc)

/-- Local HBM or scratch of the den. -/
def State.reachLocal (s : State) (d a n : Nat) : Reach := if s.denMay d a n false then .dev a else .bad

/-- Where `n` bytes at address `a` lie for a task. -/
def State.reachOf (s : State) (r : Req) (a n : Nat) (write : Bool) : Reach :=
  match space a with
  | .hbm | .scratch _ => s.reachLocal r.den a n
  | .host i =>
    if s.denMay r.den a n false ∧ (¬ write ∨ inScore r i n) then .host i else .bad
  | .remote w o =>
    if 2 ^ 40 < o + n then .bad
    else if w = s.fab.wid then
      (match space o with
       | .hbm | .scratch _ => s.reachLocal r.den o n
       | _ => .bad)
    else if s.fab.role = 0 then .bad
    else .far w o
  | .sram _ _ | .store | .hole => .bad

/-- The access goes to host memory. -/
def Reach.isHost (x : Reach) : Bool :=
  match x with
  | .host _ => true
  | .dev _ | .far _ _ | .bad => false

/-- The access goes to another device. -/
def Reach.isFar (x : Reach) : Bool :=
  match x with
  | .far _ _ => true
  | .dev _ | .host _ | .bad => false

/-- The bucket that gates an access (13 R416). -/
def Reach.path (x : Reach) : Path :=
  match x with
  | .host _ => .pcie
  | .far _ _ => .ifs
  | .dev _ | .bad => .hoard

/-! ### Issuing a global access (R263, 13 R416, R417, 16 R534) -/

/-- Port of a slice at which a tile's accesses arrive: West for x below 8, else East (05 R149). -/
def tilePort (t : Nat) : Nat := if t % 16 < 8 then 0 else 1

/-- The Hoard request of an access. -/
def AccKind.hreq (k : AccKind) (d t acc a len : Nat) (data : Bytes) : HReq :=
  let kind : HKind := match k with
    | .ldg _ _ _ => .read true
    | .ldgb _ => .read true
    | .stg => .write true
    | .stgb => .write true
    | .atomv op fmt n ret _ => .lanes op fmt n ret
    | .atoms op _ => if op = 4 then .cas (BitVec.ofNat 64 (fld data 0 8)) (BitVec.ofNat 64 (fld data 8 8))
        else .swap (BitVec.ofNat 64 (fld data 0 8))
  { kind := kind, den := some d, addr := a, len := len, data := data, dst := .tile t acc }

/-- The message of an access to another device (16 R524, R540). -/
def AccKind.message (k : AccKind) (s : State) (w d : Nat) (tid : W32) (o len : Nat) (data : Bytes) : Bytes :=
  match k with
  | .ldg _ _ _ => s.mkMsg 0x12 w d 0 tid (toLe 8 o ++ toLe 2 len) []
  | .ldgb _ => s.mkMsg 0x12 w d 0 tid (toLe 8 o ++ toLe 2 len) []
  | .stg => s.mkMsg 0x13 w d 0 tid (toLe 8 o ++ toLe 2 len) data
  | .stgb => s.mkMsg 0x13 w d 0 tid (toLe 8 o ++ toLe 2 len) data
  | .atomv op fmt n ret _ => s.mkMsg 0x14 w d 0 tid (toLe 8 o ++ toLe 1 op ++ toLe 1 fmt ++ toLe 1 n ++ toLe 1 (b2n ret)) data
  | .atoms op _ => s.mkMsg 0x14 w d 0 tid (toLe 8 o ++ toLe 1 op ++ [0, 1, 1]) data

/-- The access writes. -/
def AccKind.writes (k : AccKind) : Bool :=
  match k with
  | .ldg _ _ _ | .ldgb _ => false
  | .stg | .stgb | .atomv _ _ _ _ _ | .atoms _ _ => true

/-- An access has been served at once, or has failed. -/
def State.setAcc (s : State) (t acc : Nat) (st : AccState) : State :=
  s.modTile t (fun x => { x with accs := modFirst (fun g => g.id == acc) (fun g => { g with st := st }) x.accs })

/-- An access to another device leaves, or fails for want of a route (16 R529, R535). -/
def State.sendAcc (s : State) (t acc d w o len : Nat) (k : AccKind) (data : Bytes) : State :=
  let n := s.newTid
  let x : Xact := { tid := n.1, issuer := .tile t acc, den := d, dst := w }
  match n.2.send (k.message n.2 w d n.1 o len data) with
  | some u => { u with fab := { u.fab with xacts := u.fab.xacts ++ [x] } }
  | none => s.xactFailed.setAcc t acc (.failed 0x03)

/-- An access to host memory goes to the PCIe ordering point; a posted write that leaves at once has been accepted
(R260, R263). -/
def State.hostAcc (s : State) (t acc d i len : Nat) (k : AccKind) (data : Bytes) : State :=
  let s := s.chargePcie d len
  if k.writes then
    let s := s.issueWrite (d + 1) (.tile t acc) i data
    if (s.pcie.xlate ++ s.pcie.waiting).any (fun x => x.issuer == .tile t acc) then s else s.setAcc t acc (.served [] false)
  else s.issueRead (d + 1) (.tile t acc) i len

/-- An access whose checks have passed issues, and the sequencer goes on. -/
def State.startAcc (s : State) (t d : Nat) (k : AccKind) (p : Reach) (len : Nat) (data : Bytes) : State :=
  let acc := (s.tile t).accSeq
  let g : GAcc := { id := acc, kind := k, data := data, len := len }
  let s := s.modTile t (fun x => { x with accs := x.accs ++ [g], accSeq := acc + 1 })
  let s := match p with
    | .dev a => (s.chargeHoard d len).askHoard (tilePort t) (k.hreq d t acc a len data)
    | .host i => s.hostAcc t acc d i len k data
    | .far w o => s.sendAcc t acc d w o len k data
    | .bad => s
  s.advance t

/-- Checks 4 and 5 of R259, Bus Master Enable (14 R461), a free transaction entry (16 R534) and the regulator's gate
(13 R416, R417) stand before the issue; what is written comes from a register as `data`, or from SRAM at `src`. -/
def State.globalAcc (s : State) (t : Nat) (r : Req) (k : AccKind) (a len : Nat) (data : Bytes) (src : Option Nat) : State :=
  let p := s.reachOf r a len k.writes
  if p = .bad then s.tileFault t 0x03 0 0 false false
  else if p.isHost ∧ ¬ (s.fn (r.den + 1)).bme then s.tileFault t 0x11 0 0 false false
  else if ¬ (s.den r.den).open p.path then s.count r.den cRegWait 1
  else if p.isFar ∧ 16384 ≤ s.fab.xacts.length then s
  else
    match src with
    | none => s.startAcc t r.den k p len data
    | some b => s.withSram t b len (fun s v => s.startAcc t r.den k p len v)

/-- An access has been applied at its home slice, acknowledged by the remote device, or accepted at the PCIe ordering point:
a host read when it has been sent (R263). -/
def State.accApplied (s : State) (t : Nat) (g : GAcc) : Bool :=
  (match g.st with
   | .served _ _ => true
   | .issued => s.pcie.reads.any (fun r => r.issuer == .tile t g.id) &&
       !((s.pcie.xlate ++ s.pcie.waiting).any (fun x => x.issuer == .tile t g.id))
   | .failed _ => false)

/-- FENCE's wait is over (R263). -/
def State.fenced (s : State) (t : Nat) : Bool := (s.tile t).accs.all (s.accApplied t)

end Sys2Proof.Machine
end

