-- ==== Sys2Proof/Machine/CmdModel.lean ====
section
/-!
DEFINITION. Model packages and the model family of commands (15 R494 to R500, 04 R126, R127, 08 R249, R250, R253, 12 R373,
R374, 13 R406, R421).
-/

namespace Sys2Proof.Machine

/-! ### Regions of tile SRAM -/

/-- `count` regions of `size` bytes, `stride` bytes apart. -/
structure Span where
  start : Nat
  stride : Nat
  count : Nat
  size : Nat
  deriving DecidableEq, Repr

/-- Some region of a span shares a byte with `n` bytes at `x`. -/
def Span.hits (b : Span) (x n : Nat) : Bool :=
  let j := if x < b.start + b.size then 0 else if b.stride = 0 then b.count else (x - b.start - b.size) / b.stride + 1
  decide (b.size ≠ 0) && decide (n ≠ 0) && decide (j < b.count) && decide (b.start + j * b.stride < x + n)

/-- Two spans share a byte. -/
def Span.meets (a b : Span) : Bool := (List.range a.count).any (fun i => b.hits (a.start + i * a.stride) a.size)

/-- The byte after the last region of a span. -/
def Span.stop (a : Span) : Nat := a.start + (a.count - 1) * a.stride + a.size

/-- A span lies within `lo` to `hi`; one of no bytes lies anywhere. -/
def Span.inside (a : Span) (lo hi : Nat) : Bool := decide (a.size = 0) || (decide (lo ≤ a.start) && decide (a.stop ≤ hi))

/-- No two spans of a list share a byte, and no span overlaps itself. -/
def Span.apart (l : List Span) : Bool :=
  match l with
  | [] => true
  | a :: rest => !(decide (1 < a.count) && decide (a.stride < a.size)) && rest.all (fun b => !(a.meets b)) && Span.apart rest

/-! ### The package: header, directory, sections (R495, R496) -/

/-- LENGTH, NSECT, NENTRY, PROG_LEN and PARAM_LEN of a package. -/
abbrev pkLength (b : Bytes) : Nat := fld b 8 4
abbrev pkSects (b : Bytes) : Nat := fld b 0x10 2
abbrev pkEntries (b : Bytes) : Nat := fld b 0x12 2
abbrev pkProgLen (b : Bytes) : Nat := fld b 0x14 4
abbrev pkParamLen (b : Bytes) : Nat := fld b 0x18 8

/-- A section as the directory gives it. -/
structure Sect where
  ty : Nat
  index : Nat
  off : Nat
  size : Nat
  deriving DecidableEq, Repr

/-- Directory entry `i`. -/
def sectAt (b : Bytes) (i : Nat) : Sect :=
  let o := 0x80 + 16 * i
  { ty := fld b o 1, index := fld b (o + 2) 2, off := fld b (o + 4) 4, size := fld b (o + 8) 4 }

/-- The directory. -/
def sectsOf (b : Bytes) : List Sect := (List.range (pkSects b)).map (sectAt b)

/-- The bytes of a section. -/
def Sect.data (x : Sect) (b : Bytes) : Bytes := (b.drop x.off).take x.size

/-- The sections of a type. -/
def sectsTy (b : Bytes) (ty : Nat) : List Sect := (sectsOf b).filter (fun x => x.ty == ty)

/-- The numbers of the header lie in their ranges, its reserved bytes are zero, and the directory fits (R495). -/
def pkHeadOk (b : Bytes) : Bool :=
  allZero (sliceB b 0x20 96) && decide (1 ≤ pkSects b ∧ pkSects b ≤ 4096) && decide (1 ≤ pkEntries b ∧ pkEntries b ≤ 64) &&
  decide (1 ≤ pkProgLen b ∧ pkProgLen b ≤ 8192) && decide (pkParamLen b % 4096 = 0) &&
  decide (0x80 + 16 * pkSects b ≤ pkLength b)

/-- A section's own size fits its type (R496). -/
def Sect.sizeOk (x : Sect) (b : Bytes) : Bool :=
  match x.ty with
  | 1 => decide (x.size = 8 * pkProgLen b)
  | 2 | 5 => decide (x.size % 8 = 0)
  | 3 => decide (0x40 ≤ x.size)
  | 4 => decide (x.size = pkParamLen b)
  | 6 => decide (12 ≤ x.size) && decide (fld (x.data b) 8 4 = x.size)
  | _ => false

/-- Directory entry `i` is in order: reserved bytes, INDEX, place and size (R495, R496). -/
def sectOk (b : Bytes) (i : Nat) : Bool :=
  let x := sectAt b i
  decide (fld b (0x81 + 16 * i) 1 = 0) && decide (fld b (0x8C + 16 * i) 4 = 0) && decide (x.off % 64 = 0) &&
  decide (0x80 + 16 * pkSects b ≤ x.off) && decide (x.off + x.size ≤ pkLength b) &&
  (decide (x.ty = 3) || decide (x.index = 0)) && x.sizeOk b

/-- No two sections share a byte (DEDUCED; R495 gives each its own place). -/
def sectsApart (l : List Sect) : Bool :=
  match l with
  | [] => true
  | a :: rest => rest.all (fun b => !(meet (a.off, a.size) (b.off, b.size))) && sectsApart rest

/-- One PROGRAM, one ENTRY for each INDEX, and PARAMS when PARAM_LEN is not 0 (R496). -/
def sectsOk (b : Bytes) : Bool :=
  (List.range (pkSects b)).all (sectOk b) && sectsApart (sectsOf b) && decide ((sectsTy b 1).length = 1) &&
  decide ((sectsTy b 3).length = pkEntries b) &&
  (List.range (pkEntries b)).all (fun i => (sectsTy b 3).any (fun x => x.index == i)) &&
  decide ((sectsTy b 4).length = if pkParamLen b = 0 then 0 else 1)

/-- The words of the PROGRAM section. -/
def progWords (b : Bytes) : List W64 :=
  let d := (sectsTy b 1).flatMap (fun x => x.data b)
  (List.range (pkProgLen b)).map (fun i => BitVec.ofNat 64 (fld d (8 * i) 8))

/-- 8-byte records of the sections of a type. -/
def recsOf (b : Bytes) (ty : Nat) : List Bytes :=
  (sectsTy b ty).flatMap (fun x => (List.range (x.size / 8)).map (fun i => sliceB (x.data b) (8 * i) 8))

/-- The pairs of the RELOC sections. -/
def relocsOf (b : Bytes) : List (Nat × Nat) := (recsOf b 2).map (fun r => (fld r 0 4, fld r 4 4))

/-- A RELOC pair names an LI and an LIH after it on the same register (R496). -/
def relocOk (ws : List W64) (p : Nat × Nat) : Bool :=
  let a := ws.getD p.1 0
  let c := ws.getD p.2 0
  decide (p.1 < p.2) && decide (p.2 < ws.length) && iOp a == 0x10 && iOp c == 0x11 && iSd c == iSd a && iSa c == iSd a

/-- Every word may stand where the program is placed (08 R253). -/
def wordsOk (ws : List W64) (at_ : Nat) : Bool :=
  match ws with
  | [] => true
  | w :: rest => instrOk at_ w && wordsOk rest (at_ + 1)

/-- A TABLEREQ record names a table of the den with these FMT, ELEMS and ROW_SIZE (R496, R498). -/
def State.treqOk (s : State) (d : Nat) (r : Bytes) : Bool :=
  let t := s.table (fld r 0 2)
  decide (fld r 3 1 = 0) && decide (fld r 2 1 ≤ 9) && t.present && t.den == d && t.fmt == fld r 2 1 && t.elems == fld r 4 2 &&
  t.rowSize == fld r 6 2

/-! ### Entry point records (R497, 04 R126, 12 R373) -/

/-- Where group record `k` of an entry record starts. -/
def groupPos (r : Bytes) (k : Nat) : Nat :=
  match k with
  | 0 => 0x40 + 4 * fld r 0 2
  | n + 1 => groupPos r n + 16 + 8 * fld r (groupPos r n + 3) 1

/-- The pooling group record at offset `o` (04 R126). -/
def parseGroup (r : Bytes) (o : Nat) : PoolGroup :=
  { mode := fld r o 1, outFmt := fld r (o + 1) 1, ordered := tbit (fld r (o + 2) 1) 0,
    tabs := (List.range (fld r (o + 3) 1)).map (fun i => (fld r (o + 16 + 8 * i) 2, fld r (o + 20 + 8 * i) 4)),
    spt := fld r (o + 4) 2, catN := fld r (o + 6) 2, outBase := fld r (o + 8) 4, stride := fld r (o + 12) 4 }

/-- The history declaration of an entry record (12 R373). -/
def parseHist (r : Bytes) : HistDecl :=
  { htable := fld r 0x20 2, outFmt := fld r 0x22 1 % 16, htn := fld r 0x23 1, stateN := fld r 0x24 1,
    sem0 := fld r 0x25 1 % 16, sem1 := fld r 0x25 1 / 16, bufOff := fld r 0x28 4, bufBytes := fld r 0x2C 4,
    saveOff := fld r 0x30 4 }

/-- A binding byte. -/
def parseBind (v : Nat) : Option (Nat × Nat) := if tbit v 7 then some (bits v 2 2, bits v 0 2) else none

/-- An entry record, with the program at `base`. -/
def parseEntry (r : Bytes) (base : Nat) : EntryPoint :=
  { tiles := fld r 0 2, guardUs := fld r 4 4, spillOff := fld r 8 4, spillQ := fld r 0xC 2, yieldable := tbit (fld r 2 1) 0,
    sramLo := fld r 0x10 4, sramHi := fld r 0x14 4,
    pcs := (List.range (fld r 0 2)).map (fun i => base + fld r (0x40 + 4 * i) 4),
    bind0 := parseBind (fld r 0x18 1), bind1 := parseBind (fld r 0x19 1),
    hist := if tbit (fld r 2 1) 1 then some (parseHist r) else none,
    groups := (List.range (fld r 3 1)).map (fun k => parseGroup r (groupPos r k)) }

/-- Reserved bits and bytes of an entry record are zero, its own numbers lie in their ranges, and it ends with its last group
record (R497, 08 R250). -/
def entryFieldsOk (r : Bytes) (progLen : Nat) : Bool :=
  decide (fld r 2 1 < 4) && decide (fld r 3 1 ≤ 16) && decide (1 ≤ fld r 0 2 ∧ fld r 0 2 ≤ 256) &&
  decide (1 ≤ fld r 4 4 ∧ fld r 4 4 ≤ 4000000) && decide (fld r 8 4 % 64 = 0) && decide (fld r 0xC 2 ≤ 4096) &&
  decide (fld r 8 4 + 64 * fld r 0xC 2 ≤ sramSize) && decide (fld r 0xE 2 = 0) && allZero (sliceB r 0x1A 6) &&
  [fld r 0x18 1, fld r 0x19 1].all (fun v => decide (bits v 4 3 = 0) && (tbit v 7 || decide (v = 0))) &&
  (List.range (fld r 0 2)).all (fun i => decide (fld r (0x40 + 4 * i) 4 < progLen)) &&
  (tbit (fld r 2 1) 1 || allZero (sliceB r 0x20 32)) && decide (groupPos r (fld r 3 1) = r.length)

/-- A window is a multiple of 128 at both ends, within tile SRAM (13 R406). -/
def EntryPoint.windowOk (e : EntryPoint) : Bool :=
  decide (e.sramLo % 128 = 0) && decide (e.sramHi % 128 = 0) && decide (e.sramLo ≤ e.sramHi) && decide (e.sramHi ≤ sramSize)

/-- A group record of an entry point of `tiles` tiles has no reserved encoding, and names tables of the den (04 R126, R127). -/
def State.groupOk (s : State) (d tiles : Nat) (r : Bytes) (o : Nat) : Bool :=
  let g := parseGroup r o
  decide (g.mode ≤ 4) && decide (g.outFmt ≤ 2) && decide (fld r (o + 2) 1 < 2) &&
  decide (1 ≤ g.tabs.length ∧ g.tabs.length ≤ 64) && decide (1 ≤ g.spt ∧ g.spt ≤ 4096) &&
  (if g.mode = 4 then decide (1 ≤ g.catN ∧ g.catN ≤ 256) else decide (g.catN = 0)) && decide (g.outBase % 16 = 0) &&
  decide (g.stride % 16 = 0) && (List.range g.tabs.length).all (fun i => decide (fld r (o + 18 + 8 * i) 2 = 0)) &&
  g.tabs.all (fun p => decide (p.2 % 16 = 0) && (s.table p.1).present && (s.table p.1).den == d) &&
  decide (4096 ≤ g.spt * tiles)

/-- Output elements of a row of a table: N × ELEMS for COL (04 R127). -/
def Table.outElems (t : Table) : Nat := if t.layout = 2 then (t.shards + 1) * t.elems else t.elems

/-- Bytes of one bag of a table in a group (04 R127). -/
def State.bagSize (s : State) (g : PoolGroup) (tn : Nat) : Nat :=
  ((s.table tn).outElems * (if g.mode = 4 then g.catN else 1) * elemBits g.outFmt / 8 + 15) / 16 * 16

/-- The bag outputs of an entry point (04 R126 to R128). -/
def State.bagSpans (s : State) (e : EntryPoint) : List Span :=
  e.groups.flatMap (fun g => g.tabs.map (fun p => Span.mk (g.outBase + p.2) g.stride g.spt (s.bagSize g p.1)))

/-- The spill region of an entry point (08 R250). -/
def EntryPoint.spillSpan (e : EntryPoint) : Span := Span.mk e.spillOff 0 1 (64 * e.spillQ)

/-- The two buffers and the state save area of a declaration (12 R373). -/
def HistDecl.spans (h : HistDecl) : List Span :=
  [Span.mk h.bufOff 0 1 h.bufBytes, Span.mk (h.bufOff + h.bufBytes) 0 1 h.bufBytes, Span.mk h.saveOff 0 1 (65536 * h.stateN)]

/-- The declaration's own fields (12 R373, R374). -/
def State.histOk (s : State) (d : Nat) (r : Bytes) (e : EntryPoint) (h : HistDecl) : Bool :=
  let t := s.table h.htable
  decide (fld r 0x22 1 ≤ 2) && decide (fld r 0x26 2 = 0) && allZero (sliceB r 0x34 12) && t.present && t.den == d &&
  decide (t.fmt ≤ 9) && decide (1 ≤ h.htn ∧ h.htn ≤ e.tiles) && decide (h.stateN ≤ 4) && decide (h.sem0 ≠ h.sem1) &&
  decide (h.bufOff % 128 = 0) && decide (h.bufBytes % 128 = 0) && (decide (h.stateN = 0) || decide (h.saveOff % 128 = 0)) &&
  decide (131072 + 4096 * s.embBytes h + 64 ≤ h.bufBytes)

/-- What the entry point places in SRAM fits its window and does not overlap (04 R127, 12 R374, 13 R406). -/
def State.placesOk (s : State) (e : EntryPoint) : Bool :=
  let bags := s.bagSpans e
  bags.all (fun a => a.inside e.sramLo e.sramHi) && e.spillSpan.inside e.sramLo e.sramHi && Span.apart bags &&
  (match e.hist with
   | some h => h.spans.all (fun a => a.inside e.sramLo e.sramHi) && Span.apart (h.spans ++ bags ++ [e.spillSpan])
   | none => true)

/-- An entry record passes check 9 of R498, the windows of other entry points apart. -/
def State.entryOk (s : State) (d progLen : Nat) (r : Bytes) : Bool :=
  let e := parseEntry r 0
  entryFieldsOk r progLen && e.windowOk && (List.range (fld r 3 1)).all (fun k => s.groupOk d e.tiles r (groupPos r k)) &&
  (match e.hist with
   | some h => s.histOk d r e h
   | none => true) && s.placesOk e

/-- The windows of two entry points meet, and one of the two is YIELDABLE (13 R406). -/
def EntryPoint.clash (a b : EntryPoint) : Bool :=
  (a.yieldable != b.yieldable) && decide (a.sramLo < b.sramHi) && decide (b.sramLo < a.sramHi)

/-- The ENTRY sections in order of INDEX. -/
def entrySects (b : Bytes) : List Bytes :=
  (List.range (pkEntries b)).flatMap (fun i => ((sectsTy b 3).filter (fun x => x.index == i)).map (fun x => x.data b))

/-- The entry points of a package, with the program at `base`. -/
def entriesOf (b : Bytes) (base : Nat) : List EntryPoint := (entrySects b).map (fun r => parseEntry r base)

/-- The models of a den. -/
def State.modelsOf (s : State) (d : Nat) : List Model := s.models.filter (fun m => m.den == d)

/-- No window of the package clashes with one of it or of another model of the den (13 R406). -/
def State.windowsOk (s : State) (d : Nat) (es : List EntryPoint) : Bool :=
  let all := es ++ (s.modelsOf d).flatMap Model.entries
  es.all (fun a => all.all (fun b => !(a.clash b)))

/-- The lowest run of `n` free instructions in the den's program store (R499). -/
def State.freeRun (s : State) (d n : Nat) : Option Nat :=
  let used := (s.modelsOf d).map (fun m => (m.progBase, m.progLen))
  let cands := (0 :: used.map (fun p => p.1 + p.2)).filter (fun a => decide (a + n ≤ 8192) && used.all (fun p => !(meet (a, n) p)))
  cands.foldl (fun acc a => match acc with
    | some m => some (min m a)
    | none => some a) none

/-- Check 9 of R498. -/
def State.packageOk (s : State) (d : Nat) (b : Bytes) : Bool :=
  pkHeadOk b && sectsOk b && (relocsOf b).all (relocOk (progWords b)) &&
  wordsOk (progWords b) ((s.freeRun d (pkProgLen b)).getD 0) && (recsOf b 5).all (s.treqOk d) &&
  (entrySects b).all (s.entryOk d (pkProgLen b)) && s.windowsOk d (entriesOf b 0)

/-! ### Checks 10 and 11 (R498, 13 R421) -/

/-- PARAM_BASE is a multiple of 64 KiB, and the parameter region lies in the den's stripes. -/
def State.paramPlaceOk (s : State) (d base len : Nat) : Bool := decide (base % 65536 = 0) && s.inHbm d base len

/-- Bytes that the parameter region of a model may not meet: rows of VALID versions, default rows, the history directory and the
regions of other models. -/
def State.takenRegions (s : State) (d : Nat) : List (Nat × Nat) :=
  s.usedRegions d ++
  (s.tables.filter (fun p => p.2.present && p.2.den == d && p.2.defrow)).map (fun p => (p.2.defaultAddr, p.2.rowSize))

/-- The tiles of a den's set that are neither fenced nor LEAVING. -/
def State.usableTiles (s : State) (d : Nat) : Nat :=
  ((bits256 (s.den d).tiles).filter (fun t => !(s.tile t).fenced && !((s.den d).leaving.getLsbD t))).length

/-- The binding's slot is the den's. -/
def Den.hasSlot (x : Den) (p : Option (Nat × Nat)) : Bool :=
  match p with
  | some (q, c) => x.mioSlots.getLsbD (4 * q + c)
  | none => true

/-- Check 11 of R498: the resources are there. -/
def State.resourcesOk (s : State) (d base : Nat) (b : Bytes) : Bool :=
  let es := entriesOf b 0
  let n := pkParamLen b
  es.all (fun e => decide (e.tiles ≤ s.usableTiles d)) && (s.freeRun d (pkProgLen b)).isSome &&
  es.all (fun e => (s.den d).hasSlot e.bind0 && (s.den d).hasSlot e.bind1) &&
  (decide (n = 0) ||
    ((s.den d).hbm.any (fun p => decide (p.1 * 16777216 ≤ base) && decide (base + n ≤ (p.1 + p.2) * 16777216)) &&
     (s.takenRegions d).all (fun r => !(meet (base, n) r)))) &&
  decide ((s.modelsOf d).length < 16)

/-! ### MODEL_LOAD (R498, R499) -/

/-- HANDLE and PARAM_BASE of a model command. -/
abbrev cHandle (b : Bytes) : Nat := fld b 8 2
abbrev cParamBase (b : Bytes) : Nat := fld b 0x20 8

/-- MODEL_LOAD. -/
def modelLoadRow : CmdRow :=
  { mine := isOp 0x20,
    params := fun c b => [anyP 8 2, addrP c b 0x10, anyP 0x18 4, (0x20, 8, decide (fld b 0x20 8 < 2 ^ 56))],
    locks := fun _ b => denLocks b true }

/-- Checks 1 to 3. -/
def State.loadRefusal (s : State) (b : Bytes) : Option CmdRes :=
  if cHandle b = 0 ∨ 255 < cHandle b then some (badAt 8)
  else if (s.model (cDen b) (cHandle b)).isSome then some (st 0x01)
  else if fld b 0x18 4 < 256 then some (st 0x09)
  else none

/-- MODEL_LOAD: the header is read; COMMAND_DONE goes on. -/
def execModelLoad (src : CmdSrc) (s : State) : Host.Outcome State Fault Refusal :=
  .next (s.runCmd modelLoadRow src (State.begin src modelLoadRow (fun s id b =>
    match s.loadRefusal b with
    | some x => s.fin id x
    | none => s.readIn src id (fld b 0x10 8) 128)))

/-- Checks 4 to 7, on the header. -/
def headRefusal (h : Bytes) (len : Nat) : Option CmdRes :=
  if fld h 0 4 ≠ 0x4B50584A then some (st 0x07)
  else if fld h 4 2 ≠ 0xD060 ∨ fld h 6 2 ≠ 1 then some (st 0x08)
  else if pkLength h % 64 ≠ 0 ∨ pkLength h < 256 then some badData
  else if len < pkLength h then some (st 0x09)
  else none

/-- CRC of a package matches. -/
def pkCrcOk (b : Bytes) : Bool := decide ((crc32c ((b.take (pkLength b)).drop 0x80)).toNat = fld b 12 4)

/-- Checks 8 to 11, on the first reading. -/
def State.firstRefusal (s : State) (pkt b : Bytes) : Option CmdRes :=
  let d := cDen pkt
  if !(pkCrcOk b) then some (st 0x07)
  else if !(s.packageOk d b) then some badData
  else if !(s.paramPlaceOk d (cParamBase pkt) (pkParamLen b)) then some (st 0x05)
  else if !(s.resourcesOk d (cParamBase pkt) b) then some (st 0x04)
  else none

/-- An instruction word with another IMM. -/
def withImm (w : W64) (imm : Nat) : W64 := BitVec.ofNat 64 (w.toNat / 2 ^ 32 * 2 ^ 32 + imm % 2 ^ 32)

/-- Step 3 of R499 on one pair. -/
def relocate (base : Nat) (ws : List W64) (p : Nat × Nat) : List W64 :=
  let v := (iRaw (ws.getD p.2 0) * 2 ^ 32 + iRaw (ws.getD p.1 0) + base) % 2 ^ 64
  (ws.set p.1 (withImm (ws.getD p.1 0) v)).set p.2 (withImm (ws.getD p.2 0) (v / 2 ^ 32))

/-- Words stand in a program store from index `at_` on. -/
def putProg (m : SMap W64) (at_ : Nat) (ws : List W64) : SMap W64 :=
  match ws with
  | [] => m
  | w :: rest => putProg (mset 0 m at_ w) (at_ + 1) rest

/-- Tables that a package names: TABLEREQ, groups and histories (15 R501). -/
def tablesOf (b : Bytes) : List Nat :=
  (recsOf b 5).map (fun r => fld r 0 2) ++
  (entriesOf b 0).flatMap (fun e => e.groups.flatMap (fun g => g.tabs.map Prod.fst) ++
    (match e.hist with
     | some h => [h.htable]
     | none => []))

/-- Steps 1 to 5 of R499, with the program at `base`. -/
def State.loadModel (s : State) (pkt b : Bytes) (base : Nat) : State :=
  let d := cDen pkt
  let pb := cParamBase pkt
  let ws := (relocsOf b).foldl (relocate pb) (progWords b)
  let s := s.devWrite pb ((sectsTy b 4).flatMap (fun x => x.data b))
  let s := s.modDen d (fun x => { x with prog := putProg x.prog base ws })
  let m : Model := { handle := cHandle pkt, den := d, progBase := base, progLen := pkProgLen b, paramBase := pb,
                     paramLen := pkParamLen b, entries := entriesOf b base, tables := tablesOf b }
  { s with models := s.models ++ [m] }

/-- RESULT of MODEL_LOAD. -/
def loadResult (pkt b : Bytes) (base : Nat) : Bytes :=
  toLe 2 base ++ toLe 2 (pkProgLen b) ++ [0, 0, 0, 0] ++ toLe 8 (cParamBase pkt)

/-- The load itself, once the second reading has arrived: the header is the one that was checked. -/
def State.secondStep (s : State) (c : Cmd) : State :=
  let b := c.nums.map (BitVec.ofNat 8) ++ c.data.drop 128
  let base := (s.freeRun (cDen c.pkt) (pkProgLen b)).getD 0
  if !(pkCrcOk b) then s.fin c.id (st 0x07) else (s.loadModel c.pkt b base).fin c.id { result := loadResult c.pkt b base }

/-- MODEL_LOAD after a read: 0 the header, 1 the rest of the first reading, 2 the second reading. -/
def State.loadStep (s : State) (c : Cmd) : State :=
  let src := fld c.pkt 0x10 8
  let n := pkLength c.data
  let again (s : State) : State :=
    let s := s.modCmd c.id (fun y => { y with stage := 2, nums := (c.data.take 128).map BitVec.toNat, data := [] })
    s.readIn c.src c.id src n
  match c.stage with
  | 0 =>
    match headRefusal c.data (fld c.pkt 0x18 4) with
    | some x => s.fin c.id x
    | none => (s.mark c.id 1 []).readIn c.src c.id (src + 128) (n - 128)
  | 1 =>
    match s.firstRefusal c.pkt c.data with
    | some x => s.fin c.id x
    | none => again s
  | _ => s.secondStep c

/-! ### MODEL_UNLOAD and MODEL_QUERY (R494, R500) -/

/-- MODEL_UNLOAD. -/
def modelUnloadRow : CmdRow := { mine := isOp 0x21, params := fun _ _ => [anyP 8 2], locks := fun _ b => denLocks b true }

/-- The model, its bindings, its program store run and its parameter region go (R500). -/
def State.unloadModel (s : State) (m : Model) : State :=
  let s := s.modDen m.den (fun x => { x with prog := mclear x.prog m.progBase (m.progBase + m.progLen) })
  { s with models := s.models.filter (fun y => !(y.den == m.den && y.handle == m.handle)) }

/-- MODEL_UNLOAD (R500). -/
def execModelUnload (src : CmdSrc) (s : State) : Host.Outcome State Fault Refusal :=
  .next (s.runCmd modelUnloadRow src (State.quick src (fun s b =>
    match s.model (cDen b) (cHandle b) with
    | none => (badAt 8, s)
    | some m =>
      if s.reqs.any (fun r => r.den == m.den && r.model == m.handle) then (st 0x01, s) else (st 0, s.unloadModel m))))

/-- MODEL_QUERY. -/
def modelQueryRow : CmdRow := { mine := isOp 0x22, params := fun _ _ => [anyP 8 2], locks := fun _ _ => [] }

/-- RESULT of MODEL_QUERY (R494). -/
def State.modelResult (s : State) (m : Model) : Bytes :=
  toLe 2 m.progBase ++ toLe 2 m.progLen ++ toLe 1 m.entries.length ++ toLe 1 (b2n (s.modelShort m)) ++ [0, 0] ++
  toLe 8 m.paramBase ++ toLe 8 m.paramLen

/-- MODEL_QUERY (R494). -/
def execModelQuery (src : CmdSrc) (s : State) : Host.Outcome State Fault Refusal :=
  .next (s.runCmd modelQueryRow src (State.quick src (fun s b =>
    match s.model (cDen b) (cHandle b) with
    | none => (badAt 8, s)
    | some m => ({ result := s.modelResult m }, s))))

end Sys2Proof.Machine
end

