-- ==== Sys2Proof/Machine/CmdCtx.lean ====
section
/-!
DEFINITION. Context images and the Mioter family of commands (03 R86, R90 to R108, R112, R770, 15 R504).
-/

namespace Sys2Proof.Machine

/-! ### The image (R93 to R95) -/

/-- LENGTH, CRC and SECTIONS of a context image. -/
abbrev ciLength (b : Bytes) : Nat := fld b 8 4
abbrev ciSections (b : Bytes) : Nat := fld b 0x16 2

/-- A section of an image: TYPE, PE and data. -/
structure CtxSect where
  ty : Nat
  pe : Nat
  data : Bytes
  deriving DecidableEq, Repr

/-- Bytes of data that a section of a type may hold. -/
def sectLenOk (ty n : Nat) : Bool :=
  decide (n % 4 = 0) &&
  (match ty with
   | 1 => decide (n ≤ 64)
   | 2 => decide (n = 64)
   | 3 => decide (n ≤ 1024)
   | _ => false)

/-- The next `n` sections from offset `o`, and the offset after them; none when one is not in order (R95). -/
def ctxSects (b : Bytes) (n o : Nat) : Option (List CtxSect × Nat) :=
  match n with
  | 0 => some ([], o)
  | m + 1 =>
    let len := fld b (o + 4) 4
    let next := o + 8 + (len + 7) / 8 * 8
    if decide (next ≤ ciLength b) && decide (fld b (o + 2) 2 = 0) && sectLenOk (fld b o 1) len &&
        allZero (sliceB b (o + 8 + len) (next - (o + 8 + len))) then
      (ctxSects b m next).map (fun r => ({ ty := fld b o 1, pe := fld b (o + 1) 1, data := sliceB b (o + 8) len } :: r.1, r.2))
    else none

/-- A register number of an instruction of PE `p` names a queue that faces off the quadrant (R79). -/
def offEdge (p n : Nat) (dest : Bool) : Bool :=
  decide (n = 16 ∧ p % 16 = 0 ∧ dest = true) || decide (n = 17 ∧ p / 16 = 0) || decide (n = 18 ∧ p % 16 = 15) ||
  decide (n = 19 ∧ p / 16 = 15)

/-- An instruction word holds no reserved encoding for PE `p` (R79). -/
def peWordOk (p w : Nat) : Bool :=
  let d := bits w 21 5
  let a := bits w 16 5
  let b := bits w 11 5
  decide (bits w 26 6 ≤ 0x17) && decide (d ≤ 20) && decide (a ≤ 21) && decide (b ≤ 21) && !(offEdge p d true) &&
  !(offEdge p a false) && !(offEdge p b false)

/-- 32-bit words of a section. -/
def CtxSect.words (x : CtxSect) : List Nat := (List.range (x.data.length / 4)).map (fun i => fld x.data (4 * i) 4)

/-- No two sections have one type and one PE (R95). -/
def sectsUnique (l : List CtxSect) : Bool := nodupNat (l.map (fun x => 256 * x.ty + x.pe))

/-- Check 8 of R96: reserved fields, LANE_MASK, sections, instructions and padding. -/
def ctxBodyOk (b : Bytes) : Bool :=
  allZero (sliceB b 0x18 136) && decide (fld b 0x14 2 ≠ 0) &&
  (match ctxSects b (ciSections b) 256 with
   | none => false
   | some (l, o) =>
     sectsUnique l && l.all (fun x => x.ty != 1 || x.words.all (peWordOk x.pe)) && allZero (sliceB b o (ciLength b - o)))

/-- CRC matches the body (R93). -/
def ctxCrcOk (b : Bytes) : Bool := decide ((crc32c ((b.take (ciLength b)).drop 256)).toNat = fld b 12 4)

/-- SIG verifies (R94); assumption 4. -/
def ctxSigOk (b : Bytes) : Bool :=
  Config.signatureVerifies (patchB (b.take (ciLength b)) 0xA0 (List.replicate 96 0)) (sliceB b 0xA0 96)

/-- MAGIC, FAMILY and ARRAY_REV. -/
def ctxMagicOk (b : Bytes) : Bool := decide (fld b 0 4 = 0x434F494D)
def ctxFamilyOk (b : Bytes) : Bool := decide (fld b 4 2 = 0xD060) && decide (fld b 6 2 = 1)

/-- Checks 4 to 7 of R96, on the header. -/
def ctxHeadRefusal (h : Bytes) (len : Nat) : Option CmdRes :=
  if !(ctxMagicOk h) then some (st 0x07)
  else if !(ctxFamilyOk h) then some (st 0x08)
  else if ciLength h % 64 ≠ 0 ∨ ciLength h < 256 ∨ 262144 < ciLength h then some badData
  else if len < ciLength h then some (st 0x09)
  else none

/-- Checks 8 to 10 of R96. -/
def ctxBodyRefusal (b : Bytes) : Option CmdRes :=
  if !(ctxBodyOk b) then some badData
  else if !(ctxCrcOk b) then some (st 0x07)
  else if !(ctxSigOk b) then some (st 0x0A)
  else none

/-! ### Owners (R90, R770) -/

/-- The den that owns a config store entry. -/
def State.entryOwner (s : State) (e : Nat) : Option Nat := (List.range 32).find? (fun d => (s.den d).mioEnts.getLsbD e)

/-- The den that owns a context slot. -/
def State.slotOwner (s : State) (q c : Nat) : Option Nat := (List.range 32).find? (fun d => (s.den d).mioSlots.getLsbD (4 * q + c))

/-- The command's den may act on what `o` owns: its own den, or any with DEN 0xFF (R90). -/
def ownerOk (b : Bytes) (o : Option Nat) : Bool := decide (cDen b = 0xFF) || decide (o = some (cDen b))

/-- DEVICE, and the den of the command, or with DEN 0xFF the owner's, in shared mode (R770). -/
def ctxLocks (b : Bytes) (o : Option Nat) : List (LockObj × Bool) :=
  (.device, false) ::
  (match if cDen b < 32 then some (cDen b) else o with
   | some d => [(.den d, false)]
   | none => [])

/-! ### CTX_STORE (R96 to R100) -/

/-- ENTRY of a command. -/
abbrev cEntry (b : Bytes) : Nat := fld b 8 1

/-- CTX_STORE. -/
def ctxStoreRow : CmdRow :=
  { mine := isOp 0x40, params := fun c b => [maxP b 8 1 63, addrP c b 0x10, anyP 0x18 4],
    locks := fun s b => ctxLocks b (s.entryOwner (cEntry b)) ++ [(.entry (cEntry b), true)] }

/-- Checks 1 to 3 of R96. -/
def State.storeRefusal (s : State) (b : Bytes) : Option CmdRes :=
  if !(ownerOk b (s.entryOwner (cEntry b))) then some (st 0x05)
  else if s.entryLoading (cEntry b) then some (st 0x01)
  else if fld b 0x18 4 < 256 then some (st 0x09)
  else none

/-- CTX_STORE: the header is read; COMMAND_DONE goes on. -/
def execCtxStore (src : CmdSrc) (s : State) : Host.Outcome State Fault Refusal :=
  .next (s.runCmd ctxStoreRow src (State.begin src ctxStoreRow (fun s id b =>
    match s.storeRefusal b with
    | some x => s.fin id x
    | none => (s.modEntry (cEntry b) (fun y => { y with storing := some id })).readIn src id (fld b 0x10 8) 256)))

/-- A CTX_STORE ends: it no longer runs on its entry (R100). -/
def State.storeEnd (s : State) (c : Cmd) (r : CmdRes) : State :=
  (s.modEntry (cEntry c.pkt) (fun y => if y.storing = some c.id then { y with storing := none } else y)).fin c.id r

/-- The entry's image is lost (R98, R99). -/
def State.entryLost (s : State) (c : Cmd) (r : CmdRes) : State :=
  (s.modEntry (cEntry c.pkt) (fun y => { y with st := .invalid, data := [] })).storeEnd c r

/-- The second reading has arrived: it is written into the entry, or the entry becomes INVALID (R98). The image is taken with the
header that was checked. An entry that was cleared under the command is left alone (DEDUCED). -/
def State.storeSecond (s : State) (c : Cmd) : State :=
  let b := c.nums.map (BitVec.ofNat 8) ++ c.data.drop 256
  if (s.cfgEntry (cEntry c.pkt)).storing ≠ some c.id then s.fin c.id (st 0x0C)
  else if !(ctxCrcOk b) then s.entryLost c (st 0x07)
  else (s.modEntry (cEntry c.pkt) (fun y => { y with st := .valid, data := b })).storeEnd c {}

/-- CTX_STORE checks the whole image of the first reading, and reads it a second time (R96). -/
def State.storeWhole (s : State) (c : Cmd) : State :=
  match ctxBodyRefusal c.data with
  | some x => s.storeEnd c x
  | none =>
    let s := s.modCmd c.id (fun y => { y with stage := 2, nums := (c.data.take 256).map BitVec.toNat, data := [] })
    s.readIn c.src c.id (fld c.pkt 0x10 8) (ciLength c.data)

/-- CTX_STORE after a read: 0 the header, 1 the rest of the first reading, 2 the second reading. -/
def State.ctxStoreStep (s : State) (c : Cmd) : State :=
  match c.stage with
  | 0 =>
    match ctxHeadRefusal c.data (fld c.pkt 0x18 4) with
    | some x => s.storeEnd c x
    | none =>
      if ciLength c.data = 256 then s.storeWhole c
      else (s.mark c.id 1 []).readIn c.src c.id (fld c.pkt 0x10 8 + 256) (ciLength c.data - 256)
  | 1 => s.storeWhole c
  | _ => s.storeSecond c

/-- A read of CTX_STORE has failed (R99). -/
def State.ctxStoreFail (s : State) (c : Cmd) (e : Nat) : State :=
  if c.stage = 2 ∧ (s.cfgEntry (cEntry c.pkt)).storing = some c.id then s.entryLost c (st e) else s.storeEnd c (st e)

/-! ### CTX_LOAD (R101 to R103) -/

/-- QUAD and SLOT of CTX_LOAD and CTX_FREE. -/
abbrev cQuad (b : Bytes) : Nat := fld b 9 1
abbrev cSlot (b : Bytes) : Nat := fld b 0xA 1

/-- CTX_LOAD. -/
def ctxLoadRow : CmdRow :=
  { mine := isOp 0x41, params := fun _ b => [maxP b 8 1 63, maxP b 9 1 3, maxP b 0xA 1 3],
    locks := fun s b => ctxLocks b (s.slotOwner (cQuad b) (cSlot b)) ++ [(.quadrant (cQuad b), true)] }

/-- R101, in order. -/
def State.ctxLoadRefusal (s : State) (b : Bytes) : Option CmdRes :=
  let e := s.cfgEntry (cEntry b)
  if !(ownerOk b (s.slotOwner (cQuad b) (cSlot b))) || !(ownerOk b (s.entryOwner (cEntry b))) then some (st 0x05)
  else if e.storing.isSome then some (st 0x01)
  else if e.st ≠ .valid then some (st 0x07)
  else if s.slotBound (cQuad b) (cSlot b) then some (st 0x01)
  else if (s.quad (cQuad b)).loading.isSome then some (st 0x01)
  else none

/-- A slot's windows are cleared and it is LOADING, once no token of it is left (R102). -/
def State.beginLoading (s : State) (q c : Nat) : State :=
  if (s.quad q).toks.all (fun t => t.slot != c) then s.clearSlot q c .loading else s

/-- CTX_LOAD (R101, R102): CTX_LOAD_DONE ends it. -/
def execCtxLoad (src : CmdSrc) (s : State) : Host.Outcome State Fault Refusal :=
  .next (s.runCmd ctxLoadRow src (State.begin src ctxLoadRow (fun s id b =>
    match s.ctxLoadRefusal b with
    | some x => s.fin id x
    | none => (s.modQuad (cQuad b) (fun x => { x with loading := some (cSlot b, id) })).beginLoading (cQuad b) (cSlot b))))

/-- Words stand in a sparse memory from index `i` on. -/
def putWords (m : SMap W32) (i : Nat) (ws : List Nat) : SMap W32 :=
  match ws with
  | [] => m
  | w :: rest => putWords (mset 0 m i (BitVec.ofNat 32 w)) (i + 1) rest

/-- A section's data stand in the window of slot `c` (R76, R77, R95). -/
def Pe.take (p : Pe) (c : Nat) (x : CtxSect) : Pe :=
  match x.ty with
  | 1 => { p with inst := putWords p.inst (16 * c) x.words, len := mset 0 p.len c x.words.length }
  | 2 => { p with regs := putWords p.regs (16 * c) x.words }
  | _ => { p with lut := putWords p.lut (256 * c) x.words }

/-- The image stands in the windows of a slot (R102, R103). -/
def Quad.takeImage (x : Quad) (c : Nat) (b : Bytes) : Quad :=
  match ctxSects b (ciSections b) 256 with
  | some (l, _) => l.foldl (fun x y => x.modPe y.pe (fun p => p.take c y)) x
  | none => x

/-- A CTX_LOAD is over. -/
def State.loadEnd (s : State) (q id : Nat) (r : CmdRes) : State := (s.modQuad q (fun x => { x with loading := none })).fin id r

/-- The body has been written: READY, or INVALID when MAGIC, FAMILY, ARRAY_REV or CRC fail (R102). -/
def State.loadDone (s : State) (q c id e : Nat) : State :=
  let b := (s.cfgEntry e).data
  if ctxMagicOk b && ctxFamilyOk b && ctxCrcOk b then
    let s := s.modQuad q (fun x => x.takeImage c b)
    (s.modSlot q c (fun _ => { st := .ready, entry := e, laneMask := BitVec.ofNat 16 (fld b 0x14 2) })).loadEnd q id {}
  else (s.clearSlot q c .invalid).loadEnd q id (st 0x07)

/-- CTX_LOAD_DONE (R102): the load of a quadrant ends. A slot that left LOADING under the command ends it ABORTED (DEDUCED). -/
def execCtxLoadDone (quad : Nat) (s : State) : Host.Outcome State Fault Refusal :=
  .next (
    match (s.quad quad).loading with
    | none => s
    | some (c, id) =>
      if s.hub then
        let s := s.loadBegin quad
        if (s.slot quad c).st = .loading then
          match s.cmd id with
          | some k => s.loadDone quad c id (cEntry k.pkt)
          | none => s
        else if (s.quad quad).toks.all (fun t => t.slot != c) then s.loadEnd quad id (st 0x0C)
        else s
      else s)

/-! ### CTX_SELECT, CTX_FREE, CTX_QUERY (R106 to R108, 15 R504) -/

/-- CTX_SELECT. -/
def ctxSelectRow : CmdRow :=
  { mine := isOp 0x42, params := fun _ b => [anyP 8 2, anyP 0xA 2, maxP b 0xC 1 1, maxP b 0xD 1 3, maxP b 0xE 1 3],
    locks := fun _ b => denLocks b false ++ [(.quadrant (fld b 0xD 1), true)] }

/-- An entry point with another binding of a class. -/
def EntryPoint.rebind (e : EntryPoint) (be : Bool) (p : Nat × Nat) : EntryPoint :=
  if be then { e with bind1 := some p } else { e with bind0 := some p }

/-- A model with another binding of entry point `i`. -/
def Model.rebind (m : Model) (i : Nat) (be : Bool) (p : Nat × Nat) : Model :=
  { m with entries := m.entries.set i ((m.entries.getD i {}).rebind be p) }

/-- CTX_SELECT's own part (R106, R107). -/
def State.selectCtx (s : State) (b : Bytes) : CmdRes × State :=
  let q := fld b 0xD 1
  let c := fld b 0xE 1
  let o := s.slotOwner q c
  if !(ownerOk b o) then (st 0x05, s)
  else
    match o with
    | none => (badAt 8, s)
    | some d =>
      match s.model d (fld b 8 2) with
      | none => (badAt 8, s)
      | some m =>
        if m.entries.length ≤ fld b 0xA 2 then (badAt 0xA, s)
        else if (s.slot q c).st ≠ .ready then (st 0x06, s)
        else (st 0, s.modModel d m.handle (fun m => m.rebind (fld b 0xA 2) (fld b 0xC 1 == 1) (q, c)))

/-- CTX_SELECT (R106). -/
def execCtxSelect (src : CmdSrc) (s : State) : Host.Outcome State Fault Refusal :=
  .next (s.runCmd ctxSelectRow src (State.quick src State.selectCtx))

/-- CTX_FREE. -/
def ctxFreeRow : CmdRow :=
  { mine := isOp 0x43, params := fun _ b => [maxP b 9 1 3, maxP b 0xA 1 3],
    locks := fun _ b => denLocks b false ++ [(.quadrant (cQuad b), true)] }

/-- CTX_FREE's refusals (R504). -/
def State.freeRefusal (s : State) (b : Bytes) : Option CmdRes :=
  let q := cQuad b
  let c := cSlot b
  if !(ownerOk b (s.slotOwner q c)) then some (st 0x05)
  else if s.slotBound q c || (s.slot q c).st == .loading || s.slotLoading q c then some (st 0x01)
  else none

/-- The slot becomes EMPTY once its tokens have finished. -/
def State.freeStep (s : State) (c : Cmd) : State :=
  let q := cQuad c.pkt
  let i := cSlot c.pkt
  if (s.quad q).toks.all (fun t => t.slot != i) then (s.clearSlot q i .empty).fin c.id {} else s

/-- CTX_FREE (R504): COMMAND_DONE ends it when tokens are left. -/
def execCtxFree (src : CmdSrc) (s : State) : Host.Outcome State Fault Refusal :=
  .next (s.runCmd ctxFreeRow src (State.begin src ctxFreeRow (fun s id b =>
    match s.freeRefusal b with
    | some x => s.fin id x
    | none => s.onCmd id State.freeStep)))

/-- Code of a slot state (R112). -/
def SlotState.code (x : SlotState) : Nat :=
  match x with
  | .empty => 0
  | .loading => 1
  | .ready => 2
  | .invalid => 3

/-- The field group of a slot in HUB_MIOSLOT (R112). -/
def State.slotGroup (s : State) (q c : Nat) : Nat :=
  let x := s.slot q c
  let o := s.slotOwner q c
  x.st.code + 4 * (x.entry % 64) + 256 * (o.getD 0) + 8192 * b2n (s.slotBound q c) +
  16384 * b2n ((s.quad q).toks.any (fun t => t.slot == c)) + 32768 * b2n o.isSome

/-- HUB_MIOSLOT of a quadrant, with the groups that `p` picks. -/
def State.mioSlotReg (s : State) (q : Nat) (p : Nat → Bool) : Nat :=
  ((List.range 4).map (fun c => if p c then 65536 ^ c * s.slotGroup q c else 0)).sum

/-- Entries in a state, those of the command's den only, or all with DEN 0xFF. -/
def State.entryMap (s : State) (b : Bytes) (x : EntryState) : Nat :=
  ((List.range 64).map (fun e => if (s.cfgEntry e).st = x ∧ ownerOk b (s.entryOwner e) = true then 2 ^ e else 0)).sum

/-- CTX_QUERY takes no lock. -/
def ctxQueryRow : CmdRow := { mine := isOp 0x44, params := fun _ b => [maxP b 9 1 3], locks := fun _ _ => [] }

/-- CTX_QUERY (R504). -/
def execCtxQuery (src : CmdSrc) (s : State) : Host.Outcome State Fault Refusal :=
  .next (s.runCmd ctxQueryRow src (State.quick src (fun s b =>
    ({ result := toLe 8 (s.mioSlotReg (cQuad b) (fun c => ownerOk b (s.slotOwner (cQuad b) c))) ++
                 toLe 8 (s.entryMap b .valid) ++ toLe 8 (s.entryMap b .invalid) }, s))))

end Sys2Proof.Machine
end

