-- ==== Sys2Proof/Machine/CmdMaint.lean ====
section
/-!
DEFINITION. The Warren, maintenance and firmware families of commands (15 R505 to R509, 16 R518, R520, R529, R548,
06 R202 to R205, 18 R601 to R603, 21 R694, R697, R701, R715, 22 R729, R732).
-/

namespace Sys2Proof.Machine

/-! ### Warren family (15 R505) -/

/-- RESULT of WARREN_STATUS. -/
def State.warrenResult (s : State) : Bytes :=
  toLe 1 s.fab.wid ++ toLe 1 s.fab.master ++ toLe 1 s.warrenState ++ toLe 1 s.portsL0 ++ [0, 0, 0, 0] ++ toLe 8 s.wtime.toNat

/-- WARREN_STATUS (R505). -/
def execWarrenStatus (src : CmdSrc) (s : State) : Host.Outcome State Fault Refusal :=
  .next (s.runCmd (plainRow 0x50) src (State.quick src (fun s _ => ({ result := s.warrenResult }, s))))

/-- The port bytes of ROUTE_SET. -/
def cPorts (b : Bytes) : List Nat := (List.range (min 4 (fld b 9 1))).map (fun i => fld b (0xA + i) 1)

/-- ROUTE_SET. Its ports lie in LINK_MASK, which depends on the state and is checked after the locks. -/
def routeSetRow : CmdRow :=
  { mine := isOp 0x51,
    params := fun _ b => [anyP 8 1, maxP b 9 1 4, (0xA, 4, (cPorts b).all (fun p => decide (p < 24)) &&
      (List.range 4).all (fun i => decide (i < fld b 9 1) || decide (fld b (0xA + i) 1 = 0xFF)))],
    locks := fun _ _ => devShared }

/-- ROUTE_SET (R505, 16 R529). -/
def execRouteSet (src : CmdSrc) (s : State) : Host.Outcome State Fault Refusal :=
  .next (s.runCmd routeSetRow src (State.quick src (fun s b =>
    if (cPorts b).all (tbit s.boot.prof.linkMask) then
      (st 0, { s with fab := { s.fab with routes := mset [] s.fab.routes (fld b 8 1) (cPorts b) } })
    else (badAt 0xA, s))))

/-- PORT of LINK_CTRL. -/
abbrev cPort (b : Bytes) : Nat := fld b 8 1

/-- LINK_CTRL with an ACTION. -/
def linkRow (p : Nat → Bool) : CmdRow :=
  { mine := fun b => isOp 0x52 b && p (fld b 9 1), params := fun _ b => [maxP b 8 1 23, maxP b 9 1 3], locks := fun _ _ => devShared }

/-- A LINK_CTRL on a port that is not training (R505). -/
def State.onPort (s : State) (b : Bytes) (f : State → Nat → CmdRes × State) : CmdRes × State :=
  if (s.port (cPort b)).st = .training then (st 0x01, s) else f s (cPort b)

/-- The port is disabled: it goes to electrical idle, and what it queued is lost. -/
def State.disablePort (s : State) (p : Nat) : State :=
  s.modPort p (fun y => { y.goDown with st := .disabled, peerValid := false, off := true })

/-- LINK_CTRL DISABLE, and an ACTION that check 5 refuses (R505). -/
def execLinkCtrlDisable (src : CmdSrc) (s : State) : Host.Outcome State Fault Refusal :=
  .next (s.runCmd (linkRow (fun a => decide (a = 0 ∨ 3 < a))) src (State.quick src (fun s b =>
    s.onPort b (fun s p => (st 0, s.disablePort p)))))

/-- A port that LINK_CTRL had disabled may train again, when LINK_MASK has it. -/
def State.enablePort (s : State) (p : Nat) : State :=
  s.modPort p (fun y =>
    if y.st = .disabled ∧ tbit s.boot.prof.linkMask p then { y with off := false, st := .training, trainFails := 0 }
    else { y with off := false })

/-- LINK_CTRL ENABLE (R505). -/
def execLinkCtrlEnable (src : CmdSrc) (s : State) : Host.Outcome State Fault Refusal :=
  .next (s.runCmd (linkRow (fun a => decide (a = 1))) src (State.quick src (fun s b =>
    s.onPort b (fun s p => (st 0, s.enablePort p)))))

/-- A port trains anew: from L0 it keeps what it holds, as when a lane is fenced (R518, R520). A port that may not train is left
alone. -/
def State.retrainPort (s : State) (p : Nat) : State :=
  if tbit s.boot.prof.linkMask p && !(s.port p).off then
    s.modPort p (fun y =>
      if y.st = .l0 then { y with st := .training, lanes := 0, keep := true, retrains := y.retrains + 1, trainFails := 0 }
      else { y with st := .training, idStop := false, trainFails := 0, retrains := y.retrains + 1 })
  else s

/-- LINK_CTRL RETRAIN (R505, 16 R518). -/
def execLinkCtrlRetrain (src : CmdSrc) (s : State) : Host.Outcome State Fault Refusal :=
  .next (s.runCmd (linkRow (fun a => decide (a = 2))) src (State.quick src (fun s b =>
    s.onPort b (fun s p => (st 0, s.retrainPort p)))))

/-- The lane fence record of a port whose fences are lifted (21 R690). -/
def clearRecord (p : Nat) : Bytes := toLe 1 p ++ [0, 0xFF, 0]

/-- Every lane fence of a port is lifted, with its record, and the port retrains (16 R520). -/
def State.clearFences (s : State) (p : Nat) : State :=
  let s := (s.modPort p (fun y => { y with fenced := 0 })).record 0x07 (clearRecord p) none
  State.retrainPort { s with tag := { s.tag with due := true } } p

/-- LINK_CTRL CLEAR_FENCES (R505, 16 R520, 21 R701). -/
def execLinkCtrlClearFences (src : CmdSrc) (s : State) : Host.Outcome State Fault Refusal :=
  .next (s.runCmd (linkRow (fun a => decide (a = 3))) src (State.quick src (fun s b =>
    s.onPort b (fun s p => if s.ldg.canHold 0x07 (clearRecord p) then (st 0, s.clearFences p) else (st 0x0F, s)))))

/-- WARREN_SURVEY changes no state of the device and takes no lock. -/
def surveyRow : CmdRow := { mine := isOp 0x53, params := fun c b => [addrP c b 0x10], locks := fun _ _ => [] }

/-- SURVEY_Q leaves for every Warren id (16 R548). -/
def State.beginSurvey (s : State) (id : Nat) : State :=
  State.mgtAll { s with fab := { s.fab with survey := some { cmd := id, answers := [(s.fab.wid, s.surveyEntry)] } } } 0x4D [] []

/-- WARREN_SURVEY (16 R548): SURVEY_TIMEOUT ends it. -/
def execWarrenSurvey (src : CmdSrc) (s : State) : Host.Outcome State Fault Refusal :=
  .next (s.runCmd surveyRow src (State.begin src surveyRow (fun s id _ =>
    if s.fab.role ≠ 2 then s.fin id (st 0x05)
    else if s.fab.survey.isSome then s.fin id (st 0x01)
    else s.beginSurvey id)))

/-! ### MARGIN_RUN, TILE_FENCE, TILE_UNFENCE (15 R506, 06 R202 to R205, 22 R729, R732) -/

/-- STACKS and SWEEPS of MARGIN_RUN. -/
abbrev cStacks (b : Bytes) : Nat := fld b 8 1
abbrev cSweeps (b : Bytes) : Nat := fld b 9 1

/-- MARGIN_RUN. -/
def marginRow : CmdRow :=
  { mine := isOp 0x60, params := fun _ b => [anyP 8 1, maxP b 9 1 31], locks := fun _ _ => [(.device, true)] }

/-- Some den holds a stripe. -/
def State.stripesHeld (s : State) : Bool := (List.range 32).any (fun d => decide ((s.den d).stripes ≠ 0))

/-- Stacks that a MARGIN_RUN sweeps: those named that are in service. -/
def State.marginStacks (s : State) (b : Bytes) : List Nat :=
  (List.range 8).filter (fun n => tbit (cStacks b) n && !(s.stackOut n))

/-- MARGIN_RUN (06 R202): COMMAND_DONE ends it. -/
def execMarginRun (src : CmdSrc) (s : State) : Host.Outcome State Fault Refusal :=
  .next (s.runCmd marginRow src (State.begin src marginRow (fun s id b =>
    if s.stripesHeld || decide (s.pcie.retHeld ≠ 0) then s.fin id (st 0x01)
    else s.each (s.marginStacks b) (fun s n => s.modStack n (fun y => { y with margin := true })))))

/-- The contents of the swept stacks are zero (06 R204). -/
def State.zeroStacks (s : State) (l : List Nat) : State :=
  let keep (a : Nat) : Bool := !(l.contains (s.hbmPlace a).1)
  let h := s.hbm
  { s with hbm := { h with data := h.data.filter (fun c => keep c.1), bad := h.bad.filter (fun c => keep (32 * c.1)),
                           weak := h.weak.filter (fun c => keep (32 * c.1)) } }

/-- MARGIN_RUN has swept its stacks (06 R203 to R205). -/
def State.marginDone (s : State) (c : Cmd) : State :=
  let l := s.marginStacks c.pkt
  let s := s.each l (fun s n => (s.marginStack n (cSweeps c.pkt)).modStack n (fun y => { y with margin := false }))
  (s.zeroStacks l).fin c.id {}

/-- TILE of TILE_FENCE and TILE_UNFENCE, and its lock. -/
abbrev cTile (b : Bytes) : Nat := fld b 8 1

/-- A command on one tile. -/
def tileRow (op : Nat) : CmdRow :=
  { mine := isOp op, params := fun _ _ => [anyP 8 1], locks := fun _ b => [(.device, false), (.tile (cTile b), true)] }

/-- TILE_FENCE (R506, 22 R729). -/
def execTileFence (src : CmdSrc) (s : State) : Host.Outcome State Fault Refusal :=
  .next (s.runCmd (tileRow 0x61) src (State.quick src (fun s b => (st 0, s.fenceTile (cTile b) 4 0x10 none))))

/-- The record that a tile's fence has been lifted (21 R690). -/
def unfenceRecord (t : Nat) : Bytes := toLe 1 t ++ [0, 0, 0]

/-- TILE_UNFENCE (R506): the self-test runs; COMMAND_DONE brings its outcome. -/
def execTileUnfence (src : CmdSrc) (s : State) : Host.Outcome State Fault Refusal :=
  .next (s.runCmd (tileRow 0x62) src (State.begin src (tileRow 0x62) (fun s id b =>
    if !((s.tile (cTile b)).fenced) then s.fin id {}
    else if !(s.ldg.canHold 0x06 (unfenceRecord (cTile b))) then s.fin id (st 0x0F)
    else s)))

/-- The fence is lifted: the tile's count is cleared, and it stays OFF outside every set (22 R732). -/
def State.unfence (s : State) (t : Nat) : State :=
  let s := s.modTile t (fun x => { x with fenced := false })
  State.record { s with err := { s.err with recent := mset [] s.err.recent t [] }, tag := { s.tag with due := true } } 0x06
    (unfenceRecord t) none

/-- The self-test has ended (R506). -/
def State.unfenceDone (s : State) (c : Cmd) (pass : Bool) : State :=
  if pass then (s.unfence (cTile c.pkt)).fin c.id {} else s.fin c.id (st 0x10)

/-! ### LEDGER_READ, TAG_READ, DIAG_RUN (R506 to R508, 21 R694, R715) -/

/-- A DEST parameter that may be 0 from a service port (R508). -/
def destP (c : CmdSrc) (b : Bytes) : Param :=
  let a := addrP c b 0x10
  (a.1, a.2.1, a.2.2 && (c.service || decide (fld b 0x10 8 ≠ 0)))

/-- Data reach DEST: an address, EP1 IN, or DATA frames after the reply (R508, 19 R633, R651). -/
def State.sendData (s : State) (c : CmdSrc) (id dest : Nat) (bytes : Bytes) : State :=
  if dest ≠ 0 then s.writeOut c id dest bytes []
  else
    match c with
    | .uart => (s.fin id {}).uartData (bytes.length / 4096 + 1) bytes
    | _ =>
      if s.ser.ep1.isSome then s.fin id (st 0x01)
      else { s with ser := { s.ser with ep1 := some { cmd := id, out := false, data := bytes } } }

/-- LEDGER_READ takes no lock. -/
def ledgerReadRow : CmdRow :=
  { mine := isOp 0x63,
    params := fun c b => [(8, 4, decide (fld b 8 4 < 33554432)),
      (0xC, 4, decide (1 ≤ fld b 0xC 4 ∧ fld b 0xC 4 ≤ 1048576 ∧ fld b 8 4 + fld b 0xC 4 ≤ 33554432)), destP c b],
    locks := fun _ _ => [] }

/-- LEDGER_READ (R506, 21 R694). -/
def execLedgerRead (src : CmdSrc) (s : State) : Host.Outcome State Fault Refusal :=
  .next (s.runCmd ledgerReadRow src (State.begin src ledgerReadRow (fun s id b =>
    s.sendData src id (fld b 0x10 8) (s.ldg.read (fld b 8 4) (fld b 0xC 4)))))

/-- TAG_READ takes no lock. -/
def tagReadRow : CmdRow :=
  { mine := isOp 0x65,
    params := fun c b => [maxP b 8 2 2047, (0xA, 2, decide (1 ≤ fld b 0xA 2 ∧ fld b 8 2 + fld b 0xA 2 ≤ 2048)), destP c b],
    locks := fun _ _ => [] }

/-- TAG_READ (R506, 21 R715). -/
def execTagRead (src : CmdSrc) (s : State) : Host.Outcome State Fault Refusal :=
  .next (s.runCmd tagReadRow src (State.begin src tagReadRow (fun s id b =>
    if s.tag.rf = true ∧ 1984 < fld b 8 2 + fld b 0xA 2 then s.fin id (st 0x01)
    else s.sendData src id (fld b 0x10 8) (memRead s.tag.mem (4 * fld b 8 2) (4 * fld b 0xA 2)))))

/-- UNIT of DIAG_RUN. -/
abbrev cUnit (b : Bytes) : Nat := fld b 8 1
/-- INDEX of DIAG_RUN. -/
abbrev cIndex (b : Bytes) : Nat := fld b 9 1

/-- Largest INDEX of a unit (R507). -/
def unitMax (u : Nat) : Nat := [255, 63, 7, 31, 23].getD u 255

/-- DIAG_RUN. -/
def diagRow : CmdRow :=
  { mine := isOp 0x64, params := fun _ b => [maxP b 8 1 4, maxP b 9 1 (unitMax (cUnit b))],
    locks := fun _ b => (.device, false) :: (if cUnit b = 0 then [(.tile (cIndex b), true)] else []) }

/-- The unit is in use (R507). -/
def State.unitInUse (s : State) (u i : Nat) : Bool :=
  match u with
  | 0 => !(s.tile i).fenced && (s.tileDen i).isSome
  | 2 => s.stripesHeld
  | 4 => decide ((s.port i).st ≠ .disabled)
  | _ => !(s.limp || (List.range 32).all (fun d => decide ((s.den d).st ≠ .active)))

/-- DIAG_RUN (R507): COMMAND_DONE brings its outcome. -/
def execDiagRun (src : CmdSrc) (s : State) : Host.Outcome State Fault Refusal :=
  .next (s.runCmd diagRow src (State.begin src diagRow (fun s id b =>
    if s.unitInUse (cUnit b) (cIndex b) then s.fin id (st 0x01) else s)))

/-- The test has ended: a pass or a failure, and the vendor's code (R507). -/
def State.diagDone (s : State) (c : Cmd) (result : Bytes) : State :=
  let pass := fld result 0 1 = 1
  s.fin c.id { result := toLe 4 (b2n pass) ++ sliceB result 1 4 }

/-! ### Firmware family (R509, 18 R602, R603, 21 R697, R701) -/

/-- Locks of FW_STAGE, FW_ACTIVATE and FW_COMMIT. -/
abbrev fwLocks : List (LockObj × Bool) := [(.device, false), (.firmware, true)]

/-- FW_STAGE. -/
def fwStageRow : CmdRow :=
  { mine := isOp 0x70, params := fun c b => [addrP c b 0x10, anyP 0x18 4], locks := fun _ _ => fwLocks }

/-- FW_STAGE: the header is read, or EP1 OUT opens for all LEN bytes (R509, 19 R651). -/
def execFwStage (src : CmdSrc) (s : State) : Host.Outcome State Fault Refusal :=
  .next (s.runCmd fwStageRow src (State.begin src fwStageRow (fun s id b =>
    if fld b 0x18 4 < 256 then s.fin id (st 0x09)
    else if fld b 0x10 8 ≠ 0 then s.readIn src id (fld b 0x10 8) 256
    else if s.ser.ep1.isSome then s.fin id (st 0x01)
    else
      let s := s.mark id 1 []
      { s with ser := { s.ser with ep1 := some { cmd := id, out := true, want := fld b 0x18 4 } } })))

/-- The bank that is not running. -/
def State.otherBank (s : State) : Nat := 1 - s.boot.bank % 2

/-- A status of R602 as a reply: BAD_PARAM names data that was read. -/
def imageRes (e : Nat) : CmdRes := if e = 0x03 then badData else st e

/-- An FW_WEAR record, and the bank's 96 sectors are erased (21 R697). -/
def State.eraseBank (s : State) (k : Nat) : State :=
  let n := mget 0 s.ldg.fwErases k + 1
  let s := s.record 0x05 (toLe 1 k ++ [0, 0, 0] ++ toLe 4 n) none
  let l := s.ldg
  { s with ldg := { l with fwErases := mset 0 l.fwErases k n, flash := mclear l.flash (bankAt k) (bankAt (k + 1)) } }

/-- FW_STAGE's steps: 0 the header, 1 the whole image, 2 the erase has ended (18 R602, 21 R697). -/
def State.fwStep (s : State) (c : Cmd) : State :=
  let len := fld c.data 8 4
  match c.stage with
  | 0 =>
    match imageHead c.data (fld c.pkt 0x18 4) with
    | some e => s.fin c.id (imageRes e)
    | none => (s.mark c.id 1 []).readIn c.src c.id (fld c.pkt 0x10 8 + 256) (len - 256)
  | 1 =>
    match imageCheck c.data s.boot.fuseRoll with
    | some e => s.fin c.id (imageRes e)
    | none =>
      if 100000 ≤ mget 0 s.ldg.fwErases s.otherBank then s.fin c.id (st 0x0F) else (s.eraseBank s.otherBank).mark c.id 2 []
  | _ => State.fin { s with ldg := s.ldg.program (bankAt s.otherBank) (c.data.take len) } c.id {}

/-- FW_ACTIVATE. -/
def fwActivateRow : CmdRow := { mine := isOp 0x71, params := fun _ b => [maxP b 8 1 1], locks := fun _ _ => fwLocks }

/-- A firmware activation record with CAUSE FW_ACTIVATE (21 R690). -/
def State.activateRecord (s : State) (k : Nat) : Bytes :=
  toLe 1 k ++ [0, 0, 0] ++ toLe 4 (s.ldg.bankVersion k) ++ toLe 4 (s.ldg.bankSec k)

/-- FW_ACTIVATE (R509, 21 R701). -/
def execFwActivate (src : CmdSrc) (s : State) : Host.Outcome State Fault Refusal :=
  .next (s.runCmd fwActivateRow src (State.quick src (fun s b =>
    let k := fld b 8 1
    if s.bankOk k = false then (st 0x07, s)
    else if s.ldg.canHold 0x04 (s.activateRecord k) = false then (st 0x0F, s)
    else (st 0, s.record 0x04 (s.activateRecord k) none))))

/-- RESULT of FW_QUERY (R509). -/
def State.fwResult (s : State) : Bytes :=
  toLe 1 s.boot.bank ++ toLe 1 s.ldg.firstChoice ++ toLe 1 (b2n (s.bankOk 0) + 2 * b2n (s.bankOk 1)) ++ [0] ++
  toLe 4 (s.ldg.bankVersion 0) ++ toLe 4 (s.ldg.bankVersion 1) ++ toLe 4 s.boot.fuseRoll

/-- FW_QUERY (R509). -/
def execFwQuery (src : CmdSrc) (s : State) : Host.Outcome State Fault Refusal :=
  .next (s.runCmd (plainRow 0x72) src (State.quick src (fun s _ => ({ result := s.fwResult }, s))))

/-- FW_COMMIT. -/
def fwCommitRow : CmdRow := { mine := isOp 0x73, params := fun _ _ => [], locks := fun _ _ => fwLocks }

/-- FW_COMMIT (R509). -/
def execFwCommit (src : CmdSrc) (s : State) : Host.Outcome State Fault Refusal :=
  .next (s.runCmd fwCommitRow src (State.quick src (fun s _ =>
    (st 0, { s with boot := { s.boot with fuseRoll := max s.boot.fuseRoll s.boot.secVersion } }))))

/-! ### Commands that run over time end (R483) -/

/-- P2P_PROBE ends: 0x11 for every failure but a revoked access (14 R460). -/
def State.probeDone (s : State) (c : Cmd) : State :=
  match c.fail with
  | none => s.fin c.id {}
  | some e => s.fin c.id (st (if e = 0x0B then 0x0B else 0x11))

/-- The step of a DEN_CONFIG that waits. -/
def State.configStep (s : State) (c : Cmd) : State :=
  match cSel c.pkt with
  | 0 => s.tilesStep c
  | 1 => if c.got then s.hbmStep c else s
  | 2 => s.waysStep c
  | 3 => s.mioterStep c
  | _ => s

/-- The step of a running command whose reads have not failed; `result` is the outcome of a test. -/
def State.cmdStep (s : State) (c : Cmd) (result : Bytes) : State :=
  if c.stage = 9 then (if c.got then s.fin c.id { result := c.nums.map (BitVec.ofNat 8) } else s)
  else
    match cOp c.pkt with
    | 0x04 => if c.got then s.storeProfile c else s
    | 0x06 => s.scrubRetained.fin c.id {}
    | 0x07 => if c.got then s.probeDone c else s
    | 0x11 => s.configStep c
    | 0x13 => (s.destroyDen (cDen c.pkt)).fin c.id {}
    | 0x16 => if c.got then s.attachStep c else s
    | 0x20 => if c.got then s.loadStep c else s
    | 0x30 => if c.got then s.createStep c else s
    | 0x40 => if c.got then s.ctxStoreStep c else s
    | 0x43 => s.freeStep c
    | 0x60 => s.marginDone c
    | 0x62 => s.unfenceDone c (fld result 0 1 = 1)
    | 0x64 => s.diagDone c result
    | 0x70 => if c.got then s.fwStep c else s
    | _ => s

/-- A read, a write or EP1 has failed a running command (R481, R485). -/
def State.cmdFail (s : State) (c : Cmd) (e : Nat) : State :=
  match cOp c.pkt with
  | 0x07 => s.probeDone c
  | 0x16 => s.attachStep c
  | 0x40 => s.ctxStoreFail c e
  | _ => s.fin c.id (st e)

/-- COMMAND_DONE (R483): a running command takes its next step. -/
def execCommandDone (id : Nat) (result : Bytes) (s : State) : Host.Outcome State Fault Refusal :=
  .next (
    match s.cmd id with
    | none => s
    | some c =>
      if s.hub ∨ s.boot.mode = 3 then
        match c.fail with
        | some e => s.cmdFail c e
        | none => s.cmdStep c result
      else s)

end Sys2Proof.Machine
end

