-- ==== Sys2Proof/Machine/TileAlu.lean ====
section
/-!
DEFINITION. Tile instructions of the sequencer alone: arithmetic, constants, special values, branches, END, TRAP and YIELD
(08 R254, R256, R257, R281, 13 R408, R409).
-/

namespace Sys2Proof.Machine

/-- An instruction that computes SD from registers and its word. -/
def State.alu (s : State) (t op : Nat) (regs : W64 → List Nat) (v : Tile → W64 → W64) : State :=
  s.issue t op regs (fun s w _ => s.setReg t (iSd w) (v (s.tile t) w))

/-- Registers of SD ← SA op SB. -/
def regsDAB (w : W64) : List Nat := [iSd w, iSa w, iSb w]
/-- Registers of SD ← SA op IMM. -/
def regsDA (w : W64) : List Nat := [iSd w, iSa w]
/-- Register of SD ← IMM. -/
def regsD (w : W64) : List Nat := [iSd w]
/-- Registers of a branch or a store. -/
def regsAB (w : W64) : List Nat := [iSa w, iSb w]

/-- SA. -/
def Tile.a (x : Tile) (w : W64) : W64 := x.getS (iSa w)
/-- SB. -/
def Tile.b (x : Tile) (w : W64) : W64 := x.getS (iSb w)
/-- SC. -/
def Tile.c (x : Tile) (w : W64) : W64 := x.getS (iSc w)

/-- Shift count: SB & 63 when SUB = 0, IMM & 63 when SUB = 1. -/
def Tile.shiftBy (x : Tile) (w : W64) : Nat := (if iSub w = 0 then x.b w else iImm w).toNat % 64

/-- A truth value in a register. -/
def w64Of (b : Bool) : W64 := if b then 1 else 0

/-- NOP. -/
def execTNop (tile : Nat) (s : State) : Host.Outcome State Fault Refusal :=
  .next (s.issue tile 0x00 (fun _ => []) (fun s _ _ => s.advance tile))

/-- ADD: SD ← SA + SB, modulo 2^64. -/
def execTAdd (tile : Nat) (s : State) : Host.Outcome State Fault Refusal :=
  .next (s.alu tile 0x01 regsDAB (fun x w => x.a w + x.b w))

/-- ADDI. -/
def execTAddi (tile : Nat) (s : State) : Host.Outcome State Fault Refusal :=
  .next (s.alu tile 0x02 regsDA (fun x w => x.a w + iImm w))

/-- SUB. -/
def execTSub (tile : Nat) (s : State) : Host.Outcome State Fault Refusal :=
  .next (s.alu tile 0x03 regsDAB (fun x w => x.a w - x.b w))

/-- MUL: the low 64 bits. -/
def execTMul (tile : Nat) (s : State) : Host.Outcome State Fault Refusal :=
  .next (s.alu tile 0x04 regsDAB (fun x w => x.a w * x.b w))

/-- AND. -/
def execTAnd (tile : Nat) (s : State) : Host.Outcome State Fault Refusal :=
  .next (s.alu tile 0x05 regsDAB (fun x w => x.a w &&& x.b w))

/-- OR. -/
def execTOr (tile : Nat) (s : State) : Host.Outcome State Fault Refusal :=
  .next (s.alu tile 0x06 regsDAB (fun x w => x.a w ||| x.b w))

/-- XOR. -/
def execTXor (tile : Nat) (s : State) : Host.Outcome State Fault Refusal :=
  .next (s.alu tile 0x07 regsDAB (fun x w => x.a w ^^^ x.b w))

/-- ANDI. -/
def execTAndi (tile : Nat) (s : State) : Host.Outcome State Fault Refusal :=
  .next (s.alu tile 0x08 regsDA (fun x w => x.a w &&& iImm w))

/-- Registers of a shift. -/
def regsShift (w : W64) : List Nat := if iSub w = 0 then regsDAB w else regsDA w

/-- SHL. -/
def execTShl (tile : Nat) (s : State) : Host.Outcome State Fault Refusal :=
  .next (s.alu tile 0x09 regsShift (fun x w => x.a w <<< x.shiftBy w))

/-- SHR: logical. -/
def execTShr (tile : Nat) (s : State) : Host.Outcome State Fault Refusal :=
  .next (s.alu tile 0x0A regsShift (fun x w => x.a w >>> x.shiftBy w))

/-- SRA: arithmetic. -/
def execTSra (tile : Nat) (s : State) : Host.Outcome State Fault Refusal :=
  .next (s.alu tile 0x0B regsShift (fun x w => (x.a w).sshiftRight (x.shiftBy w)))

/-- SLT: signed. -/
def execTSlt (tile : Nat) (s : State) : Host.Outcome State Fault Refusal :=
  .next (s.alu tile 0x0C regsDAB (fun x w => w64Of ((x.a w).slt (x.b w))))

/-- SLTU: unsigned. -/
def execTSltu (tile : Nat) (s : State) : Host.Outcome State Fault Refusal :=
  .next (s.alu tile 0x0D regsDAB (fun x w => w64Of ((x.a w).ult (x.b w))))

/-- MIN: signed. -/
def execTMin (tile : Nat) (s : State) : Host.Outcome State Fault Refusal :=
  .next (s.alu tile 0x0E regsDAB (fun x w => if (x.b w).slt (x.a w) then x.b w else x.a w))

/-- MAX: signed. -/
def execTMax (tile : Nat) (s : State) : Host.Outcome State Fault Refusal :=
  .next (s.alu tile 0x0F regsDAB (fun x w => if (x.a w).slt (x.b w) then x.b w else x.a w))

/-- LI. -/
def execTLi (tile : Nat) (s : State) : Host.Outcome State Fault Refusal :=
  .next (s.alu tile 0x10 regsD (fun _ w => iImm w))

/-- LIH: SD ← SA[31:0] | (IMM << 32). -/
def execTLih (tile : Nat) (s : State) : Host.Outcome State Fault Refusal :=
  .next (s.alu tile 0x11 regsDA (fun x w => (x.a w &&& 0xFFFFFFFF#64) ||| (iImm w <<< 32)))

/-- A special value that the state holds: 0 tile id, 1 Warren time, 3 task id, 4 den, 5 Warren id (R254). -/
def State.special (s : State) (t d n : Nat) : W64 :=
  match n with
  | 0 => BitVec.ofNat 64 t
  | 1 => s.wtime
  | 3 => (s.tile t).taskId.setWidth 64
  | 4 => BitVec.ofNat 64 d
  | _ => BitVec.ofNat 64 s.fab.wid

/-- RDSR: special value 2, the TCLK since task start, is left open (assumption 1). -/
def State.readSpecial (s : State) (t d : Nat) (w : W64) : State :=
  if iRaw w = 2 then
    let v := s.free 64
    v.2.setReg t (iSd w) v.1
  else s.setReg t (iSd w) (s.special t d (iRaw w))

/-- RDSR. -/
def execTRdsr (tile : Nat) (s : State) : Host.Outcome State Fault Refusal :=
  .next (s.issue tile 0x12 regsD (fun s w r => s.readSpecial tile r.den w))

/-- A branch: PC ← PC + IMM when the condition holds, else the next instruction. -/
def State.branch (s : State) (t op : Nat) (cond : W64 → W64 → Bool) : State :=
  s.issue t op regsAB (fun s w _ =>
    if cond ((s.tile t).a w) ((s.tile t).b w) then s.goto t (branchTarget (s.tile t).pc w) else s.advance t)

/-- BEQ. -/
def execTBeq (tile : Nat) (s : State) : Host.Outcome State Fault Refusal :=
  .next (s.branch tile 0x20 (fun a b => a == b))

/-- BNE. -/
def execTBne (tile : Nat) (s : State) : Host.Outcome State Fault Refusal :=
  .next (s.branch tile 0x21 (fun a b => a != b))

/-- BLT: signed. -/
def execTBlt (tile : Nat) (s : State) : Host.Outcome State Fault Refusal :=
  .next (s.branch tile 0x22 (fun a b => a.slt b))

/-- BGE: signed. -/
def execTBge (tile : Nat) (s : State) : Host.Outcome State Fault Refusal :=
  .next (s.branch tile 0x23 (fun a b => !(a.slt b)))

/-- JAL: SD ← PC + 1; PC ← PC + IMM. -/
def State.jal (s : State) (t : Nat) (w : W64) : State :=
  let pc := (s.tile t).pc
  (s.modTile t (fun x => x.setS (iSd w) (BitVec.ofNat 64 (pc + 1)))).goto t (branchTarget pc w)

/-- JAL. -/
def execTJal (tile : Nat) (s : State) : Host.Outcome State Fault Refusal :=
  .next (s.issue tile 0x24 regsD (fun s w _ => s.jal tile w))

/-- JR: PC ← SA; an index outside the program store aborts with PROG_RANGE (R257). -/
def execTJr (tile : Nat) (s : State) : Host.Outcome State Fault Refusal :=
  .next (s.issue tile 0x25 (fun w => [iSa w]) (fun s w _ => s.goto tile ((s.tile tile).a w).toNat))

/-- END (R281): the tile drains; TILE_END_REPORT follows. -/
def execTEnd (tile : Nat) (s : State) : Host.Outcome State Fault Refusal :=
  .next (s.issue tile 0x26 (fun _ => []) (fun s _ _ => s.modTile tile (fun x => { x with seq := .ending, stall := 7 })))

/-- TRAP (R254, R282): USER_TRAP with IMM[15:0] as the trap code. -/
def execTTrap (tile : Nat) (s : State) : Host.Outcome State Fault Refusal :=
  .next (s.issue tile 0x27 (fun _ => []) (fun s w _ => s.tileFault tile 0x0C (iRaw w % 65536) 0 false false))

/-- A tile parks: it drains as END does, with the instruction after YIELD next (13 R408). At index 8,191 that instruction
lies outside the program store (R257). -/
def State.parkAt (s : State) (t : Nat) : State :=
  if (s.tile t).pc < 8191 then s.modTile t (fun x => { x with seq := .parked, stall := 7, pc := x.pc + 1 }) else s.advance t

/-- YIELD (13 R408, R409): parks while yield demand is raised on a yieldable task; otherwise a NOP. -/
def execTYield (tile : Nat) (s : State) : Host.Outcome State Fault Refusal :=
  .next (s.issue tile 0x28 (fun _ => []) (fun s _ r => if r.demand ∧ s.yieldable r then s.parkAt tile else s.advance tile))

end Sys2Proof.Machine
end

