-- ==== Sys2Proof/Machine/TileMem.lean ====
section
/-!
DEFINITION. Tile instructions that access memory: local loads and stores, global loads and stores, atomics, FENCE, and the
completion of a global access (08 R255, R258 to R263).
-/

namespace Sys2Proof.Machine

/-- Address SA + IMM, modulo 2^64. -/
def Tile.addr (x : Tile) (w : W64) : Nat := (x.a w + iImm w).toNat

/-- Access size of SUB (R255). -/
def accSize (w : W64) : Nat := 2 ^ (iSub w % 4)

/-- The value of a load of `n` bytes, sign-extended or not (R255). -/
def extend (n : Nat) (sext : Bool) (b : Bytes) : W64 :=
  let v := BitVec.ofNat 64 (fld b 0 n)
  let k := 64 - 8 * n
  if sext then (v <<< k).sshiftRight k else v

/-- A local address at which a load or store of `n` bytes may act (R258). -/
def localOk (a n : Nat) : Bool := decide (a < sramSize) && decide (a % n = 0)

/-- LDS: SD ← SRAM at SA + IMM. -/
def State.lds (s : State) (t : Nat) (w : W64) : State :=
  let a := (s.tile t).addr w
  let n := accSize w
  if localOk a n then s.withSram t a n (fun s b => s.setReg t (iSd w) (extend n (tbit (iSub w) 2) b))
  else s.tileFault t 0x02 0 (a / 128) false false

/-- LDS. -/
def execTLds (tile : Nat) (s : State) : Host.Outcome State Fault Refusal :=
  .next (s.issue tile 0x30 regsDA (fun s w _ => s.lds tile w))

/-- After a write that may have raised SRAM_UNCORR the sequencer goes on only when its task does. -/
def State.advanceIfRunning (s : State) (t : Nat) : State := if (s.tile t).seq = .running then s.advance t else s

/-- STS: SRAM at SA + IMM ← the low bytes of SB. -/
def State.sts (s : State) (t : Nat) (w : W64) : State :=
  let a := (s.tile t).addr w
  let n := accSize w
  if localOk a n then (s.sramWrite t a (toLe n ((s.tile t).b w).toNat)).advanceIfRunning t
  else s.tileFault t 0x02 0 (a / 128) false false

/-- STS. -/
def execTSts (tile : Nat) (s : State) : Host.Outcome State Fault Refusal :=
  .next (s.issue tile 0x31 regsAB (fun s w _ => s.sts tile w))

/-- LDG: device memory at SA + IMM to SD. -/
def State.loadG (s : State) (t : Nat) (w : W64) (r : Req) : State :=
  let a := (s.tile t).addr w
  let n := accSize w
  if a % n ≠ 0 then s.tileFault t 0x04 0 0 false false
  else s.globalAcc t r (.ldg (iSd w) n (tbit (iSub w) 2)) a n [] none

/-- LDG. -/
def execTLdg (tile : Nat) (s : State) : Host.Outcome State Fault Refusal :=
  .next (s.issue tile 0x34 regsDA (fun s w r => s.loadG tile w r))

/-- STG: device memory at SA + IMM ← the low bytes of SB. -/
def State.storeG (s : State) (t : Nat) (w : W64) (r : Req) : State :=
  let a := (s.tile t).addr w
  let n := accSize w
  if a % n ≠ 0 then s.tileFault t 0x04 0 0 false false
  else s.globalAcc t r .stg a n (toLe n ((s.tile t).b w).toNat) none

/-- STG. -/
def execTStg (tile : Nat) (s : State) : Host.Outcome State Fault Refusal :=
  .next (s.issue tile 0x35 regsAB (fun s w r => s.storeG tile w r))

/-- The checks of a 64-byte move: 1 alignment, 2 the SRAM operand (R259). -/
def State.blockMove (s : State) (t : Nat) (w : W64) (f : Nat → Nat → State) : State :=
  let a := (s.tile t).addr w
  let l := ((s.tile t).b w).toNat
  if a % 64 ≠ 0 ∨ l % 64 ≠ 0 then s.tileFault t 0x04 0 (l / 128) false false
  else if sramSize < l + 64 then s.tileFault t 0x02 0 (l / 128) false false
  else f a l

/-- LDGB: 64 bytes from device address SA + IMM to SRAM at SB. -/
def execTLdgb (tile : Nat) (s : State) : Host.Outcome State Fault Refusal :=
  .next (s.issue tile 0x36 regsAB (fun s w r => s.blockMove tile w (fun a l => s.globalAcc tile r (.ldgb l) a 64 [] none)))

/-- STGB: 64 bytes from SRAM at SB to device address SA + IMM. -/
def execTStgb (tile : Nat) (s : State) : Host.Outcome State Fault Refusal :=
  .next (s.issue tile 0x37 regsAB (fun s w r => s.blockMove tile w (fun a l => s.globalAcc tile r .stgb a 64 [] (some l))))

/-- R166 permits an atomic of a tile: one for another device is checked by its owner. -/
def atomPermitted (op fmt lanes a : Nat) : Bool :=
  match space a with
  | .hbm | .scratch _ => atomExtent op fmt lanes a != 0
  | .remote _ _ => true
  | .sram _ _ | .store | .host _ | .hole => false

/-- One that R166 refuses at the own Warren id fails as the owner would have answered (16 R514). -/
def State.atomLocalOk (s : State) (op fmt lanes a : Nat) : Bool :=
  match space a with
  | .remote w o => w != s.fab.wid || atomExtent op fmt lanes o != 0
  | _ => true

/-- ATOMV (R262): IMM[3:0] FMT, IMM[9:4] lanes minus 1, IMM[10] RET. -/
def State.atomv (s : State) (t : Nat) (w : W64) (r : Req) : State :=
  let a := ((s.tile t).a w).toNat
  let b := ((s.tile t).b w).toNat
  let c := ((s.tile t).c w).toNat
  let fmt := bits (iRaw w) 0 4
  let lanes := bits (iRaw w) 4 6 + 1
  let ret := tbit (iRaw w) 10
  let n := lanes * atomLane fmt
  if sramSize < b + n then s.tileFault t 0x02 0 (b / 128) false false
  else if ret ∧ sramSize < c + n then s.tileFault t 0x02 0 (c / 128) false false
  else if ¬ atomPermitted (iSub w) fmt lanes a then s.tileFault t 0x06 0 0 false false
  else if ¬ s.atomLocalOk (iSub w) fmt lanes a then s.tileFault t 0x03 0 0 false false
  else s.globalAcc t r (.atomv (iSub w) fmt lanes ret c) a n [] (some b)

/-- ATOMV. -/
def execTAtomv (tile : Nat) (s : State) : Host.Outcome State Fault Refusal :=
  .next (s.issue tile 0x38 (fun w => [iSa w, iSb w, iSc w]) (fun s w r => s.atomv tile w r))

/-- ATOMS (R262): CAS64 compares with SB and writes SC; SWAP64 writes SC; SD receives the old value. -/
def State.atoms (s : State) (t : Nat) (w : W64) (r : Req) : State :=
  let a := ((s.tile t).a w).toNat
  let new := toLe 8 ((s.tile t).c w).toNat
  let data := if iSub w = 4 then toLe 8 ((s.tile t).b w).toNat ++ new else new
  if ¬ atomPermitted (iSub w) 0 1 a then s.tileFault t 0x06 0 0 false false
  else if ¬ s.atomLocalOk (iSub w) 0 1 a then s.tileFault t 0x03 0 0 false false
  else s.globalAcc t r (.atoms (iSub w) (iSd w)) a 8 data none

/-- ATOMS. -/
def execTAtoms (tile : Nat) (s : State) : Host.Outcome State Fault Refusal :=
  .next (s.issue tile 0x39 (fun w => [iSd w, iSa w, iSb w, iSc w]) (fun s w r => s.atoms tile w r))

/-- FENCE (R263): stalls until every earlier global access has been applied. -/
def execTFence (tile : Nat) (s : State) : Host.Outcome State Fault Refusal :=
  .next (s.issue tile 0x3A (fun _ => []) (fun s _ _ => if s.fenced tile then s.advance tile else s.stallAt tile 9))

/-- What a served access brings to its tile (R254, R262). -/
def State.deliverAcc (s : State) (t : Nat) (k : AccKind) (b : Bytes) : State :=
  match k with
  | .ldg sd n sext => s.modTile t (fun x => x.setS sd (extend n sext b))
  | .ldgb a => s.sramWrite t a (padB 64 b)
  | .atomv _ fmt n ret c => if ret then s.sramWrite t c (padB (n * atomLane fmt) b) else s
  | .atoms _ sd => s.modTile t (fun x => x.setS sd (BitVec.ofNat 64 (fld b 0 8)))
  | .stg | .stgb => s

/-- A global access ends: its data reach the tile, or its failure or poison aborts the task; an aborting tile discards
them (R263, R283, 22 R725). -/
def State.endAcc (s : State) (t : Nat) (g : GAcc) : State :=
  let rest (x : Tile) : Tile := { x with accs := x.accs.filter (fun y => y.id != g.id) }
  match g.st with
  | .issued => s
  | .failed c => (s.modTile t rest).tileFault t c 0 0 false false
  | .served b poison =>
    let s := s.modTile t rest
    if (s.tile t).seq = .aborting then s
    else if poison then s.tileFault t 0x0F 0 0 true false
    else s.deliverAcc t g.kind b

/-- GLOBAL_ACCESS_DONE (R256, R263). -/
def execGlobalAccessDone (tile acc : Nat) (s : State) : Host.Outcome State Fault Refusal :=
  .next (
    match (s.tile tile).accs.find? (fun g => g.id == acc) with
    | some g => if s.hub then s.endAcc tile g else s
    | none => s)

end Sys2Proof.Machine
end

