-- ==== Sys2Proof/Machine/TileSync.lean ====
section
/-!
DEFINITION. Tile instructions that synchronise: engine queues, semaphores, quills, barriers and HNEXT, and the delivery of
a quill (08 R265 to R280, 12 R381).
-/

namespace Sys2Proof.Machine

/-! ### Engine queues (R265, R276) -/

/-- Queue `q` of a tile: 0 MQ, 1 VQ, 2 RQ, 3 SQ_0, 4 SQ_1. -/
def Tile.queue (x : Tile) (q : Nat) : List Bytes := mget [] x.engq q

/-- Append a descriptor to a queue. -/
def Tile.place (x : Tile) (q : Nat) (b : Bytes) : Tile := { x with engq := mset [] x.engq q (x.queue q ++ [b]) }

/-- LEN of the descriptor at an SRAM address, at least the 8 bytes of its header. -/
def Tile.descLen (x : Tile) (a : Nat) : Nat := max 8 (leNat (Machine.memRead x.sram (a + 4) 2))

/-- EXEC: copies the descriptor at SA to the tail of queue SUB; stalls while the queue is full. -/
def State.placeDesc (s : State) (t : Nat) (w : W64) : State :=
  let a := ((s.tile t).a w).toNat
  let n := (s.tile t).descLen a
  if a % 16 ≠ 0 ∨ sramSize ≤ a ∨ sramSize < a + n then s.tileFault t 0x02 0 (a / 128) false false
  else if 8 ≤ ((s.tile t).queue (iSub w)).length then s.stallAt t 2
  else s.withSram t a n (fun s b => (s.modTile t (fun x => x.place (iSub w) b)).advance t)

/-- EXEC. -/
def execTExec (tile : Nat) (s : State) : Host.Outcome State Fault Refusal :=
  .next (s.issue tile 0x40 (fun w => [iSa w]) (fun s w _ => s.placeDesc tile w))

/-- WAITE: waits until queue SUB holds at most IMM descriptors. -/
def execTWaite (tile : Nat) (s : State) : Host.Outcome State Fault Refusal :=
  .next (s.issue tile 0x41 (fun _ => []) (fun s w _ =>
    if ((s.tile tile).queue (iSub w)).length ≤ iRaw w then s.advance tile else s.stallAt tile 6))

/-! ### Semaphores (R269) -/

/-- SEMPOST: SEM IMM[3:0] ← SEM + 1; above 255 SEM_OVERFLOW. -/
def execTSempost (tile : Nat) (s : State) : Host.Outcome State Fault Refusal :=
  .next (s.issue tile 0x42 (fun _ => []) (fun s w _ => (s.postSem tile (iRaw w % 16)).advanceIfRunning tile))

/-- SEMWAIT: waits until the semaphore is above zero and no older wait stands before it, then decrements it. -/
def State.semwait (s : State) (t n : Nat) : State :=
  if (s.tile t).semFree n 0 then (s.modTile t (fun x => x.semTake n 0)).advance t
  else (s.modTile t (fun x => x.semQueue n 0)).stallAt t 3

/-- SEMWAIT. -/
def execTSemwait (tile : Nat) (s : State) : Host.Outcome State Fault Refusal :=
  .next (s.issue tile 0x43 (fun _ => []) (fun s w _ => s.semwait tile (iRaw w % 16)))

/-- SEMRD: SD ← SEM IMM[3:0]. -/
def execTSemrd (tile : Nat) (s : State) : Host.Outcome State Fault Refusal :=
  .next (s.alu tile 0x44 regsD (fun x w => BitVec.ofNat 64 (mget 0 x.sems (iRaw w % 16))))

/-! ### Quills (R272 to R278) -/

/-- REMOTE of a quill's destination. -/
def qRemote (v : Nat) : Bool := tbit v 16

/-- The destination of a QSEND is one that it may name (R272, R277): a placed index of the task, or a tile of a device; a
standalone device reaches only itself. -/
def State.quillDestOk (s : State) (r : Req) (v : Nat) : Bool :=
  decide (v < 2 ^ 17) &&
  (if qRemote v then decide (bits v 8 8 = s.fab.wid) || decide (s.fab.role ≠ 0)
   else decide (bits v 8 8 = 0) && decide (bits v 0 8 < r.tiles.length))

/-- The quill passes over Ifesil. -/
def State.quillLeaves (s : State) (v : Nat) : Bool := qRemote v && bits v 8 8 != s.fab.wid

/-- The source that a quill carries: the sender's placed index, or its tile id with the Warren id and REMOTE = 1 (R275,
16 R541). -/
def State.quillSrc (s : State) (t : Nat) (v : Nat) : W64 :=
  if qRemote v then BitVec.ofNat 64 (t + 256 * s.fab.wid + 65536) else BitVec.ofNat 64 (s.tile t).placed

/-- Place 64 bytes of SRAM in the send queue, with their marks; a mark has no place in a message to another device, so there
the read aborts the task (22 R724, R725). -/
def State.sendQuill (s : State) (t : Nat) (r : Req) (v l c : Nat) : State :=
  if s.quillLeaves v ∧ (s.tile t).marked (granulesOf l 64) ∧ ¬ (s.tile t).eccAny (granulesOf l 64) 2 then
    s.tileFault t 0x0F 0 (l / 128) true false
  else
    let p := s.sramCarry t l 64
    match p.1 with
    | none => p.2
    | some b =>
      let q : Quill := { src := p.2.quillSrc t v, data := b, poison := (p.2.tile t).marks64 l }
      (p.2.modTile t (fun x => { x with sendq := x.sendq ++ [{ req := r.id, dest := BitVec.ofNat 64 v, chan := c, quill := q }] })).advance t

/-- QSEND: sends the 64 bytes at SRAM address SB to destination SA on channel SUB. -/
def State.qsend (s : State) (t : Nat) (w : W64) (r : Req) : State :=
  let l := ((s.tile t).b w).toNat
  let v := ((s.tile t).a w).toNat
  if sramSize < l + 64 then s.tileFault t 0x02 0 (l / 128) false false
  else if ¬ s.quillDestOk r v then s.tileFault t 0x09 0 0 false false
  else if 4 ≤ (s.tile t).sendq.length then s.stallAt t 8
  else s.sendQuill t r v l (iSub w)

/-- QSEND. -/
def execTQsend (tile : Nat) (s : State) : Host.Outcome State Fault Refusal :=
  .next (s.issue tile 0x50 regsAB (fun s w r => s.qsend tile w r))

/-- The oldest quill of a channel leaves it: from a port slot, or from the spill region (R275). none = an uncorrectable error
in the spill region. -/
def State.takeQuill (s : State) (t c : Nat) (h : HeldQuill) (e : EntryPoint) : Option Quill × State :=
  let drop (x : Tile) : Tile := { x with chans := mset [] x.chans c (mget [] x.chans c).tail }
  match h.spill with
  | none => (some h.quill, s.modTile t drop)
  | some n =>
    let a := e.spillOff + 64 * n
    let p := s.sramCarry t a 64
    match p.1 with
    | none => (none, p.2)
    | some b => (some { h.quill with data := b, poison := (p.2.tile t).marks64 a }, p.2.modTile t drop)

/-- QRECV: takes the oldest quill of channel SUB to SRAM at SB; SD ← its source. -/
def State.qrecv (s : State) (t : Nat) (w : W64) (r : Req) : State :=
  let l := ((s.tile t).b w).toNat
  if l % 64 ≠ 0 ∨ sramSize < l + 64 then s.tileFault t 0x02 0 (l / 128) false false
  else
    match mget [] (s.tile t).chans (iSub w) with
    | [] => s.stallAt t 4
    | h :: _ =>
      let p := s.takeQuill t (iSub w) h (s.entryOf r)
      match p.1 with
      | none => p.2
      | some q => (p.2.modTile t (fun x => x.putMarked l (padB 64 q.data) q.poison)).setReg t (iSd w) q.src

/-- QRECV. -/
def execTQrecv (tile : Nat) (s : State) : Host.Outcome State Fault Refusal :=
  .next (s.issue tile 0x51 (fun w => [iSd w, iSb w]) (fun s w r => s.qrecv tile w r))

/-- Channels of a mask that hold quills. -/
def Tile.chanMask (x : Tile) (mask : Nat) : Nat :=
  ((List.range 16).filter (fun c => tbit mask c && !(mget [] x.chans c).isEmpty)).foldl (fun v c => v + 2 ^ c) 0

/-- QWAIT: SD ← the non-empty channels within IMM[15:0]; waits for one unless SUB = 1. -/
def State.qwait (s : State) (t : Nat) (w : W64) : State :=
  let m := (s.tile t).chanMask (iRaw w)
  if m = 0 ∧ iSub w ≠ 1 then s.stallAt t 4 else s.setReg t (iSd w) (BitVec.ofNat 64 m)

/-- QWAIT. -/
def execTQwait (tile : Nat) (s : State) : Host.Outcome State Fault Refusal :=
  .next (s.issue tile 0x52 regsD (fun s w _ => s.qwait tile w))

/-- A quill that has left the send queue arrives, or is lost for want of a route (R273, R274, R277). -/
def State.carryQuill (s : State) (t : Nat) (r : Req) (x : SentQuill) : State :=
  let v := x.dest.toNat
  if ¬ qRemote v then
    match r.tiles[bits v 0 8]? with
    | some u => s.putQuill u x.chan x.quill
    | none => s
  else if bits v 8 8 = s.fab.wid then s.remoteQuill r.den (bits v 0 8) x.chan x.quill
  else
    match s.send (s.mkMsg 0x15 (bits v 8 8) r.den 0 0 (toLe 1 (bits v 0 8) ++ toLe 1 x.chan ++ toLe 1 t) x.quill.data) with
    | some u => u
    | none => s.fault 0x0302 (mkLoc 1 t (some r.den) false 0)

/-- QUILL_DELIVER (R273 to R278): the oldest quill of a tile's send queue crosses the mesh. -/
def execQuillDeliver (tile : Nat) (s : State) : Host.Outcome State Fault Refusal :=
  .next (
    match s.holder tile, (s.tile tile).sendq with
    | some r, x :: rest =>
      if s.hub then (s.modTile tile (fun y => { y with sendq := rest })).carryQuill tile r x else s
    | _, _ => s)

/-! ### Barriers (R279, R280) -/

/-- Every tile that arrived at a barrier goes on. -/
def State.releaseBarrier (s : State) (id n : Nat) (l : List Nat) : State :=
  let s := s.modReq id (fun x => { x with barriers := mset {} x.barriers n {} })
  s.each l (fun s u => (s.modTile u (fun x => { x with barrier := none, stall := 0 })).advance u)

/-- An arrival at barrier `n` with expected count `k`: one that differs from the first of its generation, or lies outside 1
to the tile count, aborts the task (R280). -/
def State.arriveAt (s : State) (t : Nat) (r : Req) (n k : Nat) : State :=
  let b := mget ({} : BarrierSt) r.barriers n
  if k = 0 ∨ r.tiles.length < k ∨ (b.tiles ≠ [] ∧ b.expected ≠ k) then s.tileFault t 0x0B 0 0 false false
  else
    let l := b.tiles ++ [t]
    let s := s.modReq r.id (fun x => { x with barriers := mset {} x.barriers n { expected := k, tiles := l } })
    let s := s.modTile t (fun x => { x with barrier := some n, stall := 5 })
    if k ≤ l.length then s.releaseBarrier r.id n l else s

/-- BARRIER: completes the effect of FENCE, then arrives at barrier SUB with expected count SA, and waits for its release. -/
def execTBarrier (tile : Nat) (s : State) : Host.Outcome State Fault Refusal :=
  .next (
    if (s.tile tile).barrier.isSome then s
    else s.issue tile 0x53 (fun w => [iSa w]) (fun s w r =>
      if s.fenced tile then s.arriveAt tile r (iSub w) ((s.tile tile).a w).toNat else s.stallAt tile 9))

/-! ### HNEXT (12 R381) -/

/-- Buffer `b` holds a chunk that has been posted and not released. -/
def Tile.hbuf (x : Tile) (b : Nat) : Bool := if b = 0 then x.hbuf0 else x.hbuf1

/-- HNEXT: releases history buffer SUB; one that names no posted chunk is discarded and logged. -/
def State.hnext (s : State) (t : Nat) (w : W64) : State :=
  if (s.tile t).hbuf (iSub w) then (s.modTile t (fun x => x.setBuf (iSub w) false)).advance t
  else (s.fault 0x0402 (s.tileLoc t 0)).advance t

/-- HNEXT. -/
def execTHnext (tile : Nat) (s : State) : Host.Outcome State Fault Refusal :=
  .next (s.issue tile 0x60 (fun _ => []) (fun s w _ => s.hnext tile w))

end Sys2Proof.Machine
end

