-- ==== Sys2Proof/Machine/Flags.lean ====
section
/-!
DEFINITION. TIL_NUMSTAT: what the engines of a tile note in it, and a descriptor's header with its semaphores
(02 R62, R64, R66, R70, R71, 08 R266 to R269, R271).
-/

namespace Sys2Proof.Machine

/-- The six sticky bits of TIL_NUMSTAT for what happened (02 R71). -/
def NumEv.bits (e : NumEv) : BitVec 6 :=
  BitVec.ofNat 6 (b2n e.nanSeen + 2 * b2n e.infSeen + 4 * b2n e.satFp + 8 * b2n e.satInt + 16 * b2n e.nanLost + 32 * b2n e.accWrap)

/-- TIL_NUMSTAT takes what an engine noted; SAT_COUNT stops at 0xFFFF_FFFF (02 R71). -/
def Tile.note (x : Tile) (e : NumEv) : Tile :=
  { x with numstat := x.numstat ||| e.bits, satCount := satAdd x.satCount e.satCount }

/-- Everything that a list of events holds. -/
def joinEvs (l : List NumEv) : NumEv := l.foldl NumEv.join {}

/-- A NaN is read or produced (02 R66). -/
def evNan (v : W32) : NumEv := { nanSeen := decF32 v == .nan }

/-- An infinity is written as a result (02 R66). -/
def evInf (v : W32) : NumEv :=
  { infSeen := match decF32 v with
      | .inf _ => true
      | .nan | .fin _ _ _ => false }

/-- INT8 and INT4 saturate as in 10 R322; true marks SAT_INT. -/
def intToFmt (fmt : Nat) (x : Int) : Nat × NumEv :=
  let r := clampInt fmt x
  ((BitVec.ofInt (elemBits fmt) r.1).toNat, { satInt := r.2 })

/-- A chain value converted to the bits of a format: R61 for a float into a float, R64 between floats and integers, R322 between
integers (10 R326). -/
def toFmt (fmt : Nat) (isInt : Bool) (v : W32) : Nat × NumEv :=
  match ffmtOf fmt with
  | some f => if isInt then encodeF f (fofInt v.toInt) else encodeF f (decF32 v)
  | none =>
    if isInt then intToFmt fmt v.toInt
    else
      let r := floatToInt fmt (decF32 v)
      (r.1.toNat % 2 ^ elemBits fmt, r.2)

/-! ### A descriptor's header (08 R266 to R269, R271) -/

/-- ENG, LEN and the reserved fields of a header are as the queue asks. -/
def headerOk (b : Bytes) (eng len : Nat) : Bool :=
  decide (fld b 0 1 = eng) && decide (fld b 1 1 < 4) && decide (fld b 2 1 < 16) && decide (fld b 3 1 < 16) &&
  decide (fld b 4 2 = len) && decide (fld b 6 2 = 0) && decide (b.length = len)

/-- WAIT and its semaphore. -/
def hWait (b : Bytes) : Bool := tbit (fld b 1 1) 0
/-- POST and its semaphore. -/
def hPost (b : Bytes) : Bool := tbit (fld b 1 1) 1
/-- WAIT_SEM. -/
def hWaitSem (b : Bytes) : Nat := fld b 2 1 % 16
/-- POST_SEM. -/
def hPostSem (b : Bytes) : Nat := fld b 3 1 % 16

/-- The WAIT condition of a descriptor of queue `q` holds (R268, R269). -/
def Tile.mayStart (x : Tile) (q : Nat) (b : Bytes) : Bool := !(hWait b) || x.semFree (hWaitSem b) (q + 1)

/-- A descriptor of queue `q` starts: its WAIT semaphore is decremented. -/
def Tile.took (x : Tile) (q : Nat) (b : Bytes) : Tile := if hWait b then x.semTake (hWaitSem b) (q + 1) else x

/-- A descriptor at the head of queue `q` waits on its semaphore. -/
def Tile.waits (x : Tile) (q : Nat) (b : Bytes) : Tile := if hWait b then x.semQueue (hWaitSem b) (q + 1) else x

/-- A descriptor completes: it leaves its queue. -/
def Tile.leave (x : Tile) (q : Nat) : Tile := { x with engq := mset [] x.engq q (x.queue q).tail }

/-- The engine refuses a descriptor (R271). -/
def State.descBadFault (s : State) (t : Nat) : State := s.tileFault t 0x07 0 0 false false

/-- The engines of a tile work: its task runs and the hub's clocks do (08 R268, R283). -/
def State.engineOn (s : State) (t : Nat) : Bool :=
  match s.holder t with
  | some r => s.hub && r.phase == .running && ((s.tile t).seq == .running || (s.tile t).seq == .ending || (s.tile t).seq == .parked)
  | none => false

/-- POST_SEM of a descriptor that has completed (R268). -/
def State.postOf (s : State) (t : Nat) (b : Bytes) : State := if hPost b ∧ s.engineOn t then s.postSem t (hPostSem b) else s

/-- Granules that an engine has written in part are read through ECC (R247). -/
def State.partCheck (s : State) (t : Nat) (l : List (Nat × Nat)) : State :=
  l.foldl (fun s p =>
    let g := partGranules p.1 p.2
    let s := s.correctSram t p.1 g
    if (s.tile t).eccAny g 2 then s.storageUncorr t p.1 else s) s

/-- Den of the task on a tile. -/
def State.denOf (s : State) (t : Nat) : Nat :=
  match s.holder t with
  | some r => r.den
  | none => 0

/-- An engine-time counter takes the TCLK of a pass, which the model leaves open (13 R418, assumption 1). -/
def State.engineTime (s : State) (d c : Nat) : State :=
  let v := s.free 64
  v.2.count d c v.1.toNat

/-- Start the descriptor that is next in queue `q` of a tile, `k` being started already: refused with DESC_BAD, aborted with
SRAM_RANGE, waiting on its semaphore, or started as `f` says (R268, R271). -/
def State.startDesc (s : State) (t q k : Nat) (ok : Tile → Bytes → Bool) (inSram : Bytes → Bool) (f : State → Bytes → State) : State :=
  match ((s.tile t).queue q)[k]? with
  | none => s
  | some b =>
    if ¬ s.engineOn t then s
    else if ¬ ok (s.tile t) b then s.descBadFault t
    else if ¬ inSram b then s.tileFault t 0x02 0 0 false false
    else if (s.tile t).mayStart q b then f (s.modTile t (fun x => x.took q b)) b
    else s.modTile t (fun x => x.waits q b)

/-- Every listed run of SRAM bytes reads without an uncorrectable error and without poison; else the fault has been raised. -/
def State.readsOk (s : State) (t : Nat) (l : List (Nat × Nat)) : Bool × State :=
  match l with
  | [] => (true, s)
  | (a, n) :: rest =>
    let r := s.sramRead t a n
    match r.1 with
    | some _ => r.2.readsOk t rest
    | none => (false, r.2)

end Sys2Proof.Machine
end

