-- ==== Sys2Proof/Machine/Matrix.lean ====
section
/-!
DEFINITION. The matrix array: the checks of a descriptor, the weight state, the sums of a pass for integers and floats, and
where they land (02 R56 to R59, 09).
-/

namespace Sys2Proof.Machine

/-! ### Fields of a descriptor (R311) -/

/-- AFMT. -/
abbrev mxAfmt (b : Bytes) : Nat := fld b 0x8 1
/-- WFMT. -/
abbrev mxWfmt (b : Bytes) : Nat := fld b 0x9 1
/-- ACC. -/
abbrev mxAcc (b : Bytes) : Bool := tbit (fld b 0xA 1) 0
/-- WLOAD: 0 KEEP, 1 BULK, 2 FRONT. -/
abbrev mxWload (b : Bytes) : Nat := bits (fld b 0xA 1) 1 2
/-- DST. -/
abbrev mxDst (b : Bytes) : Nat := fld b 0xB 1
/-- M. -/
abbrev mxM (b : Bytes) : Nat := fld b 0xC 2
/-- K. -/
abbrev mxK (b : Bytes) : Nat := fld b 0xE 2
/-- N. -/
abbrev mxN (b : Bytes) : Nat := fld b 0x10 2
/-- DST_ROW. -/
abbrev mxRow (b : Bytes) : Nat := fld b 0x12 2

/-- Formats of the 4-bit rate (02 R57). -/
def fourBit (fmt : Nat) : Bool := fmt == 6 || fmt == 7 || fmt == 9

/-- The pass runs in M4 (R296, 02 R57). -/
def mxM4 (b : Bytes) : Bool := fourBit (mxAfmt b) && fourBit (mxWfmt b)

/-- Either operand is MX. -/
def mxIsMx (b : Bytes) : Bool := isMx (mxAfmt b) || isMx (mxWfmt b)

/-! ### Checks (R312, R313) -/

/-- Reserved bits and encodings of a matrix descriptor. -/
def mxZeros (b : Bytes) : Bool :=
  headerOk b 1 64 && decide (fld b 0xA 1 < 8) && decide (mxWload b ≠ 3) && decide (mxDst b < 4) && allZero (sliceB b 0x30 16)

/-- Ranges of M, K, N, DST_ROW and DST for the mode. -/
def mxRanges (b : Bytes) : Bool :=
  decide (1 ≤ mxM b ∧ mxM b ≤ 128) && decide (1 ≤ mxK b ∧ mxK b ≤ 128) &&
  decide (1 ≤ mxN b ∧ mxN b ≤ (if mxM4 b then 512 else 128)) && decide (mxRow b + mxM b ≤ 128) &&
  (!(mxM4 b) || mxDst b == 0)

/-- Alignments of R311. -/
def mxAligned (b : Bytes) : Bool :=
  decide (fld b 0x14 4 % 16 = 0) && decide (fld b 0x18 4 % 16 = 0) &&
  (mxWload b == 0 || (decide (fld b 0x1C 4 % 16 = 0) && decide (fld b 0x20 4 % 16 = 0))) &&
  (!(isMx (mxAfmt b)) || decide (fld b 0x24 4 % 4 = 0)) &&
  (!(isMx (mxWfmt b)) || mxWload b == 0 || (decide (fld b 0x28 4 % 16 = 0) && decide (fld b 0x2C 4 % 16 = 0) &&
    decide (mxN b ≤ fld b 0x2C 4)))

/-- KEEP finds the weights it names (R307, R312). -/
def WeightState.fits (w : WeightState) (b : Bytes) : Bool := w.valid && w.wfmt == mxWfmt b && w.k == mxK b && w.n == mxN b

/-- The matrix array accepts a descriptor (R312). -/
def mxOk (x : Tile) (b : Bytes) : Bool :=
  mxZeros b && matFmtOk (mxAfmt b) && matFmtOk (mxWfmt b) && isIntFmt (mxAfmt b) == isIntFmt (mxWfmt b) && mxRanges b &&
  mxAligned b && (!(mxIsMx b) || decide (mxK b % 32 = 0)) && (mxWload b != 0 || x.weights.fits b)

/-- Address of activation vector `m`, with its bytes. -/
def mxActAt (b : Bytes) (m : Nat) : Nat × Nat := (fld b 0x14 4 + m * fld b 0x18 4, packedBytes (mxAfmt b) (mxK b))

/-- Address of weight row `i`, with its bytes. -/
def mxRowAt (b : Bytes) (i : Nat) : Nat × Nat := (fld b 0x1C 4 + i * fld b 0x20 4, packedBytes (mxWfmt b) (mxN b))

/-- Activation scales of vector `m`. -/
def mxActScaleAt (b : Bytes) (m : Nat) : Nat × Nat := (fld b 0x24 4 + 4 * m, mxK b / 32)

/-- Weight scales of block `k`. -/
def mxScaleAt (b : Bytes) (k : Nat) : Nat × Nat := (fld b 0x28 4 + k * fld b 0x2C 4, mxN b)

/-- Runs of SRAM that the activations of a pass occupy. -/
def mxActRuns (b : Bytes) : List (Nat × Nat) :=
  (List.range (mxM b)).map (mxActAt b) ++ (if isMx (mxAfmt b) then (List.range (mxM b)).map (mxActScaleAt b) else [])

/-- Runs of SRAM that a load reads; none with KEEP. -/
def mxLoadRuns (b : Bytes) : List (Nat × Nat) :=
  if mxWload b = 0 then []
  else (List.range (mxK b)).map (mxRowAt b) ++ (if isMx (mxWfmt b) then (List.range (mxK b / 32)).map (mxScaleAt b) else [])

/-- Runs of SRAM bytes lie below 0x40_0000. -/
def runsIn (l : List (Nat × Nat)) : Bool := l.all (fun p => decide (p.1 + p.2 ≤ sramSize))

/-! ### Weights (R302, R303, R307) -/

/-- The weight state after the load of a descriptor. -/
def Tile.loadWeights (x : Tile) (b : Bytes) : WeightState :=
  if mxWload b = 0 then x.weights
  else
    let get (p : Nat × Nat) : Bytes := Machine.memRead x.sram p.1 p.2
    { valid := true, wfmt := mxWfmt b, k := mxK b, n := mxN b, rows := (List.range (mxK b)).map (fun i => get (mxRowAt b i)),
      scales := if isMx (mxWfmt b) then (List.range (mxK b / 32)).map (fun k => get (mxScaleAt b k)) else [] }

/-- A pass has started: its weights are those of its load. -/
def Tile.startPass (x : Tile) (b : Bytes) : Tile :=
  let w := x.loadWeights b
  { x with weights := w, passes := x.passes ++ [{ desc := b, w := w }] }

/-- MATRIX_PASS_START (R308): at most one descriptor waits started behind the running pass. -/
def execMatrixPassStart (tile : Nat) (s : State) : Host.Outcome State Fault Refusal :=
  .next (
    if (s.tile tile).passes.length < 2 then
      s.startDesc tile 0 (s.tile tile).passes.length mxOk (fun b => runsIn (mxActRuns b ++ mxLoadRuns b)) (fun s b =>
        let r := s.readsOk tile (mxLoadRuns b)
        if r.1 then r.2.modTile tile (fun x => x.startPass b) else r.2)
    else s)

/-! ### Sums (R298 to R300, 02 R58, R59) -/

/-- Weight of row `i`, column `c`: the bits of its element. -/
def WeightState.at_ (w : WeightState) (i c : Nat) : Nat := elemAt w.wfmt (w.rows.getD i []) c

/-- Scale byte of weight block `k`, column `c`; 127 when the weights are not MX. -/
def WeightState.scale (w : WeightState) (k c : Nat) : Nat := if isMx w.wfmt then (byteAt (w.scales.getD k []) c).toNat else 127

/-- The integer sum of one output. -/
def dotInt (afmt k : Nat) (a : Bytes) (w : WeightState) (c : Nat) : Int :=
  (List.range k).foldl (fun p i => p + (widenElem afmt (elemAt afmt a i)).toInt * (widenElem w.wfmt (w.at_ i c)).toInt) 0

/-- The exact value of an element; MX elements without their scale. -/
def elemVal (fmt v : Nat) : FVal :=
  match ffmtOf fmt with
  | some f => decodeF f v
  | none => .nan

/-- One step of the loop of R59: the sum of the block, and the sum of the blocks. -/
def dotStep (afmt : Nat) (a sa : Bytes) (w : WeightState) (c : Nat) (mx : Bool) (p : W32 × W32) (i : Nat) : W32 × W32 :=
  let sum := rndF32 (faddX (decF32 p.1) (fmulX (elemVal afmt (elemAt afmt a i)) (elemVal w.wfmt (w.at_ i c))))
  if mx ∧ i % 32 = 31 then
    let ea := if isMx afmt then (byteAt sa (i / 32)).toNat else 127
    let ew := w.scale (i / 32) c
    let q : W32 := if ea = 0xFF ∨ ew = 0xFF then 0x7FC00000#32 else rndF32 (fscale (decF32 sum) ((ea : Int) + ew - 254))
    (0, f32add p.2 q)
  else (sum, p.2)

/-- The floating-point sum of one output. -/
def dotF (afmt k : Nat) (a sa : Bytes) (w : WeightState) (c : Nat) (mx : Bool) : W32 :=
  let r := (List.range k).foldl (dotStep afmt a sa w c mx) (0, 0)
  if mx then r.2 else r.1

/-- One output added to what its position holds, with what TIL_NUMSTAT notes. -/
def mxResult (b : Bytes) (a sa : Bytes) (w : WeightState) (c : Nat) (old : W32) : W32 × NumEv :=
  if isIntFmt (mxAfmt b) then
    let x := (if mxAcc b then old.toInt else 0) + dotInt (mxAfmt b) (mxK b) a w c
    let v := BitVec.ofInt 32 x
    (v, { accWrap := decide (v.toInt ≠ x) })
  else
    let v := f32add (if mxAcc b then old else 0) (dotF (mxAfmt b) (mxK b) a sa w c (mxIsMx b))
    (v, (evNan v).join (evInf v))

/-- Number of the position that output column `c` of vector `m` goes to (R299). -/
def mxPlace (b : Bytes) (m c : Nat) : Nat :=
  let bank := if mxM4 b then c / 128 else mxDst b
  16384 * (4 + bank) + 128 * (mxRow b + m) + c % 128

/-- Some NaN element stands among the operands that the pass reads (02 R66, R314). -/
def mxReadsNan (b : Bytes) (x : Tile) (w : WeightState) : Bool :=
  !(isIntFmt (mxAfmt b)) &&
  ((List.range (mxM b)).any (fun m =>
      let a := Machine.memRead x.sram (mxActAt b m).1 (mxActAt b m).2
      (List.range (mxK b)).any (fun i => elemVal (mxAfmt b) (elemAt (mxAfmt b) a i) == .nan)) ||
   (List.range (mxK b)).any (fun i => (List.range (mxN b)).any (fun c => elemVal w.wfmt (w.at_ i c) == .nan)))

/-- The writes of one vector of a pass. -/
def Tile.passRow (x : Tile) (p : MxPass) (m : Nat) : Tile :=
  let b := p.desc
  let a := Machine.memRead x.sram (mxActAt b m).1 (mxActAt b m).2
  let sa := if isMx (mxAfmt b) then Machine.memRead x.sram (mxActScaleAt b m).1 (mxActScaleAt b m).2 else []
  (List.range (mxN b)).foldl (fun y c =>
    let r := mxResult b a sa p.w c (mget 0 y.tregs (mxPlace b m c))
    Tile.note { y with tregs := mset 0 y.tregs (mxPlace b m c) r.1 } r.2) x

/-- Every write of a pass, and its completion in MQ and TIL_MXCNT. -/
def Tile.finishPass (x : Tile) (p : MxPass) (stall : W32) : Tile :=
  let y := (List.range (mxM p.desc)).foldl (fun y m => y.passRow p m) x
  let y := y.note { nanSeen := mxReadsNan p.desc x p.w }
  { y.leave 0 with passes := y.passes.tail, mxPasses := y.mxPasses + 1, mxStall := y.mxStall + stall }

/-- A pass ends: its results are in the banks and its semaphore is posted (R305, R309). -/
def State.endPass (s : State) (t : Nat) (p : MxPass) : State :=
  let r := s.readsOk t (mxActRuns p.desc)
  if r.1 then
    let v := r.2.free 32
    let s := (v.2.modTile t (fun x => x.finishPass p v.1)).engineTime (v.2.denOf t) cMatrix
    s.postOf t p.desc
  else r.2

/-- MATRIX_PASS_DONE (R309). -/
def execMatrixPassDone (tile : Nat) (s : State) : Host.Outcome State Fault Refusal :=
  .next (
    match (s.tile tile).passes with
    | p :: _ => if s.engineOn tile then s.endPass tile p else s
    | [] => s)

end Sys2Proof.Machine
end

