-- ==== Sys2Proof/Machine/Operands.lean ====
section
/-!
DEFINITION. Operand forms of the vector engine and the reduction unit: a block in tile registers or in SRAM, how an element of
it is read, where an element of the destination is written, and the overlap rule (10 R318, R319, R326 to R328).
-/

namespace Sys2Proof.Machine

/-- A located operand: its FMT, whether it lies in tile registers, its address field, stride and shape. -/
structure Opnd where
  fmt : Nat := 0
  reg : Bool := false
  addr : Nat := 0
  stride : Nat := 0
  rows : Nat := 1
  cols : Nat := 1
  /-- scale bytes of an MX operand -/
  scaleAt : Nat := 0
  deriving DecidableEq, Repr

/-- First register of a register operand. -/
abbrev oReg (a : Nat) : Nat := bits a 0 3
/-- First entry. -/
abbrev oEntry (a : Nat) : Nat := bits a 8 7
/-- First position. -/
abbrev oPos (a : Nat) : Nat := bits a 16 7

/-- Bytes of one row in SRAM. -/
def Opnd.rowBytes (o : Opnd) : Nat := packedBytes o.fmt o.cols

/-- A format that the engines read and write (02 R47). -/
def vecFmtOk (fmt : Nat) : Bool := decide (fmt ≤ 10)

/-- A register operand stays within T0 to T7 and its entries, and its address field holds nothing else (R318). -/
def Opnd.regOk (o : Opnd) : Bool :=
  decide (oReg o.addr + 2 ^ 8 * oEntry o.addr + 2 ^ 16 * oPos o.addr = o.addr) &&
  decide (oReg o.addr + (oPos o.addr + o.cols - 1) / 128 ≤ 7) && decide (oEntry o.addr + o.rows ≤ 128) && !(isMx o.fmt)

/-- An MX operand: its columns form whole blocks, and its scales lie at a multiple of 4 (R319, R326). -/
def Opnd.mxOk (o : Opnd) : Bool := !(isMx o.fmt) || (decide (o.cols % 32 = 0 ∧ o.cols ≤ 128) && decide (o.scaleAt % 4 = 0))

/-- A source operand is permitted (R318, R319). -/
def Opnd.srcOk (o : Opnd) : Bool :=
  vecFmtOk o.fmt && o.mxOk && (if o.reg then o.regOk else decide (o.addr % 16 = 0) && decide (o.stride % 16 = 0)) &&
  (isMx o.fmt || o.scaleAt == 0)

/-- SRAM address of a row. -/
def Opnd.rowAt (o : Opnd) (r : Nat) : Nat := o.addr + r * o.stride

/-- Number of the position of element (r, c) of a register operand (R318). -/
def Opnd.posOf (o : Opnd) (r c : Nat) : Nat :=
  16384 * (oReg o.addr + (oPos o.addr + c) / 128) + 128 * (oEntry o.addr + r) + (oPos o.addr + c) % 128

/-- Values of the operand are INT32 rather than FP32 (R319). -/
def Opnd.isInt (o : Opnd) : Bool := isIntFmt o.fmt

/-- Element (r, c) as FP32 or INT32 (R318, R319). -/
def Opnd.read (o : Opnd) (x : Tile) (r c : Nat) : W32 :=
  if o.reg then mget 0 x.tregs (o.posOf r c)
  else
    let raw := elemAt o.fmt (Machine.memRead x.sram (o.rowAt r) o.rowBytes) c
    if isMx o.fmt then
      (match ffmtOf o.fmt with
       | some f => mxWiden f raw (memGet x.sram (o.scaleAt + 4 * r + c / 32)).toNat
       | none => 0)
    else widenElem o.fmt raw

/-- Runs of SRAM that reading the operand touches. -/
def Opnd.runs (o : Opnd) : List (Nat × Nat) :=
  if o.reg then []
  else (List.range o.rows).map (fun r => (o.rowAt r, o.rowBytes)) ++
    (if isMx o.fmt then (List.range o.rows).map (fun r => (o.scaleAt + 4 * r, o.cols / 32)) else [])

/-- The SRAM bytes that the rows span, from the first to the last. -/
def Opnd.span (o : Opnd) : Nat × Nat := (o.addr, (o.rows - 1) * o.stride + o.rowBytes)

/-- Two runs of bytes share a byte. -/
def runsMeet (a b : Nat × Nat) : Bool := decide (a.1 < b.1 + b.2) && decide (b.1 < a.1 + a.2)

/-- Two register operands share an entry of a register. -/
def regsMeet (a b : Opnd) : Bool :=
  let lastA := oReg a.addr + (oPos a.addr + a.cols - 1) / 128
  let lastB := oReg b.addr + (oPos b.addr + b.cols - 1) / 128
  decide (oReg a.addr ≤ lastB) && decide (oReg b.addr ≤ lastA) &&
  decide (oEntry a.addr < oEntry b.addr + b.rows) && decide (oEntry b.addr < oEntry a.addr + a.rows)

/-- The destination lies exactly on a source, in place (R327). -/
def inPlace (d x : Opnd) : Bool :=
  d.reg == x.reg && d.addr == x.addr && d.rows == x.rows && d.cols == x.cols &&
  (d.reg || (d.stride == x.stride && elemBits d.fmt == elemBits x.fmt))

/-- The destination does not overlap a source but in place (R327). -/
def Opnd.clearOf (d x : Opnd) : Bool :=
  inPlace d x || (if d.reg ∧ x.reg then !(regsMeet d x) else if !d.reg ∧ !x.reg then !(runsMeet d.span x.span) else true)

/-- The destination does not overlap any of the regions: parameters, records, scale bytes (R327). -/
def Opnd.clearOfRuns (d : Opnd) (l : List (Nat × Nat)) : Bool := d.reg || l.all (fun p => !(runsMeet d.span p))

/-- The bits of a destination element as a tile register holds them (02 R50). -/
def heldIn (fmt v : Nat) : W32 := widenElem fmt v

end Sys2Proof.Machine
end

