-- ==== Sys2Proof/Machine/Vector.lean ====
section
/-!
DEFINITION. The vector engine: a descriptor and its checks, the chain of stages, the destination; and its passes' start and end
(10 R318 to R332).
-/

namespace Sys2Proof.Machine

/-! ### Fields of a descriptor (R329) -/

/-- ROWS. -/
abbrev vRows (b : Bytes) : Nat := fld b 0xC 2
/-- COLS. -/
abbrev vCols (b : Bytes) : Nat := fld b 0xE 2
/-- YEN. -/
abbrev vYen (b : Bytes) : Bool := tbit (fld b 9 1) 5
/-- NSTG. -/
abbrev vNstg (b : Bytes) : Nat := fld b 0xB 1

/-- X. -/
def vX (b : Bytes) : Opnd :=
  { fmt := bits (fld b 8 1) 0 4, reg := tbit (fld b 8 1) 4, addr := fld b 0x10 4, stride := fld b 0x14 4, rows := vRows b,
    cols := vCols b, scaleAt := fld b 0x78 4 }

/-- Y. -/
def vY (b : Bytes) : Opnd :=
  { fmt := bits (fld b 9 1) 0 4, reg := tbit (fld b 9 1) 4, addr := fld b 0x18 4, stride := fld b 0x1C 4, rows := vRows b,
    cols := vCols b, scaleAt := fld b 0x7C 4 }

/-- D. -/
def vD (b : Bytes) : Opnd :=
  { fmt := bits (fld b 0xA 1) 0 4, reg := tbit (fld b 0xA 1) 4, addr := fld b 0x20 4, stride := fld b 0x24 4, rows := vRows b,
    cols := vCols b, scaleAt := fld b 0x2C 4 }

/-- Stage word `i`. -/
def vStage (b : Bytes) (i : Nat) : Nat := fld b (0x58 + 4 * i) 4

/-- OP of a stage word (R330). -/
abbrev sgOp (w : Nat) : Nat := bits w 0 5
/-- SRCB. -/
abbrev sgB (w : Nat) : Nat := bits w 5 4
/-- SRCC. -/
abbrev sgC (w : Nat) : Nat := bits w 9 4
/-- COND. -/
abbrev sgCond (w : Nat) : Nat := bits w 13 3
/-- TFMT. -/
abbrev sgTfmt (w : Nat) : Nat := bits w 16 4

/-! ### Checks of the chain (R320 to R324) -/

/-- A stage's fields: it uses SRCB, SRCC, COND, TFMT; and the V types it permits, FP32 and INT32. none = a reserved OP. -/
def stageShape (op : Nat) : Option (Bool × Bool × Bool × Bool × Bool × Bool) :=
  match op with
  | 0x01 | 0x04 | 0x05 => some (true, false, false, false, true, true)
  | 0x02 => some (true, false, false, false, true, false)
  | 0x03 => some (true, true, false, false, true, false)
  | 0x06 => some (true, true, false, false, true, true)
  | 0x07 => some (true, false, true, false, true, true)
  | 0x08 | 0x09 | 0x0A | 0x0B | 0x0C | 0x0D | 0x0E => some (false, false, false, false, true, false)
  | 0x0F => some (false, false, false, true, true, true)
  | 0x10 => some (false, false, false, false, false, true)
  | _ => none

/-- A source code may be named when V is INT32 or not: X and Y must have V's type (R320). -/
def srcOk (b : Bytes) (isInt : Bool) (code : Nat) : Bool :=
  match code with
  | 1 => (vX b).isInt == isInt
  | 2 => vYen b && (vY b).isInt == isInt
  | _ => decide (code ≤ 10)

/-- TFMT of CONVERT is permitted (R322). -/
def tfmtOk (f : Nat) : Bool := decide (f ≤ 7) || f == 10

/-- The type of V after a stage: true = INT32. -/
def stageType (isInt : Bool) (w : Nat) : Bool :=
  match sgOp w with
  | 0x0F => isIntFmt (sgTfmt w)
  | _ => isInt

/-- One stage word is permitted at a V type (R324, R330). -/
def stageOk (b : Bytes) (isInt : Bool) (w : Nat) : Bool :=
  match stageShape (sgOp w) with
  | none => false
  | some (ub, uc, uk, ut, fp, int) =>
    decide (w < 2 ^ 20) && (if isInt then int else fp) &&
    (if ub then srcOk b isInt (sgB w) else sgB w == 0) && (if uc then srcOk b isInt (sgC w) else sgC w == 0) &&
    (if uk then decide (sgCond w ≤ 5) else sgCond w == 0) && (if ut then tfmtOk (sgTfmt w) else sgTfmt w == 0)

/-- The stages from `i` on are permitted, and the words beyond NSTG are zero. -/
def chainOk (b : Bytes) (fuel i : Nat) (isInt : Bool) : Bool :=
  match fuel with
  | 0 => true
  | n + 1 =>
    if vNstg b ≤ i then vStage b i == 0 && chainOk b n (i + 1) isInt
    else stageOk b isInt (vStage b i) && chainOk b n (i + 1) (stageType isInt (vStage b i))

/-- The type of V after the last stage. -/
def chainType (b : Bytes) : Bool :=
  (List.range (vNstg b)).foldl (fun t i => stageType t (vStage b i)) (vX b).isInt

/-- Some stage names a source code. -/
def usesSrc (b : Bytes) (code : Nat) : Bool :=
  (List.range (vNstg b)).any (fun i =>
    let w := vStage b i
    match stageShape (sgOp w) with
    | some (ub, uc, _, _, _, _) => (ub && sgB w == code) || (uc && sgC w == code)
    | none => false)

/-- Some stage is REQUANT. -/
def usesRq (b : Bytes) : Bool := (List.range (vNstg b)).any (fun i => sgOp (vStage b i) == 0x10)

/-! ### Parameters (R320, R323) -/

/-- PMODE of P_j. -/
abbrev pMode (b : Bytes) (j : Nat) : Nat := bits (fld b 0x35 1) (2 * j) 2

/-- Address of parameter P_j for element (r, c). -/
def pAt (b : Bytes) (j r c : Nat) : Nat :=
  fld b (0x38 + 4 * j) 4 + (match pMode b j with
    | 1 => 4 * c
    | 2 => 4 * r
    | _ => 0)

/-- The run that P_j occupies; none when no stage names it. -/
def pRun (b : Bytes) (j : Nat) : List (Nat × Nat) :=
  if usesSrc b (3 + j) then
    [(fld b (0x38 + 4 * j) 4, match pMode b j with
      | 1 => 4 * vCols b
      | 2 => 4 * vRows b
      | _ => 4)]
  else []

/-- PERCOL. -/
abbrev vPercol (b : Bytes) : Bool := tbit (fld b 0x34 1) 0

/-- The run of the requantisation records; none when no stage reads them. -/
def rqRun (b : Bytes) : List (Nat × Nat) :=
  if usesRq b then [(fld b 0x30 4, if vPercol b then 16 * vCols b else 16)] else []

/-- Parameter and record runs. -/
def paramRuns (b : Bytes) : List (Nat × Nat) := (List.range 4).flatMap (pRun b) ++ rqRun b

/-- Runs of the scale bytes of an MX operand. -/
def scaleRun (o : Opnd) : List (Nat × Nat) := if isMx o.fmt then [(o.scaleAt, 4 * o.rows)] else []

/-! ### Checks of the descriptor (R318, R319, R326 to R329) -/

/-- Reserved bits and the fields that must be zero. -/
def vZeros (b : Bytes) : Bool :=
  headerOk b 2 128 && decide (fld b 8 1 < 32) && decide (fld b 9 1 < 64) && decide (fld b 0xA 1 < 32) &&
  decide (1 ≤ vNstg b ∧ vNstg b ≤ 8) && decide (fld b 0x34 1 < 2) && decide (fld b 0x36 2 = 0) &&
  (List.range 4).all (fun j => pMode b j != 3) && (vYen b || (fld b 0x18 4 == 0 && fld b 0x7C 4 == 0))

/-- ROWS and COLS lie in their ranges: smaller when an operand is a register. -/
def shapeOk (rows cols : Nat) (reg : Bool) : Bool :=
  decide (1 ≤ rows ∧ rows ≤ (if reg then 128 else 4096)) && decide (1 ≤ cols ∧ cols ≤ (if reg then 512 else 4096))

/-- The destination is permitted. -/
def vDestOk (b : Bytes) : Bool :=
  let d := vD b
  vecFmtOk d.fmt && d.mxOk && (isMx d.fmt || (d.scaleAt == 0 && fld b 0x28 4 == 0)) &&
  (if d.reg then d.regOk else decide (d.addr % 16 = 0) && decide (d.stride % 16 = 0) && decide (d.rowBytes ≤ d.stride))

/-- The destination overlaps nothing that R327 names. -/
def vClear (b : Bytes) : Bool :=
  let d := vD b
  d.clearOf (vX b) && (!(vYen b) || d.clearOf (vY b)) &&
  d.clearOfRuns (paramRuns b ++ scaleRun d ++ scaleRun (vX b) ++ (if vYen b then scaleRun (vY b) else []))

/-- The vector engine accepts a descriptor. -/
def vecOk (_ : Tile) (b : Bytes) : Bool :=
  vZeros b && shapeOk (vRows b) (vCols b) ((vX b).reg || (vYen b && (vY b).reg) || (vD b).reg) &&
  (vX b).srcOk && (!(vYen b) || (vY b).srcOk) && vDestOk b && decide (fld b 0x30 4 % 16 = 0) &&
  (List.range 4).all (fun j => decide (fld b (0x38 + 4 * j) 4 % 4 = 0)) && chainOk b 8 0 (vX b).isInt && vClear b

/-- Runs that the pass reads. -/
def vReads (b : Bytes) : List (Nat × Nat) := (vX b).runs ++ (if vYen b then (vY b).runs else []) ++ paramRuns b

/-- Runs that the pass writes. -/
def vWrites (b : Bytes) : List (Nat × Nat) :=
  let d := vD b
  if d.reg then []
  else (List.range d.rows).map (fun r => (d.rowAt r, d.rowBytes)) ++ scaleRun d

/-- VECTOR_PASS_START (R328, R332). -/
def execVectorPassStart (tile : Nat) (s : State) : Host.Outcome State Fault Refusal :=
  .next (
    if (s.tile tile).vx.isNone then
      s.startDesc tile 1 0 vecOk (fun b => runsIn (vReads b ++ vWrites b)) (fun s b =>
        s.modTile tile (fun x => { x with vx := some b }))
    else s)

/-! ### The chain (R320 to R325) -/

/-- A chain value of one element: its bits, whether it is INT32, the lane's flag F, and what has been noted. -/
structure Lane where
  v : W32 := 0
  isInt : Bool := false
  flag : Bool := false
  ev : NumEv := {}
  deriving DecidableEq, Repr

/-- Operand of a source code at element (r, c) (R320). -/
def srcVal (x : Tile) (b : Bytes) (l : Lane) (code r c : Nat) : W32 :=
  match code with
  | 0 => l.v
  | 1 => (vX b).read x r c
  | 2 => (vY b).read x r c
  | 3 | 4 | 5 | 6 => BitVec.ofNat 32 (leNat (Machine.memRead x.sram (pAt b (code - 3) r c) 4))
  | _ => BitVec.ofNat 32 (fld b (0x48 + 4 * (code - 7)) 4)

/-- V COND B (R321, 02 R65): every ordered comparison with a NaN is false, not-equal is true. -/
def condHolds (cond : Nat) (o : Option Ordering) : Bool :=
  match o with
  | none => cond == 1
  | some .lt => cond == 1 || cond == 2 || cond == 3
  | some .eq => cond == 0 || cond == 3 || cond == 5
  | some .gt => cond == 1 || cond == 4 || cond == 5

/-- V of one type compared with B. -/
def laneCompare (isInt : Bool) (v w : W32) : Option Ordering :=
  if isInt then some (compare v.toInt w.toInt) else fcompare (decF32 v) (decF32 w)

/-- The value of a stage with operands B and C, for the stages whose V keeps its type. -/
def stageVal (op : Nat) (isInt flag : Bool) (v w u : W32) : W32 :=
  match op with
  | 0x01 => if isInt then v + w else f32add v w
  | 0x02 => f32mul v w
  | 0x03 => f32fma v w u
  | 0x04 => if isInt then (if w.toInt < v.toInt then w else v) else f32min v w
  | 0x05 => if isInt then (if v.toInt < w.toInt then w else v) else f32max v w
  | 0x06 => if flag then w else u
  | 0x08 => stageExp v
  | 0x09 => stageLog v
  | 0x0A => stageSigmoid v
  | 0x0B => stageTanh v
  | 0x0C => stageGelu v
  | 0x0D => stageRsqrt v
  | 0x0E => stageRecip v
  | _ => v

/-- CONVERT (R322): V held as the value it converts to, and its type. -/
def stageConvert (f : Nat) (isInt : Bool) (v : W32) : W32 × NumEv :=
  let r := toFmt f isInt v
  (widenElem f r.1, r.2)

/-- REQUANT (R323, 02 R67 to R70). -/
def stageRequant (x : Tile) (b : Bytes) (c : Nat) (v : W32) : W32 × NumEv :=
  let a := fld b 0x30 4 + (if vPercol b then 16 * c else 0)
  let rcd := Machine.memRead x.sram a 16
  let tgt := if fld rcd 9 1 = 5 then 5 else if fld rcd 9 1 = 6 then 6 else 10
  let r := requant v.toInt (BitVec.ofNat 32 (fld rcd 0 4)).toInt (BitVec.ofNat 32 (fld rcd 4 4)).toInt (fld rcd 8 1 % 64) tgt
  (BitVec.ofInt 32 r.1, { satInt := r.2, satCount := b2n r.2 })

/-- NaNs among the FP32 operands that a stage reads and the value it gives. -/
def stageNans (isInt ub uc : Bool) (w u v : W32) : NumEv :=
  if isInt then {} else { nanSeen := (ub && decF32 w == .nan) || (uc && decF32 u == .nan) || decF32 v == .nan }

/-- One stage (R321). -/
def Lane.stage (l : Lane) (x : Tile) (b : Bytes) (r c word : Nat) : Lane :=
  let op := sgOp word
  match stageShape op with
  | none => l
  | some (ub, uc, _, _, _, _) =>
    let w := srcVal x b l (sgB word) r c
    let u := srcVal x b l (sgC word) r c
    match op with
    | 0x07 =>
      let f := condHolds (sgCond word) (laneCompare l.isInt l.v w)
      { l with flag := f, ev := l.ev.join (stageNans l.isInt ub uc w u l.v) }
    | 0x0F =>
      let p := stageConvert (sgTfmt word) l.isInt l.v
      { l with v := p.1, isInt := isIntFmt (sgTfmt word), ev := l.ev.join p.2 }
    | 0x10 =>
      let p := stageRequant x b c l.v
      { l with v := p.1, ev := l.ev.join p.2 }
    | _ =>
      let v := stageVal op l.isInt l.flag l.v w u
      { l with v := v, ev := l.ev.join (stageNans l.isInt ub uc w u v) }

/-- The chain value of element (r, c) after the last stage. -/
def chainAt (x : Tile) (b : Bytes) (r c : Nat) : Lane :=
  let v := (vX b).read x r c
  let l : Lane := { v := v, isInt := (vX b).isInt, ev := if (vX b).isInt then {} else evNan v }
  (List.range (vNstg b)).foldl (fun l i => l.stage x b r c (vStage b i)) l

/-! ### The destination (R326) -/

/-- The bits that an element of D holds in its format. -/
def destBits (b : Bytes) (l : Lane) (c : Nat) : Nat × NumEv :=
  let d := vD b
  if isMx d.fmt then
    let e := fld b (0x28 + c / 32) 1
    let x := if l.isInt then fofInt l.v.toInt else decF32 l.v
    (match ffmtOf d.fmt with
     | some f => mxNarrow f x e
     | none => (0, {}))
  else toFmt d.fmt l.isInt l.v

/-- Row `r` of the block as the engine computes it: the bits of D and what TIL_NUMSTAT notes. -/
def vecRow (x : Tile) (b : Bytes) (r : Nat) : List Nat × NumEv :=
  let l := (List.range (vCols b)).map (fun c =>
    let y := chainAt x b r c
    let p := destBits b y c
    (p.1, y.ev.join p.2))
  (l.map Prod.fst, joinEvs (l.map Prod.snd))

/-- Write row `r` of a register destination. -/
def Opnd.putReg (o : Opnd) (x : Tile) (r : Nat) (v : List Nat) : Tile :=
  { x with tregs := v.zipIdx.foldl (fun m p => mset 0 m (o.posOf r p.2) (heldIn o.fmt p.1)) x.tregs }

/-- Bytes of a row; the nibble beyond an odd number of 4-bit elements is left open (assumption 1). -/
def rowOut (fmt : Nat) (v : List Nat) (pad : Nat) : Bytes :=
  packElems fmt (if elemBits fmt = 4 ∧ v.length % 2 = 1 then v ++ [pad % 16] else v)

/-- The scale bytes of a row of an MX destination: those at or above COLS / 32 are zero (R326). -/
def scaleOut (b : Bytes) : Bytes := (List.range 4).map (fun i => if i < vCols b / 32 then byteAt b (0x28 + i) else 0)

/-- Write row `r` of D; `pad` holds the open nibble. -/
def vecWrite (b : Bytes) (pad : Nat) (x : Tile) (r : Nat) (v : List Nat) : Tile :=
  let d := vD b
  if d.reg then d.putReg x r v
  else
    let y := x.putSram (d.rowAt r) (rowOut d.fmt v pad)
    if isMx d.fmt then y.putSram (d.scaleAt + 4 * r) (scaleOut b) else y

/-- The whole pass: every element is read before the destination is written (R327). -/
def Tile.vecPass (x : Tile) (b : Bytes) (pads : Nat) : Tile :=
  let rows := (List.range (vRows b)).map (vecRow x b)
  rows.zipIdx.foldl (fun y p => (vecWrite b (bits pads (4 * p.2) 4) y p.2 p.1.1).note p.1.2) x

/-- A vector pass ends: D is written and its semaphore is posted (R332). -/
def State.endVec (s : State) (t : Nat) (b : Bytes) : State :=
  let r := s.readsOk t (vReads b)
  if r.1 then
    let p := r.2.free (4 * vRows b)
    let v := p.2.free 32
    let f (x : Tile) : Tile :=
      { (x.vecPass b p.1.toNat).leave 1 with vx := none, vxPasses := x.vxPasses + 1, vxStall := x.vxStall + v.1 }
    (((v.2.modTile t f).engineTime (v.2.denOf t) cVector).partCheck t (vWrites b)).postOf t b
  else r.2

/-- VECTOR_PASS_DONE (R332). -/
def execVectorPassDone (tile : Nat) (s : State) : Host.Outcome State Fault Refusal :=
  .next (
    match (s.tile tile).vx with
    | some b => if s.engineOn tile then s.endVec tile b else s
    | none => s)

/-! ### The reduction unit (R335 to R340) -/

/-- OP: 0 SUM, 1 SUMSQ, 2 MAX, 3 MIN. -/
abbrev rdOp (b : Bytes) : Nat := bits (fld b 8 1) 0 2
/-- AXIS: false ROW, true COL. -/
abbrev rdCol (b : Bytes) : Bool := tbit (fld b 8 1) 2

/-- X of a reduction. -/
def rdX (b : Bytes) : Opnd :=
  { fmt := bits (fld b 9 1) 0 4, reg := tbit (fld b 9 1) 4, addr := fld b 0x10 4, stride := fld b 0x14 4, rows := vRows b,
    cols := vCols b }

/-- Number of results. -/
def rdCount (b : Bytes) : Nat := if rdCol b then vCols b else vRows b

/-- D of a reduction: one column for axis ROW, one row for axis COL. In SRAM its results stand D_STRIDE bytes apart. -/
def rdD (b : Bytes) : Opnd :=
  let reg := tbit (fld b 0xA 1) 4
  let asRow := rdCol b && reg
  { fmt := bits (fld b 0xA 1) 0 4, reg := reg, addr := fld b 0x18 4, stride := fld b 0x1C 4, rows := if asRow then 1 else rdCount b,
    cols := if asRow then rdCount b else 1 }

/-- D_STRIDE is a multiple of the size of a result; a 4-bit result takes a byte. -/
def rdStrideOk (b : Bytes) : Bool := decide ((rdD b).stride % ((elemBits (rdD b).fmt + 7) / 8) = 0)

/-- The reduction unit accepts a descriptor. -/
def redOk (_ : Tile) (b : Bytes) : Bool :=
  headerOk b 3 64 && decide (fld b 8 1 < 8) && decide (fld b 9 1 < 32) && decide (fld b 0xA 1 < 32) && decide (fld b 0xB 1 = 0) &&
  allZero (sliceB b 0x24 28) && shapeOk (vRows b) (vCols b) ((rdX b).reg || (rdD b).reg) && (rdX b).srcOk && !(isMx (rdX b).fmt) &&
  vecFmtOk (rdD b).fmt && !(isMx (rdD b).fmt) &&
  (if (rdD b).reg then (rdD b).regOk else decide ((rdD b).addr % 16 = 0) && rdStrideOk b) &&
  (!((rdX b).isInt) || fld b 0x20 4 == 0x3F800000) && (rdD b).clearOf (rdX b)

/-- Runs that a reduction writes. -/
def rdWrites (b : Bytes) : List (Nat × Nat) :=
  if (rdD b).reg then [] else (List.range (rdCount b)).map (fun i => ((rdD b).rowAt i, (rdD b).rowBytes))

/-- REDUCTION_START (R339, R340). -/
def execReductionStart (tile : Nat) (s : State) : Host.Outcome State Fault Refusal :=
  .next (
    if (s.tile tile).rd.isNone then
      s.startDesc tile 2 0 redOk (fun b => runsIn ((rdX b).runs ++ rdWrites b)) (fun s b =>
        s.modTile tile (fun x => { x with rd := some b }))
    else s)

/-- Combine two partial results (R336). -/
def rdCombine (op : Nat) (isInt : Bool) (p q : W32) : W32 :=
  match op with
  | 2 => if isInt then (if p.toInt < q.toInt then q else p) else f32max p q
  | 3 => if isInt then (if q.toInt < p.toInt then q else p) else f32min p q
  | _ => if isInt then p + q else f32add p q

/-- The identity of a reduction (R337). -/
def rdIdentity (op : Nat) (isInt : Bool) : W32 :=
  match op with
  | 2 => if isInt then 0x80000000#32 else 0xFF800000#32
  | 3 => if isInt then 0x7FFFFFFF#32 else 0x7F800000#32
  | _ => if isInt then 0 else 0x80000000#32

/-- An element as it enters the reduction: squared for SUMSQ (R337). -/
def rdEnter (op : Nat) (isInt : Bool) (v : W32) : W32 := if op = 1 then (if isInt then v * v else f32mul v v) else v

/-- One level of the tree: results 2k and 2k + 1 combine. -/
def rdLevel (op : Nat) (isInt : Bool) (l : List W32) : List W32 :=
  match l with
  | a :: b :: rest => rdCombine op isInt a b :: rdLevel op isInt rest
  | [a] => [a]
  | [] => []

/-- The balanced tree of `n` levels. -/
def rdTree (op : Nat) (isInt : Bool) (n : Nat) (l : List W32) : W32 :=
  match n with
  | 0 => l.headD 0
  | k + 1 => rdTree op isInt k (rdLevel op isInt l)

/-- A group of 256 columns, padded with the identity (R337). -/
def rdGroup (op : Nat) (isInt : Bool) (l : List W32) : W32 :=
  rdTree op isInt 8 (l ++ List.replicate (256 - l.length) (rdIdentity op isInt))

/-- The groups of a row, combined in ascending order; `fuel` bounds their number. -/
def rdGroups (op : Nat) (isInt : Bool) (fuel : Nat) (p : Option W32) (l : List W32) : W32 :=
  match fuel with
  | 0 => p.getD 0
  | n + 1 =>
    if l.isEmpty then p.getD 0
    else
      let g := rdGroup op isInt (l.take 256)
      rdGroups op isInt n (some (match p with
        | some q => rdCombine op isInt q g
        | none => g)) (l.drop 256)

/-- A row reduced (R337). -/
def rdRow (op : Nat) (isInt : Bool) (l : List W32) : W32 := rdGroups op isInt (l.length + 1) none (l.map (rdEnter op isInt))

/-- One step down a column (R338). -/
def rdStep (op : Nat) (isInt : Bool) (p v : W32) : W32 :=
  if op = 1 ∧ ¬ isInt then f32fma v v p else rdCombine op isInt p (rdEnter op isInt v)

/-- A column reduced (R338). -/
def rdColumn (op : Nat) (isInt : Bool) (l : List W32) : W32 :=
  match l with
  | [] => 0
  | a :: rest => rest.foldl (rdStep op isInt) (rdEnter op isInt a)

/-- The elements that result `i` reduces. -/
def rdElems (x : Tile) (b : Bytes) (i : Nat) : List W32 :=
  if rdCol b then (List.range (vRows b)).map (fun r => (rdX b).read x r i)
  else (List.range (vCols b)).map (fun c => (rdX b).read x i c)

/-- Result `i`: the bits of D and what TIL_NUMSTAT notes (R336). -/
def rdResult (x : Tile) (b : Bytes) (i : Nat) : Nat × NumEv :=
  let isInt := (rdX b).isInt
  let l := rdElems x b i
  let v := if rdCol b then rdColumn (rdOp b) isInt l else rdRow (rdOp b) isInt l
  let w := if isInt then v else f32mul v (BitVec.ofNat 32 (fld b 0x20 4))
  let r := toFmt (rdD b).fmt isInt w
  (r.1, r.2.join { nanSeen := !isInt && (l.any (fun y => decF32 y == .nan) || decF32 w == .nan) })

/-- Write result `i`. -/
def rdWrite (b : Bytes) (pad : Nat) (x : Tile) (i v : Nat) : Tile :=
  let d := rdD b
  if d.reg then { x with tregs := mset 0 x.tregs (if rdCol b then d.posOf 0 i else d.posOf i 0) (heldIn d.fmt v) }
  else x.putSram (d.rowAt i) (rowOut d.fmt [v] pad)

/-- The whole reduction. -/
def Tile.reduce (x : Tile) (b : Bytes) (pads : Nat) : Tile :=
  let l := (List.range (rdCount b)).map (rdResult x b)
  l.zipIdx.foldl (fun y p => (rdWrite b (bits pads (4 * p.2) 4) y p.2 p.1.1).note p.1.2) x

/-- A reduction ends (R339). -/
def State.endRed (s : State) (t : Nat) (b : Bytes) : State :=
  let r := s.readsOk t (rdX b).runs
  if r.1 then
    let p := r.2.free (4 * rdCount b)
    let v := p.2.free 32
    let f (x : Tile) : Tile :=
      { (x.reduce b p.1.toNat).leave 2 with rd := none, rdPasses := x.rdPasses + 1, rdStall := x.rdStall + v.1 }
    (((v.2.modTile t f).engineTime (v.2.denOf t) cReduce).partCheck t (rdWrites b)).postOf t b
  else r.2

/-- REDUCTION_DONE (R339). -/
def execReductionDone (tile : Nat) (s : State) : Host.Outcome State Fault Refusal :=
  .next (
    match (s.tile tile).rd with
    | some b => if s.engineOn tile then s.endRed tile b else s
    | none => s)

end Sys2Proof.Machine
end

