-- ==== Sys2Proof/Machine/Streams.lean ====
section
/-!
DEFINITION. The stream units: descriptors and their checks, rings and credits, the issue of transfers, and their end
(11 R344 to R365).
-/

namespace Sys2Proof.Machine

/-! ### Fields of a descriptor (R347) -/

/-- RING rather than COPY. -/
abbrev suRing (b : Bytes) : Bool := bits (fld b 8 1) 0 2 == 1
/-- DIR: OUT. -/
abbrev suOut (b : Bytes) : Bool := tbit (fld b 8 1) 2
/-- CONT. -/
abbrev suCont (b : Bytes) : Bool := tbit (fld b 8 1) 3
/-- CRED_SEM. -/
abbrev suCred (b : Bytes) : Nat := fld b 9 1
/-- SLOT_SEM. -/
abbrev suSlotSem (b : Bytes) : Nat := fld b 0xA 1
/-- RING_SLOTS. -/
abbrev suSlots (b : Bytes) : Nat := fld b 0xB 1
/-- ROWS. -/
abbrev suRows (b : Bytes) : Nat := fld b 0xC 2
/-- ROW_BYTES. -/
abbrev suRowBytes (b : Bytes) : Nat := fld b 0xE 2
/-- G_ADDR. -/
abbrev suG (b : Bytes) : Nat := fld b 0x10 8
/-- G_STRIDE. -/
abbrev suGStride (b : Bytes) : Nat := fld b 0x18 4
/-- L_ADDR. -/
abbrev suL (b : Bytes) : Nat := fld b 0x1C 4
/-- L_STRIDE. -/
abbrev suLStride (b : Bytes) : Nat := fld b 0x20 4
/-- SLOT_BYTES. -/
abbrev suSlotBytes (b : Bytes) : Nat := fld b 0x24 4
/-- G_SLOT_STRIDE. -/
abbrev suGSlot (b : Bytes) : Nat := fld b 0x28 8
/-- COUNT. -/
abbrev suCount (b : Bytes) : Nat := fld b 0x30 4
/-- Slots of the descriptor; a COPY is one block. -/
def suTotal (b : Bytes) : Nat := if suRing b then suCount b else 1

/-! ### Checks (R349, R350, R354) -/

/-- Multiples of 16. -/
def suAligned (b : Bytes) : Bool :=
  [suRowBytes b, suG b, suGStride b, suL b, suLStride b, suSlotBytes b, suGSlot b].all (fun n => decide (n % 16 = 0))

/-- Fields that a COPY leaves zero. -/
def suCopyZeros (b : Bytes) : Bool :=
  suCred b == 0 && suSlotSem b == 0 && suSlots b == 0 && suSlotBytes b == 0 && suGSlot b == 0 && suCount b == 0

/-- Ranges of a RING's fields. -/
def suRingOk (b : Bytes) : Bool :=
  decide (suCred b < 16) && decide (suSlotSem b < 16) && suCred b != suSlotSem b && decide (1 ≤ suSlots b ∧ suSlots b ≤ 64) &&
  decide (1 ≤ suCount b ∧ suCount b ≤ 1048576) && decide ((suRows b - 1) * suLStride b + suRowBytes b ≤ suSlotBytes b)

/-- A continued ring follows a RING of the same shape (R354). -/
def suContOk (u : StreamUnit) (b : Bytes) : Bool :=
  !(suCont b) || (suRing b && (match u.last with
    | some p => suRing p && suOut p == suOut b && suL p == suL b && suSlots p == suSlots b && suSlotBytes p == suSlotBytes b &&
        suCred p == suCred b && suSlotSem p == suSlotSem b
    | none => false))

/-- The stream unit accepts a descriptor (R349). -/
def suOk (u : StreamUnit) (b : Bytes) : Bool :=
  headerOk b 4 64 && decide (fld b 8 1 < 16) && decide (bits (fld b 8 1) 0 2 ≤ 1) && decide (suG b < 2 ^ 56) &&
  decide (suGSlot b < 2 ^ 56) && allZero (sliceB b 0x34 12) && decide (1 ≤ suRows b ∧ suRows b ≤ 4096) &&
  decide (16 ≤ suRowBytes b ∧ suRowBytes b ≤ 65520) && suAligned b &&
  (suOut b || suRows b == 1 || decide (suRowBytes b ≤ suLStride b)) &&
  (if suRing b then suRingOk b else suCopyZeros b) && suContOk u b

/-- SRAM address of row `r` at ring position `p`. -/
def suLocal (b : Bytes) (p r : Nat) : Nat := suL b + (if suRing b then p * suSlotBytes b else 0) + r * suLStride b

/-- Global address of row `r` of slot `k` (R348). -/
def suGlobal (b : Bytes) (k r : Nat) : Nat := suG b + k * suGSlot b + r * suGStride b

/-- Ring positions that the slots of a descriptor take, `pos` being that of slot 0 (R351). -/
def suPositions (b : Bytes) (pos : Nat) : List Nat :=
  if suRing b then (List.range (min (suSlots b) (suCount b))).map (fun k => (pos + k) % suSlots b) else [0]

/-- Every SRAM byte of the descriptor lies below 0x40_0000 (R350). -/
def suInSram (u : StreamUnit) (b : Bytes) : Bool :=
  (suPositions b (if suCont b then u.pos else 0)).all (fun p => decide (suLocal b p (suRows b - 1) + suRowBytes b ≤ sramSize))

/-- The transfers of one row: places and lengths, cut at 2 KiB-aligned global blocks (R344). -/
def suCut (fuel a off len : Nat) : List (Nat × Nat) :=
  match fuel with
  | 0 => []
  | f + 1 =>
    if len ≤ off then []
    else
      let n := min (len - off) (2048 - (a + off) % 2048)
      (off, n) :: suCut f a (off + n) len

/-- Every transfer of a row leads where the task may go (R350). -/
def State.suRowOk (s : State) (r : Req) (b : Bytes) (k j : Nat) : Bool :=
  let a := suGlobal b k j
  (suCut 34 a 0 (suRowBytes b)).all (fun p => s.reachOf r (a + p.1) p.2 (suOut b) != .bad)

/-- Every global byte of the descriptor leads where the task may go (R350). -/
def State.suSpanOk (s : State) (r : Req) (b : Bytes) : Bool :=
  (List.range (suTotal b)).all (fun k => (List.range (suRows b)).all (fun j => s.suRowOk r b k j))

/-! ### Starting a descriptor (R351, R354, R355) -/

/-- Stream unit of a tile. -/
def Tile.unit (x : Tile) (u : Nat) : StreamUnit := if u = 0 then x.su0 else x.su1

/-- Every transfer of a descriptor has been issued. -/
def SuDesc.allIssued (d : SuDesc) : Bool := decide (suTotal d.desc ≤ d.slot)

/-- The unit may start its next descriptor: the previous one has issued its last transfer (R355). -/
def StreamUnit.mayBegin (u : StreamUnit) : Bool := u.running.all SuDesc.allIssued

/-- The unit starts a descriptor; a RING with CONT = 0 starts a new ring (R351). -/
def StreamUnit.begin (u : StreamUnit) (b : Bytes) : StreamUnit :=
  let fresh := suRing b && !(suCont b)
  let pos := if fresh then 0 else u.pos
  { u with running := u.running ++ [{ dseq := u.started, desc := b, pos0 := pos }], pos := pos, last := some b,
           credits := if fresh then (if suOut b then 0 else suSlots b) else u.credits, started := u.started + 1 }

/-- A descriptor whose span leads elsewhere aborts with GLOBAL_RANGE and moves no data (R350). -/
def State.suStart (s : State) (t u : Nat) (b : Bytes) : State :=
  match s.holder t with
  | none => s
  | some r => if s.suSpanOk r b then s.modTile t (fun x => x.modUnit u (fun y => y.begin b)) else s.tileFault t 0x03 0 0 false false

/-- STREAM_DESC_START (R350, R351, R355). -/
def execStreamDescStart (tile unit : Nat) (s : State) : Host.Outcome State Fault Refusal :=
  .next (
    let u := (s.tile tile).unit unit
    if unit < 2 ∧ u.mayBegin then
      s.startDesc tile (3 + unit) u.running.length (fun x b => suOk (x.unit unit) b) (suInSram u) (fun s b => s.suStart tile unit b)
    else s)

/-! ### Issuing a transfer (R344 to R346, R352, R362) -/

/-- The descriptor whose transfers are being issued. -/
def StreamUnit.current (u : StreamUnit) : Option SuDesc := u.running.find? (fun d => !d.allIssued)

/-- The next transfer of a descriptor. -/
def SuDesc.nextXfer (d : SuDesc) : SuXfer :=
  let b := d.desc
  let a := suGlobal b d.slot d.row + d.off
  let p := if suRing b then (d.pos0 + d.slot) % suSlots b else 0
  { dseq := d.dseq, slot := d.slot, addr := a, len := min (suRowBytes b - d.off) (2048 - a % 2048),
    sram := suLocal b p d.row + d.off, out := suOut b }

/-- The cursor moves past a transfer of `n` bytes. -/
def SuDesc.step (d : SuDesc) (n : Nat) : SuDesc :=
  if d.off + n < suRowBytes d.desc then { d with off := d.off + n }
  else if d.row + 1 < suRows d.desc then { d with row := d.row + 1, off := 0 }
  else { d with slot := d.slot + 1, row := 0, off := 0 }

/-- The transfer is the first of its slot, so it spends a credit (R352). -/
def SuDesc.needsCredit (d : SuDesc) : Bool := suRing d.desc && d.row == 0 && d.off == 0

/-- A unit without a credit takes one from CRED_SEM, or waits (R352). -/
def Tile.takeCredit (x : Tile) (u : Nat) (d : SuDesc) : Tile :=
  if ¬ d.needsCredit ∨ (x.unit u).credits ≠ 0 then x
  else if x.semFree (suCred d.desc) (4 + u) then
    (x.semTake (suCred d.desc) (4 + u)).modUnit u (fun y => { y with credits := 1, crwait := false })
  else (x.semQueue (suCred d.desc) (4 + u)).modUnit u (fun y => { y with crwait := true })

/-- The regulators of a path hold tokens: HBM lines need HBM and HOARD (R362, 13 R416). -/
def State.suOpen (s : State) (d : Nat) (p : Reach) : Bool :=
  match p with
  | .dev a => (s.den d).open .hoard && (decide (hbmSize ≤ a) || (s.den d).open .hbm)
  | .host _ => (s.den d).open .pcie
  | .far _ _ => (s.den d).open .ifs
  | .bad => true

/-- Charge a transfer on this device (R362). -/
def State.suCharge (s : State) (d a n : Nat) (write : Bool) : State :=
  let s := s.chargeHoard d n
  if a < hbmSize then s.chargeHbm d n write else s

/-- The transfer has been served, or has failed. -/
def State.suServe (s : State) (t u : Nat) (x : SuXfer) (fail : Nat) : State :=
  s.modTile t (fun y => y.modUnit u (fun z => z.serveXfer x.dseq x.addr [] fail))

/-- A transfer to another device leaves, or fails for want of a route (R364, 16 R535). -/
def State.suFar (s : State) (t u d w o : Nat) (x : SuXfer) : State :=
  let n := s.newTid
  let f := toLe 8 o ++ toLe 2 x.len
  let m := if x.out then n.2.mkMsg 0x13 w d 0 n.1 f x.data else n.2.mkMsg 0x12 w d 0 n.1 f []
  let y : Xact := { tid := n.1, issuer := .stream t u x.dseq x.addr, den := d, dst := w }
  match n.2.send m with
  | some v => { v with fab := { v.fab with xacts := v.fab.xacts ++ [y] } }
  | none => s.xactFailed.suServe t u x subRemote

/-- A transfer to host memory (R359). -/
def State.suHost (s : State) (t u d i : Nat) (x : SuXfer) : State :=
  let s := s.chargePcie d x.len
  let iss : Issuer := .stream t u x.dseq x.addr
  if x.out then
    let s := s.issueWrite (d + 1) iss i x.data
    if (s.pcie.xlate ++ s.pcie.waiting).any (fun y => y.issuer == iss) then s else s.suServe t u x 0
  else s.issueRead (d + 1) iss i x.len

/-- A transfer on this device goes to the Hoard, which serves a hit and passes a miss to HBM without a fill (R359). -/
def State.suLocalXfer (s : State) (t u d a : Nat) (x : SuXfer) : State :=
  (s.suCharge d a x.len x.out).askHoard (tilePort t)
    { kind := if x.out then .write false else .read false, den := some d, addr := a, len := x.len, data := x.data,
      dst := .stream t u x.dseq x.addr }

/-- The entry is held, the credit spent and the cursor moved. -/
def Tile.holdXfer (y : Tile) (u : Nat) (d : SuDesc) (x : SuXfer) : Tile :=
  y.modUnit u (fun z =>
    { z with running := modFirst (fun (e : SuDesc) => e.dseq == d.dseq) (fun e => e.step x.len) z.running, xfers := z.xfers ++ [x],
             credits := if d.needsCredit then z.credits - 1 else z.credits,
             pos := if d.needsCredit then (z.pos + 1) % suSlots d.desc else z.pos, tkwait := false })

/-- The transfer is sent on its path. -/
def State.sendXfer (s : State) (t u d : Nat) (p : Reach) (x : SuXfer) : State :=
  match p with
  | .dev a => s.suLocalXfer t u d a x
  | .host i => s.suHost t u d i x
  | .far w o => s.suFar t u d w o x
  | .bad => s

/-- Issue a transfer; an OUT transfer reads its bytes from SRAM (R358). -/
def State.suIssue (s : State) (t u : Nat) (r : Req) (d : SuDesc) (p : Reach) : State :=
  let x := d.nextXfer
  if x.out then
    s.withSram t x.sram x.len (fun s b =>
      let y := { x with data := b }
      (s.modTile t (fun z => z.holdXfer u d y)).sendXfer t u r.den p y)
  else (s.modTile t (fun z => z.holdXfer u d x)).sendXfer t u r.den p x

/-- What stands before an issue: a credit, a free entry, a path, Bus Master Enable, and tokens (R346, R352, R364). -/
def State.suNext (s : State) (t u : Nat) (r : Req) (d : SuDesc) : State :=
  let s := s.modTile t (fun x => x.takeCredit u d)
  let z := (s.tile t).unit u
  let x := d.nextXfer
  let p := s.reachOf r x.addr x.len x.out
  if (d.needsCredit ∧ z.credits = 0) ∨ 6 ≤ z.xfers.length then s
  else if p = .bad then s.tileFault t 0x03 0 0 false false
  else if p.isHost ∧ ¬ (s.fn (r.den + 1)).bme then s.tileFault t 0x11 0 0 false false
  else if p.isFar ∧ 16384 ≤ s.fab.xacts.length then s
  else if s.suOpen r.den p then s.suIssue t u r d p
  else (s.modTile t (fun y => y.modUnit u (fun v => { v with tkwait := true }))).count r.den cRegWait 1

/-- STREAM_TRANSFER_ISSUE (R344 to R346). -/
def execStreamTransferIssue (tile unit : Nat) (s : State) : Host.Outcome State Fault Refusal :=
  .next (
    match s.holder tile, ((s.tile tile).unit unit).current with
    | some r, some d => if s.engineOn tile ∧ unit < 2 then s.suNext tile unit r d else s
    | _, _ => s)

/-! ### The end of a transfer (R345, R353, R355, R356, R364) -/

/-- No transfer of a slot is under way, and all of them have been issued. -/
def StreamUnit.slotDone (u : StreamUnit) (d : SuDesc) (k : Nat) : Bool :=
  decide (k < d.slot) && !(u.xfers.any (fun x => x.dseq == d.dseq && x.slot == k))

/-- Slots from `k` on that are finished one after another. -/
def StreamUnit.doneRun (u : StreamUnit) (d : SuDesc) (fuel k : Nat) : Nat :=
  match fuel with
  | 0 => 0
  | f + 1 => if u.slotDone d k then 1 + u.doneRun d f (k + 1) else 0

/-- The descriptor is complete: every slot has been posted; a COPY's block has been moved. -/
def StreamUnit.complete (u : StreamUnit) (d : SuDesc) : Bool :=
  if suRing d.desc then decide (suTotal d.desc ≤ d.posted) else u.slotDone d 0

/-- Post SLOT_SEM `n` times, while the task runs. -/
def State.postMany (s : State) (t sem n : Nat) : State :=
  match n with
  | 0 => s
  | k + 1 => if s.engineOn t then (s.postSem t sem).postMany t sem k else s

/-- Post the finished slots of one descriptor of a unit, in slot order (R353). -/
def State.postSlots (s : State) (t u : Nat) (d : SuDesc) : State :=
  if suRing d.desc then
    let n := ((s.tile t).unit u).doneRun d (d.slot - d.posted) d.posted
    let up (e : SuDesc) : SuDesc := { e with posted := e.posted + n }
    let s := s.modTile t (fun x => x.modUnit u (fun z =>
      { z with running := modFirst (fun (e : SuDesc) => e.dseq == d.dseq) up z.running }))
    s.postMany t (suSlotSem d.desc) n
  else s

/-- Post the finished slots of the running descriptors; a continued ring's slots follow those before them. -/
def State.postAll (s : State) (t u : Nat) (prev : Bool) (l : List SuDesc) : State :=
  match l with
  | [] => s
  | d :: rest =>
    let s := if prev ∨ ¬ suCont d.desc then s.postSlots t u d else s
    let now := ((s.tile t).unit u).running.find? (fun e => e.dseq == d.dseq)
    let fin := match now with
      | some e => ((s.tile t).unit u).complete e
      | none => false
    s.postAll t u (prev && fin) rest

/-- Descriptors complete in queue order: each leaves its queue and posts POST_SEM (R355). -/
def State.endDescs (s : State) (fuel t u : Nat) : State :=
  match fuel with
  | 0 => s
  | f + 1 =>
    match ((s.tile t).unit u).running with
    | d :: rest =>
      if ((s.tile t).unit u).complete d ∧ s.engineOn t then
        let s := (s.modTile t (fun x => (x.modUnit u (fun z => { z with running := rest })).leave (3 + u))).engineTime (s.denOf t) cStream
        (s.postOf t d.desc).endDescs f t u
      else s
    | [] => s

/-- After a transfer has ended. -/
def State.suSettle (s : State) (t u : Nat) : State :=
  let s := s.postAll t u true ((s.tile t).unit u).running
  s.endDescs 9 t u

/-- TIL_SUFLT and TIL_SUFLT_ADDR take a failed transfer, unless they hold one (R368). -/
def Tile.suFault (x : Tile) (u : Nat) (f : SuXfer) : Tile :=
  if x.sufltValid then x
  else { x with sufltSub := BitVec.ofNat 4 f.fail, sufltUnit := decide (u ≠ 0), sufltSlot := BitVec.ofNat 32 f.slot,
                sufltAddr := BitVec.ofNat 56 f.addr, sufltValid := true }

/-- Transfers that may end now: served, and an IN transfer only when no earlier IN transfer remains (R356). -/
def nextEnd (l : List SuXfer) : Option SuXfer :=
  match l with
  | [] => none
  | x :: rest =>
    if x.served then some x
    else if x.out then nextEnd rest
    else rest.find? (fun y => y.served && y.out)

/-- A transfer ends: its entry is free, its bytes are in SRAM, and slots and descriptors that it finishes are posted. -/
def State.endXfer (s : State) (t u : Nat) (x : SuXfer) : State :=
  let s := s.modTile t (fun y => y.modUnit u (fun z =>
    { z with xfers := dropFirst (fun v => v == x) z.xfers, bytes := if x.fail = 0 then z.bytes + BitVec.ofNat 64 x.len else z.bytes }))
  if x.fail ≠ 0 then (s.modTile t (fun y => y.suFault u x)).tileFault t 0x0E 0 0 (decide (x.fail = subPoison)) false
  else
    let s := if x.out then s else s.sramWrite t x.sram (padB x.len x.data)
    if s.engineOn t then s.suSettle t u else s

/-- STREAM_TRANSFER_DONE (R345, R353, R355). -/
def execStreamTransferDone (tile unit : Nat) (s : State) : Host.Outcome State Fault Refusal :=
  .next (
    match nextEnd ((s.tile tile).unit unit).xfers with
    | some x => if s.engineOn tile ∧ unit < 2 then s.endXfer tile unit x else s
    | none => s)

end Sys2Proof.Machine
end

