-- ==== Sys2Proof/Machine/Late.lean ====
section
/-!
DEFINITION. What the host answers: completions of host reads, their timeouts, and answers to Translation Requests, and
what they bring to the access that waits for them (14 R441, R442, R455, R457, R459, R460).
-/

namespace Sys2Proof.Machine

/-! ### The outcome of a host read at its issuer (R455, R457) -/

/-- Cause with which a task aborts on a failed host access: HOST_REVOKED, else HOST_XLATE (R457, R461). -/
def HostFail.cause (w : HostFail) : Nat :=
  match w with
  | .revoked => 0x11
  | .xlate | .error | .poison => 0x05

/-- SUBCAUSE of a failed stream transfer (11 R364). -/
def HostFail.sub (w : HostFail) : Nat :=
  match w with
  | .xlate => 1
  | .poison => subPoison
  | .error | .revoked => 4

/-- Status of a record block, a feature block or a command whose read failed (07 R236, 15 R481). -/
def HostFail.status (w : HostFail) : Nat :=
  match w with
  | .revoked => 0x0B
  | .xlate | .error | .poison => 0x0C

/-- A stream unit's transfer has been served: `fail` is its SUBCAUSE, 0 for none. -/
def State.streamServed (s : State) (t u dseq addr : Nat) (data : Bytes) (fail : Nat) : State :=
  s.modTile t (fun y => y.modUnit u (fun z => z.serveXfer dseq addr data fail))

/-- A block has arrived whole at its issuer. -/
def State.giveHost (s : State) (iss : Issuer) (data : Bytes) : State :=
  match iss with
  | .ring k first n => s.ringRead k first n (.inl data)
  | .tile t acc => s.modTile t (fun y => y.serveAcc acc data false)
  | .stream t u dseq addr => s.streamServed t u dseq addr data 0
  | .feature r => s.modReq r (fun x => { x with feat := some data })
  | .block _ _ | .cmd _ => s.partTake iss (.inl (data, true))

/-- A probe's read that ends with EP set has come back over the path, so the probe has reached the peer (R460; DEDUCED). -/
def State.probeRead (s : State) (id : Nat) (w : HostFail) : Bool :=
  w == .poison && (match s.cmd id with
    | some c => cOp c.pkt == 7
    | none => false)

/-- A block has failed at its issuer, with the bytes that arrived before the failure. -/
def State.failHost (s : State) (iss : Issuer) (w : HostFail) (before : Bytes) : State :=
  match iss with
  | .ring k first n => s.ringRead k first n (.inr w)
  | .tile t acc => s.setAcc t acc (.failed w.cause)
  | .stream t u dseq addr => s.streamServed t u dseq addr [] w.sub
  | .feature r => (match s.req r with
      | some q => if q.phase = .aborting then s else s.failFeatures q w.status
      | none => s)
  | .block _ _ => (s.partTake iss (.inl (before, false))).partTake iss (.inr w.status)
  | .cmd id => if s.probeRead id w then s.partTake iss (.inl (before, true)) else s.partTake iss (.inr w.status)

/-- One request of a block ends. -/
def State.endRead (s : State) (iss : Issuer) (off total : Nat) (r : Sum Bytes HostFail) : State :=
  let p := s.endPiece iss off total r
  match p.1 with
  | .open => p.2
  | .whole data => p.2.giveHost iss data
  | .failed w before => p.2.failHost iss w before

/-! ### Completions (R441, R457, R459) -/

/-- Bytes that a completion carries count as PCIE_DN of the den; descriptors are counted where they are admitted
(13 R418). -/
def State.countDn (s : State) (r : HostRead) : State :=
  match r.issuer with
  | .ring k _ _ => if r.fn = 0 ∨ 16 ≤ k % 32 then s else s.count (r.fn - 1) cPcieDn r.len
  | _ => if r.fn = 0 then s else s.count (r.fn - 1) cPcieDn r.len

/-- What a completion says of its read. -/
def cplResult (e : CplErr) (n : Nat) (data : Bytes) : Sum Bytes HostFail :=
  match e with
  | .ok => .inl (padB n data)
  | .refused => .inr .error
  | .poisoned => .inr .poison

/-- A completion reaches the read that its tag names. -/
def State.completion (s : State) (tag : Nat) (data : Bytes) (e : CplErr) : State :=
  let p := s.takeRead tag true
  match p.1 with
  | none => p.2
  | some r => ((if e = .refused then p.2 else p.2.countDn r).endRead r.issuer r.off r.total (cplResult e r.len data))

/-- Number of a completion's error among the TLPs that the PCIe edge holds. -/
def cplNum (e : CplErr) : Nat :=
  match e with
  | .ok => 0
  | .refused => 1
  | .poisoned => 2

/-- The error of a number. -/
def cplErr (n : Nat) : CplErr := if n = 0 then .ok else if n = 1 then .refused else .poisoned

/-- A completion arrives; the PCIe edge buffers it while the fast clocks are stopped (17 R567). -/
def State.takeCompletion (s : State) (tag : Nat) (data : Bytes) (e : CplErr) : State :=
  if s.asleep then s.hold { kind := .completion, fn := cplNum e, off := tag, len := data.length, data := data }
  else s.completion tag data e

/-- The read of a tag carries entries of a submission ring. -/
def State.readsRing (s : State) (tag : Nat) : Bool :=
  s.pcie.reads.any (fun r => r.tag == tag && (match r.issuer with
    | .ring _ _ _ => true
    | _ => false))

/-- RING_ENTRY_FETCH_DONE (R441): the entries are placed in the ring in their order. -/
def execRingEntryFetchDone (tag : Nat) (data : Bytes) (s : State) : Host.Outcome State Fault Refusal :=
  .next (if s.readsRing tag then s.takeCompletion tag data .ok else s)

/-- HOST_READ_COMPLETION (R457). -/
def execHostReadCompletion (tag : Nat) (data : Bytes) (err : CplErr) (s : State) : Host.Outcome State Fault Refusal :=
  .next (s.takeCompletion tag data err)

/-- A host read has no completion within its Completion Timeout: the tag is free, and the read has failed (R457, R459). -/
def State.readTimeout (s : State) (tag : Nat) : State :=
  let p := s.takeRead tag false
  match p.1 with
  | none => p.2
  | some r => p.2.endRead r.issuer r.off r.total (.inr .error)

/-- COMPLETION_TIMEOUT (R457): the timers of a sleeping device stand still (17 R567). -/
def execCompletionTimeout (tag : Nat) (s : State) : Host.Outcome State Fault Refusal :=
  .next (if s.asleep then s else s.readTimeout tag)

/-! ### Answers to Translation Requests (R455) -/

/-- The entry that an answer gives. -/
def atsEntry (fn iova target log2 : Nat) (r w : Bool) : AtsEntry :=
  let n := max 12 (min 30 log2)
  { fn := fn, iova := iova / 2 ^ n * 2 ^ n, log2 := n, target := target / 2 ^ n * 2 ^ n, r := r, w := w }

/-- The cache takes an entry that grants something, in place of one of the same page; the oldest of more than 8,192 goes
(R455; which one goes is the model's choice). -/
def Pcie.cache (p : Pcie) (e : AtsEntry) : Pcie :=
  if e.r || e.w then
    let l := p.ats.filter (fun x => !(x.fn == e.fn && x.iova == e.iova && x.log2 == e.log2)) ++ [e]
    { p with ats := l.drop (l.length - 8192) }
  else p

/-- Some piece of an issuer's block still waits for its translation. -/
def State.piecesWait (s : State) (iss : Issuer) : Bool := (s.pcie.xlate ++ s.pcie.waiting).any (fun x => x.issuer == iss)

/-- A posted write has left: its issuer goes on once every piece has. -/
def State.writeLeft (s : State) (iss : Issuer) : State :=
  if s.piecesWait iss then s
  else
    match iss with
    | .tile t acc => s.modTile t (fun y => y.serveAcc acc [] false)
    | .stream t u dseq addr => s.streamServed t u dseq addr [] 0
    | .cmd id => s.modCmd id (fun c => { c with got := true })
    | .ring _ _ _ | .feature _ | .block _ _ => s

/-- A write meets a translation fault. -/
def State.writeFault (s : State) (iss : Issuer) : State :=
  match iss with
  | .tile t acc => s.setAcc t acc (.failed HostFail.xlate.cause)
  | .stream t u dseq addr => s.streamServed t u dseq addr [] HostFail.xlate.sub
  | .cmd id => (s.modCmd id (fun c => { c with fail := some HostFail.xlate.status })).writeLeft iss
  | .ring _ _ _ | .feature _ | .block _ _ => s

/-- The access that an answer was for goes on, or meets a translation fault. -/
def State.translatedAcc (s : State) (x : PendXlate) (e : AtsEntry) : State :=
  if x.write then
    if e.w then (s.sendWrite x.fn (e.apply x.addr) x.data).writeLeft x.issuer else s.writeFault x.issuer
  else if e.r then s.sendRead x (e.apply x.addr)
  else s.endRead x.issuer x.off x.total (.inr .xlate)

/-- The answer to the oldest Translation Request of a function for a page; an answer to none has no effect. -/
def State.translated (s : State) (fn iova target log2 : Nat) (r w : Bool) : State :=
  let mine (x : PendXlate) : Bool := x.fn == fn && decide (x.addr / 4096 = iova / 4096)
  match s.pcie.xlate.find? mine with
  | none => s
  | some x =>
    let e := atsEntry fn iova target log2 r w
    let p := Pcie.cache { s.pcie with xlate := dropFirst mine s.pcie.xlate } e
    (State.translatedAcc { s with pcie := p } x e).drainAll

/-- TRANSLATION_COMPLETION (R455); the PCIe edge buffers it while the fast clocks are stopped (17 R567). -/
def execTranslationCompletion (fn iova target log2 : Nat) (r w : Bool) (s : State) : Host.Outcome State Fault Refusal :=
  .next (
    if s.asleep then
      s.hold { kind := .translation, fn := fn, off := iova, len := log2, data := toLe 8 target ++ [if r then 1 else 0, if w then 1 else 0] }
    else s.translated fn iova target log2 r w)

end Sys2Proof.Machine
end

