-- ==== Sys2Proof/Machine/Regs.lean ====
section
/-!
DEFINITION. What every register of a CTRL window reads: the maps of the windows, and one function for each block
(00 R14 to R16, 14 R433, R434, and the register tables of each chapter).
-/

namespace Sys2Proof.Machine

/-! ### The windows (R433, R434) -/

/-- The PF offset of an offset in the CTRL window of a function; none for the MSI-X table and for what lies outside a VF's
two blocks (R434). -/
def ctrlOff (fn off : Nat) : Option Nat :=
  if fn = 0 then (if off < 0x2000000 then some off else none)
  else if off < 0x10000 then some (0x100000 + (fn - 1) * 0x10000 + off)
  else if off < 0x30000 then some (0x400000 + (fn - 1) * 0x20000 + (off - 0x10000))
  else none

/-- Start of the MSI-X table of a function; the PBA lies 4 KiB above it. -/
def msixBase (fn : Nat) : Nat := if fn = 0 then 0x2000000 else 0x80000

/-- A number of fields, each with its lowest bit and width: the register that they form. -/
def fields (l : List (Nat × Nat × Nat)) : Nat := (l.map (fun p => p.1 % 2 ^ p.2.2 * 2 ^ p.2.1)).sum

/-- A bit as a field value. -/
abbrev flag (b : Bool) (i : Nat) : Nat × Nat × Nat := (b2n b, i, 1)

/-! ### HUB (03 R112 to R116, 14 R476, 17 R586 to R591, 18 R621 to R623) -/

/-- HUB_MIOQACT (03 R113). -/
def State.mioQact (s : State) (q : Nat) : Nat :=
  fields [((s.quad q).tag, 0, 2), flag (s.quad q).loading.isSome 2, ((s.quad q).tokens.toNat, 32, 32)]

/-- The Mioter registers of the HUB block (03 R112 to R116). -/
def State.mioReg (s : State) (o : Nat) : Option Nat :=
  let m := s.mioter
  if 0x40000 ≤ o ∧ o < 0x40400 then
    (if o % 0x100 = 0 then some (s.mioSlotReg ((o - 0x40000) / 0x100) (fun _ => true))
     else if o % 0x100 = 8 then some (s.mioQact ((o - 0x40000) / 0x100)) else none)
  else if o = 0x41000 then
    some (fields [flag m.smpEn 0, flag m.smpWrap 1, (m.smpCount.toNat, 4, 7), (m.smpPeriod.toNat, 32, 20)])
  else if o = 0x41008 then some (fields [(m.smpWptr.toNat, 0, 10), flag m.smpFull 10, (m.smpDropped.toNat, 32, 32)])
  else if 0x41100 ≤ o ∧ o < 0x41180 then
    let j := (o - 0x41100) / 8
    some (fields ((List.range 4).map (fun i => ((mget 0 m.smpSel (4 * j + i)).toNat, 16 * i, 12))))
  else if 0x50000 ≤ o ∧ o < 0x60000 then
    some (fld (mget (List.replicate 64 0) m.smpBuf ((o - 0x50000) / 64)) ((o - 0x50000) % 64) 8)
  else none

/-- The PCIe registers of the HUB block (14 R476). -/
def State.hubPcieReg (s : State) (o : Nat) : Option Nat :=
  let p := s.pcie
  match o with
  | 0x60000 => some (fields [flag p.linkUp 0, (p.rate, 1, 2), (p.width, 3, 5), flag p.noflit 8])
  | 0x60008 => some (fields [(p.devmemBase.toNat, 24, 32)])
  | 0x60010 => some (fields [flag s.boot.prof.retain 0, (p.retSt, 1, 2), (p.retCause, 4, 2), (p.retHeld.toNat, 32, 32)])
  | 0x60018 =>
    if p.retSt = 0 then some (fields [(s.boot.prof.retainTimeout, 32, 32)])
    else some (fields [(s.since p.retT / 250000000, 0, 32), (p.retTo, 32, 32)])
  | 0x60020 => some (fields [(p.atsHit.toNat, 0, 32), (p.atsMiss.toNat, 32, 32)])
  | _ => none

/-- HUB_PWR.STATE (17 R586). -/
def DevSt.code (x : DevSt) : Nat :=
  match x with
  | .active | .off => 0
  | .hush => 1
  | .standby => 2
  | .retain => 3
  | .limp => 4

/-- FCLK runs in a quadrant (17 R559). -/
def State.fclkOn (s : State) (q : Nat) : Bool :=
  (List.range 4).any (fun c => (s.slot q c).st == .ready || (s.slot q c).st == .loading)

/-- Four 16-bit counters of levels 1 to 4 (17 R590, 06 R212). -/
def therm4 (m : SMap W16) : Nat := fields ((List.range 4).map (fun i => ((mget 0 m i).toNat, 16 * i, 16)))

/-- The power and clock registers of the HUB block (17 R586 to R591). -/
def State.hubPwrReg (s : State) (o : Nat) : Option Nat :=
  let w := s.pwr
  match o with
  | 0x70000 => some (fields [(w.st.code, 0, 3), flag w.thermal 3, flag w.thermHold 4, (w.wake, 8, 4), (w.hushes.toNat, 32, 16)])
  | 0x70008 =>
    some (fields ([(w.tclkCur, 0, 5), (s.tclkTarget, 8, 5), (s.limiter, 16, 2), flag w.xtalOk 20] ++
      (List.range 4).map (fun q => flag (s.fclkOn q) (24 + q))))
  | 0x70010 => some (fields [(w.cap, 0, 11), (w.limVal, 16, 5), flag s.halfRate 21, (w.p100, 32, 16)])
  | 0x70018 => some (fields [(w.stepDown.toNat, 0, 32), (w.stepUp.toNat, 32, 32)])
  | 0x70020 => some (therm4 w.therm)
  | 0x70028 =>
    some (fields ((List.range 3).map (fun d => ((mget 0 w.dieTemp d).toNat, 8 * d, 8)) ++ [(s.devLevel, 24, 3)]))
  | 0x70030 => some (fields [(w.alarm.toNat, 0, 48), (w.wdrop.toNat, 48, 16)])
  | 0x70038 => some w.aon.toNat
  | _ => none

/-- The bring-up registers of the HUB block (18 R621 to R623). -/
def State.hubBootReg (s : State) (o : Nat) : Option Nat :=
  let b := s.boot
  match o with
  | 0x70100 =>
    some (fields [(b.mode, 0, 3), flag b.warm 3, (b.profile, 4, 2), flag b.pdefault 6, flag b.ovr 7, (b.bank, 8, 1),
      flag b.fallback 9, (b.fails, 12, 4), (b.source, 16, 3), (b.stacks8.toNat, 24, 8), (b.short, 32, 4)])
  | 0x70108 => some (fields [(b.cpRel.toNat, 0, 32), (b.ready.toNat, 32, 32)])
  | 0x70110 =>
    some (fields [(popNat b.slices.toNat 64, 0, 7), (popNat b.engines.toNat 32, 8, 6), (popNat b.tilesOk.toNat 256, 16, 9)])
  | _ => none

/-! ### Rings (14 R474, R475) -/

/-- The rings of a function (R438). -/
def ringExists (fn id : Nat) : Bool := if fn = 0 then decide (id ≤ 15) || id == 29 else decide (id ≤ 29)

/-- A register of a ring's group (R474). -/
def Ring.reg (r : Ring) (o : Nat) : Option Nat :=
  match o with
  | 0x00 => some r.base.toNat
  | 0x08 => some (fields [flag r.en 0, (r.log2n.toNat, 8, 5)])
  | 0x10 => some r.head.toNat
  | 0x18 => some (fields [(r.tail.toNat, 0, 32), (r.rsvd, 32, 17)])
  | 0x20 => some r.wb.toNat
  | _ => none

/-- A register of the RING block of a function (R474, R475). The PF's two registers of R475 are taken to lie at the same
offsets of its own block as a den's (DEDUCED). -/
def State.ringReg (s : State) (fn o : Nat) : Option Nat :=
  let f := s.fn fn
  if o < 0x800 then (if ringExists fn (o / 0x40) then (s.ring (32 * fn + o / 0x40)).reg (o % 0x40) else none)
  else if o = 0x800 then
    some (fields [flag f.bme 0, flag f.flr 1, flag (decide (fn ≠ 0) && (s.den (fn - 1)).scrub) 2, (f.dbdrop.toNat, 16, 16),
      (f.latecpl.toNat, 32, 32)])
  else if o = 0x808 then some f.evlost.toNat
  else none

/-- A register of the HUB block (R433). -/
def State.hubReg (s : State) (o : Nat) : Option Nat :=
  if o < 0x60000 then s.mioReg o
  else if o < 0x70000 then s.hubPcieReg o
  else if o < 0x70100 then s.hubPwrReg o
  else if o < 0x80000 then s.hubBootReg o
  else s.ringReg 0 (o - 0x80000)

/-! ### Dens and accounting (13 R422 to R429) -/

/-- A regulator's configuration register (R425). -/
def Bucket.cfgReg (b : Bucket) : Nat := fields [flag b.en 0, (b.rate.toNat, 8, 20), (b.burst.toNat, 32, 32)]

/-- One of the 20 accounting counters at an offset of R429. -/
def acctReg (m : SMap W64) (o : Nat) : Option Nat := if o < 0xA0 then some (mget 0 m (o / 8)).toNat else none

/-- DEN_HBM_r (R424). -/
def Den.hbmReg (x : Den) (r : Nat) : Nat :=
  match x.hbm[r]? with
  | some p => fields [(p.1, 0, 15), (p.2, 16, 15), (1, 31, 1)]
  | none => 0

/-- A register of a den's DEN block (R422 to R427). -/
def State.denReg (s : State) (d o : Nat) : Option Nat :=
  let x := s.den d
  if o = 0 then some (s.denStateReg d)
  else if o < 0x28 then some (bits x.tiles.toNat (64 * ((o - 8) / 8)) 64)
  else if o = 0x28 then some x.mioSlots.toNat
  else if o = 0x30 then some x.mioEnts.toNat
  else if 0x40 ≤ o ∧ o < 0xC0 then some (x.hbmReg ((o - 0x40) / 8))
  else if 0x100 ≤ o ∧ o < 0x140 then
    let b := x.bucket (pathOf ((o - 0x100) / 0x10))
    some (if o % 0x10 = 0 then b.cfgReg else (BitVec.ofInt 64 b.level).toNat)
  else if o = 0x200 then some (s.denQueueReg d)
  else if 0x1000 ≤ o ∧ o < 0x1100 then acctReg x.cnt (o - 0x1000)
  else if 0x1100 ≤ o ∧ o < 0x1128 then some (mget 0 x.cnt (cRows + (o - 0x1100) / 8)).toNat
  else none

/-- A register of the ACCT block (R428, R429). -/
def State.acctBlockReg (s : State) (o : Nat) : Option Nat :=
  match o with
  | 0x0000 => some (2 * b2n s.pwr.acctSnapped)
  | 0x0008 => some s.pwr.acctSnapTime.toNat
  | 0x0010 => some s.pwr.acctUnattr.toNat
  | 0x0018 => some s.pwr.acctCal.toNat
  | _ =>
    if 0x1000 ≤ o ∧ o < 0x3000 then acctReg (s.den ((o - 0x1000) / 0x100)).cnt (o % 0x100)
    else if 0x4000 ≤ o ∧ o < 0x6000 then acctReg (s.den ((o - 0x4000) / 0x100)).snap (o % 0x100)
    else none

/-! ### FGR and HRD (04 R145 to R147, 12 R387, R388, 05 R179, R180, 07 R241 to R243) -/

/-- Walks that wait to begin (12 R388). -/
def State.walksQueued (s : State) : Nat :=
  (s.reqs.filter (fun q => match q.walk with
    | some w => !w.begun
    | none => false)).length

/-- A register of a den's FGR block (04 R146, R147). -/
def State.fgrDenReg (s : State) (d o : Nat) : Option Nat :=
  let x := s.den d
  if o = 0 then some (fields [(x.laDepth.toNat, 0, 2), (x.inflightMax.toNat, 16, 13), (x.ibufQuota.toNat, 32, 17)])
  else if o ≤ 0x28 then some (mget 0 x.cnt (cRows + (o - 8) / 8)).toNat
  else none

/-- A register of a den's history block (12 R387). -/
def State.hstDenReg (s : State) (d o : Nat) : Option Nat :=
  let x := s.den d
  if o = 0 then some x.hdirBase.toNat
  else if o = 8 then some x.hdirLen.toNat
  else if o ≤ 0x28 then some (mget 0 x.cnt (cHstEvents + (o - 0x10) / 8)).toNat
  else none

/-- A register of the FGR block. -/
def State.fgrReg (s : State) (o : Nat) : Option Nat :=
  if o = 0 then some (fields [(s.forager.slots.length, 0, 13), (s.forager.ibuf.length, 32, 17)])
  else if o = 8 then some (fields [(s.walksRunning, 0, 7), (s.walksQueued, 32, 16)])
  else if 0x1000 ≤ o ∧ o < 0x1800 then s.fgrDenReg ((o - 0x1000) / 0x40) (o % 0x40)
  else if 0x3000 ≤ o ∧ o < 0x3800 then s.hstDenReg ((o - 0x3000) / 0x40) (o % 0x40)
  else none

/-- MODE of a way (05 R179). -/
def WayMode.code (x : WayMode) : Nat :=
  match x with
  | .shared => 0
  | .pin => 1
  | .scratch => 2

/-- Pin-space lines of a den not assigned to a table (05 R158, R180). -/
def State.pinFree (s : State) (d : Nat) : Nat :=
  262144 * (s.pinWays d).length - ((s.pinRegions d 65536).map (fun p => (p.2 + 127) / 128)).sum

/-- A register of a den's HRD block (05 R180). -/
def State.hrdDenReg (s : State) (d o : Nat) : Option Nat :=
  let x := s.den d
  if o = 0 then some (fields [(x.fill.toNat, 0, 16), (s.pinFree d, 32, 24)])
  else if o < 0x28 then some (mget 0 x.cnt (cHit + (o - 8) / 8)).toNat
  else if o = 0x30 then some (fields [(x.arrMax.toNat, 0, 15), (s.arrOf d, 32, 15)])
  else none

/-- A device-wide register of the HRD block (05 R179, 07 R241, R242). -/
def State.hrdTop (s : State) (o : Nat) : Option Nat :=
  let h := s.hoard
  let own (lo : Nat) : Nat := fields ((List.range 8).map (fun k => ((s.way (lo + k)).owner, 8 * k, 5)))
  match o with
  | 0x00 => some (fields ((List.range 16).map (fun w => ((s.way w).mode.code, 2 * w, 2))))
  | 0x08 => some (own 0)
  | 0x10 => some (own 8)
  | 0x20 =>
    some (fields [((h.arr.filter (fun (p : Nat × ArrSlot) => p.2.used)).length, 0, 15),
      (((h.arr.filter (fun (p : Nat × ArrSlot) => p.2.used)).map (fun (p : Nat × ArrSlot) => p.2.lines)).sum, 32, 23)])
  | 0x28 =>
    some (fields [flag h.flushActive 0, flag h.flushDone 1,
      ((h.lines.filter (fun (p : Nat × HLine) => p.2.dirty && decide (p.2.addr < hbmSize))).length, 32, 23)])
  | 0x30 => some (fields [(h.corr.toNat, 0, 32), (h.uncorr.toNat, 32, 32)])
  | 0x40 =>
    some (fields [(h.dirs.length, 0, 15), ((h.dirs.filter (fun (x : RowDir) => !x.committed)).length, 32, 15)])
  | 0x48 => some (fields [(s.wsw.id.toNat, 0, 32), (s.wsw.master, 32, 8), (s.wsw.st, 40, 3), flag s.wsw.late 43])
  | _ => none

/-- A register of the HRD block. -/
def State.hrdReg (s : State) (o : Nat) : Option Nat :=
  if 0x1000 ≤ o ∧ o < 0x1800 then s.hrdDenReg ((o - 0x1000) / 0x40) (o % 0x40)
  else if 0x2000 ≤ o ∧ o < 0x2800 then
    (if o % 0x40 < 0x28 then some (mget 0 (s.den ((o - 0x2000) / 0x40)).cnt (cUpdRows + o % 0x40 / 8)).toNat else none)
  else s.hrdTop o

/-! ### HBM (06 R207 to R212) -/

/-- A register of an HBM stack. A bank group of each pseudo-channel of each die has one hard resource: 1,536 in all. -/
def State.hbmReg (s : State) (n o : Nat) : Option Nat :=
  let y := s.stack n
  match o with
  | 0x00 =>
    some (fields [(y.temp.toNat, 0, 8), (y.level, 8, 3), flag y.selfref 11, flag y.margin 12, flag y.repair.isSome 13,
      (y.tempMax.toNat, 16, 8), (s.stripesRetired, 32, 16)])
  | 0x08 => some (fields [(y.corr.toNat, 0, 32), (y.uncorr.toNat, 32, 32)])
  | 0x10 => some (fields [flag y.scrubEn 0, (y.scrubPeriod.toNat, 8, 8), (y.scrubPasses.toNat, 32, 16)])
  | 0x18 =>
    some (fields [(y.softRows.length, 0, 12), (y.hardGroups.length, 16, 12), (1536 - y.hardGroups.length, 32, 12),
      ((y.pendRows.filter (fun k => !(y.softRows.contains k))).length, 48, 8)])
  | 0x20 => some (fields [(y.errlog.toNat, 0, 32), flag y.errlogValid 32])
  | 0x28 => some (therm4 y.therm)
  | _ => none

/-! ### Warren (16 R552, R553) -/

/-- FAB_ROUTE_d (R552). -/
def Fab.routeReg (f : Fab) (d : Nat) : Nat :=
  let l := mget [] f.routes d
  fields ((List.range 4).map (fun i => (l.getD i 0xFF, 8 * i, 8)) ++ [(l.length, 32, 3)])

/-- A register of the FAB block (R552). -/
def State.fabReg (s : State) (o : Nat) : Option Nat :=
  let f := s.fab
  match o with
  | 0x00 =>
    some (fields [(f.wid, 0, 8), (f.role, 8, 2), (f.master, 16, 8), (s.warrenState, 24, 2), flag f.synced 26, (f.epoch.toNat, 32, 32)])
  | 0x08 => some s.wtime.toNat
  | 0x10 => some (fields [(f.corr.toNat, 0, 32), (s.since f.hbAt / 250, 32, 32)])
  | 0x18 => some (fields [(f.xacts.length, 0, 15), (f.failed.toNat, 32, 32)])
  | 0x20 => some (fields [(f.dropHops.toNat, 0, 32), (f.dropNoroute.toNat, 32, 32)])
  | _ => if 0x1000 ≤ o ∧ o < 0x1800 then some (f.routeReg ((o - 0x1000) / 8)) else none

/-- LNK_STATUS.STATE (R553). -/
def PortSt.code (x : PortSt) : Nat :=
  match x with
  | .disabled => 0
  | .idle => 1
  | .training => 2
  | .l0 => 3
  | .down => 4
  | .sleep => 5

/-- A register of a link port (R553). -/
def Port.reg (p : Port) (o : Nat) : Option Nat :=
  match o with
  | 0x00 =>
    some (fields [(p.st.code, 0, 3), (p.lanes.toNat, 4, 8), (popNat p.lanes.toNat 8, 12, 4), (p.peerId, 16, 8), (p.peerPort, 24, 5),
      flag p.peerValid 29])
  | 0x08 => some p.fenced.toNat
  | 0x10 => some (fields [(p.corrSym.toNat, 0, 32), (p.uncorrCw.toNat, 32, 32)])
  | 0x18 => some (fields [(p.replays.toNat, 0, 32), (p.retrains.toNat, 32, 32)])
  | 0x20 => some p.delay.toNat
  | 0x28 => some (fields [(p.credRsp, 0, 12), (p.credPool, 16, 12), (p.credReq, 32, 12), (p.credMgt, 48, 7)])
  | _ => none

/-! ### Tiles (02 R71, 08 R288 to R295, 09 R316, R317, 10 R342, R343, 11 R366 to R368) -/

/-- PWR (08 R288). -/
def TilePwr.code (x : TilePwr) : Nat :=
  match x with
  | .run => 0
  | .idle => 1
  | .doze => 2
  | .off => 3

/-- A task is running on the tile (08 R288). -/
def SeqState.busy (x : SeqState) : Bool :=
  match x with
  | .running | .ending | .parked | .aborting => true
  | .none | .waking | .ended | .yielded => false

/-- TIL_STATUS (08 R288). -/
def State.tilStatus (s : State) (t : Nat) : Nat :=
  let x := s.tile t
  fields [(x.pwr.code, 0, 2), flag x.fenced 2, flag (s.tileDen t).isSome 3, flag x.seq.busy 4, ((s.tileDen t).getD 0, 5, 5),
    (x.stall, 10, 4), (x.pc, 32, 13)]

/-- TIL_QUILL (08 R292). -/
def Tile.quillReg (x : Tile) : Nat :=
  fields ((List.range 16).map (fun c => flag (!(mget [] x.chans c).isEmpty) c) ++
    [(x.sendq.length, 16, 3), (((List.range 16).map (fun c => ((mget [] x.chans c).filter (fun h => h.spill.isSome)).length)).sum, 32, 13)])

/-- Some of the passes in the array loads its weights in mode `m`: 1 BULK, 2 FRONT (09 R307). -/
def Tile.loads (x : Tile) (m : Nat) : Bool := x.passes.any (fun p => mxWload p.desc == m)

/-- TIL_MXSTAT (09 R316). How far a FRONT or BULK load has come is a matter of TCLK, which the model does not count: the bit
is 0 when no pass has such a load, and else open (assumption 1). -/
def Tile.mxStat (x : Tile) (open_ : BitVec 32) : Nat :=
  fields [(x.weights.wfmt, 0, 4), flag x.weights.valid 4, flag (x.loads 2 && open_.getLsbD 0) 5, flag (!x.passes.isEmpty) 6,
    flag (x.loads 1 && open_.getLsbD 1) 7, (x.weights.k - 1, 8, 7), (x.weights.n - 1, 16, 9)]

/-- A chain has a transcendental stage (10 R321, R331). -/
def vHalf (b : Bytes) : Bool := (List.range (vNstg b)).any (fun i => decide (8 ≤ sgOp (vStage b i) ∧ sgOp (vStage b i) ≤ 14))

/-- Beats of a pass (10 R331). -/
def vBeats (b : Bytes) : Nat := (vRows b * vCols b + (if vHalf b then 255 else 511)) / (if vHalf b then 256 else 512)

/-- TIL_VXSTAT (10 R342). The beats still to be read are open, up to those of the pass (assumption 1). -/
def Tile.vxStat (x : Tile) (open_ : BitVec 32) : Nat :=
  match x.vx with
  | some b => fields [(1, 0, 1), flag x.rd.isSome 1, flag (vHalf b) 2, (vNstg b, 8, 4), (open_.toNat % (vBeats b + 1), 32, 17)]
  | none => fields [flag x.rd.isSome 1]

/-- Slots of the descriptor that runs that are not finished (11 R366). -/
def StreamUnit.slotsLeft (u : StreamUnit) : Nat :=
  match u.running with
  | d :: _ => suTotal d.desc - (if suRing d.desc then d.posted else 0)
  | [] => 0

/-- TIL_SU_STAT (11 R366). -/
def StreamUnit.stat (u : StreamUnit) : Nat :=
  fields [flag (!u.running.isEmpty) 0, (u.xfers.length, 1, 3), (u.credits, 4, 7), (u.pos, 11, 6), flag u.crwait 17, flag u.tkwait 18,
    (u.slotsLeft, 32, 21)]

/-- The engine registers of a tile. -/
def Tile.engReg (x : Tile) (o : Nat) (open_ : BitVec 32) : Option Nat :=
  match o with
  | 0x200 => some (x.mxStat open_)
  | 0x208 => some (fields [(x.mxPasses.toNat, 0, 32), (x.mxStall.toNat, 32, 32)])
  | 0x210 => some (x.vxStat open_)
  | 0x220 => some (fields [(x.vxPasses.toNat, 0, 32), (x.vxStall.toNat, 32, 32)])
  | 0x228 => some (fields [(x.rdPasses.toNat, 0, 32), (x.rdStall.toNat, 32, 32)])
  | 0x240 => some x.su0.stat
  | 0x248 => some x.su0.bytes.toNat
  | 0x250 => some x.su1.stat
  | 0x258 => some x.su1.bytes.toNat
  | 0x260 => some (fields [(x.sufltSub.toNat, 0, 4), flag x.sufltUnit 4, (x.sufltSlot.toNat, 32, 32)])
  | 0x268 => some (fields [(x.sufltAddr.toNat, 0, 56), flag x.sufltValid 63])
  | 0x300 => some (fields [(x.numstat.toNat, 0, 6), (x.satCount.toNat, 32, 32)])
  | _ => none

/-- Eight semaphores as bytes. -/
def Tile.semReg (x : Tile) (lo : Nat) : Nat := fields ((List.range 8).map (fun k => (mget 0 x.sems (lo + k), 8 * k, 8)))

/-- A register of a tile's TIL block. -/
def State.tilReg (s : State) (t o : Nat) (open_ : BitVec 32) : Option Nat :=
  let x := s.tile t
  match o with
  | 0x00 => some (s.tilStatus t)
  | 0x08 => some (fields [(x.taskId.toNat, 0, 32), (x.placed, 32, 8), (x.count, 40, 9)])
  | 0x10 => some x.dozeAfter.toNat
  | 0x18 => some (fields [(x.guardElapsed.toNat, 0, 32), (x.guardLimit.toNat, 32, 32)])
  | 0x20 => some x.quillReg
  | 0x28 => some (x.semReg 0)
  | 0x30 => some (x.semReg 8)
  | 0x40 => some (fields ((List.range 5).map (fun q => ((mget [] x.engq q).length, 8 * q, 4))))
  | 0x50 => some (fields [(x.faultCause.toNat, 0, 8), (x.trapCode.toNat, 16, 16), flag x.faultValid 32, (x.faultPc.toNat, 48, 13)])
  | _ =>
    if o = 0x100 then some 0
    else if 0x100 < o ∧ o < 0x200 then some (mget 0 x.sregs ((o - 0x100) / 8)).toNat
    else x.engReg o open_

/-! ### TMR and WDG (20 R677 to R679) -/

/-- A register of a timer's group (R677). -/
def Tmr.reg (x : Tmr) (o : Nat) : Option Nat :=
  match o with
  | 0x00 => some (fields [flag x.run 0, flag x.armed 1, (x.route.toNat, 2, 2), flag x.src 4, flag x.pend 5])
  | 0x08 => some x.count.toNat
  | 0x10 => some x.cmp.toNat
  | 0x18 => some x.ivl.toNat
  | 0x20 => some (fields [(x.hits.toNat, 0, 32), (x.missed.toNat, 32, 32)])
  | 0x28 =>
    some (fields [flag x.gEn 0, (x.gDen.toNat, 8, 5), (x.gRing.toNat, 16, 3), (x.gBatch.toNat, 32, 13), (x.gCredit.toNat, 48, 13)])
  | _ => none

/-- A register of the TMR block (R677, R678). -/
def State.tmrReg (s : State) (o : Nat) : Option Nat :=
  if o < 0x800 then (s.tmr (o / 0x100)).reg (o % 0x100)
  else
    match o with
    | 0x800 => some 0
    | 0x808 => some s.tim.gstartAt.toNat
    | 0x810 => some s.tim.evt.toNat
    | 0x818 => some (b2n s.tim.freeze)
    | 0x820 => some (fields [(s.tim.resid.toNat, 0, 8), (s.tim.makeups.toNat, 32, 32)])
    | _ => none

/-- WDG_CP_STAT.STATE (R679). -/
def WdgSt.code (x : WdgSt) : Nat :=
  match x with
  | .stopped => 0
  | .running => 1
  | .held => 2
  | .grace => 3

/-- A register of the WDG block (R679). -/
def Timers.wdgReg (t : Timers) (o : Nat) : Option Nat :=
  match o with
  | 0x00 => some (fields [flag t.cpHw 0, flag t.cpLocked 1, (t.cpTimeout.toNat, 16, 16)])
  | 0x08 => some (fields [(t.cpSt.code, 0, 2), (t.cpRemain.toNat, 16, 16), (t.cpExpiries.toNat, 32, 16)])
  | 0x10 => some (fields [(t.aonPeriod.toNat, 0, 2), flag t.aonLocked 2])
  | 0x18 => some t.aonRemain.toNat
  | _ => none

/-! ### UART, USB, LDG, TAG (19 R653 to R658, 21 R716, R717) -/

/-- The asynchronous rate: the divisor in sixty-fourths nearest to clock ÷ (16 × BAUD), the lower when two are equally near,
and the rate that it gives, to the nearest baud (R626, R628). -/
def asyncRate (clk minDiv baud : Nat) : Nat :=
  let b := max 1200 (min 6250000 baud)
  let d := max (64 * minDiv) ((2 * (64 * clk) + 16 * b - 1) / (2 * (16 * b)))
  (2 * (64 * clk) + 16 * d) / (2 * (16 * d))

/-- UART_SVC_STAT.ACT_BAUD (R626 to R628, R654). -/
def State.actBaud (s : State) : Nat :=
  if s.ser.sync then (if s.hub then 100000000 / max 4 s.ser.ckdiv.toNat else 0)
  else if s.hub then asyncRate 100000000 1 s.ser.baud.toNat
  else asyncRate 4096000 2 s.ser.baud.toNat

/-- A register of the UART block (R653 to R657). -/
def State.uartReg (s : State) (o : Nat) : Option Nat :=
  let u := s.ser
  match o with
  | 0x000 => some (fields [(u.baud.toNat, 0, 23), flag u.sync 24, (u.ckdiv.toNat, 32, 8)])
  | 0x008 => some (fields [(s.actBaud, 0, 23), flag (!s.hub) 24, (u.frames.toNat, 32, 16), (u.naks.toNat, 48, 16)])
  | 0x010 => some (fields [(u.mgtAddr.toNat, 0, 8), (u.mgtMask.toNat, 8, 8), (u.alertDst.toNat, 16, 8)])
  | 0x018 => some (fields [(u.rxOk.toNat, 0, 16), (u.rxBad.toNat, 16, 16), (u.coll.toNat, 32, 16), (u.giveup.toNat, 48, 16)])
  | 0x100 =>
    some (fields [(u.smbAddr.toNat, 0, 7), flag u.smbArp 7, (u.eid.toNat, 8, 8), (u.vdmEid.toNat, 16, 8), (u.pecErr.toNat, 32, 32)])
  | _ => none

/-- USB_STAT (R658). -/
def Serial.usbReg (u : Serial) (o : Nat) : Option Nat :=
  if o = 0 then
    some (fields [flag u.usbAttached 0, flag u.usbHigh 1, flag u.usbSuspended 2, flag u.usbRun.isSome 3, flag u.usbHeld.isSome 4,
      ((match u.usbHeld with
        | some p => p.1
        | none => u.usbHeldTag).toNat, 16, 16), (u.usbResets.toNat, 32, 16), (u.usbDiscarded.toNat, 48, 16)])
  else none

/-- A register of the LDG block (21 R716). -/
def Ledger.reg (l : Ledger) (o : Nat) : Option Nat :=
  match o with
  | 0x00 => some (fields [(l.headSeq.toNat, 0, 32), (l.queue.length, 32, 16), flag l.worn 48])
  | 0x08 => some (fields [(l.usable, 0, 9), (l.spares.length, 16, 6), (l.retired.length, 32, 9)])
  | 0x10 =>
    some (fields [(l.maxErases (l.journal ++ l.profiles), 0, 32),
      (((l.journal ++ l.profiles).filter (fun n => decide (90000 ≤ l.erases n))).length, 32, 10)])
  | 0x18 => some (fields [(l.torn.toNat, 0, 16), (l.crcErr.toNat, 16, 16), (l.dropped.toNat, 32, 32)])
  | 0x20 => some (fields [(l.live, 0, 21), (l.versions, 32, 13)])
  | _ => none

/-- A register of the TAG block (21 R717). -/
def Tag.reg (t : Tag) (o : Nat) : Option Nat :=
  match o with
  | 0x00 =>
    some (fields [flag t.active 0, flag t.rf 1, flag t.pending.isSome 2, ((memGet t.mem 65).toNat, 8, 8), (t.deferred.toNat, 32, 16)])
  | 0x08 => some (fields [(t.sessions.toNat, 0, 32), (t.locked.toNat, 32, 32)])
  | _ => none

/-! ### ERR (22 R741, R742) -/

/-- The 32 bytes of a log entry (R742). -/
def LogEntry.bytes (e : LogEntry) : Bytes :=
  toLe 4 e.seq.toNat ++ toLe 1 e.cls ++ toLe 1 (b2n e.evented + 2 * b2n e.journaled) ++ toLe 2 e.cause ++ toLe 8 e.loc.toNat ++
  toLe 8 e.wtime.toNat ++ toLe 4 e.count.toNat ++ [0, 0, 0, 0]

/-- 64 bits of the fence map (R741). -/
def State.fenceMap (s : State) (k : Nat) : Nat := fields ((List.range 64).map (fun i => flag (s.tile (64 * k + i)).fenced i))

/-- A register of the ERR block (R741, R742). -/
def State.errReg (s : State) (o : Nat) : Option Nat :=
  let e := s.err
  if 0x10 ≤ o ∧ o < 0x38 then some (mget 0 e.cls ((o - 0x10) / 8)).toNat
  else if 0x50 ≤ o ∧ o < 0x70 then some (s.fenceMap ((o - 0x50) / 8))
  else if 0x8000 ≤ o ∧ o < 0x8800 then
    let t := (o - 0x8000) / 8
    some (fields [((mget [] e.recent t).length, 0, 2), ((mget 0 e.total t).toNat, 32, 16)])
  else if 0x10000 ≤ o ∧ o < 0x18000 then some (fld (mget ({} : LogEntry) e.log ((o - 0x10000) / 32)).bytes (o % 32) 8)
  else
    match o with
    | 0x00 => some (fields [(e.wptr.toNat, 0, 10), flag e.wrapped 10, (e.seq.toNat, 32, 32)])
    | 0x40 => some e.mask.toNat
    | 0x70 => some (fields [(e.resetClass.toNat, 0, 3), (e.resetCause.toNat, 16, 16)])
    | 0x78 => some e.resetLoc.toNat
    | 0x80 => some (fields [flag e.jtagRd 0, flag e.jtagHalt 1, flag e.dbgLock 63])
    | _ => none

/-! ### The whole map -/

/-- The 64 bits at an 8-byte-aligned offset of the PF's CTRL window below the MSI-X table; none for a hole (R433). -/
def State.pfReg (s : State) (o : Nat) (open_ : BitVec 32) : Option Nat :=
  if o < 0x100000 then s.hubReg o
  else if o < 0x300000 then s.denReg ((o - 0x100000) / 0x10000) (o % 0x10000)
  else if 0x400000 ≤ o ∧ o < 0x800000 then s.ringReg ((o - 0x400000) / 0x20000 + 1) (o % 0x20000)
  else if 0x800000 ≤ o ∧ o < 0xA00000 then s.fgrReg (o - 0x800000)
  else if 0xA00000 ≤ o ∧ o < 0xC00000 then s.hrdReg (o - 0xA00000)
  else if 0xC00000 ≤ o ∧ o < 0xC80000 then s.hbmReg ((o - 0xC00000) / 0x10000) (o % 0x10000)
  else if 0xE00000 ≤ o ∧ o < 0x1000000 then s.fabReg (o - 0xE00000)
  else if 0x1000000 ≤ o ∧ o < 0x1400000 then s.tilReg ((o - 0x1000000) / 0x4000) (o % 0x4000) open_
  else if 0x1800000 ≤ o ∧ o < 0x1980000 then (s.port ((o - 0x1800000) / 0x10000)).reg (o % 0x10000)
  else if 0x1C00000 ≤ o ∧ o < 0x1C10000 then s.tmrReg (o % 0x10000)
  else if 0x1C10000 ≤ o ∧ o < 0x1C20000 then s.tim.wdgReg (o % 0x10000)
  else if 0x1C20000 ≤ o ∧ o < 0x1C30000 then s.uartReg (o % 0x10000)
  else if 0x1C30000 ≤ o ∧ o < 0x1C40000 then s.ldg.reg (o % 0x10000)
  else if 0x1C40000 ≤ o ∧ o < 0x1C50000 then s.tag.reg (o % 0x10000)
  else if 0x1C50000 ≤ o ∧ o < 0x1C60000 then s.ser.usbReg (o % 0x10000)
  else if 0x1D00000 ≤ o ∧ o < 0x1D10000 then s.acctBlockReg (o % 0x10000)
  else if 0x1E00000 ≤ o ∧ o < 0x2000000 then s.errReg (o - 0x1E00000)
  else none

/-- The 64 bits of a function's MSI-X table at an offset from its start, or of its PBA (14 R433, R434, R453; the layout of an
entry and of the PBA is that of PCIe, PRESUMED). -/
def State.msixReg (s : State) (fn o : Nat) : Option Nat :=
  let m := (s.fn fn).msix
  if o < 16 * vectors fn then
    let e := mget ({} : MsixEntry) m (o / 16)
    some (if o % 16 = 0 then e.addr.toNat else fields [(e.data.toNat, 0, 32), flag e.masked 32])
  else if o = 0x1000 then some (fields ((List.range (vectors fn)).map (fun v => flag (mget ({} : MsixEntry) m v).pending v)))
  else none

/-- What a function reads at an 8-byte-aligned offset of its CTRL window; none for a hole (R433, R434). -/
def State.ctrlReg (s : State) (fn off : Nat) (open_ : BitVec 32) : Option Nat :=
  if msixBase fn ≤ off ∧ off < msixBase fn + 0x1008 then s.msixReg fn (off - msixBase fn)
  else
    match ctrlOff fn off with
    | some o => s.pfReg o open_
    | none => none

/-! ### Counters in halves (00 R19) -/

/-- The offset names a 64-bit counter of which R19 speaks: per-den counters, live or as the snapshot holds them, Warren time
and the AON count, the fault counts, the timers' counts, and the bytes a stream unit has moved. -/
def counterAt (o : Nat) : Bool :=
  o == 0x70038 || o == 0xE00008 || o == 0x1D00010 ||
  (decide (0x100000 ≤ o ∧ o < 0x300000) && decide (0x1000 ≤ o % 0x10000)) ||
  (decide (0x801000 ≤ o ∧ o < 0x801800) && o % 0x40 != 0) ||
  (decide (0x803000 ≤ o ∧ o < 0x803800) && decide (0x10 ≤ o % 0x40)) ||
  (decide (0xA01000 ≤ o ∧ o < 0xA01800) && decide (8 ≤ o % 0x40 ∧ o % 0x40 < 0x28)) ||
  decide (0xA02000 ≤ o ∧ o < 0xA02800) ||
  (decide (0x1000000 ≤ o ∧ o < 0x1400000) && (o % 0x4000 == 0x248 || o % 0x4000 == 0x258)) ||
  (decide (0x1C00000 ≤ o ∧ o < 0x1C00800) && o % 0x100 == 8) ||
  decide (0x1D01000 ≤ o ∧ o < 0x1D06000) ||
  decide (0x1E00010 ≤ o ∧ o < 0x1E00038)

/-- What a 32-bit read of the high half of a register returns: the function's shadow when it holds this counter's high half
(00 R19). -/
def State.highHalf (s : State) (fn off : Nat) : W32 :=
  match (s.fn fn).shadow with
  | some p => if p.1 = off then p.2 else BitVec.ofNat 32 ((s.ctrlReg fn off 0).getD 0 / 2 ^ 32)
  | none => BitVec.ofNat 32 ((s.ctrlReg fn off 0).getD 0 / 2 ^ 32)

end Sys2Proof.Machine
end

