-- ==== Sys2Proof/Machine/RegWrite.lean ====
section
/-!
DEFINITION. Writes to the registers of a CTRL window, the reads that a row of its own describes, and accesses to the
DEVMEM windows (00 R15 to R21, 14 R433 to R440, 22 R739).
-/

namespace Sys2Proof.Machine

/-! ### One write (R14, R15, R17) -/

/-- A write of a register: the register as it would read with the written bits in place, and the bits that the write sets
to 1, among the bits that it covers. -/
structure RegW where
  /-- old bits outside the written half, written bits inside it -/
  w : W64 := 0
  /-- written bits, 0 outside the written half -/
  one : W64 := 0
  /-- bits that the write covers -/
  mask : W64 := 0
  deriving DecidableEq, Repr

/-- Bits that a write of `len` bytes at an offset covers. -/
def wrMask (off len : Nat) : W64 :=
  if len = 8 then BitVec.allOnes 64 else if off % 8 = 0 then 0xFFFFFFFF#64 else 0xFFFFFFFF00000000#64

/-- A write over a register that reads `old` (R17). -/
def regW (old off : Nat) (data : Bytes) : RegW :=
  let m := wrMask off data.length
  let one := BitVec.ofNat 64 (fld data 0 data.length * 2 ^ (8 * (off % 8))) &&& m
  { w := (BitVec.ofNat 64 old &&& ~~~m) ||| one, one := one, mask := m }

/-- A field of the merged value. -/
def RegW.fld (x : RegW) (lo n : Nat) : BitVec n := x.w.extractLsb' lo n

/-- A bit of the merged value. -/
def RegW.bit (x : RegW) (i : Nat) : Bool := x.w.getLsbD i

/-- The write clears a W1C bit. -/
def RegW.clears (x : RegW) (i : Nat) : Bool := x.one.getLsbD i

/-- The size and alignment of a CTRL access are accepted (R14, R21). -/
def sizeOk (off n : Nat) : Bool := (n == 4 || n == 8) && off % n == 0

/-! ### Rings (R440, R474) -/

/-- A completion ring whose slots are reserved: RCQ and the UCQs (R440). -/
def reservable (id : Nat) : Bool := id == 24 || id == 27 || id == 28

/-- The reads of a ring's entries. -/
def Issuer.isRing (i : Issuer) (k : Nat) : Bool :=
  match i with
  | .ring j _ _ => j == k
  | _ => false

/-- EN from 0 to 1: HEAD and TAIL are 0. -/
def Ring.enable (r : Ring) : Ring := { r with en := true, head := 0, tail := 0, entries := [], wbDue := false }

/-- EN from 1 to 0: entries not yet taken are discarded. -/
def Ring.disable (r : Ring) : Ring := { r with en := false, entries := [] }

/-- A write of RING_CFG (R440, R474). -/
def State.ringCfg (s : State) (fn id : Nat) (x : RegW) : State :=
  let k := 32 * fn + id
  let r := s.ring k
  if r.en then
    (if x.bit 0 then s
     else if reservable id && r.rsvd != 0 then s.fault 0x0208 (ringLoc fn id 0)
     else (s.modRing k Ring.disable).cancelReads (fun i => i.isRing k))
  else
    s.modRing k (fun y =>
      let z := { y with log2n := x.fld 8 5 }
      if x.bit 0 then z.enable else z)

/-- A write of a ring's register group at offset `o` (R474). -/
def State.ringRegWrite (s : State) (fn id o : Nat) (x : RegW) : State :=
  let k := 32 * fn + id
  match o with
  | 0x00 => if (s.ring k).en then s else s.modRing k (fun y => { y with base := x.fld 0 54 })
  | 0x08 => s.ringCfg fn id x
  | 0x20 => if (s.ring k).en then s else s.modRing k (fun y => { y with wb := x.fld 0 54 })
  | _ => s

/-- A write of a RING block. -/
def State.ringWrite (s : State) (fn o : Nat) (x : RegW) : State :=
  if o < 0x800 then s.ringRegWrite fn (o / 0x40) (o % 0x40) x else s

/-! ### HUB (03 R114, R115, 14 R476, 17 R591) -/

/-- HUB_MIOSMP_CTRL (03 R114): RESTART first, since the fields beside it take the values written with it. -/
def Mioter.smpCtrl (m : Mioter) (x : RegW) : Mioter :=
  let m := if x.one.getLsbD 2 then { m with smpWptr := 0, smpFull := false, smpDropped := 0 } else m
  { m with smpEn := x.bit 0, smpWrap := x.bit 1, smpCount := x.fld 4 7, smpPeriod := x.fld 32 20 }

/-- HUB_MIOSMP_SEL (03 R115). -/
def Mioter.smpSelWrite (m : Mioter) (j : Nat) (x : RegW) : Mioter :=
  { m with smpSel := (List.range 4).foldl (fun l i => mset 0 l (4 * j + i) (x.fld (16 * i) 12)) m.smpSel }

/-- A write of the HUB block. -/
def State.hubWrite (s : State) (o : Nat) (x : RegW) : State :=
  if o = 0x41000 then { s with mioter := s.mioter.smpCtrl x }
  else if 0x41100 ≤ o ∧ o < 0x41180 then { s with mioter := s.mioter.smpSelWrite ((o - 0x41100) / 8) x }
  else if o = 0x60008 then { s with pcie := { s.pcie with devmemBase := x.fld 24 32 } }
  else if o = 0x70030 then { s with pwr := { s.pwr with alarm := x.fld 0 48 } }
  else if 0x80000 ≤ o then s.ringWrite 0 (o - 0x80000) x
  else s

/-! ### FGR, HRD, HBM, tiles (04 R146, 05 R179, R180, 07 R242, 06 R209, R211, 02 R71, 08 R290, R295, 11 R366) -/

/-- A write of FGR_DEN_CTRL. -/
def Den.fgrCtrl (d : Den) (x : RegW) : Den :=
  { d with laDepth := x.fld 0 2, inflightMax := x.fld 16 13, ibufQuota := x.fld 32 17 }

/-- A write of the FGR block. -/
def State.fgrWrite (s : State) (o : Nat) (x : RegW) : State :=
  if 0x1000 ≤ o ∧ o < 0x1800 ∧ o % 0x40 = 0 then s.modDen ((o - 0x1000) / 0x40) (fun d => d.fgrCtrl x) else s

/-- A write of the HRD block. -/
def State.hrdWrite (s : State) (o : Nat) (x : RegW) : State :=
  if o = 0x28 then
    (if x.clears 1 then { s with hoard := { s.hoard with flushDone := false } } else s)
  else if o = 0x48 then
    (if x.clears 43 then { s with wsw := { s.wsw with late := false } } else s)
  else if 0x1000 ≤ o ∧ o < 0x1800 ∧ o % 0x40 = 0x30 then
    s.modDen ((o - 0x1000) / 0x40) (fun d => { d with arrMax := x.fld 0 15 })
  else s

/-- A write of an HBM stack's block. -/
def HbmStack.write (y : HbmStack) (o : Nat) (x : RegW) : HbmStack :=
  match o with
  | 0x10 => { y with scrubEn := x.bit 0, scrubPeriod := x.fld 8 8 }
  | 0x20 => if x.clears 32 then { y with errlogValid := false } else y
  | _ => y

/-- A write of a tile's block. -/
def Tile.write (y : Tile) (o : Nat) (x : RegW) : Tile :=
  match o with
  | 0x10 => { y with dozeAfter := x.fld 0 20 }
  | 0x50 => if x.clears 32 then { y with faultValid := false } else y
  | 0x268 => if x.clears 63 then { y with sufltValid := false } else y
  | 0x300 => { y with numstat := y.numstat &&& ~~~(x.one.extractLsb' 0 6), satCount := x.fld 32 32 }
  | _ => y

/-! ### Timers (20 R660, R666, R677, R678) -/

/-- A write of TMR_CTRL: 1 in RUN starts the timer, 0 stops it and cancels a deferred start. -/
def Tmr.ctrl (y : Tmr) (x : RegW) : Tmr :=
  if x.mask.getLsbD 0 then
    { y with run := x.bit 0, pend := false, armed := x.bit 1, route := x.fld 2 2, src := x.bit 4 }
  else y

/-- A write of a timer's group. -/
def State.tmrGroupWrite (s : State) (n o : Nat) (x : RegW) : State :=
  match o with
  | 0x00 => s.modTmr n (fun y => y.ctrl x)
  | 0x08 => s.modTmr n (fun y => { y with count := x.w })
  | 0x10 => s.modTmr n (fun y => { y with cmp := x.w })
  | 0x18 => s.modTmr n (fun y => { y with ivl := x.w })
  | 0x28 => s.gateWrite n x.w
  | _ => s

/-- A write of the TMR block. -/
def State.tmrWrite (s : State) (o : Nat) (x : RegW) : State :=
  if o < 0x800 then s.tmrGroupWrite (o / 0x100) (o % 0x100) x
  else
    match o with
    | 0x800 => if x.mask.getLsbD 0 then s.gstart (x.fld 0 8) (x.bit 8) else s
    | 0x808 => { s with tim := { s.tim with gstartAt := x.w } }
    | 0x810 => { s with tim := { s.tim with evt := s.tim.evt &&& ~~~(x.one.extractLsb' 0 8) } }
    | 0x818 => { s with tim := { s.tim with freeze := x.bit 0 } }
    | _ => s

/-! ### UART and ERR (19 R654, R655, 22 R741) -/

/-- A write of the UART block. -/
def Serial.write (u : Serial) (o : Nat) (x : RegW) : Serial :=
  match o with
  | 0x00 => { u with baud := x.fld 0 23, sync := x.bit 24, ckdiv := x.fld 32 8 }
  | 0x10 => { u with mgtMask := x.fld 8 8, alertDst := x.fld 16 8 }
  | _ => u

/-- A write of the ERR block: bits 0, 5, 12 and 14 to 17 of MASK ignore writes; ERR_DBG is locked by its LOCK. -/
def Err.write (e : Err) (o : Nat) (x : RegW) : Err :=
  match o with
  | 0x40 => { e with mask := x.fld 0 18 &&& 0x02FDE#18 }
  | 0x80 => if e.dbgLock then e else { e with jtagRd := x.bit 0, jtagHalt := x.bit 1, dbgLock := x.bit 63 }
  | _ => e

/-! ### The whole map -/

/-- A write to a register of the PF's map. -/
def State.pfWrite (s : State) (o : Nat) (x : RegW) : State :=
  if o < 0x100000 then s.hubWrite o x
  else if 0x400000 ≤ o ∧ o < 0x800000 then s.ringWrite ((o - 0x400000) / 0x20000 + 1) (o % 0x20000) x
  else if 0x800000 ≤ o ∧ o < 0xA00000 then s.fgrWrite (o - 0x800000) x
  else if 0xA00000 ≤ o ∧ o < 0xC00000 then s.hrdWrite (o - 0xA00000) x
  else if 0xC00000 ≤ o ∧ o < 0xC80000 then s.modStack ((o - 0xC00000) / 0x10000) (fun y => y.write (o % 0x10000) x)
  else if 0x1000000 ≤ o ∧ o < 0x1400000 then s.modTile ((o - 0x1000000) / 0x4000) (fun y => y.write (o % 0x4000) x)
  else if 0x1C00000 ≤ o ∧ o < 0x1C10000 then s.tmrWrite (o % 0x10000) x
  else if 0x1C20000 ≤ o ∧ o < 0x1C30000 then { s with ser := s.ser.write (o % 0x10000) x }
  else if o = 0x1D00000 then (if x.one.getLsbD 0 then s.acctSnap else s)
  else if 0x1E00000 ≤ o ∧ o < 0x2000000 then { s with err := s.err.write (o - 0x1E00000) x }
  else s

/-- A write to an MSI-X table entry (14 R453; the layout is that of PCIe, PRESUMED). -/
def State.msixWrite (s : State) (fn o : Nat) (x : RegW) : State :=
  let v := o / 16
  let e := mget ({} : MsixEntry) (s.fn fn).msix v
  let put (e : MsixEntry) : State := s.modFn fn (fun f => { f with msix := mset {} f.msix v e })
  if 16 * vectors fn ≤ o then s
  else if o % 16 = 0 then put { e with addr := x.w }
  else if x.bit 32 then put { e with data := x.fld 0 32, masked := true }
  else if e.masked then (put { e with data := x.fld 0 32 }).unmask fn v
  else put { e with data := x.fld 0 32 }

/-- A write to the register at an 8-byte-aligned offset of a CTRL window. -/
def State.ctrlPut (s : State) (fn off : Nat) (x : RegW) : State :=
  if msixBase fn ≤ off ∧ off < msixBase fn + 0x1008 then s.msixWrite fn (off - msixBase fn) x
  else
    match ctrlOff fn off with
    | some o => s.pfWrite o x
    | none => s

/-- A write that reaches a CTRL window (R14 to R17, R20, R21). -/
def State.ctrlWrite (s : State) (fn off : Nat) (data : Bytes) : State :=
  if sizeOk off data.length then
    match s.ctrlReg fn (off / 8 * 8) 0 with
    | some old => s.ctrlPut fn (off / 8 * 8) (regW old off data)
    | none => s.accessFault 0x0201 fn 0 off
  else s.accessFault 0x0202 fn 0 off

/-- The offset is that of a RING_CFG register of a function (R434, R438). -/
def ringCfgAt (fn off : Nat) : Bool :=
  match ctrlOff fn off with
  | none => false
  | some p =>
    let at_ (base f : Nat) : Bool := decide (base ≤ p ∧ p < base + 0x800) && (p - base) % 0x40 == 8 && ringExists f ((p - base) / 0x40)
    if p < 0x100000 then at_ 0x80000 0
    else decide (0x400000 ≤ p ∧ p < 0x800000) && at_ ((p - 0x400000) / 0x20000 * 0x20000 + 0x400000) ((p - 0x400000) / 0x20000 + 1)

/-- RING_CFG_WRITE (R440): any accepted write that covers EN. -/
def execRingCfgWrite (fn off : Nat) (data : Bytes) (s : State) : Host.Outcome State Fault Refusal :=
  .next (if ringCfgAt fn off ∧ sizeOk off data.length then s.memWrite .ctrl fn off data (fun s => s.ctrlWrite fn off data) else s)

/-- REG_WRITE (00 R15 to R17, R20, R21): every other write to a CTRL window. -/
def execRegWrite (fn off : Nat) (data : Bytes) (s : State) : Host.Outcome State Fault Refusal :=
  .next (if ringCfgAt fn off ∧ sizeOk off data.length then s
    else s.memWrite .ctrl fn off data (fun s => s.ctrlWrite fn off data))

/-! ### Reads (00 R19 to R21, 22 R739) -/

/-- The offset is that of the low half of a 64-bit counter of the function's window (00 R19). -/
def lowHalfAt (fn off : Nat) : Bool :=
  off % 8 == 0 && (match ctrlOff fn off with
    | some o => counterAt o
    | none => false)

/-- The low half of a counter is read: its high half goes into the function's shadow (00 R19). -/
def State.lowRead (s : State) (fn off : Nat) : State :=
  match s.ctrlReg fn off 0 with
  | some v =>
    (s.modFn fn (fun f => { f with shadow := some (off, BitVec.ofNat 32 (v / 2 ^ 32)) })).emit
      (.regData fn (BitVec.ofNat 64 (v % 2 ^ 32)))
  | none => s

/-- COUNTER_LOW_READ (00 R19). -/
def execCounterLowRead (fn off : Nat) (s : State) : Host.Outcome State Fault Refusal :=
  .next (if lowHalfAt fn off then s.memRead .lowRead fn off 4 (fun s => s.lowRead fn off) else s)

/-- A CTRL read that R20 or R21 refuses: the cause, if it is one. -/
def State.readRefusal (s : State) (fn off len : Nat) : Option Nat :=
  if sizeOk off len then (if (s.ctrlReg fn (off / 8 * 8) 0).isSome then none else some 0x0201) else some 0x0202

/-- A refused read returns zero and is logged (00 R20, R21). -/
def State.refusedRead (s : State) (fn off len : Nat) : State :=
  match s.readRefusal fn off len with
  | some c => (s.accessFault c fn 0 off).emit (.regData fn 0)
  | none => s

/-- REFUSED_READ (00 R20, R21). -/
def execRefusedRead (fn off len : Nat) (s : State) : Host.Outcome State Fault Refusal :=
  .next (if (s.readRefusal fn off len).isSome then s.memRead .refused fn off len (fun s => s.refusedRead fn off len) else s)

/-- What REGRD returns of the PF's window (22 R739). -/
def State.jtagValue (s : State) (off : Nat) (open_ : W32) : W64 :=
  if s.err.jtagRd ∧ s.hub ∧ off % 8 = 0 then BitVec.ofNat 64 ((s.ctrlReg 0 off open_).getD 0) else 0

/-- REGRD is in the instruction register and has been scanned (22 R739, 23 R759). -/
def State.jtagRead (s : State) (off : Nat) : State :=
  let f := s.free 32
  ({ f.2 with tap := { f.2.tap with instr := .regrd } }).emit (.jtag (s.jtagValue off f.1))

/-- JTAG_REGRD (22 R739). -/
def execJtagRegrd (off : Nat) (s : State) : Host.Outcome State Fault Refusal := .next (s.jtagRead off)

/-! ### DEVMEM (R399, R400, R436, R437) -/

/-- What an offset of a DEVMEM window names. -/
inductive DevAt where
  /-- a device address -/
  | mapped (a : Nat)
  /-- nothing: R20 -/
  | hole
  /-- a place that the den checks refuse: R400 -/
  | denied
  deriving DecidableEq, Repr

/-- The `i`-th stripe of a den, in the order of its ranges (R436). -/
def nthStripe (l : List (Nat × Nat)) (i : Nat) : Option Nat :=
  match l with
  | [] => none
  | p :: rest => if i < p.2 then some (p.1 + i) else nthStripe rest (i - p.2)

/-- The SCRATCH ways of a den in ascending order (R436). -/
def State.scratchWays (s : State) (d : Nat) : List Nat :=
  (List.range 16).filter (fun w => (s.way w).mode == .scratch && (s.way w).owner == d)

/-- PF view of its DEVMEM window (R436). -/
def State.devmemPfAt (s : State) (o : Nat) : DevAt :=
  if o < 0x20000000 then (if (s.scratchWay (o / 128)).isSome then .mapped (scratchBase + o) else .hole)
  else if o < 0x40000000 then .hole
  else if o < 0x80000000 then .mapped (sramBase + (o - 0x40000000))
  else
    let a := s.pcie.devmemBase.toNat * 16777216 + (o - 0x80000000)
    if a < hbmSize then .mapped a else .hole

/-- VF view of den `d` (R436, R399). -/
def State.devmemVfAt (s : State) (d o : Nat) : DevAt :=
  if o < 0x20000000 then
    (match (s.scratchWays d)[o / 33554432]? with
     | some w => .mapped (scratchBase + s.scratchRank w * 33554432 + o % 33554432)
     | none => .denied)
  else if o < 0x40000000 then .hole
  else if o < 0x80000000 then
    (if (s.den d).tiles.getLsbD ((o - 0x40000000) / 4194304) then .mapped (sramBase + (o - 0x40000000)) else .denied)
  else
    match nthStripe (s.den d).hbm ((o - 0x80000000) / 16777216) with
    | some n => .mapped (n * 16777216 + o % 16777216)
    | none => .denied

/-- What an offset of a function's DEVMEM window names. -/
def State.devmemAt (s : State) (fn o : Nat) : DevAt := if fn = 0 then s.devmemPfAt o else s.devmemVfAt (fn - 1) o

/-- The request lies within the window and, as PCIe gives every request, within one 4 KiB page (R432, R430). -/
def State.devmemFits (s : State) (fn o n : Nat) : Bool :=
  decide (0 < n ∧ o % 4096 + n ≤ 4096) && decide (o + n ≤ (if fn = 0 then s.pcie.devmemPf else s.pcie.devmemVf) * 2 ^ 30)

/-- The lines of the access meet the Hoard: a hit, or a pass to HBM without a fill (05 R151, R155). -/
def State.devTouch (s : State) (fn a n : Nat) (write : Bool) : State :=
  if hbmSize ≤ a then s else (s.touchLines (fnDen fn) false write false (linesOf a n)).getD s

/-- A permitted DEVMEM write (R437). -/
def State.devmemPut (s : State) (fn a : Nat) (data : Bytes) : State :=
  let s := if fn = 0 then s else s.count (fn - 1) cPcieDn data.length
  match space a with
  | .sram t b => if (s.tile t).pwr = .off then s else s.sramWrite t b data
  | _ => (s.devTouch fn a data.length true).devWrite a data

/-- The data of a permitted DEVMEM read, with the EP bit (R437). -/
def State.devmemGet (s : State) (fn a n : Nat) : Bytes × Bool × State :=
  match space a with
  | .sram t b =>
    if (s.tile t).pwr = .off then (List.replicate n 0, false, s)
    else
      let r := s.sramCarry t b n
      (Machine.memRead (s.tile t).sram b n, r.1.isNone || (s.tile t).marked (granulesOf b n), r.2)
  | _ => (s.devRead a n, s.devBad a n, s.devTouch fn a n false)

/-- A write that reaches a DEVMEM window (R400, R436, R437). -/
def State.devmemWrite (s : State) (fn o : Nat) (data : Bytes) : State :=
  match s.devmemAt fn o with
  | .mapped a => s.devmemPut fn a data
  | .hole => s.accessFault 0x0201 fn 2 o
  | .denied => s.accessFault 0x0203 fn 2 o

/-- The data of a DEVMEM read leave. -/
def State.devmemData (s : State) (fn : Nat) (data : Bytes) (ep : Bool) : State :=
  (if fn = 0 then s else s.count (fn - 1) cPcieUp data.length).emit (.devData fn data ep)

/-- A read that reaches a DEVMEM window (R400, R436, R437). -/
def State.devmemRead (s : State) (fn o n : Nat) : State :=
  match s.devmemAt fn o with
  | .mapped a =>
    let r := s.devmemGet fn a n
    r.2.2.devmemData fn r.1 r.2.1
  | .hole => (s.accessFault 0x0201 fn 2 o).devmemData fn (List.replicate n 0) false
  | .denied => (s.accessFault 0x0203 fn 2 o).devmemData fn (List.replicate n 0) false

/-- DEVMEM_WRITE (R437). -/
def execDevmemWrite (fn off : Nat) (data : Bytes) (s : State) : Host.Outcome State Fault Refusal :=
  .next (if s.devmemFits fn off data.length then s.memWrite .devmem fn off data (fun s => s.devmemWrite fn off data) else s)

/-- DEVMEM_READ (R437). -/
def execDevmemRead (fn off len : Nat) (s : State) : Host.Outcome State Fault Refusal :=
  .next (if s.devmemFits fn off len then s.memRead .devRead fn off len (fun s => s.devmemRead fn off len) else s)

/-! ### The end of a HUSH (17 R567, R568, R582 to R584) -/

/-- A TLP that the PCIe edge has held takes effect (17 R567). -/
def State.release (s : State) (t : HeldTlp) : State :=
  match t.kind with
  | .doorbell => s.doorbell t.fn t.off t.data
  | .ctrl => s.ctrlWrite t.fn t.off t.data
  | .devmem => s.devmemWrite t.fn t.off t.data
  | .lowRead => s.lowRead t.fn t.off
  | .devRead => s.devmemRead t.fn t.off t.len
  | .refused => s.refusedRead t.fn t.off t.len
  | .completion => s.completion t.off t.data (cplErr t.fn)
  | .translation => s.translated t.fn t.off (fld t.data 0 8) t.len (byteAt t.data 8 == 1) (byteAt t.data 9 == 1)

/-- The faults of a stop of the clocks: one HUSH_READ for each read refused, and one HUSH_DROP if a write was discarded
(17 R567, 22 R719). -/
def State.hushFaults (s : State) : State :=
  let n := s.pwr.heldReads
  let d := s.pwr.dropped
  let s := { s with pwr := { s.pwr with heldReads := [], dropped := false } }
  let s := n.foldl (fun s _ => s.fault 0x0209 (mkLoc 11 0 none false 0)) s
  if d then s.fault 0x020A (mkLoc 11 0 none false 0) else s

/-- What the edge has held is applied in order (17 R567). -/
def State.releaseAll (s : State) : State :=
  let l := s.pwr.heldTlps
  let s := { s with pwr := { s.pwr with heldTlps := [] } }
  (l.foldl State.release s).hushFaults

/-- The end of a HUSH with a WAKE code (17 R568, R586). -/
def State.hushLeave (s : State) (code : Nat) : State :=
  (State.startClocks { s with pwr := { s.pwr with st := .active, thermal := false, wake := code, wakePend := none } }).releaseAll

/-- The exit from a thermal HUSH: WAKE 8, the levels, the event with the new level (17 R582, R583). -/
def State.hushCool (s : State) : State :=
  let s := s.resumeLevels
  let s := State.startClocks { s with pwr := { s.pwr with st := .active, thermal := false, wake := 8, wakePend := none } }
  (((s.thermalEvent 16 s.devLevel s.dieReading).thermalEvents)).releaseAll

/-- The end of a hold of R584: the device state stays, and the clocks run again where they ran before. -/
def State.holdCool (s : State) : State :=
  let s := s.resumeLevels
  let s := { s with pwr := { s.pwr with thermHold := false } }
  if s.hub then (s.startClocks.thermalEvents).releaseAll else s

/-- A wake event is held, or the exit condition of a thermal stop holds. -/
def State.hushExit (s : State) : State :=
  if s.pwr.st = .hush then
    if s.pwr.thermal then (if s.cool then s.hushCool else s)
    else
      match s.pwr.wakePend with
      | some c => s.hushLeave c
      | none => s
  else if s.pwr.thermHold ∧ s.cool then s.holdCool
  else s

/-- HUSH_EXIT (17 R568, R582, R584). -/
def execHushExit (s : State) : Host.Outcome State Fault Refusal := .next s.hushExit

end Sys2Proof.Machine
end

