-- ==== Sys2Proof/Machine/Serial.lean ====
section
/-!
DEFINITION. The slow interfaces: UART_SVC, UART_MGT, SMBus with MCTP and PLDM, and the USB service port (19).
-/

namespace Sys2Proof.Machine

/-! ### UART_SVC (R629 to R634) -/

/-- The command path accepts commands, so that the service ports are up (R596, 18 R607, R614). -/
def State.portsUp (s : State) : Bool :=
  match s.boot.phase with
  | .complete | .warmFlush | .warm | .edge => true
  | _ => decide (s.boot.mode = 3)

/-- The receiver of UART_SVC runs: from AONCLK only in asynchronous mode at 115,200 baud or below (R628). -/
def State.uartOn (s : State) : Bool :=
  s.aonUp && s.portsUp && (s.hub || decide (s.boot.mode = 3) || (!s.ser.sync && decide (s.ser.baud.toNat ≤ 115200)))

/-- Send a NAK frame with its reason (R630, R654). -/
def State.uartNak (s : State) (reason : Nat) : State :=
  State.uartSend { s with ser := { s.ser with naks := s.ser.naks + 1 } } 0x05 (toLe 1 reason)

/-- Bytes up to the next SYNC are discarded (R631). -/
def toSync (b : Bytes) : Bytes := b.dropWhile (fun x => x != 0xA5)

/-- LEN is not as R630 requires of a frame of this TYPE. -/
def lenBad (ty len : Nat) : Bool :=
  match ty with
  | 1 => len != 64
  | 2 => len != 32
  | 3 => len != 4096
  | 5 => len != 1
  | 6 | 7 => len != 8
  | _ => decide (4096 < len)

/-- What the receiver has of a frame. -/
inductive UartRx where
  /-- its bytes are not all there -/
  | part
  /-- LEN is wrong, which is found from the header -/
  | badLen
  /-- a whole frame: TYPE, payload, and whether its CRC matches -/
  | whole (ty : Nat) (payload : Bytes) (ok : Bool)
  deriving DecidableEq, Repr

/-- The frame that starts with the SYNC at the front of `b` (R629, R631). -/
def uartParse (b : Bytes) : UartRx :=
  let len := fld b 2 2
  if b.length < 4 then .part
  else if lenBad (fld b 1 1) len then .badLen
  else if b.length < len + 8 then .part
  else .whole (fld b 1 1) (sliceB b 4 len) (decide (fld b (4 + len) 4 = (crc32c (sliceB b 1 (len + 3))).toNat))

/-- What follows the first frame, which the receiver goes on with. -/
def uartRest (b : Bytes) : Bytes :=
  match uartParse b with
  | .part => b
  | .badLen => toSync (b.drop 4)
  | .whole _ p _ => toSync (b.drop (p.length + 8))

/-- Bytes arrive on UART_SVC; `f` acts on a whole frame with a good CRC, of a TYPE other than CFG or of CFG as `cfg` says. -/
def State.uartFrame (s : State) (frame : Bytes) (cfg : Bool) (f : State → Nat → Bytes → State) : State :=
  let b := toSync (s.ser.rx ++ frame)
  if s.uartOn && (decide (fld b 1 1 = 6) == cfg) then
    let s := { s with ser := { s.ser with rx := uartRest b } }
    match uartParse b with
    | .part => s
    | .badLen => s.uartNak 2
    | .whole ty p ok => if ok then f s ty p else s.uartNak 1
  else s

/-- A valid frame counts in FRAMES (R654). -/
def State.uartCount (s : State) : State := { s with ser := { s.ser with frames := s.ser.frames + 1 } }

/-- A valid CMD is taken as a service command; it wakes the device from HUSH and starts the clocks in STANDBY (R631, 17 R567,
R571). -/
def State.uartTake (s : State) (p : Bytes) : State :=
  let s := { s with ser := { s.ser with uartBusy := true }, cp := { s.cp with uartIn := some p } }
  (s.wakeReq 4).svcStart

/-- A good frame of a TYPE other than CFG. -/
def State.uartGood (s : State) (ty : Nat) (p : Bytes) : State :=
  if ty ≠ 1 then s.uartNak 3 else if s.ser.uartBusy then s.uartCount.uartNak 4 else s.uartCount.uartTake p

/-- UART_CMD_FRAME (R631): bytes of a frame that is no CFG frame arrive. -/
def execUartCmdFrame (frame : Bytes) (s : State) : Host.Outcome State Fault Refusal :=
  .next (s.uartFrame frame false State.uartGood)

/-- The settings of a CFG frame are legal (R632; a MODE above 1 is a reserved encoding). -/
def cfgOk (p : Bytes) : Bool :=
  decide (1200 ≤ fld p 0 4 ∧ fld p 0 4 ≤ 6250000) && decide (fld p 4 1 ≤ 1) && decide (4 ≤ fld p 5 1) && decide (fld p 6 2 = 0)

/-- The settings in force, in the CFG layout (R630). -/
def State.cfgBytes (s : State) : Bytes :=
  toLe 4 s.ser.baud.toNat ++ toLe 1 (b2n s.ser.sync) ++ toLe 1 s.ser.ckdiv.toNat ++ [0, 0]

/-- A good CFG frame: CFG_ACK is sent, and the new settings wait for UART_CFG_APPLY (R631, R632). -/
def State.uartCfg (s : State) (_ty : Nat) (p : Bytes) : State :=
  let s := s.uartCount
  if cfgOk p then
    State.uartSend { s with ser := { s.ser with cfgPend := some (fld p 0 4, fld p 4 1, fld p 5 1) } } 0x07 p
  else s.uartSend 0x07 s.cfgBytes

/-- UART_CFG_FRAME (R631, R632): bytes of a CFG frame arrive. -/
def execUartCfgFrame (frame : Bytes) (s : State) : Host.Outcome State Fault Refusal :=
  .next (s.uartFrame frame true State.uartCfg)

/-- UART_CFG_APPLY (R631): 1 ms after the last stop bit of CFG_ACK. -/
def execUartCfgApply (s : State) : Host.Outcome State Fault Refusal :=
  .next (
    match s.ser.cfgPend with
    | some (b, m, k) =>
      { s with ser := { s.ser with cfgPend := none, baud := BitVec.ofNat 23 b, sync := m == 1, ckdiv := BitVec.ofNat 8 k } }
    | none => s)

/-- UART_FRAME_GAP (R631): a gap of 1 ms inside a frame. -/
def execUartFrameGap (s : State) : Host.Outcome State Fault Refusal :=
  .next (if s.uartOn ∧ s.ser.rx ≠ [] then State.uartNak { s with ser := { s.ser with rx := [] } } 5 else s)

/-- UART_BREAK (R631). -/
def execUartBreak (s : State) : Host.Outcome State Fault Refusal :=
  .next (if s.uartOn then { s with ser := { s.ser with rx := [] } } else s)

/-! ### UART_MGT (R636 to R642) -/

/-- The island takes part on UART_MGT (R637, R638). -/
def State.mgtOn (s : State) : Bool := s.aonUp && decide (s.ser.mgtAddr ≠ 0xFF)

/-- DST, SRC, TYPE and LEN of a message. -/
abbrev gDst (m : Bytes) : Nat := fld m 0 1
abbrev gSrc (m : Bytes) : Nat := fld m 1 1
abbrev gType (m : Bytes) : Nat := fld m 2 1
abbrev gLen (m : Bytes) : Nat := fld m 3 1

/-- An address character is accepted (R638). -/
def State.mgtHears (s : State) (c : Nat) : Bool :=
  s.mgtOn && (decide (c = 0xFE) || decide (BitVec.ofNat 8 c &&& s.ser.mgtMask = s.ser.mgtAddr &&& s.ser.mgtMask))

/-- The message is whole and its CRC matches (R636). -/
def mgtWhole (m : Bytes) : Bool :=
  decide (m.length = gLen m + 8) && decide (gLen m ≤ 32) &&
  decide (fld m (gLen m + 4) 4 = (crc32c (m.take (gLen m + 4))).toNat)

/-- A message arrives: its address wakes the device, it counts in RX_OK or RX_BAD, and `f` acts on a good one (R636, R638). -/
def State.mgtRecv (s : State) (m : Bytes) (f : State → State) : State :=
  if s.mgtHears (gDst m) then
    let s := s.wakeReq 5
    if mgtWhole m then f { s with ser := { s.ser with rxOk := satAdd s.ser.rxOk 1 } }
    else { s with ser := { s.ser with rxBad := satAdd s.ser.rxBad 1 } }
  else s

/-- A message waits for the line (R639). -/
def State.mgtPut (s : State) (dst ty : Nat) (body : Bytes) : State :=
  { s with ser := { s.ser with mgtQ := s.ser.mgtQ ++ [{ dst := dst, ty := ty, body := body }] } }

/-- PING (R640): STATUS answers it. -/
def execPing (msg : Bytes) (s : State) : Host.Outcome State Fault Refusal :=
  .next (if gType msg = 1 then s.mgtRecv msg (fun s => if gLen msg = 0 then s.mgtPut (gSrc msg) 0x81 s.surveyEntry else s) else s)

/-- WAKE, or a message of a TYPE that the device ignores (R638, R640): its address character wakes the device. -/
def execWake (msg : Bytes) (s : State) : Host.Outcome State Fault Refusal :=
  .next (if gType msg ≠ 1 ∧ gType msg ≠ 3 then s.mgtRecv msg (fun s => s) else s)

/-- SENSORS (R640, R641): SENSOR_DATA answers it. -/
def execSensors (msg : Bytes) (s : State) : Host.Outcome State Fault Refusal :=
  .next (if gType msg = 3 then s.mgtRecv msg (fun s => if gLen msg = 0 then s.mgtPut (gSrc msg) 0x83 s.sensorData else s) else s)

/-- The payload of an ALERT (R640). -/
def State.alertBytes (s : State) : Bytes := toLe 1 s.gpio ++ toLe 1 s.identState ++ [0, 0]

/-- Put an ALERT into the queue; one that waits takes the new payload (R642). -/
def State.putAlert (s : State) : State :=
  if s.ser.mgtQ.any (fun m => m.ty == 4) then
    { s with ser := { s.ser with mgtQ := modFirst (fun m => m.ty == 4) (fun m => { m with body := s.alertBytes }) s.ser.mgtQ } }
  else s.mgtPut s.ser.alertDst.toNat 4 s.alertBytes

/-- ALERT_SEND (R642): GPIO[3:0] or STATE has changed since the last ALERT. -/
def execAlertSend (s : State) : Host.Outcome State Fault Refusal :=
  .next (if s.mgtOn ∧ s.ser.alertDst ≠ 0xFF ∧ s.alertWord ≠ s.ser.alertLast then
    State.putAlert { s with ser := { s.ser with alertLast := s.alertWord } }
  else s)

/-- MGT_ARB_LOSS (R639): the message being sent loses the line. -/
def execMgtArbLoss (s : State) : Host.Outcome State Fault Refusal :=
  .next (
    match s.ser.mgtQ with
    | m :: rest =>
      if s.mgtOn ∧ s.ser.mgtHold = false then
        { s with ser := { s.ser with mgtQ := { m with losses := m.losses + 1 } :: rest, mgtHold := true, coll := satAdd s.ser.coll 1 } }
      else s
    | [] => s)

/-- MGT_RETRY (R639): the backoff is over. After 16 losses the message is dropped. -/
def execMgtRetry (s : State) : Host.Outcome State Fault Refusal :=
  .next (
    match s.ser.mgtQ with
    | m :: rest =>
      if s.mgtOn ∧ s.ser.mgtHold = true then
        if 16 ≤ m.losses then
          State.fault { s with ser := { s.ser with mgtQ := rest, mgtHold := false, giveup := satAdd s.ser.giveup 1 } } 0x0507
            (mkLoc 11 0 none false 0)
        else { s with ser := { s.ser with mgtHold := false } }
      else s
    | [] => s)

/-- MGT_RX_DISCARD (R636). -/
def execMgtRxDiscard (s : State) : Host.Outcome State Fault Refusal :=
  .next (if s.mgtOn then { s with ser := { s.ser with rxBad := satAdd s.ser.rxBad 1 } } else s)

/-! ### SMBus and MCTP (R643, R644) -/

/-- SMBUS_ARP (R643): an address is assigned. The answer carries the SERIAL of the UDID. -/
def execSmbusArp (addr : BitVec 7) (s : State) : Host.Outcome State Fault Refusal :=
  .next (if s.aonUp then
    State.emit { s with ser := { s.ser with smbAddr := addr, smbArp := true } } (.smbus (toLe 8 s.boot.serial.toNat))
  else s)

/-- SMBUS_PEC_DROP (R643). -/
def execSmbusPecDrop (s : State) : Host.Outcome State Fault Refusal :=
  .next (if s.aonUp then { s with ser := { s.ser with pecErr := satAdd s.ser.pecErr 1 } } else s)

/-- The endpoint answers: the PCIe VDM one from bring-up complete (R644). -/
def State.endpointUp (s : State) (vdm : Bool) : Bool :=
  s.aonUp && (!vdm || (decide (s.boot.phase = .complete) && s.pcie.linkUp))

/-- An MCTP answer: the endpoint, the message type, the command, and the data from the completion code on. -/
def State.mctpSay (s : State) (vdm : Bool) (ty cmd : Nat) (data : Bytes) : State :=
  s.emit (.smbus (toLe 1 (b2n vdm) ++ toLe 1 ty ++ toLe 1 cmd ++ data))

/-- The EID of an endpoint (R657). -/
def State.eidOf (s : State) (vdm : Bool) : BitVec 8 := if vdm then s.ser.vdmEid else s.ser.eid

/-- Set the EID of an endpoint. -/
def State.setEid (s : State) (vdm : Bool) (e : BitVec 8) : State :=
  if vdm then { s with ser := { s.ser with vdmEid := e } } else { s with ser := { s.ser with eid := e } }

/-- SET_ENDPOINT_ID (R644): the request's data are the operation and the EID. -/
def execSetEndpointId (vdm : Bool) (msg : Bytes) (s : State) : Host.Outcome State Fault Refusal :=
  .next (
    if s.endpointUp vdm then
      let e := BitVec.ofNat 8 (fld msg 1 1)
      if 1 < fld msg 0 1 % 4 ∨ e = 0 ∨ e = 0xFF then s.mctpSay vdm 0 1 [2]
      else (s.setEid vdm e).mctpSay vdm 0 1 [0, 0, e, 0]
    else s)

/-- GET_ENDPOINT_ID (R644). -/
def execGetEndpointId (vdm : Bool) (_msg : Bytes) (s : State) : Host.Outcome State Fault Refusal :=
  .next (if s.endpointUp vdm then s.mctpSay vdm 0 2 [0, s.eidOf vdm, 0, 0] else s)

/-- GET_MCTP_VERSION_SUPPORT (R644): the version numbers are left open (assumption 1). -/
def execGetMctpVersionSupport (vdm : Bool) (msg : Bytes) (s : State) : Host.Outcome State Fault Refusal :=
  .next (
    if s.endpointUp vdm then
      let v := s.free 32
      if [0x00, 0x01, 0xFF].contains (fld msg 0 1) then v.2.mctpSay vdm 0 4 ([0, 1] ++ toLe 4 v.1.toNat) else s.mctpSay vdm 0 4 [0x80]
    else s)

/-- GET_MESSAGE_TYPE_SUPPORT (R644): control and PLDM. -/
def execGetMessageTypeSupport (vdm : Bool) (_msg : Bytes) (s : State) : Host.Outcome State Fault Refusal :=
  .next (if s.endpointUp vdm then s.mctpSay vdm 0 5 [0, 2, 0x00, 0x01] else s)

/-- GET_ENDPOINT_UUID (R644): the UUID is left open (assumption 1). -/
def execGetEndpointUuid (vdm : Bool) (_msg : Bytes) (s : State) : Host.Outcome State Fault Refusal :=
  .next (
    if s.endpointUp vdm then
      let v := s.free 128
      v.2.mctpSay vdm 0 3 ([0] ++ toLe 16 v.1.toNat)
    else s)

/-! ### PLDM (R645) -/

/-- GET_TID (R645). -/
def execGetTid (vdm : Bool) (_msg : Bytes) (s : State) : Host.Outcome State Fault Refusal :=
  .next (if s.endpointUp vdm then s.mctpSay vdm 1 2 [0, s.ser.tid] else s)

/-- SET_TID (R645). -/
def execSetTid (vdm : Bool) (msg : Bytes) (s : State) : Host.Outcome State Fault Refusal :=
  .next (
    if s.endpointUp vdm then
      let t := BitVec.ofNat 8 (fld msg 0 1)
      if t = 0 ∨ t = 0xFF then s.mctpSay vdm 1 1 [2]
      else State.mctpSay { s with ser := { s.ser with tid := t } } vdm 1 1 [0]
    else s)

/-- The PLDM types offered (R645). -/
def pldmType (n : Nat) : Bool := n == 0 || n == 2

/-- GET_PLDM_VERSION (R645): the version of a type is left open (assumption 1). -/
def execGetPldmVersion (vdm : Bool) (msg : Bytes) (s : State) : Host.Outcome State Fault Refusal :=
  .next (
    if s.endpointUp vdm then
      let v := s.free 32
      if pldmType (fld msg 5 1) then
        v.2.mctpSay vdm 1 3 ([0, 0, 0, 0, 0, 5] ++ toLe 4 v.1.toNat ++ toLe 4 (crc32c (toLe 4 v.1.toNat)).toNat)
      else s.mctpSay vdm 1 3 [0x83]
    else s)

/-- GET_PLDM_TYPES (R645): bits 0 and 2. -/
def execGetPldmTypes (vdm : Bool) (_msg : Bytes) (s : State) : Host.Outcome State Fault Refusal :=
  .next (if s.endpointUp vdm then s.mctpSay vdm 1 4 ([0] ++ toLe 8 5) else s)

/-- The commands supported of a PLDM type, one bit each (R645). -/
def pldmCommands (ty : Nat) : Nat := if ty = 0 then 0x3E else 2 ^ 0x11 + 2 ^ 0x21 + 2 ^ 0x50 + 2 ^ 0x51

/-- GET_PLDM_COMMANDS (R645). -/
def execGetPldmCommands (vdm : Bool) (msg : Bytes) (s : State) : Host.Outcome State Fault Refusal :=
  .next (
    if s.endpointUp vdm then
      if pldmType (fld msg 0 1) then s.mctpSay vdm 1 5 ([0] ++ toLe 32 (pldmCommands (fld msg 0 1))) else s.mctpSay vdm 1 5 [0x83]
    else s)

/-- GET_PDR_REPOSITORY_INFO (R645): its contents are left open (assumption 1). -/
def execGetPdrRepositoryInfo (vdm : Bool) (_msg : Bytes) (s : State) : Host.Outcome State Fault Refusal :=
  .next (
    if s.endpointUp vdm then
      let v := s.free 320
      v.2.mctpSay vdm 1 0x50 ([0] ++ toLe 40 v.1.toNat)
    else s)

/-- GET_PDR (R645): the record is left open (assumption 1). -/
def execGetPdr (vdm : Bool) (_msg : Bytes) (s : State) : Host.Outcome State Fault Refusal :=
  .next (
    if s.endpointUp vdm then
      let v := s.free 512
      v.2.mctpSay vdm 1 0x51 ([0] ++ toLe 64 v.1.toNat)
    else s)

/-- A numeric sensor: the size code of its reading, whether it is available, and its reading (R645). -/
def State.sensor (s : State) (id : Nat) : Option (Nat × Bool × Bytes) :=
  let had (k : Nat) : Bool := mget false s.pwr.seen k
  let temp (t : BitVec 8) : Bytes := toLe 2 (t.signExtend 16).toNat
  if 1 ≤ id ∧ id ≤ 3 then some (3, had (id - 1), temp (mget 0 s.pwr.dieTemp (id - 1)))
  else if 4 ≤ id ∧ id ≤ 11 then some (3, had id && !(s.stackOut (id - 4)), temp (s.stack (id - 4)).temp)
  else if id = 12 then some (2, had 12, toLe 2 s.pwr.p1ms)
  else if id = 13 then some (2, true, toLe 2 s.pwr.cap)
  else if id = 16 then some (4, true, toLe 4 s.tilesFenced)
  else if id = 17 then some (4, true, toLe 4 s.lanesFenced)
  else if id = 18 then some (4, true, toLe 4 s.stripesRetired)
  else none

/-- GET_SENSOR_READING (R645): the event and state bytes are left open (assumption 1). -/
def execGetSensorReading (vdm : Bool) (msg : Bytes) (s : State) : Host.Outcome State Fault Refusal :=
  .next (
    if s.endpointUp vdm then
      match s.sensor (fld msg 0 2) with
      | some (size, ok, v) =>
        let f := s.free 32
        f.2.mctpSay vdm 1 0x11 ([0] ++ toLe 1 size ++ [if ok then 0 else 2] ++ toLe 4 f.1.toNat ++ v)
      | none => s.mctpSay vdm 1 0x11 [0x80]
    else s)

/-- A state sensor (R645). -/
def State.stateSensor (s : State) (id : Nat) : Option Nat :=
  if id = 14 then some (if s.boot.mode ≠ 0 then s.boot.mode + 1 else s.health)
  else if id = 15 then some s.devLevel
  else none

/-- GET_STATE_SENSOR_READINGS (R645): the previous and event states are left open (assumption 1). -/
def execGetStateSensorReadings (vdm : Bool) (msg : Bytes) (s : State) : Host.Outcome State Fault Refusal :=
  .next (
    if s.endpointUp vdm then
      match s.stateSensor (fld msg 0 2) with
      | some v =>
        let f := s.free 16
        f.2.mctpSay vdm 1 0x21 ([0, 1, 0] ++ toLe 1 v ++ toLe 2 f.1.toNat)
      | none => s.mctpSay vdm 1 0x21 [0x80]
    else s)

/-! ### USB service port (R646 to R652) -/

/-- Data and status stages complete: the CP, or in SERVICE_ONLY the Dormouse, accepts commands (R652). -/
def State.usbServed (s : State) : Bool :=
  (s.hub && decide (s.boot.phase = .complete) && s.boot.cpUp) || decide (s.boot.mode = 3)

/-- A SETUP arrives: it wakes the device from HUSH and starts the clocks in STANDBY; `f` acts once stages complete (R652, 17 R567,
R571). -/
def State.usbSetup (s : State) (f : State → State) : State :=
  if s.ser.usbAttached then
    let s := (s.wakeReq 6).svcStart
    if s.usbServed then f s else s
  else s

/-- USB_COMMAND (R648): STALL while a command of the port runs; else the packet is taken and a held reply discarded. -/
def execUsbCommand (pkt : Bytes) (s : State) : Host.Outcome State Fault Refusal :=
  .next (s.usbSetup (fun s =>
    if s.ser.usbRun.isSome then s.emit (.usb [] true)
    else { s with ser := { s.ser with usbRun := some (BitVec.ofNat 16 (cTag pkt)), usbHeld := none },
                  cp := { s.cp with usbIn := some (padB 64 pkt) } }))

/-- GET_REPLY (R650). -/
def execGetReply (tag : W16) (s : State) : Host.Outcome State Fault Refusal :=
  .next (s.usbSetup (fun s =>
    if s.ser.usbRun = some tag then s.emit (.usb [] false)
    else
      match s.ser.usbHeld with
      | some (t, b) => if t = tag then s.emit (.usb b false) else s.emit (.usb [] true)
      | none => s.emit (.usb [] true)))

/-- A SETUP has the form of COMMAND or of GET_REPLY (R647). -/
def setupKnown (b : Bytes) : Bool :=
  (decide (fld b 0 2 = 0x4A40) && decide (fld b 2 4 = 0) && decide (fld b 6 2 = 64)) ||
  (decide (fld b 0 2 = 0x4BC0) && decide (fld b 4 2 = 0) && decide (32 ≤ fld b 6 2))

/-- USB_SETUP_STALL (R647). -/
def execUsbSetupStall (setup : Bytes) (s : State) : Host.Outcome State Fault Refusal :=
  .next (if setupKnown setup then s else s.usbSetup (fun s => s.emit (.usb [] true)))

/-- An open EP1 transfer ends, and its command ends with a status (R649, R651). -/
def State.ep1End (s : State) (status : Nat) : State :=
  match s.ser.ep1 with
  | some x => State.finishCmd { s with ser := { s.ser with ep1 := none } } x.cmd { status := status }
  | none => s

/-- What a bus reset does (R649). -/
def State.usbReset (s : State) (partialCmd : Bool) : State :=
  let s := { s with ser := { s.ser with usbResets := s.ser.usbResets + 1, usbSuspended := false,
                                        usbDiscarded := if partialCmd then s.ser.usbDiscarded + 1 else s.ser.usbDiscarded } }
  s.ep1End 0x0C

/-- USB_BUS_RESET (R649): `partialCmd` tells whether the data stage of a COMMAND was in progress, `high` the speed that follows. -/
def execUsbBusReset (partialCmd high : Bool) (s : State) : Host.Outcome State Fault Refusal :=
  .next (if s.ser.usbAttached then
    let s := s.usbReset partialCmd
    { s with ser := { s.ser with usbHigh := high } }
  else s)

/-- VBUS_LOSS (R646, R649): as a bus reset, and the D+ pull-up is detached. -/
def execVbusLoss (partialCmd : Bool) (s : State) : Host.Outcome State Fault Refusal :=
  .next (
    let t := if s.ser.usbAttached then s.usbReset partialCmd else s
    { t with ser := { t.ser with vbus := false, usbAttached := false } })

/-- VBUS_RETURN (R646, R652). -/
def execVbusReturn (s : State) : Host.Outcome State Fault Refusal :=
  .next { s with ser := { s.ser with vbus := true, usbAttached := s.aonUp && s.portsUp } }

/-- Bytes of a full EP1 packet (R646). -/
def State.ep1Size (s : State) : Nat := if s.ser.usbHigh then 512 else 64

/-- The host takes the next EP1 IN packet; the command ends with a packet that is not full (R651). -/
def State.ep1In (s : State) (x : BulkXfer) : State :=
  let n := s.ep1Size
  let s := s.emit (.usb (x.data.take n) false)
  if x.data.length < n then State.finishCmd { s with ser := { s.ser with ep1 := none } } x.cmd {}
  else { s with ser := { s.ser with ep1 := some { x with data := x.data.drop n } } }

/-- The host sends an EP1 OUT packet: the image is whole, or the packet was short, or more follow (R651). -/
def State.ep1Out (s : State) (x : BulkXfer) (data : Bytes) : State :=
  let b := x.data ++ data.take (min s.ep1Size (x.want - x.data.length))
  if x.want ≤ b.length then
    State.modCmd { s with ser := { s.ser with ep1 := none } } x.cmd (fun c => { c with data := b, got := true })
  else if data.length < s.ep1Size then s.ep1End 0x09
  else { s with ser := { s.ser with ep1 := some { x with data := b } } }

/-- EP1_PACKET (R651). -/
def execEp1Packet (data : Bytes) (s : State) : Host.Outcome State Fault Refusal :=
  .next (
    match s.ser.ep1 with
    | some x => if s.ser.usbAttached && s.usbServed then (if x.out then s.ep1Out x data else s.ep1In x) else s
    | none => s)

/-- EP1_TIMEOUT (R651): no packet for 2 s while a transfer is open. -/
def execEp1Timeout (s : State) : Host.Outcome State Fault Refusal := .next (s.ep1End 0x0C)

end Sys2Proof.Machine
end

