-- ==== Sys2Proof/Machine/Dispatch.lean ====
section
/-!
DEFINITION. The dispatch: one arm for each command. The word in a refused arm is the row's mnemonic.
-/

namespace Sys2Proof.Machine

def exec (i : Instr) (s : State) : Host.Outcome State Fault Refusal :=
  match i with
  | .inlineDoorbell fn off data => Sys2Proof.Machine.execInlineDoorbell fn off data s
  | .tailDoorbell fn off data => Sys2Proof.Machine.execTailDoorbell fn off data s
  | .cqHeadDoorbell fn off data => Sys2Proof.Machine.execCqHeadDoorbell fn off data s
  | .ringEntryFetchDone tag data => Sys2Proof.Machine.execRingEntryFetchDone tag data s
  | .headWriteBack ring => Sys2Proof.Machine.execHeadWriteBack ring s
  | .ringCfgWrite fn off data => Sys2Proof.Machine.execRingCfgWrite fn off data s
  | .msixUnmask fn vec => Sys2Proof.Machine.execMsixUnmask fn vec s
  | .regWrite fn off data => Sys2Proof.Machine.execRegWrite fn off data s
  | .counterLowRead fn off => Sys2Proof.Machine.execCounterLowRead fn off s
  | .devmemWrite fn off data => Sys2Proof.Machine.execDevmemWrite fn off data s
  | .devmemRead fn off len => Sys2Proof.Machine.execDevmemRead fn off len s
  | .bmeClear fn => Sys2Proof.Machine.execBmeClear fn s
  | .bmeSet fn cfg => Sys2Proof.Machine.execBmeSet fn cfg s
  | .flr fn => Sys2Proof.Machine.execFlr fn s
  | .vfEnableClear byFlr => Sys2Proof.Machine.execVfEnableClear byFlr s
  | .flrDrainTimeout fn => Sys2Proof.Machine.execFlrDrainTimeout fn s
  | .atsInvalidate fn itag iova log2 => Sys2Proof.Machine.execAtsInvalidate fn itag iova log2 s
  | .translationCompletion fn iova target log2 r w => Sys2Proof.Machine.execTranslationCompletion fn iova target log2 r w s
  | .hostReadCompletion tag data err => Sys2Proof.Machine.execHostReadCompletion tag data err s
  | .completionTimeout tag => Sys2Proof.Machine.execCompletionTimeout tag s
  | .perstAssert b => Sys2Proof.Machine.execPerstAssert b s
  | .perstDeassert => Sys2Proof.Machine.execPerstDeassert s
  | .linkLoss => Sys2Proof.Machine.execLinkLoss s
  | .d3hotEntry => Sys2Proof.Machine.execD3hotEntry s
  | .d0Return => Sys2Proof.Machine.execD0Return s
  | .retainTimeout => Sys2Proof.Machine.execRetainTimeout s
  | .requestAdmit => Sys2Proof.Machine.execRequestAdmit s
  | .featureReadDone req => Sys2Proof.Machine.execFeatureReadDone req s
  | .requestPlace den => Sys2Proof.Machine.execRequestPlace den s
  | .taskStart req => Sys2Proof.Machine.execTaskStart req s
  | .tileWake tile => Sys2Proof.Machine.execTileWake tile s
  | .tileEndReport tile => Sys2Proof.Machine.execTileEndReport tile s
  | .taskAbortDone req => Sys2Proof.Machine.execTaskAbortDone req s
  | .guardExpiry tile => Sys2Proof.Machine.execGuardExpiry tile s
  | .tileDoze tile => Sys2Proof.Machine.execTileDoze tile s
  | .tilePrepareDone tile => Sys2Proof.Machine.execTilePrepareDone tile s
  | .mioTokenBoundary quad => Sys2Proof.Machine.execMioTokenBoundary quad s
  | .mioInputWord quad => Sys2Proof.Machine.execMioInputWord quad s
  | .peNop quad pe => Sys2Proof.Machine.execPeNop quad pe s
  | .peMov quad pe => Sys2Proof.Machine.execPeMov quad pe s
  | .peAdd quad pe => Sys2Proof.Machine.execPeAdd quad pe s
  | .peSub quad pe => Sys2Proof.Machine.execPeSub quad pe s
  | .peAnd quad pe => Sys2Proof.Machine.execPeAnd quad pe s
  | .peOr quad pe => Sys2Proof.Machine.execPeOr quad pe s
  | .peXor quad pe => Sys2Proof.Machine.execPeXor quad pe s
  | .peShl quad pe => Sys2Proof.Machine.execPeShl quad pe s
  | .peShr quad pe => Sys2Proof.Machine.execPeShr quad pe s
  | .peSra quad pe => Sys2Proof.Machine.execPeSra quad pe s
  | .peMul quad pe => Sys2Proof.Machine.execPeMul quad pe s
  | .peMulh quad pe => Sys2Proof.Machine.execPeMulh quad pe s
  | .peMinu quad pe => Sys2Proof.Machine.execPeMinu quad pe s
  | .peMaxu quad pe => Sys2Proof.Machine.execPeMaxu quad pe s
  | .peCmplt quad pe => Sys2Proof.Machine.execPeCmplt quad pe s
  | .peCmpeq quad pe => Sys2Proof.Machine.execPeCmpeq quad pe s
  | .peSel quad pe => Sys2Proof.Machine.execPeSel quad pe s
  | .peHash quad pe => Sys2Proof.Machine.execPeHash quad pe s
  | .peCrc quad pe => Sys2Proof.Machine.execPeCrc quad pe s
  | .peRange quad pe => Sys2Proof.Machine.execPeRange quad pe s
  | .peLut quad pe => Sys2Proof.Machine.execPeLut quad pe s
  | .peBkt quad pe => Sys2Proof.Machine.execPeBkt quad pe s
  | .peEmit quad pe => Sys2Proof.Machine.execPeEmit quad pe s
  | .peBrf quad pe => Sys2Proof.Machine.execPeBrf quad pe s
  | .mioOutputPass quad => Sys2Proof.Machine.execMioOutputPass quad s
  | .mioTokenClose quad => Sys2Proof.Machine.execMioTokenClose quad s
  | .mioTokenTimeout quad => Sys2Proof.Machine.execMioTokenTimeout quad s
  | .mioParityError quad slot => Sys2Proof.Machine.execMioParityError quad slot s
  | .sampleRecord => Sys2Proof.Machine.execSampleRecord s
  | .sampleRestart => Sys2Proof.Machine.execSampleRestart s
  | .foragerRecordArrive => Sys2Proof.Machine.execForagerRecordArrive s
  | .gatherIssue => Sys2Proof.Machine.execGatherIssue s
  | .arrivalReserve req smp grp ent => Sys2Proof.Machine.execArrivalReserve req smp grp ent s
  | .prefetchIssue req => Sys2Proof.Machine.execPrefetchIssue req s
  | .prefetchDone rid => Sys2Proof.Machine.execPrefetchDone rid s
  | .rowPooled rid => Sys2Proof.Machine.execRowPooled rid s
  | .histWalkBegin req => Sys2Proof.Machine.execHistWalkBegin req s
  | .histChunkPost req => Sys2Proof.Machine.execHistChunkPost req s
  | .histReadResume req => Sys2Proof.Machine.execHistReadResume req s
  | .tNop tile => Sys2Proof.Machine.execTNop tile s
  | .tAdd tile => Sys2Proof.Machine.execTAdd tile s
  | .tAddi tile => Sys2Proof.Machine.execTAddi tile s
  | .tSub tile => Sys2Proof.Machine.execTSub tile s
  | .tMul tile => Sys2Proof.Machine.execTMul tile s
  | .tAnd tile => Sys2Proof.Machine.execTAnd tile s
  | .tOr tile => Sys2Proof.Machine.execTOr tile s
  | .tXor tile => Sys2Proof.Machine.execTXor tile s
  | .tAndi tile => Sys2Proof.Machine.execTAndi tile s
  | .tShl tile => Sys2Proof.Machine.execTShl tile s
  | .tShr tile => Sys2Proof.Machine.execTShr tile s
  | .tSra tile => Sys2Proof.Machine.execTSra tile s
  | .tSlt tile => Sys2Proof.Machine.execTSlt tile s
  | .tSltu tile => Sys2Proof.Machine.execTSltu tile s
  | .tMin tile => Sys2Proof.Machine.execTMin tile s
  | .tMax tile => Sys2Proof.Machine.execTMax tile s
  | .tLi tile => Sys2Proof.Machine.execTLi tile s
  | .tLih tile => Sys2Proof.Machine.execTLih tile s
  | .tRdsr tile => Sys2Proof.Machine.execTRdsr tile s
  | .tBeq tile => Sys2Proof.Machine.execTBeq tile s
  | .tBne tile => Sys2Proof.Machine.execTBne tile s
  | .tBlt tile => Sys2Proof.Machine.execTBlt tile s
  | .tBge tile => Sys2Proof.Machine.execTBge tile s
  | .tJal tile => Sys2Proof.Machine.execTJal tile s
  | .tJr tile => Sys2Proof.Machine.execTJr tile s
  | .tEnd tile => Sys2Proof.Machine.execTEnd tile s
  | .tTrap tile => Sys2Proof.Machine.execTTrap tile s
  | .tYield tile => Sys2Proof.Machine.execTYield tile s
  | .tLds tile => Sys2Proof.Machine.execTLds tile s
  | .tSts tile => Sys2Proof.Machine.execTSts tile s
  | .tLdg tile => Sys2Proof.Machine.execTLdg tile s
  | .tStg tile => Sys2Proof.Machine.execTStg tile s
  | .tLdgb tile => Sys2Proof.Machine.execTLdgb tile s
  | .tStgb tile => Sys2Proof.Machine.execTStgb tile s
  | .tAtomv tile => Sys2Proof.Machine.execTAtomv tile s
  | .tAtoms tile => Sys2Proof.Machine.execTAtoms tile s
  | .tFence tile => Sys2Proof.Machine.execTFence tile s
  | .tExec tile => Sys2Proof.Machine.execTExec tile s
  | .tWaite tile => Sys2Proof.Machine.execTWaite tile s
  | .tSempost tile => Sys2Proof.Machine.execTSempost tile s
  | .tSemwait tile => Sys2Proof.Machine.execTSemwait tile s
  | .tSemrd tile => Sys2Proof.Machine.execTSemrd tile s
  | .tQsend tile => Sys2Proof.Machine.execTQsend tile s
  | .tQrecv tile => Sys2Proof.Machine.execTQrecv tile s
  | .tQwait tile => Sys2Proof.Machine.execTQwait tile s
  | .tBarrier tile => Sys2Proof.Machine.execTBarrier tile s
  | .tHnext tile => Sys2Proof.Machine.execTHnext tile s
  | .globalAccessDone tile acc => Sys2Proof.Machine.execGlobalAccessDone tile acc s
  | .quillDeliver tile => Sys2Proof.Machine.execQuillDeliver tile s
  | .tileParked req => Sys2Proof.Machine.execTileParked req s
  | .yieldCancel req => Sys2Proof.Machine.execYieldCancel req s
  | .taskResume req => Sys2Proof.Machine.execTaskResume req s
  | .matrixPassStart tile => Sys2Proof.Machine.execMatrixPassStart tile s
  | .matrixPassDone tile => Sys2Proof.Machine.execMatrixPassDone tile s
  | .vectorPassStart tile => Sys2Proof.Machine.execVectorPassStart tile s
  | .vectorPassDone tile => Sys2Proof.Machine.execVectorPassDone tile s
  | .reductionStart tile => Sys2Proof.Machine.execReductionStart tile s
  | .reductionDone tile => Sys2Proof.Machine.execReductionDone tile s
  | .streamDescStart tile unit => Sys2Proof.Machine.execStreamDescStart tile unit s
  | .streamTransferIssue tile unit => Sys2Proof.Machine.execStreamTransferIssue tile unit s
  | .streamTransferDone tile unit => Sys2Proof.Machine.execStreamTransferDone tile unit s
  | .hoardRequest slice ecc => Sys2Proof.Machine.execHoardRequest slice ecc s
  | .hoardAdd slice => Sys2Proof.Machine.execHoardAdd slice s
  | .hoardMax slice => Sys2Proof.Machine.execHoardMax slice s
  | .hoardMin slice => Sys2Proof.Machine.execHoardMin slice s
  | .cas64 slice => Sys2Proof.Machine.execCas64 slice s
  | .swap64 slice => Sys2Proof.Machine.execSwap64 slice s
  | .rowCommit slice => Sys2Proof.Machine.execRowCommit slice s
  | .wayChangeDone way => Sys2Proof.Machine.execWayChangeDone way s
  | .pinRefillDone table => Sys2Proof.Machine.execPinRefillDone table s
  | .flushDone => Sys2Proof.Machine.execFlushDone s
  | .hbmAccess pc ecc => Sys2Proof.Machine.execHbmAccess pc ecc s
  | .hbmScrubRead stack ecc => Sys2Proof.Machine.execHbmScrubRead stack ecc s
  | .hbmRowRepair stack => Sys2Proof.Machine.execHbmRowRepair stack s
  | .hbmRepairDone stack => Sys2Proof.Machine.execHbmRepairDone stack s
  | .hbmTempRead stack temp => Sys2Proof.Machine.execHbmTempRead stack temp s
  | .dieTempRead die temp => Sys2Proof.Machine.execDieTempRead die temp s
  | .hushExit => Sys2Proof.Machine.execHushExit s
  | .hushAlarm => Sys2Proof.Machine.execHushAlarm s
  | .standbyClockStop => Sys2Proof.Machine.execStandbyClockStop s
  | .powerLimiterEval p100 p1ms => Sys2Proof.Machine.execPowerLimiterEval p100 p1ms s
  | .tclkStep => Sys2Proof.Machine.execTclkStep s
  | .aonclkTrim ok => Sys2Proof.Machine.execAonclkTrim ok s
  | .energyCalibrate factor => Sys2Proof.Machine.execEnergyCalibrate factor s
  | .regulatorRefill => Sys2Proof.Machine.execRegulatorRefill s
  | .acctSnap => Sys2Proof.Machine.execAcctSnap s
  | .updateAccept den ring => Sys2Proof.Machine.execUpdateAccept den ring s
  | .updateStage den ring => Sys2Proof.Machine.execUpdateStage den ring s
  | .recordBlockReadDone den ring => Sys2Proof.Machine.execRecordBlockReadDone den ring s
  | .warrenSwitchApply => Sys2Proof.Machine.execWarrenSwitchApply s
  | .warrenPrepareTimeout => Sys2Proof.Machine.execWarrenPrepareTimeout s
  | .prepare port msg => Sys2Proof.Machine.execPrepare port msg s
  | .prepared port msg => Sys2Proof.Machine.execPrepared port msg s
  | .refusedMsg port msg => Sys2Proof.Machine.execRefusedMsg port msg s
  | .commit port msg => Sys2Proof.Machine.execCommit port msg s
  | .abort port msg => Sys2Proof.Machine.execAbort port msg s
  | .drained port msg => Sys2Proof.Machine.execDrained port msg s
  | .drainedSend => Sys2Proof.Machine.execDrainedSend s
  | .release port msg => Sys2Proof.Machine.execRelease port msg s
  | .swQuery port msg => Sys2Proof.Machine.execSwQuery port msg s
  | .swState port msg => Sys2Proof.Machine.execSwState port msg s
  | .heartbeat port msg => Sys2Proof.Machine.execHeartbeat port msg s
  | .heartbeatTick => Sys2Proof.Machine.execHeartbeatTick s
  | .warrenHoldEntry => Sys2Proof.Machine.execWarrenHoldEntry s
  | .claim port msg => Sys2Proof.Machine.execClaim port msg s
  | .hushNote port msg => Sys2Proof.Machine.execHushNote port msg s
  | .wakeNote port msg => Sys2Proof.Machine.execWakeNote port msg s
  | .surveyQ port msg => Sys2Proof.Machine.execSurveyQ port msg s
  | .surveyR port msg => Sys2Proof.Machine.execSurveyR port msg s
  | .rowRead port msg => Sys2Proof.Machine.execRowRead port msg s
  | .poolReq port msg => Sys2Proof.Machine.execPoolReq port msg s
  | .bulkRd port msg => Sys2Proof.Machine.execBulkRd port msg s
  | .bulkWr port msg => Sys2Proof.Machine.execBulkWr port msg s
  | .atomic port msg => Sys2Proof.Machine.execAtomic port msg s
  | .quill port msg => Sys2Proof.Machine.execQuill port msg s
  | .rowData port msg => Sys2Proof.Machine.execRowData port msg s
  | .bulkData port msg => Sys2Proof.Machine.execBulkData port msg s
  | .writeAck port msg => Sys2Proof.Machine.execWriteAck port msg s
  | .atomicRsp port msg => Sys2Proof.Machine.execAtomicRsp port msg s
  | .poolContrib port msg => Sys2Proof.Machine.execPoolContrib port msg s
  | .lctl port flit => Sys2Proof.Machine.execLctl port flit s
  | .transitMessage port msg => Sys2Proof.Machine.execTransitMessage port msg s
  | .xactTimeout tid => Sys2Proof.Machine.execXactTimeout tid s
  | .codewordReceive port header errs bad => Sys2Proof.Machine.execCodewordReceive port header errs bad s
  | .laneLockLost port lane => Sys2Proof.Machine.execLaneLockLost port lane s
  | .portDown port => Sys2Proof.Machine.execPortDown port s
  | .linkTrain port locked peerId peerPort family delay => Sys2Proof.Machine.execLinkTrain port locked peerId peerPort family delay s
  | .linkTrainRetry port => Sys2Proof.Machine.execLinkTrainRetry port s
  | .cmdNop src => Sys2Proof.Machine.execCmdNop src s
  | .identify src => Sys2Proof.Machine.execIdentify src s
  | .devStatus src => Sys2Proof.Machine.execDevStatus src s
  | .profileGet src => Sys2Proof.Machine.execProfileGet src s
  | .profileWrite src => Sys2Proof.Machine.execProfileWrite src s
  | .profileSelect src => Sys2Proof.Machine.execProfileSelect src s
  | .profileClear src => Sys2Proof.Machine.execProfileClear src s
  | .devHush src => Sys2Proof.Machine.execDevHush src s
  | .scrubRetained src => Sys2Proof.Machine.execScrubRetained src s
  | .p2pProbe src => Sys2Proof.Machine.execP2pProbe src s
  | .denCreate src => Sys2Proof.Machine.execDenCreate src s
  | .denConfigTiles src => Sys2Proof.Machine.execDenConfigTiles src s
  | .denConfigHbm src => Sys2Proof.Machine.execDenConfigHbm src s
  | .denConfigWays src => Sys2Proof.Machine.execDenConfigWays src s
  | .denConfigMioter src => Sys2Proof.Machine.execDenConfigMioter src s
  | .denConfigRegulator src => Sys2Proof.Machine.execDenConfigRegulator src s
  | .denConfigSched src => Sys2Proof.Machine.execDenConfigSched src s
  | .denConfigFlr src => Sys2Proof.Machine.execDenConfigFlr src s
  | .denConfigToken src => Sys2Proof.Machine.execDenConfigToken src s
  | .denConfigGran src => Sys2Proof.Machine.execDenConfigGran src s
  | .denQuery src => Sys2Proof.Machine.execDenQuery src s
  | .denDestroy src => Sys2Proof.Machine.execDenDestroy src s
  | .denResume src => Sys2Proof.Machine.execDenResume src s
  | .histDirSet src => Sys2Proof.Machine.execHistDirSet src s
  | .attach src => Sys2Proof.Machine.execAttach src s
  | .modelLoad src => Sys2Proof.Machine.execModelLoad src s
  | .modelUnload src => Sys2Proof.Machine.execModelUnload src s
  | .modelQuery src => Sys2Proof.Machine.execModelQuery src s
  | .tableCreate src => Sys2Proof.Machine.execTableCreate src s
  | .tableModify src => Sys2Proof.Machine.execTableModify src s
  | .tableVersionSet src => Sys2Proof.Machine.execTableVersionSet src s
  | .tableSwitch src => Sys2Proof.Machine.execTableSwitch src s
  | .tableSwitchWarren src => Sys2Proof.Machine.execTableSwitchWarren src s
  | .tableQuery src => Sys2Proof.Machine.execTableQuery src s
  | .tableDelete src => Sys2Proof.Machine.execTableDelete src s
  | .ctxStore src => Sys2Proof.Machine.execCtxStore src s
  | .ctxLoad src => Sys2Proof.Machine.execCtxLoad src s
  | .ctxLoadDone quad => Sys2Proof.Machine.execCtxLoadDone quad s
  | .ctxSelect src => Sys2Proof.Machine.execCtxSelect src s
  | .ctxFree src => Sys2Proof.Machine.execCtxFree src s
  | .ctxQuery src => Sys2Proof.Machine.execCtxQuery src s
  | .warrenStatus src => Sys2Proof.Machine.execWarrenStatus src s
  | .routeSet src => Sys2Proof.Machine.execRouteSet src s
  | .linkCtrlDisable src => Sys2Proof.Machine.execLinkCtrlDisable src s
  | .linkCtrlEnable src => Sys2Proof.Machine.execLinkCtrlEnable src s
  | .linkCtrlRetrain src => Sys2Proof.Machine.execLinkCtrlRetrain src s
  | .linkCtrlClearFences src => Sys2Proof.Machine.execLinkCtrlClearFences src s
  | .warrenSurvey src => Sys2Proof.Machine.execWarrenSurvey src s
  | .marginRun src => Sys2Proof.Machine.execMarginRun src s
  | .tileFence src => Sys2Proof.Machine.execTileFence src s
  | .tileUnfence src => Sys2Proof.Machine.execTileUnfence src s
  | .ledgerRead src => Sys2Proof.Machine.execLedgerRead src s
  | .diagRun src => Sys2Proof.Machine.execDiagRun src s
  | .tagRead src => Sys2Proof.Machine.execTagRead src s
  | .fwStage src => Sys2Proof.Machine.execFwStage src s
  | .fwActivate src => Sys2Proof.Machine.execFwActivate src s
  | .fwQuery src => Sys2Proof.Machine.execFwQuery src s
  | .fwCommit src => Sys2Proof.Machine.execFwCommit src s
  | .uartCmdFrame frame => Sys2Proof.Machine.execUartCmdFrame frame s
  | .uartCfgFrame frame => Sys2Proof.Machine.execUartCfgFrame frame s
  | .uartCfgApply => Sys2Proof.Machine.execUartCfgApply s
  | .uartFrameGap => Sys2Proof.Machine.execUartFrameGap s
  | .uartBreak => Sys2Proof.Machine.execUartBreak s
  | .ping msg => Sys2Proof.Machine.execPing msg s
  | .wake msg => Sys2Proof.Machine.execWake msg s
  | .sensors msg => Sys2Proof.Machine.execSensors msg s
  | .alertSend => Sys2Proof.Machine.execAlertSend s
  | .mgtArbLoss => Sys2Proof.Machine.execMgtArbLoss s
  | .mgtRetry => Sys2Proof.Machine.execMgtRetry s
  | .smbusArp addr => Sys2Proof.Machine.execSmbusArp addr s
  | .setEndpointId vdm msg => Sys2Proof.Machine.execSetEndpointId vdm msg s
  | .getEndpointId vdm msg => Sys2Proof.Machine.execGetEndpointId vdm msg s
  | .getMctpVersionSupport vdm msg => Sys2Proof.Machine.execGetMctpVersionSupport vdm msg s
  | .getMessageTypeSupport vdm msg => Sys2Proof.Machine.execGetMessageTypeSupport vdm msg s
  | .getEndpointUuid vdm msg => Sys2Proof.Machine.execGetEndpointUuid vdm msg s
  | .getTid vdm msg => Sys2Proof.Machine.execGetTid vdm msg s
  | .setTid vdm msg => Sys2Proof.Machine.execSetTid vdm msg s
  | .getPldmVersion vdm msg => Sys2Proof.Machine.execGetPldmVersion vdm msg s
  | .getPldmTypes vdm msg => Sys2Proof.Machine.execGetPldmTypes vdm msg s
  | .getPldmCommands vdm msg => Sys2Proof.Machine.execGetPldmCommands vdm msg s
  | .getPdrRepositoryInfo vdm msg => Sys2Proof.Machine.execGetPdrRepositoryInfo vdm msg s
  | .getPdr vdm msg => Sys2Proof.Machine.execGetPdr vdm msg s
  | .getSensorReading vdm msg => Sys2Proof.Machine.execGetSensorReading vdm msg s
  | .getStateSensorReadings vdm msg => Sys2Proof.Machine.execGetStateSensorReadings vdm msg s
  | .usbCommand pkt => Sys2Proof.Machine.execUsbCommand pkt s
  | .getReply tag => Sys2Proof.Machine.execGetReply tag s
  | .usbSetupStall setup => Sys2Proof.Machine.execUsbSetupStall setup s
  | .usbBusReset partialCmd high => Sys2Proof.Machine.execUsbBusReset partialCmd high s
  | .vbusLoss partialCmd => Sys2Proof.Machine.execVbusLoss partialCmd s
  | .ep1Packet data => Sys2Proof.Machine.execEp1Packet data s
  | .ep1Timeout => Sys2Proof.Machine.execEp1Timeout s
  | .powerOn b => Sys2Proof.Machine.execPowerOn b s
  | .sysReset ns b => Sys2Proof.Machine.execSysReset ns b s
  | .journalReadDone => Sys2Proof.Machine.execJournalReadDone s
  | .bringUpComplete => Sys2Proof.Machine.execBringUpComplete s
  | .wdgCpExpiry => Sys2Proof.Machine.execWdgCpExpiry s
  | .wdgCpGraceEnd b => Sys2Proof.Machine.execWdgCpGraceEnd b s
  | .wdgAonExpiry b => Sys2Proof.Machine.execWdgAonExpiry b s
  | .pllLost b => Sys2Proof.Machine.execPllLost b s
  | .denFault cause den index => Sys2Proof.Machine.execDenFault cause den index s
  | .deviceFault cause b => Sys2Proof.Machine.execDeviceFault cause b s
  | .fatalFault cause b => Sys2Proof.Machine.execFatalFault cause b s
  | .tmrGstart start defer => Sys2Proof.Machine.execTmrGstart start defer s
  | .tmrDeferredStart => Sys2Proof.Machine.execTmrDeferredStart s
  | .tmrGateWrite tmr value => Sys2Proof.Machine.execTmrGateWrite tmr value s
  | .tmrMatch tmr => Sys2Proof.Machine.execTmrMatch tmr s
  | .jtagHalt => Sys2Proof.Machine.execJtagHalt s
  | .jtagRegrd off => Sys2Proof.Machine.execJtagRegrd off s
  | .extest cells => Sys2Proof.Machine.execExtest cells s
  | .clamp => Sys2Proof.Machine.execClamp s
  | .highz => Sys2Proof.Machine.execHighz s
  | .samplePreload balls cells => Sys2Proof.Machine.execSamplePreload balls cells s
  | .idcode => Sys2Proof.Machine.execIdcode s
  | .bypass => Sys2Proof.Machine.execBypass s
  | .testLogicReset => Sys2Proof.Machine.execTestLogicReset s
  | .ledgerCommit => Sys2Proof.Machine.execLedgerCommit s
  | .ledgerSectorRecycle => Sys2Proof.Machine.execLedgerSectorRecycle s
  | .ledgerHourly => Sys2Proof.Machine.execLedgerHourly s
  | .tagUpdate => Sys2Proof.Machine.execTagUpdate s
  | .tagFlipRetry => Sys2Proof.Machine.execTagFlipRetry s
  | .techAreaCheck => Sys2Proof.Machine.execTechAreaCheck s
  | .inventory => Sys2Proof.Machine.execInventory s
  | .stayQuiet => Sys2Proof.Machine.execStayQuiet s
  | .readSingleBlock block => Sys2Proof.Machine.execReadSingleBlock block s
  | .writeSingleBlock block data => Sys2Proof.Machine.execWriteSingleBlock block data s
  | .readMultipleBlocks block count => Sys2Proof.Machine.execReadMultipleBlocks block count s
  | .select => Sys2Proof.Machine.execSelect s
  | .resetToReady => Sys2Proof.Machine.execResetToReady s
  | .getSystemInformation => Sys2Proof.Machine.execGetSystemInformation s
  | .extendedReadSingle block => Sys2Proof.Machine.execExtendedReadSingle block s
  | .extendedWriteSingle block data => Sys2Proof.Machine.execExtendedWriteSingle block data s
  | .extendedReadMultiple block count => Sys2Proof.Machine.execExtendedReadMultiple block count s
  | .extendedGetSystemInfo => Sys2Proof.Machine.execExtendedGetSystemInfo s
  | .rfSessionEnd => Sys2Proof.Machine.execRfSessionEnd s
  | .powerLoss => Sys2Proof.Machine.execPowerLoss s
  | .vbusReturn => Sys2Proof.Machine.execVbusReturn s
  | .swQueryTimeout => Sys2Proof.Machine.execSwQueryTimeout s
  | .surveyTimeout => Sys2Proof.Machine.execSurveyTimeout s
  | .debugHaltEnd => Sys2Proof.Machine.execDebugHaltEnd s
  | .commandDone id result => Sys2Proof.Machine.execCommandDone id result s
  | .mgtRxDiscard => Sys2Proof.Machine.execMgtRxDiscard s
  | .smbusPecDrop => Sys2Proof.Machine.execSmbusPecDrop s
  | .linkMsg port msg => Sys2Proof.Machine.execLinkMsg port msg s
  | .refusedRead fn off len => Sys2Proof.Machine.execRefusedRead fn off len s

end Sys2Proof.Machine
end

