-- ==== Sys2Proof/Safety.lean ====
section
/-!
DEFINITION. What counts as a safe run, in the terms that the statements use: a step that goes on, memories in canonical form,
and a device state that the spec names.
-/

namespace Sys2Proof.Machine

/-- The step at `s` goes on: it answers a next state. -/
def State.goesOn (s : State) : Prop := ∃ t, step s = .next t

/-- `n` steps go on. -/
def State.runs (s : State) (n : Nat) : Prop :=
  match n with
  | 0 => True
  | k + 1 => ∃ t, step s = .next t ∧ t.runs k

/-- The memories that hold bytes are in canonical form: HBM, the Service tag, and every tile's SRAM. -/
def State.memOk (s : State) : Bool := memWf s.hbm.data && memWf s.tag.mem && s.tiles.all (fun p => memWf p.2.sram)

/-- What every step keeps: HBM's memory is in canonical form, and NumVFs is at most the 32 VFs (14 R430). -/
def State.inv (s : State) : Prop := memWf s.hbm.data = true ∧ s.pcie.numVfs ≤ 32

end Sys2Proof.Machine
end

