-- ==== Sys2Proof/Certificates/Slice0/Obligations.lean ====
section
/-!
DEFINITION. The statements about the DX-60 that are to be proved, in the model's own terms.
-/

open Sys2Proof Sys2Proof.Machine

set_option autoImplicit false

/-! ### The block: the queue of commands, idling, totality, reset, and what every step keeps -/

/-- A step takes the command at the front of the queue and runs it on the state with the queue's rest. With no command waiting,
a step is one clock tick (the model's choice, assumption 9): the queue stays empty, and nothing moves while the device is OFF. -/
def Obligations.StepRunsTheFrontCommand : Prop :=
  (∀ (c : Instr) (rest : List Instr) (s : State), step { s with pending := c :: rest } = exec c { s with pending := rest }) ∧
  (∀ s : State, s.pending = [] → step s = .next s.tick ∧ s.tick.pending = [] ∧ (s.pwr.st = .off → s.tick = s))

/-- Every command answers a next state in every state, and none is refused; the one exception is a SYS_RESET# pulse of 1 µs up
to 10 µs on a powered device whose ball the boundary cells do not own, of which the spec says nothing. -/
def Obligations.EveryCommandGoesOn : Prop :=
  ∀ (c : Instr) (s : State),
    (∃ t, exec c s = .next t) ∨
    (∃ ns b, c = .sysReset ns b ∧ 1000 ≤ ns ∧ ns < 10000 ∧ s.pwr.st ≠ .off ∧ s.tap.owned = false ∧
      exec c s = .fault .resetPulseUnspecified)

/-- No command reads or changes the queue of those that wait: exec leaves it as it is. -/
def Obligations.CommandsLeaveTheQueue : Prop :=
  ∀ (c : Instr) (s t : State), exec c s = .next t → t.pending = s.pending

/-- Every step, from every state that meets it, keeps the invariant: HBM's memory is in canonical form, and NumVFs is at most
the 32 virtual functions. No step changes a fuse: the serial number and the watchdog fuse stay as they were. -/
def Obligations.StepKeepsInvariant : Prop :=
  (∀ s t : State, s.inv → step s = .next t → t.inv) ∧
  (∀ s t : State, step s = .next t → t.boot.serial = s.boot.serial ∧ t.boot.fuseWdg = s.boot.fuseWdg)

/-- A number reads back as it was written into a sparse table, and every other number as before. -/
def Obligations.TablesReadBack : Prop :=
  (∀ (m : List Host.Cell) (a : Nat) (bs : Bytes) (j : Nat),
    memGet (memWrite m a bs) j = if a ≤ j ∧ j < a + bs.length then bs.getD (j - a) 0 else memGet m j) ∧
  (∀ (m : List Host.Cell) (lo hi j : Nat), memGet (memZero m lo hi) j = if lo ≤ j ∧ j < hi then 0 else memGet m j) ∧
  (∀ (m : List Host.Cell) (a lo hi : Nat) (bs : Bytes), memWf m = true →
    memWf (memWrite m a bs) = true ∧ memWf (memZero m lo hi) = true)

/-! ### Tiles: the sequencer's own instructions (08) -/

namespace Sys2Proof.Machine

/-- Tile `t`, which runs request `r`, has the word `w` at issue: HCLK runs, the task runs, the PC lies in the program store,
the word may stand there (08 R253), and no register that it names is still being written (08 R256). -/
def Issues (s : State) (t : Nat) (r : Req) (w : W64) : Prop :=
  s.holder t = some r ∧ s.hub = true ∧ (s.tile t).seq = .running ∧ r.phase = .running ∧ (s.tile t).pc < 8192 ∧
  s.word t r.den = w ∧ instrOk (s.tile t).pc w = true ∧
  ∀ n ∈ [iSd w, iSa w, iSb w, iSc w], (s.tile t).pendingReg n = false

/-- From `s` to `u` only tile `t` has changed, and of it only scalar registers, PC and TIL_STATUS.STALL: every other register,
tile SRAM, every other tile, HBM and the rest of the state are as before. -/
def SequencerOnly (s u : State) (t : Nat) : Prop :=
  u.tile t = { s.tile t with sregs := (u.tile t).sregs, pc := (u.tile t).pc, stall := (u.tile t).stall } ∧
  (∀ v, v ≠ t → u.tile v = s.tile v) ∧ { u with tiles := [] } = { s with tiles := [] }

/-- Scalar register `n` of tile `t` takes `v`, every other register is as before, and the next instruction is the one at
`pc`. S0 reads as zero, so a write to it is discarded (08 R248). -/
def WritesReg (s u : State) (t n : Nat) (v : W64) (pc : Nat) : Prop :=
  (∀ k, (u.tile t).getS k = if k = n ∧ k ≠ 0 then v else (s.tile t).getS k) ∧ (u.tile t).pc = pc ∧ SequencerOnly s u t

/-- `c` completes at `s` with register `n` of tile `t` taking `v` and the instruction after it next. -/
def Computes (c : Instr) (s : State) (t n : Nat) (v : W64) : Prop :=
  ∃ u, exec c s = .next u ∧ WritesReg s u t n v ((s.tile t).pc + 1)

end Sys2Proof.Machine

/-- 08 R248: S0 reads as zero, and a write to it is discarded; a write to S1 to S31 is read back, and no other scalar register
changes with it. -/
def Obligations.RegisterZeroReadsZero : Prop :=
  ∀ (x : Tile) (n k : Nat) (v : W64),
    x.getS 0 = 0 ∧ x.setS 0 v = x ∧ (x.setS n v).getS k = if k = n ∧ k ≠ 0 then v else x.getS k

/-- 08 R254: what the arithmetic and constant instructions put into SD; PC goes to the next instruction, and nothing else
changes. 08 R254: the special values of RDSR. Value 2, the TCLK since the start of the task, is a free value (assumption 1), so
that some value is all that is said of it. -/
def Obligations.TileArithmeticResults : Prop :=
  (∀ (s : State) (t : Nat) (r : Req) (w : W64), Issues s t r w → (s.tile t).pc < 8191 →
     let a := (s.tile t).getS (iSa w)
     let b := (s.tile t).getS (iSb w)
     let n := if iSub w = 0 then b.toNat % 64 else (iImm w).toNat % 64
     (iOp w = 0x01 → Computes (.tAdd t) s t (iSd w) (a + b)) ∧
     (iOp w = 0x02 → Computes (.tAddi t) s t (iSd w) (a + iImm w)) ∧
     (iOp w = 0x03 → Computes (.tSub t) s t (iSd w) (a - b)) ∧
     (iOp w = 0x04 → Computes (.tMul t) s t (iSd w) (a * b)) ∧
     (iOp w = 0x05 → Computes (.tAnd t) s t (iSd w) (a &&& b)) ∧
     (iOp w = 0x06 → Computes (.tOr t) s t (iSd w) (a ||| b)) ∧
     (iOp w = 0x07 → Computes (.tXor t) s t (iSd w) (a ^^^ b)) ∧
     (iOp w = 0x08 → Computes (.tAndi t) s t (iSd w) (a &&& iImm w)) ∧
     (iOp w = 0x09 → Computes (.tShl t) s t (iSd w) (a <<< n)) ∧
     (iOp w = 0x0A → Computes (.tShr t) s t (iSd w) (a >>> n)) ∧
     (iOp w = 0x0B → Computes (.tSra t) s t (iSd w) (a.sshiftRight n)) ∧
     (iOp w = 0x0C → Computes (.tSlt t) s t (iSd w) (if a.toInt < b.toInt then 1 else 0)) ∧
     (iOp w = 0x0D → Computes (.tSltu t) s t (iSd w) (if a.toNat < b.toNat then 1 else 0)) ∧
     (iOp w = 0x0E → Computes (.tMin t) s t (iSd w) (if a.toInt ≤ b.toInt then a else b)) ∧
     (iOp w = 0x0F → Computes (.tMax t) s t (iSd w) (if b.toInt ≤ a.toInt then a else b)) ∧
     (iOp w = 0x10 → Computes (.tLi t) s t (iSd w) (iImm w)) ∧
     (iOp w = 0x11 → Computes (.tLih t) s t (iSd w) ((a.setWidth 32).setWidth 64 ||| iImm w <<< 32)) ∧
     (iOp w = 0x44 → Computes (.tSemrd t) s t (iSd w) (BitVec.ofNat 64 (mget 0 (s.tile t).sems (iRaw w % 16))))) ∧
  (∀ (s : State) (t : Nat) (r : Req) (w : W64), Issues s t r w → (s.tile t).pc < 8191 → iOp w = 0x12 →
     (iRaw w = 0 → Computes (.tRdsr t) s t (iSd w) (BitVec.ofNat 64 t)) ∧
     (iRaw w = 1 → Computes (.tRdsr t) s t (iSd w) s.wtime) ∧
     (iRaw w = 2 → ∃ v u, exec (.tRdsr t) s = .next u ∧ (u.tile t).pc = (s.tile t).pc + 1 ∧
       ∀ k, (u.tile t).getS k = if k = iSd w ∧ k ≠ 0 then v else (s.tile t).getS k) ∧
     (iRaw w = 3 → Computes (.tRdsr t) s t (iSd w) ((s.tile t).taskId.setWidth 64)) ∧
     (iRaw w = 4 → Computes (.tRdsr t) s t (iSd w) (BitVec.ofNat 64 r.den)) ∧
     (iRaw w = 5 → Computes (.tRdsr t) s t (iSd w) (BitVec.ofNat 64 s.fab.wid)))

namespace Sys2Proof.Machine

/-- `c` completes at `s` with the instruction at `pc` next on tile `t`, no register changed. -/
def GoesTo (c : Instr) (s : State) (t pc : Nat) : Prop := ∃ u, exec c s = .next u ∧ WritesReg s u t 0 0 pc

end Sys2Proof.Machine

/-- 08 R254: where the branches and jumps go, and the link register of JAL. A branch's target lies in the program store, as
MODEL_LOAD has checked (R253); JR's is in a register. 08 R254, R281, R282, 13 R408: NOP and an idle YIELD go on; END lets the
tile drain; a YIELD under demand parks a yieldable task with the instruction after it next; TRAP aborts the task with USER_TRAP
and the low 16 bits of IMM as its code. 08 R257: a fall-through from index 8,191 aborts the task with PROG_RANGE, whatever of
the arithmetic it computed. -/
def Obligations.TileControlInstructions : Prop :=
  (∀ (s : State) (t : Nat) (r : Req) (w : W64), Issues s t r w →
     let a := (s.tile t).getS (iSa w)
     let b := (s.tile t).getS (iSb w)
     let next (taken : Bool) : Nat := if taken then branchTarget (s.tile t).pc w else (s.tile t).pc + 1
     (iOp w = 0x20 → next (a == b) < 8192 → GoesTo (.tBeq t) s t (next (a == b))) ∧
     (iOp w = 0x21 → next (a != b) < 8192 → GoesTo (.tBne t) s t (next (a != b))) ∧
     (iOp w = 0x22 → next (a.slt b) < 8192 → GoesTo (.tBlt t) s t (next (a.slt b))) ∧
     (iOp w = 0x23 → next (!(a.slt b)) < 8192 → GoesTo (.tBge t) s t (next (!(a.slt b)))) ∧
     (iOp w = 0x24 → ∃ u, exec (.tJal t) s = .next u ∧
       WritesReg s u t (iSd w) (BitVec.ofNat 64 ((s.tile t).pc + 1)) (branchTarget (s.tile t).pc w)) ∧
     (iOp w = 0x25 → a.toNat < 8192 → GoesTo (.tJr t) s t a.toNat)) ∧
  (∀ (s : State) (t : Nat) (r : Req) (w : W64), Issues s t r w →
     (iOp w = 0x00 → (s.tile t).pc < 8191 → GoesTo (.tNop t) s t ((s.tile t).pc + 1)) ∧
     (iOp w = 0x28 → (s.tile t).pc < 8191 → (r.demand = false ∨ (s.stallAt t 0).yieldable r = false) →
       GoesTo (.tYield t) s t ((s.tile t).pc + 1)) ∧
     (iOp w = 0x28 → (s.tile t).pc < 8191 → r.demand = true → (s.stallAt t 0).yieldable r = true →
       ∃ u, exec (.tYield t) s = .next u ∧
         u.tile t = { s.tile t with seq := .parked, stall := 7, pc := (s.tile t).pc + 1 } ∧
         (∀ v, v ≠ t → u.tile v = s.tile v)) ∧
     (iOp w = 0x26 → ∃ u, exec (.tEnd t) s = .next u ∧ u.tile t = { s.tile t with seq := .ending, stall := 7 } ∧
       (∀ v, v ≠ t → u.tile v = s.tile v)) ∧
     (iOp w = 0x27 → exec (.tTrap t) s = .next ((s.stallAt t 0).tileFault t 0x0C (iRaw w % 65536) 0 false false))) ∧
  (∀ (s : State) (t : Nat) (r : Req) (w : W64), Issues s t r w → (s.tile t).pc = 8191 → iOp w = 0x01 →
     exec (.tAdd t) s = .next
       ((((s.stallAt t 0).modTile t (fun x => x.setS (iSd w) (x.a w + x.b w))).modTile t (fun x => { x with pc := 8192 })).tileFault
         t 0x01 0 0 false false))

/-! ### Tiles: local memory, global accesses, engine queues, semaphores, quills and barriers (08) -/

namespace Sys2Proof.Machine

/-- `n` bytes of tile SRAM from `a` read without an ECC error and without a poison mark (08 R247, 22 R725). -/
def CleanSram (x : Tile) (a n : Nat) : Prop :=
  x.eccAny (granulesOf a n) 1 = false ∧ x.eccAny (granulesOf a n) 2 = false ∧ x.marked (granulesOf a n) = false

end Sys2Proof.Machine

/-- 08 R254, R255, R258: LDS puts the little-endian bytes at SA + IMM into SD, sign-extended where SUB[2] is 1; STS writes the
low bytes of SB there, and every other byte of every memory stays. 08 R258: an LDS or STS at or above 0x40_0000, or not at a
multiple of its size, aborts the task with SRAM_RANGE. -/
def Obligations.TileLocalLoadAndStore : Prop :=
  (∀ (s : State) (t : Nat) (r : Req) (w : W64), Issues s t r w → (s.tile t).pc < 8191 →
     let a := ((s.tile t).getS (iSa w) + iImm w).toNat
     let n := 2 ^ (iSub w % 4)
     a < 4194304 → a % n = 0 → CleanSram (s.tile t) a n →
     (iOp w = 0x30 → Computes (.tLds t) s t (iSd w) (extend n (tbit (iSub w) 2) (memRead (s.tile t).sram a n))) ∧
     (iOp w = 0x31 → ∃ u, exec (.tSts t) s = .next u ∧ (u.tile t).pc = (s.tile t).pc + 1 ∧
       (∀ j, memGet (u.tile t).sram j =
         if a ≤ j ∧ j < a + n then (toLe n ((s.tile t).getS (iSb w)).toNat).getD (j - a) 0 else memGet (s.tile t).sram j) ∧
       (∀ k, (u.tile t).getS k = (s.tile t).getS k) ∧ (∀ v, v ≠ t → u.tile v = s.tile v) ∧ u.hbm = s.hbm)) ∧
  (∀ (s : State) (t : Nat) (r : Req) (w : W64), Issues s t r w →
     let a := ((s.tile t).getS (iSa w) + iImm w).toNat
     (4194304 ≤ a ∨ a % 2 ^ (iSub w % 4) ≠ 0) →
     (iOp w = 0x30 → exec (.tLds t) s = .next ((s.stallAt t 0).tileFault t 0x02 0 (a / 128) false false)) ∧
     (iOp w = 0x31 → exec (.tSts t) s = .next ((s.stallAt t 0).tileFault t 0x02 0 (a / 128) false false)))

namespace Sys2Proof.Machine

/-- The checks that stand between a global access and its issue have passed: the address may be reached, the function may
master the bus where the access goes to the host, a token is there, and a transaction entry is free (08 R259, 13 R416, R417,
14 R461, 16 R534). -/
def MayAccess (s : State) (r : Req) (a n : Nat) (write : Bool) : Prop :=
  s.reachOf r a n write ≠ .bad ∧ ((s.reachOf r a n write).isHost = true → (s.fn (r.den + 1)).bme = true) ∧
  (s.den r.den).open (s.reachOf r a n write).path = true ∧ ((s.reachOf r a n write).isFar = true → s.fab.xacts.length < 16384)

end Sys2Proof.Machine

/-- 08 R254, R259, R262: a global load, store, block move or atomic whose checks pass issues: the access is outstanding with its
kind, its bytes and its place, as `startAcc` starts it, and the sequencer goes on. 08 R254, R262: an atomic that R166 permits
issues with its operation, its format, its operands, and the place that its result goes to. 08 R259: a global access that is
misaligned, or that may not reach its address, aborts the task. 08 R254, R256, R262, R263: FENCE goes on when every earlier
access has been applied, and waits until then. An access that has been served ends: LDG and ATOMS put their value into SD, the
others bring what they read to SRAM; one that failed aborts the task with its cause. -/
def Obligations.TileGlobalAccesses : Prop :=
  (∀ (s : State) (t : Nat) (r : Req) (w : W64), Issues s t r w →
     let x := s.tile t
     let u := s.stallAt t 0
     let a := (x.getS (iSa w) + iImm w).toNat
     let b := (x.getS (iSb w)).toNat
     let n := 2 ^ (iSub w % 4)
     let starts (k : AccKind) (n : Nat) (data : Bytes) : Host.Outcome State Fault Refusal :=
       .next (u.startAcc t r.den k (u.reachOf r a n k.writes) n data)
     (iOp w = 0x34 → a % n = 0 → MayAccess u r a n false → exec (.tLdg t) s = starts (.ldg (iSd w) n (tbit (iSub w) 2)) n []) ∧
     (iOp w = 0x35 → a % n = 0 → MayAccess u r a n true → exec (.tStg t) s = starts .stg n (toLe n (x.getS (iSb w)).toNat)) ∧
     (iOp w = 0x36 → a % 64 = 0 → b % 64 = 0 → b + 64 ≤ 4194304 → MayAccess u r a 64 false →
       exec (.tLdgb t) s = starts (.ldgb b) 64 []) ∧
     (iOp w = 0x37 → a % 64 = 0 → b % 64 = 0 → b + 64 ≤ 4194304 → MayAccess u r a 64 true → CleanSram x b 64 →
       exec (.tStgb t) s = starts .stgb 64 (memRead x.sram b 64))) ∧
  (∀ (s : State) (t : Nat) (r : Req) (w : W64), Issues s t r w →
     let x := s.tile t
     let u := s.stallAt t 0
     let a := (x.getS (iSa w)).toNat
     let b := x.getS (iSb w)
     let c := x.getS (iSc w)
     let f := iRaw w % 16
     let m := iRaw w / 16 % 64 + 1
     let n := m * laneBytes f
     let ret := (iRaw w).testBit 10
     let starts (k : AccKind) (n : Nat) (data : Bytes) : Host.Outcome State Fault Refusal :=
       .next (u.startAcc t r.den k (u.reachOf r a n true) n data)
     (iOp w = 0x38 → b.toNat + n ≤ 4194304 → (ret = true → c.toNat + n ≤ 4194304) → atomPermitted (iSub w) f m a = true →
       u.atomLocalOk (iSub w) f m a = true → MayAccess u r a n true → CleanSram x b.toNat n →
       exec (.tAtomv t) s = starts (.atomv (iSub w) f m ret c.toNat) n (memRead x.sram b.toNat n)) ∧
     (iOp w = 0x39 → atomPermitted (iSub w) 0 1 a = true → u.atomLocalOk (iSub w) 0 1 a = true → MayAccess u r a 8 true →
       exec (.tAtoms t) s = starts (.atoms (iSub w) (iSd w)) 8
         (if iSub w = 4 then toLe 8 b.toNat ++ toLe 8 c.toNat else toLe 8 c.toNat))) ∧
  (∀ (s : State) (t : Nat) (r : Req) (w : W64), Issues s t r w →
     let u := s.stallAt t 0
     let a := ((s.tile t).getS (iSa w) + iImm w).toNat
     let n := 2 ^ (iSub w % 4)
     (iOp w = 0x34 → a % n ≠ 0 → exec (.tLdg t) s = .next (u.tileFault t 0x04 0 0 false false)) ∧
     (iOp w = 0x35 → a % n ≠ 0 → exec (.tStg t) s = .next (u.tileFault t 0x04 0 0 false false)) ∧
     (iOp w = 0x34 → a % n = 0 → u.reachOf r a n false = .bad → exec (.tLdg t) s = .next (u.tileFault t 0x03 0 0 false false)) ∧
     (iOp w = 0x35 → a % n = 0 → u.reachOf r a n true = .bad → exec (.tStg t) s = .next (u.tileFault t 0x03 0 0 false false))) ∧
  ((∀ (s : State) (t : Nat) (r : Req) (w : W64), Issues s t r w → iOp w = 0x3A →
     ((s.stallAt t 0).fenced t = true → (s.tile t).pc < 8191 → GoesTo (.tFence t) s t ((s.tile t).pc + 1)) ∧
     ((s.stallAt t 0).fenced t = false → exec (.tFence t) s = .next ((s.stallAt t 0).stallAt t 9))) ∧
   (∀ (s : State) (t n : Nat) (g : GAcc), s.hub = true → (s.tile t).accs.find? (fun y => y.id == n) = some g → 
     let v := s.modTile t (fun x => { x with accs := x.accs.filter (fun y => y.id != g.id) })
     (∀ c, g.st = .failed c → exec (.globalAccessDone t n) s = .next (v.tileFault t c 0 0 false false)) ∧
     (∀ b, g.st = .served b false → (s.tile t).seq ≠ .aborting →
       exec (.globalAccessDone t n) s = .next (v.deliverAcc t g.kind b) ∧
       ∀ sd k sext, (g.kind = .ldg sd k sext →
           ∀ j, ((v.deliverAcc t g.kind b).tile t).getS j = if j = sd ∧ j ≠ 0 then extend k sext b else (s.tile t).getS j) ∧
         (∀ op, g.kind = .atoms op sd →
           ∀ j, ((v.deliverAcc t g.kind b).tile t).getS j = if j = sd ∧ j ≠ 0 then BitVec.ofNat 64 (fld b 0 8) else (s.tile t).getS j))))

/-! ### Tiles: engine queues, semaphores, history buffers, quills and barriers (08, 12) -/

namespace Sys2Proof.Machine

/-- Tile `t` has become what `f` makes of it, with the instruction after this one next and no stall; nothing else in the state
has changed. -/
def TileGoes (s u : State) (t : Nat) (f : Tile → Tile) : Prop :=
  u.tile t = { f (s.tile t) with pc := (s.tile t).pc + 1, stall := 0 } ∧ (∀ v, v ≠ t → u.tile v = s.tile v) ∧
  { u with tiles := [] } = { s with tiles := [] }

end Sys2Proof.Machine

/-- 08 R272, R275, R276: QSEND puts the 64 bytes at SB into the send queue for a destination that it may name, and waits while
the queue holds 4; QRECV moves the oldest quill of channel SUB to SB and its source into SD; QWAIT puts the mask of the
non-empty channels into SD, and waits for one unless SUB is 1. 08 R273, R274, R277: the oldest quill of a tile's send queue
leaves it, and arrives at the tile of its task's placed index, at a tile of this device, or goes to another device. -/
def Obligations.Quills : Prop :=
  (∀ (s : State) (t : Nat) (r : Req) (w : W64), Issues s t r w → (s.tile t).pc < 8191 →
     let x := s.tile t
     let v := (x.getS (iSa w)).toNat
     let l := (x.getS (iSb w)).toNat
     let m := x.chanMask (iRaw w)
     (iOp w = 0x50 → l + 64 ≤ 4194304 → s.quillDestOk r v = true → x.sendq.length < 4 → CleanSram x l 64 →
       ∃ u, exec (.tQsend t) s = .next u ∧ TileGoes s u t (fun y => { y with sendq := y.sendq ++
         [{ req := r.id, dest := BitVec.ofNat 64 v, chan := iSub w,
            quill := { src := s.quillSrc t v, data := memRead y.sram l 64, poison := y.marks64 l } }] })) ∧
     (iOp w = 0x50 → l + 64 ≤ 4194304 → s.quillDestOk r v = true → 4 ≤ x.sendq.length →
       exec (.tQsend t) s = .next ((s.stallAt t 0).stallAt t 8)) ∧
     (iOp w = 0x50 → l + 64 ≤ 4194304 → s.quillDestOk r v = false →
       exec (.tQsend t) s = .next ((s.stallAt t 0).tileFault t 0x09 0 0 false false)) ∧
     (∀ h rest, iOp w = 0x51 → l % 64 = 0 → l + 64 ≤ 4194304 → mget [] x.chans (iSub w) = h :: rest → h.spill = none →
       ∃ u, exec (.tQrecv t) s = .next u ∧ TileGoes s u t (fun y =>
         (({ y with chans := mset [] y.chans (iSub w) rest }.putMarked l (padB 64 h.quill.data) h.quill.poison).setS (iSd w)
           h.quill.src))) ∧
     (iOp w = 0x51 → l % 64 = 0 → l + 64 ≤ 4194304 → mget [] x.chans (iSub w) = [] →
       exec (.tQrecv t) s = .next ((s.stallAt t 0).stallAt t 4)) ∧
     (iOp w = 0x52 → (m ≠ 0 ∨ iSub w = 1) → Computes (.tQwait t) s t (iSd w) (BitVec.ofNat 64 m)) ∧
     (iOp w = 0x52 → m = 0 → iSub w ≠ 1 → exec (.tQwait t) s = .next ((s.stallAt t 0).stallAt t 4))) ∧
  (∀ (s : State) (t : Nat) (r : Req) (x : SentQuill) (rest : List SentQuill),
     s.hub = true → s.holder t = some r → (s.tile t).sendq = x :: rest →
     let u := s.modTile t (fun y => { y with sendq := rest })
     exec (.quillDeliver t) s = .next (u.carryQuill t r x) ∧
     (∀ v, x.dest.toNat < 256 → r.tiles[x.dest.toNat]? = some v → u.carryQuill t r x = u.putQuill v x.chan x.quill))

/-- 08 R265, R269, 12 R381: EXEC puts the bytes of the descriptor at the tail of queue SUB, and waits while it holds 8; WAITE
waits until queue SUB holds at most IMM; SEMPOST adds 1 to a semaphore below 255; SEMWAIT takes 1 from one above zero when no
older wait stands before it, and waits otherwise; HNEXT releases a posted history buffer. 08 R269: a SEMPOST of a semaphore that
stands at 255 aborts the task with SEM_OVERFLOW, and the semaphore keeps its value. 08 R263, R279, R280: BARRIER waits while an
earlier access is not applied; then the tile arrives, and with the last arrival every tile of the barrier goes on; an expected
count of 0, above the tile count or unlike the first arrival's aborts the task with BARRIER_MISMATCH. -/
def Obligations.TileSynchronises : Prop :=
  (∀ (s : State) (t : Nat) (r : Req) (w : W64), Issues s t r w → (s.tile t).pc < 8191 →
     let x := s.tile t
     let a := (x.getS (iSa w)).toNat
     let n := x.descLen a
     let m := iRaw w % 16
     (iOp w = 0x40 → a % 16 = 0 → a < 4194304 → a + n ≤ 4194304 → (x.queue (iSub w)).length < 8 → CleanSram x a n →
       ∃ u, exec (.tExec t) s = .next u ∧ TileGoes s u t (fun y => { y with engq := (y.place (iSub w) (memRead y.sram a n)).engq }) ∧
         ∀ q, (u.tile t).queue q = if q = iSub w then x.queue q ++ [memRead x.sram a n] else x.queue q) ∧
     (iOp w = 0x40 → a % 16 = 0 → a < 4194304 → a + n ≤ 4194304 → 8 ≤ (x.queue (iSub w)).length →
       exec (.tExec t) s = .next ((s.stallAt t 0).stallAt t 2)) ∧
     (iOp w = 0x41 → (x.queue (iSub w)).length ≤ iRaw w → GoesTo (.tWaite t) s t (x.pc + 1)) ∧
     (iOp w = 0x41 → iRaw w < (x.queue (iSub w)).length → exec (.tWaite t) s = .next ((s.stallAt t 0).stallAt t 6)) ∧
     (iOp w = 0x42 → mget 0 x.sems m < 255 →
       ∃ u, exec (.tSempost t) s = .next u ∧ TileGoes s u t (fun y => { y with sems := mset 0 y.sems m (mget 0 y.sems m + 1) })) ∧
     (iOp w = 0x43 → 0 < mget 0 x.sems m → x.semTurn m 0 = true →
       ∃ u, exec (.tSemwait t) s = .next u ∧ TileGoes s u t (fun y => y.semTake m 0) ∧ mget 0 (u.tile t).sems m = mget 0 x.sems m - 1) ∧
     (iOp w = 0x43 → (mget 0 x.sems m = 0 ∨ x.semTurn m 0 = false) →
       exec (.tSemwait t) s = .next (((s.stallAt t 0).modTile t (fun y => y.semQueue m 0)).stallAt t 3)) ∧
     (iOp w = 0x60 → x.hbuf (iSub w) = true →
       ∃ u, exec (.tHnext t) s = .next u ∧ TileGoes s u t (fun y => y.setBuf (iSub w) false))) ∧
  (∀ (s : State) (t : Nat) (r : Req) (w : W64), Issues s t r w → iOp w = 0x42 → 255 ≤ mget 0 (s.tile t).sems (iRaw w % 16) →
     exec (.tSempost t) s = .next (((s.stallAt t 0).tileFault t 0x08 0 0 false false).advanceIfRunning t)) ∧
  (∀ (s : State) (t : Nat) (r : Req) (w : W64), Issues s t r w → iOp w = 0x53 → (s.tile t).barrier = none →
     let v := s.stallAt t 0
     let n := iSub w
     let k := ((s.tile t).getS (iSa w)).toNat
     let b := mget ({} : BarrierSt) r.barriers n
     let l := b.tiles ++ [t]
     let arrived := (v.modReq r.id (fun x => { x with barriers := mset {} x.barriers n { expected := k, tiles := l } })).modTile t
       (fun x => { x with barrier := some n, stall := 5 })
     let right : Prop := k ≠ 0 ∧ k ≤ r.tiles.length ∧ (b.tiles = [] ∨ b.expected = k)
     (v.fenced t = false → exec (.tBarrier t) s = .next (v.stallAt t 9)) ∧
     (v.fenced t = true → right → l.length < k → exec (.tBarrier t) s = .next arrived) ∧
     (v.fenced t = true → right → k ≤ l.length → exec (.tBarrier t) s = .next (arrived.releaseBarrier r.id n l)) ∧
     (v.fenced t = true → ¬ right → exec (.tBarrier t) s = .next (v.tileFault t 0x0B 0 0 false false)))

/-! ### Tile engines and stream units (08 to 11) -/

namespace Sys2Proof.Machine

/-- Every listed run of SRAM bytes reads without error or poison. -/
def CleanRuns (x : Tile) (l : List (Nat × Nat)) : Prop := ∀ p ∈ l, CleanSram x p.1 p.2

/-- Descriptor `b` of queue `q` is the one that the engine starts next: `k` stand before it, started already, and its WAIT
condition holds (08 R268, R269). -/
def StartsNext (s : State) (t q k : Nat) (b : Bytes) : Prop :=
  s.engineOn t = true ∧ ((s.tile t).queue q)[k]? = some b ∧ (s.tile t).mayStart q b = true

end Sys2Proof.Machine

/-- 08 R268, 09 R308, 10 R332, R339, 11 R351: an engine starts a descriptor that it accepts: the WAIT semaphore is taken, and
the pass is under way; the weights of a matrix pass are read then; a stream unit takes the descriptor's ring. 08 R268, R269,
R271: a descriptor that its engine refuses aborts the task with DESC_BAD, one whose bytes leave tile SRAM aborts it with
SRAM_RANGE, and one whose WAIT condition does not hold waits on its semaphore. -/
def Obligations.EnginesStart : Prop :=
  (∀ (s : State) (t : Nat) (b : Bytes),
     let x := s.tile t
     (x.passes.length < 2 → StartsNext s t 0 x.passes.length b → mxOk x b = true →
       runsIn (mxActRuns b ++ mxLoadRuns b) = true → CleanRuns x (mxLoadRuns b) →
       ∃ u, exec (.matrixPassStart t) s = .next u ∧ u.tile t = (x.took 0 b).startPass b ∧ (∀ v, v ≠ t → u.tile v = s.tile v)) ∧
     (x.vx = none → StartsNext s t 1 0 b → vecOk x b = true → runsIn (vReads b ++ vWrites b) = true →
       ∃ u, exec (.vectorPassStart t) s = .next u ∧ u.tile t = { x.took 1 b with vx := some b } ∧ (∀ v, v ≠ t → u.tile v = s.tile v)) ∧
     (x.rd = none → StartsNext s t 2 0 b → redOk x b = true → runsIn ((rdX b).runs ++ rdWrites b) = true →
       ∃ u, exec (.reductionStart t) s = .next u ∧ u.tile t = { x.took 2 b with rd := some b } ∧ (∀ v, v ≠ t → u.tile v = s.tile v)) ∧
     (∀ n r, n < 2 → (x.unit n).mayBegin = true → StartsNext s t (3 + n) (x.unit n).running.length b → suOk (x.unit n) b = true →
       suInSram (x.unit n) b = true → s.holder t = some r → s.suSpanOk r b = true →
       ∃ u, exec (.streamDescStart t n) s = .next u ∧ u.tile t = (x.took (3 + n) b).modUnit n (fun y => y.begin b) ∧
         (∀ v, v ≠ t → u.tile v = s.tile v))) ∧
  (∀ (s : State) (t : Nat) (b : Bytes), s.engineOn t = true → ((s.tile t).queue 1)[0]? = some b → (s.tile t).vx = none →
     (vecOk (s.tile t) b = false → exec (.vectorPassStart t) s = .next (s.tileFault t 0x07 0 0 false false)) ∧
     (vecOk (s.tile t) b = true → runsIn (vReads b ++ vWrites b) = false →
       exec (.vectorPassStart t) s = .next (s.tileFault t 0x02 0 0 false false)) ∧
     (vecOk (s.tile t) b = true → runsIn (vReads b ++ vWrites b) = true → (s.tile t).mayStart 1 b = false →
       exec (.vectorPassStart t) s = .next (s.modTile t (fun x => x.waits 1 b))))

/-- 09 R305, R309, 10 R332, R339: a pass ends. What its operands give is in its destination, the descriptor leaves its queue,
the pass is counted, its engine time and its stall time are added as free values (assumption 1), and POST_SEM is posted. 09
R299, R304, R305: an accumulator position that a matrix pass names takes the element of the product, and every other position of
T4 to T7, like every other register and SRAM, keeps its value. -/
def Obligations.EnginesFinish : Prop :=
  (∀ (s : State) (t : Nat), s.engineOn t = true →
     (∀ p rest, (s.tile t).passes = p :: rest → CleanRuns (s.tile t) (mxActRuns p.desc) →
       exec (.matrixPassDone t) s = .next
         ((((s.free 32).2.modTile t (fun x => x.finishPass p (s.free 32).1)).engineTime (s.denOf t) cMatrix).postOf t p.desc)) ∧
     (∀ b, (s.tile t).vx = some b → CleanRuns (s.tile t) (vReads b) →
       let p := s.free (4 * vRows b)
       let v := p.2.free 32
       exec (.vectorPassDone t) s = .next (((((v.2.modTile t (fun x =>
         { (x.vecPass b p.1.toNat).leave 1 with vx := none, vxPasses := x.vxPasses + 1, vxStall := x.vxStall + v.1 })).engineTime
           (s.denOf t) cVector).partCheck t (vWrites b)).postOf t b))) ∧
     (∀ b, (s.tile t).rd = some b → CleanRuns (s.tile t) (rdX b).runs →
       let p := s.free (4 * rdCount b)
       let v := p.2.free 32
       exec (.reductionDone t) s = .next (((((v.2.modTile t (fun x =>
         { (x.reduce b p.1.toNat).leave 2 with rd := none, rdPasses := x.rdPasses + 1, rdStall := x.rdStall + v.1 })).engineTime
           (s.denOf t) cReduce).partCheck t (rdWrites b)).postOf t b)))) ∧
  (∀ (x : Tile) (p : MxPass) (v : W32),
     let y := x.finishPass p v
     let named (j m c : Nat) : Prop := m < mxM p.desc ∧ c < mxN p.desc ∧ mxPlace p.desc m c = j
     y.sram = x.sram ∧ y.sregs = x.sregs ∧ y.passes = x.passes.tail ∧ y.mxPasses = x.mxPasses + 1 ∧ y.queue 0 = (x.queue 0).tail ∧
     (∀ j, (∀ m c, ¬ named j m c) → mget 0 y.tregs j = mget 0 x.tregs j) ∧
     (∀ j m c, named j m c → (∀ m' c', named j m' c' → m' = m ∧ c' = c) →
       let a := memRead x.sram (mxActAt p.desc m).1 (mxActAt p.desc m).2
       let sa := if isMx (mxAfmt p.desc) then memRead x.sram (mxActScaleAt p.desc m).1 (mxActScaleAt p.desc m).2 else []
       mget 0 y.tregs j = (mxResult p.desc a sa p.w c (mget 0 x.tregs j)).1))

/-- 11 R344, R346, R352, R359: a stream unit's next transfer, with its credit, a free entry and tokens, leaves as one request of
at most 2 KiB within one 2 KiB block; the entry is held, the credit spent, the cursor moved. 11 R345, R353, R355, R365, R368: a
transfer that has been served ends: its entry is free, its bytes are counted, an IN transfer's bytes are in SRAM, and what it
finishes is posted; one that failed is held in TIL_SUFLT and aborts the task with STREAM_FAULT. -/
def Obligations.StreamTransfers : Prop :=
  (∀ (s : State) (t n : Nat) (r : Req) (d : SuDesc), s.engineOn t = true → n < 2 → s.holder t = some r →
     ((s.tile t).unit n).current = some d →
     let v := s.modTile t (fun x => x.takeCredit n d)
     let z := (v.tile t).unit n
     let x := d.nextXfer
     let p := v.reachOf r x.addr x.len x.out
     (d.needsCredit = true → z.credits ≠ 0) → z.xfers.length < 6 → p ≠ .bad → (p.isHost = true → (s.fn (r.den + 1)).bme = true) →
     (p.isFar = true → s.fab.xacts.length < 16384) → v.suOpen r.den p = true →
     (x.out = false → exec (.streamTransferIssue t n) s = .next ((v.modTile t (fun y => y.holdXfer n d x)).sendXfer t n r.den p x)) ∧
     (x.out = true → CleanSram (s.tile t) x.sram x.len →
       let y := { x with data := memRead (s.tile t).sram x.sram x.len }
       exec (.streamTransferIssue t n) s = .next ((v.modTile t (fun z => z.holdXfer n d y)).sendXfer t n r.den p y)) ∧
     x.len ≤ 2048 ∧ (0 < x.len → x.addr / 2048 = (x.addr + x.len - 1) / 2048)) ∧
  (∀ (s : State) (t n : Nat) (x : SuXfer), s.engineOn t = true → n < 2 → nextEnd ((s.tile t).unit n).xfers = some x →
     let v (k : Nat) := s.modTile t (fun y => y.modUnit n (fun z =>
       { z with xfers := dropFirst (fun w => w == x) z.xfers, bytes := z.bytes + BitVec.ofNat 64 k }))
     (x.fail ≠ 0 → exec (.streamTransferDone t n) s = .next
       (((v 0).modTile t (fun y => y.suFault n x)).tileFault t 0x0E 0 0 (decide (x.fail = subPoison)) false)) ∧
     (x.fail = 0 → x.out = true → exec (.streamTransferDone t n) s = .next ((v x.len).suSettle t n)) ∧
     (x.fail = 0 → x.out = false → CleanSram (s.tile t) x.sram x.len → 
       exec (.streamTransferDone t n) s = .next (((v x.len).modTile t (fun y => y.putSram x.sram (padB x.len x.data))).suSettle t n)))

/-! ### The Mioter array (03) -/

namespace Sys2Proof.Machine

/-- The PE rows: quadrant and PE, OP, what the operation does with its operands, and whether it reads A and B (03 R80). -/
def peShape (c : Instr) : Option (Nat × Nat × Nat × PeKind × Bool × Bool) :=
  match c with
  | .peNop q p => some (q, p, 0x00, .nothing, false, false)
  | .peMov q p => some (q, p, 0x01, .alu, true, false)
  | .peAdd q p => some (q, p, 0x02, .alu, true, true)
  | .peSub q p => some (q, p, 0x03, .alu, true, true)
  | .peAnd q p => some (q, p, 0x04, .alu, true, true)
  | .peOr q p => some (q, p, 0x05, .alu, true, true)
  | .peXor q p => some (q, p, 0x06, .alu, true, true)
  | .peShl q p => some (q, p, 0x07, .alu, true, true)
  | .peShr q p => some (q, p, 0x08, .alu, true, true)
  | .peSra q p => some (q, p, 0x09, .alu, true, true)
  | .peMul q p => some (q, p, 0x0A, .alu, true, true)
  | .peMulh q p => some (q, p, 0x0B, .alu, true, true)
  | .peMinu q p => some (q, p, 0x0C, .alu, true, true)
  | .peMaxu q p => some (q, p, 0x0D, .alu, true, true)
  | .peCmplt q p => some (q, p, 0x0E, .alu, true, true)
  | .peCmpeq q p => some (q, p, 0x0F, .alu, true, true)
  | .peSel q p => some (q, p, 0x10, .alu, true, true)
  | .peHash q p => some (q, p, 0x11, .alu, true, true)
  | .peCrc q p => some (q, p, 0x12, .alu, true, true)
  | .peRange q p => some (q, p, 0x13, .alu, true, true)
  | .peLut q p => some (q, p, 0x14, .alu, true, false)
  | .peBkt q p => some (q, p, 0x15, .alu, true, true)
  | .peEmit q p => some (q, p, 0x16, .emit, true, true)
  | .peBrf q p => some (q, p, 0x17, .branch, false, false)
  | _ => none

/-- PE `p` of quadrant `q` runs at `s` on token and slot `t`, and its next instruction has OP `op`. -/
def PeAt (s : State) (q p op : Nat) (t : Nat × Nat) : Prop :=
  s.hub = true ∧ ((s.quad q).pe p).serves = some t ∧ bits (((s.quad q).pe p).ins t.2) 26 6 = op

/-- `s` with PE `p` serving `t`. -/
def State.peServes (s : State) (q p : Nat) (t : Nat × Nat) : State := s.modQuad q (fun y => y.modPe p (fun e => { e with tok := some t }))

/-- Row `c` executes on operands that stand at the heads of its queues: PE `p` reads data words alone, its destination has room, and
the value and flag `v` go where the row's kind says. -/
def PeGives (c : Instr) (s : State) (t : Nat × Nat) (v : W32 × Bool) : Prop :=
  ∀ q p op kind ua ub hs, peShape c = some (q, p, op, kind, ua, ub) → PeAt s q p op t →
    let ins := ((s.quad q).pe p).ins t.2
    let dirs := peReads ins ua ub
    ((s.quad q).pe p).heads t.1 dirs = some hs → hs.any MioWord.isEnd = false → (s.quad q).destFull p kind ins = false →
    exec c s = .next ((s.peServes q p t).modQuad q (fun x => x.peEffect p t kind ins dirs v s.wtime))

end Sys2Proof.Machine

/-- 03 R77, R79, R80: what an ALU operation writes. A register destination takes the value, the flag takes the flag, the words
read leave their queues, the program counter advances; a queue destination takes one word; no other PE, slot or register
changes. 03 R77, R78: a PE whose queues lack a word of the served token waits and changes nothing but the token it serves; one
that stands before END words alone merges them; one that stands before both waits. -/
def Obligations.PeEffects : Prop :=
  (∀ (x : Quad) (p : Nat) (t : Nat × Nat) (ins : Nat) (ua ub : Bool) (v : W32 × Bool) (now : W64),
     let dirs := peReads ins ua ub
     let d := bits ins 21 5
     let e := x.pe p
     let y := x.peEffect p t .alu ins dirs v now
     (d < 16 →
       (∀ j, mget 0 (y.pe p).regs j = if j = 16 * t.2 + d then v.1 else mget 0 e.regs j) ∧
       (∀ j, mget false (y.pe p).flag j = if j = t.2 then v.2 else mget false e.flag j) ∧
       (∀ n, n < 4 → (y.pe p).queue n = if n ∈ dirs then (e.queue n).tail else e.queue n) ∧
       (∀ r, r ≠ p → y.pe r = x.pe r) ∧ y.lanes = x.lanes ∧ y.slots = x.slots) ∧
     (16 ≤ d → d < 20 → (peNbr p (d - 16)).1 ≠ p →
       (y.pe p).regs = e.regs ∧
       (y.pe (peNbr p (d - 16)).1).queue (peNbr p (d - 16)).2 =
         (x.pe (peNbr p (d - 16)).1).queue (peNbr p (d - 16)).2 ++ [{ data := v.1, slot := t.2, tok := t.1 }] ∧
       (∀ r, r ≠ p → r ≠ (peNbr p (d - 16)).1 → y.pe r = x.pe r))) ∧
  (∀ (c : Instr) (s : State) (q p op : Nat) (kind : PeKind) (ua ub : Bool) (t : Nat × Nat),
     peShape c = some (q, p, op, kind, ua, ub) → PeAt s q p op t →
     let ins := ((s.quad q).pe p).ins t.2
     let dirs := peReads ins ua ub
     (((s.quad q).pe p).heads t.1 dirs = none → exec c s = .next (s.peServes q p t)) ∧
     (∀ hs, ((s.quad q).pe p).heads t.1 dirs = some hs → hs.any MioWord.isEnd = true → hs.all MioWord.isEnd = false →
       exec c s = .next (s.peServes q p t)) ∧
     (∀ h hs, ((s.quad q).pe p).heads t.1 dirs = some (h :: hs) → (h :: hs).all MioWord.isEnd = true →
       ((s.quad q).destFull p kind ins = false ∨ kind = .emit) →
       exec c s = .next ((s.peServes q p t).modQuad q (fun y => y.endMerge p t kind ins dirs h.data s.wtime))))

/-- 03 R79 to R81: the value and the flag that each PE operation gives, of its operands A, B, K and F. 03 R80: BKT outside its
window, or on words that do not ascend, completes with a free value (assumption 1) as its result. -/
def Obligations.PeOperations : Prop :=
  (∀ (s : State) (q p : Nat) (t : Nat × Nat),
     let i := ((s.quad q).pe p).input t.2 (((s.quad q).pe p).ins t.2)
     let a := i.a
     let b := i.b
     PeGives (.peNop q p) s t (0, i.f) ∧ PeGives (.peMov q p) s t (a, i.f) ∧ PeGives (.peAdd q p) s t (a + b, i.f) ∧
     PeGives (.peSub q p) s t (a - b, i.f) ∧ PeGives (.peAnd q p) s t (a &&& b, i.f) ∧ PeGives (.peOr q p) s t (a ||| b, i.f) ∧
     PeGives (.peXor q p) s t (a ^^^ b, i.f) ∧ PeGives (.peShl q p) s t (a <<< (b.toNat % 32), i.f) ∧
     PeGives (.peShr q p) s t (a >>> (b.toNat % 32), i.f) ∧ PeGives (.peSra q p) s t (a.sshiftRight (b.toNat % 32), i.f) ∧
     PeGives (.peMul q p) s t (BitVec.ofNat 32 (a.toNat * b.toNat), i.f) ∧
     PeGives (.peMulh q p) s t (BitVec.ofNat 32 (a.toNat * b.toNat / 2 ^ 32), i.f) ∧
     PeGives (.peMinu q p) s t (BitVec.ofNat 32 (min a.toNat b.toNat), i.f) ∧
     PeGives (.peMaxu q p) s t (BitVec.ofNat 32 (max a.toNat b.toNat), i.f) ∧
     PeGives (.peCmplt q p) s t (if a.toNat < b.toNat then (1, true) else (0, false)) ∧
     PeGives (.peCmpeq q p) s t (if a = b then (1, true) else (0, false)) ∧
     PeGives (.peSel q p) s t (if i.f = true then a else b, i.f) ∧ PeGives (.peHash q p) s t (mioHash a b, i.f) ∧
     PeGives (.peCrc q p) s t (crcUpdate b (toLe 4 a.toNat), i.f) ∧
     PeGives (.peRange q p) s t (BitVec.ofNat 32 (a.toNat * b.toNat / 2 ^ 32), i.f) ∧
     PeGives (.peLut q p) s t (i.lut ((a.toNat + i.k) % 256), i.f) ∧
     (∀ v, bucketOf i = some v → PeGives (.peBkt q p) s t v) ∧
     PeGives (.peEmit q p) s t (0, i.f) ∧ PeGives (.peBrf q p) s t (0, i.f)) ∧
  (∀ (s : State) (q p : Nat) (t : Nat × Nat) (hs : List MioWord), PeAt s q p 0x15 t →
     let ins := ((s.quad q).pe p).ins t.2
     let i := ((s.quad q).pe p).input t.2 ins
     let dirs := peReads ins true true
     ((s.quad q).pe p).heads t.1 dirs = some hs → hs.any MioWord.isEnd = false → (s.quad q).destFull p .alu ins = false →
     bucketOf i = none → ∃ v : W32, exec (.peBkt q p) s = .next
       { (s.peServes q p t).modQuad q (fun x => x.peEffect p t .alu ins dirs (v, i.f) s.wtime) with freeCtr := s.freeCtr + 1 })

/-- 03 R75, R83, R84, R105, R113: the next token enters at its boundary cycle with its slot's tag; the input port feeds a word
or a marker to each row with room; the output port passes records, and closes a token whose lanes have ended. 03 R104, R105: a
token that has made no progress, or a parity error, makes its slot INVALID and drops every token of it. 03 R109 to R116: a
sample goes to WPTR, which advances; with FULL set and WRAP clear it is skipped and counted; a restart clears WPTR, FULL and
DROPPED and keeps the buffer. -/
def Obligations.MioterTokens : Prop :=
  (∀ (s : State) (q : Nat), s.hub = true →
     let x := s.quad q
     (∀ t, x.toks.any MioTok.feeding = false → x.toks.find? (fun t => !t.entered) = some t →
       ∃ u, exec (.mioTokenBoundary q) s = .next u ∧ (u.quad q).tag = t.slot ∧ (u.quad q).tokens = x.tokens + 1 ∧
         (u.quad q).toks = modFirst (fun y => y.id == t.id) (fun y => { y with entered := true, progress := s.wtime }) x.toks ∧
         (u.quad q).pes = x.pes ∧ (u.quad q).lanes = x.lanes ∧ (∀ r, r ≠ q → u.quad r = s.quad r)) ∧
     (∀ t, x.toks.find? MioTok.feeding = some t →
       exec (.mioInputWord q) s = .next (s.modQuad q (fun y => (List.range 16).foldl (fun z r => z.feedRow t.id r) y))) ∧
     (∀ t, x.front = some t → exec (.mioOutputPass q) s = .next (s.each (List.range 16) (fun v l => v.passLane q l t.id))) ∧
     (∀ t, x.front = some t → x.mayClose t = true → s.recordFits t.req = true →
       exec (.mioTokenClose q) s = .next (s.closeToken q t))) ∧
  (∀ (s : State) (q : Nat), s.hub = true →
     (∀ t, (s.quad q).stuck = some t → exec (.mioTokenTimeout q) s = .next (s.dropSlot q t.slot 0x0013 0x0D)) ∧
     (∀ c, (s.slot q c).st = .ready → exec (.mioParityError q c) s = .next (s.dropSlot q c 0x0012 0x06))) ∧
  (∀ s : State, s.hub = true →
     (s.mioter.smpEn = true → (s.mioter.smpFull = false ∨ s.mioter.smpWrap = true) →
       ∃ u, exec .sampleRecord s = .next u ∧ u.mioter.smpWptr = s.mioter.smpWptr + 1 ∧
         (∀ n, mget (List.replicate 64 0) u.mioter.smpBuf n =
           if n = s.mioter.smpWptr.toNat then s.smpRecord else mget (List.replicate 64 0) s.mioter.smpBuf n) ∧
         (u.mioter.smpFull = true ↔ (s.mioter.smpFull = true ∨ s.mioter.smpWptr = 1023)) ∧ u.mioter.smpDropped = s.mioter.smpDropped) ∧
     (s.mioter.smpEn = true → s.mioter.smpFull = true → s.mioter.smpWrap = false →
       ∃ u, exec .sampleRecord s = .next u ∧ u.mioter.smpBuf = s.mioter.smpBuf ∧ u.mioter.smpWptr = s.mioter.smpWptr ∧
         u.mioter.smpDropped = satAdd s.mioter.smpDropped 1) ∧
     (∃ u, exec .sampleRestart s = .next u ∧ u.mioter.smpWptr = 0 ∧ u.mioter.smpFull = false ∧ u.mioter.smpDropped = 0 ∧
       u.mioter.smpBuf = s.mioter.smpBuf ∧ { u with mioter := s.mioter } = s))

/-! ### Requests, tasks and tiles (01, 08, 13) -/

/-- 01 R26, R28 to R31, R45, 13 R402 to R407: a request is admitted from the ring of the den whose turn it is, its features are
read and steered, and the first unplaced request of a den is placed on free tiles, or raises yield demand. 01 R26, R28, R42: the
head of a request ring leaves it; an invalid descriptor completes with BAD_DESC, a request of a fenced model with NO_TILES, and
any other takes its references and its features begin. -/
def Obligations.RequestsAreAdmittedAndPlaced : Prop :=
  (∀ s : State,
     (∀ d n, s.serving = true → (List.range 32).filter s.waits = [] →
       s.rrDens.find? (fun d => s.denServes d && s.admitTokens d && (s.offer d).isSome) = some d → s.offer d = some n →
       exec .requestAdmit s = .next (s.admitHead d n)) ∧
     (∀ id r, s.hub = true → s.req id = some r → r.steered = false → r.phase ≠ .aborting →
       (dFsrc r.desc = 2 → exec (.featureReadDone id) s = .next (s.readFeatures r)) ∧
       (∀ b, dFsrc r.desc ≠ 2 → r.feat = some b → exec (.featureReadDone id) s = .next (s.steer r b))) ∧
     (∀ d r, s.serving = true → s.firstUnplaced d = some r →
       let ts := firstNats (s.tileFree r) (s.entryOf r).tiles (List.range 256)
       (ts.length = (s.entryOf r).tiles → exec (.requestPlace d) s = .next (s.placeOn r ts)) ∧
       (ts.length ≠ (s.entryOf r).tiles → exec (.requestPlace d) s = .next (s.raiseDemand r (s.entryOf r).tiles)))) ∧
  (∀ (s : State) (d n : Nat),
     let b := s.headBytes d n
     let v := s.takeRequest d n
     (v.descBad d b = true → s.admitHead d n = v.complete d n (fld b 2 2) 0x03 0 0 (dIrq b) 0) ∧
     (v.descBad d b = false →
       let r := v.newReq d n b
       let w := r.versions.foldl (fun s p => s.takeRef p.1 p.2) { v with reqs := v.reqs ++ [r], reqSeq := v.reqSeq + 1 }
       (∀ m, w.model d r.model = some m → m.fenced = true → s.admitHead d n = w.endReq r 0x10 false) ∧
       (∀ m, w.model d r.model = some m → m.fenced = false → s.admitHead d n = w.beginFeatures r)))

/-- 01 R36, R37, 08 R251: a task whose placement and bags are done starts: tile k of its tiles wakes at its entry point's k-th
PC with S1 to S7 as R251 gives them and every other scalar register and semaphore zero; a woken tile issues. 01 R38, R39, R46,
08 R281, R283, R284, 13 R408 to R412: a drained tile reports its end; an aborted task ends when its tiles have stopped; a guard
that expires aborts its task with GUARD; a task whose tiles have all parked yields, and demand that outlives its 20 µs is
cancelled on the tiles that parked; a yielded task resumes when its tiles are free. -/
def Obligations.TasksRun : Prop :=
  ((∀ (s : State) (id : Nat) (r : Req), s.req id = some r → s.serving = true → r.phase = .placed → r.ready = true → r.tiles.Nodup →
     ∃ u, exec (.taskStart id) s = .next u ∧
       ∀ k t, r.tiles[k]? = some t →
         (u.tile t).seq = .waking ∧ (u.tile t).pwr = .run ∧ (u.tile t).pc = (s.entryOf r).pcs.getD k 0 ∧
         (u.tile t).getS 1 = BitVec.ofNat 64 k ∧ (u.tile t).getS 2 = BitVec.ofNat 64 r.tiles.length ∧
         (u.tile t).getS 3 = BitVec.ofNat 64 r.samples ∧ (u.tile t).getS 4 = BitVec.ofNat 64 (hostBase + dOutAddr r.desc) ∧
         (u.tile t).getS 5 = BitVec.ofNat 64 (dOutLen r.desc) ∧
         (u.tile t).getS 6 = BitVec.ofNat 64 (fld r.desc 2 2 + 2 ^ 16 * r.ring + 2 ^ 24 * b2n r.be) ∧
         (u.tile t).getS 7 = BitVec.ofNat 64 (dHistId r.desc) ∧ (∀ n, 8 ≤ n → (u.tile t).getS n = 0) ∧
         (∀ n, mget 0 (u.tile t).sems n = 0) ∧ (u.tile t).sram = (s.tile t).sram) ∧
   (∀ (s : State) (t : Nat), s.hub = true → (s.tile t).seq = .waking →
     ∃ u, exec (.tileWake t) s = .next u ∧ u.tile t = { s.tile t with seq := .running } ∧ (∀ v, v ≠ t → u.tile v = s.tile v) ∧
       { u with tiles := [] } = { s with tiles := [] })) ∧
  (∀ s : State, s.hub = true →
     (∀ t r, s.holder t = some r → (s.tile t).seq = .ending → (s.tile t).drained = true → r.phase = .running →
       exec (.tileEndReport t) s = .next (s.reportEnd t r)) ∧
     (∀ id r, s.req id = some r → r.phase = .aborting → exec (.taskAbortDone id) s = .next (s.abortDone r)) ∧
     (∀ t r, s.holder t = some r → r.phase = .running → (s.tile t).seq = .running →
       exec (.guardExpiry t) s = .next
         ((s.modTile t (fun x => { x with guardElapsed := x.guardLimit + 1 })).tileFault t 0x0D 0 0 false false)) ∧
     (∀ id r, s.req id = some r → r.phase = .running → r.demand = true →
       (s.allParked r = true → exec (.tileParked id) s = .next (s.yieldTask r)) ∧
       (s.allParked r = false → ∃ u : State, exec (.yieldCancel id) s = .next (u.count r.den cYcancel 1) ∧
         ∀ t, u.tile t = if t ∈ r.tiles ∧ (s.tile t).seq = .parked then { s.tile t with seq := .running, stall := 0 } else s.tile t)) ∧
     (∀ id r, s.serving = true → s.req id = some r → r.phase = .yielded → s.mayResume r = true →
       exec (.taskResume id) s = .next (s.resumeTask r)))

/-- 08 R285, R286: an idle tile dozes when its DOZE_AFTER has passed; a tile that joins a den's set is zeroed, IDLE and free for
placement, its fault records and DOZE_AFTER kept. 08 R282, R283, R294: a task abort cause is recorded in TIL_FAULT of the tile
that raised it, unless that holds one already, and stops every tile of the task; the request ends later with the status of the
cause. -/
def Obligations.TaskAborts : Prop :=
  (∀ (s : State) (t : Nat), s.hub = true →
     ((s.tile t).pwr = .idle → (s.tile t).dozeNow ≠ 0 → (s.tile t).seq ≠ .waking →
       ∃ u, exec (.tileDoze t) s = .next u ∧ u.tile t = { s.tile t with pwr := .doze } ∧ (∀ v, v ≠ t → u.tile v = s.tile v) ∧
         { u with tiles := [] } = { s with tiles := [] }) ∧
     ((s.tileDen t).isSome = true → (s.tile t).prepared = false → (s.tile t).fenced = false →
       ∃ u, exec (.tilePrepareDone t) s = .next u ∧ (u.tile t).pwr = .idle ∧ (u.tile t).prepared = true ∧ (u.tile t).sram = [] ∧
         (u.tile t).sregs = [] ∧ (u.tile t).tregs = [] ∧ (u.tile t).sems = [] ∧ (u.tile t).faultCause = (s.tile t).faultCause ∧
         (u.tile t).faultValid = (s.tile t).faultValid ∧ (u.tile t).dozeAfter = (s.tile t).dozeAfter ∧
         (∀ v, v ≠ t → u.tile v = s.tile v))) ∧
  (∀ (s : State) (t : Nat) (r : Req) (cause trap line : Nat) (poison own : Bool),
     s.holder t = some r → r.phase ≠ .aborting → t ∈ r.tiles →
     let u := s.tileFault t cause trap line poison own
     (u.tile t).seq = .aborting ∧ (u.tile t).faultValid = true ∧ (u.tile t).engq = [] ∧ (u.tile t).sendq = [] ∧
     ((s.tile t).faultValid = false → (u.tile t).faultCause = BitVec.ofNat 8 cause ∧ (u.tile t).trapCode = BitVec.ofNat 16 trap ∧
       (u.tile t).faultPc = BitVec.ofNat 13 (s.tile t).pc) ∧
     ((s.tile t).faultValid = true → (u.tile t).faultCause = (s.tile t).faultCause ∧ (u.tile t).trapCode = (s.tile t).trapCode ∧
       (u.tile t).faultPc = (s.tile t).faultPc) ∧
     ∃ q, u.req r.id = some q ∧ q.phase = .aborting ∧ q.status = causeStatus cause ∧ q.tiles = r.tiles)

/-! ### The Forager and the history reader (04, 12) -/

/-- 04 R121 to R142: a record that arrives is taken up for its request; the gather issues what comes next; a remote bag gets an
arrival slot; a prefetch issues and ends; a row that has arrived is pooled into its bag. 12 R371 to R381: a history walk begins
with its directory entry, or with none beyond the directory; a chunk that is whole is posted to the history tiles; the reader
goes on when the next buffer is free. -/
def Obligations.ForagerGathers : Prop :=
  (∀ s : State, s.hub = true →
     (∀ id b rest q, s.forager.inq = (id, b) :: rest → s.req id = some q → q.phase ≠ .aborting →
       exec .foragerRecordArrive s = .next (State.arrive { s with forager := { s.forager with inq := rest } } q b)) ∧
     (∀ id b rest q, s.forager.inq = (id, b) :: rest → s.req id = some q → q.phase = .aborting →
       exec .foragerRecordArrive s = .next { s with forager := { s.forager with inq := rest } }) ∧
     (∀ u, s.readWaits = [] → (s.reqs.filter (fun q => q.phase == .placed)).findSome? s.issueFor = some u →
       exec .gatherIssue s = .next u) ∧
     (∀ u, s.readWaits = [] → (s.reqs.filter (fun q => q.phase == .placed)).findSome? s.issueFor = none →
       s.reqs.findSome? s.issueWalk = some u → exec .gatherIssue s = .next u) ∧
     (∀ id smp grp ent q n, s.req id = some q → s.freeArrSlot = some n → q.phase = .placed → (q.bag smp grp ent).slot = none →
       s.bagRemote q smp grp ent = true → s.arrOf q.den < max 1 (s.den q.den).arrMax.toNat →
       ∃ u, exec (.arrivalReserve id smp grp ent) s = .next u ∧
         (∀ j, j ≠ n → mget ({} : ArrSlot) u.hoard.arr j = mget {} s.hoard.arr j) ∧
         (mget ({} : ArrSlot) u.hoard.arr n).used = true ∧ (mget ({} : ArrSlot) u.hoard.arr n).req = id ∧
         u.req id = some (q.modBag smp grp ent (fun y => { y with slot := some n }))) ∧
     (∀ id q e x, s.req id = some q → s.prefetchEngine = some e → s.forager.ibuf.find? (s.prefetchable q) = some x →
       s.isCandidate q = true → s.maySlot q.den = true → s.readTokens q.den = true → s.demandWaits = false →
       exec (.prefetchIssue id) s = .next (s.prefetch q x e)) ∧
     (∀ n, s.forager.slots.any (fun x => x.r.id == n && x.kind == .prefetch && x.data.isSome) = true →
       exec (.prefetchDone n) s = .next (s.freeSlot n true)) ∧
     (∀ n g q b, s.forager.slots.find? (fun x => x.r.id == n && x.kind != .prefetch && x.data.isSome) = some g →
       s.req g.r.req = some q → g.data = some b →
       let t := s.tabOf q g.r.table
       exec (.rowPooled n) s = .next ((s.freeSlot n false).takeRow g.r (s.ownOf t) false (t.rowVals b) g.poison))) ∧
  (∀ (s : State) (id : Nat) (q : Req) (w : Walk), s.hub = true → s.req id = some q → q.walk = some w →
     (w.begun = false → q.phase = .running → s.walksRunning < 64 → (s.den q.den).hdirLen.toNat ≤ dHistId q.desc →
       exec (.histWalkBegin id) s = .next (s.beginWalk q none)) ∧
     (∀ b p v, w.begun = false → q.phase = .running → s.walksRunning < 64 → dHistId q.desc < (s.den q.den).hdirLen.toNat →
       s.walkRead q.den ((s.den q.den).hdirBase.toNat + 32 * dHistId q.desc) 32 = some (b, p, v) →
       exec (.histWalkBegin id) s = .next (v.beginWalk q (v.readEntry q.den b))) ∧
     (∀ h, (s.entryOf q).hist = some h → w.begun = true → w.done = false → w.reading = true → w.examined = w.chunkEnd →
       s.walkOpen id = false → q.phase = .running → exec (.histChunkPost id) s = .next (s.chunkPost q h w)) ∧
     (∀ h, (s.entryOf q).hist = some h → q.phase = .running → w.begun = true → w.done = false → w.reading = false →
       s.bufFree q h (w.chunk % 2) = true →
       exec (.histReadResume id) s = .next (s.modWalk id (fun y => { y with reading := true }))))

/-! ### The Hoard and HBM (05, 06) -/

/-- 05 R149: a slice serves the head of the first port in round-robin order that can be served, when it is of the kind that the
row names. 05 R149 to R151, R162 to R165, R231, 22 R725: what a served request does, its lines being there. A read answers with
the bytes, a write stores, an atomic stores what its operation makes of the old bytes and answers with those, a commit makes its
row current; an atomic on a poisoned extent is not applied. 05 R163: an INT32 lane atomic acts on each lane by itself: ADD wraps
modulo 2^32, MAX and MIN compare signed. -/
def Obligations.HoardRequests : Prop :=
  (∀ (s t : State) (n : Nat) (r : HReq), s.hub = true → s.nextServed n = some (r, t) →
     (∃ p, p < 5 ∧ (s.hPort n p).head? = some r ∧ (s.popPort n p).serveReq r = some t) ∧
     (∀ f, (r.kind = .read f ∨ r.kind = .write f) → exec (.hoardRequest n 0) s = .next t) ∧
     (∀ fmt k ret, r.kind = .lanes 1 fmt k ret → exec (.hoardAdd n) s = .next t) ∧
     (∀ fmt k ret, r.kind = .lanes 2 fmt k ret → exec (.hoardMax n) s = .next t) ∧
     (∀ fmt k ret, r.kind = .lanes 3 fmt k ret → exec (.hoardMin n) s = .next t) ∧
     (∀ a b, r.kind = .cas a b → exec (.cas64 n) s = .next t) ∧
     (∀ v, r.kind = .swap v → exec (.swap64 n) s = .next t) ∧
     (∀ i, r.kind = .commit i → exec (.rowCommit n) s = .next t)) ∧
  (∀ (s v : State) (r : HReq),
     let old := v.devRead r.addr r.len
     let atomic (new ans : Bytes) : Option State := some (((v.devWrite r.addr new).countFor r.den cAtom).answer r.dst ans false)
     (∀ f, r.kind = .read f → s.reach r f false = some v → s.serveReq r = some (v.answer r.dst old (v.devBad r.addr r.len))) ∧
     (∀ f, r.kind = .write f → s.reach r f true = some v → s.serveReq r = some ((v.devWrite r.addr r.data).answer r.dst [] false)) ∧
     (∀ op fmt n ret, r.kind = .lanes op fmt n ret → s.reach r true true = some v → v.devBad r.addr r.len = false →
       s.serveReq r = atomic (laneAtomic op fmt n old r.data) (if ret then old else [])) ∧
     (∀ a b, r.kind = .cas a b → s.reach r true true = some v → v.devBad r.addr r.len = false →
       s.serveReq r = atomic (if leNat old = a.toNat then toLe 8 b.toNat else old) old) ∧
     (∀ b, r.kind = .swap b → s.reach r true true = some v → v.devBad r.addr r.len = false →
       s.serveReq r = atomic (toLe 8 b.toNat) old) ∧
     (∀ b, r.kind = .swap b → s.reach r true true = some v → v.devBad r.addr r.len = true →
       s.serveReq r = some (v.answer r.dst [] true)) ∧
     (∀ i x, r.kind = .commit i → s.hoard.dirs.find? (fun y => y.id == i) = some x → s.serveReq r = some (s.commitRow x))) ∧
  (∀ (n i : Nat) (old arg : Bytes), i < n →
     let a := BitVec.ofNat 32 (fld old (4 * i) 4)
     let b := BitVec.ofNat 32 (fld arg (4 * i) 4)
     let lane (op : Nat) : W32 := BitVec.ofNat 32 (fld (laneAtomic op 0xA n old arg) (4 * i) 4)
     lane 1 = a + b ∧ (lane 2).toInt = max a.toInt b.toInt ∧ (lane 3).toInt = min a.toInt b.toInt ∧
     ∀ op, (laneAtomic op 0xA n old arg).length = 4 * n)

namespace Sys2Proof.Machine

/-- A read or a write, which HOARD_REQUEST serves. -/
def HKind.isPlain (k : HKind) : Bool :=
  match k with
  | .read _ => true
  | .write _ => true
  | _ => false

end Sys2Proof.Machine

/-- 05 R177, 22 R719: an ECC error in the line that a slice reads next is counted and logged, a corrected one under 0x0102 and
an uncorrectable one under 0x0103; an uncorrectable dirty line is kept with its granule poisoned. 05 R157, R159, R175: a way
change takes effect when no line of the way is held, and leaves none of the way's lines; a pin region that has been refilled
serves the active version; a flush writes every dirty line of HBM back and leaves the Hoard empty and off. -/
def Obligations.HoardState : Prop :=
  (∀ (s t : State) (n k : Nat) (r : HReq) (l : HLine), s.hub = true → s.nextServed n = some (r, t) → s.hoard.find r.addr = some (k, l) →
     let loc := mkLoc 2 n none false (k / 16 % 4096 + 4096 * (k % 16))
     let keeps := { l with poison := l.poison ||| BitVec.ofNat 16 (2 ^ (r.addr % 128 / 8)) }
     exec (.hoardRequest n 1) s = .next
       ((State.fault { s with hoard := { s.hoard with corr := satAdd s.hoard.corr 1 } } 0x0102 loc).sliceRow n HKind.isPlain) ∧
     (l.dirty = true → exec (.hoardRequest n 2) s = .next
       ((State.fault { s with hoard := { s.hoard with uncorr := satAdd s.hoard.uncorr 1, lines := mput s.hoard.lines k keeps } }
         0x0103 loc).sliceRow n HKind.isPlain)) ∧
     (l.dirty = false → l.addr < hbmSize → exec (.hoardRequest n 2) s = .next
       ((State.fault { s with hoard := { s.hoard with uncorr := satAdd s.hoard.uncorr 1, lines := merase s.hoard.lines k } }
         0x0103 loc).sliceRow n HKind.isPlain))) ∧
  (∀ s : State, s.hub = true →
     (∀ w m, (s.way w).change = some m → s.hoard.wayHeld w = false →
       ∃ u, exec (.wayChangeDone w) s = .next u ∧ (u.way w).mode = m.1 ∧ (u.way w).owner = m.2 ∧ (u.way w).change = none ∧
         (∀ p ∈ u.hoard.lines, p.1 % 16 ≠ w) ∧ (∀ v, v ≠ w → u.way v = s.way v)) ∧
     (∀ n, (s.table n).present = true → (s.table n).pin = true → (s.table n).pinFilling = true →
       ∃ u, exec (.pinRefillDone n) s = .next u ∧
         u.table n = { s.table n with pinVer := some (s.table n).active, pinFilling := false } ∧
         (∀ m, m ≠ n → u.table m = s.table m) ∧ { u with tables := [] } = { s with tables := [] }) ∧
     (s.hoard.flushActive = true → s.boot.phase ≠ .warmFlush →
       ∃ u : State, exec .flushDone s = .next u.leaveRetain ∧ u.hoard.lines = [] ∧ u.hoard.flushActive = false ∧ u.hoard.flushDone = true ∧
         u.hoard.off = true ∧ u.pcie.retFlushOk = true ∧
         u.hbm = (s.hoard.lines.filter (fun p => s.hoard.flushes p.2)).foldl (fun b p => b.putLine p.2) s.hbm))

/-- 06 R183: byte `o` of stripe `st` lies on the pseudo-channel and at the offset within the stripe's 64 KiB piece that R183
computes, and every byte of the stripe has its own place, each of the 256 pseudo-channels holding exactly 64 KiB of it, for each
granule. -/
def Obligations.StripePlacesRoundTrip : Prop :=
  ∀ g st : Nat, g ≤ 2 →
    (∀ o, locate g st o =
      let n := [256, 4096, 65536].getD g 0
      let j := o / n
      let rnd := j / 256
      (((j % 256) ^^^ (rnd % 256)) ^^^ (st % 256), rnd * n + o % n)) ∧
    (∀ o, o < 16777216 →
      (locate g st o).1 < 256 ∧ (locate g st o).2 < 65536 ∧ unlocate g st (locate g st o).1 (locate g st o).2 = o) ∧
    (∀ p q, p < 256 → q < 65536 → unlocate g st p q < 16777216 ∧ locate g st (unlocate g st p q) = (p, q))

/-- 06 R186, R187, R189 to R192, R198, R199: a pseudo-channel serves one access, a scrub reads the next word of its stack, a
repair candidate's online repair begins or is recorded as pending, and a repair that ends is recorded. -/
def Obligations.HbmControllers : Prop :=
  ∀ s : State, s.hub = true →
    (∀ pc ecc i x, s.hbmNext (mget [] s.hbm.queues pc) = some (i, x) →
      let q := mget [] s.hbm.queues pc
      let rest := ((q.take i).map (fun y => { y with passedBy := y.passedBy + 1 })) ++ q.drop (i + 1)
      let v := State.keepRow { s with hbm := { s.hbm with queues := mset [] s.hbm.queues pc rest } } x.addr rest
      exec (.hbmAccess pc ecc) s = .next (if x.write then v.serveHbmWrite x.addr else v.serveHbmRead x.addr ecc)) ∧
    (∀ n, n < 8 → (s.stack n).scrubEn = true → (s.stack n).scrubPos + 1 < stackWords →
      let w := s.scrubAddr n (s.stack n).scrubPos / 32
      mget false s.hbm.bad w = false → mget false s.hbm.weak w = false →
      ∃ u, exec (.hbmScrubRead n 0) s = .next u ∧ (u.stack n).scrubPos = (s.stack n).scrubPos + 1 ∧
        (u.stack n).scrubPasses = (s.stack n).scrubPasses ∧ u.hbm.data = s.hbm.data) ∧
    (∀ n key rest, (s.stack n).cands = key :: rest → (s.stack n).repair = none →
      ((s.stack n).softFree key = true → ∃ u, exec (.hbmRowRepair n) s = .next u ∧ (u.stack n).repair = some key ∧
        (u.stack n).cands = rest ∧ (∀ m, m ≠ n → u.stack m = s.stack m)) ∧
      ((s.stack n).softFree key = false → exec (.hbmRowRepair n) s = .next
        ((s.modStack n (fun y => { y with cands := rest, pendRows := y.pendRows ++ [key] })).record 8 (rowRecord key 0 0) none))) ∧
    (∀ n key, (s.stack n).repair = some key →
      exec (.hbmRepairDone n) s = .next
        (((s.rowRead key).modStack n (fun y => { y with repair := none, softRows := y.softRows ++ [key] })).record 8
          (rowRecord key 1 0) none))

/-! ### Power, thermal levels, accounting and timers (13, 17, 20) -/

/-- 17 R580, 06 R194: a level is entered above its entry limit and left at or below its exit limit, for dies and stacks alike.
17 R579 to R585, 06 R193 to R197: a reading below the trip limit sets its source's level and acts on it; one at 125 °C of a die,
or at 120 °C of a stack, trips THERMTRIP#: the device is OFF, and HBM has lost its contents. -/
def Obligations.TemperatureReadings : Prop :=
  (∀ t : Int,
     (nextLevel jEntry jExit 0 t = if 115 < t then 4 else if 110 < t then 3 else if 105 < t then 2 else if 95 < t then 1 else 0) ∧
     (nextLevel tEntry tExit 0 t = if 110 < t then 4 else if 105 < t then 3 else if 95 < t then 2 else if 85 < t then 1 else 0) ∧
     (∀ l, l ≤ 4 → 93 < t → t ≤ 95 → nextLevel jEntry jExit l t = if l = 0 then 0 else 1) ∧
     (∀ l, l ≤ 4 → t ≤ 93 → nextLevel jEntry jExit l t = 0) ∧
     (∀ l, l ≤ 4 → 83 < t → t ≤ 85 → nextLevel tEntry tExit l t = if l = 0 then 0 else 1) ∧
     (∀ l, l ≤ 4 → t ≤ 83 → nextLevel tEntry tExit l t = 0) ∧
     (∀ l m, nextLevel jEntry jExit l t = m → l ≤ 4 → m ≤ 4)) ∧
  (∀ (s : State) (x : BitVec 8), s.pwr.st ≠ .off →
     (∀ d, d < 3 →
       let v : State := { s with pwr := { s.pwr with dieTemp := mset 0 s.pwr.dieTemp d x, seen := mset false s.pwr.seen d true } }
       (125 ≤ x.toInt → ∃ u, exec (.dieTempRead d x) s = .next u ∧ u.pwr.st = .off ∧ u.pwr.thermtrip = true ∧ u.boot.phase = .off ∧
         u.hbm.data = []) ∧
       (x.toInt < 125 → exec (.dieTempRead d x) s = .next
         ((v.setDieLevel d (v.movesTo jEntry jExit (mget 0 s.pwr.dieLevel d) x)).thermalEvents.heatAct))) ∧
     (∀ n, n < 8 → s.stackOut n = false →
       let v := s.modStack n (fun y => { y with temp := x, tempMax := if y.tempMax.toInt < x.toInt then x else y.tempMax })
       let w : State := { v with pwr := { v.pwr with seen := mset false v.pwr.seen (4 + n) true } }
       (120 ≤ x.toInt → ∃ u, exec (.hbmTempRead n x) s = .next u ∧ u.pwr.st = .off ∧ u.pwr.thermtrip = true ∧ u.hbm.data = []) ∧
       (x.toInt < 120 → exec (.hbmTempRead n x) s = .next
         ((w.setStackLevel n (w.movesTo tEntry tExit (w.stack n).level x)).thermalEvents.heatAct))))

/-- 17 R565 to R571, R582, R584, R591: D3hot puts ACTIVE into STANDBY with every task ended and the clocks stopped; D0 brings it
back; an alarm wakes a HUSH, which a held wake event or the end of a thermal stop leaves; idle clocks in STANDBY stop again. 17
R565, R570: when every task is aborted with no completion, none of them is left among the requests. -/
def Obligations.PowerStates : Prop :=
  (∀ s : State,
     (s.pwr.st = .active → s.tim.cpSt ≠ .grace →
       ∃ u, exec .d3hotEntry s = .next u ∧ u.pwr.st = .standby) ∧
     (s.pwr.st = .hush → ∃ u, exec .d3hotEntry s = .next u ∧ u.pwr.st = .standby ∧ u.pwr.thermHold = s.pwr.thermal ∧
       u.pwr.wakePend = none) ∧
     (s.pwr.st = .standby → s.pwr.thermHold = false → s.pwr.svcRun = true →
       ∃ u, exec .d0Return s = .next u ∧ u.pwr.st = .active ∧ u.pwr.svcRun = false ∧ u.wtime = s.wtime ∧ u.tiles = s.tiles) ∧
     (s.pwr.st = .standby → s.pwr.thermHold = false → s.pwr.svcRun = false →
       exec .d0Return s = .next (State.startClocks { s with pwr := { s.pwr with st := .active } })) ∧
     (s.pwr.st = .hush → s.pwr.alarm ≠ 0 → s.pwr.thermal = false → s.pwr.wakePend = none →
       ∃ u, exec .hushAlarm s = .next u ∧ u.pwr.st = .hush ∧ u.pwr.wakePend = some 7 ∧ s.pwr.alarm.toNat ≤ u.pwr.aon.toNat ∧
         s.pwr.aon.toNat ≤ u.pwr.aon.toNat) ∧
     (∀ c, s.pwr.st = .hush → s.pwr.thermal = false → s.pwr.wakePend = some c → exec .hushExit s = .next (s.hushLeave c)) ∧
     (s.pwr.st = .hush → s.pwr.thermal = true → s.cool = true → exec .hushExit s = .next s.hushCool) ∧
     (s.pwr.st = .hush → s.pwr.thermal = true → s.cool = false → exec .hushExit s = .next s) ∧
     (s.pwr.st = .standby → s.pwr.svcRun = true → s.cp.running = [] → s.cp.usbIn = none → s.cp.uartIn = none → s.tim.cpSt ≠ .grace →
       ∃ u, exec .standbyClockStop s = .next u ∧ u.pwr.st = .standby ∧ u.pwr.svcRun = false)) ∧
  (∀ (s : State) (p : Req → Bool) (q : Bool), (∀ a ∈ s.reqs, ∀ b ∈ s.reqs, a.id = b.id → a = b) →
     ∀ r, r ∈ s.reqs → p r = true → (s.killReqs p q).req r.id = none)

/-- 17 R557, R560, R561, R575 to R578: the limiter's evaluation, TCLK's step of 100 MHz towards its target, and the trim of
AONCLK. 17 R576, R577: above the cap the limiter steps TCLK down, and holds half rate at 900 MHz; 30 W below it, it counts ten
evaluations and steps up. 13 R415, R418 to R420: a refill brings every bucket of every den up; a snapshot keeps the counters of
every den; the energy of the last second is charged as free values (assumption 1) to each den that exists, and the new factor
stands. -/
def Obligations.ClocksAndAccounting : Prop :=
  (∀ s : State, s.hub = true →
     (∀ p q, ∃ u, exec (.powerLimiterEval p q) s = .next u ∧
       u.pwr = Power.limit { s.pwr with cap := min 1050 s.boot.prof.cap, p100 := p % 65536, p1ms := q % 65536,
                                        seen := mset false s.pwr.seen 12 true } p ∧ { u with pwr := s.pwr } = s) ∧
     (s.pwr.tclkCur ≠ 0 → ∃ u, exec .tclkStep s = .next u ∧ { u with pwr := s.pwr } = s ∧
       (s.pwr.tclkCur < s.tclkTarget → u.pwr.tclkCur = s.pwr.tclkCur + 1) ∧
       (s.tclkTarget < s.pwr.tclkCur → u.pwr.tclkCur + 1 = s.pwr.tclkCur) ∧
       (s.tclkTarget = s.pwr.tclkCur → u.pwr.tclkCur = s.pwr.tclkCur)) ∧
     (s.pwr.st ≠ .off → s.pwr.xtalOk = true → exec (.aonclkTrim false) s = .next
       (State.fault { s with pwr := { s.pwr with xtalOk := false } } 0x0502 (mkLoc 11 0 none false 0))) ∧
     (s.pwr.st ≠ .off → exec (.aonclkTrim true) s = .next { s with pwr := { s.pwr with xtalOk := true } })) ∧
  (∀ (w : Power) (p : Nat),
     (w.cap < p → 9 < w.limVal → (w.limit p).limVal + 1 = w.limVal ∧ (w.limit p).stepDown = w.stepDown + 1 ∧ (w.limit p).low = 0) ∧
     (w.cap < p → w.limVal ≤ 9 → (w.limit p).limVal = w.limVal ∧ (w.limit p).halfLim = true ∧ (w.limit p).low = 0) ∧
     (p + 30 < w.cap → 9 ≤ w.low → w.limVal < w.tclkMax →
       (w.limit p).limVal = w.limVal + 1 ∧ (w.limit p).stepUp = w.stepUp + 1 ∧ (w.limit p).low = 0) ∧
     (p + 30 < w.cap → w.low < 9 → (w.limit p).limVal = w.limVal ∧ (w.limit p).low = w.low + 1) ∧
     (p ≤ w.cap → w.cap ≤ p + 30 → (w.limit p).limVal = w.limVal ∧ (w.limit p).low = 0 ∧ (w.limit p).halfLim = (w.halfLim && decide (w.cap < p + 30)))) ∧
  (∀ s : State, s.hub = true →
     (∃ u, exec .regulatorRefill s = .next u ∧ ∀ d, d < 32 →
       u.den d = { s.den d with regHbm := (s.den d).regHbm.refill, regHoard := (s.den d).regHoard.refill,
                                regIfs := (s.den d).regIfs.refill, regPcie := (s.den d).regPcie.refill }) ∧
     (∃ u, exec .acctSnap s = .next u ∧ u.pwr.acctSnapped = true ∧ u.pwr.acctSnapTime = s.wtime ∧
       u.pwr.acctUnattrSnap = s.pwr.acctUnattr ∧ ∀ d, d < 32 → u.den d = { s.den d with snap := (s.den d).cnt.filter (fun p => decide (p.1 < 20)) }) ∧
     (∀ f, ∃ u, exec (.energyCalibrate f) s = .next u ∧ u.pwr.acctCal = f ∧
       ∀ d, (s.den d).st = .free → u.den d = s.den d))

/-- 20 R661: a match of a repeating timer counts one hit and moves CMP by the smallest number of intervals that leaves it above
the reference; the ones passed over are counted as missed. 20 R660 to R662, R666, R667, R670, 22 R741: starts at once and
deferred, gate writes, matches, and debug halt. 20 R659, R668: a tick of the running hub advances Warren time by one, half as
often while the device is ahead of its master (16 R546); after a stop of e AON ticks the make-up advances it by 15,625/256 of e,
RESID carrying the rest. -/
def Obligations.Timers : Prop :=
  (∀ (x : Tmr) (r : W64), x.ivl ≠ 0 → x.cmp.toNat ≤ r.toNat → x.cmp.toNat + x.steps r * x.ivl.toNat < 2 ^ 64 →
     let y := x.matched r
     y.cmp.toNat = x.cmp.toNat + x.steps r * x.ivl.toNat ∧ r.toNat < y.cmp.toNat ∧ y.cmp.toNat ≤ r.toNat + x.ivl.toNat ∧
     y.hits = x.hits + 1 ∧ y.missed = satAdd x.missed (x.steps r - 1) ∧ y.armed = x.armed ∧ y.count = x.count) ∧
  (∀ s : State, s.hub = true →
     (∀ m, ∃ u, exec (.tmrGstart m false) s = .next u ∧ ∀ n, n < 8 →
       u.tmr n = if m.getLsbD n then { s.tmr n with run := true, pend := false } else s.tmr n) ∧
     (∀ m, ∃ u, exec (.tmrGstart m true) s = .next u ∧ ∀ n, n < 8 → u.tmr n = { s.tmr n with pend := m.getLsbD n && !(s.tmr n).run }) ∧
     (s.tim.gstartAt ≤ s.wtime → s.frozen = false → ∃ u, exec .tmrDeferredStart s = .next u ∧ ∀ n, n < 8 →
       u.tmr n = if (s.tmr n).pend then { s.tmr n with run := true, pend := false } else s.tmr n) ∧
     (∀ n v, n < 8 → s.gateDup n v = false → ∃ u, exec (.tmrGateWrite n v) s = .next u ∧ u.tmr n = (s.tmr n).setGate v ∧
       ∀ m, m ≠ n → u.tmr m = s.tmr m) ∧
     (∀ n v, n < 8 → s.gateDup n v = true → exec (.tmrGateWrite n v) s = .next (s.fault 0x0503 (mkLoc 11 0 none false 0))) ∧
     (∀ n, n < 8 → s.matchDue n = true → ∃ u, exec (.tmrMatch n) s = .next u ∧ u.tmr n = (s.tmr n).matched (s.tmrRef (s.tmr n)) ∧
       u.tim.evt = s.tim.evt ||| BitVec.ofNat 8 (2 ^ n) ∧ ∀ m, m ≠ n → u.tmr m = s.tmr m) ∧
     (s.err.jtagHalt = true → ∃ u, exec .jtagHalt s = .next u ∧ u.tim.halt = true ∧
       u.tim.cpSt = if s.tim.cpSt = .running then .held else s.tim.cpSt) ∧
     (s.tim.halt = true → ∃ u, exec .debugHaltEnd s = .next u ∧ u.tim.halt = false ∧
       u.tim.cpSt = if s.tim.cpSt = .held then .running else s.tim.cpSt)) ∧
  ((∀ s : State, s.hub = true → s.fab.slow = 0 → s.tick.wtime = s.wtime + 1) ∧
   (∀ s : State, s.hub = true → s.fab.slow ≠ 0 → s.fab.slowPhase = false → s.tick.wtime = s.wtime ∧ s.tick.fab.slow = s.fab.slow - 1) ∧
   (∀ (s : State) (e : Nat),
     let n := e * 15625 + s.tim.resid.toNat
     (s.makeup e).wtime = s.wtime + BitVec.ofNat 64 (n / 256) ∧ (s.makeup e).tim.resid = BitVec.ofNat 8 n ∧
     (s.makeup e).tim.makeups = s.tim.makeups + 1))

/-! ### Updates, version switches and the Warren (07, 16) -/

/-- 07 R228 to R231, R236: the head of an update ring that has its completion slot and its tokens is accepted, or refused with
its status; a record block in this device's memory is read; the next record is staged, or skipped with its flag. -/
def Obligations.UpdateEngine : Prop :=
  ∀ (s : State) (d n : Nat),
    (∀ b, s.ringFront (updKey d n) = some b → s.updReady d n = true → s.updTokens d = true →
      let v := s.takeUpd d n
      (s.updRefusal d b ≠ 0 → exec (.updateAccept d n) s = .next
        (v.postUpd d n (uIrq b) (updEntry (uTag b) (s.updRefusal d b) 0 n 0xFF 0 0 0 v.wtime))) ∧
      (s.updRefusal d b = 0 →
        let k := updSlot b (v.table (uTable b))
        exec (.updateAccept d n) s = .next
          (((v.takeRef (uTable b) k).setUpd d n (some
            { desc := b, tag := BitVec.ofNat 16 (uTag b), irq := uIrq b, table := uTable b, vslot := k, count := uCount b,
              tAccept := v.wtime })).beginBlock d n b (updLen b (v.table (uTable b)).rowSize)))) ∧
    (∀ u, s.hub = true → s.upd d n = some u → s.blockLocal u = true → u.readEnded = false →
      exec (.recordBlockReadDone d n) s = .next ((s.readBlock d n u).updCheck d n)) ∧
    (∀ u, s.hub = true → s.upd d n = some u → s.updHas u = true →
      let t := s.table u.table
      let x := recordAt u.block (s.updStride u) u.idx
      (∀ k, s.skipFlag t x = k → k ≠ 0 → exec (.updateStage d n) s = .next (s.nextRecord d n k)) ∧
      (∀ v, s.skipFlag t x = 0 → s.stageRow d n u.table (t.rowAddr u.vslot (t.localRow (fld x 0 5))) (x.drop 16) = some v →
        exec (.updateStage d n) s = .next (v.nextRecord d n 0)))

namespace Sys2Proof.Machine

/-- A message of type `ty`, which R524 accepts, reaches this device on port `p`. -/
def Arrives (s : State) (p : Nat) (m : Bytes) (ty : Nat) : Prop :=
  s.portUp p = true ∧ mType m = ty ∧ mDst m = s.fab.wid ∧ msgOk m = true

/-- The state once a message has left the receive buffer: its credits are owed to the partner, and its bytes are counted for its den
(16 R525, R545). -/
def State.taken (s : State) (p : Nat) (m : Bytes) : State :=
  if mVc m = 3 then s.creditBack p m else (s.creditBack p m).count (mDen m) cIfsRx (32 * mFlits m)

end Sys2Proof.Machine

/-- 07 R220 to R225, 16 R550: what a device and the master do with the messages of a Warren switch. 07 R220, R222, R223, 16
R550: a COMMIT of the switch that a device has prepared sets its T_SW, and one that comes late applies at once and is logged; a
device that has drained says so once; the master's waits for PREPARED and for SW_STATE end. 07 R218, R223, R224: a committed
switch takes effect at Warren time T_SW: every table that it names becomes ACTIVE at its target, its locks go, and the device
goes on to drain. -/
def Obligations.WarrenSwitches : Prop :=
  (∀ (s : State) (p : Nat) (m : Bytes),
     let u := s.taken p m
     (Arrives s p m 0x40 → exec (.prepare p m) s = .next (u.onPrepare m)) ∧
     (Arrives s p m 0x41 → exec (.prepared p m) s = .next (u.addPrepared (mSrc m) (mSwitch m))) ∧
     (Arrives s p m 0x42 → exec (.refusedMsg p m) s = .next (u.addRefused (mSwitch m) (fld m 0x10 1))) ∧
     (Arrives s p m 0x43 → exec (.commit p m) s = .next (u.commitHere (mSwitch m) (BitVec.ofNat 64 (fld m 0x10 8)))) ∧
     (Arrives s p m 0x44 → exec (.abort p m) s = .next (u.abortHere (mSwitch m))) ∧
     (Arrives s p m 0x45 → exec (.drained p m) s = .next (u.addDrained (mSrc m) (mSwitch m))) ∧
     (Arrives s p m 0x46 → exec (.release p m) s = .next (u.releaseHere (mSwitch m))) ∧
     (Arrives s p m 0x47 → exec (.swQuery p m) s = .next
       (u.sendOr (u.mkMsg 0x48 (mSrc m) 0 0 (mTid m) (toLe 4 u.wsw.id.toNat ++ toLe 1 u.wsw.st) []))) ∧
     (Arrives s p m 0x48 → exec (.swState p m) s = .next (u.addState (mSrc m) (fld m 0x10 1 % 8 + 8 * fld m 0xC 4)))) ∧
  (∀ s : State,
     (∀ t, s.wsw.st = 1 → s.wtime.toNat ≤ t.toNat → s.commitHere s.wsw.id t = { s with wsw := { s.wsw with st := 2, tsw := t } }) ∧
     (∀ t, s.wsw.st = 1 → t.toNat < s.wtime.toNat → s.commitHere s.wsw.id t =
       (State.applySwitch { s with wsw := { s.wsw with st := 2, tsw := t, late := true } }).fault 0x0307 (mkLoc 11 0 none false 0)) ∧
     (∀ id t, (s.wsw.id ≠ id ∨ s.wsw.st ≠ 1) → s.commitHere id t = s) ∧
     (s.hub = true → s.wsw.st = 3 → s.wsw.drainedSent = false → s.swDrained = true →
       let v : State := { s with wsw := { s.wsw with drainedSent := true } }
       (s.wsw.master = s.fab.wid → exec .drainedSend s = .next (v.addDrained s.fab.wid s.wsw.id)) ∧
       (s.wsw.master ≠ s.fab.wid →
         exec .drainedSend s = .next (v.sendOr (v.mkMsg 0x45 s.wsw.master 0 0 0 (toLe 4 s.wsw.id.toNat) [])))) ∧
     (∀ m, s.hub = true → s.msw = some m → m.st = 0 → exec .warrenPrepareTimeout s = .next (s.abortAll m 0x0D)) ∧
     (∀ m, s.hub = true → s.msw = some m → m.st = 2 → exec .swQueryTimeout s = .next (s.endQuery m))) ∧
  (∀ s : State, s.hub = true → s.wsw.st = 2 → s.wsw.tsw.toNat ≤ s.wtime.toNat → (s.wsw.pairs.map Prod.fst).Nodup →
     ∃ u, exec .warrenSwitchApply s = .next u ∧ u.wsw.st = 3 ∧ u.wsw.prevs = s.previous s.wsw.pairs ∧
       (∀ p, p ∈ s.wsw.pairs → (s.table p.1).present = true → (u.table p.1).active = p.2) ∧
       (∀ n, (∀ p ∈ s.wsw.pairs, p.1 ≠ n) → (u.table n).active = (s.table n).active) ∧
       (∀ n, (s.table n).lock = some s.wsw.id → (u.table n).lock = none))

/-- 16 R536, R543, R546 to R549: heartbeats, HOLD, claims, HUSH notes and surveys. 16 R546: a member takes its master's Warren
time at once when it is behind or was never synchronised, and otherwise slows down by as many ticks as it is ahead. -/
def Obligations.WarrenManagement : Prop :=
  (∀ (s : State) (p : Nat) (m : Bytes),
     let u := s.taken p m
     let e := BitVec.ofNat 32 (fld m 0xC 4)
     (Arrives s p m 0x49 → u.fab.role = 1 → (u.fab.epoch = 0 ∨ u.fab.epoch = e) →
       exec (.heartbeat p m) s = .next (State.syncTime { u with fab := { u.fab with epoch := e, master := mSrc m, hold := false } }
         (16 * fld m 0x10 8 + fld m 0x18 4))) ∧
     (s.hub = true → s.fab.role = 2 → exec .heartbeatTick s = .next
       (s.mgtAll 0x49 (toLe 4 s.fab.epoch.toNat ++ toLe 8 s.wtime.toNat ++ toLe 4 0) [])) ∧
     (s.hub = true → s.fab.role = 1 → s.fab.hold = false → s.fab.hushed.contains s.fab.master = false →
       exec .warrenHoldEntry s = .next { s with fab := { s.fab with hold := true } }) ∧
     (Arrives s p m 0x4A → u.fab.accepts (mSrc m) e = true → exec (.claim p m) s = .next (u.takeMaster (mSrc m) e)) ∧
     (Arrives s p m 0x4B → ∃ t, exec (.hushNote p m) s = .next t ∧ (mSrc m ∈ t.fab.hushed) ∧
       (∀ n, n ≠ mSrc m → (n ∈ t.fab.hushed ↔ n ∈ u.fab.hushed)) ∧ { t with fab := u.fab } = u) ∧
     (Arrives s p m 0x4C → ∃ t, exec (.wakeNote p m) s = .next t ∧ (mSrc m ∉ t.fab.hushed) ∧
       (∀ n, n ≠ mSrc m → (n ∈ t.fab.hushed ↔ n ∈ u.fab.hushed)) ∧ { t with fab := u.fab } = u) ∧
     (Arrives s p m 0x4D → exec (.surveyQ p m) s = .next (u.sendOr (u.mkMsg 0x4E (mSrc m) 0 0 (mTid m) [] u.surveyEntry))) ∧
     (∀ v, Arrives s p m 0x4E → u.fab.survey = some v → exec (.surveyR p m) s = .next
       { u with fab := { u.fab with survey := some { v with answers := mset [] v.answers (mSrc m) (sliceB (mData m) 0 16) } } }) ∧
     (∀ v, s.hub = true → s.fab.survey = some v → exec .surveyTimeout s = .next (s.endSurvey v))) ∧
  (∀ (s : State) (n : Nat), n / 16 < 2 ^ 64 →
     let u := s.syncTime n
     u.fab.corr = BitVec.ofInt 32 ((n : Int) - 16 * (s.wtime.toNat : Int)) ∧
     ((s.fab.synced = false ∨ s.wtime.toNat ≤ n / 16) → u.wtime.toNat = n / 16 ∧ u.fab.slow = 0 ∧ u.fab.synced = true) ∧
     (s.fab.synced = true → n / 16 < s.wtime.toNat → u.wtime = s.wtime ∧ u.fab.slow = s.wtime.toNat - n / 16))

/-! ### Remote requests, their answers, and the links (16) -/

/-- 16 R524: a message that this device makes reads back field by field, with its data padded to whole flits. -/
def Obligations.MessagesReadBack : Prop :=
  ∀ (s : State) (ty v dst den status : Nat) (tid : W32) (fields data : Bytes),
    vcOf ty = some v → ty < 256 → dst < 256 → den < 32 → status < 256 → s.fab.wid < 256 → fields.length ≤ 20 → data.length ≤ 8160 →
    let m := s.mkMsg ty dst den status tid fields data
    mType m = ty ∧ mVc m = v ∧ mNdata m = (data.length + 31) / 32 ∧ mSrc m = s.fab.wid ∧ mDst m = dst ∧ mDen m = den ∧
    mStatus m = status ∧ mTid m = tid ∧ m.length = 32 * mFlits m ∧ mData m = padFlits data ∧
    sliceB m 0xC fields.length = fields

/-- 16 R514, R537 to R542: what an owner does with a request of another device; in RETAIN and LIMP it answers RETAIN and
discards quills. 16 R535, R539, R540, 05 R172: an answer of STATUS OK ends its transaction and reaches its issuer; one for no
transaction is logged under XACT_LATE, a contribution for none under ARRIVAL_STRAY; a transaction with no answer fails. -/
def Obligations.RemoteRequests : Prop :=
  (∀ (s : State) (p : Nat) (m : Bytes),
     let u := s.taken p m
     (Arrives s p m 0x10 → exec (.rowRead p m) s = .next (u.serveRow m)) ∧
     (Arrives s p m 0x11 → (s.den (mDen m)).open .ifs = true → exec (.poolReq p m) s = .next (u.servePool m)) ∧
     (s.portUp p = true → (s.den (mDen m)).open .ifs = false → exec (.poolReq p m) s = .next (s.count (mDen m) cRegWait 1)) ∧
     (Arrives s p m 0x12 → exec (.bulkRd p m) s = .next (u.serveRead m)) ∧
     (Arrives s p m 0x13 → exec (.bulkWr p m) s = .next (u.serveWrite m)) ∧
     (Arrives s p m 0x14 → exec (.atomic p m) s = .next (u.serveAtomic m)) ∧
     (Arrives s p m 0x15 → u.refuses = false → exec (.quill p m) s = .next
       (u.remoteQuill (mDen m) (fld m 0xC 1) (fld m 0xD 1 % 16)
         { src := BitVec.ofNat 64 (fld m 0xE 1 + 256 * mSrc m + 65536), data := sliceB (mData m) 0 64 })) ∧
     (Arrives s p m 0x15 → u.refuses = true → exec (.quill p m) s = .next u) ∧
     (u.refuses = true → u.serveRead m = u.respond m 0x21 3 (toLe 2 0) [] ∧ u.serveWrite m = u.respond m 0x22 3 [] [] ∧
       u.serveAtomic m = u.respond m 0x23 3 [] [])) ∧
  (∀ (s : State) (p : Nat) (m : Bytes),
     let u := s.taken p m
     (∀ x r k, Arrives s p m 0x20 → u.xactOf m = some x → mStatus m = 0 → x.issuer = .row r k →
       exec (.rowData p m) s = .next ((u.endXact x).takeRow r k true ((u.endXact x).remoteVals r m) false)) ∧
     (∀ x, Arrives s p m 0x21 → u.xactOf m = some x → mStatus m = 0 →
       exec (.bulkData p m) s = .next ((u.endXact x).takeBulk x (sliceB (mData m) 0 (fld m 0xC 2)) false)) ∧
     (∀ x, Arrives s p m 0x22 → u.xactOf m = some x → mStatus m = 0 → exec (.writeAck p m) s = .next ((u.endXact x).takeAck x)) ∧
     (∀ x t n, Arrives s p m 0x23 → u.xactOf m = some x → mStatus m = 0 → x.issuer = .tile t n →
       exec (.atomicRsp p m) s = .next ((u.endXact x).modTile t (fun y => y.serveAcc n (mData m) false))) ∧
     (∀ x, Arrives s p m 0x30 → u.xactOf m = some x → mStatus m = 0 → exec (.poolContrib p m) s = .next (u.takePiece x m false)) ∧
     (Arrives s p m 0x30 → u.xactOf m = none →
       exec (.poolContrib p m) s = .next (u.fault 0x0301 (mkLoc 2 (fld m 0xC 2 % 64) none false 0))) ∧
     (Arrives s p m 0x21 → u.xactOf m = none → exec (.bulkData p m) s = .next (u.fault 0x0306 (mkLoc 11 0 none false 0))) ∧
     (∀ tid x, s.hub = true → s.fab.hushed = [] → s.fab.xacts.find? (fun y => y.tid == tid) = some x →
       exec (.xactTimeout tid) s = .next ((s.endXact x).failXact x 0)) ∧
     (∀ st, 1 ≤ st → st ≤ 3 → ∀ x, Arrives s p m 0x21 → u.xactOf m = some x → mStatus m = st →
       exec (.bulkData p m) s = .next ((u.endXact x).failXact x st)))

/-- 16 R524, R525, R529, R530, R532: returned credits, a message that its destination refuses, and a message for another device:
forwarded with one hop less, dropped at HOPS 0, or dropped without a route. 16 R519, R521: an uncorrectable codeword is counted
and NAKed; the next sequenced one in order is taken, without errors, NAK or anything to send, and one out of order is NAKed; the
partner's ACK empties the retry buffer as far as it goes. 16 R517, R518, R520, R522: a lane that loses its lock is fenced and
recorded, and the port retrains or goes DOWN; a port goes DOWN with its queues and retry buffer lost; training enters L0 on the
lanes that locked, stops on a wrong identity, or is repeated. -/
def Obligations.Links : Prop :=
  (∀ (s : State) (p : Nat) (m : Bytes), s.portUp p = true →
     (fld m 0 1 = 1 → ∃ v : State, exec (.lctl p m) s = .next (v.pumpAll p) ∧ (∀ n, n < 4 →
         (v.port p).cred n = min (vcBuffer n) ((s.port p).cred n + fld m (2 + 2 * n) 2)) ∧
       (v.port p).retry = (s.port p).retry ∧ (v.port p).queues = (s.port p).queues ∧ (∀ q, q ≠ p → v.port q = s.port q)) ∧
     (mDst m = s.fab.wid → msgOk m = false → mType m ≠ 0 → mType m ≠ 1 →
       exec (.linkMsg p m) s = .next ((s.creditBack p m).fault 0x0305 (mkLoc 4 p none false 0))) ∧
     (mDst m ≠ s.fab.wid → m.length = 32 * mFlits m →
       (fld m 3 1 = 0 → exec (.transitMessage p m) s = .next
         { s.creditBack p m with fab := { (s.creditBack p m).fab with dropHops := satAdd (s.creditBack p m).fab.dropHops 1 } }) ∧
       (fld m 3 1 ≠ 0 → s.routePort m = none → exec (.transitMessage p m) s = .next
         { s.creditBack p m with fab := { (s.creditBack p m).fab with dropNoroute := satAdd (s.creditBack p m).fab.dropNoroute 1 } }) ∧
       (∀ q, fld m 3 1 ≠ 0 → s.routePort m = some q → (s.port q).st = .l0 → mget [] (s.port q).queues (mVc m) = [] →
         mFlits m ≤ (s.port q).cred (mVc m) → (s.port q).retry.length + (msgWords m).length ≤ 128 →
         exec (.transitMessage p m) s = .next ((s.enqueue q (patchB m 3 (toLe 1 (fld m 3 1 - 1)))).creditBack p m)))) ∧
  (∀ (s : State) (p : Nat) (h : BitVec 20) (l : List Nat), s.portUp p = true →
     (∃ u, exec (.codewordReceive p h l true) s = .next u ∧ (u.port p).uncorrCw = satAdd (s.port p).uncorrCw 1 ∧
       (u.port p).nakSent = true ∧ (u.port p).rxNext = (s.port p).rxNext ∧ (u.port p).retry = (s.port p).retry ∧
       (∀ q, q ≠ p → u.port q = s.port q)) ∧
     ((s.port p).owed = [] → (s.port p).queues = [] → (s.port p).laneErr = [] → l = [] → h.getLsbD 16 = false → h.getLsbD 17 = false →
       ∃ u, exec (.codewordReceive p h l false) s = .next u ∧ (u.port p).st = .l0 ∧
         (h.toNat % 256 = (s.port p).rxNext.toNat → (u.port p).rxNext = (s.port p).rxNext + 1 ∧ (u.port p).nakSent = false) ∧
         (h.toNat % 256 ≠ (s.port p).rxNext.toNat → (u.port p).rxNext = (s.port p).rxNext ∧ (u.port p).nakSent = true) ∧
         (u.port p).retry = ((s.port p).acked (BitVec.ofNat 8 (h.toNat / 256))).retry)) ∧
  (∀ (s : State) (p : Nat), s.hub = true → p < 24 →
     (∀ n, n < 8 → (s.port p).st = .l0 → (s.port p).lanes.getLsbD n = true →
       exec (.laneLockLost p n) s = .next ((s.fenceLane p n 1).afterFence p)) ∧
     ((s.port p).st = .l0 → ∃ u, exec (.portDown p) s = .next u ∧ u.port p = (s.port p).goDown ∧ (u.port p).queues = [] ∧
       (u.port p).retry = [] ∧ (∀ q, q ≠ p → u.port q = s.port q)) ∧
     (s.mayTrain p = true → (s.port p).st = .training →
       (∀ l id n delay, l = ~~~(s.port p).fenced → 4 ≤ (s.port p).unfenced → id ≠ s.fab.wid → id < 256 → n < 32 →
         exec (.linkTrain p l id n 0xD060 delay) s = .next ((s.modPort p (fun y => y.toL0 (~~~y.fenced) id n delay)).pumpAll p)) ∧
       (∀ l id n f delay, l = ~~~(s.port p).fenced → 4 ≤ (s.port p).unfenced → (id = s.fab.wid ∨ f ≠ 0xD060) →
         exec (.linkTrain p l id n f delay) s = .next
           ((s.modPort p (fun y => { y.goDown with st := .idle, idStop := true, peerValid := false })).fault 0x0304
             (mkLoc 4 p none false 0))) ∧
       ((s.port p).keep = false → ∃ u, exec (.linkTrainRetry p) s = .next u ∧ (u.port p).st = .training ∧
         (u.port p).trainFails = (s.port p).trainFails + 1 ∧ (∀ q, q ≠ p → u.port q = s.port q)) ∧
       ((s.port p).keep = true → 3 ≤ (s.port p).trainFails → ∃ u, exec (.linkTrainRetry p) s = .next u ∧ u.port p = (s.port p).goDown)))

/-! ### Commands of the CP (15, with 03, 06, 07, 13, 14, 18) -/

namespace Sys2Proof.Machine

/-- The packets that a command row takes, with their parameters and locks, and the source that it names; none for a row that is no
command of the CP. -/
def cmdShape (c : Instr) : Option (CmdRow × CmdSrc) :=
  match c with
  | .cmdNop x => some (nopRow, x)
  | .identify x => some (plainRow 1, x)
  | .devStatus x => some (plainRow 2, x)
  | .profileGet x => some (profileGetRow, x)
  | .profileWrite x => some (profileWriteRow, x)
  | .profileSelect x => some (profileSelectRow, x)
  | .profileClear x => some (profileClearRow, x)
  | .devHush x => some (devHushRow, x)
  | .scrubRetained x => some (scrubRow, x)
  | .p2pProbe x => some (probeRow, x)
  | .denCreate x => some (denCreateRow, x)
  | .denConfigTiles x => some (configTilesRow, x)
  | .denConfigHbm x => some (configHbmRow, x)
  | .denConfigWays x => some (configWaysRow, x)
  | .denConfigMioter x => some (configMioterRow, x)
  | .denConfigRegulator x => some (configRegulatorRow, x)
  | .denConfigSched x => some (configSchedRow, x)
  | .denConfigFlr x => some (configFlrRow, x)
  | .denConfigToken x => some (configTokenRow, x)
  | .denConfigGran x => some (configGranRow, x)
  | .denQuery x => some (plainRow 0x12, x)
  | .denDestroy x => some (denDestroyRow, x)
  | .denResume x => some (denResumeRow, x)
  | .histDirSet x => some (histDirRow, x)
  | .attach x => some (attachRow, x)
  | .modelLoad x => some (modelLoadRow, x)
  | .modelUnload x => some (modelUnloadRow, x)
  | .modelQuery x => some (modelQueryRow, x)
  | .tableCreate x => some (tableCreateRow, x)
  | .tableModify x => some (tableModifyRow, x)
  | .tableVersionSet x => some (tableVersionRow, x)
  | .tableSwitch x => some (switchRow, x)
  | .tableSwitchWarren x => some (switchWarrenRow, x)
  | .tableQuery x => some (tableQueryRow, x)
  | .tableDelete x => some (tableDeleteRow, x)
  | .ctxStore x => some (ctxStoreRow, x)
  | .ctxLoad x => some (ctxLoadRow, x)
  | .ctxSelect x => some (ctxSelectRow, x)
  | .ctxFree x => some (ctxFreeRow, x)
  | .ctxQuery x => some (ctxQueryRow, x)
  | .warrenStatus x => some (plainRow 0x50, x)
  | .routeSet x => some (routeSetRow, x)
  | .linkCtrlDisable x => some (linkRow (fun a => decide (a = 0 ∨ 3 < a)), x)
  | .linkCtrlEnable x => some (linkRow (fun a => decide (a = 1)), x)
  | .linkCtrlRetrain x => some (linkRow (fun a => decide (a = 2)), x)
  | .linkCtrlClearFences x => some (linkRow (fun a => decide (a = 3)), x)
  | .warrenSurvey x => some (surveyRow, x)
  | .marginRun x => some (marginRow, x)
  | .tileFence x => some (tileRow 0x61, x)
  | .tileUnfence x => some (tileRow 0x62, x)
  | .ledgerRead x => some (ledgerReadRow, x)
  | .diagRun x => some (diagRow, x)
  | .tagRead x => some (tagReadRow, x)
  | .fwStage x => some (fwStageRow, x)
  | .fwActivate x => some (fwActivateRow, x)
  | .fwQuery x => some (plainRow 0x72, x)
  | .fwCommit x => some (fwCommitRow, x)
  | _ => none

/-- The CP takes packet `b` of row `r` from source `c` now, and checks 1 to 6 of 15 R482 let it pass. -/
def Takes (s : State) (r : CmdRow) (c : CmdSrc) (b : Bytes) : Prop :=
  s.cmdPkt c = some b ∧ s.takesFrom c = true ∧ r.mine b = true ∧ s.cmdRefusal r c b = none

/-- Row `c`, from source `src`, ends at once when `ok` holds of the state from which its packet has been taken: `eff` is its effect,
and `res` what the reply carries. -/
def AtOnce (c : Instr) (src : CmdSrc) (ok : State → Bytes → Prop) (eff : State → Bytes → State) (res : State → Bytes → CmdRes) :
    Prop :=
  ∀ (s : State) (b : Bytes) (r : CmdRow), cmdShape c = some (r, src) → Takes s r src b → ok (s.takeCmd src) b →
    exec c s = .next ((eff (s.takeCmd src) b).reply src b false (res (s.takeCmd src) b))

/-- Row `c`, from source `src`, begins to run as command number `id`, with its locks held, when `ok` holds of the state in which it
runs; `eff` is what its beginning does. -/
def Begins (c : Instr) (src : CmdSrc) (ok : State → Bytes → Prop) (eff : State → Nat → Bytes → State) : Prop :=
  ∀ (s : State) (b : Bytes) (r : CmdRow), cmdShape c = some (r, src) → Takes s r src b →
    let v := s.takeCmd src
    let w := v.startCmd src b (r.locks v b)
    ok w b → exec c s = .next (eff w v.cp.seq b)

/-- A table with the version slot that a TABLE_VERSION_SET gives it. -/
def withVersion (b : Bytes) (t : Table) : Table :=
  t.modVer (fld b 0xA 1) (fun x => { x with base := BitVec.ofNat 56 (fld b 0x10 8), valid := tbit (fld b 0xB 1) 0 })

/-- No further condition. -/
def Always (_ : State) (_ : Bytes) : Prop := True

/-- The reply OK without a result. -/
def okRes (_ : State) (_ : Bytes) : CmdRes := {}

end Sys2Proof.Machine

/-- 15 R482, R488: every packet that the CP takes is of some row; a packet that a check refuses has no effect but its reply,
which names the status of the first check that fails; and a packet that is not the row's, or that the CP does not take now, is
left. -/
def Obligations.CommandsAreChecked : Prop :=
  (∀ (src : CmdSrc) (b : Bytes), ∃ c r, cmdShape c = some (r, src) ∧ r.mine b = true) ∧
  (∀ (c : Instr) (r : CmdRow) (src : CmdSrc) (s : State) (b : Bytes), cmdShape c = some (r, src) → s.cmdPkt src = some b →
    (∀ x, s.takesFrom src = true → r.mine b = true → s.cmdRefusal r src b = some x →
      exec c s = .next ((s.takeCmd src).reply src b false x)) ∧
    (s.takesFrom src = false ∨ r.mine b = false → exec c s = .next s)) ∧
  (∀ (c : Instr) (r : CmdRow) (src : CmdSrc) (s : State), cmdShape c = some (r, src) → s.cmdPkt src = none → exec c s = .next s) ∧
  (∀ (s : State) (r : CmdRow) (src : CmdSrc) (b : Bytes),
    (opInfo (cOp b) = none → s.cmdRefusal r src b = some { status := 2 }) ∧
    (∀ sc v, opInfo (cOp b) = some (sc, v) →
      (∀ o, headBad b sc src.vf.isSome = some o → s.cmdRefusal r src b = some { status := 3, detail := o }) ∧
      (headBad b sc src.vf.isSome = none →
        (notAllowed src b sc v = true → s.cmdRefusal r src b = some { status := 5 }) ∧
        (notAllowed src b sc v = false →
          (s.stateRefuses src b sc = true → s.cmdRefusal r src b = some { status := 6 }) ∧
          (s.stateRefuses src b sc = false →
            (∀ o, paramBad b 8 (r.params src b) = some o → s.cmdRefusal r src b = some { status := 3, detail := o }) ∧
            (paramBad b 8 (r.params src b) = none →
              (s.locksFree (r.locks s b) = false → s.cmdRefusal r src b = some { status := 1 }) ∧
              (s.locksFree (r.locks s b) = true → s.cmdRefusal r src b = none)))))))

/-- 15 R489 to R493, R505 to R509, 13 R392, 06 R185, 12 R369, 16 R520, R529, 21 R696: the commands that end at once, device,
den, Warren, maintenance and firmware families. 03 R106, R107, 07 R216 to R218, R240, 15 R501 to R504: the commands that end at
once, model, table and Mioter families. -/
def Obligations.CommandsThatEndAtOnce : Prop :=
  (∀ src : CmdSrc,
     AtOnce (.cmdNop src) src Always (fun v _ => v) okRes ∧
     AtOnce (.identify src) src Always (fun v _ => v) (fun v _ => { result := v.identity }) ∧
     AtOnce (.devStatus src) src Always (fun v _ => v) (fun v _ => { result := v.devStatus }) ∧
     (∀ p, AtOnce (.profileSelect src) src
       (fun v b => v.ldg.profBytes (fld b 8 1) = some p ∧ v.ldg.profOk (fld b 8 1) = true ∧ v.ldg.profilesWorn = false)
       (fun v b => (v.writeSet (fld b 8 1) v.ldg.profBytes).applyLive (fld b 8 1) (parseProfile p)) okRes) ∧
     AtOnce (.profileClear src) src (fun v _ => v.ldg.profilesWorn = false) (fun v _ => v.writeSet 0xFF v.ldg.profBytes) okRes ∧
     AtOnce (.denCreate src) src (fun v b => (v.den (cDen b)).st = .free ∧ v.allShared (fld b 0xA 2) = true)
       (fun v b => v.modDen (cDen b) (fun x => x.created (fld b 8 1) (fld b 0xA 2) (sliceB b 0x10 16))) okRes ∧
     AtOnce (.denConfigRegulator src) src Always (fun v b =>
       let p := pathOf (fld b 0xC 1)
       v.modDen (cDen b) (fun x => x.setBucket p ((x.bucket p).config (fld b 0x10 8)))) okRes ∧
     AtOnce (.denConfigSched src) src Always (fun v b => v.modDen (cDen b) (fun x => { x with deadline := fld b 0xC 1 == 1 })) okRes ∧
     AtOnce (.denConfigFlr src) src Always (fun v b => v.modDen (cDen b) (fun x => { x with scrub := fld b 0xC 1 == 1 })) okRes ∧
     AtOnce (.denConfigToken src) src Always (fun v b => v.modDen (cDen b) (fun x => { x with token := sliceB b 0x10 16 })) okRes ∧
     AtOnce (.denConfigGran src) src (fun v b => (v.den (cDen b)).gran = fld b 0xC 1 ∨ (v.den (cDen b)).stripes = 0)
       (fun v b => v.modDen (cDen b) (fun x => { x with gran := fld b 0xC 1 })) okRes ∧
     AtOnce (.denQuery src) src Always (fun v _ => v) (fun v b => { result := v.denResult (cDen b) }) ∧
     AtOnce (.denResume src) src (fun v b => (v.den (cDen b)).st = .quiesced)
       (fun v b => (v.resetRings (cDen b + 1)).modDen (cDen b) Den.resumed) okRes ∧
     AtOnce (.histDirSet src) src (fun v b => v.inHbm (cDen b) (fld b 0x10 8) (32 * fld b 0x18 4) = true)
       (fun v b => v.modDen (cDen b) (fun x =>
         { x with hdirBase := BitVec.ofNat 56 (fld b 0x10 8), hdirLen := BitVec.ofNat 25 (fld b 0x18 4) })) okRes ∧
     AtOnce (.warrenStatus src) src Always (fun v _ => v) (fun v _ => { result := v.warrenResult }) ∧
     AtOnce (.routeSet src) src (fun v b => (cPorts b).all (tbit v.boot.prof.linkMask) = true)
       (fun v b => { v with fab := { v.fab with routes := mset [] v.fab.routes (fld b 8 1) (cPorts b) } }) okRes ∧
     AtOnce (.linkCtrlDisable src) src (fun v b => (v.port (cPort b)).st ≠ .training) (fun v b => v.disablePort (cPort b)) okRes ∧
     AtOnce (.linkCtrlEnable src) src (fun v b => (v.port (cPort b)).st ≠ .training) (fun v b => v.enablePort (cPort b)) okRes ∧
     AtOnce (.linkCtrlRetrain src) src (fun v b => (v.port (cPort b)).st ≠ .training) (fun v b => v.retrainPort (cPort b)) okRes ∧
     AtOnce (.linkCtrlClearFences src) src
       (fun v b => (v.port (cPort b)).st ≠ .training ∧ v.ldg.canHold 0x07 (clearRecord (cPort b)) = true)
       (fun v b => v.clearFences (cPort b)) okRes ∧
     AtOnce (.tileFence src) src Always (fun v b => v.fenceTile (cTile b) 4 0x10 none) okRes ∧
     AtOnce (.fwActivate src) src (fun v b => v.ldg.canHold 0x04 (v.activateRecord (fld b 8 1)) = true)
        (fun v b => if v.bankOk (fld b 8 1) = true then v.record 0x04 (v.activateRecord (fld b 8 1)) none else v)
        (fun v b => if v.bankOk (fld b 8 1) = true then {} else { status := 7 }) ∧
      AtOnce (.fwQuery src) src Always (fun v _ => v) (fun v _ => { result := v.fwResult }) ∧
     AtOnce (.fwCommit src) src Always (fun v _ => { v with boot := { v.boot with fuseRoll := max v.boot.fuseRoll v.boot.secVersion } })
       okRes) ∧
  (∀ src : CmdSrc,
     (∀ m, AtOnce (.modelUnload src) src
       (fun v b => v.model (cDen b) (cHandle b) = some m ∧ v.reqs.any (fun r => r.den == m.den && r.model == m.handle) = false)
       (fun v _ => v.unloadModel m) okRes) ∧
     (∀ m, AtOnce (.modelQuery src) src (fun v b => v.model (cDen b) (cHandle b) = some m) (fun v _ => v)
       (fun v _ => { result := v.modelResult m })) ∧
     AtOnce (.tableModify src) src
       (fun v b => v.tableRefusal b = none ∧ modifyBad (modified b (v.table (cTable b))) v.fab.wid = none ∧
         v.permStatus (cTable b) (modified b (v.table (cTable b))) = 0)
       (fun v b =>
         let t := modified b (v.table (cTable b))
         v.modTable (cTable b) (fun _ => if tbit (fld b 0xA 1) 2 then v.placePin (cTable b) t else t)) okRes ∧
     AtOnce (.tableVersionSet src) src
       (fun v b =>
         let t := v.table (cTable b)
         v.tableRefusal b = none ∧ t.slotState (fld b 0xA 1) < 2 ∧ v.namedSlot (cTable b) (fld b 0xA 1) = false ∧
         (tbit (fld b 0xB 1) 0 = true →
           fld b 0x10 8 % 128 = 0 ∧ v.inHbm t.den (fld b 0x10 8) (t.localRows v.fab.wid * t.rowSize) = true) ∧
         (tbit (fld b 0xB 1) 1 = true → v.ldg.canHold 0x0E (versionPayload (cTable b) (withVersion b t) false 0) = true))
       (fun v b =>
         let u := withVersion b (v.table (cTable b))
         let w := v.modTable (cTable b) (fun _ => u)
         if tbit (fld b 0xB 1) 1 = true then w.record 0x0E (versionPayload (cTable b) u false 0) none else w) okRes ∧
     AtOnce (.tableSwitch src) src
       (fun v b => v.switchOwned src (cPairs b) = true ∧ v.notLocal (cPairs b) = none ∧ v.switchRefusal (cPairs b) = none ∧
         (cDurable b = true → v.durableOk ((cPairs b).map Prod.fst) = true))
       (fun v b => v.switchAll (cPairs b) false (cDurable b) 0) okRes ∧
     AtOnce (.tableDelete src) src
       (fun v b =>
         let t := v.table (cTable b)
         v.tableRefusal b = none ∧ (∀ k, k < 4 → (t.ver k).refs = 0 ∧ t.slotState k ≠ 3) ∧ v.modelNames t.den (cTable b) = false ∧
         t.lock = none)
       (fun v b =>
         let p := versionPayload (cTable b) (v.table (cTable b)) true 0
         (if v.hasVersionRecord p = true then v.record 0x0E p none else v).dropTable (cTable b)) okRes ∧
     (∀ d m, AtOnce (.ctxSelect src) src
       (fun v b => ownerOk b (some d) = true ∧ v.slotOwner (fld b 0xD 1) (fld b 0xE 1) = some d ∧ v.model d (fld b 8 2) = some m ∧
         fld b 0xA 2 < m.entries.length ∧ (v.slot (fld b 0xD 1) (fld b 0xE 1)).st = .ready)
       (fun v b => v.modModel d m.handle (fun m =>
         m.rebind (fld b 0xA 2) (fld b 0xC 1 == 1) (fld b 0xD 1, fld b 0xE 1))) okRes) ∧
     AtOnce (.ctxQuery src) src Always (fun v _ => v)
       (fun v b => { result := toLe 8 (v.mioSlotReg (cQuad b) (fun c => ownerOk b (v.slotOwner (cQuad b) c))) ++
                               toLe 8 (v.entryMap b .valid) ++ toLe 8 (v.entryMap b .invalid) }))

/-- 15 R483, R484, R488 and the opcode tables: the commands that run over time, and what their beginning does. -/
def Obligations.CommandsThatRunBegin : Prop :=
  ∀ src : CmdSrc,
    (∀ p, Begins (.profileGet src) src
      (fun w b => w.ldg.profBytes (fld b 8 1) = some p ∧ w.ldg.profOk (fld b 8 1) = true)
      (fun w id b => w.writeOut src id (fld b 0x10 8) (hideTokens p) [])) ∧
    Begins (.profileWrite src) src Always (fun w id b => w.readIn src id (fld b 0x10 8) 8192) ∧
    (∀ (s : State) (b : Bytes), Takes s devHushRow src b → (s.takeCmd src).mayHush = true →
      exec (.devHush src) s = .next (((s.takeCmd src).reply src b false {}).hushEntry false)) ∧
    (∀ (s : State) (b : Bytes), Takes s devHushRow src b → (s.takeCmd src).mayHush = false →
      exec (.devHush src) s = .next ((s.takeCmd src).reply src b false { status := 1 })) ∧
    Begins (.scrubRetained src) src (fun w _ => w.pcie.retHeld ≠ 0) (fun w _ _ => w.destroyHeld) ∧
    Begins (.p2pProbe src) src Always (fun w id b => w.fetch (.cmd id) 0 (.host (cDen b + 1) (fld b 0x10 8)) 64) ∧
    Begins (.denConfigTiles src) src (fun w b => w.tilesRefusal (cDen b) (fld b 0x10 32) = 0)
      (fun w id b => (w.setTiles (cDen b) (BitVec.ofNat 256 (fld b 0x10 32))).onCmd id State.tilesStep) ∧
    Begins (.denConfigHbm src) src Always (fun w id b => w.readIn src id (fld b 0x10 8) 64) ∧
    Begins (.denConfigWays src) src
      (fun w b => w.waysRefusal (cDen b) (fld b 0x10 2) (fld b 0x12 2) (fld b 0x14 2) = none)
      (fun w id b => ((w.mark id 0 (w.waysMoved (cDen b) (fld b 0x12 2) (fld b 0x14 2))).setWays (cDen b) (fld b 0x10 2)
        (fld b 0x12 2) (fld b 0x14 2)).onCmd id State.waysStep) ∧
    Begins (.denConfigMioter src) src (fun w b => w.mioterRefusal (cDen b) (fld b 0x10 2) (fld b 0x18 8) = 0)
      (fun w id _ => w.onCmd id State.mioterStep) ∧
    Begins (.denDestroy src) src Always (fun w _ b => w.destroyBegin (cDen b)) ∧
    Begins (.attach src) src
      (fun w b => w.attachBlocked (cDen b) = false ∧ (w.den (cDen b)).token = sliceB b 0x10 16 ∧
        w.pcie.retHeld.getLsbD (cDen b) = true ∧ 0 < fld b 0x28 4)
      (fun w id b =>
        let rcd := w.retainRecord (cDen b)
        let out := rcd.take (fld b 0x28 4)
        let x := w.mark id (if rcd.length ≤ fld b 0x28 4 then 1 else 2) ((toLe 4 rcd.length).map BitVec.toNat)
        (x.store id src.tag (x.paramAddr src.fn? src.den (fld b 0x20 8) out.length) out).onCmd id
          (fun t c => if c.got then t.attachStep c else t)) ∧
    Begins (.modelLoad src) src (fun w b => w.loadRefusal b = none) (fun w id b => w.readIn src id (fld b 0x10 8) 128) ∧
    Begins (.tableCreate src) src Always (fun w id b => w.readIn src id (fld b 0x10 8) 128) ∧
    Begins (.tableSwitchWarren src) src (fun w b => w.warrenRefusal src b = none)
      (fun w id b => w.beginSwitch id (cPairs b) (cDurable b) (fld b 0xC 4)) ∧
    Begins (.tableQuery src) src (fun w b => w.tableRefusal b = none)
      (fun w id b =>
        let t := w.table (cTable b)
        if fld b 0x10 8 = 0 then w.finishCmd id { result := t.queryResult }
        else w.writeOut src id (fld b 0x10 8) (t.descBytes (cTable b)) t.queryResult) ∧
    Begins (.ctxStore src) src (fun w b => w.storeRefusal b = none)
      (fun w id b => (w.modEntry (cEntry b) (fun y => { y with storing := some id })).readIn src id (fld b 0x10 8) 256) ∧
    Begins (.ctxLoad src) src (fun w b => w.ctxLoadRefusal b = none)
      (fun w id b => (w.modQuad (cQuad b) (fun x => { x with loading := some (cSlot b, id) })).beginLoading (cQuad b) (cSlot b)) ∧
    Begins (.ctxFree src) src (fun w b => w.freeRefusal b = none) (fun w id _ => w.onCmd id State.freeStep) ∧
    Begins (.warrenSurvey src) src (fun w _ => w.fab.role = 2 ∧ w.fab.survey = none) (fun w id _ => w.beginSurvey id) ∧
    Begins (.marginRun src) src (fun w _ => w.stripesHeld = false ∧ w.pcie.retHeld = 0)
      (fun w _ b => w.each (w.marginStacks b) (fun t n => t.modStack n (fun y => { y with margin := true }))) ∧
    Begins (.tileUnfence src) src
      (fun w b => (w.tile (cTile b)).fenced = true ∧ w.ldg.canHold 0x06 (unfenceRecord (cTile b)) = true) (fun w _ _ => w) ∧
    Begins (.ledgerRead src) src Always (fun w id b => w.sendData src id (fld b 0x10 8) (w.ldg.read (fld b 8 4) (fld b 0xC 4))) ∧
    Begins (.diagRun src) src (fun w b => w.unitInUse (cUnit b) (cIndex b) = false) (fun w _ _ => w) ∧
    Begins (.tagRead src) src (fun w b => w.tag.rf = false ∨ fld b 8 2 + fld b 0xA 2 ≤ 1984)
      (fun w id b => w.sendData src id (fld b 0x10 8) (memRead w.tag.mem (4 * fld b 8 2) (4 * fld b 0xA 2))) ∧
    Begins (.fwStage src) src (fun _ b => 256 ≤ fld b 0x18 4 ∧ fld b 0x10 8 ≠ 0) (fun w id b => w.readIn src id (fld b 0x10 8) 256) ∧
    Begins (.fwStage src) src (fun w b => 256 ≤ fld b 0x18 4 ∧ fld b 0x10 8 = 0 ∧ w.ser.ep1 = none)
      (fun w id b =>
        let x := w.mark id 1 []
        { x with ser := { x.ser with ep1 := some { cmd := id, out := true, want := fld b 0x18 4 } } })

/-- 03 R102, 06 R203 to R205, 13 R394, R396, R398, 14 R460, R472, 15 R484, R485, R504, R506, R507: what a running command does
when it has what it waited for; and a command that ends is answered, and holds its locks no longer. -/
def Obligations.RunningCommandsEnd : Prop :=
  ∀ (s : State) (id : Nat) (c : Cmd) (res : Bytes), s.cmd id = some c →
    (∀ r, (s.finishCmd id r).cp.running = ((s.reply c.src c.pkt c.silent r).cp.running).filter (fun x => x.id != id)) ∧
    (∀ r, (s.finishCmd id r).cmd id = none) ∧
    (s.hub = true → c.fail = none → c.stage ≠ 9 →
      (cOp c.pkt = 0x04 → c.got = true → exec (.commandDone id res) s = .next (s.storeProfile c)) ∧
      (cOp c.pkt = 0x06 → exec (.commandDone id res) s = .next (s.scrubRetained.finishCmd c.id {})) ∧
      (cOp c.pkt = 0x07 → c.got = true → exec (.commandDone id res) s = .next (s.finishCmd c.id {})) ∧
      (cOp c.pkt = 0x11 → cSel c.pkt = 1 → c.got = true → exec (.commandDone id res) s = .next (s.hbmStep c)) ∧
      (cOp c.pkt = 0x11 → cSel c.pkt = 0 → (s.den (cDen c.pkt)).leaving = 0 →
        exec (.commandDone id res) s = .next (s.finishCmd c.id {})) ∧
      (cOp c.pkt = 0x13 → exec (.commandDone id res) s = .next ((s.destroyDen (cDen c.pkt)).finishCmd c.id {})) ∧
      (cOp c.pkt = 0x20 → c.got = true → exec (.commandDone id res) s = .next (s.loadStep c)) ∧
      (cOp c.pkt = 0x30 → c.got = true → exec (.commandDone id res) s = .next (s.createStep c)) ∧
      (cOp c.pkt = 0x40 → c.got = true → exec (.commandDone id res) s = .next (s.ctxStoreStep c)) ∧
      (cOp c.pkt = 0x60 → exec (.commandDone id res) s = .next (s.marginDone c)) ∧
      (cOp c.pkt = 0x62 → exec (.commandDone id res) s = .next
        (if fld res 0 1 = 1 then (s.unfence (cTile c.pkt)).finishCmd c.id {} else s.finishCmd c.id { status := 0x10 })) ∧
      (cOp c.pkt = 0x64 → exec (.commandDone id res) s = .next
        (s.finishCmd c.id { result := toLe 4 (b2n (decide (fld res 0 1 = 1))) ++ sliceB res 1 4 })) ∧
      (cOp c.pkt = 0x70 → c.got = true → exec (.commandDone id res) s = .next (s.fwStep c))) ∧
    (∀ e, s.hub = true → c.fail = some e → cOp c.pkt ∉ [0x07, 0x16, 0x40] →
      exec (.commandDone id res) s = .next (s.finishCmd c.id { status := e })) ∧
    (∀ q k, s.hub = true → (s.quad q).loading = some (k, id) → ((s.loadBegin q).slot q k).st = .loading →
      (s.loadBegin q).cmd id = some c → exec (.ctxLoadDone q) s = .next ((s.loadBegin q).loadDone q k id (cEntry c.pkt)))

/-- 15 R493: DEN_QUERY that passes checks 1 to 6 replies OK with DEN_STATE at 0x08, DEN_QUEUE at 0x10, MODELS at 0x18, HELD in
bit 0 of 0x19 and TABLES at 0x1C of its 32 reply bytes. -/
def Obligations.DenQueryAnswers : Prop :=
  ∀ (s : State) (src : CmdSrc) (b : Bytes), Takes s (plainRow 0x12) src b →
    let v := s.takeCmd src
    let d := cDen b
    ∃ q : Bytes, exec (.denQuery src) s = .next (v.reply src b false { result := q }) ∧
      (let y := replyBytes b { result := q }
       y.length = 32 ∧ fld y 0x02 1 = 0 ∧ fld y 0x08 8 = v.denStateReg d % 2 ^ 64 ∧ fld y 0x10 8 = v.denQueueReg d % 2 ^ 64 ∧
       fld y 0x18 1 = (v.models.filter (fun m => m.den == d)).length % 256 ∧
       tbit (fld y 0x19 1) 0 = v.pcie.retHeld.getLsbD d ∧
       fld y 0x1C 4 = (v.tables.filter (fun p => p.2.present && p.2.den == d)).length % 2 ^ 32)

/-! ### The host: doorbells, registers, DEVMEM, functions, and what it answers (14, 00 R15 to R21, R27) -/

namespace Sys2Proof.Machine

/-- Inline entries that a submission ring keeps on the device. -/
def inlineHeld (r : Ring) : Nat :=
  (r.entries.filter (fun e => match e with
    | .held _ true => true
    | _ => false)).length

end Sys2Proof.Machine

/-- 14 R438, R441, R443, R444, R447: a doorbell that reaches its window makes its entries part of the ring, or moves HEAD,
unless its size, the ring's state or the ring's free entries forbid it; then it is discarded and logged. -/
def Obligations.HostDoorbells : Prop :=
  ∀ (s : State) (fn off : Nat) (data : Bytes), s.winUp fn = true →
    (∀ id, dbArea fn off = .inline id →
      let k := 32 * fn + id
      let r := s.ring k
      let held := inlineHeld r
      let put (e : RingEntry) (t : State) := (t.modRing k (fun x => { x with tail := x.tail + 1, entries := x.entries ++ [e] })).kickRing k
      (data.length = 64 → off % 2048 = 0 → s.dbOff fn id = false → r.used < r.n →
        (held < 16 → exec (.inlineDoorbell fn off data) s = .next (put (.held data true) s)) ∧
        (16 ≤ held → exec (.inlineDoorbell fn off data) s = .next
          (put .inHost (s.hostWrite fn (r.base.toNat + r.tail.toNat % r.n * 64) data)))) ∧
      (data.length ≠ 64 ∨ off % 2048 ≠ 0 → exec (.inlineDoorbell fn off data) s = .next (s.dbDrop fn id 0x0204)) ∧
      (data.length = 64 → off % 2048 = 0 → s.dbOff fn id = true →
        exec (.inlineDoorbell fn off data) s = .next (s.dbDrop fn id 0x0205)) ∧
      (data.length = 64 → off % 2048 = 0 → s.dbOff fn id = false → r.n ≤ r.used →
        exec (.inlineDoorbell fn off data) s = .next (s.dbDrop fn id 0x0206))) ∧
    (∀ id, dbArea fn off = .tail id → (data.length = 4 ∨ data.length = 8) → off % 2048 = 0x40 → s.dbOff fn id = false →
      let k := 32 * fn + id
      let r := s.ring k
      let t := BitVec.ofNat 32 (fld data 0 4)
      ((t - r.tail).toNat ≤ r.n - r.used → exec (.tailDoorbell fn off data) s = .next
        ((s.modRing k (fun x =>
          { x with tail := t, entries := x.entries ++ List.replicate (t - r.tail).toNat .announced })).kickRing k)) ∧
      (r.n - r.used < (t - r.tail).toNat → exec (.tailDoorbell fn off data) s = .next (s.dbDrop fn id 0x0206))) ∧
    (∀ id, dbArea fn off = .head id → (data.length = 4 ∨ data.length = 8) → off % 8 = 0 → s.dbOff fn id = false →
      let k := 32 * fn + id
      let h := BitVec.ofNat 32 (fld data 0 4)
      ((h - (s.ring k).head).toNat ≤ (s.ring k).used →
        let v := s.modRing k (fun x => { x with head := h })
        exec (.cqHeadDoorbell fn off data) s = .next (if id = 29 then v.postLost fn else v)) ∧
      ((s.ring k).used < (h - (s.ring k).head).toNat →
        exec (.cqHeadDoorbell fn off data) s = .next (s.fault 0x0207 (ringLoc fn id 0)))) ∧
    (dbArea fn off = .hole → exec (.inlineDoorbell fn off data) s = .next (s.accessFault 0x0201 fn 1 off))

/-- 00 R14 to R21, 14 R440, R446, R453: accesses to the CTRL windows, the registers of the rings, MSI-X, and HEAD write-backs.
14 R440, R474: enabling a ring empties it; LOG2N is taken while the ring is disabled only; disabling one discards its entries,
and is itself discarded while slots of a completion ring are reserved. A write covers the half that it names (00 R17). -/
def Obligations.RegisterAccesses : Prop :=
  (∀ (s : State) (fn : Nat), s.winUp fn = true →
     (∀ off (data : Bytes), sizeOk off data.length = true →
       (∀ old, s.ctrlReg fn (off / 8 * 8) 0 = some old →
         (ringCfgAt fn off = true → exec (.ringCfgWrite fn off data) s = .next (s.ctrlPut fn (off / 8 * 8) (regW old off data))) ∧
         (ringCfgAt fn off = false → exec (.regWrite fn off data) s = .next (s.ctrlPut fn (off / 8 * 8) (regW old off data)))) ∧
       (s.ctrlReg fn (off / 8 * 8) 0 = none → ringCfgAt fn off = false →
         exec (.regWrite fn off data) s = .next (s.accessFault 0x0201 fn 0 off))) ∧
     (∀ off (data : Bytes), sizeOk off data.length = false →
       exec (.regWrite fn off data) s = .next (s.accessFault 0x0202 fn 0 off)) ∧
     (∀ off v, lowHalfAt fn off = true → s.ctrlReg fn off 0 = some v →
       exec (.counterLowRead fn off) s = .next
         ((s.modFn fn (fun f => { f with shadow := some (off, BitVec.ofNat 32 (v / 2 ^ 32)) })).emit
           (.regData fn (BitVec.ofNat 64 (v % 2 ^ 32))))) ∧
     (∀ off len c, s.readRefusal fn off len = some c →
       exec (.refusedRead fn off len) s = .next ((s.accessFault c fn 0 off).emit (.regData fn 0))) ∧
     (∀ v, v < vectors fn →
       let e := mget ({} : MsixEntry) (s.fn fn).msix v
       let w (x : MsixEntry) := s.modFn fn (fun f => { f with msix := mset {} f.msix v x })
       (e.pending = true → (s.fn fn).bme = true → exec (.msixUnmask fn v) s = .next
         ((w { e with masked := false, pending := false }).emit (.msix fn v e.addr e.data))) ∧
       (e.pending = false ∨ (s.fn fn).bme = false → exec (.msixUnmask fn v) s = .next (w { e with masked := false }))) ∧
     (∀ id, id < 32 → (s.ring (32 * fn + id)).wbDue = true → (s.fn fn).bme = true →
       let k := 32 * fn + id
       let r := s.ring k
       exec (.headWriteBack k) s = .next
         ((s.hostWrite fn r.wb.toNat (toLe 4 r.head.toNat ++ [0, 0, 0, 0])).modRing k (fun x => { x with wbDue := false })))) ∧
  ((∀ (s : State) (fn id : Nat) (x : RegW),
     let k := 32 * fn + id
     let r := s.ring k
     (r.en = false → x.bit 0 = true →
       (s.ringCfg fn id x).ring k = { r with log2n := x.fld 8 5, en := true, head := 0, tail := 0, entries := [], wbDue := false }) ∧
     (r.en = false → x.bit 0 = false → (s.ringCfg fn id x).ring k = { r with log2n := x.fld 8 5 }) ∧
     (r.en = true → x.bit 0 = true → s.ringCfg fn id x = s) ∧
     (r.en = true → x.bit 0 = false → reservable id = true → r.rsvd ≠ 0 → s.ringCfg fn id x = s.fault 0x0208 (ringLoc fn id 0)) ∧
     (r.en = true → x.bit 0 = false → (reservable id = false ∨ r.rsvd = 0) →
       (s.ringCfg fn id x).ring k = { r with en := false, entries := [] }) ∧
     (∀ j, j ≠ k → (s.ringCfg fn id x).ring j = s.ring j ∨ (reservable id = true ∧ r.rsvd ≠ 0)) ∧
     (id < 32 → s.ctrlPut 0 (0x80000 + 64 * id + 8) x = s.ringCfg 0 id x) ∧
     (id < 32 → 0 < fn → fn ≤ 32 → s.ctrlPut fn (0x10000 + 64 * id + 8) x = s.ringCfg fn id x)) ∧
   (∀ (old off : Nat) (data : Bytes) (i : Nat), i < 64 → old < 2 ^ 64 → sizeOk off data.length = true →
     (regW old off data).bit i =
       if 8 * (off % 8) ≤ i ∧ i < 8 * (off % 8) + 8 * data.length
         then (byteAt data (i / 8 - off % 8)).getLsbD (i % 8) else old.testBit i))

/-- 13 R399, R400, 14 R436, R437: accesses to the DEVMEM windows. 13 R399, 14 R436: what a VF reaches through its DEVMEM window
is its own den's: a stripe of the den, a tile of its set, or a SCRATCH way that it owns. -/
def Obligations.DevmemAccesses : Prop :=
  (∀ (s : State) (fn off : Nat), s.winUp fn = true →
     (∀ data : Bytes, s.devmemFits fn off data.length = true →
       (∀ a, s.devmemAt fn off = .mapped a → exec (.devmemWrite fn off data) s = .next (s.devmemPut fn a data)) ∧
       (s.devmemAt fn off = .hole → exec (.devmemWrite fn off data) s = .next (s.accessFault 0x0201 fn 2 off)) ∧
       (s.devmemAt fn off = .denied → exec (.devmemWrite fn off data) s = .next (s.accessFault 0x0203 fn 2 off))) ∧
     (∀ n, s.devmemFits fn off n = true →
       (∀ a, s.devmemAt fn off = .mapped a → exec (.devmemRead fn off n) s = .next
         ((s.devmemGet fn a n).2.2.devmemData fn (s.devmemGet fn a n).1 (s.devmemGet fn a n).2.1)) ∧
       (s.devmemAt fn off = .hole → exec (.devmemRead fn off n) s = .next
         ((s.accessFault 0x0201 fn 2 off).devmemData fn (List.replicate n 0) false)) ∧
       (s.devmemAt fn off = .denied → exec (.devmemRead fn off n) s = .next
         ((s.accessFault 0x0203 fn 2 off).devmemData fn (List.replicate n 0) false)))) ∧
  (∀ (s : State) (d o a : Nat), s.devmemAt (d + 1) o = .mapped a →
     inRanges (s.den d).hbm (a / 16777216) = true ∨
     (∃ t b, a = sramBase + 4194304 * t + b ∧ b < 4194304 ∧ t < 256 ∧ (s.den d).tiles.getLsbD t = true) ∨
     (∃ w, w < 16 ∧ (s.way w).mode = .scratch ∧ (s.way w).owner = d ∧
       scratchBase + 33554432 * s.scratchRank w ≤ a ∧ a < scratchBase + 33554432 * (s.scratchRank w + 1)))

/-- 14 R456, R461 to R465: Bus Master Enable, Function Level Reset, VF Enable and ATS invalidations. -/
def Obligations.FunctionControl : Prop :=
  (∀ (s : State) (fn : Nat) (cfg : PcieCfg), fn ≤ 32 →
    let v : State := { s with pcie := s.pcie.configure cfg }
    v.edgeUp fn = true → exec (.bmeSet fn cfg) s = .next (v.bmeSet fn cfg.ats)) ∧
  ∀ (s : State) (fn : Nat), s.edgeUp fn = true →
    (let l := s.pcie.issuers fn
     let v := s.modFn fn (fun x => { x with bme := false })
     let w := l.foldl State.revoke { v with pcie := { v.pcie with
       reads := v.pcie.reads.map (fun r => if r.fn = fn then { r with discard := true } else r),
       xlate := v.pcie.xlate.filter (fun x => x.fn != fn), waiting := v.pcie.waiting.filter (fun x => x.fn != fn) } }
     exec (.bmeClear fn) s = .next { w with pcie := { w.pcie with parts := w.pcie.parts.filter (fun x => !(l.contains x.issuer)) } }) ∧
    (0 < fn → fn ≤ 32 → exec (.flr fn) s = .next (s.flrStart fn)) ∧
    (fn = 0 → ∃ u, exec (.flr 0) s = .next u ∧ exec (.vfEnableClear true) s = .next u ∧ u.pcie.numVfs = 0) ∧
    (fn = 0 → ∃ u, exec (.vfEnableClear false) s = .next u ∧ u.pcie.numVfs = 0) ∧
    ((s.fn fn).draining = true → exec (.flrDrainTimeout fn) s = .next (State.flrFinish { s with pcie := { s.pcie with
      reads := s.pcie.reads.map (fun r => if r.fn = fn then { r with discard := true, late := true } else r) } } fn)) ∧
    ((s.den (fn - 1)).scrub = false →
      let u := s.flrFinish fn
      (∀ id, id < 32 → u.ring (32 * fn + id) = {}) ∧ (u.fn fn).bme = false ∧ (u.fn fn).draining = false ∧ (u.fn fn).msix = [] ∧
      (∀ e ∈ u.pcie.ats, e.fn ≠ fn)) ∧
    (∀ itag iova log2, (s.fn fn).ats = true → ∃ u, exec (.atsInvalidate fn itag iova log2) s = .next u ∧
      u.out = s.out ++ [.invalDone fn itag] ∧
      ∀ e, e ∈ u.pcie.ats ↔ e ∈ s.pcie.ats ∧ ¬ (e.fn = fn ∧
        e.iova / 2 ^ e.log2 * 2 ^ e.log2 < iova / 2 ^ log2 * 2 ^ log2 + 2 ^ log2 ∧
        iova / 2 ^ log2 * 2 ^ log2 < e.iova / 2 ^ e.log2 * 2 ^ e.log2 + 2 ^ e.log2))

/-- 14 R441, R455, R457, R459: the end of a host read, and the answer to a Translation Request, reach what waits for them. -/
def Obligations.HostAnswers : Prop :=
  ∀ s : State, s.asleep = false →
    (∀ (tag : Nat) (r : HostRead) (data : Bytes), s.pcie.reads.find? (fun x => x.tag == tag) = some r → r.discard = false →
      r.late = false →
      let v := (s.takeRead tag true).2
      exec (.hostReadCompletion tag data .ok) s = .next ((v.countDn r).endRead r.issuer r.off r.total (.inl (padB r.len data))) ∧
      exec (.hostReadCompletion tag data .refused) s = .next (v.endRead r.issuer r.off r.total (.inr .error)) ∧
      exec (.hostReadCompletion tag data .poisoned) s = .next ((v.countDn r).endRead r.issuer r.off r.total (.inr .poison)) ∧
      (s.readsRing tag = true → exec (.ringEntryFetchDone tag data) s = .next
        ((v.countDn r).endRead r.issuer r.off r.total (.inl (padB r.len data)))) ∧
      exec (.completionTimeout tag) s = .next ((s.takeRead tag false).2.endRead r.issuer r.off r.total (.inr .error))) ∧
    (∀ (fn iova target log2 : Nat) (r w : Bool) (x : PendXlate),
      let mine (y : PendXlate) := y.fn == fn && decide (y.addr / 4096 = iova / 4096)
      s.pcie.xlate.find? mine = some x →
      let e := atsEntry fn iova target log2 r w
      let v : State := { s with pcie := Pcie.cache { s.pcie with xlate := dropFirst mine s.pcie.xlate } e }
      (x.write = true → w = true → exec (.translationCompletion fn iova target log2 r w) s = .next
        ((v.sendWrite x.fn (e.apply x.addr) x.data).writeLeft x.issuer).drainAll) ∧
      (x.write = true → w = false → exec (.translationCompletion fn iova target log2 r w) s = .next (v.writeFault x.issuer).drainAll) ∧
      (x.write = false → r = true → exec (.translationCompletion fn iova target log2 r w) s = .next
        (v.sendRead x (e.apply x.addr)).drainAll) ∧
      (x.write = false → r = false → exec (.translationCompletion fn iova target log2 r w) s = .next
        (v.endRead x.issuer x.off x.total (.inr .xlate)).drainAll))

/-! ### Reset, bring-up, RETAIN, watchdogs and faults (14 R465 to R472, 18, 20 R671 to R676, 22) -/

/-- 18 R592, R593: a full reset keeps the Ledger's and the tag's contents, the fuses and the power-on registers, which a
power-on alone clears; everything else of the device is as after reset. 18 R592, 20 R675, 22 R737, 23 R749, R750: power-on,
SYS_RESET#, WDG_AON and FATAL faults run a full reset and the cold bring-up with their SOURCE; a power loss leaves the device
OFF. -/
def Obligations.FullResets : Prop :=
  (∀ (s : State) (p : Bool),
     let u := s.fullReset p
     u.ldg.flash = s.ldg.flash ∧ u.tag.mem = s.tag.mem ∧ u.boot.serial = s.boot.serial ∧ u.boot.fuseRoll = s.boot.fuseRoll ∧
     u.boot.fuseWdg = s.boot.fuseWdg ∧
     (p = false → u.pwr.hushes = s.pwr.hushes ∧ u.pwr.stepDown = s.pwr.stepDown ∧ u.pwr.stepUp = s.pwr.stepUp ∧
       u.pwr.therm = s.pwr.therm ∧ u.pwr.aon = s.pwr.aon) ∧
     (p = true → u.pwr.hushes = 0 ∧ u.pwr.stepDown = 0 ∧ u.pwr.stepUp = 0 ∧ u.pwr.therm = [] ∧ u.pwr.aon = 0) ∧
     u.hbm.data = [] ∧ u.dens = [] ∧ u.tables = [] ∧ u.models = [] ∧ u.reqs = [] ∧ u.tiles = [] ∧ u.hoard.lines = [] ∧ u.err.log = [] ∧
     u.pcie.rings = [] ∧ u.wtime = 0 ∧ u.cp = {} ∧ u.fab = {} ∧ u.ports = []) ∧
  (∀ (s : State) (b : BootIn),
     exec (.powerOn b) s = .next ((s.fullReset true).coldBoot b 0) ∧
     (s.pwr.st ≠ .off →
       (∀ ns, ns < 1000 → exec (.sysReset ns b) s = .next s) ∧
       (∀ ns, 10000 ≤ ns → s.tap.owned = false → exec (.sysReset ns b) s = .next ((s.fullReset false).coldBoot b 1)) ∧
       exec (.wdgAonExpiry b) s = .next ((s.fullReset false).coldBoot b 2) ∧
       exec (.fatalFault 0x0901 b) s = .next ((s.fullReset false).coldBoot b 6)) ∧
     (s.hub = true →
       let r := s.mkRec 0x0F (toLe 1 4 ++ [0] ++ toLe 2 0x0902 ++ toLe 8 (mkLoc 11 0 none false 0).toNat)
       exec (.pllLost b) s = .next (((s.writeDirect r).fullReset false).coldBoot b 6) ∧
       exec (.fatalFault 0x0902 b) s = .next (((s.writeDirect r).fullReset false).coldBoot b 6)) ∧
     (∃ u, exec .powerLoss s = .next u ∧ u.pwr.st = .off ∧ u.boot.phase = .off ∧ u.hbm.data = [] ∧ u.ldg.flash = s.ldg.flash ∧
       u.tag.mem = s.tag.mem))

/-- 18 R597, R607, R612, R613, R616, 21 R687: the whole journal is read, rows are repaired, and the den records apply, or the
device enters LIMP; the end of the bring-up ends the PF's CRS and writes BOOT_DONE. -/
def Obligations.BringUp : Prop :=
  ∀ s : State,
    (s.boot.phase = .cold → s.boot.cpUp = true →
      let v := s.wholeJournal
      let w : State := { v with boot := { v.boot with phase := .cold2 } }
      (w.boot.mode ≠ 0 → exec .journalReadDone s = .next w) ∧
      (w.boot.mode = 0 → w.repairRows.boot.prof.margin = false →
        (w.repairRows.shortOf = 0 → exec .journalReadDone s = .next w.repairRows.applyDenRecords) ∧
        (w.repairRows.shortOf ≠ 0 → ∃ u, exec .journalReadDone s = .next u ∧ u.pwr.st = .limp ∧ u.boot.mode = 1 ∧
          u.boot.short = w.repairRows.shortOf))) ∧
    (s.pcie.perst = false → s.boot.mode ≠ 3 →
      (s.boot.phase = .edge → exec .bringUpComplete s = .next
        { s with boot := { s.boot with phase := .complete }, pcie := { s.pcie with crs := false } }) ∧
      (s.boot.phase = .cold2 ∨ s.boot.phase = .warm → ∃ u, exec .bringUpComplete s = .next u ∧ u.boot.phase = .complete ∧
        u.pcie.crs = false ∧ u.boot.ready.toNat ≤ 400000 ∧ u.boot.mode = s.boot.mode)) ∧
    (s.pcie.perst = true → s.pwr.st ≠ .off → s.boot.mode ≠ 3 →
      ∃ u, exec .perstDeassert s = .next u ∧ u.pcie.perst = false ∧ (u.pcie.linkUp = true ∨ u.pcie.noflit = true) ∧
        { u with pcie := s.pcie, freeCtr := s.freeCtr } = s)

/-- 14 R466 to R468, R471, R472, 18 R592, R608: RETAIN, by PERST# and by link loss, and its end by timeout. -/
def Obligations.RetainedDevice : Prop :=
  ∀ s : State,
    (∀ c, s.pwr.st = .active → ∃ u, s.enterRetain c = u ∧ u.pwr.st = .retain ∧ u.pcie.retSt = 1 ∧ u.pcie.retCause = c ∧
      u.pcie.retT = s.wtime ∧ u.pcie.ats = [] ∧ u.hoard.flushActive = true ∧
      (∀ d, d < 32 → (u.pcie.retHeld.getLsbD d = true ↔ (s.den d).st = .active)) ∧
      (∀ r ∈ u.pcie.reads, r.discard = true)) ∧
    (∀ b, s.boot.phase = .complete → s.boot.prof.retain = true → s.pwr.st = .active →
      ∃ u, exec (.perstAssert b) s = .next u ∧ u.pwr.st = .retain ∧ u.pcie.perst = true ∧ u.boot.phase = .edge ∧ u.pcie.retCause = 0 ∧
        u.pcie.linkUp = false ∧ u.pcie.crs = true) ∧
    (∀ b, s.boot.phase = .complete → s.boot.prof.retain = false → s.pwr.st ≠ .off → exec (.perstAssert b) s = .next
      ((State.fullReset { s with pcie := { s.pcie with perst := true } } false).coldBoot b 3)) ∧
    (s.pcie.linkUp = true → s.boot.phase = .complete →
      let v : State := { s with pcie := { s.pcie with linkUp := false } }
      (s.boot.prof.retain = true → s.pwr.st = .active → ∃ u, exec .linkLoss s = .next u ∧ u.pwr.st = .retain ∧ u.pcie.retCause = 1 ∧
        u.pcie.linkUp = false) ∧
      (s.boot.prof.retain = false → s.pwr.st ≠ .off → exec .linkLoss s = .next
        (v.each (List.range 32) (fun t d => t.flrStart (d + 1))))) ∧
    (s.hub = true → s.pwr.st = .retain → s.pcie.retTo ≠ 0 → exec .retainTimeout s = .next
      (State.leaveRetain (s.each ((List.range 32).filter (fun d => s.pcie.retHeld.getLsbD d)) State.destroyDen)))

/-- 13 R391, R394: a destroyed den is FREE and owns nothing, its rings are at their reset values, its models and tables are
gone, and every byte of its stripes is zero. -/
def Obligations.DestroyedDenIsEmpty : Prop :=
  ∀ (s : State) (d : Nat), d < 32 →
    let u := s.destroyDen d
    (u.den d).st = .free ∧ (u.den d).tiles = 0 ∧ (u.den d).hbm = [] ∧ (u.den d).mioSlots = 0 ∧ (u.den d).mioEnts = 0 ∧
    (∀ m ∈ u.models, m.den ≠ d) ∧ (∀ p ∈ u.tables, p.2.present = true → p.2.den ≠ d) ∧
    (∀ id, id < 32 → u.ring (32 * (d + 1) + id) = {}) ∧ u.pcie.retHeld.getLsbD d = false ∧
    (∀ a, inRanges (s.den d).hbm (a / 16777216) = true → memGet u.hbm.data a = 0)

/-- 20 R673, R676, 22 R736: WDG_CP's expiry and a DEVICE fault start the grace of 50 ms, whose end resets the hub of a device
that retains and the whole of one that does not; CP_UNCORR resets at once. 22 R734, R735: a DEN fault quiesces its den: its
rings are disabled; DESC_UNCORR deletes the table's descriptor. -/
def Obligations.WatchdogAndDenFaults : Prop :=
  (∀ (s : State) (b : BootIn), s.hub = true →
     (s.tim.cpSt = .running → ∃ u, exec .wdgCpExpiry s = .next u ∧ u.tim.cpSt = .grace ∧ u.tim.cpRemain = 50 ∧
       u.tim.cpExpiries = satAdd s.tim.cpExpiries 1 ∧ u.boot.graceFault = some (0x0804, 4)) ∧
     (∀ c k, s.boot.graceFault = some (c, k) →
       ((s.boot.phase = .complete ∨ s.boot.phase = .edge) → s.boot.prof.retain = true →
         exec (.wdgCpGraceEnd b) s = .next (s.hubReset k)) ∧
       (s.boot.prof.retain = false → exec (.wdgCpGraceEnd b) s = .next ((s.fullReset false).coldBoot b k))) ∧
     (∀ c, c = 0x0802 ∨ c = 0x0803 → s.tim.cpSt ≠ .grace → ∃ u, exec (.deviceFault c b) s = .next u ∧ u.tim.cpSt = .grace ∧
       u.tim.cpRemain = 50 ∧ u.boot.graceFault = some (c, 5)) ∧
     (s.tim.cpSt ≠ .grace → exec (.deviceFault 0x0801 b) s = .next ((s.fault 0x0801 (mkLoc 11 0 none false 0)).deviceReset b 5)) ∧
     (∀ c, 0x0801 ≤ c → c ≤ 0x0803 → s.tim.cpSt = .grace →
       exec (.deviceFault c b) s = .next (s.fault c (mkLoc 11 0 none false 0)))) ∧
  (∀ (s : State) (d i : Nat), s.hub = true → d < 32 → (s.den d).st ≠ .free →
     (∀ c, 0x0701 ≤ c → c ≤ 0x0703 → ∃ u, exec (.denFault c d i) s = .next u ∧ (u.den d).st = .quiesced ∧
       (∀ id, id < 32 → (u.ring (32 * (d + 1) + id)).en = false ∧ (u.ring (32 * (d + 1) + id)).entries = []) ∧
       (c = 0x0703 → (u.den d).uncorr = true) ∧
       (c = 0x0702 → (u.table i).present = true → (u.table i).den ≠ d)))

/-- 22 R721 to R723: a fault that equals the newest entry within its window adds to that entry's COUNT; a corrected ECC fault
within a second of its instance's entry is not entered; every other fault is a new entry at WPTR. -/
def Obligations.FaultLog : Prop :=
  ∀ (s : State) (cls cause : Nat) (loc : W64),
    let n := s.err.newest
    let k := mget 0 s.err.cls cls + 1
    (s.coalesces cls cause loc = true → ∃ u, s.logCore cls cause loc = u ∧ u.err.seq = s.err.seq ∧ u.err.wptr = s.err.wptr ∧
      mget 0 u.err.cls cls = k ∧
      mget {} u.err.log n = { mget ({} : LogEntry) s.err.log n with count := satAdd (mget ({} : LogEntry) s.err.log n).count 1 } ∧
      (∀ j, j ≠ n → mget ({} : LogEntry) u.err.log j = mget {} s.err.log j)) ∧
    (s.coalesces cls cause loc = false → s.eccQuiet cause loc = true → ∃ u, s.logCore cls cause loc = u ∧ u.err.seq = s.err.seq ∧
      u.err.log = s.err.log ∧ u.err.wptr = s.err.wptr ∧ mget 0 u.err.cls cls = k) ∧
    (s.coalesces cls cause loc = false → s.eccQuiet cause loc = false → ∃ u, s.logCore cls cause loc = u ∧
      u.err.seq = s.err.seq + 1 ∧ u.err.wptr = s.err.wptr + 1 ∧ mget 0 u.err.cls cls = k ∧
      (∃ e, mget ({} : LogEntry) u.err.log s.err.wptr.toNat =
        { seq := s.err.seq + 1, cls := cls, cause := cause, loc := loc, wtime := s.wtime, count := 1, evented := e }) ∧
      (∀ j, j ≠ s.err.wptr.toNat → mget ({} : LogEntry) u.err.log j = mget {} s.err.log j))

/-- The state after reset meets the invariant. The values that the spec gives for reset: registers of the rings, dens, stacks,
timers, ports and the fault log. -/
def Obligations.ResetValues : Prop :=
  (State.reset.inv) ∧
  ((∀ k, State.reset.ring k = { base := 0, en := false, log2n := 4, head := 0, tail := 0, rsvd := 0, wb := 0 }) ∧
   (∀ d, (State.reset.den d).st = .free ∧ (State.reset.den d).laDepth = 2 ∧ (State.reset.den d).inflightMax = 4096 ∧
     (State.reset.den d).ibufQuota = 65536 ∧ (State.reset.den d).arrMax = 16384) ∧
   (∀ n, (State.reset.stack n).scrubEn = true ∧ (State.reset.stack n).scrubPeriod = 24) ∧
   (∀ t, (State.reset.tile t).pwr = .off ∧ (State.reset.tile t).fenced = false) ∧
   (∀ n, (State.reset.tmr n).run = false ∧ (State.reset.tmr n).armed = false ∧ (State.reset.tmr n).count = 0) ∧
   (∀ t, (State.reset.table t).present = false) ∧
   State.reset.tim.aonPeriod = 2 ∧ State.reset.err.seq = 0 ∧ State.reset.err.wptr = 0 ∧ State.reset.wtime = 0 ∧
   State.reset.pending = [] ∧ State.reset.hbm.data = [])

/-! ### The slow interfaces (19) -/

namespace Sys2Proof.Machine

/-- The bytes of a UART_SVC frame. -/
def uartBytes (ty : Nat) (body : Bytes) : Bytes :=
  let h := toLe 1 ty ++ toLe 2 body.length ++ body
  [0xA5] ++ h ++ toLe 4 (crc32c h).toNat

end Sys2Proof.Machine

/-- 19 R636 to R642: a good message for this device counts and is answered; a bad one counts; an ALERT waits for the line, which
it may lose and take again, and is given up after 16 losses. -/
def Obligations.ManagementBus : Prop :=
  ∀ s : State,
    (∀ m, s.mgtHears (gDst m) = true →
      let v := s.wakeReq 5
      let g : State := { v with ser := { v.ser with rxOk := satAdd v.ser.rxOk 1 } }
      let bad : State := { v with ser := { v.ser with rxBad := satAdd v.ser.rxBad 1 } }
      (mgtWhole m = true → gType m = 1 → gLen m = 0 → exec (.ping m) s = .next (g.mgtPut (gSrc m) 0x81 g.surveyEntry)) ∧
      (mgtWhole m = true → gType m = 3 → gLen m = 0 → exec (.sensors m) s = .next (g.mgtPut (gSrc m) 0x83 g.sensorData)) ∧
      (mgtWhole m = true → gType m ≠ 1 → gType m ≠ 3 → exec (.wake m) s = .next g) ∧
      (mgtWhole m = false → gType m = 1 → exec (.ping m) s = .next bad) ∧
      (mgtWhole m = false → gType m = 3 → exec (.sensors m) s = .next bad) ∧
      (mgtWhole m = false → gType m ≠ 1 → gType m ≠ 3 → exec (.wake m) s = .next bad)) ∧
    (s.mgtOn = true →
      exec .mgtRxDiscard s = .next { s with ser := { s.ser with rxBad := satAdd s.ser.rxBad 1 } } ∧
      (s.ser.alertDst ≠ 0xFF → s.alertWord ≠ s.ser.alertLast → ∃ u, exec .alertSend s = .next u ∧ u.ser.alertLast = s.alertWord ∧
        (∃ m ∈ u.ser.mgtQ, m.ty = 4 ∧ m.body = u.alertBytes) ∧ { u with ser := s.ser } = s) ∧
      (∀ m rest, s.ser.mgtQ = m :: rest →
        (s.ser.mgtHold = false → exec .mgtArbLoss s = .next { s with ser := { s.ser with
          mgtQ := { m with losses := m.losses + 1 } :: rest, mgtHold := true, coll := satAdd s.ser.coll 1 } }) ∧
        (s.ser.mgtHold = true → m.losses < 16 → exec .mgtRetry s = .next { s with ser := { s.ser with mgtHold := false } }) ∧
        (s.ser.mgtHold = true → 16 ≤ m.losses → exec .mgtRetry s = .next
          (State.fault { s with ser := { s.ser with mgtQ := rest, mgtHold := false, giveup := satAdd s.ser.giveup 1 } } 0x0507
            (mkLoc 11 0 none false 0)))))

/-- 19 R643 to R645: SMBus addresses and packet errors, and the MCTP control and PLDM commands. Each answer is the endpoint, the
message type, the command, the completion code and the data; what the spec does not give of a version, a UUID, a record or an
earlier state is a free value (assumption 1). -/
def Obligations.ManagementEndpoints : Prop :=
  ∀ (s : State) (vdm : Bool) (msg : Bytes),
    (s.aonUp = true → (∀ a, exec (.smbusArp a) s = .next
        (State.emit { s with ser := { s.ser with smbAddr := a, smbArp := true } } (.smbus (toLe 8 s.boot.serial.toNat)))) ∧
      exec .smbusPecDrop s = .next { s with ser := { s.ser with pecErr := satAdd s.ser.pecErr 1 } }) ∧
    (s.endpointUp vdm = true →
      let answers (u : State) (ty cmd : Nat) (b : Bytes) := u.out = s.out ++ [.smbus (toLe 1 (b2n vdm) ++ toLe 1 ty ++ toLe 1 cmd ++ b)]
      let same (u : State) := { u with out := s.out, freeCtr := s.freeCtr } = s
      let e := BitVec.ofNat 8 (fld msg 1 1)
      let t := BitVec.ofNat 8 (fld msg 0 1)
      (fld msg 0 1 % 4 ≤ 1 → e ≠ 0 → e ≠ 0xFF → ∃ u, exec (.setEndpointId vdm msg) s = .next u ∧ answers u 0 1 [0, 0, e, 0] ∧
        u.eidOf vdm = e ∧ u.eidOf (!vdm) = s.eidOf (!vdm)) ∧
      (1 < fld msg 0 1 % 4 ∨ e = 0 ∨ e = 0xFF → ∃ u, exec (.setEndpointId vdm msg) s = .next u ∧ answers u 0 1 [2] ∧ same u) ∧
      (∃ u, exec (.getEndpointId vdm msg) s = .next u ∧ answers u 0 2 [0, s.eidOf vdm, 0, 0] ∧ same u) ∧
      (fld msg 0 1 = 0 ∨ fld msg 0 1 = 1 ∨ fld msg 0 1 = 0xFF →
        ∃ u v, exec (.getMctpVersionSupport vdm msg) s = .next u ∧ answers u 0 4 ([0, 1] ++ toLe 4 v) ∧ same u) ∧
      (∃ u, exec (.getMessageTypeSupport vdm msg) s = .next u ∧ answers u 0 5 [0, 2, 0, 1] ∧ same u) ∧
      (∃ u v, exec (.getEndpointUuid vdm msg) s = .next u ∧ answers u 0 3 ([0] ++ toLe 16 v) ∧ same u) ∧
      (∃ u, exec (.getTid vdm msg) s = .next u ∧ answers u 1 2 [0, s.ser.tid] ∧ same u) ∧
      (t ≠ 0 → t ≠ 0xFF → ∃ u, exec (.setTid vdm msg) s = .next u ∧ answers u 1 1 [0] ∧ u.ser = { s.ser with tid := t }) ∧
      (pldmType (fld msg 5 1) = true → ∃ u v, exec (.getPldmVersion vdm msg) s = .next u ∧ v < 2 ^ 32 ∧
        answers u 1 3 ([0, 0, 0, 0, 0, 5] ++ toLe 4 v ++ toLe 4 (crc32c (toLe 4 v)).toNat) ∧ same u) ∧
      (∃ u, exec (.getPldmTypes vdm msg) s = .next u ∧ answers u 1 4 [0, 5, 0, 0, 0, 0, 0, 0, 0] ∧ same u) ∧
      (pldmType (fld msg 0 1) = true → ∃ u, exec (.getPldmCommands vdm msg) s = .next u ∧
        answers u 1 5 ([0] ++ toLe 32 (pldmCommands (fld msg 0 1))) ∧ same u) ∧
      (∃ u v, exec (.getPdrRepositoryInfo vdm msg) s = .next u ∧ answers u 1 0x50 ([0] ++ toLe 40 v) ∧ same u) ∧
      (∃ u v, exec (.getPdr vdm msg) s = .next u ∧ answers u 1 0x51 ([0] ++ toLe 64 v) ∧ same u) ∧
      (∀ size ok v, s.sensor (fld msg 0 2) = some (size, ok, v) → ∃ u f, exec (.getSensorReading vdm msg) s = .next u ∧
        answers u 1 0x11 ([0] ++ toLe 1 size ++ [if ok then 0 else 2] ++ toLe 4 f ++ v) ∧ same u) ∧
      (s.sensor (fld msg 0 2) = none → ∃ u, exec (.getSensorReading vdm msg) s = .next u ∧ answers u 1 0x11 [0x80] ∧ same u) ∧
      (∀ v, s.stateSensor (fld msg 0 2) = some v → ∃ u f, exec (.getStateSensorReadings vdm msg) s = .next u ∧
        answers u 1 0x21 ([0, 1, 0] ++ toLe 1 v ++ toLe 2 f) ∧ same u))

/-- 19 R629 to R634: a whole CMD frame is taken as the port's command, or answered NAK 4 while one runs; a frame of another
TYPE, with a wrong LEN or a wrong CRC is answered with its NAK; a CFG frame with legal settings is acknowledged, and its
settings apply later. 19 R646 to R652: the USB service port. -/
def Obligations.ServicePorts : Prop :=
  (∀ s : State, s.uartOn = true →
     (s.ser.rx = [] →
       (∀ p : Bytes, p.length = 64 → s.ser.uartBusy = false → exec (.uartCmdFrame (uartBytes 1 p)) s = .next (s.uartCount.uartTake p)) ∧
       (∀ p : Bytes, p.length = 64 → s.ser.uartBusy = true → exec (.uartCmdFrame (uartBytes 1 p)) s = .next (s.uartCount.uartNak 4)) ∧
       (∀ ty (p : Bytes), ty < 256 → ty ≠ 1 → ty ≠ 6 → p.length ≤ 4096 → lenBad ty p.length = false →
         exec (.uartCmdFrame (uartBytes ty p)) s = .next (s.uartNak 3)) ∧
       (∀ p : Bytes, p.length = 8 → cfgOk p = true → exec (.uartCfgFrame (uartBytes 6 p)) s = .next
         (let v := s.uartCount
          State.uartSend { v with ser := { v.ser with cfgPend := some (fld p 0 4, fld p 4 1, fld p 5 1) } } 0x07 p)) ∧
       (∀ p : Bytes, p.length = 8 → cfgOk p = false →
         exec (.uartCfgFrame (uartBytes 6 p)) s = .next (s.uartCount.uartSend 0x07 s.cfgBytes))) ∧
     (∀ b m k, s.ser.cfgPend = some (b, m, k) → exec .uartCfgApply s = .next
       { s with ser := { s.ser with cfgPend := none, baud := BitVec.ofNat 23 b, sync := m == 1, ckdiv := BitVec.ofNat 8 k } }) ∧
     (s.ser.rx ≠ [] → exec .uartFrameGap s = .next (State.uartNak { s with ser := { s.ser with rx := [] } } 5)) ∧
     exec .uartBreak s = .next { s with ser := { s.ser with rx := [] } }) ∧
  (∀ s : State,
     (s.ser.usbAttached = true →
       let v := (s.wakeReq 6).svcStart
       (v.usbServed = true →
         (∀ p, v.ser.usbRun = none → exec (.usbCommand p) s = .next { v with
           ser := { v.ser with usbRun := some (BitVec.ofNat 16 (cTag p)), usbHeld := none }, cp := { v.cp with usbIn := some (padB 64 p) } }) ∧
         (∀ p, v.ser.usbRun ≠ none → exec (.usbCommand p) s = .next (v.emit (.usb [] true))) ∧
         (∀ t, v.ser.usbRun = some t → exec (.getReply t) s = .next (v.emit (.usb [] false))) ∧
         (∀ t b, v.ser.usbRun ≠ some t → v.ser.usbHeld = some (t, b) → exec (.getReply t) s = .next (v.emit (.usb b false))) ∧
         (∀ x, setupKnown x = false → exec (.usbSetupStall x) s = .next (v.emit (.usb [] true)))) ∧
       (v.usbServed = false → ∀ p, exec (.usbCommand p) s = .next v) ∧
       (∀ part high, ∃ u, exec (.usbBusReset part high) s = .next u ∧ u.ser.usbHigh = high ∧ u.ser.ep1 = none) ∧
       (∀ part, ∃ u, exec (.vbusLoss part) s = .next u ∧ u.ser.vbus = false ∧ u.ser.usbAttached = false ∧ u.ser.ep1 = none)) ∧
     (∃ u, exec .vbusReturn s = .next u ∧ u.ser.vbus = true ∧ u.ser.usbAttached = (s.aonUp && s.portsUp) ∧ { u with ser := s.ser } = s) ∧
     (∀ x d, s.ser.ep1 = some x → s.ser.usbAttached = true → s.usbServed = true →
       (x.out = false → s.ep1Size ≤ x.data.length → exec (.ep1Packet d) s = .next
         (let v := s.emit (.usb (x.data.take s.ep1Size) false)
          { v with ser := { v.ser with ep1 := some { x with data := x.data.drop s.ep1Size } } })) ∧
       (x.out = false → x.data.length < s.ep1Size → exec (.ep1Packet d) s = .next
         (let v := s.emit (.usb x.data false)
          State.finishCmd { v with ser := { v.ser with ep1 := none } } x.cmd {})) ∧
       (x.out = true → d.length = s.ep1Size → x.data.length + s.ep1Size < x.want → exec (.ep1Packet d) s = .next
         { s with ser := { s.ser with ep1 := some { x with data := x.data ++ d } } })) ∧
     (∀ x, s.ser.ep1 = some x → exec .ep1Timeout s = .next
       (State.finishCmd { s with ser := { s.ser with ep1 := none } } x.cmd { status := 0x0C })))

/-- 19 R650: GET_REPLY, while the device is attached and its commands are served, returns 0 bytes for the TAG of the running
command, the held reply for its TAG, which stays held, and a STALL for any other TAG. -/
def Obligations.UsbGetReply : Prop :=
  ∀ (s : State) (t : W16), s.ser.usbAttached = true →
    let v := (s.wakeReq 6).svcStart
    v.usbServed = true →
      (v.ser.usbRun = some t → exec (.getReply t) s = .next (v.emit (.usb [] false))) ∧
      (∀ b, v.ser.usbRun ≠ some t → v.ser.usbHeld = some (t, b) →
        exec (.getReply t) s = .next (v.emit (.usb b false)) ∧ (v.emit (.usb b false)).ser.usbHeld = some (t, b)) ∧
      (v.ser.usbRun ≠ some t → (∀ b, v.ser.usbHeld ≠ some (t, b)) → exec (.getReply t) s = .next (v.emit (.usb [] true)))

/-! ### The Ledger, the Service tag and JTAG (21, 22 R739, 23 R756, R757) -/

/-- 21 R684 to R688, R690, R708: the oldest queued record that fits is programmed at the head with the next SEQ; a new sector
opens when it does not fit; and each hour is counted. 21 R681: programming changes bits of the Ledger from 1 to 0 only, and only
in the bytes that it covers. 21 R705 to R709, R713: an update writes the inactive bank with a valid CRC, and flips the pointer
block last, unless an RF session holds it; the active bank is not touched. 21 R710 to R712: the RF commands of the tag. A read
of block 16 in a session gives the latched pointer; a write outside the technician area is refused. -/
def Obligations.LedgerAndTag : Prop :=
  (∀ s : State,
     (∀ r rest, s.ldg.queue = r :: rest → s.ldg.fits r = true → ∃ u, exec .ledgerCommit s = .next u ∧ u.ldg.queue = rest ∧
       u.ldg.headSeq = s.ldg.headSeq + 1 ∧ u.ldg.headOff = s.ldg.headOff + (recBytes r (s.ldg.headSeq + 1)).length ∧
       u.ldg.headSector = s.ldg.headSector ∧
       ((r.ty = 0x0F ∨ r.ty = 0x0C) → u.ldg.faults.head? = some ({ r with seq := s.ldg.headSeq + 1 }, s.boot.fwVersion))) ∧
     (s.needsSector = true → exec .ledgerSectorRecycle s = .next s.recycle) ∧
     (s.needsSector = false → exec .ledgerSectorRecycle s = .next s) ∧
     (∃ u, exec .ledgerHourly s = .next u ∧ u.ldg.hours = s.ldg.hours + 1 ∧ u.ldg.powerOns = s.ldg.powerOns)) ∧
  (∀ (l : Ledger) (a j : Nat) (b : Bytes),
     (l.program a b).get j = if a ≤ j ∧ j < a + b.length then l.get j &&& b.getD (j - a) 0 else l.get j) ∧
  (∀ s : State, s.aonUp = true →
     let o := s.tag.active
     (∃ u, exec .tagUpdate s = .next u ∧ u.tag.bankOk (!o) = true ∧
       memRead u.tag.mem (bankAddr o) 2560 = memRead s.tag.mem (bankAddr o) 2560 ∧
       (s.tag.rf = false → u.tag.active = !o ∧ u.tag.gen (!o) = (s.tag.gen o + 1) % 2 ^ 32 ∧ u.tag.pending = none) ∧
       (s.tag.rf = true → memRead u.tag.mem 0x40 4 = memRead s.tag.mem 0x40 4 ∧ u.tag.deferred = s.tag.deferred + 1 ∧ u.tag.pending.isSome)) ∧
     (∀ p, s.tag.pending = some p → s.tag.rf = false → exec .tagFlipRetry s = .next
       { s with tag := { s.tag with mem := memWrite s.tag.mem 0x40 p, pending := none } }) ∧
     (s.tag.rf = false →
       let c := (crc32c (memRead s.tag.mem 0x1F00 252)).toNat
       (c = fld (memRead s.tag.mem 0x1FFC 4) 0 4 → exec .techAreaCheck s = .next s) ∧
       (c ≠ fld (memRead s.tag.mem 0x1FFC 4) 0 4 → exec .techAreaCheck s = .next
         (let v := s.record 0x10 (memRead s.tag.mem 0x1F00 256) none
          { v with tag := { v.tag with mem := memWrite v.tag.mem 0x1FFC (toLe 4 c) } })))) ∧
  (∀ s : State,
     (s.tag.quiet = false → ∃ u, exec .inventory s = .next u ∧ u.tag.rf = true ∧ u.tag.mem = s.tag.mem ∧
       u.out = s.out ++ [.rf ([0, 0] ++ toLe 8 s.tag.uid.toNat)] ∧ (s.tag.rf = false → u.tag.latch = memRead s.tag.mem 0x40 4)) ∧
     (s.tag.quiet = true → exec .inventory s = .next s) ∧
     (∃ u, exec .stayQuiet s = .next u ∧ u.tag.quiet = true ∧ u.tag.selected = false ∧ u.out = s.out) ∧
     (∃ u, exec .select s = .next u ∧ u.tag.quiet = false ∧ u.tag.selected = true ∧ u.tag.rf = true ∧ u.out = s.out ++ [.rf [0]]) ∧
     (∃ u, exec .resetToReady s = .next u ∧ u.tag.quiet = false ∧ u.tag.selected = false ∧ u.out = s.out ++ [.rf [0]]) ∧
     (∀ b, b < 256 → exec (.readSingleBlock b) s = .next (s.emit (.rf ([0] ++ s.tag.block b)))) ∧
     (∀ b, b < 2048 → exec (.extendedReadSingle b) s = .next (s.emit (.rf ([0] ++ s.tag.block b)))) ∧
     (∀ b n, n ≤ 32 → b + n ≤ 256 → exec (.readMultipleBlocks b n) s = .next
       (s.emit (.rf ([0] ++ (List.range n).flatMap (fun i => s.tag.block (b + i)))))) ∧
     (∀ b n, n ≤ 32 → b + n ≤ 2048 → exec (.extendedReadMultiple b n) s = .next
       (s.emit (.rf ([0] ++ (List.range n).flatMap (fun i => s.tag.block (b + i)))))) ∧
     (∀ b d, 1984 ≤ b → b < 2048 → ¬ (b = 2047 ∧ s.tag.ackHeld = true) → exec (.extendedWriteSingle b d) s = .next
       (State.emit { s with tag := { s.tag with mem := memWrite s.tag.mem (4 * b) (padB 4 d) } } (.rf [0]))) ∧
     (∀ b d, b < 1984 → ∃ u, exec (.extendedWriteSingle b d) s = .next u ∧ u.tag.mem = s.tag.mem ∧ u.out = s.out ++ [.rf [1, 0x12]]) ∧
     (∀ b d, b < 256 → ∃ u, exec (.writeSingleBlock b d) s = .next u ∧ u.tag.mem = s.tag.mem ∧ u.out = s.out ++ [.rf [1, 0x12]]) ∧
     exec .getSystemInformation s = .next (s.emit (.rf ([0, 4] ++ toLe 8 s.tag.uid.toNat ++ [0xFF, 3]))) ∧
     exec .extendedGetSystemInfo s = .next (s.emit (.rf ([0, 4] ++ toLe 8 s.tag.uid.toNat ++ [0xFF, 7, 3]))) ∧
     (s.tag.rf = true → ∃ u, exec .rfSessionEnd s = .next u ∧ u.tag.rf = false ∧ u.tag.mem = s.tag.mem))

/-- 22 R739, R741, 23 R756, R757: the TAP's instructions. REGRD reads a register of the PF's map while ERR_DBG allows it, and
zero otherwise. -/
def Obligations.JtagInstructions : Prop :=
  ∀ s : State,
    (s.aonUp = true →
      (∀ c, exec (.extest c) s = .next { s with tap := { instr := .extest, owned := true, boundary := c } }) ∧
      exec .clamp s = .next { s with tap := { s.tap with instr := .clamp, owned := true } } ∧
      exec .highz s = .next { s with tap := { s.tap with instr := .highz, owned := true } } ∧
      (∀ b c, exec (.samplePreload b c) s = .next
        (State.emit { s with tap := { s.tap with instr := .samplePreload, boundary := c } } (.jtag b))) ∧
      exec .idcode s = .next (State.emit { s with tap := { s.tap with instr := .idcode } } (.jtag 0x1D0605AB)) ∧
      exec .bypass s = .next (State.emit { s with tap := { s.tap with instr := .bypass } } (.jtag 0))) ∧
    exec .testLogicReset s = .next { s with tap := { s.tap with instr := .idcode, owned := false } } ∧
    (∀ off, ∃ u v, exec (.jtagRegrd off) s = .next u ∧ u.out = s.out ++ [.jtag v] ∧ u.tap.instr = .regrd ∧
      (s.err.jtagRd = false ∨ s.hub = false ∨ off % 8 ≠ 0 → v = 0) ∧
      (s.err.jtagRd = true → s.hub = true → off % 8 = 0 → ∃ f, v = BitVec.ofNat 64 ((s.ctrlReg 0 off f).getD 0)))
end

