-- ==== Sys2Proof/Laws/Memory.lean ====
section
/-!
SUPPORT. The laws of the sparse tables and memories: what a write reads back, what it leaves alone, and that every
operation keeps the canonical form (numbers rising, no entry at its default).
-/

namespace Sys2Proof.Machine

section
variable {α : Type}

/-- The numbers of a sparse table rise strictly, as a pairwise fact. -/
theorem mrising_iff (m : SMap α) : mrising m = true ↔ m.Pairwise (fun p q => p.1 < q.1) := by
  induction m with
  | nil => simp [mrising]
  | cons p m ih =>
    cases m with
    | nil => simp [mrising]
    | cons q m =>
      rw [mrising, Bool.and_eq_true, ih, List.pairwise_cons (a := p)]
      simp only [decide_eq_true_eq]
      constructor
      · rintro ⟨hpq, hm⟩
        refine ⟨fun r hr => ?_, hm⟩
        rcases List.mem_cons.1 hr with rfl | hr
        · exact hpq
        · exact Nat.lt_trans hpq ((List.pairwise_cons.1 hm).1 r hr)
      · rintro ⟨h, hm⟩
        exact ⟨h q (List.mem_cons_self), hm⟩

/-- Canonical form, as two facts. -/
theorem mwf_iff [DecidableEq α] (d : α) (m : SMap α) :
    mwf d m = true ↔ m.Pairwise (fun p q => p.1 < q.1) ∧ ∀ p ∈ m, p.2 ≠ d := by
  simp [mwf, mrising_iff]

theorem merase_sublist (m : SMap α) (k : Nat) : (merase m k).Sublist m := List.filter_sublist

theorem mem_mput (m : SMap α) (k : Nat) (v : α) {p : Nat × α} (h : p ∈ mput m k v) : p = (k, v) ∨ p ∈ m := by
  induction m with
  | nil => simpa [mput] using h
  | cons q m ih =>
    obtain ⟨j, w⟩ := q
    have sub := (merase_sublist m k).subset
    simp only [mput] at h
    split at h
    · rcases List.mem_cons.1 h with h | h
      · exact .inl h
      · exact .inr (List.mem_cons_of_mem _ (sub h))
    · split at h
      · rcases List.mem_cons.1 h with h | h
        · exact .inl h
        · rcases List.mem_cons.1 h with h | h
          · exact .inr (h ▸ List.mem_cons_self)
          · exact .inr (List.mem_cons_of_mem _ (sub h))
      · rcases List.mem_cons.1 h with h | h
        · exact .inr (h ▸ List.mem_cons_self)
        · exact (ih h).imp_right (List.mem_cons_of_mem _)

theorem mput_rising {m : SMap α} (hm : m.Pairwise (fun p q => p.1 < q.1)) (k : Nat) (v : α) :
    (mput m k v).Pairwise (fun p q => p.1 < q.1) := by
  induction m with
  | nil => simp [mput]
  | cons q m ih =>
    obtain ⟨j, w⟩ := q
    obtain ⟨h1, h2⟩ := List.pairwise_cons.1 hm
    have sub := (merase_sublist m k).subset
    have hs := h2.sublist (merase_sublist m k)
    simp only [mput]
    split
    next e => subst e; exact List.pairwise_cons.2 ⟨fun r hr => h1 r (sub hr), hs⟩
    next e =>
      split
      next l =>
        refine List.pairwise_cons.2 ⟨fun r hr => ?_, List.pairwise_cons.2 ⟨fun r hr => h1 r (sub hr), hs⟩⟩
        rcases List.mem_cons.1 hr with rfl | hr
        · exact l
        · exact Nat.lt_trans l (h1 r (sub hr))
      next l =>
        refine List.pairwise_cons.2 ⟨fun r hr => ?_, ih h2⟩
        rcases mem_mput m k v hr with rfl | hr
        · show j < k; omega
        · exact h1 r hr

/-- A write keeps the canonical form. -/
theorem mset_wf [DecidableEq α] {d : α} {m : SMap α} (h : mwf d m = true) (k : Nat) (v : α) :
    mwf d (mset d m k v) = true := by
  rw [mwf_iff] at h ⊢
  unfold mset
  split
  · exact ⟨h.1.sublist (merase_sublist m k), fun p hp => h.2 p ((merase_sublist m k).subset hp)⟩
  next e =>
    refine ⟨mput_rising h.1 k v, fun p hp => ?_⟩
    rcases mem_mput m k v hp with rfl | hp
    · exact e
    · exact h.2 p hp

/-- Taking entries away keeps the canonical form. -/
theorem mwf_filter [DecidableEq α] {d : α} {m : SMap α} (h : mwf d m = true) (p : Nat × α → Bool) :
    mwf d (m.filter p) = true := by
  rw [mwf_iff] at h ⊢
  exact ⟨h.1.sublist List.filter_sublist, fun q hq => h.2 q (List.mem_filter.1 hq).1⟩

/-- What a table reads after a number was taken out of it. -/
theorem mget_merase (d : α) (m : SMap α) (k j : Nat) : mget d (merase m k) j = if j = k then d else mget d m j := by
  induction m with
  | nil => simp [merase, mget]
  | cons q m ih =>
    obtain ⟨i, w⟩ := q
    by_cases e1 : i = k
    · subst e1
      have : merase ((i, w) :: m) i = merase m i := by simp [merase]
      rw [this, ih]
      by_cases e : j = i
      · rw [if_pos e, if_pos e]
      · rw [if_neg e, if_neg e, mget, if_neg (Ne.symm e)]
    · have : merase ((i, w) :: m) k = (i, w) :: merase m k := by simp [merase, e1]
      rw [this, mget, mget, ih]
      by_cases e : i = j
      · rw [if_pos e, if_pos e, if_neg (by omega)]
      · rw [if_neg e, if_neg e]

/-- What a table reads after a number was put into it. -/
theorem mget_mput (d : α) (m : SMap α) (k : Nat) (v : α) (j : Nat) : mget d (mput m k v) j = if j = k then v else mget d m j := by
  induction m with
  | nil =>
    by_cases e : j = k
    · simp [mput, mget, e]
    · simp [mput, mget, e, Ne.symm e]
  | cons q m ih =>
    obtain ⟨i, w⟩ := q
    simp only [mput]
    by_cases e1 : i = k
    · subst e1
      rw [if_pos rfl, mget, mget, mget_merase]
      by_cases e : j = i
      · rw [if_pos e.symm, if_pos e]
      · rw [if_neg (Ne.symm e), if_neg e, if_neg e, if_neg (Ne.symm e)]
    · rw [if_neg e1]
      by_cases e2 : k < i
      · rw [if_pos e2, mget, mget, mget_merase, mget]
        by_cases e : j = k
        · rw [if_pos e.symm, if_pos e]
        · rw [if_neg (Ne.symm e), if_neg e, if_neg e]
      · rw [if_neg e2, mget, ih, mget]
        by_cases e3 : i = j
        · rw [if_pos e3, if_pos e3, if_neg (by omega)]
        · rw [if_neg e3, if_neg e3]

/-- Read after write, in one law: the number written reads as the value, every other number as before. -/
theorem mget_mset [DecidableEq α] (d : α) (m : SMap α) (k : Nat) (v : α) (j : Nat) :
    mget d (mset d m k v) j = if j = k then v else mget d m j := by
  unfold mset
  split
  next e => rw [mget_merase, e]
  next => exact mget_mput d m k v j

end

/-- A byte write keeps the canonical form of a memory. -/
theorem memSet_wf {m : List Host.Cell} (h : memWf m = true) (a : Nat) (b : Byte) : memWf (memSet m a b) = true :=
  mset_wf h a b

/-- A write of a run of bytes keeps the canonical form of a memory. -/
theorem memWrite_wf {m : List Host.Cell} (h : memWf m = true) (a : Nat) (bs : Bytes) : memWf (memWrite m a bs) = true := by
  induction bs generalizing m a with
  | nil => exact h
  | cons b bs ih => exact ih (memSet_wf h a b) (a + 1)

/-- Zeroing a range keeps the canonical form of a memory. -/
theorem memZero_wf {m : List Host.Cell} (h : memWf m = true) (lo hi : Nat) : memWf (memZero m lo hi) = true :=
  mwf_filter h _

/-- Moving the cells of a range keeps the canonical form of a memory. -/
theorem moveCells_wf {m : List Host.Cell} (h : memWf m = true) (lo hi : Nat) (f : Nat → Nat) :
    memWf (moveCells m lo hi f) = true := by
  have key : ∀ (l : List Host.Cell) (acc : List Host.Cell), (∀ p ∈ l, p.2 ≠ 0) → memWf acc = true →
      memWf (l.foldl (fun acc p => mput acc (f p.1) p.2) acc) = true := by
    intro l
    induction l with
    | nil => exact fun _ _ h => h
    | cons p l ih =>
      intro acc hl ha
      refine ih _ (fun q hq => hl q (List.mem_cons_of_mem _ hq)) ?_
      obtain ⟨hr, hd⟩ := (mwf_iff (0 : Byte) acc).1 ha
      refine (mwf_iff (0 : Byte) _).2 ⟨mput_rising hr _ _, fun q hq => ?_⟩
      rcases mem_mput _ _ _ hq with rfl | hq
      · exact hl p List.mem_cons_self
      · exact hd q hq
  exact key _ _ (fun p hp => ((mwf_iff (0 : Byte) m).1 h).2 p (List.mem_filter.1 hp).1) (mwf_filter h _)

/-- Reading one byte after one byte was written. -/
theorem memGet_memSet (m : List Host.Cell) (a : Nat) (b : Byte) (j : Nat) :
    memGet (memSet m a b) j = if j = a then b else memGet m j := mget_mset 0 m a b j

/-- Reading one byte after a run of bytes was written: the byte of the run, or what was there. -/
theorem memGet_memWrite (m : List Host.Cell) (a : Nat) (bs : Bytes) (j : Nat) :
    memGet (memWrite m a bs) j = if a ≤ j ∧ j < a + bs.length then bs.getD (j - a) 0 else memGet m j := by
  induction bs generalizing m a with
  | nil => simp [memWrite]
  | cons b bs ih =>
    rw [memWrite, ih, memGet_memSet]
    by_cases e : j = a
    · subst e; simp
    · by_cases l : a + 1 ≤ j ∧ j < a + 1 + bs.length
      · rw [if_pos l, if_pos (by simp; omega)]
        obtain ⟨k, rfl⟩ : ∃ k, j = a + 1 + k := ⟨j - (a + 1), by omega⟩
        rw [show a + 1 + k - (a + 1) = k by omega, show a + 1 + k - a = k + 1 by omega]
        rfl
      · rw [if_neg l, if_neg e, if_neg (by simp; omega)]

/-- A run of bytes reads back as it was written. -/
theorem memRead_memWrite (m : List Host.Cell) (a : Nat) (bs : Bytes) :
    memRead (memWrite m a bs) a bs.length = bs := by
  unfold memRead
  refine List.ext_getElem (by simp) (fun i h1 h2 => ?_)
  simp only [List.getElem_map, List.getElem_range]
  rw [memGet_memWrite, if_pos (by omega)]
  simp [h2]

/-- A run of bytes that a write does not touch reads as before. -/
theorem memRead_memWrite_other (m : List Host.Cell) (a : Nat) (bs : Bytes) (b n : Nat)
    (hd : b + n ≤ a ∨ a + bs.length ≤ b) : memRead (memWrite m a bs) b n = memRead m b n := by
  unfold memRead
  refine List.map_congr_left (fun i hi => ?_)
  have := List.mem_range.1 hi
  rw [memGet_memWrite, if_neg (by omega)]

@[simp] theorem memRead_length (m : List Host.Cell) (a n : Nat) : (memRead m a n).length = n := by simp [memRead]

/-! ### The operations on the HBM record keep its memory canonical -/

theorem Hbm.putLine_wf {h : Hbm} (w : memWf h.data = true) (l : HLine) : memWf (h.putLine l).data = true :=
  memWrite_wf w _ _

theorem Hbm.zeroStripes_wf {h : Hbm} (w : memWf h.data = true) (a n : Nat) : memWf (h.zeroStripes a n).data = true :=
  memZero_wf w _ _

theorem Hbm.regranule_wf {h : Hbm} (w : memWf h.data = true) (st a b : Nat) : memWf (h.regranule st a b).data = true := by
  unfold Hbm.regranule
  split
  · exact w
  · extract_lets lo hi dest word
    exact moveCells_wf w lo hi dest

/-- A fold of operations each of which keeps the memory canonical keeps it. -/
theorem Hbm.foldl_wf {β : Type} {f : Hbm → β → Hbm} (hf : ∀ h x, memWf h.data = true → memWf (f h x).data = true) (l : List β)
    {h : Hbm} (w : memWf h.data = true) : memWf (l.foldl f h).data = true := by
  induction l generalizing h with
  | nil => exact w
  | cons x l ih => exact ih (hf h x w)

end Sys2Proof.Machine
end

