-- ==== Sys2Proof/Laws/State.lean ====
section
/-!
SUPPORT. What the updates of the state leave alone and what they change: one fact for each field and each update.
-/

namespace Sys2Proof.Machine

variable (s : State)

/-! ### `State.modFn` -/

@[simp] theorem State.modFn_fn (f : Nat) (g : Fn → Fn) (n : Nat) : (s.modFn f g).fn n = if n = f then g (s.fn f) else s.fn n :=
  mget_mset _ _ _ _ _
@[simp] theorem State.modFn_pending (f : Nat) (g : Fn → Fn) : (s.modFn f g).pending = s.pending := rfl
@[simp] theorem State.modFn_out (f : Nat) (g : Fn → Fn) : (s.modFn f g).out = s.out := rfl
@[simp] theorem State.modFn_freeCtr (f : Nat) (g : Fn → Fn) : (s.modFn f g).freeCtr = s.freeCtr := rfl
@[simp] theorem State.modFn_wtime (f : Nat) (g : Fn → Fn) : (s.modFn f g).wtime = s.wtime := rfl
@[simp] theorem State.modFn_dens (f : Nat) (g : Fn → Fn) : (s.modFn f g).dens = s.dens := rfl
@[simp] theorem State.modFn_lastDen (f : Nat) (g : Fn → Fn) : (s.modFn f g).lastDen = s.lastDen := rfl
@[simp] theorem State.modFn_reqs (f : Nat) (g : Fn → Fn) : (s.modFn f g).reqs = s.reqs := rfl
@[simp] theorem State.modFn_reqSeq (f : Nat) (g : Fn → Fn) : (s.modFn f g).reqSeq = s.reqSeq := rfl
@[simp] theorem State.modFn_tiles (f : Nat) (g : Fn → Fn) : (s.modFn f g).tiles = s.tiles := rfl
@[simp] theorem State.modFn_models (f : Nat) (g : Fn → Fn) : (s.modFn f g).models = s.models := rfl
@[simp] theorem State.modFn_mioter (f : Nat) (g : Fn → Fn) : (s.modFn f g).mioter = s.mioter := rfl
@[simp] theorem State.modFn_forager (f : Nat) (g : Fn → Fn) : (s.modFn f g).forager = s.forager := rfl
@[simp] theorem State.modFn_hoard (f : Nat) (g : Fn → Fn) : (s.modFn f g).hoard = s.hoard := rfl
@[simp] theorem State.modFn_hbm (f : Nat) (g : Fn → Fn) : (s.modFn f g).hbm = s.hbm := rfl
@[simp] theorem State.modFn_tables (f : Nat) (g : Fn → Fn) : (s.modFn f g).tables = s.tables := rfl
@[simp] theorem State.modFn_upds (f : Nat) (g : Fn → Fn) : (s.modFn f g).upds = s.upds := rfl
@[simp] theorem State.modFn_wsw (f : Nat) (g : Fn → Fn) : (s.modFn f g).wsw = s.wsw := rfl
@[simp] theorem State.modFn_msw (f : Nat) (g : Fn → Fn) : (s.modFn f g).msw = s.msw := rfl
@[simp] theorem State.modFn_cp (f : Nat) (g : Fn → Fn) : (s.modFn f g).cp = s.cp := rfl
@[simp] theorem State.modFn_fab (f : Nat) (g : Fn → Fn) : (s.modFn f g).fab = s.fab := rfl
@[simp] theorem State.modFn_ports (f : Nat) (g : Fn → Fn) : (s.modFn f g).ports = s.ports := rfl
@[simp] theorem State.modFn_pwr (f : Nat) (g : Fn → Fn) : (s.modFn f g).pwr = s.pwr := rfl
@[simp] theorem State.modFn_boot (f : Nat) (g : Fn → Fn) : (s.modFn f g).boot = s.boot := rfl
@[simp] theorem State.modFn_ser (f : Nat) (g : Fn → Fn) : (s.modFn f g).ser = s.ser := rfl
@[simp] theorem State.modFn_tim (f : Nat) (g : Fn → Fn) : (s.modFn f g).tim = s.tim := rfl
@[simp] theorem State.modFn_ldg (f : Nat) (g : Fn → Fn) : (s.modFn f g).ldg = s.ldg := rfl
@[simp] theorem State.modFn_tag (f : Nat) (g : Fn → Fn) : (s.modFn f g).tag = s.tag := rfl
@[simp] theorem State.modFn_err (f : Nat) (g : Fn → Fn) : (s.modFn f g).err = s.err := rfl
@[simp] theorem State.modFn_tap (f : Nat) (g : Fn → Fn) : (s.modFn f g).tap = s.tap := rfl
@[simp] theorem State.modFn_ring (f : Nat) (g : Fn → Fn) (j : Nat) : (s.modFn f g).ring j = s.ring j := rfl
@[simp] theorem State.modFn_den (f : Nat) (g : Fn → Fn) (j : Nat) : (s.modFn f g).den j = s.den j := rfl
@[simp] theorem State.modFn_tile (f : Nat) (g : Fn → Fn) (j : Nat) : (s.modFn f g).tile j = s.tile j := rfl
@[simp] theorem State.modFn_table (f : Nat) (g : Fn → Fn) (j : Nat) : (s.modFn f g).table j = s.table j := rfl
@[simp] theorem State.modFn_quad (f : Nat) (g : Fn → Fn) (j : Nat) : (s.modFn f g).quad j = s.quad j := rfl
@[simp] theorem State.modFn_cfgEntry (f : Nat) (g : Fn → Fn) (j : Nat) : (s.modFn f g).cfgEntry j = s.cfgEntry j := rfl
@[simp] theorem State.modFn_port (f : Nat) (g : Fn → Fn) (j : Nat) : (s.modFn f g).port j = s.port j := rfl
@[simp] theorem State.modFn_stack (f : Nat) (g : Fn → Fn) (j : Nat) : (s.modFn f g).stack j = s.stack j := rfl
@[simp] theorem State.modFn_tmr (f : Nat) (g : Fn → Fn) (j : Nat) : (s.modFn f g).tmr j = s.tmr j := rfl
@[simp] theorem State.modFn_way (f : Nat) (g : Fn → Fn) (j : Nat) : (s.modFn f g).way j = s.way j := rfl
@[simp] theorem State.modFn_hub (f : Nat) (g : Fn → Fn) : (s.modFn f g).hub = s.hub := rfl

/-! ### `State.modRing` -/

@[simp] theorem State.modRing_ring (k : Nat) (g : Ring → Ring) (n : Nat) : (s.modRing k g).ring n = if n = k then g (s.ring k) else s.ring n :=
  mget_mset _ _ _ _ _
@[simp] theorem State.modRing_pending (k : Nat) (g : Ring → Ring) : (s.modRing k g).pending = s.pending := rfl
@[simp] theorem State.modRing_out (k : Nat) (g : Ring → Ring) : (s.modRing k g).out = s.out := rfl
@[simp] theorem State.modRing_freeCtr (k : Nat) (g : Ring → Ring) : (s.modRing k g).freeCtr = s.freeCtr := rfl
@[simp] theorem State.modRing_wtime (k : Nat) (g : Ring → Ring) : (s.modRing k g).wtime = s.wtime := rfl
@[simp] theorem State.modRing_dens (k : Nat) (g : Ring → Ring) : (s.modRing k g).dens = s.dens := rfl
@[simp] theorem State.modRing_lastDen (k : Nat) (g : Ring → Ring) : (s.modRing k g).lastDen = s.lastDen := rfl
@[simp] theorem State.modRing_reqs (k : Nat) (g : Ring → Ring) : (s.modRing k g).reqs = s.reqs := rfl
@[simp] theorem State.modRing_reqSeq (k : Nat) (g : Ring → Ring) : (s.modRing k g).reqSeq = s.reqSeq := rfl
@[simp] theorem State.modRing_tiles (k : Nat) (g : Ring → Ring) : (s.modRing k g).tiles = s.tiles := rfl
@[simp] theorem State.modRing_models (k : Nat) (g : Ring → Ring) : (s.modRing k g).models = s.models := rfl
@[simp] theorem State.modRing_mioter (k : Nat) (g : Ring → Ring) : (s.modRing k g).mioter = s.mioter := rfl
@[simp] theorem State.modRing_forager (k : Nat) (g : Ring → Ring) : (s.modRing k g).forager = s.forager := rfl
@[simp] theorem State.modRing_hoard (k : Nat) (g : Ring → Ring) : (s.modRing k g).hoard = s.hoard := rfl
@[simp] theorem State.modRing_hbm (k : Nat) (g : Ring → Ring) : (s.modRing k g).hbm = s.hbm := rfl
@[simp] theorem State.modRing_tables (k : Nat) (g : Ring → Ring) : (s.modRing k g).tables = s.tables := rfl
@[simp] theorem State.modRing_upds (k : Nat) (g : Ring → Ring) : (s.modRing k g).upds = s.upds := rfl
@[simp] theorem State.modRing_wsw (k : Nat) (g : Ring → Ring) : (s.modRing k g).wsw = s.wsw := rfl
@[simp] theorem State.modRing_msw (k : Nat) (g : Ring → Ring) : (s.modRing k g).msw = s.msw := rfl
@[simp] theorem State.modRing_cp (k : Nat) (g : Ring → Ring) : (s.modRing k g).cp = s.cp := rfl
@[simp] theorem State.modRing_fab (k : Nat) (g : Ring → Ring) : (s.modRing k g).fab = s.fab := rfl
@[simp] theorem State.modRing_ports (k : Nat) (g : Ring → Ring) : (s.modRing k g).ports = s.ports := rfl
@[simp] theorem State.modRing_pwr (k : Nat) (g : Ring → Ring) : (s.modRing k g).pwr = s.pwr := rfl
@[simp] theorem State.modRing_boot (k : Nat) (g : Ring → Ring) : (s.modRing k g).boot = s.boot := rfl
@[simp] theorem State.modRing_ser (k : Nat) (g : Ring → Ring) : (s.modRing k g).ser = s.ser := rfl
@[simp] theorem State.modRing_tim (k : Nat) (g : Ring → Ring) : (s.modRing k g).tim = s.tim := rfl
@[simp] theorem State.modRing_ldg (k : Nat) (g : Ring → Ring) : (s.modRing k g).ldg = s.ldg := rfl
@[simp] theorem State.modRing_tag (k : Nat) (g : Ring → Ring) : (s.modRing k g).tag = s.tag := rfl
@[simp] theorem State.modRing_err (k : Nat) (g : Ring → Ring) : (s.modRing k g).err = s.err := rfl
@[simp] theorem State.modRing_tap (k : Nat) (g : Ring → Ring) : (s.modRing k g).tap = s.tap := rfl
@[simp] theorem State.modRing_fn (k : Nat) (g : Ring → Ring) (j : Nat) : (s.modRing k g).fn j = s.fn j := rfl
@[simp] theorem State.modRing_den (k : Nat) (g : Ring → Ring) (j : Nat) : (s.modRing k g).den j = s.den j := rfl
@[simp] theorem State.modRing_tile (k : Nat) (g : Ring → Ring) (j : Nat) : (s.modRing k g).tile j = s.tile j := rfl
@[simp] theorem State.modRing_table (k : Nat) (g : Ring → Ring) (j : Nat) : (s.modRing k g).table j = s.table j := rfl
@[simp] theorem State.modRing_quad (k : Nat) (g : Ring → Ring) (j : Nat) : (s.modRing k g).quad j = s.quad j := rfl
@[simp] theorem State.modRing_cfgEntry (k : Nat) (g : Ring → Ring) (j : Nat) : (s.modRing k g).cfgEntry j = s.cfgEntry j := rfl
@[simp] theorem State.modRing_port (k : Nat) (g : Ring → Ring) (j : Nat) : (s.modRing k g).port j = s.port j := rfl
@[simp] theorem State.modRing_stack (k : Nat) (g : Ring → Ring) (j : Nat) : (s.modRing k g).stack j = s.stack j := rfl
@[simp] theorem State.modRing_tmr (k : Nat) (g : Ring → Ring) (j : Nat) : (s.modRing k g).tmr j = s.tmr j := rfl
@[simp] theorem State.modRing_way (k : Nat) (g : Ring → Ring) (j : Nat) : (s.modRing k g).way j = s.way j := rfl
@[simp] theorem State.modRing_hub (k : Nat) (g : Ring → Ring) : (s.modRing k g).hub = s.hub := rfl

/-! ### `State.modDen` -/

@[simp] theorem State.modDen_den (d : Nat) (g : Den → Den) (n : Nat) : (s.modDen d g).den n = if n = d then g (s.den d) else s.den n :=
  mget_mset _ _ _ _ _
@[simp] theorem State.modDen_pending (d : Nat) (g : Den → Den) : (s.modDen d g).pending = s.pending := rfl
@[simp] theorem State.modDen_out (d : Nat) (g : Den → Den) : (s.modDen d g).out = s.out := rfl
@[simp] theorem State.modDen_freeCtr (d : Nat) (g : Den → Den) : (s.modDen d g).freeCtr = s.freeCtr := rfl
@[simp] theorem State.modDen_wtime (d : Nat) (g : Den → Den) : (s.modDen d g).wtime = s.wtime := rfl
@[simp] theorem State.modDen_pcie (d : Nat) (g : Den → Den) : (s.modDen d g).pcie = s.pcie := rfl
@[simp] theorem State.modDen_lastDen (d : Nat) (g : Den → Den) : (s.modDen d g).lastDen = s.lastDen := rfl
@[simp] theorem State.modDen_reqs (d : Nat) (g : Den → Den) : (s.modDen d g).reqs = s.reqs := rfl
@[simp] theorem State.modDen_reqSeq (d : Nat) (g : Den → Den) : (s.modDen d g).reqSeq = s.reqSeq := rfl
@[simp] theorem State.modDen_tiles (d : Nat) (g : Den → Den) : (s.modDen d g).tiles = s.tiles := rfl
@[simp] theorem State.modDen_models (d : Nat) (g : Den → Den) : (s.modDen d g).models = s.models := rfl
@[simp] theorem State.modDen_mioter (d : Nat) (g : Den → Den) : (s.modDen d g).mioter = s.mioter := rfl
@[simp] theorem State.modDen_forager (d : Nat) (g : Den → Den) : (s.modDen d g).forager = s.forager := rfl
@[simp] theorem State.modDen_hoard (d : Nat) (g : Den → Den) : (s.modDen d g).hoard = s.hoard := rfl
@[simp] theorem State.modDen_hbm (d : Nat) (g : Den → Den) : (s.modDen d g).hbm = s.hbm := rfl
@[simp] theorem State.modDen_tables (d : Nat) (g : Den → Den) : (s.modDen d g).tables = s.tables := rfl
@[simp] theorem State.modDen_upds (d : Nat) (g : Den → Den) : (s.modDen d g).upds = s.upds := rfl
@[simp] theorem State.modDen_wsw (d : Nat) (g : Den → Den) : (s.modDen d g).wsw = s.wsw := rfl
@[simp] theorem State.modDen_msw (d : Nat) (g : Den → Den) : (s.modDen d g).msw = s.msw := rfl
@[simp] theorem State.modDen_cp (d : Nat) (g : Den → Den) : (s.modDen d g).cp = s.cp := rfl
@[simp] theorem State.modDen_fab (d : Nat) (g : Den → Den) : (s.modDen d g).fab = s.fab := rfl
@[simp] theorem State.modDen_ports (d : Nat) (g : Den → Den) : (s.modDen d g).ports = s.ports := rfl
@[simp] theorem State.modDen_pwr (d : Nat) (g : Den → Den) : (s.modDen d g).pwr = s.pwr := rfl
@[simp] theorem State.modDen_boot (d : Nat) (g : Den → Den) : (s.modDen d g).boot = s.boot := rfl
@[simp] theorem State.modDen_ser (d : Nat) (g : Den → Den) : (s.modDen d g).ser = s.ser := rfl
@[simp] theorem State.modDen_tim (d : Nat) (g : Den → Den) : (s.modDen d g).tim = s.tim := rfl
@[simp] theorem State.modDen_ldg (d : Nat) (g : Den → Den) : (s.modDen d g).ldg = s.ldg := rfl
@[simp] theorem State.modDen_tag (d : Nat) (g : Den → Den) : (s.modDen d g).tag = s.tag := rfl
@[simp] theorem State.modDen_err (d : Nat) (g : Den → Den) : (s.modDen d g).err = s.err := rfl
@[simp] theorem State.modDen_tap (d : Nat) (g : Den → Den) : (s.modDen d g).tap = s.tap := rfl
@[simp] theorem State.modDen_fn (d : Nat) (g : Den → Den) (j : Nat) : (s.modDen d g).fn j = s.fn j := rfl
@[simp] theorem State.modDen_ring (d : Nat) (g : Den → Den) (j : Nat) : (s.modDen d g).ring j = s.ring j := rfl
@[simp] theorem State.modDen_tile (d : Nat) (g : Den → Den) (j : Nat) : (s.modDen d g).tile j = s.tile j := rfl
@[simp] theorem State.modDen_table (d : Nat) (g : Den → Den) (j : Nat) : (s.modDen d g).table j = s.table j := rfl
@[simp] theorem State.modDen_quad (d : Nat) (g : Den → Den) (j : Nat) : (s.modDen d g).quad j = s.quad j := rfl
@[simp] theorem State.modDen_cfgEntry (d : Nat) (g : Den → Den) (j : Nat) : (s.modDen d g).cfgEntry j = s.cfgEntry j := rfl
@[simp] theorem State.modDen_port (d : Nat) (g : Den → Den) (j : Nat) : (s.modDen d g).port j = s.port j := rfl
@[simp] theorem State.modDen_stack (d : Nat) (g : Den → Den) (j : Nat) : (s.modDen d g).stack j = s.stack j := rfl
@[simp] theorem State.modDen_tmr (d : Nat) (g : Den → Den) (j : Nat) : (s.modDen d g).tmr j = s.tmr j := rfl
@[simp] theorem State.modDen_way (d : Nat) (g : Den → Den) (j : Nat) : (s.modDen d g).way j = s.way j := rfl
@[simp] theorem State.modDen_hub (d : Nat) (g : Den → Den) : (s.modDen d g).hub = s.hub := rfl

/-! ### `State.modTile` -/

@[simp] theorem State.modTile_tile (t : Nat) (g : Tile → Tile) (n : Nat) : (s.modTile t g).tile n = if n = t then g (s.tile t) else s.tile n :=
  mget_mset _ _ _ _ _
@[simp] theorem State.modTile_pending (t : Nat) (g : Tile → Tile) : (s.modTile t g).pending = s.pending := rfl
@[simp] theorem State.modTile_out (t : Nat) (g : Tile → Tile) : (s.modTile t g).out = s.out := rfl
@[simp] theorem State.modTile_freeCtr (t : Nat) (g : Tile → Tile) : (s.modTile t g).freeCtr = s.freeCtr := rfl
@[simp] theorem State.modTile_wtime (t : Nat) (g : Tile → Tile) : (s.modTile t g).wtime = s.wtime := rfl
@[simp] theorem State.modTile_pcie (t : Nat) (g : Tile → Tile) : (s.modTile t g).pcie = s.pcie := rfl
@[simp] theorem State.modTile_dens (t : Nat) (g : Tile → Tile) : (s.modTile t g).dens = s.dens := rfl
@[simp] theorem State.modTile_lastDen (t : Nat) (g : Tile → Tile) : (s.modTile t g).lastDen = s.lastDen := rfl
@[simp] theorem State.modTile_reqs (t : Nat) (g : Tile → Tile) : (s.modTile t g).reqs = s.reqs := rfl
@[simp] theorem State.modTile_reqSeq (t : Nat) (g : Tile → Tile) : (s.modTile t g).reqSeq = s.reqSeq := rfl
@[simp] theorem State.modTile_models (t : Nat) (g : Tile → Tile) : (s.modTile t g).models = s.models := rfl
@[simp] theorem State.modTile_mioter (t : Nat) (g : Tile → Tile) : (s.modTile t g).mioter = s.mioter := rfl
@[simp] theorem State.modTile_forager (t : Nat) (g : Tile → Tile) : (s.modTile t g).forager = s.forager := rfl
@[simp] theorem State.modTile_hoard (t : Nat) (g : Tile → Tile) : (s.modTile t g).hoard = s.hoard := rfl
@[simp] theorem State.modTile_hbm (t : Nat) (g : Tile → Tile) : (s.modTile t g).hbm = s.hbm := rfl
@[simp] theorem State.modTile_tables (t : Nat) (g : Tile → Tile) : (s.modTile t g).tables = s.tables := rfl
@[simp] theorem State.modTile_upds (t : Nat) (g : Tile → Tile) : (s.modTile t g).upds = s.upds := rfl
@[simp] theorem State.modTile_wsw (t : Nat) (g : Tile → Tile) : (s.modTile t g).wsw = s.wsw := rfl
@[simp] theorem State.modTile_msw (t : Nat) (g : Tile → Tile) : (s.modTile t g).msw = s.msw := rfl
@[simp] theorem State.modTile_cp (t : Nat) (g : Tile → Tile) : (s.modTile t g).cp = s.cp := rfl
@[simp] theorem State.modTile_fab (t : Nat) (g : Tile → Tile) : (s.modTile t g).fab = s.fab := rfl
@[simp] theorem State.modTile_ports (t : Nat) (g : Tile → Tile) : (s.modTile t g).ports = s.ports := rfl
@[simp] theorem State.modTile_pwr (t : Nat) (g : Tile → Tile) : (s.modTile t g).pwr = s.pwr := rfl
@[simp] theorem State.modTile_boot (t : Nat) (g : Tile → Tile) : (s.modTile t g).boot = s.boot := rfl
@[simp] theorem State.modTile_ser (t : Nat) (g : Tile → Tile) : (s.modTile t g).ser = s.ser := rfl
@[simp] theorem State.modTile_tim (t : Nat) (g : Tile → Tile) : (s.modTile t g).tim = s.tim := rfl
@[simp] theorem State.modTile_ldg (t : Nat) (g : Tile → Tile) : (s.modTile t g).ldg = s.ldg := rfl
@[simp] theorem State.modTile_tag (t : Nat) (g : Tile → Tile) : (s.modTile t g).tag = s.tag := rfl
@[simp] theorem State.modTile_err (t : Nat) (g : Tile → Tile) : (s.modTile t g).err = s.err := rfl
@[simp] theorem State.modTile_tap (t : Nat) (g : Tile → Tile) : (s.modTile t g).tap = s.tap := rfl
@[simp] theorem State.modTile_fn (t : Nat) (g : Tile → Tile) (j : Nat) : (s.modTile t g).fn j = s.fn j := rfl
@[simp] theorem State.modTile_ring (t : Nat) (g : Tile → Tile) (j : Nat) : (s.modTile t g).ring j = s.ring j := rfl
@[simp] theorem State.modTile_den (t : Nat) (g : Tile → Tile) (j : Nat) : (s.modTile t g).den j = s.den j := rfl
@[simp] theorem State.modTile_table (t : Nat) (g : Tile → Tile) (j : Nat) : (s.modTile t g).table j = s.table j := rfl
@[simp] theorem State.modTile_quad (t : Nat) (g : Tile → Tile) (j : Nat) : (s.modTile t g).quad j = s.quad j := rfl
@[simp] theorem State.modTile_cfgEntry (t : Nat) (g : Tile → Tile) (j : Nat) : (s.modTile t g).cfgEntry j = s.cfgEntry j := rfl
@[simp] theorem State.modTile_port (t : Nat) (g : Tile → Tile) (j : Nat) : (s.modTile t g).port j = s.port j := rfl
@[simp] theorem State.modTile_stack (t : Nat) (g : Tile → Tile) (j : Nat) : (s.modTile t g).stack j = s.stack j := rfl
@[simp] theorem State.modTile_tmr (t : Nat) (g : Tile → Tile) (j : Nat) : (s.modTile t g).tmr j = s.tmr j := rfl
@[simp] theorem State.modTile_way (t : Nat) (g : Tile → Tile) (j : Nat) : (s.modTile t g).way j = s.way j := rfl
@[simp] theorem State.modTile_hub (t : Nat) (g : Tile → Tile) : (s.modTile t g).hub = s.hub := rfl

/-! ### `State.modTable` -/

@[simp] theorem State.modTable_table (t : Nat) (g : Table → Table) (n : Nat) : (s.modTable t g).table n = if n = t then g (s.table t) else s.table n :=
  mget_mset _ _ _ _ _
@[simp] theorem State.modTable_pending (t : Nat) (g : Table → Table) : (s.modTable t g).pending = s.pending := rfl
@[simp] theorem State.modTable_out (t : Nat) (g : Table → Table) : (s.modTable t g).out = s.out := rfl
@[simp] theorem State.modTable_freeCtr (t : Nat) (g : Table → Table) : (s.modTable t g).freeCtr = s.freeCtr := rfl
@[simp] theorem State.modTable_wtime (t : Nat) (g : Table → Table) : (s.modTable t g).wtime = s.wtime := rfl
@[simp] theorem State.modTable_pcie (t : Nat) (g : Table → Table) : (s.modTable t g).pcie = s.pcie := rfl
@[simp] theorem State.modTable_dens (t : Nat) (g : Table → Table) : (s.modTable t g).dens = s.dens := rfl
@[simp] theorem State.modTable_lastDen (t : Nat) (g : Table → Table) : (s.modTable t g).lastDen = s.lastDen := rfl
@[simp] theorem State.modTable_reqs (t : Nat) (g : Table → Table) : (s.modTable t g).reqs = s.reqs := rfl
@[simp] theorem State.modTable_reqSeq (t : Nat) (g : Table → Table) : (s.modTable t g).reqSeq = s.reqSeq := rfl
@[simp] theorem State.modTable_tiles (t : Nat) (g : Table → Table) : (s.modTable t g).tiles = s.tiles := rfl
@[simp] theorem State.modTable_models (t : Nat) (g : Table → Table) : (s.modTable t g).models = s.models := rfl
@[simp] theorem State.modTable_mioter (t : Nat) (g : Table → Table) : (s.modTable t g).mioter = s.mioter := rfl
@[simp] theorem State.modTable_forager (t : Nat) (g : Table → Table) : (s.modTable t g).forager = s.forager := rfl
@[simp] theorem State.modTable_hoard (t : Nat) (g : Table → Table) : (s.modTable t g).hoard = s.hoard := rfl
@[simp] theorem State.modTable_hbm (t : Nat) (g : Table → Table) : (s.modTable t g).hbm = s.hbm := rfl
@[simp] theorem State.modTable_upds (t : Nat) (g : Table → Table) : (s.modTable t g).upds = s.upds := rfl
@[simp] theorem State.modTable_wsw (t : Nat) (g : Table → Table) : (s.modTable t g).wsw = s.wsw := rfl
@[simp] theorem State.modTable_msw (t : Nat) (g : Table → Table) : (s.modTable t g).msw = s.msw := rfl
@[simp] theorem State.modTable_cp (t : Nat) (g : Table → Table) : (s.modTable t g).cp = s.cp := rfl
@[simp] theorem State.modTable_fab (t : Nat) (g : Table → Table) : (s.modTable t g).fab = s.fab := rfl
@[simp] theorem State.modTable_ports (t : Nat) (g : Table → Table) : (s.modTable t g).ports = s.ports := rfl
@[simp] theorem State.modTable_pwr (t : Nat) (g : Table → Table) : (s.modTable t g).pwr = s.pwr := rfl
@[simp] theorem State.modTable_boot (t : Nat) (g : Table → Table) : (s.modTable t g).boot = s.boot := rfl
@[simp] theorem State.modTable_ser (t : Nat) (g : Table → Table) : (s.modTable t g).ser = s.ser := rfl
@[simp] theorem State.modTable_tim (t : Nat) (g : Table → Table) : (s.modTable t g).tim = s.tim := rfl
@[simp] theorem State.modTable_ldg (t : Nat) (g : Table → Table) : (s.modTable t g).ldg = s.ldg := rfl
@[simp] theorem State.modTable_tag (t : Nat) (g : Table → Table) : (s.modTable t g).tag = s.tag := rfl
@[simp] theorem State.modTable_err (t : Nat) (g : Table → Table) : (s.modTable t g).err = s.err := rfl
@[simp] theorem State.modTable_tap (t : Nat) (g : Table → Table) : (s.modTable t g).tap = s.tap := rfl
@[simp] theorem State.modTable_fn (t : Nat) (g : Table → Table) (j : Nat) : (s.modTable t g).fn j = s.fn j := rfl
@[simp] theorem State.modTable_ring (t : Nat) (g : Table → Table) (j : Nat) : (s.modTable t g).ring j = s.ring j := rfl
@[simp] theorem State.modTable_den (t : Nat) (g : Table → Table) (j : Nat) : (s.modTable t g).den j = s.den j := rfl
@[simp] theorem State.modTable_tile (t : Nat) (g : Table → Table) (j : Nat) : (s.modTable t g).tile j = s.tile j := rfl
@[simp] theorem State.modTable_quad (t : Nat) (g : Table → Table) (j : Nat) : (s.modTable t g).quad j = s.quad j := rfl
@[simp] theorem State.modTable_cfgEntry (t : Nat) (g : Table → Table) (j : Nat) : (s.modTable t g).cfgEntry j = s.cfgEntry j := rfl
@[simp] theorem State.modTable_port (t : Nat) (g : Table → Table) (j : Nat) : (s.modTable t g).port j = s.port j := rfl
@[simp] theorem State.modTable_stack (t : Nat) (g : Table → Table) (j : Nat) : (s.modTable t g).stack j = s.stack j := rfl
@[simp] theorem State.modTable_tmr (t : Nat) (g : Table → Table) (j : Nat) : (s.modTable t g).tmr j = s.tmr j := rfl
@[simp] theorem State.modTable_way (t : Nat) (g : Table → Table) (j : Nat) : (s.modTable t g).way j = s.way j := rfl
@[simp] theorem State.modTable_hub (t : Nat) (g : Table → Table) : (s.modTable t g).hub = s.hub := rfl

/-! ### `State.modQuad` -/

@[simp] theorem State.modQuad_quad (q : Nat) (g : Quad → Quad) (n : Nat) : (s.modQuad q g).quad n = if n = q then g (s.quad q) else s.quad n :=
  mget_mset _ _ _ _ _
@[simp] theorem State.modQuad_pending (q : Nat) (g : Quad → Quad) : (s.modQuad q g).pending = s.pending := rfl
@[simp] theorem State.modQuad_out (q : Nat) (g : Quad → Quad) : (s.modQuad q g).out = s.out := rfl
@[simp] theorem State.modQuad_freeCtr (q : Nat) (g : Quad → Quad) : (s.modQuad q g).freeCtr = s.freeCtr := rfl
@[simp] theorem State.modQuad_wtime (q : Nat) (g : Quad → Quad) : (s.modQuad q g).wtime = s.wtime := rfl
@[simp] theorem State.modQuad_pcie (q : Nat) (g : Quad → Quad) : (s.modQuad q g).pcie = s.pcie := rfl
@[simp] theorem State.modQuad_dens (q : Nat) (g : Quad → Quad) : (s.modQuad q g).dens = s.dens := rfl
@[simp] theorem State.modQuad_lastDen (q : Nat) (g : Quad → Quad) : (s.modQuad q g).lastDen = s.lastDen := rfl
@[simp] theorem State.modQuad_reqs (q : Nat) (g : Quad → Quad) : (s.modQuad q g).reqs = s.reqs := rfl
@[simp] theorem State.modQuad_reqSeq (q : Nat) (g : Quad → Quad) : (s.modQuad q g).reqSeq = s.reqSeq := rfl
@[simp] theorem State.modQuad_tiles (q : Nat) (g : Quad → Quad) : (s.modQuad q g).tiles = s.tiles := rfl
@[simp] theorem State.modQuad_models (q : Nat) (g : Quad → Quad) : (s.modQuad q g).models = s.models := rfl
@[simp] theorem State.modQuad_forager (q : Nat) (g : Quad → Quad) : (s.modQuad q g).forager = s.forager := rfl
@[simp] theorem State.modQuad_hoard (q : Nat) (g : Quad → Quad) : (s.modQuad q g).hoard = s.hoard := rfl
@[simp] theorem State.modQuad_hbm (q : Nat) (g : Quad → Quad) : (s.modQuad q g).hbm = s.hbm := rfl
@[simp] theorem State.modQuad_tables (q : Nat) (g : Quad → Quad) : (s.modQuad q g).tables = s.tables := rfl
@[simp] theorem State.modQuad_upds (q : Nat) (g : Quad → Quad) : (s.modQuad q g).upds = s.upds := rfl
@[simp] theorem State.modQuad_wsw (q : Nat) (g : Quad → Quad) : (s.modQuad q g).wsw = s.wsw := rfl
@[simp] theorem State.modQuad_msw (q : Nat) (g : Quad → Quad) : (s.modQuad q g).msw = s.msw := rfl
@[simp] theorem State.modQuad_cp (q : Nat) (g : Quad → Quad) : (s.modQuad q g).cp = s.cp := rfl
@[simp] theorem State.modQuad_fab (q : Nat) (g : Quad → Quad) : (s.modQuad q g).fab = s.fab := rfl
@[simp] theorem State.modQuad_ports (q : Nat) (g : Quad → Quad) : (s.modQuad q g).ports = s.ports := rfl
@[simp] theorem State.modQuad_pwr (q : Nat) (g : Quad → Quad) : (s.modQuad q g).pwr = s.pwr := rfl
@[simp] theorem State.modQuad_boot (q : Nat) (g : Quad → Quad) : (s.modQuad q g).boot = s.boot := rfl
@[simp] theorem State.modQuad_ser (q : Nat) (g : Quad → Quad) : (s.modQuad q g).ser = s.ser := rfl
@[simp] theorem State.modQuad_tim (q : Nat) (g : Quad → Quad) : (s.modQuad q g).tim = s.tim := rfl
@[simp] theorem State.modQuad_ldg (q : Nat) (g : Quad → Quad) : (s.modQuad q g).ldg = s.ldg := rfl
@[simp] theorem State.modQuad_tag (q : Nat) (g : Quad → Quad) : (s.modQuad q g).tag = s.tag := rfl
@[simp] theorem State.modQuad_err (q : Nat) (g : Quad → Quad) : (s.modQuad q g).err = s.err := rfl
@[simp] theorem State.modQuad_tap (q : Nat) (g : Quad → Quad) : (s.modQuad q g).tap = s.tap := rfl
@[simp] theorem State.modQuad_fn (q : Nat) (g : Quad → Quad) (j : Nat) : (s.modQuad q g).fn j = s.fn j := rfl
@[simp] theorem State.modQuad_ring (q : Nat) (g : Quad → Quad) (j : Nat) : (s.modQuad q g).ring j = s.ring j := rfl
@[simp] theorem State.modQuad_den (q : Nat) (g : Quad → Quad) (j : Nat) : (s.modQuad q g).den j = s.den j := rfl
@[simp] theorem State.modQuad_tile (q : Nat) (g : Quad → Quad) (j : Nat) : (s.modQuad q g).tile j = s.tile j := rfl
@[simp] theorem State.modQuad_table (q : Nat) (g : Quad → Quad) (j : Nat) : (s.modQuad q g).table j = s.table j := rfl
@[simp] theorem State.modQuad_cfgEntry (q : Nat) (g : Quad → Quad) (j : Nat) : (s.modQuad q g).cfgEntry j = s.cfgEntry j := rfl
@[simp] theorem State.modQuad_port (q : Nat) (g : Quad → Quad) (j : Nat) : (s.modQuad q g).port j = s.port j := rfl
@[simp] theorem State.modQuad_stack (q : Nat) (g : Quad → Quad) (j : Nat) : (s.modQuad q g).stack j = s.stack j := rfl
@[simp] theorem State.modQuad_tmr (q : Nat) (g : Quad → Quad) (j : Nat) : (s.modQuad q g).tmr j = s.tmr j := rfl
@[simp] theorem State.modQuad_way (q : Nat) (g : Quad → Quad) (j : Nat) : (s.modQuad q g).way j = s.way j := rfl
@[simp] theorem State.modQuad_hub (q : Nat) (g : Quad → Quad) : (s.modQuad q g).hub = s.hub := rfl

/-! ### `State.modEntry` -/

@[simp] theorem State.modEntry_cfgEntry (e : Nat) (g : CfgEntry → CfgEntry) (n : Nat) : (s.modEntry e g).cfgEntry n = if n = e then g (s.cfgEntry e) else s.cfgEntry n :=
  mget_mset _ _ _ _ _
@[simp] theorem State.modEntry_pending (e : Nat) (g : CfgEntry → CfgEntry) : (s.modEntry e g).pending = s.pending := rfl
@[simp] theorem State.modEntry_out (e : Nat) (g : CfgEntry → CfgEntry) : (s.modEntry e g).out = s.out := rfl
@[simp] theorem State.modEntry_freeCtr (e : Nat) (g : CfgEntry → CfgEntry) : (s.modEntry e g).freeCtr = s.freeCtr := rfl
@[simp] theorem State.modEntry_wtime (e : Nat) (g : CfgEntry → CfgEntry) : (s.modEntry e g).wtime = s.wtime := rfl
@[simp] theorem State.modEntry_pcie (e : Nat) (g : CfgEntry → CfgEntry) : (s.modEntry e g).pcie = s.pcie := rfl
@[simp] theorem State.modEntry_dens (e : Nat) (g : CfgEntry → CfgEntry) : (s.modEntry e g).dens = s.dens := rfl
@[simp] theorem State.modEntry_lastDen (e : Nat) (g : CfgEntry → CfgEntry) : (s.modEntry e g).lastDen = s.lastDen := rfl
@[simp] theorem State.modEntry_reqs (e : Nat) (g : CfgEntry → CfgEntry) : (s.modEntry e g).reqs = s.reqs := rfl
@[simp] theorem State.modEntry_reqSeq (e : Nat) (g : CfgEntry → CfgEntry) : (s.modEntry e g).reqSeq = s.reqSeq := rfl
@[simp] theorem State.modEntry_tiles (e : Nat) (g : CfgEntry → CfgEntry) : (s.modEntry e g).tiles = s.tiles := rfl
@[simp] theorem State.modEntry_models (e : Nat) (g : CfgEntry → CfgEntry) : (s.modEntry e g).models = s.models := rfl
@[simp] theorem State.modEntry_forager (e : Nat) (g : CfgEntry → CfgEntry) : (s.modEntry e g).forager = s.forager := rfl
@[simp] theorem State.modEntry_hoard (e : Nat) (g : CfgEntry → CfgEntry) : (s.modEntry e g).hoard = s.hoard := rfl
@[simp] theorem State.modEntry_hbm (e : Nat) (g : CfgEntry → CfgEntry) : (s.modEntry e g).hbm = s.hbm := rfl
@[simp] theorem State.modEntry_tables (e : Nat) (g : CfgEntry → CfgEntry) : (s.modEntry e g).tables = s.tables := rfl
@[simp] theorem State.modEntry_upds (e : Nat) (g : CfgEntry → CfgEntry) : (s.modEntry e g).upds = s.upds := rfl
@[simp] theorem State.modEntry_wsw (e : Nat) (g : CfgEntry → CfgEntry) : (s.modEntry e g).wsw = s.wsw := rfl
@[simp] theorem State.modEntry_msw (e : Nat) (g : CfgEntry → CfgEntry) : (s.modEntry e g).msw = s.msw := rfl
@[simp] theorem State.modEntry_cp (e : Nat) (g : CfgEntry → CfgEntry) : (s.modEntry e g).cp = s.cp := rfl
@[simp] theorem State.modEntry_fab (e : Nat) (g : CfgEntry → CfgEntry) : (s.modEntry e g).fab = s.fab := rfl
@[simp] theorem State.modEntry_ports (e : Nat) (g : CfgEntry → CfgEntry) : (s.modEntry e g).ports = s.ports := rfl
@[simp] theorem State.modEntry_pwr (e : Nat) (g : CfgEntry → CfgEntry) : (s.modEntry e g).pwr = s.pwr := rfl
@[simp] theorem State.modEntry_boot (e : Nat) (g : CfgEntry → CfgEntry) : (s.modEntry e g).boot = s.boot := rfl
@[simp] theorem State.modEntry_ser (e : Nat) (g : CfgEntry → CfgEntry) : (s.modEntry e g).ser = s.ser := rfl
@[simp] theorem State.modEntry_tim (e : Nat) (g : CfgEntry → CfgEntry) : (s.modEntry e g).tim = s.tim := rfl
@[simp] theorem State.modEntry_ldg (e : Nat) (g : CfgEntry → CfgEntry) : (s.modEntry e g).ldg = s.ldg := rfl
@[simp] theorem State.modEntry_tag (e : Nat) (g : CfgEntry → CfgEntry) : (s.modEntry e g).tag = s.tag := rfl
@[simp] theorem State.modEntry_err (e : Nat) (g : CfgEntry → CfgEntry) : (s.modEntry e g).err = s.err := rfl
@[simp] theorem State.modEntry_tap (e : Nat) (g : CfgEntry → CfgEntry) : (s.modEntry e g).tap = s.tap := rfl
@[simp] theorem State.modEntry_fn (e : Nat) (g : CfgEntry → CfgEntry) (j : Nat) : (s.modEntry e g).fn j = s.fn j := rfl
@[simp] theorem State.modEntry_ring (e : Nat) (g : CfgEntry → CfgEntry) (j : Nat) : (s.modEntry e g).ring j = s.ring j := rfl
@[simp] theorem State.modEntry_den (e : Nat) (g : CfgEntry → CfgEntry) (j : Nat) : (s.modEntry e g).den j = s.den j := rfl
@[simp] theorem State.modEntry_tile (e : Nat) (g : CfgEntry → CfgEntry) (j : Nat) : (s.modEntry e g).tile j = s.tile j := rfl
@[simp] theorem State.modEntry_table (e : Nat) (g : CfgEntry → CfgEntry) (j : Nat) : (s.modEntry e g).table j = s.table j := rfl
@[simp] theorem State.modEntry_quad (e : Nat) (g : CfgEntry → CfgEntry) (j : Nat) : (s.modEntry e g).quad j = s.quad j := rfl
@[simp] theorem State.modEntry_port (e : Nat) (g : CfgEntry → CfgEntry) (j : Nat) : (s.modEntry e g).port j = s.port j := rfl
@[simp] theorem State.modEntry_stack (e : Nat) (g : CfgEntry → CfgEntry) (j : Nat) : (s.modEntry e g).stack j = s.stack j := rfl
@[simp] theorem State.modEntry_tmr (e : Nat) (g : CfgEntry → CfgEntry) (j : Nat) : (s.modEntry e g).tmr j = s.tmr j := rfl
@[simp] theorem State.modEntry_way (e : Nat) (g : CfgEntry → CfgEntry) (j : Nat) : (s.modEntry e g).way j = s.way j := rfl
@[simp] theorem State.modEntry_hub (e : Nat) (g : CfgEntry → CfgEntry) : (s.modEntry e g).hub = s.hub := rfl

/-! ### `State.modPort` -/

@[simp] theorem State.modPort_port (p : Nat) (g : Port → Port) (n : Nat) : (s.modPort p g).port n = if n = p then g (s.port p) else s.port n :=
  mget_mset _ _ _ _ _
@[simp] theorem State.modPort_pending (p : Nat) (g : Port → Port) : (s.modPort p g).pending = s.pending := rfl
@[simp] theorem State.modPort_out (p : Nat) (g : Port → Port) : (s.modPort p g).out = s.out := rfl
@[simp] theorem State.modPort_freeCtr (p : Nat) (g : Port → Port) : (s.modPort p g).freeCtr = s.freeCtr := rfl
@[simp] theorem State.modPort_wtime (p : Nat) (g : Port → Port) : (s.modPort p g).wtime = s.wtime := rfl
@[simp] theorem State.modPort_pcie (p : Nat) (g : Port → Port) : (s.modPort p g).pcie = s.pcie := rfl
@[simp] theorem State.modPort_dens (p : Nat) (g : Port → Port) : (s.modPort p g).dens = s.dens := rfl
@[simp] theorem State.modPort_lastDen (p : Nat) (g : Port → Port) : (s.modPort p g).lastDen = s.lastDen := rfl
@[simp] theorem State.modPort_reqs (p : Nat) (g : Port → Port) : (s.modPort p g).reqs = s.reqs := rfl
@[simp] theorem State.modPort_reqSeq (p : Nat) (g : Port → Port) : (s.modPort p g).reqSeq = s.reqSeq := rfl
@[simp] theorem State.modPort_tiles (p : Nat) (g : Port → Port) : (s.modPort p g).tiles = s.tiles := rfl
@[simp] theorem State.modPort_models (p : Nat) (g : Port → Port) : (s.modPort p g).models = s.models := rfl
@[simp] theorem State.modPort_mioter (p : Nat) (g : Port → Port) : (s.modPort p g).mioter = s.mioter := rfl
@[simp] theorem State.modPort_forager (p : Nat) (g : Port → Port) : (s.modPort p g).forager = s.forager := rfl
@[simp] theorem State.modPort_hoard (p : Nat) (g : Port → Port) : (s.modPort p g).hoard = s.hoard := rfl
@[simp] theorem State.modPort_hbm (p : Nat) (g : Port → Port) : (s.modPort p g).hbm = s.hbm := rfl
@[simp] theorem State.modPort_tables (p : Nat) (g : Port → Port) : (s.modPort p g).tables = s.tables := rfl
@[simp] theorem State.modPort_upds (p : Nat) (g : Port → Port) : (s.modPort p g).upds = s.upds := rfl
@[simp] theorem State.modPort_wsw (p : Nat) (g : Port → Port) : (s.modPort p g).wsw = s.wsw := rfl
@[simp] theorem State.modPort_msw (p : Nat) (g : Port → Port) : (s.modPort p g).msw = s.msw := rfl
@[simp] theorem State.modPort_cp (p : Nat) (g : Port → Port) : (s.modPort p g).cp = s.cp := rfl
@[simp] theorem State.modPort_fab (p : Nat) (g : Port → Port) : (s.modPort p g).fab = s.fab := rfl
@[simp] theorem State.modPort_pwr (p : Nat) (g : Port → Port) : (s.modPort p g).pwr = s.pwr := rfl
@[simp] theorem State.modPort_boot (p : Nat) (g : Port → Port) : (s.modPort p g).boot = s.boot := rfl
@[simp] theorem State.modPort_ser (p : Nat) (g : Port → Port) : (s.modPort p g).ser = s.ser := rfl
@[simp] theorem State.modPort_tim (p : Nat) (g : Port → Port) : (s.modPort p g).tim = s.tim := rfl
@[simp] theorem State.modPort_ldg (p : Nat) (g : Port → Port) : (s.modPort p g).ldg = s.ldg := rfl
@[simp] theorem State.modPort_tag (p : Nat) (g : Port → Port) : (s.modPort p g).tag = s.tag := rfl
@[simp] theorem State.modPort_err (p : Nat) (g : Port → Port) : (s.modPort p g).err = s.err := rfl
@[simp] theorem State.modPort_tap (p : Nat) (g : Port → Port) : (s.modPort p g).tap = s.tap := rfl
@[simp] theorem State.modPort_fn (p : Nat) (g : Port → Port) (j : Nat) : (s.modPort p g).fn j = s.fn j := rfl
@[simp] theorem State.modPort_ring (p : Nat) (g : Port → Port) (j : Nat) : (s.modPort p g).ring j = s.ring j := rfl
@[simp] theorem State.modPort_den (p : Nat) (g : Port → Port) (j : Nat) : (s.modPort p g).den j = s.den j := rfl
@[simp] theorem State.modPort_tile (p : Nat) (g : Port → Port) (j : Nat) : (s.modPort p g).tile j = s.tile j := rfl
@[simp] theorem State.modPort_table (p : Nat) (g : Port → Port) (j : Nat) : (s.modPort p g).table j = s.table j := rfl
@[simp] theorem State.modPort_quad (p : Nat) (g : Port → Port) (j : Nat) : (s.modPort p g).quad j = s.quad j := rfl
@[simp] theorem State.modPort_cfgEntry (p : Nat) (g : Port → Port) (j : Nat) : (s.modPort p g).cfgEntry j = s.cfgEntry j := rfl
@[simp] theorem State.modPort_stack (p : Nat) (g : Port → Port) (j : Nat) : (s.modPort p g).stack j = s.stack j := rfl
@[simp] theorem State.modPort_tmr (p : Nat) (g : Port → Port) (j : Nat) : (s.modPort p g).tmr j = s.tmr j := rfl
@[simp] theorem State.modPort_way (p : Nat) (g : Port → Port) (j : Nat) : (s.modPort p g).way j = s.way j := rfl
@[simp] theorem State.modPort_hub (p : Nat) (g : Port → Port) : (s.modPort p g).hub = s.hub := rfl

/-! ### `State.modStack` -/

@[simp] theorem State.modStack_stack (m : Nat) (g : HbmStack → HbmStack) (n : Nat) : (s.modStack m g).stack n = if n = m then g (s.stack m) else s.stack n :=
  mget_mset _ _ _ _ _
@[simp] theorem State.modStack_pending (n : Nat) (g : HbmStack → HbmStack) : (s.modStack n g).pending = s.pending := rfl
@[simp] theorem State.modStack_out (n : Nat) (g : HbmStack → HbmStack) : (s.modStack n g).out = s.out := rfl
@[simp] theorem State.modStack_freeCtr (n : Nat) (g : HbmStack → HbmStack) : (s.modStack n g).freeCtr = s.freeCtr := rfl
@[simp] theorem State.modStack_wtime (n : Nat) (g : HbmStack → HbmStack) : (s.modStack n g).wtime = s.wtime := rfl
@[simp] theorem State.modStack_pcie (n : Nat) (g : HbmStack → HbmStack) : (s.modStack n g).pcie = s.pcie := rfl
@[simp] theorem State.modStack_dens (n : Nat) (g : HbmStack → HbmStack) : (s.modStack n g).dens = s.dens := rfl
@[simp] theorem State.modStack_lastDen (n : Nat) (g : HbmStack → HbmStack) : (s.modStack n g).lastDen = s.lastDen := rfl
@[simp] theorem State.modStack_reqs (n : Nat) (g : HbmStack → HbmStack) : (s.modStack n g).reqs = s.reqs := rfl
@[simp] theorem State.modStack_reqSeq (n : Nat) (g : HbmStack → HbmStack) : (s.modStack n g).reqSeq = s.reqSeq := rfl
@[simp] theorem State.modStack_tiles (n : Nat) (g : HbmStack → HbmStack) : (s.modStack n g).tiles = s.tiles := rfl
@[simp] theorem State.modStack_models (n : Nat) (g : HbmStack → HbmStack) : (s.modStack n g).models = s.models := rfl
@[simp] theorem State.modStack_mioter (n : Nat) (g : HbmStack → HbmStack) : (s.modStack n g).mioter = s.mioter := rfl
@[simp] theorem State.modStack_forager (n : Nat) (g : HbmStack → HbmStack) : (s.modStack n g).forager = s.forager := rfl
@[simp] theorem State.modStack_hoard (n : Nat) (g : HbmStack → HbmStack) : (s.modStack n g).hoard = s.hoard := rfl
@[simp] theorem State.modStack_tables (n : Nat) (g : HbmStack → HbmStack) : (s.modStack n g).tables = s.tables := rfl
@[simp] theorem State.modStack_upds (n : Nat) (g : HbmStack → HbmStack) : (s.modStack n g).upds = s.upds := rfl
@[simp] theorem State.modStack_wsw (n : Nat) (g : HbmStack → HbmStack) : (s.modStack n g).wsw = s.wsw := rfl
@[simp] theorem State.modStack_msw (n : Nat) (g : HbmStack → HbmStack) : (s.modStack n g).msw = s.msw := rfl
@[simp] theorem State.modStack_cp (n : Nat) (g : HbmStack → HbmStack) : (s.modStack n g).cp = s.cp := rfl
@[simp] theorem State.modStack_fab (n : Nat) (g : HbmStack → HbmStack) : (s.modStack n g).fab = s.fab := rfl
@[simp] theorem State.modStack_ports (n : Nat) (g : HbmStack → HbmStack) : (s.modStack n g).ports = s.ports := rfl
@[simp] theorem State.modStack_pwr (n : Nat) (g : HbmStack → HbmStack) : (s.modStack n g).pwr = s.pwr := rfl
@[simp] theorem State.modStack_boot (n : Nat) (g : HbmStack → HbmStack) : (s.modStack n g).boot = s.boot := rfl
@[simp] theorem State.modStack_ser (n : Nat) (g : HbmStack → HbmStack) : (s.modStack n g).ser = s.ser := rfl
@[simp] theorem State.modStack_tim (n : Nat) (g : HbmStack → HbmStack) : (s.modStack n g).tim = s.tim := rfl
@[simp] theorem State.modStack_ldg (n : Nat) (g : HbmStack → HbmStack) : (s.modStack n g).ldg = s.ldg := rfl
@[simp] theorem State.modStack_tag (n : Nat) (g : HbmStack → HbmStack) : (s.modStack n g).tag = s.tag := rfl
@[simp] theorem State.modStack_err (n : Nat) (g : HbmStack → HbmStack) : (s.modStack n g).err = s.err := rfl
@[simp] theorem State.modStack_tap (n : Nat) (g : HbmStack → HbmStack) : (s.modStack n g).tap = s.tap := rfl
@[simp] theorem State.modStack_fn (n : Nat) (g : HbmStack → HbmStack) (j : Nat) : (s.modStack n g).fn j = s.fn j := rfl
@[simp] theorem State.modStack_ring (n : Nat) (g : HbmStack → HbmStack) (j : Nat) : (s.modStack n g).ring j = s.ring j := rfl
@[simp] theorem State.modStack_den (n : Nat) (g : HbmStack → HbmStack) (j : Nat) : (s.modStack n g).den j = s.den j := rfl
@[simp] theorem State.modStack_tile (n : Nat) (g : HbmStack → HbmStack) (j : Nat) : (s.modStack n g).tile j = s.tile j := rfl
@[simp] theorem State.modStack_table (n : Nat) (g : HbmStack → HbmStack) (j : Nat) : (s.modStack n g).table j = s.table j := rfl
@[simp] theorem State.modStack_quad (n : Nat) (g : HbmStack → HbmStack) (j : Nat) : (s.modStack n g).quad j = s.quad j := rfl
@[simp] theorem State.modStack_cfgEntry (n : Nat) (g : HbmStack → HbmStack) (j : Nat) : (s.modStack n g).cfgEntry j = s.cfgEntry j := rfl
@[simp] theorem State.modStack_port (n : Nat) (g : HbmStack → HbmStack) (j : Nat) : (s.modStack n g).port j = s.port j := rfl
@[simp] theorem State.modStack_tmr (n : Nat) (g : HbmStack → HbmStack) (j : Nat) : (s.modStack n g).tmr j = s.tmr j := rfl
@[simp] theorem State.modStack_way (n : Nat) (g : HbmStack → HbmStack) (j : Nat) : (s.modStack n g).way j = s.way j := rfl
@[simp] theorem State.modStack_hub (n : Nat) (g : HbmStack → HbmStack) : (s.modStack n g).hub = s.hub := rfl

/-! ### `State.modTmr` -/

@[simp] theorem State.modTmr_tmr (m : Nat) (g : Tmr → Tmr) (n : Nat) : (s.modTmr m g).tmr n = if n = m then g (s.tmr m) else s.tmr n :=
  mget_mset _ _ _ _ _
@[simp] theorem State.modTmr_pending (n : Nat) (g : Tmr → Tmr) : (s.modTmr n g).pending = s.pending := rfl
@[simp] theorem State.modTmr_out (n : Nat) (g : Tmr → Tmr) : (s.modTmr n g).out = s.out := rfl
@[simp] theorem State.modTmr_freeCtr (n : Nat) (g : Tmr → Tmr) : (s.modTmr n g).freeCtr = s.freeCtr := rfl
@[simp] theorem State.modTmr_wtime (n : Nat) (g : Tmr → Tmr) : (s.modTmr n g).wtime = s.wtime := rfl
@[simp] theorem State.modTmr_pcie (n : Nat) (g : Tmr → Tmr) : (s.modTmr n g).pcie = s.pcie := rfl
@[simp] theorem State.modTmr_dens (n : Nat) (g : Tmr → Tmr) : (s.modTmr n g).dens = s.dens := rfl
@[simp] theorem State.modTmr_lastDen (n : Nat) (g : Tmr → Tmr) : (s.modTmr n g).lastDen = s.lastDen := rfl
@[simp] theorem State.modTmr_reqs (n : Nat) (g : Tmr → Tmr) : (s.modTmr n g).reqs = s.reqs := rfl
@[simp] theorem State.modTmr_reqSeq (n : Nat) (g : Tmr → Tmr) : (s.modTmr n g).reqSeq = s.reqSeq := rfl
@[simp] theorem State.modTmr_tiles (n : Nat) (g : Tmr → Tmr) : (s.modTmr n g).tiles = s.tiles := rfl
@[simp] theorem State.modTmr_models (n : Nat) (g : Tmr → Tmr) : (s.modTmr n g).models = s.models := rfl
@[simp] theorem State.modTmr_mioter (n : Nat) (g : Tmr → Tmr) : (s.modTmr n g).mioter = s.mioter := rfl
@[simp] theorem State.modTmr_forager (n : Nat) (g : Tmr → Tmr) : (s.modTmr n g).forager = s.forager := rfl
@[simp] theorem State.modTmr_hoard (n : Nat) (g : Tmr → Tmr) : (s.modTmr n g).hoard = s.hoard := rfl
@[simp] theorem State.modTmr_hbm (n : Nat) (g : Tmr → Tmr) : (s.modTmr n g).hbm = s.hbm := rfl
@[simp] theorem State.modTmr_tables (n : Nat) (g : Tmr → Tmr) : (s.modTmr n g).tables = s.tables := rfl
@[simp] theorem State.modTmr_upds (n : Nat) (g : Tmr → Tmr) : (s.modTmr n g).upds = s.upds := rfl
@[simp] theorem State.modTmr_wsw (n : Nat) (g : Tmr → Tmr) : (s.modTmr n g).wsw = s.wsw := rfl
@[simp] theorem State.modTmr_msw (n : Nat) (g : Tmr → Tmr) : (s.modTmr n g).msw = s.msw := rfl
@[simp] theorem State.modTmr_cp (n : Nat) (g : Tmr → Tmr) : (s.modTmr n g).cp = s.cp := rfl
@[simp] theorem State.modTmr_fab (n : Nat) (g : Tmr → Tmr) : (s.modTmr n g).fab = s.fab := rfl
@[simp] theorem State.modTmr_ports (n : Nat) (g : Tmr → Tmr) : (s.modTmr n g).ports = s.ports := rfl
@[simp] theorem State.modTmr_pwr (n : Nat) (g : Tmr → Tmr) : (s.modTmr n g).pwr = s.pwr := rfl
@[simp] theorem State.modTmr_boot (n : Nat) (g : Tmr → Tmr) : (s.modTmr n g).boot = s.boot := rfl
@[simp] theorem State.modTmr_ser (n : Nat) (g : Tmr → Tmr) : (s.modTmr n g).ser = s.ser := rfl
@[simp] theorem State.modTmr_ldg (n : Nat) (g : Tmr → Tmr) : (s.modTmr n g).ldg = s.ldg := rfl
@[simp] theorem State.modTmr_tag (n : Nat) (g : Tmr → Tmr) : (s.modTmr n g).tag = s.tag := rfl
@[simp] theorem State.modTmr_err (n : Nat) (g : Tmr → Tmr) : (s.modTmr n g).err = s.err := rfl
@[simp] theorem State.modTmr_tap (n : Nat) (g : Tmr → Tmr) : (s.modTmr n g).tap = s.tap := rfl
@[simp] theorem State.modTmr_fn (n : Nat) (g : Tmr → Tmr) (j : Nat) : (s.modTmr n g).fn j = s.fn j := rfl
@[simp] theorem State.modTmr_ring (n : Nat) (g : Tmr → Tmr) (j : Nat) : (s.modTmr n g).ring j = s.ring j := rfl
@[simp] theorem State.modTmr_den (n : Nat) (g : Tmr → Tmr) (j : Nat) : (s.modTmr n g).den j = s.den j := rfl
@[simp] theorem State.modTmr_tile (n : Nat) (g : Tmr → Tmr) (j : Nat) : (s.modTmr n g).tile j = s.tile j := rfl
@[simp] theorem State.modTmr_table (n : Nat) (g : Tmr → Tmr) (j : Nat) : (s.modTmr n g).table j = s.table j := rfl
@[simp] theorem State.modTmr_quad (n : Nat) (g : Tmr → Tmr) (j : Nat) : (s.modTmr n g).quad j = s.quad j := rfl
@[simp] theorem State.modTmr_cfgEntry (n : Nat) (g : Tmr → Tmr) (j : Nat) : (s.modTmr n g).cfgEntry j = s.cfgEntry j := rfl
@[simp] theorem State.modTmr_port (n : Nat) (g : Tmr → Tmr) (j : Nat) : (s.modTmr n g).port j = s.port j := rfl
@[simp] theorem State.modTmr_stack (n : Nat) (g : Tmr → Tmr) (j : Nat) : (s.modTmr n g).stack j = s.stack j := rfl
@[simp] theorem State.modTmr_way (n : Nat) (g : Tmr → Tmr) (j : Nat) : (s.modTmr n g).way j = s.way j := rfl
@[simp] theorem State.modTmr_hub (n : Nat) (g : Tmr → Tmr) : (s.modTmr n g).hub = s.hub := rfl

/-! ### `State.modWay` -/

@[simp] theorem State.modWay_way (w : Nat) (g : Way → Way) (n : Nat) : (s.modWay w g).way n = if n = w then g (s.way w) else s.way n :=
  mget_mset _ _ _ _ _
@[simp] theorem State.modWay_pending (w : Nat) (g : Way → Way) : (s.modWay w g).pending = s.pending := rfl
@[simp] theorem State.modWay_out (w : Nat) (g : Way → Way) : (s.modWay w g).out = s.out := rfl
@[simp] theorem State.modWay_freeCtr (w : Nat) (g : Way → Way) : (s.modWay w g).freeCtr = s.freeCtr := rfl
@[simp] theorem State.modWay_wtime (w : Nat) (g : Way → Way) : (s.modWay w g).wtime = s.wtime := rfl
@[simp] theorem State.modWay_pcie (w : Nat) (g : Way → Way) : (s.modWay w g).pcie = s.pcie := rfl
@[simp] theorem State.modWay_dens (w : Nat) (g : Way → Way) : (s.modWay w g).dens = s.dens := rfl
@[simp] theorem State.modWay_lastDen (w : Nat) (g : Way → Way) : (s.modWay w g).lastDen = s.lastDen := rfl
@[simp] theorem State.modWay_reqs (w : Nat) (g : Way → Way) : (s.modWay w g).reqs = s.reqs := rfl
@[simp] theorem State.modWay_reqSeq (w : Nat) (g : Way → Way) : (s.modWay w g).reqSeq = s.reqSeq := rfl
@[simp] theorem State.modWay_tiles (w : Nat) (g : Way → Way) : (s.modWay w g).tiles = s.tiles := rfl
@[simp] theorem State.modWay_models (w : Nat) (g : Way → Way) : (s.modWay w g).models = s.models := rfl
@[simp] theorem State.modWay_mioter (w : Nat) (g : Way → Way) : (s.modWay w g).mioter = s.mioter := rfl
@[simp] theorem State.modWay_forager (w : Nat) (g : Way → Way) : (s.modWay w g).forager = s.forager := rfl
@[simp] theorem State.modWay_hbm (w : Nat) (g : Way → Way) : (s.modWay w g).hbm = s.hbm := rfl
@[simp] theorem State.modWay_tables (w : Nat) (g : Way → Way) : (s.modWay w g).tables = s.tables := rfl
@[simp] theorem State.modWay_upds (w : Nat) (g : Way → Way) : (s.modWay w g).upds = s.upds := rfl
@[simp] theorem State.modWay_wsw (w : Nat) (g : Way → Way) : (s.modWay w g).wsw = s.wsw := rfl
@[simp] theorem State.modWay_msw (w : Nat) (g : Way → Way) : (s.modWay w g).msw = s.msw := rfl
@[simp] theorem State.modWay_cp (w : Nat) (g : Way → Way) : (s.modWay w g).cp = s.cp := rfl
@[simp] theorem State.modWay_fab (w : Nat) (g : Way → Way) : (s.modWay w g).fab = s.fab := rfl
@[simp] theorem State.modWay_ports (w : Nat) (g : Way → Way) : (s.modWay w g).ports = s.ports := rfl
@[simp] theorem State.modWay_pwr (w : Nat) (g : Way → Way) : (s.modWay w g).pwr = s.pwr := rfl
@[simp] theorem State.modWay_boot (w : Nat) (g : Way → Way) : (s.modWay w g).boot = s.boot := rfl
@[simp] theorem State.modWay_ser (w : Nat) (g : Way → Way) : (s.modWay w g).ser = s.ser := rfl
@[simp] theorem State.modWay_tim (w : Nat) (g : Way → Way) : (s.modWay w g).tim = s.tim := rfl
@[simp] theorem State.modWay_ldg (w : Nat) (g : Way → Way) : (s.modWay w g).ldg = s.ldg := rfl
@[simp] theorem State.modWay_tag (w : Nat) (g : Way → Way) : (s.modWay w g).tag = s.tag := rfl
@[simp] theorem State.modWay_err (w : Nat) (g : Way → Way) : (s.modWay w g).err = s.err := rfl
@[simp] theorem State.modWay_tap (w : Nat) (g : Way → Way) : (s.modWay w g).tap = s.tap := rfl
@[simp] theorem State.modWay_fn (w : Nat) (g : Way → Way) (j : Nat) : (s.modWay w g).fn j = s.fn j := rfl
@[simp] theorem State.modWay_ring (w : Nat) (g : Way → Way) (j : Nat) : (s.modWay w g).ring j = s.ring j := rfl
@[simp] theorem State.modWay_den (w : Nat) (g : Way → Way) (j : Nat) : (s.modWay w g).den j = s.den j := rfl
@[simp] theorem State.modWay_tile (w : Nat) (g : Way → Way) (j : Nat) : (s.modWay w g).tile j = s.tile j := rfl
@[simp] theorem State.modWay_table (w : Nat) (g : Way → Way) (j : Nat) : (s.modWay w g).table j = s.table j := rfl
@[simp] theorem State.modWay_quad (w : Nat) (g : Way → Way) (j : Nat) : (s.modWay w g).quad j = s.quad j := rfl
@[simp] theorem State.modWay_cfgEntry (w : Nat) (g : Way → Way) (j : Nat) : (s.modWay w g).cfgEntry j = s.cfgEntry j := rfl
@[simp] theorem State.modWay_port (w : Nat) (g : Way → Way) (j : Nat) : (s.modWay w g).port j = s.port j := rfl
@[simp] theorem State.modWay_stack (w : Nat) (g : Way → Way) (j : Nat) : (s.modWay w g).stack j = s.stack j := rfl
@[simp] theorem State.modWay_tmr (w : Nat) (g : Way → Way) (j : Nat) : (s.modWay w g).tmr j = s.tmr j := rfl
@[simp] theorem State.modWay_hub (w : Nat) (g : Way → Way) : (s.modWay w g).hub = s.hub := rfl

/-! ### `State.modReq` -/

@[simp] theorem State.modReq_pending (i : Nat) (g : Req → Req) : (s.modReq i g).pending = s.pending := rfl
@[simp] theorem State.modReq_out (i : Nat) (g : Req → Req) : (s.modReq i g).out = s.out := rfl
@[simp] theorem State.modReq_freeCtr (i : Nat) (g : Req → Req) : (s.modReq i g).freeCtr = s.freeCtr := rfl
@[simp] theorem State.modReq_wtime (i : Nat) (g : Req → Req) : (s.modReq i g).wtime = s.wtime := rfl
@[simp] theorem State.modReq_pcie (i : Nat) (g : Req → Req) : (s.modReq i g).pcie = s.pcie := rfl
@[simp] theorem State.modReq_dens (i : Nat) (g : Req → Req) : (s.modReq i g).dens = s.dens := rfl
@[simp] theorem State.modReq_lastDen (i : Nat) (g : Req → Req) : (s.modReq i g).lastDen = s.lastDen := rfl
@[simp] theorem State.modReq_reqSeq (i : Nat) (g : Req → Req) : (s.modReq i g).reqSeq = s.reqSeq := rfl
@[simp] theorem State.modReq_tiles (i : Nat) (g : Req → Req) : (s.modReq i g).tiles = s.tiles := rfl
@[simp] theorem State.modReq_models (i : Nat) (g : Req → Req) : (s.modReq i g).models = s.models := rfl
@[simp] theorem State.modReq_mioter (i : Nat) (g : Req → Req) : (s.modReq i g).mioter = s.mioter := rfl
@[simp] theorem State.modReq_forager (i : Nat) (g : Req → Req) : (s.modReq i g).forager = s.forager := rfl
@[simp] theorem State.modReq_hoard (i : Nat) (g : Req → Req) : (s.modReq i g).hoard = s.hoard := rfl
@[simp] theorem State.modReq_hbm (i : Nat) (g : Req → Req) : (s.modReq i g).hbm = s.hbm := rfl
@[simp] theorem State.modReq_tables (i : Nat) (g : Req → Req) : (s.modReq i g).tables = s.tables := rfl
@[simp] theorem State.modReq_upds (i : Nat) (g : Req → Req) : (s.modReq i g).upds = s.upds := rfl
@[simp] theorem State.modReq_wsw (i : Nat) (g : Req → Req) : (s.modReq i g).wsw = s.wsw := rfl
@[simp] theorem State.modReq_msw (i : Nat) (g : Req → Req) : (s.modReq i g).msw = s.msw := rfl
@[simp] theorem State.modReq_cp (i : Nat) (g : Req → Req) : (s.modReq i g).cp = s.cp := rfl
@[simp] theorem State.modReq_fab (i : Nat) (g : Req → Req) : (s.modReq i g).fab = s.fab := rfl
@[simp] theorem State.modReq_ports (i : Nat) (g : Req → Req) : (s.modReq i g).ports = s.ports := rfl
@[simp] theorem State.modReq_pwr (i : Nat) (g : Req → Req) : (s.modReq i g).pwr = s.pwr := rfl
@[simp] theorem State.modReq_boot (i : Nat) (g : Req → Req) : (s.modReq i g).boot = s.boot := rfl
@[simp] theorem State.modReq_ser (i : Nat) (g : Req → Req) : (s.modReq i g).ser = s.ser := rfl
@[simp] theorem State.modReq_tim (i : Nat) (g : Req → Req) : (s.modReq i g).tim = s.tim := rfl
@[simp] theorem State.modReq_ldg (i : Nat) (g : Req → Req) : (s.modReq i g).ldg = s.ldg := rfl
@[simp] theorem State.modReq_tag (i : Nat) (g : Req → Req) : (s.modReq i g).tag = s.tag := rfl
@[simp] theorem State.modReq_err (i : Nat) (g : Req → Req) : (s.modReq i g).err = s.err := rfl
@[simp] theorem State.modReq_tap (i : Nat) (g : Req → Req) : (s.modReq i g).tap = s.tap := rfl
@[simp] theorem State.modReq_fn (i : Nat) (g : Req → Req) (j : Nat) : (s.modReq i g).fn j = s.fn j := rfl
@[simp] theorem State.modReq_ring (i : Nat) (g : Req → Req) (j : Nat) : (s.modReq i g).ring j = s.ring j := rfl
@[simp] theorem State.modReq_den (i : Nat) (g : Req → Req) (j : Nat) : (s.modReq i g).den j = s.den j := rfl
@[simp] theorem State.modReq_tile (i : Nat) (g : Req → Req) (j : Nat) : (s.modReq i g).tile j = s.tile j := rfl
@[simp] theorem State.modReq_table (i : Nat) (g : Req → Req) (j : Nat) : (s.modReq i g).table j = s.table j := rfl
@[simp] theorem State.modReq_quad (i : Nat) (g : Req → Req) (j : Nat) : (s.modReq i g).quad j = s.quad j := rfl
@[simp] theorem State.modReq_cfgEntry (i : Nat) (g : Req → Req) (j : Nat) : (s.modReq i g).cfgEntry j = s.cfgEntry j := rfl
@[simp] theorem State.modReq_port (i : Nat) (g : Req → Req) (j : Nat) : (s.modReq i g).port j = s.port j := rfl
@[simp] theorem State.modReq_stack (i : Nat) (g : Req → Req) (j : Nat) : (s.modReq i g).stack j = s.stack j := rfl
@[simp] theorem State.modReq_tmr (i : Nat) (g : Req → Req) (j : Nat) : (s.modReq i g).tmr j = s.tmr j := rfl
@[simp] theorem State.modReq_way (i : Nat) (g : Req → Req) (j : Nat) : (s.modReq i g).way j = s.way j := rfl
@[simp] theorem State.modReq_hub (i : Nat) (g : Req → Req) : (s.modReq i g).hub = s.hub := rfl

/-! ### `State.modCmd` -/

@[simp] theorem State.modCmd_pending (i : Nat) (g : Cmd → Cmd) : (s.modCmd i g).pending = s.pending := rfl
@[simp] theorem State.modCmd_out (i : Nat) (g : Cmd → Cmd) : (s.modCmd i g).out = s.out := rfl
@[simp] theorem State.modCmd_freeCtr (i : Nat) (g : Cmd → Cmd) : (s.modCmd i g).freeCtr = s.freeCtr := rfl
@[simp] theorem State.modCmd_wtime (i : Nat) (g : Cmd → Cmd) : (s.modCmd i g).wtime = s.wtime := rfl
@[simp] theorem State.modCmd_pcie (i : Nat) (g : Cmd → Cmd) : (s.modCmd i g).pcie = s.pcie := rfl
@[simp] theorem State.modCmd_dens (i : Nat) (g : Cmd → Cmd) : (s.modCmd i g).dens = s.dens := rfl
@[simp] theorem State.modCmd_lastDen (i : Nat) (g : Cmd → Cmd) : (s.modCmd i g).lastDen = s.lastDen := rfl
@[simp] theorem State.modCmd_reqs (i : Nat) (g : Cmd → Cmd) : (s.modCmd i g).reqs = s.reqs := rfl
@[simp] theorem State.modCmd_reqSeq (i : Nat) (g : Cmd → Cmd) : (s.modCmd i g).reqSeq = s.reqSeq := rfl
@[simp] theorem State.modCmd_tiles (i : Nat) (g : Cmd → Cmd) : (s.modCmd i g).tiles = s.tiles := rfl
@[simp] theorem State.modCmd_models (i : Nat) (g : Cmd → Cmd) : (s.modCmd i g).models = s.models := rfl
@[simp] theorem State.modCmd_mioter (i : Nat) (g : Cmd → Cmd) : (s.modCmd i g).mioter = s.mioter := rfl
@[simp] theorem State.modCmd_forager (i : Nat) (g : Cmd → Cmd) : (s.modCmd i g).forager = s.forager := rfl
@[simp] theorem State.modCmd_hoard (i : Nat) (g : Cmd → Cmd) : (s.modCmd i g).hoard = s.hoard := rfl
@[simp] theorem State.modCmd_hbm (i : Nat) (g : Cmd → Cmd) : (s.modCmd i g).hbm = s.hbm := rfl
@[simp] theorem State.modCmd_tables (i : Nat) (g : Cmd → Cmd) : (s.modCmd i g).tables = s.tables := rfl
@[simp] theorem State.modCmd_upds (i : Nat) (g : Cmd → Cmd) : (s.modCmd i g).upds = s.upds := rfl
@[simp] theorem State.modCmd_wsw (i : Nat) (g : Cmd → Cmd) : (s.modCmd i g).wsw = s.wsw := rfl
@[simp] theorem State.modCmd_msw (i : Nat) (g : Cmd → Cmd) : (s.modCmd i g).msw = s.msw := rfl
@[simp] theorem State.modCmd_fab (i : Nat) (g : Cmd → Cmd) : (s.modCmd i g).fab = s.fab := rfl
@[simp] theorem State.modCmd_ports (i : Nat) (g : Cmd → Cmd) : (s.modCmd i g).ports = s.ports := rfl
@[simp] theorem State.modCmd_pwr (i : Nat) (g : Cmd → Cmd) : (s.modCmd i g).pwr = s.pwr := rfl
@[simp] theorem State.modCmd_boot (i : Nat) (g : Cmd → Cmd) : (s.modCmd i g).boot = s.boot := rfl
@[simp] theorem State.modCmd_ser (i : Nat) (g : Cmd → Cmd) : (s.modCmd i g).ser = s.ser := rfl
@[simp] theorem State.modCmd_tim (i : Nat) (g : Cmd → Cmd) : (s.modCmd i g).tim = s.tim := rfl
@[simp] theorem State.modCmd_ldg (i : Nat) (g : Cmd → Cmd) : (s.modCmd i g).ldg = s.ldg := rfl
@[simp] theorem State.modCmd_tag (i : Nat) (g : Cmd → Cmd) : (s.modCmd i g).tag = s.tag := rfl
@[simp] theorem State.modCmd_err (i : Nat) (g : Cmd → Cmd) : (s.modCmd i g).err = s.err := rfl
@[simp] theorem State.modCmd_tap (i : Nat) (g : Cmd → Cmd) : (s.modCmd i g).tap = s.tap := rfl
@[simp] theorem State.modCmd_fn (i : Nat) (g : Cmd → Cmd) (j : Nat) : (s.modCmd i g).fn j = s.fn j := rfl
@[simp] theorem State.modCmd_ring (i : Nat) (g : Cmd → Cmd) (j : Nat) : (s.modCmd i g).ring j = s.ring j := rfl
@[simp] theorem State.modCmd_den (i : Nat) (g : Cmd → Cmd) (j : Nat) : (s.modCmd i g).den j = s.den j := rfl
@[simp] theorem State.modCmd_tile (i : Nat) (g : Cmd → Cmd) (j : Nat) : (s.modCmd i g).tile j = s.tile j := rfl
@[simp] theorem State.modCmd_table (i : Nat) (g : Cmd → Cmd) (j : Nat) : (s.modCmd i g).table j = s.table j := rfl
@[simp] theorem State.modCmd_quad (i : Nat) (g : Cmd → Cmd) (j : Nat) : (s.modCmd i g).quad j = s.quad j := rfl
@[simp] theorem State.modCmd_cfgEntry (i : Nat) (g : Cmd → Cmd) (j : Nat) : (s.modCmd i g).cfgEntry j = s.cfgEntry j := rfl
@[simp] theorem State.modCmd_port (i : Nat) (g : Cmd → Cmd) (j : Nat) : (s.modCmd i g).port j = s.port j := rfl
@[simp] theorem State.modCmd_stack (i : Nat) (g : Cmd → Cmd) (j : Nat) : (s.modCmd i g).stack j = s.stack j := rfl
@[simp] theorem State.modCmd_tmr (i : Nat) (g : Cmd → Cmd) (j : Nat) : (s.modCmd i g).tmr j = s.tmr j := rfl
@[simp] theorem State.modCmd_way (i : Nat) (g : Cmd → Cmd) (j : Nat) : (s.modCmd i g).way j = s.way j := rfl
@[simp] theorem State.modCmd_hub (i : Nat) (g : Cmd → Cmd) : (s.modCmd i g).hub = s.hub := rfl

/-! ### `State.emit` -/

@[simp] theorem State.emit_pending (o : Out) : (s.emit o).pending = s.pending := rfl
@[simp] theorem State.emit_freeCtr (o : Out) : (s.emit o).freeCtr = s.freeCtr := rfl
@[simp] theorem State.emit_wtime (o : Out) : (s.emit o).wtime = s.wtime := rfl
@[simp] theorem State.emit_pcie (o : Out) : (s.emit o).pcie = s.pcie := rfl
@[simp] theorem State.emit_dens (o : Out) : (s.emit o).dens = s.dens := rfl
@[simp] theorem State.emit_lastDen (o : Out) : (s.emit o).lastDen = s.lastDen := rfl
@[simp] theorem State.emit_reqs (o : Out) : (s.emit o).reqs = s.reqs := rfl
@[simp] theorem State.emit_reqSeq (o : Out) : (s.emit o).reqSeq = s.reqSeq := rfl
@[simp] theorem State.emit_tiles (o : Out) : (s.emit o).tiles = s.tiles := rfl
@[simp] theorem State.emit_models (o : Out) : (s.emit o).models = s.models := rfl
@[simp] theorem State.emit_mioter (o : Out) : (s.emit o).mioter = s.mioter := rfl
@[simp] theorem State.emit_forager (o : Out) : (s.emit o).forager = s.forager := rfl
@[simp] theorem State.emit_hoard (o : Out) : (s.emit o).hoard = s.hoard := rfl
@[simp] theorem State.emit_hbm (o : Out) : (s.emit o).hbm = s.hbm := rfl
@[simp] theorem State.emit_tables (o : Out) : (s.emit o).tables = s.tables := rfl
@[simp] theorem State.emit_upds (o : Out) : (s.emit o).upds = s.upds := rfl
@[simp] theorem State.emit_wsw (o : Out) : (s.emit o).wsw = s.wsw := rfl
@[simp] theorem State.emit_msw (o : Out) : (s.emit o).msw = s.msw := rfl
@[simp] theorem State.emit_cp (o : Out) : (s.emit o).cp = s.cp := rfl
@[simp] theorem State.emit_fab (o : Out) : (s.emit o).fab = s.fab := rfl
@[simp] theorem State.emit_ports (o : Out) : (s.emit o).ports = s.ports := rfl
@[simp] theorem State.emit_pwr (o : Out) : (s.emit o).pwr = s.pwr := rfl
@[simp] theorem State.emit_boot (o : Out) : (s.emit o).boot = s.boot := rfl
@[simp] theorem State.emit_ser (o : Out) : (s.emit o).ser = s.ser := rfl
@[simp] theorem State.emit_tim (o : Out) : (s.emit o).tim = s.tim := rfl
@[simp] theorem State.emit_ldg (o : Out) : (s.emit o).ldg = s.ldg := rfl
@[simp] theorem State.emit_tag (o : Out) : (s.emit o).tag = s.tag := rfl
@[simp] theorem State.emit_err (o : Out) : (s.emit o).err = s.err := rfl
@[simp] theorem State.emit_tap (o : Out) : (s.emit o).tap = s.tap := rfl
@[simp] theorem State.emit_fn (o : Out) (j : Nat) : (s.emit o).fn j = s.fn j := rfl
@[simp] theorem State.emit_ring (o : Out) (j : Nat) : (s.emit o).ring j = s.ring j := rfl
@[simp] theorem State.emit_den (o : Out) (j : Nat) : (s.emit o).den j = s.den j := rfl
@[simp] theorem State.emit_tile (o : Out) (j : Nat) : (s.emit o).tile j = s.tile j := rfl
@[simp] theorem State.emit_table (o : Out) (j : Nat) : (s.emit o).table j = s.table j := rfl
@[simp] theorem State.emit_quad (o : Out) (j : Nat) : (s.emit o).quad j = s.quad j := rfl
@[simp] theorem State.emit_cfgEntry (o : Out) (j : Nat) : (s.emit o).cfgEntry j = s.cfgEntry j := rfl
@[simp] theorem State.emit_port (o : Out) (j : Nat) : (s.emit o).port j = s.port j := rfl
@[simp] theorem State.emit_stack (o : Out) (j : Nat) : (s.emit o).stack j = s.stack j := rfl
@[simp] theorem State.emit_tmr (o : Out) (j : Nat) : (s.emit o).tmr j = s.tmr j := rfl
@[simp] theorem State.emit_way (o : Out) (j : Nat) : (s.emit o).way j = s.way j := rfl
@[simp] theorem State.emit_hub (o : Out) : (s.emit o).hub = s.hub := rfl

end Sys2Proof.Machine
end

