-- ==== Sys2Proof/Laws/Command.lean ====
section
/-!
SUPPORT. What the CP does with the packet at the front of a source: it is refused with its reply, or run (15 R482).
-/

namespace Sys2Proof.Machine

/-- A packet that passes checks 1 to 6 is run. -/
theorem State.runCmd_runs {s : State} {r : CmdRow} {c : CmdSrc} {b : Bytes} (h1 : s.cmdPkt c = some b) (h2 : s.takesFrom c = true)
    (h3 : r.mine b = true) (h4 : s.cmdRefusal r c b = none) (f : State → Bytes → State) : s.runCmd r c f = f (s.takeCmd c) b := by
  simp [State.runCmd, h1, h2, h3, h4]

/-- A packet that fails one of them has no effect but its reply. -/
theorem State.runCmd_refuses {s : State} {r : CmdRow} {c : CmdSrc} {b : Bytes} {x : CmdRes} (h1 : s.cmdPkt c = some b)
    (h2 : s.takesFrom c = true) (h3 : r.mine b = true) (h4 : s.cmdRefusal r c b = some x) (f : State → Bytes → State) :
    s.runCmd r c f = (s.takeCmd c).reply c b false x := by
  simp [State.runCmd, h1, h2, h3, h4]

/-- With no packet of the row to take, the state stays as it is. -/
theorem State.runCmd_rests {s : State} {r : CmdRow} {c : CmdSrc} (f : State → Bytes → State)
    (h : s.cmdPkt c = none ∨ s.takesFrom c = false ∨ ∀ b, s.cmdPkt c = some b → r.mine b = false) : s.runCmd r c f = s := by
  unfold State.runCmd
  split
  · rfl
  · rename_i b hb
    rcases h with h | h | h
    · simp [h] at hb
    · simp [h]
    · simp [h b hb]

/-- A command that ends at once: its effect and its reply. -/
theorem State.runCmd_quick {s : State} {r : CmdRow} {c : CmdSrc} {b : Bytes} (g : State → Bytes → CmdRes × State)
    (h1 : s.cmdPkt c = some b) (h2 : s.takesFrom c = true) (h3 : r.mine b = true) (h4 : s.cmdRefusal r c b = none) :
    s.runCmd r c (State.quick c g) = (g (s.takeCmd c) b).2.reply c b false (g (s.takeCmd c) b).1 := by
  rw [State.runCmd_runs h1 h2 h3 h4]
  rfl

end Sys2Proof.Machine
end

