-- ==== Sys2Proof/Laws/Host.lean ====
section
/-!
SUPPORT. Host accesses of a window that serves: neither held nor lost (00 R14, 17 R584).
-/

namespace Sys2Proof.Machine

/-- A window serves only while the hub runs, and a running hub is not asleep. -/
theorem State.winUp_awake {s : State} {f : Nat} (h : s.winUp f = true) : s.asleep = false ∧ s.hub = true := by
  simp only [State.winUp, Bool.and_eq_true] at h
  obtain ⟨⟨_, h⟩, _⟩ := h
  refine ⟨?_, h⟩
  simp only [State.hub, Bool.and_eq_true] at h
  simp only [State.asleep]
  obtain ⟨h1, h2⟩ := h
  cases hs : s.pwr.st <;> simp_all

theorem State.memWrite_serves {s : State} {k : HeldKind} {fn off : Nat} {data : Bytes} {f : State → State} (h : s.winUp fn = true) :
    s.memWrite k fn off data f = f s := by
  simp [State.memWrite, (State.winUp_awake h).1, h]

theorem State.memRead_serves {s : State} {k : HeldKind} {fn off len : Nat} {f : State → State} (h : s.winUp fn = true) :
    s.memRead k fn off len f = f s := by
  simp [State.memRead, (State.winUp_awake h).1, h]

end Sys2Proof.Machine
end

