-- ==== Sys2Proof/Laws/Keeps.lean ====
section
/-!
SUPPORT. What every command keeps, and how the facts about the parts of a meaning are put together: the queue of waiting
commands is left alone, HBM's memory stays canonical, the fuses stay as they are, and NumVFs stays within the 32 VFs.
-/

namespace Sys2Proof.Machine

/-- What every command keeps: the queue `l`, the fuses `z`, a canonical HBM memory, NumVFs within 32. -/
def Keeps (l : List Instr) (z : W64 × Nat) (s : State) : Prop :=
  s.pending = l ∧ memWf s.hbm.data = true ∧ (s.boot.serial, s.boot.fuseWdg) = z ∧ s.pcie.numVfs ≤ 32

/-- `Keeps` of the state in a pair. -/
def KeepsP (l : List Instr) (z : W64 × Nat) {α : Type} (p : α × State) : Prop := Keeps l z p.2

/-- `Keeps` of the state in a triple. -/
def KeepsQ (l : List Instr) (z : W64 × Nat) {α β : Type} (p : α × β × State) : Prop := Keeps l z p.2.2

/-- `Keeps` of a state that may be absent. -/
def KeepsO (l : List Instr) (z : W64 × Nat) (o : Option State) : Prop := ∀ t, o = some t → Keeps l z t

/-- `Keeps` of the state in a pair that may be absent. -/
def KeepsOP (l : List Instr) (z : W64 × Nat) {α : Type} (o : Option (α × State)) : Prop := ∀ t, o = some t → KeepsP l z t

/-- `Keeps` of the state in a triple that may be absent. -/
def KeepsOQ (l : List Instr) (z : W64 × Nat) {α β : Type} (o : Option (α × β × State)) : Prop := ∀ t, o = some t → KeepsQ l z t

/-- `Keeps` of every next state of an outcome. -/
def KeepsR (l : List Instr) (z : W64 × Nat) (o : Host.Outcome State Fault Refusal) : Prop := ∀ t, o = .next t → Keeps l z t

section
variable {ls : List Instr} {zs : W64 × Nat}

/-- A record update that touches none of the kept fields. -/
theorem Keeps.lit {s t : State} (h : Keeps ls zs s) (hp : t.pending = s.pending) (hd : t.hbm.data = s.hbm.data)
    (h1 : t.boot.serial = s.boot.serial) (h2 : t.boot.fuseWdg = s.boot.fuseWdg) (h3 : t.pcie.numVfs = s.pcie.numVfs) :
    Keeps ls zs t := by
  unfold Keeps at *
  rw [hp, hd, h1, h2, h3]
  exact h

/-- A record update of HBM that keeps its memory canonical. -/
theorem Keeps.hbm {s t : State} (h : Keeps ls zs s) (hp : t.pending = s.pending) (hd : memWf t.hbm.data = true)
    (h1 : t.boot.serial = s.boot.serial) (h2 : t.boot.fuseWdg = s.boot.fuseWdg) (h3 : t.pcie.numVfs = s.pcie.numVfs) :
    Keeps ls zs t := by
  unfold Keeps at *
  rw [hp, h1, h2, h3]
  exact ⟨h.1, hd, h.2.2⟩

/-- A record update of the PCIe registers that leaves NumVFs within 32. -/
theorem Keeps.pcie {s t : State} (h : Keeps ls zs s) (hp : t.pending = s.pending) (hd : t.hbm.data = s.hbm.data)
    (h1 : t.boot.serial = s.boot.serial) (h2 : t.boot.fuseWdg = s.boot.fuseWdg) (h3 : t.pcie.numVfs ≤ 32) : Keeps ls zs t := by
  unfold Keeps at *
  rw [hp, hd, h1, h2]
  exact ⟨h.1, h.2.1, h.2.2.1, h3⟩

theorem Keeps.ite {c : Prop} [Decidable c] {a b : State} (ha : c → Keeps ls zs a) (hb : ¬c → Keeps ls zs b) :
    Keeps ls zs (if c then a else b) := by
  by_cases h : c
  · rw [if_pos h]; exact ha h
  · rw [if_neg h]; exact hb h

theorem KeepsP.ite {α : Type} {c : Prop} [Decidable c] {a b : α × State} (ha : c → KeepsP ls zs a) (hb : ¬c → KeepsP ls zs b) :
    KeepsP ls zs (if c then a else b) := by
  by_cases h : c
  · rw [if_pos h]; exact ha h
  · rw [if_neg h]; exact hb h

theorem KeepsQ.ite {α β : Type} {c : Prop} [Decidable c] {a b : α × β × State} (ha : c → KeepsQ ls zs a) (hb : ¬c → KeepsQ ls zs b) :
    KeepsQ ls zs (if c then a else b) := by
  by_cases h : c
  · rw [if_pos h]; exact ha h
  · rw [if_neg h]; exact hb h

theorem KeepsO.ite {c : Prop} [Decidable c] {a b : Option State} (ha : c → KeepsO ls zs a) (hb : ¬c → KeepsO ls zs b) :
    KeepsO ls zs (if c then a else b) := by
  by_cases h : c
  · rw [if_pos h]; exact ha h
  · rw [if_neg h]; exact hb h

theorem KeepsOP.ite {α : Type} {c : Prop} [Decidable c] {a b : Option (α × State)} (ha : c → KeepsOP ls zs a) (hb : ¬c → KeepsOP ls zs b) :
    KeepsOP ls zs (if c then a else b) := by
  by_cases h : c
  · rw [if_pos h]; exact ha h
  · rw [if_neg h]; exact hb h

theorem KeepsOQ.ite {α β : Type} {c : Prop} [Decidable c] {a b : Option (α × β × State)} (ha : c → KeepsOQ ls zs a) (hb : ¬c → KeepsOQ ls zs b) :
    KeepsOQ ls zs (if c then a else b) := by
  by_cases h : c
  · rw [if_pos h]; exact ha h
  · rw [if_neg h]; exact hb h

theorem KeepsR.ite {c : Prop} [Decidable c] {a b : Host.Outcome State Fault Refusal} (ha : c → KeepsR ls zs a) (hb : ¬c → KeepsR ls zs b) :
    KeepsR ls zs (if c then a else b) := by
  by_cases h : c
  · rw [if_pos h]; exact ha h
  · rw [if_neg h]; exact hb h

theorem Keeps.foldl {γ : Type} {f : State → γ → State} (hf : ∀ s x, Keeps ls zs s → Keeps ls zs (f s x)) (xs : List γ)
    (s : State) (h : Keeps ls zs s) : Keeps ls zs (xs.foldl f s) := by
  induction xs generalizing s with
  | nil => exact h
  | cons x xs ih => exact ih _ (hf _ _ h)

theorem KeepsP.foldl {α : Type} {γ : Type} {f : α × State → γ → α × State} (hf : ∀ s x, KeepsP ls zs s → KeepsP ls zs (f s x)) (xs : List γ)
    (s : α × State) (h : KeepsP ls zs s) : KeepsP ls zs (xs.foldl f s) := by
  induction xs generalizing s with
  | nil => exact h
  | cons x xs ih => exact ih _ (hf _ _ h)

theorem KeepsQ.foldl {α β : Type} {γ : Type} {f : α × β × State → γ → α × β × State} (hf : ∀ s x, KeepsQ ls zs s → KeepsQ ls zs (f s x)) (xs : List γ)
    (s : α × β × State) (h : KeepsQ ls zs s) : KeepsQ ls zs (xs.foldl f s) := by
  induction xs generalizing s with
  | nil => exact h
  | cons x xs ih => exact ih _ (hf _ _ h)

theorem KeepsP.snd {α : Type} {p : α × State} (h : KeepsP ls zs p) : Keeps ls zs p.2 := h

theorem KeepsQ.snd {α β : Type} {p : α × β × State} (h : KeepsQ ls zs p) : KeepsP ls zs p.2 := h

theorem KeepsP.mk {α : Type} {a : α} {s : State} (h : Keeps ls zs s) : KeepsP ls zs (a, s) := h

theorem KeepsQ.mk {α β : Type} {a : α} {p : β × State} (h : KeepsP ls zs p) : KeepsQ ls zs (a, p) := h

theorem KeepsO.none : KeepsO ls zs none := fun _ h => nomatch h

theorem KeepsOP.none {α : Type} : KeepsOP ls zs (none : Option (α × State)) := fun _ h => nomatch h

theorem KeepsOQ.none {α β : Type} : KeepsOQ ls zs (none : Option (α × β × State)) := fun _ h => nomatch h

theorem KeepsO.some {s : State} (h : Keeps ls zs s) : KeepsO ls zs (some s) := fun _ e => Option.some.inj e ▸ h

theorem KeepsOP.some {α : Type} {p : α × State} (h : KeepsP ls zs p) : KeepsOP ls zs (some p) := fun _ e => Option.some.inj e ▸ h

theorem KeepsOQ.some {α β : Type} {p : α × β × State} (h : KeepsQ ls zs p) : KeepsOQ ls zs (some p) :=
  fun _ e => Option.some.inj e ▸ h

theorem KeepsR.next {s : State} (h : Keeps ls zs s) : KeepsR ls zs (.next s) := fun _ e => by injection e with e; exact e ▸ h

theorem KeepsR.fault {f : Fault} : KeepsR ls zs (.fault f) := fun _ e => nomatch e

theorem KeepsR.refused {r : Refusal} : KeepsR ls zs (.refused r) := fun _ e => nomatch e

theorem KeepsO.findSome {γ : Type} {f : γ → Option (State)} (hf : ∀ x, KeepsO ls zs (f x)) (xs : List γ) :
    KeepsO ls zs (xs.findSome? f) := by
  intro t e
  obtain ⟨x, -, hx⟩ := List.exists_of_findSome?_eq_some e
  exact hf x t hx

theorem KeepsO.map {f : State → State} {o : Option State} (ho : KeepsO ls zs o)
    (hf : ∀ s, Keeps ls zs s → Keeps ls zs (f s)) : KeepsO ls zs (o.map f) := by
  intro t e
  obtain ⟨s, hs, rfl⟩ := Option.map_eq_some_iff.1 e
  exact hf s (ho s hs)

theorem KeepsOP.findSome {α : Type} {γ : Type} {f : γ → Option (α × State)} (hf : ∀ x, KeepsOP ls zs (f x)) (xs : List γ) :
    KeepsOP ls zs (xs.findSome? f) := by
  intro t e
  obtain ⟨x, -, hx⟩ := List.exists_of_findSome?_eq_some e
  exact hf x t hx

theorem KeepsOP.map {α : Type} {f : State → α × State} {o : Option State} (ho : KeepsO ls zs o)
    (hf : ∀ s, Keeps ls zs s → KeepsP ls zs (f s)) : KeepsOP ls zs (o.map f) := by
  intro t e
  obtain ⟨s, hs, rfl⟩ := Option.map_eq_some_iff.1 e
  exact hf s (ho s hs)

theorem KeepsOQ.findSome {α β : Type} {γ : Type} {f : γ → Option (α × β × State)} (hf : ∀ x, KeepsOQ ls zs (f x)) (xs : List γ) :
    KeepsOQ ls zs (xs.findSome? f) := by
  intro t e
  obtain ⟨x, -, hx⟩ := List.exists_of_findSome?_eq_some e
  exact hf x t hx

theorem KeepsOQ.map {α β : Type} {f : State → α × β × State} {o : Option State} (ho : KeepsO ls zs o)
    (hf : ∀ s, Keeps ls zs s → KeepsQ ls zs (f s)) : KeepsOQ ls zs (o.map f) := by
  intro t e
  obtain ⟨s, hs, rfl⟩ := Option.map_eq_some_iff.1 e
  exact hf s (ho s hs)

theorem Keeps.getD {o : Option State} {s : State} (ho : KeepsO ls zs o) (h : Keeps ls zs s) : Keeps ls zs (o.getD s) := by
  cases o with
  | none => exact h
  | some t => exact ho t rfl

theorem KeepsO.of {o : Option State} {t : State} (e : o = .some t) (h : KeepsO ls zs o) : Keeps ls zs t := h t e

theorem KeepsP.of {α : Type} {p : α × State} {a : α} {t : State} (e : p = (a, t)) (h : KeepsP ls zs p) : Keeps ls zs t := by
  subst e; exact h

theorem KeepsQ.of {α β : Type} {p : α × β × State} {a : α} {b : β} {t : State} (e : p = (a, b, t)) (h : KeepsQ ls zs p) :
    Keeps ls zs t := by
  subst e; exact h

theorem KeepsOP.of {α : Type} {o : Option (α × State)} {a : α} {t : State} (e : o = .some (a, t)) (h : KeepsOP ls zs o) :
    Keeps ls zs t := h (a, t) e

theorem KeepsOQ.of {α β : Type} {o : Option (α × β × State)} {a : α} {b : β} {t : State} (e : o = .some (a, b, t))
    (h : KeepsOQ ls zs o) : Keeps ls zs t := h (a, b, t) e

end

end Sys2Proof.Machine
end

