-- ==== Sys2Proof/Laws/KeepsDevice.lean ====
section
/-!
SUPPORT. One lemma per operation, meaning by meaning: it keeps what every command keeps (Laws.Keeps). Here: the shared operations, life cycle, memory, NOR, dens, links, timers, power, boot, resets, tag and TAP.
-/

namespace Sys2Proof.Machine

section
variable {ls : List Instr} {zs : W64 × Nat}

/-! ### Ops -/

theorem State.modFn_keeps (s : State) (f : Nat) (g : Fn → Fn) (hk : Keeps ls zs s) : Keeps ls zs (State.modFn s f g)
    := by
  unfold State.modFn
  exact hk.lit rfl rfl rfl rfl rfl

theorem State.modRing_keeps (s : State) (k : Nat) (g : Ring → Ring) (hk : Keeps ls zs s) : Keeps ls zs
    (State.modRing s k g) := by
  unfold State.modRing
  exact hk.lit rfl rfl rfl rfl rfl

theorem State.modDen_keeps (s : State) (d : Nat) (g : Den → Den) (hk : Keeps ls zs s) : Keeps ls zs (State.modDen s
    d g) := by
  unfold State.modDen
  exact hk.lit rfl rfl rfl rfl rfl

theorem State.modTile_keeps (s : State) (t : Nat) (g : Tile → Tile) (hk : Keeps ls zs s) : Keeps ls zs
    (State.modTile s t g) := by
  unfold State.modTile
  exact hk.lit rfl rfl rfl rfl rfl

theorem State.modTable_keeps (s : State) (t : Nat) (g : Table → Table) (hk : Keeps ls zs s) : Keeps ls zs
    (State.modTable s t g) := by
  unfold State.modTable
  exact hk.lit rfl rfl rfl rfl rfl

theorem State.modQuad_keeps (s : State) (q : Nat) (g : Quad → Quad) (hk : Keeps ls zs s) : Keeps ls zs
    (State.modQuad s q g) := by
  unfold State.modQuad
  exact hk.lit rfl rfl rfl rfl rfl

theorem State.modSlot_keeps (s : State) (q : Nat) (c : Nat) (g : MioSlot → MioSlot) (hk : Keeps ls zs s) : Keeps ls
    zs (State.modSlot s q c g) := by
  unfold State.modSlot
  refine State.modQuad_keeps _ _ _ ?_
  exact hk

theorem State.modEntry_keeps (s : State) (e : Nat) (g : CfgEntry → CfgEntry) (hk : Keeps ls zs s) : Keeps ls zs
    (State.modEntry s e g) := by
  unfold State.modEntry
  exact hk.lit rfl rfl rfl rfl rfl

theorem State.modPort_keeps (s : State) (p : Nat) (g : Port → Port) (hk : Keeps ls zs s) : Keeps ls zs
    (State.modPort s p g) := by
  unfold State.modPort
  exact hk.lit rfl rfl rfl rfl rfl

theorem State.modStack_keeps (s : State) (n : Nat) (g : HbmStack → HbmStack) (hk : Keeps ls zs s) : Keeps ls zs
    (State.modStack s n g) := by
  unfold State.modStack
  exact hk.lit rfl rfl rfl rfl rfl

theorem State.modTmr_keeps (s : State) (n : Nat) (g : Tmr → Tmr) (hk : Keeps ls zs s) : Keeps ls zs (State.modTmr s
    n g) := by
  unfold State.modTmr
  exact hk.lit rfl rfl rfl rfl rfl

theorem State.modWay_keeps (s : State) (w : Nat) (g : Way → Way) (hk : Keeps ls zs s) : Keeps ls zs (State.modWay s
    w g) := by
  unfold State.modWay
  exact hk.lit rfl rfl rfl rfl rfl

theorem State.setUpd_keeps (s : State) (d : Nat) (r : Nat) (u : Option UpdCur) (hk : Keeps ls zs s) : Keeps ls zs
    (State.setUpd s d r u) := by
  unfold State.setUpd
  exact hk.lit rfl rfl rfl rfl rfl

theorem State.modReq_keeps (s : State) (id : Nat) (g : Req → Req) (hk : Keeps ls zs s) : Keeps ls zs (State.modReq s
    id g) := by
  unfold State.modReq
  exact hk.lit rfl rfl rfl rfl rfl

theorem State.modCmd_keeps (s : State) (id : Nat) (g : Cmd → Cmd) (hk : Keeps ls zs s) : Keeps ls zs (State.modCmd s
    id g) := by
  unfold State.modCmd
  exact hk.lit rfl rfl rfl rfl rfl

theorem State.modModel_keeps (s : State) (d : Nat) (xa2 : Nat) (g : Model → Model) (hk : Keeps ls zs s) : Keeps ls
    zs (State.modModel s d xa2 g) := by
  unfold State.modModel
  exact hk.lit rfl rfl rfl rfl rfl

theorem State.each_keeps (s : State) (xa1 : List Nat) (g : State → Nat → State) (hk : Keeps ls zs s) (hf : ∀ (y0 :
    State) (y1 : Nat), Keeps ls zs y0 → Keeps ls zs (g y0 y1)) : Keeps ls zs (State.each s xa1 g) := by
  unfold State.each
  refine Keeps.foldl ?_ _ _ ?_
  · intro x1 x2 h1
    refine hf _ _ ?_
    exact h1
  · exact hk

theorem State.emit_keeps (s : State) (o : Out) (hk : Keeps ls zs s) : Keeps ls zs (State.emit s o) := by
  unfold State.emit
  exact hk.lit rfl rfl rfl rfl rfl

theorem State.free_keeps (s : State) (w : Nat) (hk : Keeps ls zs s) : KeepsP ls zs (State.free s w) := by
  unfold State.free
  refine KeepsP.mk ?_
  exact hk.lit rfl rfl rfl rfl rfl

theorem State.count_keeps (s : State) (d : Nat) (c : Nat) (n : Nat) (hk : Keeps ls zs s) : Keeps ls zs (State.count
    s d c n) := by
  unfold State.count
  refine State.modDen_keeps _ _ _ ?_
  exact hk

theorem State.sendVec_keeps (s : State) (f : Nat) (v : Nat) (hk : Keeps ls zs s) : Keeps ls zs (State.sendVec s f v)
    := by
  unfold State.sendVec
  extract_lets -merge +onlyGivenNames x1
  clear_value x1
  refine Keeps.ite (fun _ => ?_) (fun _ => ?_)
  · refine State.modFn_keeps _ _ _ ?_
    exact hk
  · refine State.emit_keeps _ _ ?_
    exact hk

theorem State.writeEntry_keeps (s : State) (k : Nat) (bytes : Bytes) (vec : Option Nat) (hk : Keeps ls zs s) : Keeps
    ls zs (State.writeEntry s k bytes vec) := by
  unfold State.writeEntry
  extract_lets -merge +onlyGivenNames x1
  clear_value x1
  extract_lets -merge +onlyGivenNames x2
  clear_value x2
  extract_lets -merge +onlyGivenNames x3
  clear_value x3
  extract_lets -merge +onlyGivenNames x4
  clear_value x4
  extract_lets -merge +onlyGivenNames x5
  have h5 : Keeps ls zs x5 := by
    unfold x5
    refine State.emit_keeps _ _ ?_
    exact hk
  clear_value x5
  extract_lets -merge +onlyGivenNames x6
  have h6 : Keeps ls zs x6 := by
    unfold x6
    refine State.modRing_keeps _ _ _ ?_
    exact h5
  clear_value x6
  extract_lets -merge +onlyGivenNames x7
  have h7 : Keeps ls zs x7 := by
    unfold x7
    refine Keeps.ite (fun _ => ?_) (fun _ => ?_)
    · exact h6
    · refine State.count_keeps _ _ _ _ ?_
      exact h6
  clear_value x7
  split
  · refine State.sendVec_keeps _ _ _ ?_
    exact h7
  · exact h7

theorem State.pushEntry_keeps (s : State) (k : Nat) (bytes : Bytes) (vec : Option Nat) (hk : Keeps ls zs s) : Keeps
    ls zs (State.pushEntry s k bytes vec) := by
  unfold State.pushEntry
  refine Keeps.ite (fun _ => ?_) (fun _ => ?_)
  · refine Keeps.ite (fun _ => ?_) (fun _ => ?_)
    · refine State.writeEntry_keeps _ _ _ _ ?_
      exact hk
    · refine State.modRing_keeps _ _ _ ?_
      exact hk
  · refine State.modFn_keeps _ _ _ ?_
    exact hk

theorem State.postEvent_keeps (s : State) (f : Nat) (ty : Nat) (den : Nat) (payload : Bytes) (hk : Keeps ls zs s) :
    KeepsP ls zs (State.postEvent s f ty den payload) := by
  unfold State.postEvent
  extract_lets -merge +onlyGivenNames x1
  clear_value x1
  extract_lets -merge +onlyGivenNames x2
  clear_value x2
  refine KeepsP.ite (fun _ => ?_) (fun _ => ?_)
  · refine KeepsP.mk ?_
    exact hk
  · refine KeepsP.ite (fun _ => ?_) (fun _ => ?_)
    · refine KeepsP.mk ?_
      refine State.modFn_keeps _ _ _ ?_
      exact hk
    · refine KeepsP.mk ?_
      refine State.pushEntry_keeps _ _ _ _ ?_
      exact hk

theorem State.hostWrite_keeps (s : State) (f : Nat) (iova : Nat) (data : Bytes) (hk : Keeps ls zs s) : Keeps ls zs
    (State.hostWrite s f iova data) := by
  unfold State.hostWrite
  refine Keeps.ite (fun _ => ?_) (fun _ => ?_)
  · extract_lets -merge +onlyGivenNames x1
    have h1 : Keeps ls zs x1 := by
      unfold x1
      refine State.emit_keeps _ _ ?_
      exact hk
    clear_value x1
    refine Keeps.ite (fun _ => ?_) (fun _ => ?_)
    · exact h1
    · refine State.count_keeps _ _ _ _ ?_
      exact h1
  · exact hk

theorem State.errorEvent_keeps (s : State) (f : Nat) (cls : Nat) (cause : Nat) (loc : W64) (hk : Keeps ls zs s) :
    Keeps ls zs (State.errorEvent s f cls cause loc) := by
  unfold State.errorEvent
  extract_lets -merge +onlyGivenNames x1
  clear_value x1
  extract_lets -merge +onlyGivenNames x2
  clear_value x2
  refine Keeps.ite (fun _ => ?_) (fun _ => ?_)
  · exact hk
  · extract_lets -merge +onlyGivenNames x3
    have h3 : KeepsP ls zs x3 := by
      unfold x3
      refine State.postEvent_keeps _ _ _ _ _ ?_
      exact hk
    clear_value x3
    refine Keeps.ite (fun _ => ?_) (fun _ => ?_)
    · extract_lets -merge +onlyGivenNames x4
      clear_value x4
      extract_lets -merge +onlyGivenNames x5
      have h5 : Keeps ls zs x5 := by
        unfold x5
        exact h3
      clear_value x5
      exact h5.lit rfl rfl rfl rfl rfl
    · exact h3

theorem State.errorEvents_keeps (s : State) (cls : Nat) (cause : Nat) (loc : W64) (hk : Keeps ls zs s) : Keeps ls zs
    (State.errorEvents s cls cause loc) := by
  unfold State.errorEvents
  refine Keeps.ite (fun _ => ?_) (fun _ => ?_)
  · extract_lets -merge +onlyGivenNames x1
    have h1 : Keeps ls zs x1 := by
      unfold x1
      refine Keeps.ite (fun _ => ?_) (fun _ => ?_)
      · refine State.errorEvent_keeps _ _ _ _ _ ?_
        exact hk
      · exact hk
    clear_value x1
    refine State.errorEvent_keeps _ _ _ _ _ ?_
    exact h1
  · exact hk

theorem State.newEntry_keeps (s : State) (cls : Nat) (cause : Nat) (loc : W64) (hk : Keeps ls zs s) : Keeps ls zs
    (State.newEntry s cls cause loc) := by
  unfold State.newEntry
  extract_lets -merge +onlyGivenNames x1
  clear_value x1
  extract_lets -merge +onlyGivenNames x2
  clear_value x2
  exact hk.lit rfl rfl rfl rfl rfl

theorem State.logCore_keeps (s : State) (cls : Nat) (cause : Nat) (loc : W64) (hk : Keeps ls zs s) : Keeps ls zs
    (State.logCore s cls cause loc) := by
  unfold State.logCore
  extract_lets -merge +onlyGivenNames x2 x1
  have h1 : Keeps ls zs x1 := by
    unfold x1
    exact hk.lit rfl rfl rfl rfl rfl
  try clear_value x1
  refine Keeps.ite (fun _ => ?_) (fun _ => ?_)
  · extract_lets -merge +onlyGivenNames x3
    clear_value x3
    extract_lets -merge +onlyGivenNames x4
    clear_value x4
    exact h1.lit rfl rfl rfl rfl rfl
  · refine Keeps.ite (fun _ => ?_) (fun _ => ?_)
    · exact h1
    · refine State.errorEvents_keeps _ _ _ _ ?_
      refine State.newEntry_keeps _ _ _ _ ?_
      exact h1

theorem State.record_keeps (s : State) (ty : Nat) (p : Bytes) (ref : Option (Nat × W32)) (hk : Keeps ls zs s) :
    Keeps ls zs (State.record s ty p ref) := by
  unfold State.record
  refine Keeps.ite (fun _ => ?_) (fun _ => ?_)
  · refine State.logCore_keeps _ _ _ _ ?_
    exact hk
  · refine Keeps.ite (fun _ => ?_) (fun _ => ?_)
    · exact hk.lit rfl rfl rfl rfl rfl
    · exact hk.lit rfl rfl rfl rfl rfl

theorem State.fault_keeps (s : State) (cause : Nat) (loc : W64) (rcd : optParam (Option (Nat × Bytes)) none) (hk :
    Keeps ls zs s) : Keeps ls zs (State.fault s cause loc rcd) := by
  unfold State.fault
  extract_lets -merge +onlyGivenNames x1
  clear_value x1
  extract_lets -merge +onlyGivenNames x2
  clear_value x2
  extract_lets -merge +onlyGivenNames x3
  have h3 : Keeps ls zs x3 := by
    unfold x3
    refine State.logCore_keeps _ _ _ _ ?_
    exact hk
  clear_value x3
  extract_lets -merge +onlyGivenNames x4
  clear_value x4
  split
  · refine State.record_keeps _ _ _ _ ?_
    exact h3
  · refine Keeps.ite (fun _ => ?_) (fun _ => ?_)
    · refine State.record_keeps _ _ _ _ ?_
      exact h3
    · exact h3

theorem State.charge_keeps (s : State) (d : Nat) (p : Path) (bytes : Nat) (hk : Keeps ls zs s) : Keeps ls zs
    (State.charge s d p bytes) := by
  unfold State.charge
  refine State.modDen_keeps _ _ _ ?_
  exact hk

theorem State.chargeHoard_keeps (s : State) (d : Nat) (bytes : Nat) (hk : Keeps ls zs s) : Keeps ls zs
    (State.chargeHoard s d bytes) := by
  unfold State.chargeHoard
  refine State.count_keeps _ _ _ _ ?_
  refine State.charge_keeps _ _ _ _ ?_
  exact hk

theorem State.chargePcie_keeps (s : State) (d : Nat) (bytes : Nat) (hk : Keeps ls zs s) : Keeps ls zs
    (State.chargePcie s d bytes) := by
  unfold State.chargePcie
  refine State.charge_keeps _ _ _ _ ?_
  exact hk

theorem State.chargeHbm_keeps (s : State) (d : Nat) (bytes : Nat) (write : Bool) (hk : Keeps ls zs s) : Keeps ls zs
    (State.chargeHbm s d bytes write) := by
  unfold State.chargeHbm
  refine State.count_keeps _ _ _ _ ?_
  refine State.charge_keeps _ _ _ _ ?_
  exact hk

theorem State.chargeIfs_keeps (s : State) (d : Nat) (bytes : Nat) (hk : Keeps ls zs s) : Keeps ls zs
    (State.chargeIfs s d bytes) := by
  unfold State.chargeIfs
  refine State.count_keeps _ _ _ _ ?_
  refine State.charge_keeps _ _ _ _ ?_
  exact hk

/-! ### Life -/

theorem State.versionFreed_keeps (s : State) (t : Nat) (v : Nat) (quiet : Bool) (hk : Keeps ls zs s) : Keeps ls zs
    (State.versionFreed s t v quiet) := by
  unfold State.versionFreed
  extract_lets -merge +onlyGivenNames x1
  clear_value x1
  extract_lets -merge +onlyGivenNames x2
  have h2 : Keeps ls zs x2 := by
    unfold x2
    refine State.count_keeps _ _ _ _ ?_
    exact hk
  clear_value x2
  refine Keeps.ite (fun _ => ?_) (fun _ => ?_)
  · exact h2
  · refine KeepsP.snd ?_
    refine State.postEvent_keeps _ _ _ _ _ ?_
    exact h2

theorem State.modVersion_keeps (s : State) (t : Nat) (v : Nat) (quiet : Bool) (g : Version → Version) (hk : Keeps ls
    zs s) : Keeps ls zs (State.modVersion s t v quiet g) := by
  unfold State.modVersion
  extract_lets -merge +onlyGivenNames x1
  clear_value x1
  extract_lets -merge +onlyGivenNames x2
  have h2 : Keeps ls zs x2 := by
    unfold x2
    refine State.modTable_keeps _ _ _ ?_
    exact hk
  clear_value x2
  refine Keeps.ite (fun _ => ?_) (fun _ => ?_)
  · refine State.versionFreed_keeps _ _ _ _ ?_
    exact h2
  · exact h2

theorem State.takeRef_keeps (s : State) (t : Nat) (v : Nat) (hk : Keeps ls zs s) : Keeps ls zs (State.takeRef s t v)
    := by
  unfold State.takeRef
  refine State.modTable_keeps _ _ _ ?_
  exact hk

theorem State.dropRef_keeps (s : State) (t : Nat) (v : Nat) (quiet : Bool) (hk : Keeps ls zs s) : Keeps ls zs
    (State.dropRef s t v quiet) := by
  unfold State.dropRef
  refine State.modVersion_keeps _ _ _ _ _ ?_
  exact hk

theorem State.dropRefs_keeps (s : State) (xa1 : List (Nat × Nat)) (quiet : Bool) (hk : Keeps ls zs s) : Keeps ls zs
    (State.dropRefs s xa1 quiet) := by
  unfold State.dropRefs
  refine Keeps.foldl ?_ _ _ ?_
  · intro x1 x2 h1
    refine State.dropRef_keeps _ _ _ _ ?_
    exact h1
  · exact hk

theorem State.complete_keeps (s : State) (d : Nat) (ring : Nat) (tag : Nat) (status : Nat) (tiles : Nat) (trunc :
    Nat) (irq : Bool) (tAdmit : W64) (hk : Keeps ls zs s) : Keeps ls zs (State.complete s d ring tag status tiles
    trunc irq tAdmit) := by
  unfold State.complete
  extract_lets -merge +onlyGivenNames x1
  have h1 : Keeps ls zs x1 := by
    unfold x1
    refine State.count_keeps _ _ _ _ ?_
    refine State.count_keeps _ _ _ _ ?_
    exact hk
  clear_value x1
  refine State.pushEntry_keeps _ _ _ _ ?_
  exact h1

theorem State.leaveIfMarked_keeps (s : State) (t : Nat) (d : Nat) (hk : Keeps ls zs s) : Keeps ls zs
    (State.leaveIfMarked s t d) := by
  unfold State.leaveIfMarked
  refine Keeps.ite (fun _ => ?_) (fun _ => ?_)
  · extract_lets -merge +onlyGivenNames x1
    clear_value x1
    extract_lets -merge +onlyGivenNames x2
    have h2 : Keeps ls zs x2 := by
      unfold x2
      refine State.modDen_keeps _ _ _ ?_
      exact hk
    clear_value x2
    refine State.modTile_keeps _ _ _ ?_
    exact h2
  · exact hk

theorem State.freeTiles_keeps (s : State) (r : Req) (hk : Keeps ls zs s) : Keeps ls zs (State.freeTiles s r) := by
  unfold State.freeTiles
  refine State.each_keeps _ _ _ ?_ ?_
  · exact hk
  · intro x1 x2 h1
    refine State.leaveIfMarked_keeps _ _ _ ?_
    refine State.modTile_keeps _ _ _ ?_
    exact h1

theorem State.dropLookups_keeps (s : State) (id : Nat) (hk : Keeps ls zs s) : Keeps ls zs (State.dropLookups s id)
    := by
  unfold State.dropLookups
  exact hk.lit rfl rfl rfl rfl rfl

theorem State.runTime_keeps (s : State) (d : Nat) (n : Nat) (hk : Keeps ls zs s) : Keeps ls zs (State.runTime s d n)
    := by
  unfold State.runTime
  refine Keeps.ite (fun _ => ?_) (fun _ => ?_)
  · exact hk
  · extract_lets -merge +onlyGivenNames x1
    have h1 : KeepsP ls zs x1 := by
      unfold x1
      refine State.free_keeps _ _ ?_
      exact hk
    clear_value x1
    refine State.count_keeps _ _ _ _ ?_
    exact h1

theorem State.endReq_keeps (s : State) (r : Req) (status : Nat) (quiet : Bool) (hk : Keeps ls zs s) : Keeps ls zs
    (State.endReq s r status quiet) := by
  unfold State.endReq
  extract_lets -merge +onlyGivenNames x1
  have h1 : Keeps ls zs x1 := by
    unfold x1
    refine State.freeTiles_keeps _ _ ?_
    refine State.runTime_keeps _ _ _ ?_
    exact hk
  clear_value x1
  extract_lets -merge +onlyGivenNames x2
  have h2 : Keeps ls zs x2 := by
    unfold x2
    refine State.dropLookups_keeps _ _ ?_
    exact h1
  clear_value x2
  extract_lets -merge +onlyGivenNames x3
  have h3 : Keeps ls zs x3 := by
    unfold x3
    exact h2.lit rfl rfl rfl rfl rfl
  try clear_value x3
  extract_lets -merge +onlyGivenNames x4
  have h4 : Keeps ls zs x4 := by
    unfold x4
    refine State.dropRefs_keeps _ _ _ ?_
    exact h3
  clear_value x4
  extract_lets -merge +onlyGivenNames x5
  clear_value x5
  refine Keeps.ite (fun _ => ?_) (fun _ => ?_)
  · refine State.modRing_keeps _ _ _ ?_
    exact h4
  · refine State.complete_keeps _ _ _ _ _ _ _ _ _ ?_
    exact h4

theorem State.cancelReads_keeps (s : State) (p : Issuer → Bool) (hk : Keeps ls zs s) : Keeps ls zs
    (State.cancelReads s p) := by
  unfold State.cancelReads
  exact hk.lit rfl rfl rfl rfl rfl

theorem State.startAbort_keeps (s : State) (id : Nat) (status : Nat) (silent : Bool) (hk : Keeps ls zs s) : Keeps ls
    zs (State.startAbort s id status silent) := by
  unfold State.startAbort
  split
  · exact hk
  · refine Keeps.ite (fun _ => ?_) (fun _ => ?_)
    · refine Keeps.ite (fun _ => ?_) (fun _ => ?_)
      · refine State.modReq_keeps _ _ _ ?_
        exact hk
      · exact hk
    · extract_lets -merge +onlyGivenNames x1
      have h1 : Keeps ls zs x1 := by
        unfold x1
        refine State.modReq_keeps _ _ _ ?_
        exact hk
      clear_value x1
      extract_lets -merge +onlyGivenNames x2
      have h2 : Keeps ls zs x2 := by
        unfold x2
        refine State.cancelReads_keeps _ _ ?_
        exact h1
      clear_value x2
      refine State.dropLookups_keeps _ _ ?_
      refine State.each_keeps _ _ _ ?_ ?_
      · exact h2
      · intro x3 x4 h3
        refine State.modTile_keeps _ _ _ ?_
        exact h3

theorem State.killReq_keeps (s : State) (id : Nat) (quiet : Bool) (hk : Keeps ls zs s) : Keeps ls zs (State.killReq
    s id quiet) := by
  unfold State.killReq
  extract_lets -merge +onlyGivenNames x1
  have h1 : Keeps ls zs x1 := by
    unfold x1
    refine State.startAbort_keeps _ _ _ _ ?_
    exact hk
  clear_value x1
  split
  · refine State.endReq_keeps _ _ _ _ ?_
    exact h1
  · exact h1

theorem State.killReqs_keeps (s : State) (p : Req → Bool) (quiet : Bool) (hk : Keeps ls zs s) : Keeps ls zs
    (State.killReqs s p quiet) := by
  unfold State.killReqs
  refine State.each_keeps _ _ _ ?_ ?_
  · exact hk
  · intro x1 x2 h1
    refine State.killReq_keeps _ _ _ ?_
    exact h1

theorem State.tileFault_keeps (s : State) (t : Nat) (cause : Nat) (trap : Nat) (line : Nat) (poison : Bool) (own :
    Bool) (hk : Keeps ls zs s) : Keeps ls zs (State.tileFault s t cause trap line poison own) := by
  unfold State.tileFault
  extract_lets -merge +onlyGivenNames x1
  clear_value x1
  split
  · exact hk
  · split
    · exact hk
    · refine Keeps.ite (fun _ => ?_) (fun _ => ?_)
      · exact hk
      · extract_lets -merge +onlyGivenNames x2
        clear_value x2
        extract_lets -merge +onlyGivenNames x3
        have h3 : Keeps ls zs x3 := by
          unfold x3
          refine State.modTile_keeps _ _ _ ?_
          exact hk
        clear_value x3
        extract_lets -merge +onlyGivenNames x4
        have h4 : Keeps ls zs x4 := by
          unfold x4
          refine State.each_keeps _ _ _ ?_ ?_
          · exact h3
          · intro x5 x6 h5
            refine State.modTile_keeps _ _ _ ?_
            exact h5
        clear_value x4
        extract_lets -merge +onlyGivenNames x7
        have h7 : Keeps ls zs x7 := by
          unfold x7
          refine State.fault_keeps _ _ _ _ ?_
          exact h4
        clear_value x7
        extract_lets -merge +onlyGivenNames x8
        clear_value x8
        extract_lets -merge +onlyGivenNames x9
        have h9 : Keeps ls zs x9 := by
          unfold x9
          refine State.modReq_keeps _ _ _ ?_
          exact h7
        clear_value x9
        refine State.startAbort_keeps _ _ _ _ ?_
        exact h9

theorem State.completeFenced_keeps (s : State) (d : Nat) (xa2 : Nat) (hk : Keeps ls zs s) : Keeps ls zs
    (State.completeFenced s d xa2) := by
  unfold State.completeFenced
  refine Keeps.foldl ?_ _ _ ?_
  · intro x1 x2 h1
    refine State.endReq_keeps _ _ _ _ ?_
    exact h1
  · exact hk

theorem State.fenceModels_keeps (s : State) (d : Nat) (hk : Keeps ls zs s) : Keeps ls zs (State.fenceModels s d) :=
    by
  unfold State.fenceModels
  refine Keeps.foldl ?_ _ _ ?_
  · intro x1 x2 h1
    extract_lets -merge +onlyGivenNames x3
    have h3 : Keeps ls zs x3 := by
      unfold x3
      refine State.modModel_keeps _ _ _ _ ?_
      exact h1
    clear_value x3
    extract_lets -merge +onlyGivenNames x4
    have h4 : Keeps ls zs x4 := by
      unfold x4
      refine State.fault_keeps _ _ _ _ ?_
      exact h3
    clear_value x4
    refine State.completeFenced_keeps _ _ _ ?_
    exact h4
  · exact hk

theorem State.fenceTile_keeps (s : State) (t : Nat) (reason : Nat) (status : Nat) (flt : Option W64) (hk : Keeps ls
    zs s) : Keeps ls zs (State.fenceTile s t reason status flt) := by
  unfold State.fenceTile
  refine Keeps.ite (fun _ => ?_) (fun _ => ?_)
  · exact hk
  · extract_lets -merge +onlyGivenNames x1
    clear_value x1
    extract_lets -merge +onlyGivenNames x2
    clear_value x2
    extract_lets -merge +onlyGivenNames x3
    have h3 : Keeps ls zs x3 := by
      unfold x3
      refine State.each_keeps _ _ _ ?_ ?_
      · exact hk
      · intro x4 x5 h4
        refine State.startAbort_keeps _ _ _ _ ?_
        exact h4
    clear_value x3
    extract_lets -merge +onlyGivenNames x6
    have h6 : Keeps ls zs x6 := by
      unfold x6
      refine State.each_keeps _ _ _ ?_ ?_
      · exact h3
      · intro x7 x8 h7
        refine State.modDen_keeps _ _ _ ?_
        exact h7
    clear_value x6
    extract_lets -merge +onlyGivenNames x9
    have h9 : Keeps ls zs x9 := by
      unfold x9
      refine State.modTile_keeps _ _ _ ?_
      exact h6
    clear_value x9
    extract_lets -merge +onlyGivenNames x11 x12 x10
    have h10 : Keeps ls zs x10 := by
      unfold x10
      exact h9.lit rfl rfl rfl rfl rfl
    try clear_value x10
    extract_lets -merge +onlyGivenNames x13
    clear_value x13
    extract_lets -merge +onlyGivenNames x14
    have h14 : Keeps ls zs x14 := by
      unfold x14
      refine State.fault_keeps _ _ _ _ ?_
      exact h10
    clear_value x14
    split
    · refine State.fenceModels_keeps _ _ ?_
      exact h14
    · exact h14

theorem State.countFault_keeps (s : State) (r : Req) (f : ReqFault) (hk : Keeps ls zs s) : Keeps ls zs
    (State.countFault s r f) := by
  unfold State.countFault
  refine Keeps.ite (fun _ => ?_) (fun _ => ?_)
  · refine State.fenceTile_keeps _ _ _ _ _ ?_
    exact hk
  · refine Keeps.ite (fun _ => ?_) (fun _ => ?_)
    · exact hk
    · extract_lets -merge +onlyGivenNames x1
      clear_value x1
      refine Keeps.ite (fun _ => ?_) (fun _ => ?_)
      · exact hk
      · extract_lets -merge +onlyGivenNames x2
        clear_value x2
        extract_lets -merge +onlyGivenNames x3
        clear_value x3
        extract_lets -merge +onlyGivenNames x4
        clear_value x4
        extract_lets -merge +onlyGivenNames x5
        have h5 : Keeps ls zs x5 := by
          unfold x5
          exact hk.lit rfl rfl rfl rfl rfl
        try clear_value x5
        refine Keeps.ite (fun _ => ?_) (fun _ => ?_)
        · refine State.fenceTile_keeps _ _ _ _ _ ?_
          exact h5
        · exact h5

theorem State.flushAll_keeps (s : State) (hk : Keeps ls zs s) : Keeps ls zs (State.flushAll s) := by
  unfold State.flushAll
  extract_lets -merge +onlyGivenNames x1
  clear_value x1
  extract_lets -merge +onlyGivenNames x2
  exact hk.hbm rfl (Hbm.foldl_wf (fun _ _ w => Hbm.putLine_wf w _) _ hk.2.1) rfl rfl rfl

theorem State.discardStaged_keeps (s : State) (d : Nat) (hk : Keeps ls zs s) : Keeps ls zs (State.discardStaged s d)
    := by
  unfold State.discardStaged
  extract_lets -merge +onlyGivenNames x1
  clear_value x1
  extract_lets -merge +onlyGivenNames x2
  clear_value x2
  extract_lets -merge +onlyGivenNames x3
  clear_value x3
  extract_lets -merge +onlyGivenNames x4
  have h4 : Keeps ls zs x4 := by
    unfold x4
    exact hk.lit rfl rfl rfl rfl rfl
  try clear_value x4
  refine State.setUpd_keeps _ _ _ _ ?_
  refine State.setUpd_keeps _ _ _ _ ?_
  exact h4

theorem State.dropUpdates_keeps (s : State) (d : Nat) (quiet : Bool) (hk : Keeps ls zs s) : Keeps ls zs
    (State.dropUpdates s d quiet) := by
  unfold State.dropUpdates
  extract_lets -merge +onlyGivenNames x1
  clear_value x1
  extract_lets -merge +onlyGivenNames x2
  have h2 : Keeps ls zs x2 := by
    unfold x2
    refine State.each_keeps _ _ _ ?_ ?_
    · exact hk
    · intro x3 x4 h3
      refine State.modRing_keeps _ _ _ ?_
      exact h3
  clear_value x2
  refine State.dropRefs_keeps _ _ _ ?_
  refine State.discardStaged_keeps _ _ ?_
  exact h2

theorem State.clearSlot_keeps (s : State) (q : Nat) (c : Nat) (st : SlotState) (hk : Keeps ls zs s) : Keeps ls zs
    (State.clearSlot s q c st) := by
  unfold State.clearSlot
  extract_lets -merge +onlyGivenNames x1
  have h1 : Keeps ls zs x1 := by
    unfold x1
    refine State.modQuad_keeps _ _ _ ?_
    exact hk
  clear_value x1
  refine State.modSlot_keeps _ _ _ _ ?_
  exact h1

theorem State.dropTable_keeps (s : State) (t : Nat) (hk : Keeps ls zs s) : Keeps ls zs (State.dropTable s t) := by
  unfold State.dropTable
  exact hk.lit rfl rfl rfl rfl rfl

theorem State.dropHoard_keeps (s : State) (d : Nat) (hk : Keeps ls zs s) : Keeps ls zs (State.dropHoard s d) := by
  unfold State.dropHoard
  extract_lets -merge +onlyGivenNames x1
  clear_value x1
  extract_lets -merge +onlyGivenNames x2
  clear_value x2
  extract_lets -merge +onlyGivenNames x3
  clear_value x3
  exact hk.lit rfl rfl rfl rfl rfl

theorem State.scrubDen_keeps (s : State) (d : Nat) (hk : Keeps ls zs s) : Keeps ls zs (State.scrubDen s d) := by
  unfold State.scrubDen
  extract_lets -merge +onlyGivenNames x1
  clear_value x1
  extract_lets -merge +onlyGivenNames x2
  have h2 : Keeps ls zs x2 := by
    unfold x2
    refine State.dropUpdates_keeps _ _ _ ?_
    exact hk
  clear_value x2
  extract_lets -merge +onlyGivenNames x3
  have h3 : Keeps ls zs x3 := by
    unfold x3
    exact h2.lit rfl rfl rfl rfl rfl
  try clear_value x3
  extract_lets -merge +onlyGivenNames x4
  have h4 : Keeps ls zs x4 := by
    unfold x4
    refine Keeps.foldl ?_ _ _ ?_
    · intro x5 x6 h5
      refine State.clearSlot_keeps _ _ _ _ ?_
      exact h5
    · exact h3
  clear_value x4
  extract_lets -merge +onlyGivenNames x7
  have h7 : Keeps ls zs x7 := by
    unfold x7
    refine State.each_keeps _ _ _ ?_ ?_
    · exact h4
    · intro x8 x9 h8
      refine State.modEntry_keeps _ _ _ ?_
      exact h8
  clear_value x7
  extract_lets -merge +onlyGivenNames x10
  have h10 : Keeps ls zs x10 := by
    unfold x10
    refine State.dropHoard_keeps _ _ ?_
    exact h7
  clear_value x10
  extract_lets -merge +onlyGivenNames x11
  have h11 : Keeps ls zs x11 := by
    unfold x11
    refine State.modDen_keeps _ _ _ ?_
    exact h10
  clear_value x11
  exact h11.hbm rfl (Hbm.foldl_wf (fun _ _ w => Hbm.zeroStripes_wf w _ _) _ h11.2.1) rfl rfl rfl

theorem State.silenceCmds_keeps (s : State) (p : Nat → Bool) (hk : Keeps ls zs s) : Keeps ls zs (State.silenceCmds s
    p) := by
  unfold State.silenceCmds
  exact hk.lit rfl rfl rfl rfl rfl

theorem State.resetRings_keeps (s : State) (f : Nat) (hk : Keeps ls zs s) : Keeps ls zs (State.resetRings s f) := by
  unfold State.resetRings
  exact hk.lit rfl rfl rfl rfl rfl

theorem State.flrFinish_keeps (s : State) (f : Nat) (hk : Keeps ls zs s) : Keeps ls zs (State.flrFinish s f) := by
  unfold State.flrFinish
  extract_lets -merge +onlyGivenNames x1
  have h1 : Keeps ls zs x1 := by
    unfold x1
    refine State.resetRings_keeps _ _ ?_
    exact hk
  clear_value x1
  extract_lets -merge +onlyGivenNames x3 x2
  have h2 : Keeps ls zs x2 := by
    unfold x2
    exact h1.lit rfl rfl rfl rfl rfl
  try clear_value x2
  extract_lets -merge +onlyGivenNames x4
  have h4 : Keeps ls zs x4 := by
    unfold x4
    refine State.modFn_keeps _ _ _ ?_
    exact h2
  clear_value x4
  refine Keeps.ite (fun _ => ?_) (fun _ => ?_)
  · exact h4
  · extract_lets -merge +onlyGivenNames x5
    clear_value x5
    refine Keeps.ite (fun _ => ?_) (fun _ => ?_)
    · extract_lets -merge +onlyGivenNames x6
      have h6 : Keeps ls zs x6 := by
        unfold x6
        refine State.scrubDen_keeps _ _ ?_
        exact h4
      clear_value x6
      refine State.each_keeps _ _ _ ?_ ?_
      · exact h6
      · intro x7 x8 h7
        refine State.modTile_keeps _ _ _ ?_
        exact h7
    · exact h4

theorem State.flrStart_keeps (s : State) (f : Nat) (hk : Keeps ls zs s) : Keeps ls zs (State.flrStart s f) := by
  unfold State.flrStart
  extract_lets -merge +onlyGivenNames x1
  clear_value x1
  extract_lets -merge +onlyGivenNames x2
  have h2 : Keeps ls zs x2 := by
    unfold x2
    refine Keeps.ite (fun _ => ?_) (fun _ => ?_)
    · exact hk
    · refine State.dropUpdates_keeps _ _ _ ?_
      refine State.killReqs_keeps _ _ _ ?_
      exact hk
  clear_value x2
  extract_lets -merge +onlyGivenNames x3
  have h3 : Keeps ls zs x3 := by
    unfold x3
    refine State.silenceCmds_keeps _ _ ?_
    exact h2
  clear_value x3
  extract_lets -merge +onlyGivenNames x4
  have h4 : Keeps ls zs x4 := by
    unfold x4
    refine State.modFn_keeps _ _ _ ?_
    exact h3
  clear_value x4
  extract_lets -merge +onlyGivenNames x6 x5
  have h5 : Keeps ls zs x5 := by
    unfold x5
    exact h4.lit rfl rfl rfl rfl rfl
  try clear_value x5
  refine Keeps.ite (fun _ => ?_) (fun _ => ?_)
  · refine State.flrFinish_keeps _ _ ?_
    exact h5
  · exact h5

theorem State.destroyDen_keeps (s : State) (d : Nat) (hk : Keeps ls zs s) : Keeps ls zs (State.destroyDen s d) := by
  unfold State.destroyDen
  extract_lets -merge +onlyGivenNames x1
  have h1 : Keeps ls zs x1 := by
    unfold x1
    refine State.modDen_keeps _ _ _ ?_
    exact hk
  clear_value x1
  extract_lets -merge +onlyGivenNames x2
  have h2 : Keeps ls zs x2 := by
    unfold x2
    refine State.killReqs_keeps _ _ _ ?_
    exact h1
  clear_value x2
  extract_lets -merge +onlyGivenNames x3
  have h3 : Keeps ls zs x3 := by
    unfold x3
    refine State.scrubDen_keeps _ _ ?_
    exact h2
  clear_value x3
  extract_lets -merge +onlyGivenNames x4
  have h4 : Keeps ls zs x4 := by
    unfold x4
    refine KeepsP.snd ?_
    refine State.postEvent_keeps _ _ _ _ _ ?_
    exact h3
  clear_value x4
  extract_lets -merge +onlyGivenNames x5
  have h5 : Keeps ls zs x5 := by
    unfold x5
    refine State.resetRings_keeps _ _ ?_
    exact h4
  clear_value x5
  extract_lets -merge +onlyGivenNames x6
  clear_value x6
  extract_lets -merge +onlyGivenNames x7
  have h7 : Keeps ls zs x7 := by
    unfold x7
    refine State.each_keeps _ _ _ ?_ ?_
    · exact h5
    · intro x8 x9 h8
      refine State.modTile_keeps _ _ _ ?_
      exact h8
  clear_value x7
  extract_lets -merge +onlyGivenNames x10
  have h10 : Keeps ls zs x10 := by
    unfold x10
    refine State.each_keeps _ _ _ ?_ ?_
    · exact h7
    · intro x11 x12 h11
      refine State.modWay_keeps _ _ _ ?_
      exact h11
  clear_value x10
  extract_lets -merge +onlyGivenNames x14 x13
  have h13 : Keeps ls zs x13 := by
    unfold x13
    exact h10.lit rfl rfl rfl rfl rfl
  try clear_value x13
  refine State.modDen_keeps _ _ _ ?_
  exact h13

theorem State.enterRetain_keeps (s : State) (cause : Nat) (hk : Keeps ls zs s) : Keeps ls zs (State.enterRetain s
    cause) := by
  unfold State.enterRetain
  refine Keeps.ite (fun _ => ?_) (fun _ => ?_)
  · exact hk.lit rfl rfl rfl rfl rfl
  · extract_lets -merge +onlyGivenNames x1
    have h1 : Keeps ls zs x1 := by
      unfold x1
      refine State.killReqs_keeps _ _ _ ?_
      exact hk
    clear_value x1
    extract_lets -merge +onlyGivenNames x2
    have h2 : Keeps ls zs x2 := by
      unfold x2
      refine State.each_keeps _ _ _ ?_ ?_
      · exact h1
      · intro x3 x4 h3
        refine State.dropUpdates_keeps _ _ _ ?_
        exact h3
    clear_value x2
    extract_lets -merge +onlyGivenNames x5
    clear_value x5
    extract_lets -merge +onlyGivenNames x6
    have h6 : Keeps ls zs x6 := by
      unfold x6
      refine State.each_keeps _ _ _ ?_ ?_
      · exact h2
      · intro x7 x8 h7
        refine State.modFn_keeps _ _ _ ?_
        refine State.resetRings_keeps _ _ ?_
        exact h7
    clear_value x6
    extract_lets -merge +onlyGivenNames x9
    have h9 : Keeps ls zs x9 := by
      unfold x9
      refine State.each_keeps _ _ _ ?_ ?_
      · exact h6
      · intro x10 x11 h10
        refine State.modTile_keeps _ _ _ ?_
        exact h10
    clear_value x9
    exact h9.lit rfl rfl rfl rfl rfl

theorem State.leaveRetain_keeps (s : State) (hk : Keeps ls zs s) : Keeps ls zs (State.leaveRetain s) := by
  unfold State.leaveRetain
  refine Keeps.ite (fun _ => ?_) (fun _ => ?_)
  · exact hk.lit rfl rfl rfl rfl rfl
  · exact hk

theorem State.quiesce_keeps (s : State) (d : Nat) (hk : Keeps ls zs s) : Keeps ls zs (State.quiesce s d) := by
  unfold State.quiesce
  extract_lets -merge +onlyGivenNames x1
  have h1 : Keeps ls zs x1 := by
    unfold x1
    refine KeepsP.snd ?_
    refine State.postEvent_keeps _ _ _ _ _ ?_
    exact hk
  clear_value x1
  extract_lets -merge +onlyGivenNames x2
  have h2 : Keeps ls zs x2 := by
    unfold x2
    refine State.killReqs_keeps _ _ _ ?_
    exact h1
  clear_value x2
  extract_lets -merge +onlyGivenNames x3
  have h3 : Keeps ls zs x3 := by
    unfold x3
    refine State.dropUpdates_keeps _ _ _ ?_
    exact h2
  clear_value x3
  extract_lets -merge +onlyGivenNames x4
  have h4 : Keeps ls zs x4 := by
    unfold x4
    refine State.each_keeps _ _ _ ?_ ?_
    · exact h3
    · intro x5 x6 h5
      refine State.modRing_keeps _ _ _ ?_
      exact h5
  clear_value x4
  refine State.modDen_keeps _ _ _ ?_
  exact h4

/-! ### Mem -/

theorem State.hbmUncorr_keeps (s : State) (a : Nat) (n : Nat) (hk : Keeps ls zs s) : Keeps ls zs (State.hbmUncorr s
    a n) := by
  unfold State.hbmUncorr
  extract_lets -merge +onlyGivenNames x1
  clear_value x1
  refine Keeps.ite (fun _ => ?_) (fun _ => ?_)
  · exact hk
  · refine State.modStack_keeps _ _ _ ?_
    exact hk

theorem State.hbmCorr_keeps (s : State) (a : Nat) (n : Nat) (hk : Keeps ls zs s) : Keeps ls zs (State.hbmCorr s a n)
    := by
  unfold State.hbmCorr
  refine State.modStack_keeps _ _ _ ?_
  exact hk

theorem State.hbmWrite_keeps (s : State) (a : Nat) (bs : Bytes) (hk : Keeps ls zs s) : Keeps ls zs (State.hbmWrite s
    a bs) := by
  unfold State.hbmWrite
  extract_lets -merge +onlyGivenNames x1
  clear_value x1
  extract_lets -merge +onlyGivenNames x2
  clear_value x2
  extract_lets -merge +onlyGivenNames x3
  clear_value x3
  extract_lets -merge +onlyGivenNames x4
  clear_value x4
  extract_lets -merge +onlyGivenNames x5
  clear_value x5
  extract_lets -merge +onlyGivenNames x6
  clear_value x6
  extract_lets -merge +onlyGivenNames x8 x7
  have h7 : Keeps ls zs x7 := by
    unfold x7
    exact hk.hbm rfl (memWrite_wf hk.2.1 _ _) rfl rfl rfl
  try clear_value x7
  refine State.hbmCorr_keeps _ _ _ ?_
  refine State.hbmUncorr_keeps _ _ _ ?_
  exact h7

theorem State.lineWrite_keeps (s : State) (a : Nat) (o : Nat) (bs : Bytes) (hk : Keeps ls zs s) : Keeps ls zs
    (State.lineWrite s a o bs) := by
  unfold State.lineWrite
  split
  · exact hk.lit rfl rfl rfl rfl rfl
  · refine Keeps.ite (fun _ => ?_) (fun _ => ?_)
    · refine State.hbmWrite_keeps _ _ _ ?_
      exact hk
    · extract_lets -merge +onlyGivenNames x1
      clear_value x1
      split
      · extract_lets -merge +onlyGivenNames x2
        clear_value x2
        extract_lets -merge +onlyGivenNames x3
        clear_value x3
        exact hk.lit rfl rfl rfl rfl rfl
      · exact hk

theorem State.devLines_keeps (s : State) (fuel : Nat) (a : Nat) (bs : Bytes) (hk : Keeps ls zs s) : Keeps ls zs
    (State.devLines s fuel a bs) := by
  induction fuel generalizing s a bs with
  | zero => exact hk
  | succ f ih =>
    rw [State.devLines]
    refine Keeps.ite (fun _ => hk) (fun _ => ?_)
    exact ih _ _ _ (State.lineWrite_keeps _ _ _ _ hk)

theorem State.devWrite_keeps (s : State) (a : Nat) (bs : Bytes) (hk : Keeps ls zs s) : Keeps ls zs (State.devWrite s
    a bs) := by
  unfold State.devWrite
  split
  · refine Keeps.ite (fun _ => ?_) (fun _ => ?_)
    · exact hk
    · refine State.modTile_keeps _ _ _ ?_
      exact hk
  · refine State.devLines_keeps _ _ _ _ ?_
    exact hk
  · refine State.devLines_keeps _ _ _ _ ?_
    exact hk
  · exact hk

/-! ### Nor -/

theorem State.retireSector_keeps (s : State) (n : Nat) (hk : Keeps ls zs s) : Keeps ls zs (State.retireSector s n)
    := by
  unfold State.retireSector
  extract_lets -merge +onlyGivenNames x1
  clear_value x1
  extract_lets -merge +onlyGivenNames x2
  clear_value x2
  refine State.record_keeps _ _ _ _ ?_
  exact hk.lit rfl rfl rfl rfl rfl

theorem State.eraseSector_keeps (s : State) (n : Nat) (role : Nat) (ns : List Nat) (hk : Keeps ls zs s) : Keeps ls
    zs (State.eraseSector s n role ns) := by
  unfold State.eraseSector
  extract_lets -merge +onlyGivenNames x1
  clear_value x1
  extract_lets -merge +onlyGivenNames x2
  clear_value x2
  extract_lets -merge +onlyGivenNames x3
  clear_value x3
  extract_lets -merge +onlyGivenNames x4
  have h4 : Keeps ls zs x4 := by
    unfold x4
    exact hk.lit rfl rfl rfl rfl rfl
  try clear_value x4
  refine Keeps.ite (fun _ => ?_) (fun _ => ?_)
  · refine State.fault_keeps _ _ _ _ ?_
    exact h4
  · exact h4

theorem execLedgerCommit_keeps (s : State) (hk : Keeps ls zs s) : KeepsR ls zs (execLedgerCommit s) := by
  unfold execLedgerCommit
  split
  · refine KeepsR.next ?_
    exact hk
  · refine KeepsR.ite (fun _ => ?_) (fun _ => ?_)
    · extract_lets -merge +onlyGivenNames x2 x1
      clear_value x1
      extract_lets -merge +onlyGivenNames x3
      clear_value x3
      extract_lets -merge +onlyGivenNames x4
      have h4 : Keeps ls zs x4 := by
        unfold x4
        exact hk.lit rfl rfl rfl rfl rfl
      try clear_value x4
      split
      · extract_lets -merge +onlyGivenNames x5
        clear_value x5
        refine KeepsR.next ?_
        refine Keeps.ite (fun _ => ?_) (fun _ => ?_)
        · exact h4.lit rfl rfl rfl rfl rfl
        · exact h4
      · refine KeepsR.next ?_
        exact h4
    · refine KeepsR.next ?_
      exact hk

theorem State.eraseAhead_keeps (s : State) (hk : Keeps ls zs s) : Keeps ls zs (State.eraseAhead s) := by
  unfold State.eraseAhead
  extract_lets -merge +onlyGivenNames x1
  clear_value x1
  split
  · extract_lets -merge +onlyGivenNames x2
    have h2 : Keeps ls zs x2 := by
      unfold x2
      refine State.eraseSector_keeps _ _ _ _ ?_
      exact hk
    clear_value x2
    exact h2.lit rfl rfl rfl rfl rfl
  · split
    · exact hk
    · exact hk
    · extract_lets -merge +onlyGivenNames x3
      clear_value x3
      extract_lets -merge +onlyGivenNames x4
      have h4 : Keeps ls zs x4 := by
        unfold x4
        exact hk.lit rfl rfl rfl rfl rfl
      try clear_value x4
      refine Keeps.ite (fun _ => ?_) (fun _ => ?_)
      · extract_lets -merge +onlyGivenNames x5
        have h5 : Keeps ls zs x5 := by
          unfold x5
          refine State.retireSector_keeps _ _ ?_
          exact h4
        clear_value x5
        split
        · extract_lets -merge +onlyGivenNames x6
          have h6 : Keeps ls zs x6 := by
            unfold x6
            refine State.eraseSector_keeps _ _ _ _ ?_
            exact h5
          clear_value x6
          exact h6.lit rfl rfl rfl rfl rfl
        · exact h5
      · extract_lets -merge +onlyGivenNames x7
        have h7 : Keeps ls zs x7 := by
          unfold x7
          refine State.eraseSector_keeps _ _ _ _ ?_
          exact h4
        clear_value x7
        exact h7.lit rfl rfl rfl rfl rfl

theorem State.keepAhead_keeps (s : State) (hk : Keeps ls zs s) : Keeps ls zs (State.keepAhead s) := by
  unfold State.keepAhead
  refine Keeps.ite (fun _ => ?_) (fun _ => ?_)
  · refine State.eraseAhead_keeps _ ?_
    exact hk
  · exact hk

theorem State.recycle_keeps (s : State) (hk : Keeps ls zs s) : Keeps ls zs (State.recycle s) := by
  unfold State.recycle
  extract_lets -merge +onlyGivenNames x1
  have h1 : Keeps ls zs x1 := by
    unfold x1
    refine Keeps.ite (fun _ => ?_) (fun _ => ?_)
    · refine State.eraseAhead_keeps _ ?_
      exact hk
    · exact hk
  clear_value x1
  split
  · exact h1
  · refine State.keepAhead_keeps _ ?_
    refine State.keepAhead_keeps _ ?_
    exact h1.lit rfl rfl rfl rfl rfl

theorem execLedgerSectorRecycle_keeps (s : State) (hk : Keeps ls zs s) : KeepsR ls zs (execLedgerSectorRecycle s) :=
    by
  unfold execLedgerSectorRecycle
  refine KeepsR.next ?_
  refine Keeps.ite (fun _ => ?_) (fun _ => ?_)
  · refine State.recycle_keeps _ ?_
    exact hk
  · exact hk

theorem State.writeDirect_keeps (s : State) (r : LdgRec) (hk : Keeps ls zs s) : Keeps ls zs (State.writeDirect s r)
    := by
  unfold State.writeDirect
  extract_lets -merge +onlyGivenNames x1
  have h1 : Keeps ls zs x1 := by
    unfold x1
    refine Keeps.ite (fun _ => ?_) (fun _ => ?_)
    · exact hk
    · refine State.recycle_keeps _ ?_
      exact hk
  clear_value x1
  refine Keeps.ite (fun _ => ?_) (fun _ => ?_)
  · extract_lets -merge +onlyGivenNames x2
    clear_value x2
    exact h1.lit rfl rfl rfl rfl rfl
  · exact h1

theorem execLedgerHourly_keeps (s : State) (hk : Keeps ls zs s) : KeepsR ls zs (execLedgerHourly s) := by
  unfold execLedgerHourly
  extract_lets -merge +onlyGivenNames x2 x1
  clear_value x1
  extract_lets -merge +onlyGivenNames x3
  have h3 : Keeps ls zs x3 := by
    unfold x3
    exact hk.lit rfl rfl rfl rfl rfl
  try clear_value x3
  extract_lets -merge +onlyGivenNames x4
  have h4 : Keeps ls zs x4 := by
    unfold x4
    refine State.record_keeps _ _ _ _ ?_
    exact h3
  clear_value x4
  refine KeepsR.next ?_
  refine State.each_keeps _ _ _ ?_ ?_
  · exact h4
  · intro x5 x6 h5
    refine Keeps.ite (fun _ => ?_) (fun _ => ?_)
    · extract_lets -merge +onlyGivenNames x7
      have h7 : Keeps ls zs x7 := by
        unfold x7
        refine State.record_keeps _ _ _ _ ?_
        exact h5
      clear_value x7
      exact h7.lit rfl rfl rfl rfl rfl
    · exact h5

theorem State.writeSet_keeps (s : State) (choice : Nat) (prof : Nat → Option Bytes) (hk : Keeps ls zs s) : Keeps ls
    zs (State.writeSet s choice prof) := by
  unfold State.writeSet
  split
  · exact hk
  · extract_lets -merge +onlyGivenNames x1
    clear_value x1
    extract_lets -merge +onlyGivenNames x2
    clear_value x2
    extract_lets -merge +onlyGivenNames x3
    clear_value x3
    extract_lets -merge +onlyGivenNames x4
    have h4 : Keeps ls zs x4 := by
      unfold x4
      refine State.eraseSector_keeps _ _ _ _ ?_
      exact hk
    clear_value x4
    extract_lets -merge +onlyGivenNames x5
    clear_value x5
    extract_lets -merge +onlyGivenNames x6
    clear_value x6
    exact h4.lit rfl rfl rfl rfl rfl

/-! ### DenOps -/

theorem State.removeTile_keeps (s : State) (d : Nat) (t : Nat) (hk : Keeps ls zs s) : Keeps ls zs (State.removeTile
    s d t) := by
  unfold State.removeTile
  refine Keeps.ite (fun _ => ?_) (fun _ => ?_)
  · extract_lets -merge +onlyGivenNames x1
    have h1 : Keeps ls zs x1 := by
      unfold x1
      refine State.modDen_keeps _ _ _ ?_
      exact hk
    clear_value x1
    refine State.each_keeps _ _ _ ?_ ?_
    · exact h1
    · intro x2 x3 h2
      refine State.startAbort_keeps _ _ _ _ ?_
      exact h2
  · extract_lets -merge +onlyGivenNames x4
    have h4 : Keeps ls zs x4 := by
      unfold x4
      refine State.modDen_keeps _ _ _ ?_
      exact hk
    clear_value x4
    refine State.modTile_keeps _ _ _ ?_
    exact h4

theorem State.setTiles_keeps (s : State) (d : Nat) (mask : BitVec 256) (hk : Keeps ls zs s) : Keeps ls zs
    (State.setTiles s d mask) := by
  unfold State.setTiles
  extract_lets -merge +onlyGivenNames x1
  clear_value x1
  extract_lets -merge +onlyGivenNames x2
  have h2 : Keeps ls zs x2 := by
    unfold x2
    refine State.modDen_keeps _ _ _ ?_
    exact hk
  clear_value x2
  extract_lets -merge +onlyGivenNames x3
  have h3 : Keeps ls zs x3 := by
    unfold x3
    refine State.each_keeps _ _ _ ?_ ?_
    · exact h2
    · intro x4 x5 h4
      refine State.modTile_keeps _ _ _ ?_
      exact h4
  clear_value x3
  refine State.each_keeps _ _ _ ?_ ?_
  · exact h3
  · intro x6 x7 h6
    refine State.removeTile_keeps _ _ _ ?_
    exact h6

theorem State.setHbm_keeps (s : State) (d : Nat) (new : List (Nat × Nat)) (hk : Keeps ls zs s) : Keeps ls zs
    (State.setHbm s d new) := by
  unfold State.setHbm
  extract_lets -merge +onlyGivenNames x1
  clear_value x1
  extract_lets -merge +onlyGivenNames x2
  clear_value x2
  extract_lets -merge +onlyGivenNames x3
  clear_value x3
  extract_lets -merge +onlyGivenNames x4
  extract_lets -merge +onlyGivenNames x5
  refine State.modDen_keeps _ _ _ ?_
  exact hk.hbm rfl (Hbm.foldl_wf (fun _ _ w => Hbm.regranule_wf w _ _ _) _
    (Hbm.foldl_wf (fun _ _ w => Hbm.zeroStripes_wf w _ _) _ hk.2.1)) rfl rfl rfl

theorem State.setMioter_keeps (s : State) (d : Nat) (slots : Nat) (ents : Nat) (hk : Keeps ls zs s) : Keeps ls zs
    (State.setMioter s d slots ents) := by
  unfold State.setMioter
  extract_lets -merge +onlyGivenNames x1
  clear_value x1
  extract_lets -merge +onlyGivenNames x2
  have h2 : Keeps ls zs x2 := by
    unfold x2
    refine Keeps.foldl ?_ _ _ ?_
    · intro x3 x4 h3
      refine State.clearSlot_keeps _ _ _ _ ?_
      exact h3
    · exact hk
  clear_value x2
  extract_lets -merge +onlyGivenNames x5
  have h5 : Keeps ls zs x5 := by
    unfold x5
    refine State.each_keeps _ _ _ ?_ ?_
    · exact h2
    · intro x6 x7 h6
      refine State.modEntry_keeps _ _ _ ?_
      exact h6
  clear_value x5
  refine State.modDen_keeps _ _ _ ?_
  exact h5

theorem State.profileFault_keeps (s : State) (cause : Nat) (idx : Nat) (code : Nat) (den : Option Nat) (hk : Keeps
    ls zs s) : Keeps ls zs (State.profileFault s cause idx code den) := by
  unfold State.profileFault
  refine State.fault_keeps _ _ _ _ ?_
  exact hk

theorem State.applyDenRecord_keeps (s : State) (rcd : Bytes) (hk : Keeps ls zs s) : Keeps ls zs
    (State.applyDenRecord s rcd) := by
  unfold State.applyDenRecord
  extract_lets -merge +onlyGivenNames x1
  clear_value x1
  extract_lets -merge +onlyGivenNames x2
  clear_value x2
  refine Keeps.ite (fun _ => ?_) (fun _ => ?_)
  · refine State.profileFault_keeps _ _ _ _ _ ?_
    exact hk
  · extract_lets -merge +onlyGivenNames x3
    clear_value x3
    extract_lets -merge +onlyGivenNames x4
    clear_value x4
    extract_lets -merge +onlyGivenNames x5
    have h5 : Keeps ls zs x5 := by
      unfold x5
      refine State.each_keeps _ _ _ ?_ ?_
      · exact hk
      · intro x6 x7 h6
        refine State.profileFault_keeps _ _ _ _ _ ?_
        exact h6
    clear_value x5
    extract_lets -merge +onlyGivenNames x8
    clear_value x8
    extract_lets -merge +onlyGivenNames x9
    clear_value x9
    extract_lets -merge +onlyGivenNames x10
    have h10 : Keeps ls zs x10 := by
      unfold x10
      refine Keeps.foldl ?_ _ _ ?_
      · intro x11 x12 h11
        refine Keeps.ite (fun _ => ?_) (fun _ => ?_)
        · exact h11
        · refine State.profileFault_keeps _ _ _ _ _ ?_
          exact h11
      · exact h5
    clear_value x10
    extract_lets -merge +onlyGivenNames x13
    clear_value x13
    extract_lets -merge +onlyGivenNames x14
    have h14 : Keeps ls zs x14 := by
      unfold x14
      refine State.modDen_keeps _ _ _ ?_
      exact h10
    clear_value x14
    extract_lets -merge +onlyGivenNames x15
    have h15 : Keeps ls zs x15 := by
      unfold x15
      refine State.setTiles_keeps _ _ _ ?_
      exact h14
    clear_value x15
    extract_lets -merge +onlyGivenNames x16
    have h16 : Keeps ls zs x16 := by
      unfold x16
      refine State.setHbm_keeps _ _ _ ?_
      exact h15
    clear_value x16
    extract_lets -merge +onlyGivenNames x17
    have h17 : Keeps ls zs x17 := by
      unfold x17
      refine State.each_keeps _ _ _ ?_ ?_
      · exact h16
      · intro x18 x19 h18
        split
        · refine State.modWay_keeps _ _ _ ?_
          exact h18
        · exact h18
    clear_value x17
    extract_lets -merge +onlyGivenNames x20
    have h20 : Keeps ls zs x20 := by
      unfold x20
      refine State.setMioter_keeps _ _ _ _ ?_
      exact h17
    clear_value x20
    refine State.modDen_keeps _ _ _ ?_
    exact h20

theorem State.applyDenRecords_keeps (s : State) (hk : Keeps ls zs s) : Keeps ls zs (State.applyDenRecords s) := by
  unfold State.applyDenRecords
  refine Keeps.foldl ?_ _ _ ?_
  · intro x1 x2 h1
    refine State.applyDenRecord_keeps _ _ ?_
    exact h1
  · exact hk

/-! ### Link -/

theorem State.pump_keeps (s : State) (fuel : Nat) (p : Nat) (hk : Keeps ls zs s) : Keeps ls zs (State.pump s fuel p)
    := by
  induction fuel generalizing s p with
  | zero => exact hk
  | succ f ih =>
    rw [State.pump]
    extract_lets -merge +onlyGivenNames x1
    clear_value x1
    refine Keeps.ite (fun _ => hk) (fun _ => Keeps.ite (fun _ => ?_) (fun _ => ?_))
    · exact ih _ _ (State.emit_keeps _ _ (State.modPort_keeps _ _ _ hk))
    · split
      · exact hk
      · split
        · exact hk
        · exact ih _ _ (State.emit_keeps _ _ (State.modPort_keeps _ _ _ hk))

theorem State.pumpAll_keeps (s : State) (p : Nat) (hk : Keeps ls zs s) : Keeps ls zs (State.pumpAll s p) := by
  unfold State.pumpAll
  refine State.pump_keeps _ _ _ ?_
  exact hk

theorem State.enqueue_keeps (s : State) (p : Nat) (m : Bytes) (hk : Keeps ls zs s) : Keeps ls zs (State.enqueue s p
    m) := by
  unfold State.enqueue
  refine State.pumpAll_keeps _ _ ?_
  refine State.modPort_keeps _ _ _ ?_
  exact hk

theorem State.send_keeps (s : State) (m : Bytes) (hk : Keeps ls zs s) : KeepsO ls zs (State.send s m) := by
  unfold State.send
  split
  · exact KeepsO.none
  · extract_lets -merge +onlyGivenNames x1
    have h1 : Keeps ls zs x1 := by
      unfold x1
      refine Keeps.ite (fun _ => ?_) (fun _ => ?_)
      · exact hk
      · refine State.chargeIfs_keeps _ _ _ ?_
        exact hk
    clear_value x1
    refine KeepsO.some ?_
    refine State.enqueue_keeps _ _ _ ?_
    exact h1

theorem State.sendOr_keeps (s : State) (m : Bytes) (hk : Keeps ls zs s) : Keeps ls zs (State.sendOr s m) := by
  unfold State.sendOr
  split
  · rename_i e1
    have h1 := KeepsO.of (ls := ls) (zs := zs) e1 (by
      refine State.send_keeps _ _ ?_
      exact hk)
    exact h1
  · exact hk

theorem State.mgtAll_keeps (s : State) (ty : Nat) (fields : Bytes) (data : Bytes) (hk : Keeps ls zs s) : Keeps ls zs
    (State.mgtAll s ty fields data) := by
  unfold State.mgtAll
  refine State.each_keeps _ _ _ ?_ ?_
  · exact hk
  · intro x1 x2 h1
    refine State.sendOr_keeps _ _ ?_
    exact h1

theorem State.creditBack_keeps (s : State) (p : Nat) (m : Bytes) (hk : Keeps ls zs s) : Keeps ls zs
    (State.creditBack s p m) := by
  unfold State.creditBack
  refine State.pumpAll_keeps _ _ ?_
  refine State.modPort_keeps _ _ _ ?_
  exact hk

theorem State.linkMsgFault_keeps (s : State) (p : Nat) (hk : Keeps ls zs s) : Keeps ls zs (State.linkMsgFault s p)
    := by
  unfold State.linkMsgFault
  refine State.fault_keeps _ _ _ _ ?_
  exact hk

theorem State.receive_keeps (s : State) (p : Nat) (m : Bytes) (ty : Nat) (f : State → State) (hk : Keeps ls zs s)
    (hf : ∀ (y0 : State), Keeps ls zs y0 → Keeps ls zs (f y0)) : Keeps ls zs (State.receive s p m ty f) := by
  unfold State.receive
  refine Keeps.ite (fun _ => ?_) (fun _ => ?_)
  · extract_lets -merge +onlyGivenNames x1
    have h1 : Keeps ls zs x1 := by
      unfold x1
      refine State.creditBack_keeps _ _ _ ?_
      exact hk
    clear_value x1
    refine Keeps.ite (fun _ => ?_) (fun _ => ?_)
    · refine hf _ ?_
      refine Keeps.ite (fun _ => ?_) (fun _ => ?_)
      · exact h1
      · refine State.count_keeps _ _ _ _ ?_
        exact h1
    · refine State.linkMsgFault_keeps _ _ ?_
      exact h1
  · exact hk

theorem execLinkMsg_keeps (port : Nat) (msg : Bytes) (s : State) (hk : Keeps ls zs s) : KeepsR ls zs (execLinkMsg
    port msg s) := by
  unfold execLinkMsg
  refine KeepsR.next ?_
  refine Keeps.ite (fun _ => ?_) (fun _ => ?_)
  · refine State.linkMsgFault_keeps _ _ ?_
    refine State.creditBack_keeps _ _ _ ?_
    exact hk
  · exact hk

theorem execLctl_keeps (port : Nat) (flit : Bytes) (s : State) (hk : Keeps ls zs s) : KeepsR ls zs (execLctl port
    flit s) := by
  unfold execLctl
  refine KeepsR.next ?_
  refine Keeps.ite (fun _ => ?_) (fun _ => ?_)
  · refine State.pumpAll_keeps _ _ ?_
    refine Keeps.foldl ?_ _ _ ?_
    · intro x1 x2 h1
      refine State.modPort_keeps _ _ _ ?_
      exact h1
    · exact hk
  · exact hk

theorem execTransitMessage_keeps (port : Nat) (msg : Bytes) (s : State) (hk : Keeps ls zs s) : KeepsR ls zs
    (execTransitMessage port msg s) := by
  unfold execTransitMessage
  refine KeepsR.next ?_
  refine Keeps.ite (fun _ => ?_) (fun _ => ?_)
  · refine Keeps.ite (fun _ => ?_) (fun _ => ?_)
    · extract_lets -merge +onlyGivenNames x1
      have h1 : Keeps ls zs x1 := by
        unfold x1
        refine State.creditBack_keeps _ _ _ ?_
        exact hk
      clear_value x1
      exact h1.lit rfl rfl rfl rfl rfl
    · split
      · extract_lets -merge +onlyGivenNames x2
        have h2 : Keeps ls zs x2 := by
          unfold x2
          refine State.creditBack_keeps _ _ _ ?_
          exact hk
        clear_value x2
        exact h2.lit rfl rfl rfl rfl rfl
      · extract_lets -merge +onlyGivenNames x3
        clear_value x3
        refine Keeps.ite (fun _ => ?_) (fun _ => ?_)
        · refine State.creditBack_keeps _ _ _ ?_
          refine State.enqueue_keeps _ _ _ ?_
          exact hk
        · exact hk
  · exact hk

theorem State.fenceLane_keeps (s : State) (p : Nat) (lane : Nat) (reason : Nat) (hk : Keeps ls zs s) : Keeps ls zs
    (State.fenceLane s p lane reason) := by
  unfold State.fenceLane
  refine Keeps.ite (fun _ => ?_) (fun _ => ?_)
  · exact hk
  · extract_lets -merge +onlyGivenNames x1
    have h1 : Keeps ls zs x1 := by
      unfold x1
      refine State.modPort_keeps _ _ _ ?_
      exact hk
    clear_value x1
    extract_lets -merge +onlyGivenNames x3 x2
    have h2 : Keeps ls zs x2 := by
      unfold x2
      exact h1.lit rfl rfl rfl rfl rfl
    try clear_value x2
    refine State.fault_keeps _ _ _ _ ?_
    exact h2

theorem State.afterFence_keeps (s : State) (p : Nat) (hk : Keeps ls zs s) : Keeps ls zs (State.afterFence s p) := by
  unfold State.afterFence
  refine Keeps.ite (fun _ => ?_) (fun _ => ?_)
  · refine State.modPort_keeps _ _ _ ?_
    exact hk
  · refine Keeps.ite (fun _ => ?_) (fun _ => ?_)
    · refine State.modPort_keeps _ _ _ ?_
      exact hk
    · exact hk

theorem execLaneLockLost_keeps (port : Nat) (lane : Nat) (s : State) (hk : Keeps ls zs s) : KeepsR ls zs
    (execLaneLockLost port lane s) := by
  unfold execLaneLockLost
  refine KeepsR.next ?_
  refine Keeps.ite (fun _ => ?_) (fun _ => ?_)
  · refine State.afterFence_keeps _ _ ?_
    refine State.fenceLane_keeps _ _ _ _ ?_
    exact hk
  · exact hk

theorem execPortDown_keeps (port : Nat) (s : State) (hk : Keeps ls zs s) : KeepsR ls zs (execPortDown port s) := by
  unfold execPortDown
  refine KeepsR.next ?_
  refine Keeps.ite (fun _ => ?_) (fun _ => ?_)
  · refine State.modPort_keeps _ _ _ ?_
    exact hk
  · exact hk

theorem execLinkTrain_keeps (port : Nat) (locked : BitVec 8) (peerId : Nat) (peerPort : Nat) (family : Nat) (delay :
    Nat) (s : State) (hk : Keeps ls zs s) : KeepsR ls zs (execLinkTrain port locked peerId peerPort family delay s)
    := by
  unfold execLinkTrain
  refine KeepsR.next ?_
  refine Keeps.ite (fun _ => ?_) (fun _ => ?_)
  · extract_lets -merge +onlyGivenNames x1
    have h1 : Keeps ls zs x1 := by
      unfold x1
      refine State.each_keeps _ _ _ ?_ ?_
      · exact hk
      · intro x2 x3 h2
        refine State.fenceLane_keeps _ _ _ _ ?_
        exact h2
    clear_value x1
    refine Keeps.ite (fun _ => ?_) (fun _ => ?_)
    · refine State.modPort_keeps _ _ _ ?_
      exact h1
    · refine Keeps.ite (fun _ => ?_) (fun _ => ?_)
      · refine State.fault_keeps _ _ _ _ ?_
        refine State.modPort_keeps _ _ _ ?_
        exact h1
      · refine State.pumpAll_keeps _ _ ?_
        refine State.modPort_keeps _ _ _ ?_
        exact h1
  · exact hk

theorem execLinkTrainRetry_keeps (port : Nat) (s : State) (hk : Keeps ls zs s) : KeepsR ls zs (execLinkTrainRetry
    port s) := by
  unfold execLinkTrainRetry
  refine KeepsR.next ?_
  refine Keeps.ite (fun _ => ?_) (fun _ => ?_)
  · refine Keeps.ite (fun _ => ?_) (fun _ => ?_)
    · refine State.modPort_keeps _ _ _ ?_
      exact hk
    · refine State.modPort_keeps _ _ _ ?_
      exact hk
  · exact hk

theorem State.replay_keeps (s : State) (p : Nat) (hk : Keeps ls zs s) : Keeps ls zs (State.replay s p) := by
  unfold State.replay
  extract_lets -merge +onlyGivenNames x1
  clear_value x1
  refine Keeps.ite (fun _ => ?_) (fun _ => ?_)
  · exact hk
  · extract_lets -merge +onlyGivenNames x2
    have h2 : Keeps ls zs x2 := by
      unfold x2
      refine State.modPort_keeps _ _ _ ?_
      exact hk
    clear_value x2
    extract_lets -merge +onlyGivenNames x3
    have h3 : Keeps ls zs x3 := by
      unfold x3
      refine Keeps.foldl ?_ _ _ ?_
      · intro x4 x5 h4
        refine State.emit_keeps _ _ ?_
        exact h4
      · exact h2
    clear_value x3
    refine Keeps.ite (fun _ => ?_) (fun _ => ?_)
    · extract_lets -merge +onlyGivenNames x6
      have h6 : Keeps ls zs x6 := by
        unfold x6
        refine State.modPort_keeps _ _ _ ?_
        exact h3
      clear_value x6
      refine State.afterFence_keeps _ _ ?_
      refine State.each_keeps _ _ _ ?_ ?_
      · exact h6
      · intro x7 x8 h7
        refine State.fenceLane_keeps _ _ _ _ ?_
        exact h7
    · exact h3

theorem execCodewordReceive_keeps (port : Nat) (header : BitVec 20) (errs : List Nat) (bad : Bool) (s : State) (hk :
    Keeps ls zs s) : KeepsR ls zs (execCodewordReceive port header errs bad s) := by
  unfold execCodewordReceive
  refine KeepsR.next ?_
  refine Keeps.ite (fun _ => ?_) (fun _ => ?_)
  · refine Keeps.ite (fun _ => ?_) (fun _ => ?_)
    · refine State.modPort_keeps _ _ _ ?_
      exact hk
    · extract_lets -merge +onlyGivenNames x1
      clear_value x1
      extract_lets -merge +onlyGivenNames x2
      have h2 : Keeps ls zs x2 := by
        unfold x2
        refine State.modPort_keeps _ _ _ ?_
        exact hk
      clear_value x2
      extract_lets -merge +onlyGivenNames x3
      have h3 : Keeps ls zs x3 := by
        unfold x3
        refine State.modPort_keeps _ _ _ ?_
        exact h2
      clear_value x3
      extract_lets -merge +onlyGivenNames x4
      have h4 : Keeps ls zs x4 := by
        unfold x4
        refine Keeps.ite (fun _ => ?_) (fun _ => ?_)
        · exact h3
        · refine Keeps.ite (fun _ => ?_) (fun _ => ?_)
          · refine State.modPort_keeps _ _ _ ?_
            exact h3
          · refine State.modPort_keeps _ _ _ ?_
            exact h3
      clear_value x4
      extract_lets -merge +onlyGivenNames x5
      have h5 : Keeps ls zs x5 := by
        unfold x5
        refine Keeps.ite (fun _ => ?_) (fun _ => ?_)
        · refine State.replay_keeps _ _ ?_
          exact h4
        · exact h4
      clear_value x5
      extract_lets -merge +onlyGivenNames x6
      have h6 : Keeps ls zs x6 := by
        unfold x6
        refine State.pumpAll_keeps _ _ ?_
        exact h5
      clear_value x6
      extract_lets -merge +onlyGivenNames x7
      clear_value x7
      refine Keeps.ite (fun _ => ?_) (fun _ => ?_)
      · exact h6
      · refine State.afterFence_keeps _ _ ?_
        refine State.each_keeps _ _ _ ?_ ?_
        · exact h6
        · intro x8 x9 h8
          refine State.fenceLane_keeps _ _ _ _ ?_
          exact h8
  · exact hk

theorem State.applyLinkMask_keeps (s : State) (hk : Keeps ls zs s) : Keeps ls zs (State.applyLinkMask s) := by
  unfold State.applyLinkMask
  refine State.each_keeps _ _ _ ?_ ?_
  · exact hk
  · intro x1 x2 h1
    extract_lets -merge +onlyGivenNames x3
    clear_value x3
    refine Keeps.ite (fun _ => ?_) (fun _ => ?_)
    · split
      · refine State.modPort_keeps _ _ _ ?_
        exact h1
      · refine State.modPort_keeps _ _ _ ?_
        exact h1
      · refine State.modPort_keeps _ _ _ ?_
        exact h1
      · exact h1
    · refine State.modPort_keeps _ _ _ ?_
      exact h1

/-! ### Timers -/

theorem State.timerMatch_keeps (s : State) (n : Nat) (hk : Keeps ls zs s) : Keeps ls zs (State.timerMatch s n) := by
  unfold State.timerMatch
  extract_lets -merge +onlyGivenNames x2 x1
  have h1 : Keeps ls zs x1 := by
    unfold x1
    exact hk.lit rfl rfl rfl rfl rfl
  try clear_value x1
  refine State.modTmr_keeps _ _ _ ?_
  exact h1

theorem State.tryMatch_keeps (s : State) (n : Nat) (hk : Keeps ls zs s) : Keeps ls zs (State.tryMatch s n) := by
  unfold State.tryMatch
  refine Keeps.ite (fun _ => ?_) (fun _ => ?_)
  · refine State.timerMatch_keeps _ _ ?_
    exact hk
  · exact hk

theorem execTmrMatch_keeps (tmr : Nat) (s : State) (hk : Keeps ls zs s) : KeepsR ls zs (execTmrMatch tmr s) := by
  unfold execTmrMatch
  refine KeepsR.next ?_
  refine Keeps.ite (fun _ => ?_) (fun _ => ?_)
  · refine State.tryMatch_keeps _ _ ?_
    exact hk
  · exact hk

theorem State.gstart_keeps (s : State) (start : BitVec 8) (defer : Bool) (hk : Keeps ls zs s) : Keeps ls zs
    (State.gstart s start defer) := by
  unfold State.gstart
  refine State.each_keeps _ _ _ ?_ ?_
  · exact hk
  · intro x1 x2 h1
    refine State.modTmr_keeps _ _ _ ?_
    exact h1

theorem execTmrGstart_keeps (start : BitVec 8) (defer : Bool) (s : State) (hk : Keeps ls zs s) : KeepsR ls zs
    (execTmrGstart start defer s) := by
  unfold execTmrGstart
  refine KeepsR.next ?_
  refine Keeps.ite (fun _ => ?_) (fun _ => ?_)
  · refine State.gstart_keeps _ _ _ ?_
    exact hk
  · exact hk

theorem State.deferredStart_keeps (s : State) (hk : Keeps ls zs s) : Keeps ls zs (State.deferredStart s) := by
  unfold State.deferredStart
  refine Keeps.ite (fun _ => ?_) (fun _ => ?_)
  · refine State.each_keeps _ _ _ ?_ ?_
    · exact hk
    · intro x1 x2 h1
      refine Keeps.ite (fun _ => ?_) (fun _ => ?_)
      · refine State.modTmr_keeps _ _ _ ?_
        exact h1
      · exact h1
  · exact hk

theorem execTmrDeferredStart_keeps (s : State) (hk : Keeps ls zs s) : KeepsR ls zs (execTmrDeferredStart s) := by
  unfold execTmrDeferredStart
  refine KeepsR.next ?_
  refine Keeps.ite (fun _ => ?_) (fun _ => ?_)
  · refine State.deferredStart_keeps _ ?_
    exact hk
  · exact hk

theorem State.gateWrite_keeps (s : State) (n : Nat) (v : W64) (hk : Keeps ls zs s) : Keeps ls zs (State.gateWrite s
    n v) := by
  unfold State.gateWrite
  refine Keeps.ite (fun _ => ?_) (fun _ => ?_)
  · refine State.fault_keeps _ _ _ _ ?_
    exact hk
  · refine State.modTmr_keeps _ _ _ ?_
    exact hk

theorem execTmrGateWrite_keeps (tmr : Nat) (value : W64) (s : State) (hk : Keeps ls zs s) : KeepsR ls zs
    (execTmrGateWrite tmr value s) := by
  unfold execTmrGateWrite
  refine KeepsR.next ?_
  refine Keeps.ite (fun _ => ?_) (fun _ => ?_)
  · refine State.gateWrite_keeps _ _ _ ?_
    exact hk
  · exact hk

theorem State.wdgHold_keeps (s : State) (hk : Keeps ls zs s) : Keeps ls zs (State.wdgHold s) := by
  unfold State.wdgHold
  refine Keeps.ite (fun _ => ?_) (fun _ => ?_)
  · exact hk.lit rfl rfl rfl rfl rfl
  · exact hk

theorem State.wdgResume_keeps (s : State) (hk : Keeps ls zs s) : Keeps ls zs (State.wdgResume s) := by
  unfold State.wdgResume
  refine Keeps.ite (fun _ => ?_) (fun _ => ?_)
  · exact hk.lit rfl rfl rfl rfl rfl
  · exact hk

theorem execJtagHalt_keeps (s : State) (hk : Keeps ls zs s) : KeepsR ls zs (execJtagHalt s) := by
  unfold execJtagHalt
  refine KeepsR.next ?_
  refine Keeps.ite (fun _ => ?_) (fun _ => ?_)
  · refine State.wdgHold_keeps _ ?_
    exact hk.lit rfl rfl rfl rfl rfl
  · exact hk

theorem execDebugHaltEnd_keeps (s : State) (hk : Keeps ls zs s) : KeepsR ls zs (execDebugHaltEnd s) := by
  unfold execDebugHaltEnd
  refine KeepsR.next ?_
  refine Keeps.ite (fun _ => ?_) (fun _ => ?_)
  · refine State.wdgResume_keeps _ ?_
    exact hk.lit rfl rfl rfl rfl rfl
  · exact hk

theorem State.makeup_keeps (s : State) (e : Nat) (hk : Keeps ls zs s) : Keeps ls zs (State.makeup s e) := by
  unfold State.makeup
  extract_lets -merge +onlyGivenNames x1
  clear_value x1
  extract_lets -merge +onlyGivenNames x2
  clear_value x2
  extract_lets -merge +onlyGivenNames x4 x3
  have h3 : Keeps ls zs x3 := by
    unfold x3
    exact hk.lit rfl rfl rfl rfl rfl
  try clear_value x3
  extract_lets -merge +onlyGivenNames x5
  have h5 : Keeps ls zs x5 := by
    unfold x5
    refine Keeps.ite (fun _ => ?_) (fun _ => ?_)
    · exact h3
    · refine State.each_keeps _ _ _ ?_ ?_
      · exact h3
      · intro x6 x7 h6
        refine Keeps.ite (fun _ => ?_) (fun _ => ?_)
        · refine State.modTmr_keeps _ _ _ ?_
          exact h6
        · exact h6
  clear_value x5
  refine State.deferredStart_keeps _ ?_
  refine State.each_keeps _ _ _ ?_ ?_
  · exact h5
  · intro x8 x9 h8
    refine State.tryMatch_keeps _ _ ?_
    exact h8

theorem State.aonTick_keeps (s : State) (hk : Keeps ls zs s) : Keeps ls zs (State.aonTick s) := by
  unfold State.aonTick
  extract_lets -merge +onlyGivenNames x1
  clear_value x1
  extract_lets -merge +onlyGivenNames x2
  clear_value x2
  extract_lets -merge +onlyGivenNames x3
  clear_value x3
  extract_lets -merge +onlyGivenNames x4
  exact hk.lit rfl rfl rfl rfl rfl

theorem State.wtimeTick_keeps (s : State) (hk : Keeps ls zs s) : Keeps ls zs (State.wtimeTick s) := by
  unfold State.wtimeTick
  refine Keeps.ite (fun _ => ?_) (fun _ => ?_)
  · exact hk.lit rfl rfl rfl rfl rfl
  · refine Keeps.ite (fun _ => ?_) (fun _ => ?_)
    · exact hk.lit rfl rfl rfl rfl rfl
    · exact hk.lit rfl rfl rfl rfl rfl

theorem State.tmrCount_keeps (s : State) (hk : Keeps ls zs s) : Keeps ls zs (State.tmrCount s) := by
  unfold State.tmrCount
  refine Keeps.ite (fun _ => ?_) (fun _ => ?_)
  · exact hk
  · refine State.each_keeps _ _ _ ?_ ?_
    · exact hk
    · intro x1 x2 h1
      refine Keeps.ite (fun _ => ?_) (fun _ => ?_)
      · refine State.modTmr_keeps _ _ _ ?_
        exact h1
      · exact h1

theorem State.guardTicks_keeps (s : State) (hk : Keeps ls zs s) : Keeps ls zs (State.guardTicks s) := by
  unfold State.guardTicks
  exact hk.lit rfl rfl rfl rfl rfl

theorem State.aonShare_keeps (s : State) (hk : Keeps ls zs s) : Keeps ls zs (State.aonShare s) := by
  unfold State.aonShare
  extract_lets -merge +onlyGivenNames x1
  clear_value x1
  refine Keeps.ite (fun _ => ?_) (fun _ => ?_)
  · exact hk.lit rfl rfl rfl rfl rfl
  · refine State.aonTick_keeps _ ?_
    exact hk.lit rfl rfl rfl rfl rfl

theorem State.tmclkTick_keeps (s : State) (hk : Keeps ls zs s) : Keeps ls zs (State.tmclkTick s) := by
  unfold State.tmclkTick
  refine State.aonShare_keeps _ ?_
  refine State.guardTicks_keeps _ ?_
  refine State.deferredStart_keeps _ ?_
  refine State.each_keeps _ _ _ ?_ ?_
  · refine State.tmrCount_keeps _ ?_
    refine State.wtimeTick_keeps _ ?_
    exact hk
  · intro x1 x2 h1
    refine State.tryMatch_keeps _ _ ?_
    exact h1

theorem State.mgtSend_keeps (s : State) (hk : Keeps ls zs s) : Keeps ls zs (State.mgtSend s) := by
  unfold State.mgtSend
  split
  · refine Keeps.ite (fun _ => ?_) (fun _ => ?_)
    · exact hk
    · refine State.emit_keeps _ _ ?_
      exact hk.lit rfl rfl rfl rfl rfl
  · exact hk

theorem State.tick_keeps (s : State) (hk : Keeps ls zs s) : Keeps ls zs (State.tick s) := by
  unfold State.tick
  refine Keeps.ite (fun _ => ?_) (fun _ => ?_)
  · refine State.tmclkTick_keeps _ ?_
    refine State.mgtSend_keeps _ ?_
    exact hk
  · refine Keeps.ite (fun _ => ?_) (fun _ => ?_)
    · exact hk
    · refine State.aonTick_keeps _ ?_
      refine State.mgtSend_keeps _ ?_
      exact hk

/-! ### Power -/

theorem State.stopClocks_keeps (s : State) (hk : Keeps ls zs s) : Keeps ls zs (State.stopClocks s) := by
  unfold State.stopClocks
  extract_lets -merge +onlyGivenNames x1
  have h1 : Keeps ls zs x1 := by
    unfold x1
    refine State.mgtAll_keeps _ _ _ _ ?_
    exact hk
  clear_value x1
  extract_lets -merge +onlyGivenNames x2
  have h2 : Keeps ls zs x2 := by
    unfold x2
    refine State.each_keeps _ _ _ ?_ ?_
    · exact h1
    · intro x3 x4 h3
      refine Keeps.ite (fun _ => ?_) (fun _ => ?_)
      · refine State.modPort_keeps _ _ _ ?_
        exact h3
      · exact h3
  clear_value x2
  extract_lets -merge +onlyGivenNames x5
  have h5 : Keeps ls zs x5 := by
    unfold x5
    refine State.each_keeps _ _ _ ?_ ?_
    · exact h2
    · intro x6 x7 h6
      refine State.modStack_keeps _ _ _ ?_
      exact h6
  clear_value x5
  extract_lets -merge +onlyGivenNames x8
  have h8 : Keeps ls zs x8 := by
    unfold x8
    refine State.wdgHold_keeps _ ?_
    exact h5
  clear_value x8
  exact h8.lit rfl rfl rfl rfl rfl

theorem State.startClocks_keeps (s : State) (hk : Keeps ls zs s) : Keeps ls zs (State.startClocks s) := by
  unfold State.startClocks
  extract_lets -merge +onlyGivenNames x1
  have h1 : Keeps ls zs x1 := by
    unfold x1
    refine State.wdgResume_keeps _ ?_
    refine State.makeup_keeps _ _ ?_
    exact hk
  clear_value x1
  extract_lets -merge +onlyGivenNames x2
  have h2 : Keeps ls zs x2 := by
    unfold x2
    refine State.each_keeps _ _ _ ?_ ?_
    · exact h1
    · intro x3 x4 h3
      refine State.modStack_keeps _ _ _ ?_
      exact h3
  clear_value x2
  extract_lets -merge +onlyGivenNames x5
  have h5 : Keeps ls zs x5 := by
    unfold x5
    refine State.each_keeps _ _ _ ?_ ?_
    · exact h2
    · intro x6 x7 h6
      refine Keeps.ite (fun _ => ?_) (fun _ => ?_)
      · refine State.pumpAll_keeps _ _ ?_
        refine State.modPort_keeps _ _ _ ?_
        exact h6
      · exact h6
  clear_value x5
  refine State.mgtAll_keeps _ _ _ _ ?_
  exact h5

theorem State.hushEntry_keeps (s : State) (thermal : Bool) (hk : Keeps ls zs s) : Keeps ls zs (State.hushEntry s
    thermal) := by
  unfold State.hushEntry
  refine Keeps.ite (fun _ => ?_) (fun _ => ?_)
  · exact hk
  · extract_lets -merge +onlyGivenNames x1
    have h1 : Keeps ls zs x1 := by
      unfold x1
      refine State.stopClocks_keeps _ ?_
      exact hk
    clear_value x1
    exact h1.lit rfl rfl rfl rfl rfl

theorem State.wakeReq_keeps (s : State) (code : Nat) (hk : Keeps ls zs s) : Keeps ls zs (State.wakeReq s code) := by
  unfold State.wakeReq
  refine Keeps.ite (fun _ => ?_) (fun _ => ?_)
  · exact hk.lit rfl rfl rfl rfl rfl
  · exact hk

theorem State.svcStart_keeps (s : State) (hk : Keeps ls zs s) : Keeps ls zs (State.svcStart s) := by
  unfold State.svcStart
  refine Keeps.ite (fun _ => ?_) (fun _ => ?_)
  · refine State.startClocks_keeps _ ?_
    exact hk.lit rfl rfl rfl rfl rfl
  · exact hk

theorem execHushAlarm_keeps (s : State) (hk : Keeps ls zs s) : KeepsR ls zs (execHushAlarm s) := by
  unfold execHushAlarm
  refine KeepsR.next ?_
  refine Keeps.ite (fun _ => ?_) (fun _ => ?_)
  · refine State.wakeReq_keeps _ _ ?_
    exact hk.lit rfl rfl rfl rfl rfl
  · exact hk

theorem execStandbyClockStop_keeps (s : State) (hk : Keeps ls zs s) : KeepsR ls zs (execStandbyClockStop s) := by
  unfold execStandbyClockStop
  refine KeepsR.next ?_
  refine Keeps.ite (fun _ => ?_) (fun _ => ?_)
  · extract_lets -merge +onlyGivenNames x1
    have h1 : Keeps ls zs x1 := by
      unfold x1
      refine State.stopClocks_keeps _ ?_
      exact hk
    clear_value x1
    exact h1.lit rfl rfl rfl rfl rfl
  · exact hk

theorem execD3hotEntry_keeps (s : State) (hk : Keeps ls zs s) : KeepsR ls zs (execD3hotEntry s) := by
  unfold execD3hotEntry
  refine KeepsR.next ?_
  refine Keeps.ite (fun _ => ?_) (fun _ => ?_)
  · extract_lets -merge +onlyGivenNames x1
    have h1 : Keeps ls zs x1 := by
      unfold x1
      refine State.stopClocks_keeps _ ?_
      refine State.killReqs_keeps _ _ _ ?_
      exact hk
    clear_value x1
    exact h1.lit rfl rfl rfl rfl rfl
  · refine Keeps.ite (fun _ => ?_) (fun _ => ?_)
    · extract_lets -merge +onlyGivenNames x2
      have h2 : Keeps ls zs x2 := by
        unfold x2
        refine State.killReqs_keeps _ _ _ ?_
        exact hk
      clear_value x2
      exact h2.lit rfl rfl rfl rfl rfl
    · exact hk

theorem execD0Return_keeps (s : State) (hk : Keeps ls zs s) : KeepsR ls zs (execD0Return s) := by
  unfold execD0Return
  refine KeepsR.next ?_
  refine Keeps.ite (fun _ => ?_) (fun _ => ?_)
  · refine Keeps.ite (fun _ => ?_) (fun _ => ?_)
    · exact hk.lit rfl rfl rfl rfl rfl
    · refine Keeps.ite (fun _ => ?_) (fun _ => ?_)
      · exact hk.lit rfl rfl rfl rfl rfl
      · refine State.startClocks_keeps _ ?_
        exact hk.lit rfl rfl rfl rfl rfl
  · exact hk

theorem execTclkStep_keeps (s : State) (hk : Keeps ls zs s) : KeepsR ls zs (execTclkStep s) := by
  unfold execTclkStep
  refine KeepsR.next ?_
  refine Keeps.ite (fun _ => ?_) (fun _ => ?_)
  · exact hk.lit rfl rfl rfl rfl rfl
  · exact hk

theorem execPowerLimiterEval_keeps (p100 : Nat) (p1ms : Nat) (s : State) (hk : Keeps ls zs s) : KeepsR ls zs
    (execPowerLimiterEval p100 p1ms s) := by
  unfold execPowerLimiterEval
  refine KeepsR.next ?_
  refine Keeps.ite (fun _ => ?_) (fun _ => ?_)
  · extract_lets -merge +onlyGivenNames x2 x1
    clear_value x1
    exact hk.lit rfl rfl rfl rfl rfl
  · exact hk

theorem execAonclkTrim_keeps (ok : Bool) (s : State) (hk : Keeps ls zs s) : KeepsR ls zs (execAonclkTrim ok s) := by
  unfold execAonclkTrim
  refine KeepsR.next ?_
  refine Keeps.ite (fun _ => ?_) (fun _ => ?_)
  · exact hk
  · refine Keeps.ite (fun _ => ?_) (fun _ => ?_)
    · refine State.fault_keeps _ _ _ _ ?_
      exact hk.lit rfl rfl rfl rfl rfl
    · exact hk.lit rfl rfl rfl rfl rfl

theorem State.thermalEvent_keeps (s : State) (src : Nat) (level : Nat) (reading : Nat) (hk : Keeps ls zs s) : Keeps
    ls zs (State.thermalEvent s src level reading) := by
  unfold State.thermalEvent
  extract_lets -merge +onlyGivenNames x1
  clear_value x1
  extract_lets -merge +onlyGivenNames x3 x2
  have h2 : Keeps ls zs x2 := by
    unfold x2
    exact hk.lit rfl rfl rfl rfl rfl
  try clear_value x2
  extract_lets -merge +onlyGivenNames x4
  have h4 : Keeps ls zs x4 := by
    unfold x4
    refine KeepsP.snd ?_
    refine State.postEvent_keeps _ _ _ _ _ ?_
    exact h2
  clear_value x4
  refine State.each_keeps _ _ _ ?_ ?_
  · exact h4
  · intro x5 x6 h5
    refine Keeps.ite (fun _ => ?_) (fun _ => ?_)
    · refine KeepsP.snd ?_
      refine State.postEvent_keeps _ _ _ _ _ ?_
      exact h5
    · exact h5

theorem State.thermalEvents_keeps (s : State) (hk : Keeps ls zs s) : Keeps ls zs (State.thermalEvents s) := by
  unfold State.thermalEvents
  refine Keeps.ite (fun _ => ?_) (fun _ => ?_)
  · extract_lets -merge +onlyGivenNames x1
    have h1 : Keeps ls zs x1 := by
      unfold x1
      refine State.each_keeps _ _ _ ?_ ?_
      · exact hk
      · intro x2 x3 h2
        refine Keeps.ite (fun _ => ?_) (fun _ => ?_)
        · refine State.thermalEvent_keeps _ _ _ _ ?_
          exact h2
        · exact h2
    clear_value x1
    refine Keeps.ite (fun _ => ?_) (fun _ => ?_)
    · refine State.thermalEvent_keeps _ _ _ _ ?_
      exact h1
    · exact h1
  · exact hk

theorem State.thermalEntry_keeps (s : State) (key : Nat) (src : Nat) (level : Nat) (temp : BitVec 8) (hk : Keeps ls
    zs s) : Keeps ls zs (State.thermalEntry s key src level temp) := by
  unfold State.thermalEntry
  extract_lets -merge +onlyGivenNames x1
  clear_value x1
  extract_lets -merge +onlyGivenNames x3 x2
  have h2 : Keeps ls zs x2 := by
    unfold x2
    exact hk.lit rfl rfl rfl rfl rfl
  try clear_value x2
  refine Keeps.ite (fun _ => ?_) (fun _ => ?_)
  · refine State.record_keeps _ _ _ _ ?_
    exact h2
  · exact h2

theorem State.setDieLevel_keeps (s : State) (d : Nat) (xa2 : Nat) (hk : Keeps ls zs s) : Keeps ls zs
    (State.setDieLevel s d xa2) := by
  unfold State.setDieLevel
  extract_lets -merge +onlyGivenNames x1
  clear_value x1
  extract_lets -merge +onlyGivenNames x3 x2
  have h2 : Keeps ls zs x2 := by
    unfold x2
    exact hk.lit rfl rfl rfl rfl rfl
  try clear_value x2
  refine Keeps.ite (fun _ => ?_) (fun _ => ?_)
  · extract_lets -merge +onlyGivenNames x5 x4
    have h4 : Keeps ls zs x4 := by
      unfold x4
      exact h2.lit rfl rfl rfl rfl rfl
    try clear_value x4
    refine State.thermalEntry_keeps _ _ _ _ _ ?_
    exact h4
  · exact h2

theorem State.setStackLevel_keeps (s : State) (n : Nat) (xa2 : Nat) (hk : Keeps ls zs s) : Keeps ls zs
    (State.setStackLevel s n xa2) := by
  unfold State.setStackLevel
  extract_lets -merge +onlyGivenNames x1
  clear_value x1
  extract_lets -merge +onlyGivenNames x2
  have h2 : Keeps ls zs x2 := by
    unfold x2
    refine State.modStack_keeps _ _ _ ?_
    exact hk
  clear_value x2
  refine Keeps.ite (fun _ => ?_) (fun _ => ?_)
  · refine State.thermalEntry_keeps _ _ _ _ _ ?_
    exact h2
  · exact h2

theorem State.heatAct_keeps (s : State) (hk : Keeps ls zs s) : Keeps ls zs (State.heatAct s) := by
  unfold State.heatAct
  refine Keeps.ite (fun _ => ?_) (fun _ => ?_)
  · split
    · refine State.hushEntry_keeps _ _ ?_
      exact hk
    · exact hk.lit rfl rfl rfl rfl rfl
    · refine Keeps.ite (fun _ => ?_) (fun _ => ?_)
      · exact hk
      · extract_lets -merge +onlyGivenNames x1
        have h1 : Keeps ls zs x1 := by
          unfold x1
          refine Keeps.ite (fun _ => ?_) (fun _ => ?_)
          · refine State.stopClocks_keeps _ ?_
            exact hk
          · exact hk
        clear_value x1
        exact h1.lit rfl rfl rfl rfl rfl
    · refine Keeps.ite (fun _ => ?_) (fun _ => ?_)
      · exact hk
      · extract_lets -merge +onlyGivenNames x2
        have h2 : Keeps ls zs x2 := by
          unfold x2
          refine State.stopClocks_keeps _ ?_
          exact hk
        clear_value x2
        exact h2.lit rfl rfl rfl rfl rfl
    · exact hk
    · exact hk
  · exact hk

theorem State.resumeLevels_keeps (s : State) (hk : Keeps ls zs s) : Keeps ls zs (State.resumeLevels s) := by
  unfold State.resumeLevels
  extract_lets -merge +onlyGivenNames x1
  have h1 : Keeps ls zs x1 := by
    unfold x1
    refine State.each_keeps _ _ _ ?_ ?_
    · exact hk
    · intro x2 x3 h2
      refine Keeps.ite (fun _ => ?_) (fun _ => ?_)
      · refine State.setStackLevel_keeps _ _ _ ?_
        exact h2
      · exact h2
  clear_value x1
  refine State.each_keeps _ _ _ ?_ ?_
  · exact h1
  · intro x4 x5 h4
    refine Keeps.ite (fun _ => ?_) (fun _ => ?_)
    · refine State.setDieLevel_keeps _ _ _ ?_
      exact h4
    · exact h4

theorem State.trip_keeps (s : State) (src : Nat) (temp : BitVec 8) (hk : Keeps ls zs s) : Keeps ls zs (State.trip s
    src temp) := by
  unfold State.trip
  extract_lets -merge +onlyGivenNames x1
  have h1 : Keeps ls zs x1 := by
    unfold x1
    refine State.record_keeps _ _ _ _ ?_
    exact hk
  clear_value x1
  exact h1.hbm rfl rfl rfl rfl rfl

theorem execDieTempRead_keeps (die : Nat) (temp : BitVec 8) (s : State) (hk : Keeps ls zs s) : KeepsR ls zs
    (execDieTempRead die temp s) := by
  unfold execDieTempRead
  refine KeepsR.next ?_
  refine Keeps.ite (fun _ => ?_) (fun _ => ?_)
  · exact hk
  · extract_lets -merge +onlyGivenNames x2 x1
    have h1 : Keeps ls zs x1 := by
      unfold x1
      exact hk.lit rfl rfl rfl rfl rfl
    try clear_value x1
    refine Keeps.ite (fun _ => ?_) (fun _ => ?_)
    · refine State.trip_keeps _ _ _ ?_
      exact h1
    · refine State.heatAct_keeps _ ?_
      refine State.thermalEvents_keeps _ ?_
      refine State.setDieLevel_keeps _ _ _ ?_
      exact h1

theorem execHbmTempRead_keeps (stack : Nat) (temp : BitVec 8) (s : State) (hk : Keeps ls zs s) : KeepsR ls zs
    (execHbmTempRead stack temp s) := by
  unfold execHbmTempRead
  refine KeepsR.next ?_
  refine Keeps.ite (fun _ => ?_) (fun _ => ?_)
  · exact hk
  · extract_lets -merge +onlyGivenNames x1
    have h1 : Keeps ls zs x1 := by
      unfold x1
      refine State.modStack_keeps _ _ _ ?_
      exact hk
    clear_value x1
    extract_lets -merge +onlyGivenNames x3 x2
    have h2 : Keeps ls zs x2 := by
      unfold x2
      exact h1.lit rfl rfl rfl rfl rfl
    try clear_value x2
    refine Keeps.ite (fun _ => ?_) (fun _ => ?_)
    · refine State.trip_keeps _ _ _ ?_
      exact h2
    · extract_lets -merge +onlyGivenNames x4
      clear_value x4
      refine State.heatAct_keeps _ ?_
      refine State.thermalEvents_keeps _ ?_
      refine State.setStackLevel_keeps _ _ _ ?_
      exact h2

theorem execRegulatorRefill_keeps (s : State) (hk : Keeps ls zs s) : KeepsR ls zs (execRegulatorRefill s) := by
  unfold execRegulatorRefill
  refine KeepsR.next ?_
  refine Keeps.ite (fun _ => ?_) (fun _ => ?_)
  · refine State.each_keeps _ _ _ ?_ ?_
    · exact hk
    · intro x1 x2 h1
      refine State.modDen_keeps _ _ _ ?_
      exact h1
  · exact hk

theorem State.chargeEnergy_keeps (s : State) (d : Nat) (hk : Keeps ls zs s) : Keeps ls zs (State.chargeEnergy s d)
    := by
  unfold State.chargeEnergy
  extract_lets -merge +onlyGivenNames x1
  have h1 : KeepsP ls zs x1 := by
    unfold x1
    refine State.free_keeps _ _ ?_
    exact hk
  clear_value x1
  refine State.count_keeps _ _ _ _ ?_
  exact h1

theorem execEnergyCalibrate_keeps (factor : W32) (s : State) (hk : Keeps ls zs s) : KeepsR ls zs
    (execEnergyCalibrate factor s) := by
  unfold execEnergyCalibrate
  refine KeepsR.next ?_
  refine Keeps.ite (fun _ => ?_) (fun _ => ?_)
  · extract_lets -merge +onlyGivenNames x1
    have h1 : Keeps ls zs x1 := by
      unfold x1
      refine State.each_keeps _ _ _ ?_ ?_
      · exact hk
      · intro x2 x3 h2
        refine State.chargeEnergy_keeps _ _ ?_
        exact h2
    clear_value x1
    extract_lets -merge +onlyGivenNames x4
    have h4 : KeepsP ls zs x4 := by
      unfold x4
      refine State.free_keeps _ _ ?_
      exact h1
    clear_value x4
    extract_lets -merge +onlyGivenNames x5
    have h5 : Keeps ls zs x5 := by
      unfold x5
      exact h4
    clear_value x5
    exact h5.lit rfl rfl rfl rfl rfl
  · exact hk

theorem State.acctSnap_keeps (s : State) (hk : Keeps ls zs s) : Keeps ls zs (State.acctSnap s) := by
  unfold State.acctSnap
  extract_lets -merge +onlyGivenNames x1
  have h1 : Keeps ls zs x1 := by
    unfold x1
    refine State.each_keeps _ _ _ ?_ ?_
    · exact hk
    · intro x2 x3 h2
      refine State.modDen_keeps _ _ _ ?_
      exact h2
  clear_value x1
  exact h1.lit rfl rfl rfl rfl rfl

theorem execAcctSnap_keeps (s : State) (hk : Keeps ls zs s) : KeepsR ls zs (execAcctSnap s) := by
  unfold execAcctSnap
  refine KeepsR.next ?_
  refine Keeps.ite (fun _ => ?_) (fun _ => ?_)
  · refine State.acctSnap_keeps _ ?_
    exact hk
  · exact hk

/-! ### Boot -/

theorem State.freeNat_keeps (s : State) (n : Nat) (hk : Keeps ls zs s) : KeepsP ls zs (State.freeNat s n) := by
  unfold State.freeNat
  extract_lets -merge +onlyGivenNames x1
  have h1 : KeepsP ls zs x1 := by
    unfold x1
    refine State.free_keeps _ _ ?_
    exact hk
  clear_value x1
  refine KeepsP.mk ?_
  exact h1

theorem State.becomeMaster_keeps (s : State) (hk : Keeps ls zs s) : Keeps ls zs (State.becomeMaster s) := by
  unfold State.becomeMaster
  extract_lets -merge +onlyGivenNames x1
  clear_value x1
  extract_lets -merge +onlyGivenNames x2
  have h2 : Keeps ls zs x2 := by
    unfold x2
    exact hk.lit rfl rfl rfl rfl rfl
  try clear_value x2
  extract_lets -merge +onlyGivenNames x3
  have h3 : Keeps ls zs x3 := by
    unfold x3
    refine State.mgtAll_keeps _ _ _ _ ?_
    exact h2
  clear_value x3
  extract_lets -merge +onlyGivenNames x4
  have h4 : Keeps ls zs x4 := by
    unfold x4
    exact h3.lit rfl rfl rfl rfl rfl
  try clear_value x4
  refine State.mgtAll_keeps _ _ _ _ ?_
  exact h4

theorem State.trainPcie_keeps (s : State) (hk : Keeps ls zs s) : Keeps ls zs (State.trainPcie s) := by
  unfold State.trainPcie
  extract_lets -merge +onlyGivenNames x1
  have h1 : KeepsP ls zs x1 := by
    unfold x1
    refine State.freeNat_keeps _ _ ?_
    exact hk
  clear_value x1
  extract_lets -merge +onlyGivenNames x2
  have h2 : KeepsP ls zs x2 := by
    unfold x2
    refine State.freeNat_keeps _ _ ?_
    exact h1
  clear_value x2
  extract_lets -merge +onlyGivenNames x3
  have h3 : KeepsP ls zs x3 := by
    unfold x3
    refine State.freeNat_keeps _ _ ?_
    exact h2
  clear_value x3
  extract_lets -merge +onlyGivenNames x4
  have h4 : Keeps ls zs x4 := by
    unfold x4
    exact h3
  clear_value x4
  refine Keeps.ite (fun _ => ?_) (fun _ => ?_)
  · exact h4.lit rfl rfl rfl rfl rfl
  · exact h4.lit rfl rfl rfl rfl rfl

theorem State.fullReset_keeps (s : State) (powerOn : Bool) (hk : Keeps ls zs s) : Keeps ls zs (State.fullReset s
    powerOn) := by
  unfold State.fullReset
  extract_lets -merge +onlyGivenNames x1
  clear_value x1
  extract_lets -merge +onlyGivenNames x2
  clear_value x2
  extract_lets -merge +onlyGivenNames x3
  clear_value x3
  exact ⟨hk.1, rfl, hk.2.2.1, Nat.zero_le _⟩

theorem State.bootLedger_keeps (s : State) (hk : Keeps ls zs s) : Keeps ls zs (State.bootLedger s) := by
  unfold State.bootLedger
  extract_lets -merge +onlyGivenNames x1
  clear_value x1
  extract_lets -merge +onlyGivenNames x2
  clear_value x2
  extract_lets -merge +onlyGivenNames x3
  clear_value x3
  extract_lets -merge +onlyGivenNames x4
  clear_value x4
  extract_lets -merge +onlyGivenNames x6 x5
  clear_value x5
  extract_lets -merge +onlyGivenNames x7
  clear_value x7
  extract_lets -merge +onlyGivenNames x8
  clear_value x8
  extract_lets -merge +onlyGivenNames x9
  clear_value x9
  extract_lets -merge +onlyGivenNames x10
  clear_value x10
  extract_lets -merge +onlyGivenNames x11
  have h11 : Keeps ls zs x11 := by
    unfold x11
    exact hk.lit rfl rfl rfl rfl rfl
  try clear_value x11
  refine Keeps.ite (fun _ => ?_) (fun _ => ?_)
  · exact h11
  · refine State.fault_keeps _ _ _ _ ?_
    exact h11

theorem State.bootProfile_keeps (s : State) (b : BootIn) (hk : Keeps ls zs s) : Keeps ls zs (State.bootProfile s b)
    := by
  unfold State.bootProfile
  extract_lets -merge +onlyGivenNames x1
  clear_value x1
  extract_lets -merge +onlyGivenNames x2
  clear_value x2
  extract_lets -merge +onlyGivenNames x3
  clear_value x3
  extract_lets -merge +onlyGivenNames x5 x4
  have h4 : Keeps ls zs x4 := by
    unfold x4
    exact hk.lit rfl rfl rfl rfl rfl
  try clear_value x4
  refine Keeps.ite (fun _ => ?_) (fun _ => ?_)
  · exact h4
  · refine State.profileFault_keeps _ _ _ _ _ ?_
    exact h4

theorem State.bootStep3_keeps (s : State) (hk : Keeps ls zs s) : Keeps ls zs (State.bootStep3 s) := by
  unfold State.bootStep3
  extract_lets -merge +onlyGivenNames x1
  clear_value x1
  extract_lets -merge +onlyGivenNames x2
  clear_value x2
  extract_lets -merge +onlyGivenNames x4 x5 x6 x7 x8 x3
  have h3 : Keeps ls zs x3 := by
    unfold x3
    exact hk.lit rfl rfl rfl rfl rfl
  try clear_value x3
  refine State.record_keeps _ _ _ _ ?_
  exact h3

theorem State.fillErrReset_keeps (s : State) (hk : Keeps ls zs s) : Keeps ls zs (State.fillErrReset s) := by
  unfold State.fillErrReset
  extract_lets -merge +onlyGivenNames x1
  clear_value x1
  split
  · exact hk.lit rfl rfl rfl rfl rfl
  · exact hk.lit rfl rfl rfl rfl rfl

theorem State.releaseCp_keeps (s : State) (hk : Keeps ls zs s) : Keeps ls zs (State.releaseCp s) := by
  unfold State.releaseCp
  extract_lets -merge +onlyGivenNames x1
  extract_lets -merge +onlyGivenNames x2
  have h2 : KeepsP ls zs x2 := by
    unfold x2
    refine State.freeNat_keeps _ _ ?_
    exact hk
  clear_value x2
  extract_lets -merge +onlyGivenNames x3
  have h3 : Keeps ls zs x3 := by
    unfold x3
    exact h2
  clear_value x3
  exact h3.lit rfl rfl rfl rfl rfl

theorem State.bootRecord_keeps (s : State) (hk : Keeps ls zs s) : Keeps ls zs (State.bootRecord s) := by
  unfold State.bootRecord
  refine State.record_keeps _ _ _ _ ?_
  exact hk

theorem State.setBank_keeps (s : State) (bank : Option Nat) (hk : Keeps ls zs s) : Keeps ls zs (State.setBank s
    bank) := by
  unfold State.setBank
  split
  · exact hk.lit rfl rfl rfl rfl rfl
  · exact hk.lit rfl rfl rfl rfl rfl

theorem State.restoreLanes_keeps (s : State) (hk : Keeps ls zs s) : Keeps ls zs (State.restoreLanes s) := by
  unfold State.restoreLanes
  refine Keeps.foldl ?_ _ _ ?_
  · intro x1 x2 h1
    refine State.modPort_keeps _ _ _ ?_
    exact h1
  · exact hk

theorem State.selfTests_keeps (s : State) (b : BootIn) (hk : Keeps ls zs s) : Keeps ls zs (State.selfTests s b) :=
    by
  unfold State.selfTests
  extract_lets -merge +onlyGivenNames x1
  clear_value x1
  extract_lets -merge +onlyGivenNames x2
  clear_value x2
  extract_lets -merge +onlyGivenNames x4 x5 x3
  have h3 : Keeps ls zs x3 := by
    unfold x3
    exact hk.lit rfl rfl rfl rfl rfl
  try clear_value x3
  refine State.each_keeps _ _ _ ?_ ?_
  · exact h3
  · intro x6 x7 h6
    refine State.fenceTile_keeps _ _ _ _ _ ?_
    exact h6

theorem State.startLinks_keeps (s : State) (hk : Keeps ls zs s) : Keeps ls zs (State.startLinks s) := by
  unfold State.startLinks
  extract_lets -merge +onlyGivenNames x1
  have h1 : Keeps ls zs x1 := by
    unfold x1
    refine State.applyLinkMask_keeps _ ?_
    exact hk
  clear_value x1
  refine Keeps.ite (fun _ => ?_) (fun _ => ?_)
  · refine State.becomeMaster_keeps _ ?_
    exact h1
  · exact h1

theorem State.bootFirst_keeps (s : State) (b : BootIn) (source : Nat) (hk : Keeps ls zs s) : Keeps ls zs
    (State.bootFirst s b source) := by
  unfold State.bootFirst
  extract_lets -merge +onlyGivenNames x1
  have h1 : Keeps ls zs x1 := by
    unfold x1
    refine State.restoreLanes_keeps _ ?_
    refine State.bootStep3_keeps _ ?_
    refine State.bootProfile_keeps _ _ ?_
    refine State.bootLedger_keeps _ ?_
    exact hk
  clear_value x1
  extract_lets -merge +onlyGivenNames x3 x2
  have h2 : Keeps ls zs x2 := by
    unfold x2
    exact h1.lit rfl rfl rfl rfl rfl
  try clear_value x2
  refine Keeps.ite (fun _ => ?_) (fun _ => ?_)
  · refine State.fault_keeps _ _ _ _ ?_
    exact h2
  · exact h2

theorem State.bootBank_keeps (s : State) (hk : Keeps ls zs s) : Keeps ls zs (State.bootBank s) := by
  unfold State.bootBank
  extract_lets -merge +onlyGivenNames x1
  have h1 : Keeps ls zs x1 := by
    unfold x1
    refine State.setBank_keeps _ _ ?_
    exact hk
  clear_value x1
  refine State.releaseCp_keeps _ ?_
  refine Keeps.ite (fun _ => ?_) (fun _ => ?_)
  · refine State.bootRecord_keeps _ ?_
    exact h1
  · exact h1

theorem State.bootHub_keeps (s : State) (b : BootIn) (hk : Keeps ls zs s) : Keeps ls zs (State.bootHub s b) := by
  unfold State.bootHub
  extract_lets -merge +onlyGivenNames x1
  have h1 : Keeps ls zs x1 := by
    unfold x1
    refine State.fillErrReset_keeps _ ?_
    refine State.bootBank_keeps _ ?_
    exact hk
  clear_value x1
  extract_lets -merge +onlyGivenNames x2
  have h2 : Keeps ls zs x2 := by
    unfold x2
    refine State.selfTests_keeps _ _ ?_
    refine Keeps.ite (fun _ => ?_) (fun _ => ?_)
    · refine State.startLinks_keeps _ ?_
      exact h1
    · exact h1
  clear_value x2
  refine Keeps.ite (fun _ => ?_) (fun _ => ?_)
  · exact h2
  · refine State.trainPcie_keeps _ ?_
    exact h2

theorem State.serviceOnly_keeps (s : State) (hk : Keeps ls zs s) : Keeps ls zs (State.serviceOnly s) := by
  unfold State.serviceOnly
  exact hk.lit rfl rfl rfl rfl rfl

theorem State.coldBoot_keeps (s : State) (b : BootIn) (source : Nat) (hk : Keeps ls zs s) : Keeps ls zs
    (State.coldBoot s b source) := by
  unfold State.coldBoot
  extract_lets -merge +onlyGivenNames x1
  have h1 : Keeps ls zs x1 := by
    unfold x1
    refine State.bootFirst_keeps _ _ _ ?_
    exact hk
  clear_value x1
  refine Keeps.ite (fun _ => ?_) (fun _ => ?_)
  · refine State.bootHub_keeps _ _ ?_
    exact h1
  · refine State.serviceOnly_keeps _ ?_
    refine State.fillErrReset_keeps _ ?_
    exact h1

theorem State.restart_keeps (s : State) (b : BootIn) (source : Nat) (hk : Keeps ls zs s) : Keeps ls zs
    (State.restart s b source) := by
  unfold State.restart
  refine State.coldBoot_keeps _ _ _ ?_
  refine State.fullReset_keeps _ _ ?_
  exact hk

theorem execPowerOn_keeps (b : BootIn) (s : State) (hk : Keeps ls zs s) : KeepsR ls zs (execPowerOn b s) := by
  unfold execPowerOn
  refine KeepsR.next ?_
  refine State.coldBoot_keeps _ _ _ ?_
  refine State.fullReset_keeps _ _ ?_
  exact hk

theorem execSysReset_keeps (ns : Nat) (b : BootIn) (s : State) (hk : Keeps ls zs s) : KeepsR ls zs (execSysReset ns
    b s) := by
  unfold execSysReset
  refine KeepsR.ite (fun _ => ?_) (fun _ => ?_)
  · refine KeepsR.next ?_
    exact hk
  · refine KeepsR.ite (fun _ => ?_) (fun _ => ?_)
    · exact KeepsR.fault
    · refine KeepsR.next ?_
      refine State.restart_keeps _ _ _ ?_
      exact hk

theorem State.hardenRow_keeps (s : State) (key : Nat) (hk : Keeps ls zs s) : Keeps ls zs (State.hardenRow s key) :=
    by
  unfold State.hardenRow
  extract_lets -merge +onlyGivenNames x1
  clear_value x1
  refine Keeps.ite (fun _ => ?_) (fun _ => ?_)
  · extract_lets -merge +onlyGivenNames x2
    clear_value x2
    extract_lets -merge +onlyGivenNames x4 x3
    have h3 : Keeps ls zs x3 := by
      unfold x3
      exact hk.lit rfl rfl rfl rfl rfl
    try clear_value x3
    refine State.record_keeps _ _ _ _ ?_
    exact h3
  · refine State.record_keeps _ _ _ _ ?_
    refine State.modStack_keeps _ _ _ ?_
    exact hk

theorem State.resoftRow_keeps (s : State) (key : Nat) (hk : Keeps ls zs s) : Keeps ls zs (State.resoftRow s key) :=
    by
  unfold State.resoftRow
  refine State.modStack_keeps _ _ _ ?_
  exact hk

theorem State.repairRows_keeps (s : State) (hk : Keeps ls zs s) : Keeps ls zs (State.repairRows s) := by
  unfold State.repairRows
  extract_lets -merge +onlyGivenNames x1
  clear_value x1
  extract_lets -merge +onlyGivenNames x2
  clear_value x2
  refine State.each_keeps _ _ _ ?_ ?_
  · exact hk
  · intro x3 x4 h3
    extract_lets -merge +onlyGivenNames x5
    clear_value x5
    refine State.each_keeps _ _ _ ?_ ?_
    · refine State.each_keeps _ _ _ ?_ ?_
      · exact h3
      · intro x6 x7 h6
        refine State.hardenRow_keeps _ _ ?_
        exact h6
    · intro x8 x9 h8
      refine State.resoftRow_keeps _ _ ?_
      exact h8

theorem State.marginByte_keeps (s : State) (swept : Bool) (n : Nat) (hk : Keeps ls zs s) : KeepsP ls zs
    (State.marginByte s swept n) := by
  unfold State.marginByte
  refine KeepsP.ite (fun _ => ?_) (fun _ => ?_)
  · extract_lets -merge +onlyGivenNames x1
    have h1 : KeepsP ls zs x1 := by
      unfold x1
      refine State.freeNat_keeps _ _ ?_
      exact hk
    clear_value x1
    refine KeepsP.mk ?_
    exact h1
  · refine KeepsP.mk ?_
    exact hk

theorem State.marginPc_keeps (s : State) (sweeps : Nat) (hk : Keeps ls zs s) : KeepsP ls zs (State.marginPc s
    sweeps) := by
  unfold State.marginPc
  refine KeepsP.foldl ?_ _ _ ?_
  · intro x1 x2 h1
    extract_lets -merge +onlyGivenNames x3
    have h3 : KeepsP ls zs x3 := by
      unfold x3
      refine State.marginByte_keeps _ _ _ ?_
      exact h1
    clear_value x3
    refine KeepsP.mk ?_
    exact h3
  · refine KeepsP.mk ?_
    exact hk

theorem State.marginStack_keeps (s : State) (n : Nat) (sweeps : Nat) (hk : Keeps ls zs s) : Keeps ls zs
    (State.marginStack s n sweeps) := by
  unfold State.marginStack
  extract_lets -merge +onlyGivenNames x1
  have h1 : KeepsP ls zs x1 := by
    unfold x1
    refine KeepsP.ite (fun _ => ?_) (fun _ => ?_)
    · refine State.freeNat_keeps _ _ ?_
      exact hk
    · refine State.freeNat_keeps _ _ ?_
      exact hk
  clear_value x1
  extract_lets -merge +onlyGivenNames x2
  have h2 : KeepsP ls zs x2 := by
    unfold x2
    refine KeepsP.ite (fun _ => ?_) (fun _ => ?_)
    · refine State.freeNat_keeps _ _ ?_
      exact h1
    · refine State.freeNat_keeps _ _ ?_
      exact h1
  clear_value x2
  extract_lets -merge +onlyGivenNames x3
  clear_value x3
  extract_lets -merge +onlyGivenNames x4
  clear_value x4
  extract_lets -merge +onlyGivenNames x5
  have h5 : KeepsP ls zs x5 := by
    unfold x5
    refine KeepsP.foldl ?_ _ _ ?_
    · intro x6 x7 h6
      extract_lets -merge +onlyGivenNames x8
      have h8 : KeepsP ls zs x8 := by
        unfold x8
        refine State.marginPc_keeps _ _ ?_
        exact h6
      clear_value x8
      refine KeepsP.mk ?_
      exact h8
    · refine KeepsP.mk ?_
      exact h2
  clear_value x5
  extract_lets -merge +onlyGivenNames x9
  have h9 : Keeps ls zs x9 := by
    unfold x9
    refine State.modStack_keeps _ _ _ ?_
    exact h5
  clear_value x9
  extract_lets -merge +onlyGivenNames x10
  clear_value x10
  split
  · refine State.record_keeps _ _ _ _ ?_
    exact h9
  · extract_lets -merge +onlyGivenNames x11
    have h11 : Keeps ls zs x11 := by
      unfold x11
      refine State.fault_keeps _ _ _ _ ?_
      exact h9
    clear_value x11
    refine State.each_keeps _ _ _ ?_ ?_
    · exact h11
    · intro x12 x13 h12
      refine State.logCore_keeps _ _ _ _ ?_
      exact h12

theorem State.wholeJournal_keeps (s : State) (hk : Keeps ls zs s) : Keeps ls zs (State.wholeJournal s) := by
  unfold State.wholeJournal
  extract_lets -merge +onlyGivenNames x1
  clear_value x1
  extract_lets -merge +onlyGivenNames x2
  clear_value x2
  extract_lets -merge +onlyGivenNames x3
  clear_value x3
  extract_lets -merge +onlyGivenNames x4
  clear_value x4
  extract_lets -merge +onlyGivenNames x5
  clear_value x5
  extract_lets -merge +onlyGivenNames x6
  have h6 : Keeps ls zs x6 := by
    unfold x6
    exact hk.lit rfl rfl rfl rfl rfl
  try clear_value x6
  extract_lets -merge +onlyGivenNames x7
  have h7 : Keeps ls zs x7 := by
    unfold x7
    refine State.each_keeps _ _ _ ?_ ?_
    · exact h6
    · intro x8 x9 h8
      refine State.fault_keeps _ _ _ _ ?_
      exact h8
  clear_value x7
  extract_lets -merge +onlyGivenNames x10
  have h10 : Keeps ls zs x10 := by
    unfold x10
    refine State.eraseAhead_keeps _ ?_
    refine State.eraseAhead_keeps _ ?_
    exact h7
  clear_value x10
  extract_lets -merge +onlyGivenNames x11
  have h11 : Keeps ls zs x11 := by
    unfold x11
    refine Keeps.foldl ?_ _ _ ?_
    · intro x12 x13 h12
      refine State.modTile_keeps _ _ _ ?_
      exact h12
    · exact h10
  clear_value x11
  extract_lets -merge +onlyGivenNames x14
  have h14 : Keeps ls zs x14 := by
    unfold x14
    refine Keeps.foldl ?_ _ _ ?_
    · intro x15 x16 h15
      exact h15.lit rfl rfl rfl rfl rfl
    · exact h11
  clear_value x14
  refine Keeps.foldl ?_ _ _ ?_
  · intro x17 x18 h17
    extract_lets -merge +onlyGivenNames x19
    clear_value x19
    extract_lets -merge +onlyGivenNames x20
    clear_value x20
    exact h17.lit rfl rfl rfl rfl rfl
  · exact h14

theorem State.afterJournal_keeps (s : State) (hk : Keeps ls zs s) : Keeps ls zs (State.afterJournal s) := by
  unfold State.afterJournal
  refine Keeps.ite (fun _ => ?_) (fun _ => ?_)
  · exact hk
  · extract_lets -merge +onlyGivenNames x1
    have h1 : Keeps ls zs x1 := by
      unfold x1
      refine State.repairRows_keeps _ ?_
      exact hk
    clear_value x1
    extract_lets -merge +onlyGivenNames x2
    have h2 : Keeps ls zs x2 := by
      unfold x2
      refine Keeps.ite (fun _ => ?_) (fun _ => ?_)
      · refine State.each_keeps _ _ _ ?_ ?_
        · exact h1
        · intro x3 x4 h3
          refine State.marginStack_keeps _ _ _ ?_
          exact h3
      · exact h1
    clear_value x2
    refine Keeps.ite (fun _ => ?_) (fun _ => ?_)
    · refine State.applyDenRecords_keeps _ ?_
      exact h2
    · exact h2.lit rfl rfl rfl rfl rfl

theorem execJournalReadDone_keeps (s : State) (hk : Keeps ls zs s) : KeepsR ls zs (execJournalReadDone s) := by
  unfold execJournalReadDone
  refine KeepsR.next ?_
  refine Keeps.ite (fun _ => ?_) (fun _ => ?_)
  · extract_lets -merge +onlyGivenNames x1
    have h1 : Keeps ls zs x1 := by
      unfold x1
      refine State.wholeJournal_keeps _ ?_
      exact hk
    clear_value x1
    refine State.afterJournal_keeps _ ?_
    exact h1.lit rfl rfl rfl rfl rfl
  · exact hk

theorem State.fallbackRecord_keeps (s : State) (hk : Keeps ls zs s) : Keeps ls zs (State.fallbackRecord s) := by
  unfold State.fallbackRecord
  refine Keeps.ite (fun _ => ?_) (fun _ => ?_)
  · refine State.record_keeps _ _ _ _ ?_
    exact hk
  · exact hk

theorem execBringUpComplete_keeps (s : State) (hk : Keeps ls zs s) : KeepsR ls zs (execBringUpComplete s) := by
  unfold execBringUpComplete
  refine KeepsR.next ?_
  refine Keeps.ite (fun _ => ?_) (fun _ => ?_)
  · exact hk
  · split
    · exact hk.lit rfl rfl rfl rfl rfl
    · extract_lets -merge +onlyGivenNames x1
      have h1 : KeepsP ls zs x1 := by
        unfold x1
        refine State.freeNat_keeps _ _ ?_
        exact hk
      clear_value x1
      extract_lets -merge +onlyGivenNames x2
      have h2 : Keeps ls zs x2 := by
        unfold x2
        exact h1
      clear_value x2
      extract_lets -merge +onlyGivenNames x4 x5 x6 x7 x3
      have h3 : Keeps ls zs x3 := by
        unfold x3
        exact h2.lit rfl rfl rfl rfl rfl
      try clear_value x3
      extract_lets -merge +onlyGivenNames x8
      have h8 : Keeps ls zs x8 := by
        unfold x8
        refine State.record_keeps _ _ _ _ ?_
        exact h3
      clear_value x8
      refine State.fallbackRecord_keeps _ ?_
      exact h8
    · extract_lets -merge +onlyGivenNames x9
      have h9 : KeepsP ls zs x9 := by
        unfold x9
        refine State.freeNat_keeps _ _ ?_
        exact hk
      clear_value x9
      extract_lets -merge +onlyGivenNames x10
      have h10 : Keeps ls zs x10 := by
        unfold x10
        exact h9
      clear_value x10
      extract_lets -merge +onlyGivenNames x12 x13 x14 x15 x11
      have h11 : Keeps ls zs x11 := by
        unfold x11
        exact h10.lit rfl rfl rfl rfl rfl
      try clear_value x11
      extract_lets -merge +onlyGivenNames x16
      have h16 : Keeps ls zs x16 := by
        unfold x16
        refine State.record_keeps _ _ _ _ ?_
        exact h11
      clear_value x16
      refine State.fallbackRecord_keeps _ ?_
      exact h16
    · exact hk
    · exact hk
    · exact hk
    · exact hk
    · exact hk

/-! ### Reset -/

theorem State.resetMioter_keeps (s : State) (hk : Keeps ls zs s) : Keeps ls zs (State.resetMioter s) := by
  unfold State.resetMioter
  extract_lets -merge +onlyGivenNames x1
  have h1 : Keeps ls zs x1 := by
    unfold x1
    refine State.each_keeps _ _ _ ?_ ?_
    · exact hk
    · intro x2 x3 h2
      refine Keeps.ite (fun _ => ?_) (fun _ => ?_)
      · refine State.clearSlot_keeps _ _ _ _ ?_
        exact h2
      · exact h2
  clear_value x1
  extract_lets -merge +onlyGivenNames x4
  have h4 : Keeps ls zs x4 := by
    unfold x4
    refine State.each_keeps _ _ _ ?_ ?_
    · exact h1
    · intro x5 x6 h5
      refine Keeps.ite (fun _ => ?_) (fun _ => ?_)
      · refine State.modEntry_keeps _ _ _ ?_
        exact h5
      · exact h5
  clear_value x4
  extract_lets -merge +onlyGivenNames x7
  have h7 : Keeps ls zs x7 := by
    unfold x7
    refine State.each_keeps _ _ _ ?_ ?_
    · exact h4
    · intro x8 x9 h8
      refine State.modQuad_keeps _ _ _ ?_
      exact h8
  clear_value x7
  extract_lets -merge +onlyGivenNames x10
  clear_value x10
  exact h7.lit rfl rfl rfl rfl rfl

theorem State.resetCp_keeps (s : State) (hk : Keeps ls zs s) : Keeps ls zs (State.resetCp s) := by
  unfold State.resetCp
  exact hk.lit rfl rfl rfl rfl rfl

theorem State.resetHubUnits_keeps (s : State) (hk : Keeps ls zs s) : Keeps ls zs (State.resetHubUnits s) := by
  unfold State.resetHubUnits
  extract_lets -merge +onlyGivenNames x1
  have h1 : Keeps ls zs x1 := by
    unfold x1
    refine State.resetCp_keeps _ ?_
    refine State.resetMioter_keeps _ ?_
    exact hk
  clear_value x1
  exact h1.pcie rfl rfl rfl rfl (Nat.zero_le _)

theorem State.resetHubRest_keeps (s : State) (source : Nat) (hk : Keeps ls zs s) : Keeps ls zs (State.resetHubRest s
    source) := by
  unfold State.resetHubRest
  exact hk.lit rfl rfl rfl rfl rfl

theorem State.warmStart_keeps (s : State) (hk : Keeps ls zs s) : Keeps ls zs (State.warmStart s) := by
  unfold State.warmStart
  extract_lets -merge +onlyGivenNames x1
  clear_value x1
  extract_lets -merge +onlyGivenNames x2
  have h2 : Keeps ls zs x2 := by
    unfold x2
    refine State.setBank_keeps _ _ ?_
    exact hk
  clear_value x2
  extract_lets -merge +onlyGivenNames x4 x3
  have h3 : Keeps ls zs x3 := by
    unfold x3
    refine Keeps.ite (fun _ => ?_) (fun _ => ?_)
    · refine State.bootRecord_keeps _ ?_
      exact h2.lit rfl rfl rfl rfl rfl
    · exact h2
  try clear_value x3
  extract_lets -merge +onlyGivenNames x5
  have h5 : Keeps ls zs x5 := by
    unfold x5
    refine State.fillErrReset_keeps _ ?_
    refine State.releaseCp_keeps _ ?_
    exact h3
  clear_value x5
  extract_lets -merge +onlyGivenNames x6
  have h6 : Keeps ls zs x6 := by
    unfold x6
    refine Keeps.ite (fun _ => ?_) (fun _ => ?_)
    · exact h5
    · refine State.startLinks_keeps _ ?_
      exact h5
  clear_value x6
  extract_lets -merge +onlyGivenNames x8 x7
  have h7 : Keeps ls zs x7 := by
    unfold x7
    exact h6.lit rfl rfl rfl rfl rfl
  try clear_value x7
  refine Keeps.ite (fun _ => ?_) (fun _ => ?_)
  · exact h7
  · refine State.trainPcie_keeps _ ?_
    exact h7

theorem State.hubReset_keeps (s : State) (source : Nat) (hk : Keeps ls zs s) : Keeps ls zs (State.hubReset s source)
    := by
  unfold State.hubReset
  extract_lets -merge +onlyGivenNames x1
  have h1 : Keeps ls zs x1 := by
    unfold x1
    refine Keeps.ite (fun _ => ?_) (fun _ => ?_)
    · exact hk
    · refine State.enterRetain_keeps _ _ ?_
      exact hk
  clear_value x1
  extract_lets -merge +onlyGivenNames x2
  have h2 : Keeps ls zs x2 := by
    unfold x2
    refine State.makeup_keeps _ _ ?_
    refine State.resetHubRest_keeps _ _ ?_
    refine State.resetHubUnits_keeps _ ?_
    exact h1
  clear_value x2
  refine Keeps.ite (fun _ => ?_) (fun _ => ?_)
  · exact h2
  · refine State.warmStart_keeps _ ?_
    exact h2

theorem State.deviceReset_keeps (s : State) (b : BootIn) (source : Nat) (hk : Keeps ls zs s) : Keeps ls zs
    (State.deviceReset s b source) := by
  unfold State.deviceReset
  refine Keeps.ite (fun _ => ?_) (fun _ => ?_)
  · refine State.hubReset_keeps _ _ ?_
    exact hk
  · refine State.restart_keeps _ _ _ ?_
    exact hk

theorem execFlushDone_keeps (s : State) (hk : Keeps ls zs s) : KeepsR ls zs (execFlushDone s) := by
  unfold execFlushDone
  refine KeepsR.next ?_
  refine Keeps.ite (fun _ => ?_) (fun _ => ?_)
  · extract_lets -merge +onlyGivenNames x1
    have h1 : Keeps ls zs x1 := by
      unfold x1
      refine State.flushAll_keeps _ ?_
      exact hk
    clear_value x1
    extract_lets -merge +onlyGivenNames x3 x4 x2
    have h2 : Keeps ls zs x2 := by
      unfold x2
      exact h1.lit rfl rfl rfl rfl rfl
    try clear_value x2
    refine State.leaveRetain_keeps _ ?_
    refine Keeps.ite (fun _ => ?_) (fun _ => ?_)
    · refine State.warmStart_keeps _ ?_
      exact h2
    · exact h2
  · exact hk

theorem State.retainBy_keeps (s : State) (cause : Nat) (hk : Keeps ls zs s) : Keeps ls zs (State.retainBy s cause)
    := by
  unfold State.retainBy
  split
  · refine Keeps.ite (fun _ => ?_) (fun _ => ?_)
    · extract_lets -merge +onlyGivenNames x1
      have h1 : Keeps ls zs x1 := by
        unfold x1
        refine State.enterRetain_keeps _ _ ?_
        exact hk
      clear_value x1
      exact h1.lit rfl rfl rfl rfl rfl
    · extract_lets -merge +onlyGivenNames x3 x2
      have h2 : Keeps ls zs x2 := by
        unfold x2
        refine State.startClocks_keeps _ ?_
        exact hk.lit rfl rfl rfl rfl rfl
      try clear_value x2
      refine State.enterRetain_keeps _ _ ?_
      exact h2
  · refine Keeps.ite (fun _ => ?_) (fun _ => ?_)
    · refine State.enterRetain_keeps _ _ ?_
      exact hk
    · refine State.enterRetain_keeps _ _ ?_
      refine State.startClocks_keeps _ ?_
      exact hk.lit rfl rfl rfl rfl rfl
  · refine State.enterRetain_keeps _ _ ?_
    exact hk
  · refine State.enterRetain_keeps _ _ ?_
    exact hk
  · exact hk
  · exact hk

theorem execPerstAssert_keeps (b : BootIn) (s : State) (hk : Keeps ls zs s) : KeepsR ls zs (execPerstAssert b s) :=
    by
  unfold execPerstAssert
  refine KeepsR.next ?_
  refine Keeps.ite (fun _ => ?_) (fun _ => ?_)
  · exact hk.lit rfl rfl rfl rfl rfl
  · refine Keeps.ite (fun _ => ?_) (fun _ => ?_)
    · refine Keeps.ite (fun _ => ?_) (fun _ => ?_)
      · extract_lets -merge +onlyGivenNames x1
        have h1 : Keeps ls zs x1 := by
          unfold x1
          refine State.retainBy_keeps _ _ ?_
          exact hk
        clear_value x1
        exact h1.pcie rfl rfl rfl rfl (Nat.zero_le _)
      · refine State.restart_keeps _ _ _ ?_
        exact hk.lit rfl rfl rfl rfl rfl
    · exact hk.pcie rfl rfl rfl rfl (Nat.zero_le _)

theorem execPerstDeassert_keeps (s : State) (hk : Keeps ls zs s) : KeepsR ls zs (execPerstDeassert s) := by
  unfold execPerstDeassert
  refine KeepsR.next ?_
  refine Keeps.ite (fun _ => ?_) (fun _ => ?_)
  · extract_lets -merge +onlyGivenNames x2 x1
    have h1 : Keeps ls zs x1 := by
      unfold x1
      exact hk.lit rfl rfl rfl rfl rfl
    try clear_value x1
    refine Keeps.ite (fun _ => ?_) (fun _ => ?_)
    · exact h1
    · refine State.trainPcie_keeps _ ?_
      exact h1
  · exact hk

theorem execLinkLoss_keeps (s : State) (hk : Keeps ls zs s) : KeepsR ls zs (execLinkLoss s) := by
  unfold execLinkLoss
  refine KeepsR.next ?_
  refine Keeps.ite (fun _ => ?_) (fun _ => ?_)
  · extract_lets -merge +onlyGivenNames x2 x1
    have h1 : Keeps ls zs x1 := by
      unfold x1
      exact hk.lit rfl rfl rfl rfl rfl
    try clear_value x1
    refine Keeps.ite (fun _ => ?_) (fun _ => ?_)
    · exact h1
    · refine Keeps.ite (fun _ => ?_) (fun _ => ?_)
      · refine State.retainBy_keeps _ _ ?_
        exact h1
      · refine State.each_keeps _ _ _ ?_ ?_
        · exact h1
        · intro x3 x4 h3
          refine State.flrStart_keeps _ _ ?_
          exact h3
  · exact hk

theorem State.scrubRetained_keeps (s : State) (hk : Keeps ls zs s) : Keeps ls zs (State.scrubRetained s) := by
  unfold State.scrubRetained
  refine State.leaveRetain_keeps _ ?_
  refine State.each_keeps _ _ _ ?_ ?_
  · exact hk
  · intro x1 x2 h1
    refine State.destroyDen_keeps _ _ ?_
    exact h1

theorem execRetainTimeout_keeps (s : State) (hk : Keeps ls zs s) : KeepsR ls zs (execRetainTimeout s) := by
  unfold execRetainTimeout
  refine KeepsR.next ?_
  refine Keeps.ite (fun _ => ?_) (fun _ => ?_)
  · refine State.scrubRetained_keeps _ ?_
    exact hk
  · exact hk

theorem execPowerLoss_keeps (s : State) (hk : Keeps ls zs s) : KeepsR ls zs (execPowerLoss s) := by
  unfold execPowerLoss
  extract_lets -merge +onlyGivenNames x1
  have h1 : Keeps ls zs x1 := by
    unfold x1
    refine State.fullReset_keeps _ _ ?_
    exact hk
  clear_value x1
  refine KeepsR.next ?_
  exact h1.lit rfl rfl rfl rfl rfl

theorem State.beginGrace_keeps (s : State) (cause : Nat) (source : Nat) (hk : Keeps ls zs s) : Keeps ls zs
    (State.beginGrace s cause source) := by
  unfold State.beginGrace
  exact hk.lit rfl rfl rfl rfl rfl

theorem execWdgCpExpiry_keeps (s : State) (hk : Keeps ls zs s) : KeepsR ls zs (execWdgCpExpiry s) := by
  unfold execWdgCpExpiry
  refine KeepsR.next ?_
  refine Keeps.ite (fun _ => ?_) (fun _ => ?_)
  · extract_lets -merge +onlyGivenNames x2 x1
    have h1 : Keeps ls zs x1 := by
      unfold x1
      exact hk.lit rfl rfl rfl rfl rfl
    try clear_value x1
    refine State.beginGrace_keeps _ _ _ ?_
    refine State.fault_keeps _ _ _ _ ?_
    exact h1
  · exact hk

theorem execWdgCpGraceEnd_keeps (b : BootIn) (s : State) (hk : Keeps ls zs s) : KeepsR ls zs (execWdgCpGraceEnd b s)
    := by
  unfold execWdgCpGraceEnd
  refine KeepsR.next ?_
  split
  · refine State.deviceReset_keeps _ _ _ ?_
    exact hk
  · exact hk

theorem execWdgAonExpiry_keeps (b : BootIn) (s : State) (hk : Keeps ls zs s) : KeepsR ls zs (execWdgAonExpiry b s)
    := by
  unfold execWdgAonExpiry
  refine KeepsR.next ?_
  refine Keeps.ite (fun _ => ?_) (fun _ => ?_)
  · exact hk
  · refine State.restart_keeps _ _ _ ?_
    exact hk

theorem execDenFault_keeps (cause : Nat) (den : Nat) (index : Nat) (s : State) (hk : Keeps ls zs s) : KeepsR ls zs
    (execDenFault cause den index s) := by
  unfold execDenFault
  refine KeepsR.next ?_
  refine Keeps.ite (fun _ => ?_) (fun _ => ?_)
  · extract_lets -merge +onlyGivenNames x1
    have h1 : Keeps ls zs x1 := by
      unfold x1
      refine State.quiesce_keeps _ _ ?_
      refine State.fault_keeps _ _ _ _ ?_
      exact hk
    clear_value x1
    refine Keeps.ite (fun _ => ?_) (fun _ => ?_)
    · refine Keeps.ite (fun _ => ?_) (fun _ => ?_)
      · refine State.dropTable_keeps _ _ ?_
        exact h1
      · exact h1
    · refine Keeps.ite (fun _ => ?_) (fun _ => ?_)
      · refine State.modDen_keeps _ _ _ ?_
        exact h1
      · exact h1
  · exact hk

theorem execDeviceFault_keeps (cause : Nat) (b : BootIn) (s : State) (hk : Keeps ls zs s) : KeepsR ls zs
    (execDeviceFault cause b s) := by
  unfold execDeviceFault
  refine KeepsR.next ?_
  refine Keeps.ite (fun _ => ?_) (fun _ => ?_)
  · extract_lets -merge +onlyGivenNames x1
    have h1 : Keeps ls zs x1 := by
      unfold x1
      refine State.fault_keeps _ _ _ _ ?_
      exact hk
    clear_value x1
    refine Keeps.ite (fun _ => ?_) (fun _ => ?_)
    · exact h1
    · refine Keeps.ite (fun _ => ?_) (fun _ => ?_)
      · refine State.deviceReset_keeps _ _ _ ?_
        exact h1
      · refine State.beginGrace_keeps _ _ _ ?_
        exact h1
  · exact hk

theorem State.fatal_keeps (s : State) (cause : Nat) (b : BootIn) (hk : Keeps ls zs s) : Keeps ls zs (State.fatal s
    cause b) := by
  unfold State.fatal
  extract_lets -merge +onlyGivenNames x1
  clear_value x1
  extract_lets -merge +onlyGivenNames x2
  have h2 : Keeps ls zs x2 := by
    unfold x2
    refine Keeps.ite (fun _ => ?_) (fun _ => ?_)
    · refine State.writeDirect_keeps _ _ ?_
      exact hk
    · exact hk
  clear_value x2
  refine State.restart_keeps _ _ _ ?_
  exact h2

theorem execFatalFault_keeps (cause : Nat) (b : BootIn) (s : State) (hk : Keeps ls zs s) : KeepsR ls zs
    (execFatalFault cause b s) := by
  unfold execFatalFault
  refine KeepsR.next ?_
  refine Keeps.ite (fun _ => ?_) (fun _ => ?_)
  · refine State.fatal_keeps _ _ _ ?_
    exact hk
  · exact hk

theorem execPllLost_keeps (b : BootIn) (s : State) (hk : Keeps ls zs s) : KeepsR ls zs (execPllLost b s) := by
  unfold execPllLost
  refine KeepsR.next ?_
  refine Keeps.ite (fun _ => ?_) (fun _ => ?_)
  · refine State.fatal_keeps _ _ _ ?_
    exact hk
  · exact hk

/-! ### TagTap -/

theorem execTagUpdate_keeps (s : State) (hk : Keeps ls zs s) : KeepsR ls zs (execTagUpdate s) := by
  unfold execTagUpdate
  refine KeepsR.next ?_
  refine Keeps.ite (fun _ => ?_) (fun _ => ?_)
  · extract_lets -merge +onlyGivenNames x1
    clear_value x1
    extract_lets -merge +onlyGivenNames x2
    clear_value x2
    extract_lets -merge +onlyGivenNames x3
    clear_value x3
    extract_lets -merge +onlyGivenNames x4
    clear_value x4
    extract_lets -merge +onlyGivenNames x5
    clear_value x5
    exact hk.lit rfl rfl rfl rfl rfl
  · exact hk

theorem execTagFlipRetry_keeps (s : State) (hk : Keeps ls zs s) : KeepsR ls zs (execTagFlipRetry s) := by
  unfold execTagFlipRetry
  refine KeepsR.next ?_
  split
  · refine Keeps.ite (fun _ => ?_) (fun _ => ?_)
    · exact hk.lit rfl rfl rfl rfl rfl
    · exact hk
  · exact hk

theorem execTechAreaCheck_keeps (s : State) (hk : Keeps ls zs s) : KeepsR ls zs (execTechAreaCheck s) := by
  unfold execTechAreaCheck
  refine KeepsR.next ?_
  refine Keeps.ite (fun _ => ?_) (fun _ => ?_)
  · extract_lets -merge +onlyGivenNames x1
    clear_value x1
    refine Keeps.ite (fun _ => ?_) (fun _ => ?_)
    · exact hk
    · extract_lets -merge +onlyGivenNames x2
      have h2 : Keeps ls zs x2 := by
        unfold x2
        refine State.record_keeps _ _ _ _ ?_
        exact hk
      clear_value x2
      exact h2.lit rfl rfl rfl rfl rfl
  · exact hk

theorem State.rfBegin_keeps (s : State) (hk : Keeps ls zs s) : Keeps ls zs (State.rfBegin s) := by
  unfold State.rfBegin
  refine Keeps.ite (fun _ => ?_) (fun _ => ?_)
  · exact hk
  · exact hk.lit rfl rfl rfl rfl rfl

theorem State.rfOk_keeps (s : State) (data : Bytes) (hk : Keeps ls zs s) : Keeps ls zs (State.rfOk s data) := by
  unfold State.rfOk
  refine State.emit_keeps _ _ ?_
  exact hk

theorem State.rfErr_keeps (s : State) (code : Nat) (hk : Keeps ls zs s) : Keeps ls zs (State.rfErr s code) := by
  unfold State.rfErr
  refine State.emit_keeps _ _ ?_
  exact hk

theorem State.rfRead_keeps (s : State) (limit : Nat) (block : Nat) (count : Nat) (hk : Keeps ls zs s) : Keeps ls zs
    (State.rfRead s limit block count) := by
  unfold State.rfRead
  refine Keeps.ite (fun _ => ?_) (fun _ => ?_)
  · refine State.rfErr_keeps _ _ ?_
    exact hk
  · refine Keeps.ite (fun _ => ?_) (fun _ => ?_)
    · refine State.rfErr_keeps _ _ ?_
      exact hk
    · refine State.rfOk_keeps _ _ ?_
      exact hk

theorem State.rfWrite_keeps (s : State) (limit : Nat) (block : Nat) (data : Bytes) (hk : Keeps ls zs s) : Keeps ls
    zs (State.rfWrite s limit block data) := by
  unfold State.rfWrite
  refine Keeps.ite (fun _ => ?_) (fun _ => ?_)
  · refine State.rfErr_keeps _ _ ?_
    exact hk
  · refine Keeps.ite (fun _ => ?_) (fun _ => ?_)
    · refine State.rfErr_keeps _ _ ?_
      exact hk.lit rfl rfl rfl rfl rfl
    · refine State.rfOk_keeps _ _ ?_
      exact hk.lit rfl rfl rfl rfl rfl

theorem execInventory_keeps (s : State) (hk : Keeps ls zs s) : KeepsR ls zs (execInventory s) := by
  unfold execInventory
  refine KeepsR.next ?_
  refine Keeps.ite (fun _ => ?_) (fun _ => ?_)
  · exact hk
  · refine State.rfOk_keeps _ _ ?_
    refine State.rfBegin_keeps _ ?_
    exact hk

theorem execStayQuiet_keeps (s : State) (hk : Keeps ls zs s) : KeepsR ls zs (execStayQuiet s) := by
  unfold execStayQuiet
  refine KeepsR.next ?_
  exact hk.lit rfl rfl rfl rfl rfl

theorem execSelect_keeps (s : State) (hk : Keeps ls zs s) : KeepsR ls zs (execSelect s) := by
  unfold execSelect
  refine KeepsR.next ?_
  refine State.rfOk_keeps _ _ ?_
  refine State.rfBegin_keeps _ ?_
  exact hk.lit rfl rfl rfl rfl rfl

theorem execResetToReady_keeps (s : State) (hk : Keeps ls zs s) : KeepsR ls zs (execResetToReady s) := by
  unfold execResetToReady
  refine KeepsR.next ?_
  refine State.rfOk_keeps _ _ ?_
  exact hk.lit rfl rfl rfl rfl rfl

theorem execReadSingleBlock_keeps (block : Nat) (s : State) (hk : Keeps ls zs s) : KeepsR ls zs (execReadSingleBlock
    block s) := by
  unfold execReadSingleBlock
  refine KeepsR.next ?_
  refine State.rfRead_keeps _ _ _ _ ?_
  exact hk

theorem execWriteSingleBlock_keeps (block : Nat) (data : Bytes) (s : State) (hk : Keeps ls zs s) : KeepsR ls zs
    (execWriteSingleBlock block data s) := by
  unfold execWriteSingleBlock
  refine KeepsR.next ?_
  refine State.rfWrite_keeps _ _ _ _ ?_
  exact hk

theorem execReadMultipleBlocks_keeps (block : Nat) (count : Nat) (s : State) (hk : Keeps ls zs s) : KeepsR ls zs
    (execReadMultipleBlocks block count s) := by
  unfold execReadMultipleBlocks
  refine KeepsR.next ?_
  refine State.rfRead_keeps _ _ _ _ ?_
  exact hk

theorem execExtendedReadSingle_keeps (block : Nat) (s : State) (hk : Keeps ls zs s) : KeepsR ls zs
    (execExtendedReadSingle block s) := by
  unfold execExtendedReadSingle
  refine KeepsR.next ?_
  refine State.rfRead_keeps _ _ _ _ ?_
  exact hk

theorem execExtendedWriteSingle_keeps (block : Nat) (data : Bytes) (s : State) (hk : Keeps ls zs s) : KeepsR ls zs
    (execExtendedWriteSingle block data s) := by
  unfold execExtendedWriteSingle
  refine KeepsR.next ?_
  refine State.rfWrite_keeps _ _ _ _ ?_
  exact hk

theorem execExtendedReadMultiple_keeps (block : Nat) (count : Nat) (s : State) (hk : Keeps ls zs s) : KeepsR ls zs
    (execExtendedReadMultiple block count s) := by
  unfold execExtendedReadMultiple
  refine KeepsR.next ?_
  refine State.rfRead_keeps _ _ _ _ ?_
  exact hk

theorem State.rfInfo_keeps (s : State) (blocks : Nat) (width : Nat) (hk : Keeps ls zs s) : Keeps ls zs (State.rfInfo
    s blocks width) := by
  unfold State.rfInfo
  refine State.rfOk_keeps _ _ ?_
  exact hk

theorem execGetSystemInformation_keeps (s : State) (hk : Keeps ls zs s) : KeepsR ls zs (execGetSystemInformation s)
    := by
  unfold execGetSystemInformation
  refine KeepsR.next ?_
  refine State.rfInfo_keeps _ _ _ ?_
  exact hk

theorem execExtendedGetSystemInfo_keeps (s : State) (hk : Keeps ls zs s) : KeepsR ls zs (execExtendedGetSystemInfo
    s) := by
  unfold execExtendedGetSystemInfo
  refine KeepsR.next ?_
  refine State.rfInfo_keeps _ _ _ ?_
  exact hk

theorem execRfSessionEnd_keeps (s : State) (hk : Keeps ls zs s) : KeepsR ls zs (execRfSessionEnd s) := by
  unfold execRfSessionEnd
  refine KeepsR.next ?_
  refine Keeps.ite (fun _ => ?_) (fun _ => ?_)
  · exact hk.lit rfl rfl rfl rfl rfl
  · exact hk

theorem State.setInstr_keeps (s : State) (i : TapInstr) (hk : Keeps ls zs s) : Keeps ls zs (State.setInstr s i) :=
    by
  unfold State.setInstr
  refine Keeps.ite (fun _ => ?_) (fun _ => ?_)
  · exact hk.lit rfl rfl rfl rfl rfl
  · exact hk

theorem State.ownBalls_keeps (s : State) (i : TapInstr) (hk : Keeps ls zs s) : Keeps ls zs (State.ownBalls s i) :=
    by
  unfold State.ownBalls
  refine Keeps.ite (fun _ => ?_) (fun _ => ?_)
  · exact hk.lit rfl rfl rfl rfl rfl
  · exact hk

theorem execExtest_keeps (cells : W64) (s : State) (hk : Keeps ls zs s) : KeepsR ls zs (execExtest cells s) := by
  unfold execExtest
  refine KeepsR.next ?_
  refine Keeps.ite (fun _ => ?_) (fun _ => ?_)
  · exact hk.lit rfl rfl rfl rfl rfl
  · exact hk

theorem execClamp_keeps (s : State) (hk : Keeps ls zs s) : KeepsR ls zs (execClamp s) := by
  unfold execClamp
  refine KeepsR.next ?_
  refine State.ownBalls_keeps _ _ ?_
  exact hk

theorem execHighz_keeps (s : State) (hk : Keeps ls zs s) : KeepsR ls zs (execHighz s) := by
  unfold execHighz
  refine KeepsR.next ?_
  refine State.ownBalls_keeps _ _ ?_
  exact hk

theorem execSamplePreload_keeps (balls : W64) (cells : W64) (s : State) (hk : Keeps ls zs s) : KeepsR ls zs
    (execSamplePreload balls cells s) := by
  unfold execSamplePreload
  refine KeepsR.next ?_
  refine Keeps.ite (fun _ => ?_) (fun _ => ?_)
  · refine State.emit_keeps _ _ ?_
    exact hk.lit rfl rfl rfl rfl rfl
  · exact hk

theorem execIdcode_keeps (s : State) (hk : Keeps ls zs s) : KeepsR ls zs (execIdcode s) := by
  unfold execIdcode
  refine KeepsR.next ?_
  refine Keeps.ite (fun _ => ?_) (fun _ => ?_)
  · refine State.emit_keeps _ _ ?_
    refine State.setInstr_keeps _ _ ?_
    exact hk
  · exact hk

theorem execBypass_keeps (s : State) (hk : Keeps ls zs s) : KeepsR ls zs (execBypass s) := by
  unfold execBypass
  refine KeepsR.next ?_
  refine Keeps.ite (fun _ => ?_) (fun _ => ?_)
  · refine State.emit_keeps _ _ ?_
    refine State.setInstr_keeps _ _ ?_
    exact hk
  · exact hk

theorem execTestLogicReset_keeps (s : State) (hk : Keeps ls zs s) : KeepsR ls zs (execTestLogicReset s) := by
  unfold execTestLogicReset
  refine KeepsR.next ?_
  exact hk.lit rfl rfl rfl rfl rfl

end

end Sys2Proof.Machine
end

