-- ==== Sys2Proof/Laws/KeepsMemory.lean ====
section
/-!
SUPPORT. One lemma per operation, meaning by meaning: it keeps what every command keeps (Laws.Keeps). Here: the host port, requests and tasks, the Mioter, the Hoard, HBM and the Forager.
-/

namespace Sys2Proof.Machine

section
variable {ls : List Instr} {zs : W64 × Nat}

/-! ### Host -/

theorem State.hold_keeps (s : State) (t : HeldTlp) (hk : Keeps ls zs s) : Keeps ls zs (State.hold s t) := by
  unfold State.hold
  exact hk.lit rfl rfl rfl rfl rfl

theorem State.holdWrite_keeps (s : State) (k : HeldKind) (fn : Nat) (off : Nat) (data : Bytes) (hk : Keeps ls zs s)
    : Keeps ls zs (State.holdWrite s k fn off data) := by
  unfold State.holdWrite
  refine Keeps.ite (fun _ => ?_) (fun _ => ?_)
  · refine State.wakeReq_keeps _ _ ?_
    refine State.hold_keeps _ _ ?_
    exact hk
  · refine Keeps.ite (fun _ => ?_) (fun _ => ?_)
    · exact hk.lit rfl rfl rfl rfl rfl
    · exact hk

theorem State.holdRead_keeps (s : State) (k : HeldKind) (fn : Nat) (off : Nat) (len : Nat) (hk : Keeps ls zs s) :
    Keeps ls zs (State.holdRead s k fn off len) := by
  unfold State.holdRead
  refine Keeps.ite (fun _ => ?_) (fun _ => ?_)
  · exact hk.lit rfl rfl rfl rfl rfl
  · refine State.wakeReq_keeps _ _ ?_
    refine State.hold_keeps _ _ ?_
    exact hk

theorem State.memWrite_keeps (s : State) (k : HeldKind) (fn : Nat) (off : Nat) (data : Bytes) (f : State → State)
    (hk : Keeps ls zs s) (hf : ∀ (y0 : State), Keeps ls zs y0 → Keeps ls zs (f y0)) : Keeps ls zs (State.memWrite s
    k fn off data f) := by
  unfold State.memWrite
  refine Keeps.ite (fun _ => ?_) (fun _ => ?_)
  · refine State.holdWrite_keeps _ _ _ _ _ ?_
    exact hk
  · refine Keeps.ite (fun _ => ?_) (fun _ => ?_)
    · refine hf _ ?_
      exact hk
    · exact hk

theorem State.memRead_keeps (s : State) (k : HeldKind) (fn : Nat) (off : Nat) (len : Nat) (f : State → State) (hk :
    Keeps ls zs s) (hf : ∀ (y0 : State), Keeps ls zs y0 → Keeps ls zs (f y0)) : Keeps ls zs (State.memRead s k fn
    off len f) := by
  unfold State.memRead
  refine Keeps.ite (fun _ => ?_) (fun _ => ?_)
  · refine State.holdRead_keeps _ _ _ _ _ ?_
    exact hk
  · refine Keeps.ite (fun _ => ?_) (fun _ => ?_)
    · refine hf _ ?_
      exact hk
    · exact hk

theorem State.accessFault_keeps (s : State) (cause : Nat) (fn : Nat) (w : Nat) (off : Nat) (hk : Keeps ls zs s) :
    Keeps ls zs (State.accessFault s cause fn w off) := by
  unfold State.accessFault
  refine State.fault_keeps _ _ _ _ ?_
  exact hk

theorem State.sendRead_keeps (s : State) (x : PendXlate) (addr : Nat) (hk : Keeps ls zs s) : Keeps ls zs
    (State.sendRead s x addr) := by
  unfold State.sendRead
  extract_lets -merge +onlyGivenNames x1
  clear_value x1
  extract_lets -merge +onlyGivenNames x2
  clear_value x2
  refine State.emit_keeps _ _ ?_
  exact hk.lit rfl rfl rfl rfl rfl

theorem State.sendWrite_keeps (s : State) (f : Nat) (addr : Nat) (data : Bytes) (hk : Keeps ls zs s) : Keeps ls zs
    (State.sendWrite s f addr data) := by
  unfold State.sendWrite
  extract_lets -merge +onlyGivenNames x1
  have h1 : Keeps ls zs x1 := by
    unfold x1
    refine State.emit_keeps _ _ ?_
    exact hk
  clear_value x1
  refine Keeps.ite (fun _ => ?_) (fun _ => ?_)
  · exact h1
  · refine State.count_keeps _ _ _ _ ?_
    exact h1

theorem State.translate_keeps (s : State) (x : PendXlate) (hk : Keeps ls zs s) : Keeps ls zs (State.translate s x)
    := by
  unfold State.translate
  refine Keeps.ite (fun _ => ?_) (fun _ => ?_)
  · split
    · extract_lets -merge +onlyGivenNames x2 x1
      have h1 : Keeps ls zs x1 := by
        unfold x1
        exact hk.lit rfl rfl rfl rfl rfl
      try clear_value x1
      refine Keeps.ite (fun _ => ?_) (fun _ => ?_)
      · refine State.sendWrite_keeps _ _ _ _ ?_
        exact h1
      · refine State.sendRead_keeps _ _ _ ?_
        exact h1
    · refine State.emit_keeps _ _ ?_
      exact hk.lit rfl rfl rfl rfl rfl
  · refine Keeps.ite (fun _ => ?_) (fun _ => ?_)
    · refine State.sendWrite_keeps _ _ _ _ ?_
      exact hk
    · refine State.sendRead_keeps _ _ _ ?_
      exact hk

theorem State.issueAcc_keeps (s : State) (x : PendXlate) (hk : Keeps ls zs s) : Keeps ls zs (State.issueAcc s x) :=
    by
  unfold State.issueAcc
  refine Keeps.ite (fun _ => ?_) (fun _ => ?_)
  · refine State.translate_keeps _ _ ?_
    exact hk
  · exact hk.lit rfl rfl rfl rfl rfl

theorem State.issueRead_keeps (s : State) (f : Nat) (iss : Issuer) (addr : Nat) (len : Nat) (hk : Keeps ls zs s) :
    Keeps ls zs (State.issueRead s f iss addr len) := by
  unfold State.issueRead
  refine Keeps.foldl ?_ _ _ ?_
  · intro x1 x2 h1
    refine State.issueAcc_keeps _ _ ?_
    exact h1
  · exact hk

theorem State.issueWrite_keeps (s : State) (f : Nat) (iss : Issuer) (addr : Nat) (data : Bytes) (hk : Keeps ls zs s)
    : Keeps ls zs (State.issueWrite s f iss addr data) := by
  unfold State.issueWrite
  refine Keeps.foldl ?_ _ _ ?_
  · intro x1 x2 h1
    extract_lets -merge +onlyGivenNames x3
    clear_value x3
    refine Keeps.ite (fun _ => ?_) (fun _ => ?_)
    · refine State.issueAcc_keeps _ _ ?_
      exact h1
    · refine State.translate_keeps _ _ ?_
      exact h1
  · exact hk

theorem State.drainWaiting_keeps (s : State) (fuel : Nat) (hk : Keeps ls zs s) : Keeps ls zs (State.drainWaiting s
    fuel) := by
  induction fuel generalizing s with
  | zero => exact hk
  | succ f ih =>
    rw [State.drainWaiting]
    split
    · exact hk
    · exact Keeps.ite (fun _ => ih _ (State.translate_keeps _ _ (hk.lit rfl rfl rfl rfl rfl))) (fun _ => hk)

theorem State.drainAll_keeps (s : State) (hk : Keeps ls zs s) : Keeps ls zs (State.drainAll s) := by
  unfold State.drainAll
  refine State.drainWaiting_keeps _ _ ?_
  exact hk

theorem State.endPiece_keeps (s : State) (iss : Issuer) (off : Nat) (total : Nat) (r : Bytes ⊕ HostFail) (hk : Keeps
    ls zs s) : KeepsP ls zs (State.endPiece s iss off total r) := by
  unfold State.endPiece
  extract_lets -merge +onlyGivenNames x1
  clear_value x1
  extract_lets -merge +onlyGivenNames x2
  clear_value x2
  extract_lets -merge +onlyGivenNames x3
  clear_value x3
  extract_lets -merge +onlyGivenNames x4
  clear_value x4
  split
  · refine KeepsP.ite (fun _ => ?_) (fun _ => ?_)
    · refine KeepsP.mk ?_
      exact hk.lit rfl rfl rfl rfl rfl
    · refine KeepsP.mk ?_
      refine State.cancelReads_keeps _ _ ?_
      exact hk.lit rfl rfl rfl rfl rfl
  · refine KeepsP.ite (fun _ => ?_) (fun _ => ?_)
    · refine KeepsP.mk ?_
      exact hk.lit rfl rfl rfl rfl rfl
    · refine KeepsP.mk ?_
      exact hk.lit rfl rfl rfl rfl rfl

theorem State.drained_keeps (s : State) (f : Nat) (hk : Keeps ls zs s) : Keeps ls zs (State.drained s f) := by
  unfold State.drained
  refine Keeps.ite (fun _ => ?_) (fun _ => ?_)
  · refine State.flrFinish_keeps _ _ ?_
    exact hk
  · exact hk

theorem State.takeRead_keeps (s : State) (tag : Nat) (arrived : Bool) (hk : Keeps ls zs s) : KeepsP ls zs
    (State.takeRead s tag arrived) := by
  unfold State.takeRead
  split
  · refine KeepsP.mk ?_
    exact hk
  · extract_lets -merge +onlyGivenNames x2 x1
    have h1 : Keeps ls zs x1 := by
      unfold x1
      exact hk.lit rfl rfl rfl rfl rfl
    try clear_value x1
    extract_lets -merge +onlyGivenNames x3
    have h3 : Keeps ls zs x3 := by
      unfold x3
      refine Keeps.ite (fun _ => ?_) (fun _ => ?_)
      · refine State.modFn_keeps _ _ _ ?_
        exact h1
      · exact h1
    clear_value x3
    extract_lets -merge +onlyGivenNames x4
    have h4 : Keeps ls zs x4 := by
      unfold x4
      refine State.drainAll_keeps _ ?_
      refine State.drained_keeps _ _ ?_
      exact h3
    clear_value x4
    refine KeepsP.ite (fun _ => ?_) (fun _ => ?_)
    · refine KeepsP.mk ?_
      exact h4
    · refine KeepsP.mk ?_
      exact h4

theorem State.writeBack_keeps (s : State) (k : Nat) (hk : Keeps ls zs s) : Keeps ls zs (State.writeBack s k) := by
  unfold State.writeBack
  extract_lets -merge +onlyGivenNames x1
  clear_value x1
  refine Keeps.ite (fun _ => ?_) (fun _ => ?_)
  · refine State.modRing_keeps _ _ _ ?_
    refine State.hostWrite_keeps _ _ _ _ ?_
    exact hk
  · exact hk

theorem State.fetchRing_keeps (s : State) (fuel : Nat) (k : Nat) (hk : Keeps ls zs s) : Keeps ls zs (State.fetchRing
    s fuel k) := by
  induction fuel generalizing s k with
  | zero => exact hk
  | succ f ih =>
    rw [State.fetchRing]
    split
    · exact hk
    · exact ih _ _ (State.issueRead_keeps _ _ _ _ _ (State.modRing_keeps _ _ _ hk))

theorem State.readBack_keeps (s : State) (k : Nat) (hk : Keeps ls zs s) : Keeps ls zs (State.readBack s k) := by
  unfold State.readBack
  extract_lets -merge +onlyGivenNames x1
  clear_value x1
  refine Keeps.ite (fun _ => ?_) (fun _ => ?_)
  · extract_lets -merge +onlyGivenNames x2
    clear_value x2
    extract_lets -merge +onlyGivenNames x3
    have h3 : Keeps ls zs x3 := by
      unfold x3
      refine State.modRing_keeps _ _ _ ?_
      exact hk
    clear_value x3
    refine State.issueRead_keeps _ _ _ _ _ ?_
    exact h3
  · exact hk

theorem State.kickRing_keeps (s : State) (k : Nat) (hk : Keeps ls zs s) : Keeps ls zs (State.kickRing s k) := by
  unfold State.kickRing
  extract_lets -merge +onlyGivenNames x1
  have h1 : Keeps ls zs x1 := by
    unfold x1
    refine State.modRing_keeps _ _ _ ?_
    exact hk
  clear_value x1
  extract_lets -merge +onlyGivenNames x2
  have h2 : Keeps ls zs x2 := by
    unfold x2
    refine Keeps.ite (fun _ => ?_) (fun _ => ?_)
    · refine State.readBack_keeps _ _ ?_
      refine State.fetchRing_keeps _ _ _ ?_
      exact h1
    · exact h1
  clear_value x2
  refine Keeps.ite (fun _ => ?_) (fun _ => ?_)
  · refine State.writeBack_keeps _ _ ?_
    exact h2
  · exact h2

theorem State.takeFront_keeps (s : State) (k : Nat) (hk : Keeps ls zs s) : Keeps ls zs (State.takeFront s k) := by
  unfold State.takeFront
  refine State.kickRing_keeps _ _ ?_
  refine State.modRing_keeps _ _ _ ?_
  exact hk

theorem State.ringRead_keeps (s : State) (k : Nat) (first : Nat) (n : Nat) (r : Bytes ⊕ HostFail) (hk : Keeps ls zs
    s) : Keeps ls zs (State.ringRead s k first n r) := by
  unfold State.ringRead
  extract_lets -merge +onlyGivenNames x1
  clear_value x1
  split
  · refine State.kickRing_keeps _ _ ?_
    refine State.modRing_keeps _ _ _ ?_
    exact hk
  · extract_lets -merge +onlyGivenNames x2
    have h2 : Keeps ls zs x2 := by
      unfold x2
      refine State.modRing_keeps _ _ _ ?_
      exact hk
    clear_value x2
    refine State.kickRing_keeps _ _ ?_
    refine State.fault_keeps _ _ _ _ ?_
    exact h2

theorem State.dbDrop_keeps (s : State) (fn : Nat) (id : Nat) (cause : Nat) (hk : Keeps ls zs s) : Keeps ls zs
    (State.dbDrop s fn id cause) := by
  unfold State.dbDrop
  refine State.modFn_keeps _ _ _ ?_
  refine State.fault_keeps _ _ _ _ ?_
  exact hk

theorem State.putInline_keeps (s : State) (fn : Nat) (id : Nat) (data : Bytes) (hk : Keeps ls zs s) : Keeps ls zs
    (State.putInline s fn id data) := by
  unfold State.putInline
  extract_lets -merge +onlyGivenNames x1
  clear_value x1
  extract_lets -merge +onlyGivenNames x2
  clear_value x2
  extract_lets -merge +onlyGivenNames x3
  clear_value x3
  extract_lets -merge +onlyGivenNames x4
  have h4 : Keeps ls zs x4 := by
    unfold x4
    refine Keeps.ite (fun _ => ?_) (fun _ => ?_)
    · refine State.hostWrite_keeps _ _ _ _ ?_
      exact hk
    · exact hk
  clear_value x4
  extract_lets -merge +onlyGivenNames x5
  clear_value x5
  refine State.kickRing_keeps _ _ ?_
  refine State.modRing_keeps _ _ _ ?_
  exact h4

theorem State.inlineWrite_keeps (s : State) (fn : Nat) (id : Nat) (off : Nat) (data : Bytes) (hk : Keeps ls zs s) :
    Keeps ls zs (State.inlineWrite s fn id off data) := by
  unfold State.inlineWrite
  extract_lets -merge +onlyGivenNames x1
  clear_value x1
  refine Keeps.ite (fun _ => ?_) (fun _ => ?_)
  · refine State.dbDrop_keeps _ _ _ _ ?_
    exact hk
  · refine Keeps.ite (fun _ => ?_) (fun _ => ?_)
    · refine State.dbDrop_keeps _ _ _ _ ?_
      exact hk
    · refine Keeps.ite (fun _ => ?_) (fun _ => ?_)
      · refine State.dbDrop_keeps _ _ _ _ ?_
        exact hk
      · refine State.putInline_keeps _ _ _ _ ?_
        exact hk

theorem State.tailWrite_keeps (s : State) (fn : Nat) (id : Nat) (off : Nat) (data : Bytes) (hk : Keeps ls zs s) :
    Keeps ls zs (State.tailWrite s fn id off data) := by
  unfold State.tailWrite
  extract_lets -merge +onlyGivenNames x1
  clear_value x1
  extract_lets -merge +onlyGivenNames x2
  clear_value x2
  extract_lets -merge +onlyGivenNames x3
  clear_value x3
  extract_lets -merge +onlyGivenNames x4
  clear_value x4
  refine Keeps.ite (fun _ => ?_) (fun _ => ?_)
  · refine State.dbDrop_keeps _ _ _ _ ?_
    exact hk
  · refine Keeps.ite (fun _ => ?_) (fun _ => ?_)
    · refine State.dbDrop_keeps _ _ _ _ ?_
      exact hk
    · refine Keeps.ite (fun _ => ?_) (fun _ => ?_)
      · refine State.dbDrop_keeps _ _ _ _ ?_
        exact hk
      · refine State.kickRing_keeps _ _ ?_
        refine State.modRing_keeps _ _ _ ?_
        exact hk

theorem State.postLost_keeps (s : State) (f : Nat) (hk : Keeps ls zs s) : Keeps ls zs (State.postLost s f) := by
  unfold State.postLost
  extract_lets -merge +onlyGivenNames x1
  clear_value x1
  refine Keeps.ite (fun _ => ?_) (fun _ => ?_)
  · exact hk
  · extract_lets -merge +onlyGivenNames x2
    have h2 : KeepsP ls zs x2 := by
      unfold x2
      refine State.postEvent_keeps _ _ _ _ _ ?_
      exact hk
    clear_value x2
    refine Keeps.ite (fun _ => ?_) (fun _ => ?_)
    · refine State.modFn_keeps _ _ _ ?_
      exact h2
    · exact hk

theorem State.headWrite_keeps (s : State) (fn : Nat) (id : Nat) (off : Nat) (data : Bytes) (hk : Keeps ls zs s) :
    Keeps ls zs (State.headWrite s fn id off data) := by
  unfold State.headWrite
  extract_lets -merge +onlyGivenNames x1
  clear_value x1
  extract_lets -merge +onlyGivenNames x2
  clear_value x2
  extract_lets -merge +onlyGivenNames x3
  clear_value x3
  refine Keeps.ite (fun _ => ?_) (fun _ => ?_)
  · refine State.dbDrop_keeps _ _ _ _ ?_
    exact hk
  · refine Keeps.ite (fun _ => ?_) (fun _ => ?_)
    · refine State.dbDrop_keeps _ _ _ _ ?_
      exact hk
    · refine Keeps.ite (fun _ => ?_) (fun _ => ?_)
      · refine State.fault_keeps _ _ _ _ ?_
        exact hk
      · extract_lets -merge +onlyGivenNames x4
        have h4 : Keeps ls zs x4 := by
          unfold x4
          refine State.modRing_keeps _ _ _ ?_
          exact hk
        clear_value x4
        refine Keeps.ite (fun _ => ?_) (fun _ => ?_)
        · refine State.postLost_keeps _ _ ?_
          exact h4
        · exact h4

theorem State.doorbell_keeps (s : State) (fn : Nat) (off : Nat) (data : Bytes) (hk : Keeps ls zs s) : Keeps ls zs
    (State.doorbell s fn off data) := by
  unfold State.doorbell
  split
  · refine State.inlineWrite_keeps _ _ _ _ _ ?_
    exact hk
  · refine State.tailWrite_keeps _ _ _ _ _ ?_
    exact hk
  · refine State.headWrite_keeps _ _ _ _ _ ?_
    exact hk
  · refine State.accessFault_keeps _ _ _ _ _ ?_
    exact hk

theorem execInlineDoorbell_keeps (fn : Nat) (off : Nat) (data : Bytes) (s : State) (hk : Keeps ls zs s) : KeepsR ls
    zs (execInlineDoorbell fn off data s) := by
  unfold execInlineDoorbell
  refine KeepsR.next ?_
  refine Keeps.ite (fun _ => ?_) (fun _ => ?_)
  · refine State.memWrite_keeps _ _ _ _ _ _ ?_ ?_
    · exact hk
    · intro x1 h1
      refine State.doorbell_keeps _ _ _ _ ?_
      exact h1
  · exact hk

theorem execTailDoorbell_keeps (fn : Nat) (off : Nat) (data : Bytes) (s : State) (hk : Keeps ls zs s) : KeepsR ls zs
    (execTailDoorbell fn off data s) := by
  unfold execTailDoorbell
  refine KeepsR.next ?_
  refine Keeps.ite (fun _ => ?_) (fun _ => ?_)
  · refine State.memWrite_keeps _ _ _ _ _ _ ?_ ?_
    · exact hk
    · intro x1 h1
      refine State.doorbell_keeps _ _ _ _ ?_
      exact h1
  · exact hk

theorem execCqHeadDoorbell_keeps (fn : Nat) (off : Nat) (data : Bytes) (s : State) (hk : Keeps ls zs s) : KeepsR ls
    zs (execCqHeadDoorbell fn off data s) := by
  unfold execCqHeadDoorbell
  refine KeepsR.next ?_
  refine Keeps.ite (fun _ => ?_) (fun _ => ?_)
  · refine State.memWrite_keeps _ _ _ _ _ _ ?_ ?_
    · exact hk
    · intro x1 h1
      refine State.doorbell_keeps _ _ _ _ ?_
      exact h1
  · exact hk

theorem execHeadWriteBack_keeps (ring : Nat) (s : State) (hk : Keeps ls zs s) : KeepsR ls zs (execHeadWriteBack ring
    s) := by
  unfold execHeadWriteBack
  refine KeepsR.next ?_
  refine Keeps.ite (fun _ => ?_) (fun _ => ?_)
  · refine State.writeBack_keeps _ _ ?_
    exact hk
  · exact hk

theorem State.unmask_keeps (s : State) (f : Nat) (v : Nat) (hk : Keeps ls zs s) : Keeps ls zs (State.unmask s f v)
    := by
  unfold State.unmask
  extract_lets -merge +onlyGivenNames x1
  clear_value x1
  refine Keeps.ite (fun _ => ?_) (fun _ => ?_)
  · refine State.emit_keeps _ _ ?_
    refine State.modFn_keeps _ _ _ ?_
    exact hk
  · refine State.modFn_keeps _ _ _ ?_
    exact hk

theorem execMsixUnmask_keeps (fn : Nat) (vec : Nat) (s : State) (hk : Keeps ls zs s) : KeepsR ls zs (execMsixUnmask
    fn vec s) := by
  unfold execMsixUnmask
  refine KeepsR.next ?_
  refine Keeps.ite (fun _ => ?_) (fun _ => ?_)
  · refine State.unmask_keeps _ _ _ ?_
    exact hk
  · exact hk

theorem State.revoke_keeps (s : State) (iss : Issuer) (hk : Keeps ls zs s) : Keeps ls zs (State.revoke s iss) := by
  unfold State.revoke
  split
  · refine State.modRing_keeps _ _ _ ?_
    exact hk
  · refine State.tileFault_keeps _ _ _ _ _ _ _ ?_
    exact hk
  · refine State.tileFault_keeps _ _ _ _ _ _ _ ?_
    exact hk
  · refine State.startAbort_keeps _ _ _ _ ?_
    exact hk
  · refine State.setUpd_keeps _ _ _ _ ?_
    exact hk
  · refine State.modCmd_keeps _ _ _ ?_
    exact hk

theorem State.bmeClear_keeps (s : State) (f : Nat) (hk : Keeps ls zs s) : Keeps ls zs (State.bmeClear s f) := by
  unfold State.bmeClear
  extract_lets -merge +onlyGivenNames x1
  clear_value x1
  extract_lets -merge +onlyGivenNames x2
  have h2 : Keeps ls zs x2 := by
    unfold x2
    refine State.modFn_keeps _ _ _ ?_
    exact hk
  clear_value x2
  extract_lets -merge +onlyGivenNames x4 x3
  have h3 : Keeps ls zs x3 := by
    unfold x3
    exact h2.lit rfl rfl rfl rfl rfl
  try clear_value x3
  extract_lets -merge +onlyGivenNames x5
  have h5 : Keeps ls zs x5 := by
    unfold x5
    refine Keeps.foldl ?_ _ _ ?_
    · intro x6 x7 h6
      refine State.revoke_keeps _ _ ?_
      exact h6
    · exact h3
  clear_value x5
  exact h5.lit rfl rfl rfl rfl rfl

theorem execBmeClear_keeps (fn : Nat) (s : State) (hk : Keeps ls zs s) : KeepsR ls zs (execBmeClear fn s) := by
  unfold execBmeClear
  refine KeepsR.next ?_
  refine Keeps.ite (fun _ => ?_) (fun _ => ?_)
  · refine State.bmeClear_keeps _ _ ?_
    exact hk
  · exact hk

theorem State.postHeld_keeps (s : State) (f : Nat) (hk : Keeps ls zs s) : Keeps ls zs (State.postHeld s f) := by
  unfold State.postHeld
  extract_lets -merge +onlyGivenNames x1
  clear_value x1
  extract_lets -merge +onlyGivenNames x2
  have h2 : Keeps ls zs x2 := by
    unfold x2
    refine State.modFn_keeps _ _ _ ?_
    exact hk
  clear_value x2
  refine Keeps.foldl ?_ _ _ ?_
  · intro x3 x4 h3
    refine State.pushEntry_keeps _ _ _ _ ?_
    exact h3
  · exact h2

theorem State.postVectors_keeps (s : State) (f : Nat) (hk : Keeps ls zs s) : Keeps ls zs (State.postVectors s f) :=
    by
  unfold State.postVectors
  refine Keeps.foldl ?_ _ _ ?_
  · intro x1 x2 h1
    refine State.unmask_keeps _ _ _ ?_
    exact h1
  · exact hk

theorem State.bmeSet_keeps (s : State) (f : Nat) (ats : Bool) (hk : Keeps ls zs s) : Keeps ls zs (State.bmeSet s f
    ats) := by
  unfold State.bmeSet
  extract_lets -merge +onlyGivenNames x1
  have h1 : Keeps ls zs x1 := by
    unfold x1
    refine State.modFn_keeps _ _ _ ?_
    exact hk
  clear_value x1
  extract_lets -merge +onlyGivenNames x3 x2
  have h2 : Keeps ls zs x2 := by
    unfold x2
    exact h1.lit rfl rfl rfl rfl rfl
  try clear_value x2
  extract_lets -merge +onlyGivenNames x4
  have h4 : Keeps ls zs x4 := by
    unfold x4
    refine State.postVectors_keeps _ _ ?_
    refine State.postHeld_keeps _ _ ?_
    exact h2
  clear_value x4
  refine State.each_keeps _ _ _ ?_ ?_
  · exact h4
  · intro x5 x6 h5
    refine State.kickRing_keeps _ _ ?_
    exact h5

theorem Pcie.configure_numVfs {p : Pcie} (h : p.numVfs ≤ 32) (c : PcieCfg) : (p.configure c).numVfs ≤ 32 := by
  unfold Pcie.configure
  extract_lets -merge +onlyGivenNames g
  split
  · exact Nat.min_le_left _ _
  · exact h

theorem execBmeSet_keeps (fn : Nat) (cfg : PcieCfg) (s : State) (hk : Keeps ls zs s) : KeepsR ls zs (execBmeSet fn
    cfg s) := by
  unfold execBmeSet
  refine KeepsR.next ?_
  extract_lets -merge +onlyGivenNames x1
  have h1 : Keeps ls zs x1 := by
    unfold x1
    exact hk.pcie rfl rfl rfl rfl (Pcie.configure_numVfs hk.2.2.2 _)
  try clear_value x1
  refine Keeps.ite (fun _ => ?_) (fun _ => ?_)
  · refine State.bmeSet_keeps _ _ _ ?_
    exact h1
  · exact hk

theorem State.vfClear_keeps (s : State) (hk : Keeps ls zs s) : Keeps ls zs (State.vfClear s) := by
  unfold State.vfClear
  extract_lets -merge +onlyGivenNames x1
  have h1 : Keeps ls zs x1 := by
    unfold x1
    refine State.each_keeps _ _ _ ?_ ?_
    · exact hk
    · intro x2 x3 h2
      refine State.flrStart_keeps _ _ ?_
      exact h2
  clear_value x1
  exact h1.pcie rfl rfl rfl rfl (Nat.zero_le _)

theorem State.pfFlr_keeps (s : State) (hk : Keeps ls zs s) : Keeps ls zs (State.pfFlr s) := by
  unfold State.pfFlr
  refine State.flrStart_keeps _ _ ?_
  refine State.vfClear_keeps _ ?_
  exact hk

theorem execFlr_keeps (fn : Nat) (s : State) (hk : Keeps ls zs s) : KeepsR ls zs (execFlr fn s) := by
  unfold execFlr
  refine KeepsR.next ?_
  refine Keeps.ite (fun _ => ?_) (fun _ => ?_)
  · refine Keeps.ite (fun _ => ?_) (fun _ => ?_)
    · refine State.pfFlr_keeps _ ?_
      exact hk
    · refine State.flrStart_keeps _ _ ?_
      exact hk
  · exact hk

theorem execVfEnableClear_keeps (byFlr : Bool) (s : State) (hk : Keeps ls zs s) : KeepsR ls zs (execVfEnableClear
    byFlr s) := by
  unfold execVfEnableClear
  refine KeepsR.next ?_
  refine Keeps.ite (fun _ => ?_) (fun _ => ?_)
  · refine Keeps.ite (fun _ => ?_) (fun _ => ?_)
    · refine State.pfFlr_keeps _ ?_
      exact hk
    · refine State.vfClear_keeps _ ?_
      exact hk
  · exact hk

theorem State.drainEnd_keeps (s : State) (f : Nat) (hk : Keeps ls zs s) : Keeps ls zs (State.drainEnd s f) := by
  unfold State.drainEnd
  refine State.flrFinish_keeps _ _ ?_
  exact hk.lit rfl rfl rfl rfl rfl

theorem execFlrDrainTimeout_keeps (fn : Nat) (s : State) (hk : Keeps ls zs s) : KeepsR ls zs (execFlrDrainTimeout fn
    s) := by
  unfold execFlrDrainTimeout
  refine KeepsR.next ?_
  refine Keeps.ite (fun _ => ?_) (fun _ => ?_)
  · refine State.drainEnd_keeps _ _ ?_
    exact hk
  · exact hk

theorem execAtsInvalidate_keeps (fn : Nat) (itag : Nat) (iova : Nat) (log2 : Nat) (s : State) (hk : Keeps ls zs s) :
    KeepsR ls zs (execAtsInvalidate fn itag iova log2 s) := by
  unfold execAtsInvalidate
  refine KeepsR.next ?_
  refine Keeps.ite (fun _ => ?_) (fun _ => ?_)
  · extract_lets -merge +onlyGivenNames x1
    clear_value x1
    refine State.emit_keeps _ _ ?_
    exact hk.lit rfl rfl rfl rfl rfl
  · exact hk

/-! ### Pool -/

theorem State.writeBag_keeps (s : State) (r : Req) (b : Bag) (hk : Keeps ls zs s) : Keeps ls zs (State.writeBag s r
    b) := by
  unfold State.writeBag
  extract_lets -merge +onlyGivenNames x1
  clear_value x1
  extract_lets -merge +onlyGivenNames x2
  clear_value x2
  extract_lets -merge +onlyGivenNames x3
  clear_value x3
  extract_lets -merge +onlyGivenNames x4
  clear_value x4
  split
  · exact hk
  · refine State.modTile_keeps _ _ _ ?_
    exact hk

theorem State.freeArr_keeps (s : State) (b : Bag) (hk : Keeps ls zs s) : Keeps ls zs (State.freeArr s b) := by
  unfold State.freeArr
  split
  · exact hk.lit rfl rfl rfl rfl rfl
  · exact hk

theorem State.closeBag_keeps (s : State) (id : Nat) (smp : Nat) (grp : Nat) (ent : Nat) (hk : Keeps ls zs s) : Keeps
    ls zs (State.closeBag s id smp grp ent) := by
  unfold State.closeBag
  split
  · exact hk
  · extract_lets -merge +onlyGivenNames x1
    clear_value x1
    refine Keeps.ite (fun _ => ?_) (fun _ => ?_)
    · refine State.modReq_keeps _ _ _ ?_
      refine State.freeArr_keeps _ _ ?_
      refine State.writeBag_keeps _ _ _ ?_
      exact hk
    · exact hk

theorem State.finishBags_keeps (s : State) (id : Nat) (hk : Keeps ls zs s) : Keeps ls zs (State.finishBags s id) :=
    by
  unfold State.finishBags
  split
  · exact hk
  · refine Keeps.ite (fun _ => ?_) (fun _ => ?_)
    · extract_lets -merge +onlyGivenNames x1
      have h1 : Keeps ls zs x1 := by
        unfold x1
        refine Keeps.foldl ?_ _ _ ?_
        · intro x2 x3 h2
          extract_lets -merge +onlyGivenNames x4
          clear_value x4
          refine Keeps.ite (fun _ => ?_) (fun _ => ?_)
          · exact h2
          · refine State.freeArr_keeps _ _ ?_
            refine State.writeBag_keeps _ _ _ ?_
            exact h2
        · exact hk
      clear_value x1
      refine State.modReq_keeps _ _ _ ?_
      exact h1
    · exact hk

theorem State.addPart_keeps (s : State) (id : Nat) (smp : Nat) (grp : Nat) (ent : Nat) (p : BagPart) (hk : Keeps ls
    zs s) : Keeps ls zs (State.addPart s id smp grp ent p) := by
  unfold State.addPart
  refine State.finishBags_keeps _ _ ?_
  refine State.closeBag_keeps _ _ _ _ _ ?_
  refine State.modReq_keeps _ _ _ ?_
  exact hk

/-! ### Tasks -/

theorem State.steer_keeps (s : State) (r : Req) (feat : Bytes) (hk : Keeps ls zs s) : Keeps ls zs (State.steer s r
    feat) := by
  unfold State.steer
  split
  · refine Keeps.ite (fun _ => ?_) (fun _ => ?_)
    · extract_lets -merge +onlyGivenNames x1
      clear_value x1
      extract_lets -merge +onlyGivenNames x3 x2
      have h2 : Keeps ls zs x2 := by
        unfold x2
        exact hk.lit rfl rfl rfl rfl rfl
      try clear_value x2
      refine State.modReq_keeps _ _ _ ?_
      refine State.modQuad_keeps _ _ _ ?_
      exact h2
    · refine State.endReq_keeps _ _ _ _ ?_
      exact hk
  · refine State.endReq_keeps _ _ _ _ ?_
    exact hk

theorem State.beginFeatures_keeps (s : State) (r : Req) (hk : Keeps ls zs s) : Keeps ls zs (State.beginFeatures s r)
    := by
  unfold State.beginFeatures
  split
  · refine State.modReq_keeps _ _ _ ?_
    exact hk
  · refine State.steer_keeps _ _ _ ?_
    exact hk
  · exact hk
  · refine State.issueRead_keeps _ _ _ _ _ ?_
    refine State.chargePcie_keeps _ _ _ ?_
    exact hk

theorem State.useCredit_keeps (s : State) (d : Nat) (r : Nat) (hk : Keeps ls zs s) : Keeps ls zs (State.useCredit s
    d r) := by
  unfold State.useCredit
  refine State.each_keeps _ _ _ ?_ ?_
  · exact hk
  · intro x1 x2 h1
    refine State.modTmr_keeps _ _ _ ?_
    exact h1

theorem State.takeRequest_keeps (s : State) (d : Nat) (ring : Nat) (hk : Keeps ls zs s) : Keeps ls zs
    (State.takeRequest s d ring) := by
  unfold State.takeRequest
  extract_lets -merge +onlyGivenNames x1
  have h1 : Keeps ls zs x1 := by
    unfold x1
    refine State.modRing_keeps _ _ _ ?_
    refine State.takeFront_keeps _ _ ?_
    exact hk
  clear_value x1
  extract_lets -merge +onlyGivenNames x2
  have h2 : Keeps ls zs x2 := by
    unfold x2
    refine State.count_keeps _ _ _ _ ?_
    refine State.chargePcie_keeps _ _ _ ?_
    refine State.chargePcie_keeps _ _ _ ?_
    exact h1
  clear_value x2
  refine State.modDen_keeps _ _ _ ?_
  extract_lets -merge +onlyGivenNames x3
  have h3 : Keeps ls zs x3 := by
    unfold x3
    refine State.useCredit_keeps _ _ _ ?_
    exact h2
  clear_value x3
  exact h3.lit rfl rfl rfl rfl rfl

theorem State.admitHead_keeps (s : State) (d : Nat) (ring : Nat) (hk : Keeps ls zs s) : Keeps ls zs (State.admitHead
    s d ring) := by
  unfold State.admitHead
  extract_lets -merge +onlyGivenNames x1
  clear_value x1
  extract_lets -merge +onlyGivenNames x2
  have h2 : Keeps ls zs x2 := by
    unfold x2
    refine State.takeRequest_keeps _ _ _ ?_
    exact hk
  clear_value x2
  refine Keeps.ite (fun _ => ?_) (fun _ => ?_)
  · refine State.complete_keeps _ _ _ _ _ _ _ _ _ ?_
    exact h2
  · extract_lets -merge +onlyGivenNames x3
    clear_value x3
    extract_lets -merge +onlyGivenNames x4
    have h4 : Keeps ls zs x4 := by
      unfold x4
      refine Keeps.foldl ?_ _ _ ?_
      · intro x5 x6 h5
        refine State.takeRef_keeps _ _ _ ?_
        exact h5
      · exact h2.lit rfl rfl rfl rfl rfl
    clear_value x4
    extract_lets -merge +onlyGivenNames x7
    clear_value x7
    refine Keeps.ite (fun _ => ?_) (fun _ => ?_)
    · refine State.endReq_keeps _ _ _ _ ?_
      exact h4
    · refine State.beginFeatures_keeps _ _ ?_
      exact h4

theorem State.admitNext_keeps (s : State) (hk : Keeps ls zs s) : Keeps ls zs (State.admitNext s) := by
  unfold State.admitNext
  extract_lets -merge +onlyGivenNames x1
  have h1 : Keeps ls zs x1 := by
    unfold x1
    refine State.each_keeps _ _ _ ?_ ?_
    · exact hk
    · intro x2 x3 h2
      refine State.count_keeps _ _ _ _ ?_
      exact h2
  clear_value x1
  split
  · split
    · refine State.admitHead_keeps _ _ _ ?_
      exact h1
    · exact h1
  · exact h1

theorem execRequestAdmit_keeps (s : State) (hk : Keeps ls zs s) : KeepsR ls zs (execRequestAdmit s) := by
  unfold execRequestAdmit
  refine KeepsR.next ?_
  refine Keeps.ite (fun _ => ?_) (fun _ => ?_)
  · refine State.admitNext_keeps _ ?_
    exact hk
  · exact hk

theorem State.failFeatures_keeps (s : State) (r : Req) (status : Nat) (hk : Keeps ls zs s) : Keeps ls zs
    (State.failFeatures s r status) := by
  unfold State.failFeatures
  refine Keeps.ite (fun _ => ?_) (fun _ => ?_)
  · refine State.endReq_keeps _ _ _ _ ?_
    exact hk
  · refine State.startAbort_keeps _ _ _ _ ?_
    exact hk

theorem State.readFeatures_keeps (s : State) (r : Req) (hk : Keeps ls zs s) : Keeps ls zs (State.readFeatures s r)
    := by
  unfold State.readFeatures
  extract_lets -merge +onlyGivenNames x1
  clear_value x1
  extract_lets -merge +onlyGivenNames x2
  clear_value x2
  extract_lets -merge +onlyGivenNames x3
  clear_value x3
  refine Keeps.ite (fun _ => ?_) (fun _ => ?_)
  · refine State.failFeatures_keeps _ _ _ ?_
    exact hk
  · refine Keeps.ite (fun _ => ?_) (fun _ => ?_)
    · refine State.failFeatures_keeps _ _ _ ?_
      exact hk
    · refine State.steer_keeps _ _ _ ?_
      exact hk

theorem execFeatureReadDone_keeps (req : Nat) (s : State) (hk : Keeps ls zs s) : KeepsR ls zs (execFeatureReadDone
    req s) := by
  unfold execFeatureReadDone
  refine KeepsR.next ?_
  split
  · exact hk
  · refine Keeps.ite (fun _ => ?_) (fun _ => ?_)
    · refine Keeps.ite (fun _ => ?_) (fun _ => ?_)
      · refine State.readFeatures_keeps _ _ ?_
        exact hk
      · split
        · refine State.steer_keeps _ _ _ ?_
          exact hk
        · exact hk
    · exact hk

theorem State.bindTiles_keeps (s : State) (id : Nat) (ts : List Nat) (hk : Keeps ls zs s) : Keeps ls zs
    (State.bindTiles s id ts) := by
  unfold State.bindTiles
  refine State.each_keeps _ _ _ ?_ ?_
  · exact hk
  · intro x1 x2 h1
    refine State.modTile_keeps _ _ _ ?_
    exact h1

theorem State.placeOn_keeps (s : State) (r : Req) (ts : List Nat) (hk : Keeps ls zs s) : Keeps ls zs (State.placeOn
    s r ts) := by
  unfold State.placeOn
  refine State.finishBags_keeps _ _ ?_
  refine State.bindTiles_keeps _ _ _ ?_
  refine State.modReq_keeps _ _ _ ?_
  exact hk

theorem State.raiseDemand_keeps (s : State) (q : Req) (n : Nat) (hk : Keeps ls zs s) : Keeps ls zs
    (State.raiseDemand s q n) := by
  unfold State.raiseDemand
  extract_lets -merge +onlyGivenNames x1
  clear_value x1
  refine Keeps.ite (fun _ => ?_) (fun _ => ?_)
  · exact hk
  · extract_lets -merge +onlyGivenNames x2
    clear_value x2
    refine State.each_keeps _ _ _ ?_ ?_
    · exact hk
    · intro x3 x4 h3
      refine State.modReq_keeps _ _ _ ?_
      exact h3

theorem execRequestPlace_keeps (den : Nat) (s : State) (hk : Keeps ls zs s) : KeepsR ls zs (execRequestPlace den s)
    := by
  unfold execRequestPlace
  refine KeepsR.next ?_
  refine Keeps.ite (fun _ => ?_) (fun _ => ?_)
  · split
    · exact hk
    · extract_lets -merge +onlyGivenNames x1
      clear_value x1
      extract_lets -merge +onlyGivenNames x2
      clear_value x2
      refine Keeps.ite (fun _ => ?_) (fun _ => ?_)
      · refine State.placeOn_keeps _ _ _ ?_
        exact hk
      · refine State.raiseDemand_keeps _ _ _ ?_
        exact hk
  · exact hk

theorem State.startTask_keeps (s : State) (r : Req) (hk : Keeps ls zs s) : Keeps ls zs (State.startTask s r) := by
  unfold State.startTask
  extract_lets -merge +onlyGivenNames x1
  clear_value x1
  extract_lets -merge +onlyGivenNames x2
  have h2 : Keeps ls zs x2 := by
    unfold x2
    refine Keeps.foldl ?_ _ _ ?_
    · intro x3 x4 h3
      refine State.modTile_keeps _ _ _ ?_
      exact h3
    · exact hk
  clear_value x2
  extract_lets -merge +onlyGivenNames x5
  clear_value x5
  refine State.modReq_keeps _ _ _ ?_
  exact h2

theorem execTaskStart_keeps (req : Nat) (s : State) (hk : Keeps ls zs s) : KeepsR ls zs (execTaskStart req s) := by
  unfold execTaskStart
  refine KeepsR.next ?_
  split
  · exact hk
  · refine Keeps.ite (fun _ => ?_) (fun _ => ?_)
    · refine State.startTask_keeps _ _ ?_
      exact hk
    · exact hk

theorem execTileWake_keeps (tile : Nat) (s : State) (hk : Keeps ls zs s) : KeepsR ls zs (execTileWake tile s) := by
  unfold execTileWake
  refine KeepsR.next ?_
  refine Keeps.ite (fun _ => ?_) (fun _ => ?_)
  · refine State.modTile_keeps _ _ _ ?_
    exact hk
  · exact hk

theorem State.reportEnd_keeps (s : State) (t : Nat) (r : Req) (hk : Keeps ls zs s) : Keeps ls zs (State.reportEnd s
    t r) := by
  unfold State.reportEnd
  extract_lets -merge +onlyGivenNames x1
  have h1 : Keeps ls zs x1 := by
    unfold x1
    refine State.modTile_keeps _ _ _ ?_
    exact hk
  clear_value x1
  extract_lets -merge +onlyGivenNames x2
  clear_value x2
  extract_lets -merge +onlyGivenNames x3
  have h3 : Keeps ls zs x3 := by
    unfold x3
    refine State.modReq_keeps _ _ _ ?_
    exact h1
  clear_value x3
  refine Keeps.ite (fun _ => ?_) (fun _ => ?_)
  · refine State.endReq_keeps _ _ _ _ ?_
    exact h3
  · exact h3

theorem execTileEndReport_keeps (tile : Nat) (s : State) (hk : Keeps ls zs s) : KeepsR ls zs (execTileEndReport tile
    s) := by
  unfold execTileEndReport
  refine KeepsR.next ?_
  split
  · exact hk
  · refine Keeps.ite (fun _ => ?_) (fun _ => ?_)
    · refine State.reportEnd_keeps _ _ _ ?_
      exact hk
    · exact hk

theorem State.abortDone_keeps (s : State) (r : Req) (hk : Keeps ls zs s) : Keeps ls zs (State.abortDone s r) := by
  unfold State.abortDone
  extract_lets -merge +onlyGivenNames x1
  have h1 : Keeps ls zs x1 := by
    unfold x1
    refine State.endReq_keeps _ _ _ _ ?_
    exact hk
  clear_value x1
  split
  · refine State.countFault_keeps _ _ _ ?_
    exact h1
  · exact h1

theorem execTaskAbortDone_keeps (req : Nat) (s : State) (hk : Keeps ls zs s) : KeepsR ls zs (execTaskAbortDone req
    s) := by
  unfold execTaskAbortDone
  refine KeepsR.next ?_
  split
  · exact hk
  · refine Keeps.ite (fun _ => ?_) (fun _ => ?_)
    · refine State.abortDone_keeps _ _ ?_
      exact hk
    · exact hk

theorem execGuardExpiry_keeps (tile : Nat) (s : State) (hk : Keeps ls zs s) : KeepsR ls zs (execGuardExpiry tile s)
    := by
  unfold execGuardExpiry
  refine KeepsR.next ?_
  split
  · exact hk
  · refine Keeps.ite (fun _ => ?_) (fun _ => ?_)
    · refine State.tileFault_keeps _ _ _ _ _ _ _ ?_
      refine State.modTile_keeps _ _ _ ?_
      exact hk
    · exact hk

theorem execTileDoze_keeps (tile : Nat) (s : State) (hk : Keeps ls zs s) : KeepsR ls zs (execTileDoze tile s) := by
  unfold execTileDoze
  refine KeepsR.next ?_
  refine Keeps.ite (fun _ => ?_) (fun _ => ?_)
  · refine State.modTile_keeps _ _ _ ?_
    exact hk
  · exact hk

theorem execTilePrepareDone_keeps (tile : Nat) (s : State) (hk : Keeps ls zs s) : KeepsR ls zs (execTilePrepareDone
    tile s) := by
  unfold execTilePrepareDone
  refine KeepsR.next ?_
  refine Keeps.ite (fun _ => ?_) (fun _ => ?_)
  · refine State.modTile_keeps _ _ _ ?_
    exact hk
  · exact hk

theorem State.yieldTask_keeps (s : State) (r : Req) (hk : Keeps ls zs s) : Keeps ls zs (State.yieldTask s r) := by
  unfold State.yieldTask
  extract_lets -merge +onlyGivenNames x1
  clear_value x1
  extract_lets -merge +onlyGivenNames x2
  have h2 : Keeps ls zs x2 := by
    unfold x2
    refine State.count_keeps _ _ _ _ ?_
    refine State.runTime_keeps _ _ _ ?_
    exact hk
  clear_value x2
  extract_lets -merge +onlyGivenNames x3
  have h3 : Keeps ls zs x3 := by
    unfold x3
    refine State.each_keeps _ _ _ ?_ ?_
    · exact h2
    · intro x4 x5 h4
      refine State.modTile_keeps _ _ _ ?_
      exact h4
  clear_value x3
  extract_lets -merge +onlyGivenNames x6
  have h6 : Keeps ls zs x6 := by
    unfold x6
    refine State.modReq_keeps _ _ _ ?_
    exact h3
  clear_value x6
  refine Keeps.ite (fun _ => ?_) (fun _ => ?_)
  · refine State.startAbort_keeps _ _ _ _ ?_
    exact h6
  · exact h6

theorem execTileParked_keeps (req : Nat) (s : State) (hk : Keeps ls zs s) : KeepsR ls zs (execTileParked req s) :=
    by
  unfold execTileParked
  refine KeepsR.next ?_
  split
  · exact hk
  · refine Keeps.ite (fun _ => ?_) (fun _ => ?_)
    · refine State.yieldTask_keeps _ _ ?_
      exact hk
    · exact hk

theorem execYieldCancel_keeps (req : Nat) (s : State) (hk : Keeps ls zs s) : KeepsR ls zs (execYieldCancel req s) :=
    by
  unfold execYieldCancel
  refine KeepsR.next ?_
  split
  · exact hk
  · refine Keeps.ite (fun _ => ?_) (fun _ => ?_)
    · refine State.count_keeps _ _ _ _ ?_
      refine State.each_keeps _ _ _ ?_ ?_
      · exact hk
      · intro x1 x2 h1
        refine State.modTile_keeps _ _ _ ?_
        exact h1
    · exact hk

theorem State.postSem_keeps (s : State) (t : Nat) (n : Nat) (hk : Keeps ls zs s) : Keeps ls zs (State.postSem s t n)
    := by
  unfold State.postSem
  extract_lets -merge +onlyGivenNames x1
  clear_value x1
  refine Keeps.ite (fun _ => ?_) (fun _ => ?_)
  · refine State.tileFault_keeps _ _ _ _ _ _ _ ?_
    exact hk
  · refine State.modTile_keeps _ _ _ ?_
    exact hk

theorem State.postDue_keeps (s : State) (r : Req) (xa2 : HistDecl) (hk : Keeps ls zs s) : Keeps ls zs (State.postDue
    s r xa2) := by
  unfold State.postDue
  split
  · exact hk
  · extract_lets -merge +onlyGivenNames x1
    have h1 : Keeps ls zs x1 := by
      unfold x1
      refine Keeps.foldl ?_ _ _ ?_
      · intro x2 x3 h2
        refine Keeps.foldl ?_ _ _ ?_
        · intro x4 x5 h4
          refine State.postSem_keeps _ _ _ ?_
          refine State.modTile_keeps _ _ _ ?_
          exact h4
        · exact h2
      · exact hk
    clear_value x1
    refine State.modReq_keeps _ _ _ ?_
    exact h1

theorem State.resumeTask_keeps (s : State) (r : Req) (hk : Keeps ls zs s) : Keeps ls zs (State.resumeTask s r) := by
  unfold State.resumeTask
  extract_lets -merge +onlyGivenNames x1
  clear_value x1
  extract_lets -merge +onlyGivenNames x2
  have h2 : Keeps ls zs x2 := by
    unfold x2
    refine Keeps.foldl ?_ _ _ ?_
    · intro x3 x4 h3
      refine State.modTile_keeps _ _ _ ?_
      exact h3
    · exact hk
  clear_value x2
  extract_lets -merge +onlyGivenNames x5
  have h5 : Keeps ls zs x5 := by
    unfold x5
    refine State.modReq_keeps _ _ _ ?_
    exact h2
  clear_value x5
  split
  · refine State.postDue_keeps _ _ _ ?_
    exact h5
  · exact h5

theorem execTaskResume_keeps (req : Nat) (s : State) (hk : Keeps ls zs s) : KeepsR ls zs (execTaskResume req s) :=
    by
  unfold execTaskResume
  refine KeepsR.next ?_
  split
  · exact hk
  · refine Keeps.ite (fun _ => ?_) (fun _ => ?_)
    · refine State.resumeTask_keeps _ _ ?_
      exact hk
    · exact hk

/-! ### Mioter -/

theorem execMioTokenBoundary_keeps (quad : Nat) (s : State) (hk : Keeps ls zs s) : KeepsR ls zs
    (execMioTokenBoundary quad s) := by
  unfold execMioTokenBoundary
  refine KeepsR.next ?_
  refine Keeps.ite (fun _ => ?_) (fun _ => ?_)
  · refine State.modQuad_keeps _ _ _ ?_
    exact hk
  · exact hk

theorem execMioInputWord_keeps (quad : Nat) (s : State) (hk : Keeps ls zs s) : KeepsR ls zs (execMioInputWord quad
    s) := by
  unfold execMioInputWord
  refine KeepsR.next ?_
  refine Keeps.ite (fun _ => ?_) (fun _ => ?_)
  · refine State.modQuad_keeps _ _ _ ?_
    exact hk
  · exact hk

theorem State.peExec_keeps (s : State) (q : Nat) (p : Nat) (t : Nat × Nat) (kind : PeKind) (ins : Nat) (dirs : List
    Nat) (f : PeIn → Option (W32 × Bool)) (hk : Keeps ls zs s) : Keeps ls zs (State.peExec s q p t kind ins dirs f)
    := by
  unfold State.peExec
  extract_lets -merge +onlyGivenNames x1
  clear_value x1
  split
  · refine State.modQuad_keeps _ _ _ ?_
    exact hk
  · extract_lets -merge +onlyGivenNames x2
    have h2 : KeepsP ls zs x2 := by
      unfold x2
      refine State.free_keeps _ _ ?_
      exact hk
    clear_value x2
    refine State.modQuad_keeps _ _ _ ?_
    exact h2

theorem State.peRow_keeps (s : State) (q : Nat) (p : Nat) (op : Nat) (kind : PeKind) (useA : Bool) (useB : Bool) (f
    : PeIn → Option (W32 × Bool)) (hk : Keeps ls zs s) : Keeps ls zs (State.peRow s q p op kind useA useB f) := by
  unfold State.peRow
  extract_lets -merge +onlyGivenNames x1
  clear_value x1
  extract_lets -merge +onlyGivenNames x2
  clear_value x2
  split
  · exact hk
  · extract_lets -merge +onlyGivenNames x3
    clear_value x3
    refine Keeps.ite (fun _ => ?_) (fun _ => ?_)
    · exact hk
    · extract_lets -merge +onlyGivenNames x4
      have h4 : Keeps ls zs x4 := by
        unfold x4
        refine State.modQuad_keeps _ _ _ ?_
        exact hk
      clear_value x4
      extract_lets -merge +onlyGivenNames x5
      clear_value x5
      split
      · exact h4
      · extract_lets -merge +onlyGivenNames x6
        clear_value x6
        refine Keeps.ite (fun _ => ?_) (fun _ => ?_)
        · exact h4
        · refine Keeps.ite (fun _ => ?_) (fun _ => ?_)
          · refine Keeps.ite (fun _ => ?_) (fun _ => ?_)
            · refine State.modQuad_keeps _ _ _ ?_
              exact h4
            · exact h4
          · refine State.peExec_keeps _ _ _ _ _ _ _ _ ?_
            exact h4

theorem State.peAlu_keeps (s : State) (q : Nat) (p : Nat) (op : Nat) (f : W32 → W32 → W32) (hk : Keeps ls zs s) :
    Keeps ls zs (State.peAlu s q p op f) := by
  unfold State.peAlu
  refine State.peRow_keeps _ _ _ _ _ _ _ _ ?_
  exact hk

theorem execPeNop_keeps (quad : Nat) (pe : Nat) (s : State) (hk : Keeps ls zs s) : KeepsR ls zs (execPeNop quad pe
    s) := by
  unfold execPeNop
  refine KeepsR.next ?_
  refine State.peRow_keeps _ _ _ _ _ _ _ _ ?_
  exact hk

theorem execPeMov_keeps (quad : Nat) (pe : Nat) (s : State) (hk : Keeps ls zs s) : KeepsR ls zs (execPeMov quad pe
    s) := by
  unfold execPeMov
  refine KeepsR.next ?_
  refine State.peRow_keeps _ _ _ _ _ _ _ _ ?_
  exact hk

theorem execPeAdd_keeps (quad : Nat) (pe : Nat) (s : State) (hk : Keeps ls zs s) : KeepsR ls zs (execPeAdd quad pe
    s) := by
  unfold execPeAdd
  refine KeepsR.next ?_
  refine State.peAlu_keeps _ _ _ _ _ ?_
  exact hk

theorem execPeSub_keeps (quad : Nat) (pe : Nat) (s : State) (hk : Keeps ls zs s) : KeepsR ls zs (execPeSub quad pe
    s) := by
  unfold execPeSub
  refine KeepsR.next ?_
  refine State.peAlu_keeps _ _ _ _ _ ?_
  exact hk

theorem execPeAnd_keeps (quad : Nat) (pe : Nat) (s : State) (hk : Keeps ls zs s) : KeepsR ls zs (execPeAnd quad pe
    s) := by
  unfold execPeAnd
  refine KeepsR.next ?_
  refine State.peAlu_keeps _ _ _ _ _ ?_
  exact hk

theorem execPeOr_keeps (quad : Nat) (pe : Nat) (s : State) (hk : Keeps ls zs s) : KeepsR ls zs (execPeOr quad pe s)
    := by
  unfold execPeOr
  refine KeepsR.next ?_
  refine State.peAlu_keeps _ _ _ _ _ ?_
  exact hk

theorem execPeXor_keeps (quad : Nat) (pe : Nat) (s : State) (hk : Keeps ls zs s) : KeepsR ls zs (execPeXor quad pe
    s) := by
  unfold execPeXor
  refine KeepsR.next ?_
  refine State.peAlu_keeps _ _ _ _ _ ?_
  exact hk

theorem execPeShl_keeps (quad : Nat) (pe : Nat) (s : State) (hk : Keeps ls zs s) : KeepsR ls zs (execPeShl quad pe
    s) := by
  unfold execPeShl
  refine KeepsR.next ?_
  refine State.peAlu_keeps _ _ _ _ _ ?_
  exact hk

theorem execPeShr_keeps (quad : Nat) (pe : Nat) (s : State) (hk : Keeps ls zs s) : KeepsR ls zs (execPeShr quad pe
    s) := by
  unfold execPeShr
  refine KeepsR.next ?_
  refine State.peAlu_keeps _ _ _ _ _ ?_
  exact hk

theorem execPeSra_keeps (quad : Nat) (pe : Nat) (s : State) (hk : Keeps ls zs s) : KeepsR ls zs (execPeSra quad pe
    s) := by
  unfold execPeSra
  refine KeepsR.next ?_
  refine State.peAlu_keeps _ _ _ _ _ ?_
  exact hk

theorem execPeMul_keeps (quad : Nat) (pe : Nat) (s : State) (hk : Keeps ls zs s) : KeepsR ls zs (execPeMul quad pe
    s) := by
  unfold execPeMul
  refine KeepsR.next ?_
  refine State.peAlu_keeps _ _ _ _ _ ?_
  exact hk

theorem execPeMulh_keeps (quad : Nat) (pe : Nat) (s : State) (hk : Keeps ls zs s) : KeepsR ls zs (execPeMulh quad pe
    s) := by
  unfold execPeMulh
  refine KeepsR.next ?_
  refine State.peAlu_keeps _ _ _ _ _ ?_
  exact hk

theorem execPeMinu_keeps (quad : Nat) (pe : Nat) (s : State) (hk : Keeps ls zs s) : KeepsR ls zs (execPeMinu quad pe
    s) := by
  unfold execPeMinu
  refine KeepsR.next ?_
  refine State.peAlu_keeps _ _ _ _ _ ?_
  exact hk

theorem execPeMaxu_keeps (quad : Nat) (pe : Nat) (s : State) (hk : Keeps ls zs s) : KeepsR ls zs (execPeMaxu quad pe
    s) := by
  unfold execPeMaxu
  refine KeepsR.next ?_
  refine State.peAlu_keeps _ _ _ _ _ ?_
  exact hk

theorem execPeCmplt_keeps (quad : Nat) (pe : Nat) (s : State) (hk : Keeps ls zs s) : KeepsR ls zs (execPeCmplt quad
    pe s) := by
  unfold execPeCmplt
  refine KeepsR.next ?_
  refine State.peRow_keeps _ _ _ _ _ _ _ _ ?_
  exact hk

theorem execPeCmpeq_keeps (quad : Nat) (pe : Nat) (s : State) (hk : Keeps ls zs s) : KeepsR ls zs (execPeCmpeq quad
    pe s) := by
  unfold execPeCmpeq
  refine KeepsR.next ?_
  refine State.peRow_keeps _ _ _ _ _ _ _ _ ?_
  exact hk

theorem execPeSel_keeps (quad : Nat) (pe : Nat) (s : State) (hk : Keeps ls zs s) : KeepsR ls zs (execPeSel quad pe
    s) := by
  unfold execPeSel
  refine KeepsR.next ?_
  refine State.peRow_keeps _ _ _ _ _ _ _ _ ?_
  exact hk

theorem execPeHash_keeps (quad : Nat) (pe : Nat) (s : State) (hk : Keeps ls zs s) : KeepsR ls zs (execPeHash quad pe
    s) := by
  unfold execPeHash
  refine KeepsR.next ?_
  refine State.peAlu_keeps _ _ _ _ _ ?_
  exact hk

theorem execPeCrc_keeps (quad : Nat) (pe : Nat) (s : State) (hk : Keeps ls zs s) : KeepsR ls zs (execPeCrc quad pe
    s) := by
  unfold execPeCrc
  refine KeepsR.next ?_
  refine State.peAlu_keeps _ _ _ _ _ ?_
  exact hk

theorem execPeRange_keeps (quad : Nat) (pe : Nat) (s : State) (hk : Keeps ls zs s) : KeepsR ls zs (execPeRange quad
    pe s) := by
  unfold execPeRange
  refine KeepsR.next ?_
  refine State.peAlu_keeps _ _ _ _ _ ?_
  exact hk

theorem execPeLut_keeps (quad : Nat) (pe : Nat) (s : State) (hk : Keeps ls zs s) : KeepsR ls zs (execPeLut quad pe
    s) := by
  unfold execPeLut
  refine KeepsR.next ?_
  refine State.peRow_keeps _ _ _ _ _ _ _ _ ?_
  exact hk

theorem execPeBkt_keeps (quad : Nat) (pe : Nat) (s : State) (hk : Keeps ls zs s) : KeepsR ls zs (execPeBkt quad pe
    s) := by
  unfold execPeBkt
  refine KeepsR.next ?_
  refine State.peRow_keeps _ _ _ _ _ _ _ _ ?_
  exact hk

theorem execPeEmit_keeps (quad : Nat) (pe : Nat) (s : State) (hk : Keeps ls zs s) : KeepsR ls zs (execPeEmit quad pe
    s) := by
  unfold execPeEmit
  refine KeepsR.next ?_
  refine State.peRow_keeps _ _ _ _ _ _ _ _ ?_
  exact hk

theorem execPeBrf_keeps (quad : Nat) (pe : Nat) (s : State) (hk : Keeps ls zs s) : KeepsR ls zs (execPeBrf quad pe
    s) := by
  unfold execPeBrf
  refine KeepsR.next ?_
  refine State.peRow_keeps _ _ _ _ _ _ _ _ ?_
  exact hk

theorem State.passRecord_keeps (s : State) (id : Nat) (rcd : Bytes) (hk : Keeps ls zs s) : Keeps ls zs
    (State.passRecord s id rcd) := by
  unfold State.passRecord
  exact hk.lit rfl rfl rfl rfl rfl

theorem State.passLane_keeps (s : State) (q : Nat) (lane : Nat) (id : Nat) (hk : Keeps ls zs s) : Keeps ls zs
    (State.passLane s q lane id) := by
  unfold State.passLane
  split
  · exact hk
  · extract_lets -merge +onlyGivenNames x1
    clear_value x1
    split
    · exact hk
    · refine Keeps.ite (fun _ => ?_) (fun _ => ?_)
      · exact hk
      · extract_lets -merge +onlyGivenNames x2
        have h2 : Keeps ls zs x2 := by
          unfold x2
          split
          · refine State.passRecord_keeps _ _ _ ?_
            exact hk
          · exact hk
        clear_value x2
        refine State.modQuad_keeps _ _ _ ?_
        exact h2

theorem execMioOutputPass_keeps (quad : Nat) (s : State) (hk : Keeps ls zs s) : KeepsR ls zs (execMioOutputPass quad
    s) := by
  unfold execMioOutputPass
  refine KeepsR.next ?_
  split
  · refine Keeps.ite (fun _ => ?_) (fun _ => ?_)
    · refine State.each_keeps _ _ _ ?_ ?_
      · exact hk
      · intro x1 x2 h1
        refine State.passLane_keeps _ _ _ _ ?_
        exact h1
    · exact hk
  · exact hk

theorem State.mioTime_keeps (s : State) (id : Nat) (hk : Keeps ls zs s) : Keeps ls zs (State.mioTime s id) := by
  unfold State.mioTime
  split
  · extract_lets -merge +onlyGivenNames x1
    have h1 : KeepsP ls zs x1 := by
      unfold x1
      refine State.free_keeps _ _ ?_
      exact hk
    clear_value x1
    refine State.count_keeps _ _ _ _ ?_
    exact h1
  · exact hk

theorem State.loadBegin_keeps (s : State) (q : Nat) (hk : Keeps ls zs s) : Keeps ls zs (State.loadBegin s q) := by
  unfold State.loadBegin
  split
  · refine Keeps.ite (fun _ => ?_) (fun _ => ?_)
    · refine State.clearSlot_keeps _ _ _ _ ?_
      exact hk
    · exact hk
  · exact hk

theorem State.closeToken_keeps (s : State) (q : Nat) (t : MioTok) (hk : Keeps ls zs s) : Keeps ls zs
    (State.closeToken s q t) := by
  unfold State.closeToken
  extract_lets -merge +onlyGivenNames x1
  have h1 : Keeps ls zs x1 := by
    unfold x1
    refine State.passRecord_keeps _ _ _ ?_
    refine State.mioTime_keeps _ _ ?_
    exact hk
  clear_value x1
  extract_lets -merge +onlyGivenNames x2
  have h2 : Keeps ls zs x2 := by
    unfold x2
    refine State.modQuad_keeps _ _ _ ?_
    exact h1
  clear_value x2
  refine State.loadBegin_keeps _ _ ?_
  refine State.modReq_keeps _ _ _ ?_
  exact h2

theorem execMioTokenClose_keeps (quad : Nat) (s : State) (hk : Keeps ls zs s) : KeepsR ls zs (execMioTokenClose quad
    s) := by
  unfold execMioTokenClose
  refine KeepsR.next ?_
  split
  · refine Keeps.ite (fun _ => ?_) (fun _ => ?_)
    · refine State.closeToken_keeps _ _ _ ?_
      exact hk
    · exact hk
  · exact hk

theorem State.dropSlot_keeps (s : State) (q : Nat) (c : Nat) (cause : Nat) (status : Nat) (hk : Keeps ls zs s) :
    Keeps ls zs (State.dropSlot s q c cause status) := by
  unfold State.dropSlot
  extract_lets -merge +onlyGivenNames x1
  clear_value x1
  extract_lets -merge +onlyGivenNames x2
  have h2 : Keeps ls zs x2 := by
    unfold x2
    refine State.loadBegin_keeps _ _ ?_
    refine State.clearSlot_keeps _ _ _ _ ?_
    exact hk
  clear_value x2
  refine State.each_keeps _ _ _ ?_ ?_
  · exact h2
  · intro x3 x4 h3
    extract_lets -merge +onlyGivenNames x5
    have h5 : Keeps ls zs x5 := by
      unfold x5
      refine State.mioTime_keeps _ _ ?_
      exact h3
    clear_value x5
    split
    · refine State.endReq_keeps _ _ _ _ ?_
      refine State.fault_keeps _ _ _ _ ?_
      exact h5
    · exact h5

theorem execMioTokenTimeout_keeps (quad : Nat) (s : State) (hk : Keeps ls zs s) : KeepsR ls zs (execMioTokenTimeout
    quad s) := by
  unfold execMioTokenTimeout
  refine KeepsR.next ?_
  split
  · refine Keeps.ite (fun _ => ?_) (fun _ => ?_)
    · refine State.dropSlot_keeps _ _ _ _ _ ?_
      exact hk
    · exact hk
  · exact hk

theorem execMioParityError_keeps (quad : Nat) (slot : Nat) (s : State) (hk : Keeps ls zs s) : KeepsR ls zs
    (execMioParityError quad slot s) := by
  unfold execMioParityError
  refine KeepsR.next ?_
  refine Keeps.ite (fun _ => ?_) (fun _ => ?_)
  · refine State.dropSlot_keeps _ _ _ _ _ ?_
    exact hk
  · exact hk

theorem execSampleRecord_keeps (s : State) (hk : Keeps ls zs s) : KeepsR ls zs (execSampleRecord s) := by
  unfold execSampleRecord
  refine KeepsR.next ?_
  refine Keeps.ite (fun _ => ?_) (fun _ => ?_)
  · exact hk.lit rfl rfl rfl rfl rfl
  · exact hk

theorem execSampleRestart_keeps (s : State) (hk : Keeps ls zs s) : KeepsR ls zs (execSampleRestart s) := by
  unfold execSampleRestart
  refine KeepsR.next ?_
  refine Keeps.ite (fun _ => ?_) (fun _ => ?_)
  · exact hk.lit rfl rfl rfl rfl rfl
  · exact hk

/-! ### Hoard -/

theorem State.queueHbm_keeps (s : State) (a : Nat) (write : Bool) (hk : Keeps ls zs s) : Keeps ls zs (State.queueHbm
    s a write) := by
  unfold State.queueHbm
  extract_lets -merge +onlyGivenNames x1
  clear_value x1
  exact hk.lit rfl rfl rfl rfl rfl

theorem State.writeLineBack_keeps (s : State) (xa1 : HLine) (hk : Keeps ls zs s) : Keeps ls zs (State.writeLineBack
    s xa1) := by
  unfold State.writeLineBack
  extract_lets -merge +onlyGivenNames x1
  have h1 : Keeps ls zs x1 := by
    unfold x1
    exact hk.hbm rfl (Hbm.putLine_wf hk.2.1 _) rfl rfl rfl
  try clear_value x1
  refine State.count_keeps _ _ _ _ ?_
  refine State.chargeHbm_keeps _ _ _ _ ?_
  refine State.queueHbm_keeps _ _ _ ?_
  exact h1

theorem State.evict_keeps (s : State) (k : Nat) (hk : Keeps ls zs s) : Keeps ls zs (State.evict s k) := by
  unfold State.evict
  split
  · extract_lets -merge +onlyGivenNames x1
    have h1 : Keeps ls zs x1 := by
      unfold x1
      refine Keeps.ite (fun _ => ?_) (fun _ => ?_)
      · refine State.writeLineBack_keeps _ _ ?_
        exact hk
      · exact hk
    clear_value x1
    exact h1.lit rfl rfl rfl rfl rfl
  · exact hk

theorem State.placeLine_keeps (s : State) (xa1 : HLine) (hk : Keeps ls zs s) : KeepsO ls zs (State.placeLine s xa1)
    := by
  unfold State.placeLine
  extract_lets -merge +onlyGivenNames x1
  clear_value x1
  split
  · extract_lets -merge +onlyGivenNames x2
    have h2 : Keeps ls zs x2 := by
      unfold x2
      refine State.evict_keeps _ _ ?_
      exact hk
    clear_value x2
    refine KeepsO.some ?_
    exact h2.lit rfl rfl rfl rfl rfl
  · exact KeepsO.none

theorem State.countFor_keeps (s : State) (d : Option Nat) (c : Nat) (hk : Keeps ls zs s) : Keeps ls zs
    (State.countFor s d c) := by
  unfold State.countFor
  split
  · refine State.count_keeps _ _ _ _ ?_
    exact hk
  · exact hk

theorem State.touchLine_keeps (s : State) (d : Option Nat) (a : Nat) (fill : Bool) (write : Bool) (bill : Bool) (hk
    : Keeps ls zs s) : KeepsO ls zs (State.touchLine s d a fill write bill) := by
  unfold State.touchLine
  refine KeepsO.ite (fun _ => ?_) (fun _ => ?_)
  · refine KeepsO.some ?_
    exact hk
  · split
    · refine KeepsO.some ?_
      refine State.countFor_keeps _ _ _ ?_
      exact hk.lit rfl rfl rfl rfl rfl
    · extract_lets -merge +onlyGivenNames x1
      have h1 : Keeps ls zs x1 := by
        unfold x1
        refine State.countFor_keeps _ _ _ ?_
        exact hk
      clear_value x1
      split
      · extract_lets -merge +onlyGivenNames x2
        have h2 : Keeps ls zs x2 := by
          unfold x2
          refine Keeps.ite (fun _ => ?_) (fun _ => ?_)
          · refine State.chargeHbm_keeps _ _ _ _ ?_
            exact h1
          · exact h1
        clear_value x2
        refine KeepsO.ite (fun _ => ?_) (fun _ => ?_)
        · refine State.placeLine_keeps _ _ ?_
          refine State.queueHbm_keeps _ _ _ ?_
          exact h2
        · refine KeepsO.some ?_
          refine State.queueHbm_keeps _ _ _ ?_
          exact h2
      · refine KeepsO.some ?_
        refine State.queueHbm_keeps _ _ _ ?_
        exact h1

theorem State.touchLines_keeps (s : State) (d : Option Nat) (fill : Bool) (write : Bool) (bill : Bool) (xa5 : List
    Nat) (hk : Keeps ls zs s) : KeepsO ls zs (State.touchLines s d fill write bill xa5) := by
  induction xa5 generalizing s with
  | nil => exact KeepsO.some hk
  | cons a l ih =>
    rw [State.touchLines]
    split
    next e => exact ih _ (State.touchLine_keeps _ _ _ _ _ _ hk _ e)
    next => exact KeepsO.none

theorem State.postUpd_keeps (s : State) (d : Nat) (r : Nat) (irq : Bool) (e : Bytes) (hk : Keeps ls zs s) : Keeps ls
    zs (State.postUpd s d r irq e) := by
  unfold State.postUpd
  refine State.pushEntry_keeps _ _ _ _ ?_
  refine State.count_keeps _ _ _ _ ?_
  exact hk

theorem State.updCheck_keeps (s : State) (d : Nat) (r : Nat) (hk : Keeps ls zs s) : Keeps ls zs (State.updCheck s d
    r) := by
  unfold State.updCheck
  split
  · exact hk
  · refine Keeps.ite (fun _ => ?_) (fun _ => ?_)
    · extract_lets -merge +onlyGivenNames x1
      have h1 : Keeps ls zs x1 := by
        unfold x1
        refine State.dropRef_keeps _ _ _ _ ?_
        refine State.setUpd_keeps _ _ _ _ ?_
        exact hk
      clear_value x1
      refine State.postUpd_keeps _ _ _ _ _ ?_
      exact h1
    · exact hk

theorem State.commitOne_keeps (s : State) (x : RowDir) (p : Nat × HLine) (hk : Keeps ls zs s) : Keeps ls zs
    (State.commitOne s x p) := by
  unfold State.commitOne
  extract_lets -merge +onlyGivenNames x1
  clear_value x1
  extract_lets -merge +onlyGivenNames x2
  clear_value x2
  refine State.queueHbm_keeps _ _ _ ?_
  exact hk.lit rfl rfl rfl rfl rfl

theorem State.commitRow_keeps (s : State) (x : RowDir) (hk : Keeps ls zs s) : Keeps ls zs (State.commitRow s x) :=
    by
  unfold State.commitRow
  extract_lets -merge +onlyGivenNames x1
  clear_value x1
  extract_lets -merge +onlyGivenNames x2
  have h2 : Keeps ls zs x2 := by
    unfold x2
    refine Keeps.foldl ?_ _ _ ?_
    · intro x3 x4 h3
      refine State.commitOne_keeps _ _ _ ?_
      exact h3
    · exact hk
  clear_value x2
  extract_lets -merge +onlyGivenNames x5
  clear_value x5
  extract_lets -merge +onlyGivenNames x6
  clear_value x6
  extract_lets -merge +onlyGivenNames x7
  have h7 : Keeps ls zs x7 := by
    unfold x7
    exact h2.lit rfl rfl rfl rfl rfl
  try clear_value x7
  refine State.updCheck_keeps _ _ _ ?_
  refine State.count_keeps _ _ _ _ ?_
  refine State.count_keeps _ _ _ _ ?_
  exact h7

theorem State.answer_keeps (s : State) (dst : HDst) (data : Bytes) (poison : Bool) (hk : Keeps ls zs s) : Keeps ls
    zs (State.answer s dst data poison) := by
  unfold State.answer
  split
  · exact hk
  · refine State.modTile_keeps _ _ _ ?_
    exact hk
  · refine State.modTile_keeps _ _ _ ?_
    exact hk
  · exact hk.lit rfl rfl rfl rfl rfl

theorem State.reach_keeps (s : State) (r : HReq) (fill : Bool) (write : Bool) (hk : Keeps ls zs s) : KeepsO ls zs
    (State.reach s r fill write) := by
  unfold State.reach
  refine KeepsO.ite (fun _ => ?_) (fun _ => ?_)
  · refine KeepsO.some ?_
    refine State.countFor_keeps _ _ _ ?_
    exact hk
  · refine State.touchLines_keeps _ _ _ _ _ _ ?_
    exact hk

theorem State.applyAtomic_keeps (s : State) (r : HReq) (f : Bytes → Bytes) (ret : Bool) (hk : Keeps ls zs s) : Keeps
    ls zs (State.applyAtomic s r f ret) := by
  unfold State.applyAtomic
  extract_lets -merge +onlyGivenNames x1
  clear_value x1
  refine Keeps.ite (fun _ => ?_) (fun _ => ?_)
  · refine State.answer_keeps _ _ _ _ ?_
    exact hk
  · refine State.answer_keeps _ _ _ _ ?_
    refine State.countFor_keeps _ _ _ ?_
    refine State.devWrite_keeps _ _ _ ?_
    exact hk

theorem State.serveReq_keeps (s : State) (r : HReq) (hk : Keeps ls zs s) : KeepsO ls zs (State.serveReq s r) := by
  unfold State.serveReq
  split
  · refine KeepsO.map ?_ ?_
    · refine State.reach_keeps _ _ _ _ ?_
      exact hk
    · intro x1 h1
      refine State.answer_keeps _ _ _ _ ?_
      exact h1
  · refine KeepsO.map ?_ ?_
    · refine State.reach_keeps _ _ _ _ ?_
      exact hk
    · intro x2 h2
      refine State.answer_keeps _ _ _ _ ?_
      refine State.devWrite_keeps _ _ _ ?_
      exact h2
  · refine KeepsO.map ?_ ?_
    · refine State.reach_keeps _ _ _ _ ?_
      exact hk
    · intro x3 h3
      refine State.applyAtomic_keeps _ _ _ _ ?_
      exact h3
  · refine KeepsO.map ?_ ?_
    · refine State.reach_keeps _ _ _ _ ?_
      exact hk
    · intro x4 h4
      refine State.applyAtomic_keeps _ _ _ _ ?_
      exact h4
  · refine KeepsO.map ?_ ?_
    · refine State.reach_keeps _ _ _ _ ?_
      exact hk
    · intro x5 h5
      refine State.applyAtomic_keeps _ _ _ _ ?_
      exact h5
  · refine KeepsO.some ?_
    split
    · refine State.commitRow_keeps _ _ ?_
      exact hk
    · exact hk

theorem State.askHoard_keeps (s : State) (port : Nat) (r : HReq) (hk : Keeps ls zs s) : Keeps ls zs (State.askHoard
    s port r) := by
  unfold State.askHoard
  extract_lets -merge +onlyGivenNames x1
  clear_value x1
  exact hk.lit rfl rfl rfl rfl rfl

theorem State.popPort_keeps (s : State) (slice : Nat) (p : Nat) (hk : Keeps ls zs s) : Keeps ls zs (State.popPort s
    slice p) := by
  unfold State.popPort
  extract_lets -merge +onlyGivenNames x1
  clear_value x1
  exact hk.lit rfl rfl rfl rfl rfl

theorem State.nextServed_keeps (s : State) (slice : Nat) (hk : Keeps ls zs s) : KeepsOP ls zs (State.nextServed s
    slice) := by
  unfold State.nextServed
  extract_lets -merge +onlyGivenNames x1
  clear_value x1
  refine KeepsOP.findSome ?_ _
  intro x2
  split
  · refine KeepsOP.map ?_ ?_
    · refine State.serveReq_keeps _ _ ?_
      refine State.popPort_keeps _ _ _ ?_
      exact hk
    · intro x3 h3
      refine KeepsP.mk ?_
      exact h3
  · exact KeepsOP.none

theorem State.sliceRow_keeps (s : State) (slice : Nat) (kind : HKind → Bool) (hk : Keeps ls zs s) : Keeps ls zs
    (State.sliceRow s slice kind) := by
  unfold State.sliceRow
  refine Keeps.ite (fun _ => ?_) (fun _ => ?_)
  · split
    · rename_i e1
      have h1 := KeepsOP.of (ls := ls) (zs := zs) e1 (by
        refine State.nextServed_keeps _ _ ?_
        exact hk)
      refine Keeps.ite (fun _ => ?_) (fun _ => ?_)
      · exact h1
      · exact hk
    · exact hk
  · exact hk

theorem State.hoardEcc_keeps (s : State) (slice : Nat) (ecc : Nat) (hk : Keeps ls zs s) : Keeps ls zs
    (State.hoardEcc s slice ecc) := by
  unfold State.hoardEcc
  split
  · exact hk
  · rename_i e1
    have h1 := KeepsOP.of (ls := ls) (zs := zs) e1 (by
      refine State.nextServed_keeps _ _ ?_
      exact hk)
    split
    · exact hk
    · extract_lets -merge +onlyGivenNames x2
      clear_value x2
      extract_lets -merge +onlyGivenNames x3
      clear_value x3
      refine Keeps.ite (fun _ => ?_) (fun _ => ?_)
      · refine State.fault_keeps _ _ _ _ ?_
        exact hk.lit rfl rfl rfl rfl rfl
      · extract_lets -merge +onlyGivenNames x4
        clear_value x4
        extract_lets -merge +onlyGivenNames x5
        clear_value x5
        extract_lets -merge +onlyGivenNames x7 x6
        clear_value x6
        refine State.fault_keeps _ _ _ _ ?_
        exact hk.lit rfl rfl rfl rfl rfl

theorem execHoardRequest_keeps (slice : Nat) (ecc : Nat) (s : State) (hk : Keeps ls zs s) : KeepsR ls zs
    (execHoardRequest slice ecc s) := by
  unfold execHoardRequest
  extract_lets -merge +onlyGivenNames x1
  have h1 : Keeps ls zs x1 := by
    unfold x1
    refine Keeps.ite (fun _ => ?_) (fun _ => ?_)
    · refine State.hoardEcc_keeps _ _ _ ?_
      exact hk
    · exact hk
  clear_value x1
  refine KeepsR.next ?_
  refine State.sliceRow_keeps _ _ _ ?_
  exact h1

theorem execHoardAdd_keeps (slice : Nat) (s : State) (hk : Keeps ls zs s) : KeepsR ls zs (execHoardAdd slice s) :=
    by
  unfold execHoardAdd
  refine KeepsR.next ?_
  refine State.sliceRow_keeps _ _ _ ?_
  exact hk

theorem execHoardMax_keeps (slice : Nat) (s : State) (hk : Keeps ls zs s) : KeepsR ls zs (execHoardMax slice s) :=
    by
  unfold execHoardMax
  refine KeepsR.next ?_
  refine State.sliceRow_keeps _ _ _ ?_
  exact hk

theorem execHoardMin_keeps (slice : Nat) (s : State) (hk : Keeps ls zs s) : KeepsR ls zs (execHoardMin slice s) :=
    by
  unfold execHoardMin
  refine KeepsR.next ?_
  refine State.sliceRow_keeps _ _ _ ?_
  exact hk

theorem execCas64_keeps (slice : Nat) (s : State) (hk : Keeps ls zs s) : KeepsR ls zs (execCas64 slice s) := by
  unfold execCas64
  refine KeepsR.next ?_
  refine State.sliceRow_keeps _ _ _ ?_
  exact hk

theorem execSwap64_keeps (slice : Nat) (s : State) (hk : Keeps ls zs s) : KeepsR ls zs (execSwap64 slice s) := by
  unfold execSwap64
  refine KeepsR.next ?_
  refine State.sliceRow_keeps _ _ _ ?_
  exact hk

theorem execRowCommit_keeps (slice : Nat) (s : State) (hk : Keeps ls zs s) : KeepsR ls zs (execRowCommit slice s) :=
    by
  unfold execRowCommit
  refine KeepsR.next ?_
  refine State.sliceRow_keeps _ _ _ ?_
  exact hk

theorem State.applyWay_keeps (s : State) (w : Nat) (m : WayMode × Nat) (hk : Keeps ls zs s) : Keeps ls zs
    (State.applyWay s w m) := by
  unfold State.applyWay
  extract_lets -merge +onlyGivenNames x1
  clear_value x1
  extract_lets -merge +onlyGivenNames x2
  have h2 : Keeps ls zs x2 := by
    unfold x2
    refine Keeps.ite (fun _ => ?_) (fun _ => ?_)
    · refine State.each_keeps _ _ _ ?_ ?_
      · exact hk
      · intro x3 x4 h3
        refine State.evict_keeps _ _ ?_
        exact h3
    · exact hk
  clear_value x2
  refine State.modWay_keeps _ _ _ ?_
  exact h2.lit rfl rfl rfl rfl rfl

theorem execWayChangeDone_keeps (way : Nat) (s : State) (hk : Keeps ls zs s) : KeepsR ls zs (execWayChangeDone way
    s) := by
  unfold execWayChangeDone
  refine KeepsR.next ?_
  split
  · refine Keeps.ite (fun _ => ?_) (fun _ => ?_)
    · refine State.applyWay_keeps _ _ _ ?_
      exact hk
    · exact hk
  · exact hk

theorem execPinRefillDone_keeps (table : Nat) (s : State) (hk : Keeps ls zs s) : KeepsR ls zs (execPinRefillDone
    table s) := by
  unfold execPinRefillDone
  refine KeepsR.next ?_
  extract_lets -merge +onlyGivenNames x1
  clear_value x1
  refine Keeps.ite (fun _ => ?_) (fun _ => ?_)
  · refine State.modTable_keeps _ _ _ ?_
    exact hk
  · exact hk

/-! ### HbmOps -/

theorem State.eccRead_keeps (s : State) (a : Nat) (ws : List Nat) (corr : List Nat) (unc : List Nat) (hk : Keeps ls
    zs s) : Keeps ls zs (State.eccRead s a ws corr unc) := by
  unfold State.eccRead
  extract_lets -merge +onlyGivenNames x1
  clear_value x1
  extract_lets -merge +onlyGivenNames x2
  clear_value x2
  extract_lets -merge +onlyGivenNames x3
  have h3 : Keeps ls zs x3 := by
    unfold x3
    refine State.hbmCorr_keeps _ _ _ ?_
    refine State.hbmUncorr_keeps _ _ _ ?_
    exact hk
  clear_value x3
  extract_lets -merge +onlyGivenNames x5 x4
  have h4 : Keeps ls zs x4 := by
    unfold x4
    exact h3.lit rfl rfl rfl rfl rfl
  try clear_value x4
  extract_lets -merge +onlyGivenNames x6
  clear_value x6
  extract_lets -merge +onlyGivenNames x7
  have h7 : Keeps ls zs x7 := by
    unfold x7
    refine Keeps.ite (fun _ => ?_) (fun _ => ?_)
    · exact h4
    · refine State.fault_keeps _ _ _ _ ?_
      refine State.modStack_keeps _ _ _ ?_
      exact h4
  clear_value x7
  refine Keeps.ite (fun _ => ?_) (fun _ => ?_)
  · exact h7
  · refine State.fault_keeps _ _ _ _ ?_
    refine State.modStack_keeps _ _ _ ?_
    exact h7

theorem State.serveHbmRead_keeps (s : State) (a : Nat) (ecc : Nat) (hk : Keeps ls zs s) : Keeps ls zs
    (State.serveHbmRead s a ecc) := by
  unfold State.serveHbmRead
  extract_lets -merge +onlyGivenNames x1
  clear_value x1
  extract_lets -merge +onlyGivenNames x2
  have h2 : Keeps ls zs x2 := by
    unfold x2
    refine State.eccRead_keeps _ _ _ _ _ ?_
    exact hk
  clear_value x2
  refine Keeps.ite (fun _ => ?_) (fun _ => ?_)
  · exact h2
  · exact h2.lit rfl rfl rfl rfl rfl

theorem State.serveHbmWrite_keeps (s : State) (a : Nat) (hk : Keeps ls zs s) : Keeps ls zs (State.serveHbmWrite s a)
    := by
  unfold State.serveHbmWrite
  refine Keeps.ite (fun _ => ?_) (fun _ => ?_)
  · split
    · extract_lets -merge +onlyGivenNames x2 x3 x1
      have h1 : Keeps ls zs x1 := by
        unfold x1
        exact hk.hbm rfl (Hbm.putLine_wf hk.2.1 _) rfl rfl rfl
      try clear_value x1
      refine State.count_keeps _ _ _ _ ?_
      refine State.chargeHbm_keeps _ _ _ _ ?_
      exact h1
    · exact hk.lit rfl rfl rfl rfl rfl
  · exact hk

theorem State.keepRow_keeps (s : State) (a : Nat) (rest : List HbmAcc) (hk : Keeps ls zs s) : Keeps ls zs
    (State.keepRow s a rest) := by
  unfold State.keepRow
  extract_lets -merge +onlyGivenNames x1
  clear_value x1
  extract_lets -merge +onlyGivenNames x2
  clear_value x2
  refine State.modStack_keeps _ _ _ ?_
  exact hk

theorem execHbmAccess_keeps (pc : Nat) (ecc : Nat) (s : State) (hk : Keeps ls zs s) : KeepsR ls zs (execHbmAccess pc
    ecc s) := by
  unfold execHbmAccess
  refine KeepsR.next ?_
  extract_lets -merge +onlyGivenNames x1
  clear_value x1
  split
  · refine Keeps.ite (fun _ => ?_) (fun _ => ?_)
    · extract_lets -merge +onlyGivenNames x2
      clear_value x2
      extract_lets -merge +onlyGivenNames x4 x3
      have h3 : Keeps ls zs x3 := by
        unfold x3
        refine State.keepRow_keeps _ _ _ ?_
        exact hk.lit rfl rfl rfl rfl rfl
      try clear_value x3
      refine Keeps.ite (fun _ => ?_) (fun _ => ?_)
      · refine State.serveHbmWrite_keeps _ _ ?_
        exact h3
      · refine State.serveHbmRead_keeps _ _ _ ?_
        exact h3
    · exact hk
  · exact hk

theorem execHbmScrubRead_keeps (stack : Nat) (ecc : Nat) (s : State) (hk : Keeps ls zs s) : KeepsR ls zs
    (execHbmScrubRead stack ecc s) := by
  unfold execHbmScrubRead
  refine KeepsR.next ?_
  extract_lets -merge +onlyGivenNames x1
  clear_value x1
  refine Keeps.ite (fun _ => ?_) (fun _ => ?_)
  · extract_lets -merge +onlyGivenNames x2
    clear_value x2
    extract_lets -merge +onlyGivenNames x3
    clear_value x3
    extract_lets -merge +onlyGivenNames x4
    clear_value x4
    extract_lets -merge +onlyGivenNames x5
    clear_value x5
    extract_lets -merge +onlyGivenNames x6
    clear_value x6
    extract_lets -merge +onlyGivenNames x7
    have h7 : Keeps ls zs x7 := by
      unfold x7
      refine State.modStack_keeps _ _ _ ?_
      exact hk
    clear_value x7
    refine State.eccRead_keeps _ _ _ _ _ ?_
    exact h7
  · exact hk

theorem execHbmRowRepair_keeps (stack : Nat) (s : State) (hk : Keeps ls zs s) : KeepsR ls zs (execHbmRowRepair stack
    s) := by
  unfold execHbmRowRepair
  refine KeepsR.next ?_
  extract_lets -merge +onlyGivenNames x1
  clear_value x1
  split
  · refine Keeps.ite (fun _ => ?_) (fun _ => ?_)
    · refine Keeps.ite (fun _ => ?_) (fun _ => ?_)
      · refine State.modStack_keeps _ _ _ ?_
        exact hk
      · refine State.record_keeps _ _ _ _ ?_
        refine State.modStack_keeps _ _ _ ?_
        exact hk
    · exact hk
  · exact hk

theorem State.rowRead_keeps (s : State) (key : Nat) (hk : Keeps ls zs s) : Keeps ls zs (State.rowRead s key) := by
  unfold State.rowRead
  exact hk.lit rfl rfl rfl rfl rfl

theorem execHbmRepairDone_keeps (stack : Nat) (s : State) (hk : Keeps ls zs s) : KeepsR ls zs (execHbmRepairDone
    stack s) := by
  unfold execHbmRepairDone
  refine KeepsR.next ?_
  split
  · refine Keeps.ite (fun _ => ?_) (fun _ => ?_)
    · refine State.record_keeps _ _ _ _ ?_
      refine State.modStack_keeps _ _ _ ?_
      refine State.rowRead_keeps _ _ ?_
      exact hk
    · exact hk
  · exact hk

/-! ### ForagerOps -/

theorem State.storeRecord_keeps (s : State) (q : Req) (e : Nat) (b : Bytes) (hk : Keeps ls zs s) : Keeps ls zs
    (State.storeRecord s q e b) := by
  unfold State.storeRecord
  extract_lets -merge +onlyGivenNames x1
  clear_value x1
  extract_lets -merge +onlyGivenNames x2
  clear_value x2
  extract_lets -merge +onlyGivenNames x3
  clear_value x3
  extract_lets -merge +onlyGivenNames x4
  clear_value x4
  refine State.modReq_keeps _ _ _ ?_
  exact hk.lit rfl rfl rfl rfl rfl

theorem State.arrive_keeps (s : State) (q : Req) (b : Bytes) (hk : Keeps ls zs s) : Keeps ls zs (State.arrive s q b)
    := by
  unfold State.arrive
  refine Keeps.ite (fun _ => ?_) (fun _ => ?_)
  · refine State.finishBags_keeps _ _ ?_
    exact hk
  · split
    · refine State.storeRecord_keeps _ _ _ _ ?_
      exact hk
    · refine State.finishBags_keeps _ _ ?_
      refine State.count_keeps _ _ _ _ ?_
      exact hk

theorem execForagerRecordArrive_keeps (s : State) (hk : Keeps ls zs s) : KeepsR ls zs (execForagerRecordArrive s) :=
    by
  unfold execForagerRecordArrive
  refine KeepsR.next ?_
  split
  · refine Keeps.ite (fun _ => ?_) (fun _ => ?_)
    · extract_lets -merge +onlyGivenNames x2 x1
      have h1 : Keeps ls zs x1 := by
        unfold x1
        exact hk.lit rfl rfl rfl rfl rfl
      try clear_value x1
      split
      · refine Keeps.ite (fun _ => ?_) (fun _ => ?_)
        · exact h1
        · refine State.arrive_keeps _ _ _ ?_
          exact h1
      · exact h1
    · exact hk
  · exact hk

theorem State.issueSlot_keeps (s : State) (d : Nat) (e : Nat) (x : FRec) (kind : ReadKind) (a : Nat) (len : Nat) (hk
    : Keeps ls zs s) : Keeps ls zs (State.issueSlot s d e x kind a len) := by
  unfold State.issueSlot
  extract_lets -merge +onlyGivenNames x1
  clear_value x1
  extract_lets -merge +onlyGivenNames x2
  clear_value x2
  extract_lets -merge +onlyGivenNames x3
  clear_value x3
  extract_lets -merge +onlyGivenNames x4
  have h4 : Keeps ls zs x4 := by
    unfold x4
    refine State.count_keeps _ _ _ _ ?_
    refine State.chargeHoard_keeps _ _ _ ?_
    exact hk.lit rfl rfl rfl rfl rfl
  clear_value x4
  refine State.askHoard_keeps _ _ _ ?_
  exact h4

theorem State.trySlot_keeps (s : State) (d : Nat) (x : FRec) (kind : ReadKind) (a : Nat) (len : Nat) (hk : Keeps ls
    zs s) : KeepsO ls zs (State.trySlot s d x kind a len) := by
  unfold State.trySlot
  split
  · refine KeepsO.ite (fun _ => ?_) (fun _ => ?_)
    · refine KeepsO.some ?_
      refine State.issueSlot_keeps _ _ _ _ _ _ _ ?_
      exact hk
    · exact KeepsO.none
  · exact KeepsO.none

theorem State.histWrite_keeps (s : State) (q : Req) (xa2 : HistDecl) (off : Nat) (bs : Bytes) (poison : Bool) (hk :
    Keeps ls zs s) : Keeps ls zs (State.histWrite s q xa2 off bs poison) := by
  unfold State.histWrite
  refine State.each_keeps _ _ _ ?_ ?_
  · exact hk
  · intro x1 x2 h1
    refine State.modTile_keeps _ _ _ ?_
    exact h1

theorem State.placeEmb_keeps (s : State) (q : Req) (x : FRec) (shard : Nat) (v : List W32) (poison : Bool) (hk :
    Keeps ls zs s) : Keeps ls zs (State.placeEmb s q x shard v poison) := by
  unfold State.placeEmb
  split
  · exact hk
  · extract_lets -merge +onlyGivenNames x1
    clear_value x1
    extract_lets -merge +onlyGivenNames x2
    clear_value x2
    extract_lets -merge +onlyGivenNames x3
    clear_value x3
    extract_lets -merge +onlyGivenNames x4
    clear_value x4
    extract_lets -merge +onlyGivenNames x5
    clear_value x5
    refine State.histWrite_keeps _ _ _ _ _ _ ?_
    exact hk

theorem State.takeRow_keeps (s : State) (x : FRec) (shard : Nat) (remote : Bool) (v : List W32) (poison : Bool) (hk
    : Keeps ls zs s) : Keeps ls zs (State.takeRow s x shard remote v poison) := by
  unfold State.takeRow
  split
  · exact hk
  · refine Keeps.ite (fun _ => ?_) (fun _ => ?_)
    · refine State.placeEmb_keeps _ _ _ _ _ _ ?_
      exact hk
    · refine State.addPart_keeps _ _ _ _ _ _ ?_
      exact hk

theorem State.failLookup_keeps (s : State) (id : Nat) (hk : Keeps ls zs s) : Keeps ls zs (State.failLookup s id) :=
    by
  unfold State.failLookup
  extract_lets -merge +onlyGivenNames x2 x1
  have h1 : Keeps ls zs x1 := by
    unfold x1
    exact hk.lit rfl rfl rfl rfl rfl
  try clear_value x1
  split
  · exact h1
  · split
    · refine State.startAbort_keeps _ _ _ _ ?_
      exact h1
    · refine State.startAbort_keeps _ _ _ _ ?_
      exact h1
    · refine State.endReq_keeps _ _ _ _ ?_
      exact h1
    · refine State.endReq_keeps _ _ _ _ ?_
      exact h1
    · exact h1

theorem State.ask_keeps (s : State) (m : Bytes) (x : Xact) (req : Nat) (hk : Keeps ls zs s) : Keeps ls zs (State.ask
    s m x req) := by
  unfold State.ask
  split
  · rename_i e1
    have h1 := KeepsO.of (ls := ls) (zs := zs) e1 (by
      refine State.send_keeps _ _ ?_
      exact hk)
    exact h1.lit rfl rfl rfl rfl rfl
  · refine State.failLookup_keeps _ _ ?_
    exact hk

theorem State.newTid_keeps (s : State) (hk : Keeps ls zs s) : KeepsP ls zs (State.newTid s) := by
  unfold State.newTid
  refine KeepsP.mk ?_
  exact hk.lit rfl rfl rfl rfl rfl

theorem State.askRow_keeps (s : State) (q : Req) (x : FRec) (t : Table) (k : Nat) (hk : Keeps ls zs s) : Keeps ls zs
    (State.askRow s q x t k) := by
  unfold State.askRow
  extract_lets -merge +onlyGivenNames x1
  have h1 : KeepsP ls zs x1 := by
    unfold x1
    refine State.newTid_keeps _ ?_
    exact hk
  clear_value x1
  extract_lets -merge +onlyGivenNames x2
  clear_value x2
  refine State.ask_keeps _ _ _ _ ?_
  exact h1

theorem State.askSlices_keeps (s : State) (q : Req) (x : FRec) (t : Table) (hk : Keeps ls zs s) : Keeps ls zs
    (State.askSlices s q x t) := by
  unfold State.askSlices
  refine Keeps.foldl ?_ _ _ ?_
  · intro x1 x2 h1
    refine State.askRow_keeps _ _ _ _ _ ?_
    exact h1
  · exact hk

theorem State.askPool_keeps (s : State) (q : Req) (b : Bag) (slot : Nat) (k : Nat) (rows : List (Nat × W32)) (div :
    Nat) (hk : Keeps ls zs s) : Keeps ls zs (State.askPool s q b slot k rows div) := by
  unfold State.askPool
  extract_lets -merge +onlyGivenNames x1
  clear_value x1
  extract_lets -merge +onlyGivenNames x2
  clear_value x2
  extract_lets -merge +onlyGivenNames x3
  clear_value x3
  extract_lets -merge +onlyGivenNames x4
  clear_value x4
  extract_lets -merge +onlyGivenNames x5
  clear_value x5
  extract_lets -merge +onlyGivenNames x6
  clear_value x6
  extract_lets -merge +onlyGivenNames x7
  clear_value x7
  extract_lets -merge +onlyGivenNames x9 x8
  have h8 : Keeps ls zs x8 := by
    unfold x8
    exact hk.lit rfl rfl rfl rfl rfl
  try clear_value x8
  extract_lets -merge +onlyGivenNames x10
  have h10 : Keeps ls zs x10 := by
    unfold x10
    refine State.modReq_keeps _ _ _ ?_
    exact h8
  clear_value x10
  refine State.ask_keeps _ _ _ _ ?_
  exact h10

theorem State.dropRecs_keeps (s : State) (ids : List Nat) (hk : Keeps ls zs s) : Keeps ls zs (State.dropRecs s ids)
    := by
  unfold State.dropRecs
  exact hk.lit rfl rfl rfl rfl rfl

theorem State.readHere_keeps (s : State) (q : Req) (x : FRec) (t : Table) (kind : ReadKind) (hk : Keeps ls zs s) :
    KeepsO ls zs (State.readHere s q x t kind) := by
  unfold State.readHere
  extract_lets -merge +onlyGivenNames x1
  have h1 : Keeps ls zs x1 := by
    unfold x1
    refine Keeps.ite (fun _ => ?_) (fun _ => ?_)
    · refine State.count_keeps _ _ _ _ ?_
      exact hk
    · exact hk
  clear_value x1
  split
  · refine KeepsO.some ?_
    refine State.takeRow_keeps _ _ _ _ _ _ ?_
    refine State.dropRecs_keeps _ _ ?_
    exact h1
  · refine KeepsO.ite (fun _ => ?_) (fun _ => ?_)
    · refine State.trySlot_keeps _ _ _ _ _ _ ?_
      refine State.dropRecs_keeps _ _ ?_
      exact h1
    · refine KeepsO.some ?_
      refine State.finishBags_keeps _ _ ?_
      refine State.count_keeps _ _ _ _ ?_
      refine State.dropRecs_keeps _ _ ?_
      exact hk

theorem State.prefetchUsed_keeps (s : State) (q : Req) (x : FRec) (t : Table) (hk : Keeps ls zs s) : Keeps ls zs
    (State.prefetchUsed s q x t) := by
  unfold State.prefetchUsed
  split
  · refine Keeps.ite (fun _ => ?_) (fun _ => ?_)
    · refine State.count_keeps _ _ _ _ ?_
      exact hk
    · exact hk
  · exact hk

theorem State.issueRemote_keeps (s : State) (q : Req) (x : FRec) (t : Table) (k : Nat) (hk : Keeps ls zs s) : KeepsO
    ls zs (State.issueRemote s q x t k) := by
  unfold State.issueRemote
  refine KeepsO.ite (fun _ => ?_) (fun _ => ?_)
  · exact KeepsO.none
  · refine KeepsO.ite (fun _ => ?_) (fun _ => ?_)
    · refine KeepsO.some ?_
      refine State.askRow_keeps _ _ _ _ _ ?_
      refine State.count_keeps _ _ _ _ ?_
      refine State.dropRecs_keeps _ _ ?_
      exact hk
    · extract_lets -merge +onlyGivenNames x1
      clear_value x1
      extract_lets -merge +onlyGivenNames x2
      clear_value x2
      split
      · exact KeepsO.none
      · refine KeepsO.ite (fun _ => ?_) (fun _ => ?_)
        · extract_lets -merge +onlyGivenNames x3
          clear_value x3
          refine KeepsO.some ?_
          refine State.askPool_keeps _ _ _ _ _ _ _ ?_
          refine State.count_keeps _ _ _ _ ?_
          refine State.dropRecs_keeps _ _ ?_
          exact hk
        · exact KeepsO.none

theorem State.issueCol_keeps (s : State) (q : Req) (x : FRec) (t : Table) (hk : Keeps ls zs s) : KeepsO ls zs
    (State.issueCol s q x t) := by
  unfold State.issueCol
  extract_lets -merge +onlyGivenNames x1
  clear_value x1
  extract_lets -merge +onlyGivenNames x2
  clear_value x2
  refine KeepsO.ite (fun _ => ?_) (fun _ => ?_)
  · exact KeepsO.none
  · extract_lets -merge +onlyGivenNames x3
    have h3 : KeepsO ls zs x3 := by
      unfold x3
      refine KeepsO.ite (fun _ => ?_) (fun _ => ?_)
      · refine State.readHere_keeps _ _ _ _ _ ?_
        exact hk
      · refine KeepsO.some ?_
        refine Keeps.ite (fun _ => ?_) (fun _ => ?_)
        · refine State.count_keeps _ _ _ _ ?_
          refine State.dropRecs_keeps _ _ ?_
          exact hk
        · refine State.dropRecs_keeps _ _ ?_
          exact hk
    clear_value x3
    refine KeepsO.map ?_ ?_
    · exact h3
    · intro x4 h4
      refine Keeps.ite (fun _ => ?_) (fun _ => ?_)
      · refine State.askSlices_keeps _ _ _ _ ?_
        exact h4
      · exact h4

theorem State.issueDemand_keeps (s : State) (q : Req) (x : FRec) (hk : Keeps ls zs s) : KeepsO ls zs
    (State.issueDemand s q x) := by
  unfold State.issueDemand
  extract_lets -merge +onlyGivenNames x1
  clear_value x1
  refine KeepsO.ite (fun _ => ?_) (fun _ => ?_)
  · refine State.issueCol_keeps _ _ _ _ ?_
    exact hk
  · split
    · refine State.issueRemote_keeps _ _ _ _ _ ?_
      exact hk
    · refine State.readHere_keeps _ _ _ _ _ ?_
      refine State.prefetchUsed_keeps _ _ _ _ ?_
      exact hk

theorem State.issueColRows_keeps (s : State) (q : Req) (b : Bag) (hk : Keeps ls zs s) : KeepsO ls zs
    (State.issueColRows s q b) := by
  unfold State.issueColRows
  split
  · refine KeepsO.ite (fun _ => ?_) (fun _ => ?_)
    · refine KeepsO.some ?_
      refine State.askPool_keeps _ _ _ _ _ _ _ ?_
      exact hk
    · exact KeepsO.none
  · exact KeepsO.none

theorem State.issueFor_keeps (s : State) (q : Req) (hk : Keeps ls zs s) : KeepsO ls zs (State.issueFor s q) := by
  unfold State.issueFor
  split
  · rename_i e1
    have h1 := KeepsO.of (ls := ls) (zs := zs) e1 (by
      refine KeepsO.findSome ?_ _
      intro x2
      refine State.issueDemand_keeps _ _ _ ?_
      exact hk)
    refine KeepsO.some ?_
    exact h1
  · refine KeepsO.findSome ?_ _
    intro x3
    refine State.issueColRows_keeps _ _ _ ?_
    exact hk

theorem State.walkRead_keeps (s : State) (d : Nat) (a : Nat) (n : Nat) (hk : Keeps ls zs s) : KeepsOQ ls zs
    (State.walkRead s d a n) := by
  unfold State.walkRead
  refine KeepsOQ.ite (fun _ => ?_) (fun _ => ?_)
  · refine KeepsOQ.map ?_ ?_
    · refine State.touchLines_keeps _ _ _ _ _ _ ?_
      refine State.chargeHoard_keeps _ _ _ ?_
      exact hk
    · intro x1 h1
      refine KeepsQ.mk ?_
      refine KeepsP.mk ?_
      exact h1
  · exact KeepsOQ.none

theorem State.modWalk_keeps (s : State) (id : Nat) (f : Walk → Walk) (hk : Keeps ls zs s) : Keeps ls zs
    (State.modWalk s id f) := by
  unfold State.modWalk
  refine State.modReq_keeps _ _ _ ?_
  exact hk

theorem State.issueEmb_keeps (s : State) (q : Req) (x : FRec) (hk : Keeps ls zs s) : KeepsO ls zs (State.issueEmb s
    q x) := by
  unfold State.issueEmb
  extract_lets -merge +onlyGivenNames x1
  clear_value x1
  extract_lets -merge +onlyGivenNames x2
  clear_value x2
  refine KeepsO.ite (fun _ => ?_) (fun _ => ?_)
  · refine KeepsO.ite (fun _ => ?_) (fun _ => ?_)
    · exact KeepsO.none
    · extract_lets -merge +onlyGivenNames x3
      have h3 : KeepsO ls zs x3 := by
        unfold x3
        refine KeepsO.ite (fun _ => ?_) (fun _ => ?_)
        · refine State.readHere_keeps _ _ _ _ _ ?_
          exact hk
        · refine KeepsO.some ?_
          exact hk
      clear_value x3
      refine KeepsO.map ?_ ?_
      · exact h3
      · intro x4 h4
        refine State.askSlices_keeps _ _ _ _ ?_
        exact h4
  · split
    · refine KeepsO.ite (fun _ => ?_) (fun _ => ?_)
      · refine KeepsO.some ?_
        refine State.askRow_keeps _ _ _ _ _ ?_
        refine State.count_keeps _ _ _ _ ?_
        exact hk
      · exact KeepsO.none
    · refine State.readHere_keeps _ _ _ _ _ ?_
      exact hk

theorem State.walkEvent_keeps (s : State) (q : Req) (xa2 : HistDecl) (w : Walk) (hk : Keeps ls zs s) : KeepsO ls zs
    (State.walkEvent s q xa2 w) := by
  unfold State.walkEvent
  extract_lets -merge +onlyGivenNames x1
  clear_value x1
  split
  · exact KeepsO.none
  · rename_i e2
    have h2 := KeepsOQ.of (ls := ls) (zs := zs) e2 (by
      refine State.walkRead_keeps _ _ _ _ ?_
      exact hk)
    refine KeepsO.ite (fun _ => ?_) (fun _ => ?_)
    · refine KeepsO.some ?_
      refine State.modWalk_keeps _ _ _ ?_
      exact h2
    · extract_lets -merge +onlyGivenNames x3
      clear_value x3
      extract_lets -merge +onlyGivenNames x5 x4
      have h4 : Keeps ls zs x4 := by
        unfold x4
        exact h2.lit rfl rfl rfl rfl rfl
      try clear_value x4
      extract_lets -merge +onlyGivenNames x6
      have h6 : Keeps ls zs x6 := by
        unfold x6
        refine State.histWrite_keeps _ _ _ _ _ _ ?_
        exact h4
      clear_value x6
      refine State.issueEmb_keeps _ _ _ ?_
      refine State.modWalk_keeps _ _ _ ?_
      exact h6

theorem State.issueWalk_keeps (s : State) (q : Req) (hk : Keeps ls zs s) : KeepsO ls zs (State.issueWalk s q) := by
  unfold State.issueWalk
  split
  · refine KeepsO.ite (fun _ => ?_) (fun _ => ?_)
    · refine State.walkEvent_keeps _ _ _ _ ?_
      exact hk
    · exact KeepsO.none
  · exact KeepsO.none

theorem execGatherIssue_keeps (s : State) (hk : Keeps ls zs s) : KeepsR ls zs (execGatherIssue s) := by
  unfold execGatherIssue
  refine KeepsR.next ?_
  refine Keeps.ite (fun _ => ?_) (fun _ => ?_)
  · extract_lets -merge +onlyGivenNames x1
    have h1 : Keeps ls zs x1 := by
      unfold x1
      refine State.each_keeps _ _ _ ?_ ?_
      · exact hk
      · intro x2 x3 h2
        refine State.count_keeps _ _ _ _ ?_
        exact h2
    clear_value x1
    split
    · rename_i e4
      have h4 := KeepsO.of (ls := ls) (zs := zs) e4 (by
        refine KeepsO.findSome ?_ _
        intro x5
        refine State.issueFor_keeps _ _ ?_
        exact h1)
      exact h4
    · split
      · rename_i e6
        have h6 := KeepsO.of (ls := ls) (zs := zs) e6 (by
          refine KeepsO.findSome ?_ _
          intro x7
          refine State.issueWalk_keeps _ _ ?_
          exact h1)
        exact h6
      · exact h1
  · exact hk

theorem execArrivalReserve_keeps (req : Nat) (smp : Nat) (grp : Nat) (ent : Nat) (s : State) (hk : Keeps ls zs s) :
    KeepsR ls zs (execArrivalReserve req smp grp ent s) := by
  unfold execArrivalReserve
  refine KeepsR.next ?_
  split
  · extract_lets -merge +onlyGivenNames x1
    clear_value x1
    refine Keeps.ite (fun _ => ?_) (fun _ => ?_)
    · extract_lets -merge +onlyGivenNames x2
      clear_value x2
      extract_lets -merge +onlyGivenNames x3
      clear_value x3
      refine State.modReq_keeps _ _ _ ?_
      exact hk.lit rfl rfl rfl rfl rfl
    · exact hk
  · exact hk

theorem State.prefetch_keeps (s : State) (q : Req) (x : FRec) (e : Nat) (hk : Keeps ls zs s) : Keeps ls zs
    (State.prefetch s q x e) := by
  unfold State.prefetch
  extract_lets -merge +onlyGivenNames x1
  clear_value x1
  split
  · extract_lets -merge +onlyGivenNames x2
    clear_value x2
    extract_lets -merge +onlyGivenNames x3
    clear_value x3
    refine Keeps.ite (fun _ => ?_) (fun _ => ?_)
    · refine State.issueSlot_keeps _ _ _ _ _ _ _ ?_
      exact hk.lit rfl rfl rfl rfl rfl
    · exact hk
  · exact hk

theorem execPrefetchIssue_keeps (req : Nat) (s : State) (hk : Keeps ls zs s) : KeepsR ls zs (execPrefetchIssue req
    s) := by
  unfold execPrefetchIssue
  refine KeepsR.next ?_
  split
  · split
    · refine Keeps.ite (fun _ => ?_) (fun _ => ?_)
      · refine State.prefetch_keeps _ _ _ _ ?_
        exact hk
      · exact hk
    · exact hk
  · exact hk

theorem State.freeSlot_keeps (s : State) (id : Nat) (prefetch : Bool) (hk : Keeps ls zs s) : Keeps ls zs
    (State.freeSlot s id prefetch) := by
  unfold State.freeSlot
  extract_lets -merge +onlyGivenNames x1
  clear_value x1
  exact hk.lit rfl rfl rfl rfl rfl

theorem execPrefetchDone_keeps (rid : Nat) (s : State) (hk : Keeps ls zs s) : KeepsR ls zs (execPrefetchDone rid s)
    := by
  unfold execPrefetchDone
  refine KeepsR.next ?_
  refine Keeps.ite (fun _ => ?_) (fun _ => ?_)
  · refine State.freeSlot_keeps _ _ _ ?_
    exact hk
  · exact hk

theorem execRowPooled_keeps (rid : Nat) (s : State) (hk : Keeps ls zs s) : KeepsR ls zs (execRowPooled rid s) := by
  unfold execRowPooled
  refine KeepsR.next ?_
  split
  · refine Keeps.ite (fun _ => ?_) (fun _ => ?_)
    · extract_lets -merge +onlyGivenNames x1
      clear_value x1
      refine State.takeRow_keeps _ _ _ _ _ _ ?_
      refine State.freeSlot_keeps _ _ _ ?_
      exact hk
    · exact hk
  · exact hk

theorem State.beginWalk_keeps (s : State) (q : Req) (w : Option Walk) (hk : Keeps ls zs s) : Keeps ls zs
    (State.beginWalk s q w) := by
  unfold State.beginWalk
  split
  · refine State.modReq_keeps _ _ _ ?_
    exact hk
  · extract_lets -merge +onlyGivenNames x1
    clear_value x1
    refine State.fault_keeps _ _ _ _ ?_
    refine State.count_keeps _ _ _ _ ?_
    refine State.modReq_keeps _ _ _ ?_
    exact hk

theorem execHistWalkBegin_keeps (req : Nat) (s : State) (hk : Keeps ls zs s) : KeepsR ls zs (execHistWalkBegin req
    s) := by
  unfold execHistWalkBegin
  refine KeepsR.next ?_
  split
  · exact hk
  · split
    · exact hk
    · refine Keeps.ite (fun _ => ?_) (fun _ => ?_)
      · extract_lets -merge +onlyGivenNames x1
        clear_value x1
        refine Keeps.ite (fun _ => ?_) (fun _ => ?_)
        · refine State.beginWalk_keeps _ _ _ ?_
          exact hk
        · split
          · rename_i e2
            have h2 := KeepsOQ.of (ls := ls) (zs := zs) e2 (by
              refine State.walkRead_keeps _ _ _ _ ?_
              exact hk)
            refine State.beginWalk_keeps _ _ _ ?_
            exact h2
          · exact hk
      · exact hk

theorem State.postChunk_keeps (s : State) (q : Req) (xa2 : HistDecl) (b : Nat) (hk : Keeps ls zs s) : Keeps ls zs
    (State.postChunk s q xa2 b) := by
  unfold State.postChunk
  refine State.each_keeps _ _ _ ?_ ?_
  · exact hk
  · intro x1 x2 h1
    refine State.postSem_keeps _ _ _ ?_
    refine State.modTile_keeps _ _ _ ?_
    exact h1

theorem State.chunkPost_keeps (s : State) (q : Req) (xa2 : HistDecl) (w : Walk) (hk : Keeps ls zs s) : Keeps ls zs
    (State.chunkPost s q xa2 w) := by
  unfold State.chunkPost
  extract_lets -merge +onlyGivenNames x1
  clear_value x1
  extract_lets -merge +onlyGivenNames x2
  have h2 : Keeps ls zs x2 := by
    unfold x2
    refine State.histWrite_keeps _ _ _ _ _ _ ?_
    exact hk
  clear_value x2
  extract_lets -merge +onlyGivenNames x3
  have h3 : Keeps ls zs x3 := by
    unfold x3
    refine State.count_keeps _ _ _ _ ?_
    refine State.count_keeps _ _ _ _ ?_
    exact h2
  clear_value x3
  extract_lets -merge +onlyGivenNames x4
  have h4 : Keeps ls zs x4 := by
    unfold x4
    refine State.modReq_keeps _ _ _ ?_
    exact h3
  clear_value x4
  refine Keeps.ite (fun _ => ?_) (fun _ => ?_)
  · refine State.modWalk_keeps _ _ _ ?_
    exact h4
  · refine State.postChunk_keeps _ _ _ _ ?_
    exact h4

theorem execHistChunkPost_keeps (req : Nat) (s : State) (hk : Keeps ls zs s) : KeepsR ls zs (execHistChunkPost req
    s) := by
  unfold execHistChunkPost
  refine KeepsR.next ?_
  split
  · exact hk
  · split
    · refine Keeps.ite (fun _ => ?_) (fun _ => ?_)
      · refine State.chunkPost_keeps _ _ _ _ ?_
        exact hk
      · exact hk
    · exact hk

theorem execHistReadResume_keeps (req : Nat) (s : State) (hk : Keeps ls zs s) : KeepsR ls zs (execHistReadResume req
    s) := by
  unfold execHistReadResume
  refine KeepsR.next ?_
  split
  · exact hk
  · split
    · refine Keeps.ite (fun _ => ?_) (fun _ => ?_)
      · refine State.modWalk_keeps _ _ _ ?_
        exact hk
      · exact hk
    · exact hk

end

end Sys2Proof.Machine
end

