-- ==== Sys2Proof/Laws/KeepsWarren.lean ====
section
/-!
SUPPORT. One lemma per operation, meaning by meaning: it keeps what every command keeps (Laws.Keeps). Here: replies, updates, switches, the fabric and remote requests.
-/

namespace Sys2Proof.Machine

section
variable {ls : List Instr} {zs : W64 × Nat}

/-! ### Reply -/

theorem State.takeCmd_keeps (s : State) (c : CmdSrc) (hk : Keeps ls zs s) : Keeps ls zs (State.takeCmd s c) := by
  unfold State.takeCmd
  extract_lets -merge +onlyGivenNames x2 x1
  have h1 : Keeps ls zs x1 := by
    unfold x1
    exact hk.lit rfl rfl rfl rfl rfl
  try clear_value x1
  split
  · extract_lets -merge +onlyGivenNames x4 x3
    have h3 : Keeps ls zs x3 := by
      unfold x3
      exact h1.lit rfl rfl rfl rfl rfl
    try clear_value x3
    refine State.modRing_keeps _ _ _ ?_
    refine State.takeFront_keeps _ _ ?_
    exact h3
  · exact h1.lit rfl rfl rfl rfl rfl
  · exact h1.lit rfl rfl rfl rfl rfl

theorem State.uartSend_keeps (s : State) (ty : Nat) (body : Bytes) (hk : Keeps ls zs s) : Keeps ls zs
    (State.uartSend s ty body) := by
  unfold State.uartSend
  refine State.emit_keeps _ _ ?_
  exact hk

theorem State.reply_keeps (s : State) (c : CmdSrc) (pkt : Bytes) (silent : Bool) (r : CmdRes) (hk : Keeps ls zs s) :
    Keeps ls zs (State.reply s c pkt silent r) := by
  unfold State.reply
  extract_lets -merge +onlyGivenNames x1
  clear_value x1
  split
  · refine Keeps.ite (fun _ => ?_) (fun _ => ?_)
    · exact hk
    · refine State.pushEntry_keeps _ _ _ _ ?_
      exact hk
  · exact hk.lit rfl rfl rfl rfl rfl
  · refine State.uartSend_keeps _ _ _ ?_
    exact hk.lit rfl rfl rfl rfl rfl

theorem State.uartData_keeps (s : State) (fuel : Nat) (b : Bytes) (hk : Keeps ls zs s) : Keeps ls zs (State.uartData
    s fuel b) := by
  induction fuel generalizing s b with
  | zero => exact hk
  | succ f ih =>
    rw [State.uartData]
    exact Keeps.ite (fun _ => State.uartSend_keeps _ _ _ hk) (fun _ => ih _ _ (State.uartSend_keeps _ _ _ hk))

theorem State.finishCmd_keeps (s : State) (id : Nat) (r : CmdRes) (hk : Keeps ls zs s) : Keeps ls zs
    (State.finishCmd s id r) := by
  unfold State.finishCmd
  split
  · exact hk
  · extract_lets -merge +onlyGivenNames x1
    have h1 : Keeps ls zs x1 := by
      unfold x1
      refine State.reply_keeps _ _ _ _ _ ?_
      exact hk
    clear_value x1
    exact h1.lit rfl rfl rfl rfl rfl

theorem State.startCmd_keeps (s : State) (c : CmdSrc) (pkt : Bytes) (locks : List (LockObj × Bool)) (hk : Keeps ls
    zs s) : Keeps ls zs (State.startCmd s c pkt locks) := by
  unfold State.startCmd
  extract_lets -merge +onlyGivenNames x1
  clear_value x1
  exact hk.lit rfl rfl rfl rfl rfl

theorem State.partTake_keeps (s : State) (iss : Issuer) (r : Bytes × Bool ⊕ Nat) (hk : Keeps ls zs s) : Keeps ls zs
    (State.partTake s iss r) := by
  unfold State.partTake
  split
  · refine State.modCmd_keeps _ _ _ ?_
    exact hk
  · refine State.setUpd_keeps _ _ _ _ ?_
    exact hk
  · exact hk
  · exact hk
  · exact hk
  · exact hk

theorem State.xactFailed_keeps (s : State) (hk : Keeps ls zs s) : Keeps ls zs (State.xactFailed s) := by
  unfold State.xactFailed
  exact hk.lit rfl rfl rfl rfl rfl

theorem State.partAsk_keeps (s : State) (iss : Issuer) (d : Nat) (w : Nat) (base : Nat) (off : Nat) (total : Nat)
    (hk : Keeps ls zs s) : Keeps ls zs (State.partAsk s iss d w base off total) := by
  unfold State.partAsk
  extract_lets -merge +onlyGivenNames x1
  have h1 : KeepsP ls zs x1 := by
    unfold x1
    refine State.newTid_keeps _ ?_
    exact hk
  clear_value x1
  extract_lets -merge +onlyGivenNames x2
  clear_value x2
  extract_lets -merge +onlyGivenNames x3
  clear_value x3
  refine Keeps.ite (fun _ => ?_) (fun _ => ?_)
  · refine State.partTake_keeps _ _ _ ?_
    refine State.xactFailed_keeps _ ?_
    exact hk
  · split
    · rename_i e4
      have h4 := KeepsO.of (ls := ls) (zs := zs) e4 (by
        refine State.send_keeps _ _ ?_
        exact h1)
      exact h4.lit rfl rfl rfl rfl rfl
    · refine State.partTake_keeps _ _ _ ?_
      refine State.xactFailed_keeps _ ?_
      exact hk

theorem State.partSend_keeps (s : State) (id : Nat) (d : Nat) (w : Nat) (base : Nat) (off : Nat) (hk : Keeps ls zs
    s) : Keeps ls zs (State.partSend s id d w base off) := by
  unfold State.partSend
  split
  · exact hk
  · refine Keeps.ite (fun _ => ?_) (fun _ => ?_)
    · refine State.modCmd_keeps _ _ _ ?_
      exact hk
    · extract_lets -merge +onlyGivenNames x1
      clear_value x1
      extract_lets -merge +onlyGivenNames x2
      have h2 : KeepsP ls zs x2 := by
        unfold x2
        refine State.newTid_keeps _ ?_
        exact hk
      clear_value x2
      extract_lets -merge +onlyGivenNames x3
      clear_value x3
      extract_lets -merge +onlyGivenNames x4
      clear_value x4
      extract_lets -merge +onlyGivenNames x5
      have h5 : Keeps ls zs x5 := by
        unfold x5
        refine State.modCmd_keeps _ _ _ ?_
        refine State.xactFailed_keeps _ ?_
        exact hk
      clear_value x5
      refine Keeps.ite (fun _ => ?_) (fun _ => ?_)
      · exact h5
      · split
        · rename_i e6
          have h6 := KeepsO.of (ls := ls) (zs := zs) e6 (by
            refine State.send_keeps _ _ ?_
            exact h2)
          exact h6.lit rfl rfl rfl rfl rfl
        · exact h5

theorem State.fetch_keeps (s : State) (iss : Issuer) (d : Nat) (p : ParamAddr) (n : Nat) (hk : Keeps ls zs s) :
    Keeps ls zs (State.fetch s iss d p n) := by
  unfold State.fetch
  split
  · refine State.partTake_keeps _ _ _ ?_
    exact hk
  · refine Keeps.ite (fun _ => ?_) (fun _ => ?_)
    · refine State.issueRead_keeps _ _ _ _ _ ?_
      exact hk
    · refine State.partTake_keeps _ _ _ ?_
      exact hk
  · refine Keeps.ite (fun _ => ?_) (fun _ => ?_)
    · refine State.partTake_keeps _ _ _ ?_
      exact hk
    · refine State.partTake_keeps _ _ _ ?_
      exact hk
  · refine State.partAsk_keeps _ _ _ _ _ _ _ ?_
    exact hk

theorem State.store_keeps (s : State) (id : Nat) (d : Nat) (p : ParamAddr) (b : Bytes) (hk : Keeps ls zs s) : Keeps
    ls zs (State.store s id d p b) := by
  unfold State.store
  extract_lets -merge +onlyGivenNames x1
  have h1 : ∀ y0 y1, Keeps ls zs y0 → Keeps ls zs (x1 y0 y1) := by
    unfold x1
    intro x2 x3 h2
    refine State.modCmd_keeps _ _ _ ?_
    exact h2
  clear_value x1
  split
  · refine h1 _ _ ?_
    exact hk
  · refine Keeps.ite (fun _ => ?_) (fun _ => ?_)
    · extract_lets -merge +onlyGivenNames x4
      have h4 : Keeps ls zs x4 := by
        unfold x4
        refine State.issueWrite_keeps _ _ _ _ _ ?_
        refine State.modCmd_keeps _ _ _ ?_
        exact hk
      clear_value x4
      refine Keeps.ite (fun _ => ?_) (fun _ => ?_)
      · exact h4
      · refine h1 _ _ ?_
        exact h4
    · refine h1 _ _ ?_
      exact hk
  · refine h1 _ _ ?_
    refine State.devWrite_keeps _ _ _ ?_
    exact hk
  · refine State.partSend_keeps _ _ _ _ _ _ ?_
    refine State.modCmd_keeps _ _ _ ?_
    exact hk

/-! ### Updates -/

theorem State.beginBlock_keeps (s : State) (d : Nat) (r : Nat) (b : Bytes) (n : Nat) (hk : Keeps ls zs s) : Keeps ls
    zs (State.beginBlock s d r b n) := by
  unfold State.beginBlock
  split
  · refine State.partTake_keeps _ _ _ ?_
    exact hk
  · refine State.fetch_keeps _ _ _ _ _ ?_
    refine State.chargePcie_keeps _ _ _ ?_
    exact hk
  · split
    · refine Keeps.ite (fun _ => ?_) (fun _ => ?_)
      · refine State.partTake_keeps _ _ _ ?_
        exact hk
      · refine Keeps.ite (fun _ => ?_) (fun _ => ?_)
        · exact hk
        · refine State.partAsk_keeps _ _ _ _ _ _ _ ?_
          exact hk
    · refine Keeps.ite (fun _ => ?_) (fun _ => ?_)
      · refine State.fetch_keeps _ _ _ _ _ ?_
        refine State.chargePcie_keeps _ _ _ ?_
        exact hk
      · refine State.partTake_keeps _ _ _ ?_
        exact hk
    · exact hk

theorem State.takeUpd_keeps (s : State) (d : Nat) (r : Nat) (hk : Keeps ls zs s) : Keeps ls zs (State.takeUpd s d r)
    := by
  unfold State.takeUpd
  extract_lets -merge +onlyGivenNames x1
  have h1 : Keeps ls zs x1 := by
    unfold x1
    refine State.modRing_keeps _ _ _ ?_
    refine State.takeFront_keeps _ _ ?_
    exact hk
  clear_value x1
  refine State.count_keeps _ _ _ _ ?_
  refine State.chargePcie_keeps _ _ _ ?_
  refine State.chargePcie_keeps _ _ _ ?_
  exact h1

theorem State.acceptUpd_keeps (s : State) (d : Nat) (r : Nat) (b : Bytes) (hk : Keeps ls zs s) : Keeps ls zs
    (State.acceptUpd s d r b) := by
  unfold State.acceptUpd
  extract_lets -merge +onlyGivenNames x1
  clear_value x1
  extract_lets -merge +onlyGivenNames x2
  have h2 : Keeps ls zs x2 := by
    unfold x2
    refine State.takeUpd_keeps _ _ _ ?_
    exact hk
  clear_value x2
  refine Keeps.ite (fun _ => ?_) (fun _ => ?_)
  · refine State.postUpd_keeps _ _ _ _ _ ?_
    exact h2
  · extract_lets -merge +onlyGivenNames x3
    clear_value x3
    extract_lets -merge +onlyGivenNames x4
    clear_value x4
    refine State.beginBlock_keeps _ _ _ _ _ ?_
    refine State.setUpd_keeps _ _ _ _ ?_
    refine State.takeRef_keeps _ _ _ ?_
    exact h2

theorem execUpdateAccept_keeps (den : Nat) (ring : Nat) (s : State) (hk : Keeps ls zs s) : KeepsR ls zs
    (execUpdateAccept den ring s) := by
  unfold execUpdateAccept
  refine KeepsR.next ?_
  split
  · refine Keeps.ite (fun _ => ?_) (fun _ => ?_)
    · refine Keeps.ite (fun _ => ?_) (fun _ => ?_)
      · refine State.acceptUpd_keeps _ _ _ _ ?_
        exact hk
      · refine State.count_keeps _ _ _ _ ?_
        exact hk
    · exact hk
  · exact hk

theorem State.readBlock_keeps (s : State) (d : Nat) (r : Nat) (u : UpdCur) (hk : Keeps ls zs s) : Keeps ls zs
    (State.readBlock s d r u) := by
  unfold State.readBlock
  extract_lets -merge +onlyGivenNames x1
  clear_value x1
  extract_lets -merge +onlyGivenNames x2
  clear_value x2
  extract_lets -merge +onlyGivenNames x3
  clear_value x3
  extract_lets -merge +onlyGivenNames x4
  clear_value x4
  extract_lets -merge +onlyGivenNames x5
  have h5 : Keeps ls zs x5 := by
    unfold x5
    refine State.partTake_keeps _ _ _ ?_
    exact hk
  clear_value x5
  refine Keeps.ite (fun _ => ?_) (fun _ => ?_)
  · exact h5
  · refine State.partTake_keeps _ _ _ ?_
    exact h5

theorem execRecordBlockReadDone_keeps (den : Nat) (ring : Nat) (s : State) (hk : Keeps ls zs s) : KeepsR ls zs
    (execRecordBlockReadDone den ring s) := by
  unfold execRecordBlockReadDone
  refine KeepsR.next ?_
  split
  · exact hk
  · refine Keeps.ite (fun _ => ?_) (fun _ => ?_)
    · refine State.updCheck_keeps _ _ _ ?_
      refine Keeps.ite (fun _ => ?_) (fun _ => ?_)
      · refine State.readBlock_keeps _ _ _ _ ?_
        exact hk
      · exact hk
    · exact hk

theorem State.stageLine_keeps (s : State) (d : Nat) (a : Nat) (addr : Nat) (row : Bytes) (hk : Keeps ls zs s) :
    KeepsO ls zs (State.stageLine s d a addr row) := by
  unfold State.stageLine
  refine KeepsO.ite (fun _ => ?_) (fun _ => ?_)
  · exact KeepsO.none
  · extract_lets -merge +onlyGivenNames x1
    clear_value x1
    split
    · refine State.placeLine_keeps _ _ ?_
      refine State.count_keeps _ _ _ _ ?_
      exact hk.lit rfl rfl rfl rfl rfl
    · refine State.placeLine_keeps _ _ ?_
      refine State.queueHbm_keeps _ _ _ ?_
      refine State.count_keeps _ _ _ _ ?_
      refine State.chargeHbm_keeps _ _ _ _ ?_
      exact hk

theorem State.stageLines_keeps (s : State) (d : Nat) (addr : Nat) (row : Bytes) (xa4 : List Nat) (hk : Keeps ls zs
    s) : KeepsO ls zs (State.stageLines s d addr row xa4) := by
  induction xa4 generalizing s with
  | nil => exact KeepsO.some hk
  | cons a l ih =>
    rw [State.stageLines]
    split
    next e => exact ih _ (State.stageLine_keeps _ _ _ _ _ hk _ e)
    next => exact KeepsO.none

theorem State.stageRow_keeps (s : State) (d : Nat) (r : Nat) (tn : Nat) (addr : Nat) (row : Bytes) (hk : Keeps ls zs
    s) : KeepsO ls zs (State.stageRow s d r tn addr row) := by
  unfold State.stageRow
  extract_lets -merge +onlyGivenNames x1
  clear_value x1
  refine KeepsO.ite (fun _ => ?_) (fun _ => ?_)
  · exact KeepsO.none
  · split
    · exact KeepsO.none
    · rename_i e2
      have h2 := KeepsO.of (ls := ls) (zs := zs) e2 (by
        refine State.stageLines_keeps _ _ _ _ _ ?_
        refine State.chargeHoard_keeps _ _ _ ?_
        exact hk)
      extract_lets -merge +onlyGivenNames x3
      clear_value x3
      extract_lets -merge +onlyGivenNames x5 x4
      have h4 : Keeps ls zs x4 := by
        unfold x4
        exact h2.lit rfl rfl rfl rfl rfl
      try clear_value x4
      refine KeepsO.some ?_
      refine State.askHoard_keeps _ _ _ ?_
      exact h4

theorem State.nextRecord_keeps (s : State) (d : Nat) (r : Nat) (flag : Nat) (hk : Keeps ls zs s) : Keeps ls zs
    (State.nextRecord s d r flag) := by
  unfold State.nextRecord
  extract_lets -merge +onlyGivenNames x1
  have h1 : Keeps ls zs x1 := by
    unfold x1
    refine State.setUpd_keeps _ _ _ _ ?_
    exact hk
  clear_value x1
  refine Keeps.ite (fun _ => ?_) (fun _ => ?_)
  · exact h1
  · refine State.updCheck_keeps _ _ _ ?_
    refine State.count_keeps _ _ _ _ ?_
    exact h1

theorem State.stageRecord_keeps (s : State) (d : Nat) (r : Nat) (u : UpdCur) (hk : Keeps ls zs s) : Keeps ls zs
    (State.stageRecord s d r u) := by
  unfold State.stageRecord
  extract_lets -merge +onlyGivenNames x1
  clear_value x1
  extract_lets -merge +onlyGivenNames x2
  clear_value x2
  extract_lets -merge +onlyGivenNames x3
  clear_value x3
  refine Keeps.ite (fun _ => ?_) (fun _ => ?_)
  · refine State.nextRecord_keeps _ _ _ _ ?_
    exact hk
  · extract_lets -merge +onlyGivenNames x4
    clear_value x4
    split
    · rename_i e5
      have h5 := KeepsO.of (ls := ls) (zs := zs) e5 (by
        refine State.stageRow_keeps _ _ _ _ _ _ ?_
        exact hk)
      refine State.nextRecord_keeps _ _ _ _ ?_
      exact h5
    · refine State.count_keeps _ _ _ _ ?_
      exact hk

theorem execUpdateStage_keeps (den : Nat) (ring : Nat) (s : State) (hk : Keeps ls zs s) : KeepsR ls zs
    (execUpdateStage den ring s) := by
  unfold execUpdateStage
  refine KeepsR.next ?_
  split
  · exact hk
  · refine Keeps.ite (fun _ => ?_) (fun _ => ?_)
    · refine State.stageRecord_keeps _ _ _ _ ?_
      exact hk
    · exact hk

/-! ### Switch -/

theorem State.switchOne_keeps (s : State) (hold : Bool) (p : Nat × Nat) (hk : Keeps ls zs s) : Keeps ls zs
    (State.switchOne s hold p) := by
  unfold State.switchOne
  extract_lets -merge +onlyGivenNames x1
  clear_value x1
  refine Keeps.ite (fun _ => ?_) (fun _ => ?_)
  · exact hk
  · extract_lets -merge +onlyGivenNames x2
    clear_value x2
    extract_lets -merge +onlyGivenNames x3
    have h3 : Keeps ls zs x3 := by
      unfold x3
      refine State.modTable_keeps _ _ _ ?_
      exact hk
    clear_value x3
    extract_lets -merge +onlyGivenNames x4
    have h4 : Keeps ls zs x4 := by
      unfold x4
      refine State.count_keeps _ _ _ _ ?_
      exact h3
    clear_value x4
    refine Keeps.ite (fun _ => ?_) (fun _ => ?_)
    · refine State.versionFreed_keeps _ _ _ _ ?_
      exact h4
    · exact h4

theorem State.switchAll_keeps (s : State) (ps : List (Nat × Nat)) (hold : Bool) (durable : Bool) (sw : Nat) (hk :
    Keeps ls zs s) : Keeps ls zs (State.switchAll s ps hold durable sw) := by
  unfold State.switchAll
  extract_lets -merge +onlyGivenNames x1
  clear_value x1
  extract_lets -merge +onlyGivenNames x2
  have h2 : Keeps ls zs x2 := by
    unfold x2
    refine Keeps.foldl ?_ _ _ ?_
    · intro x3 x4 h3
      refine State.switchOne_keeps _ _ _ ?_
      exact h3
    · exact hk
  clear_value x2
  refine Keeps.ite (fun _ => ?_) (fun _ => ?_)
  · refine Keeps.foldl ?_ _ _ ?_
    · intro x5 x6 h5
      refine State.record_keeps _ _ _ _ ?_
      exact h5
    · exact h2
  · exact h2

theorem State.unlockAll_keeps (s : State) (id : W32) (hk : Keeps ls zs s) : Keeps ls zs (State.unlockAll s id) := by
  unfold State.unlockAll
  exact hk.lit rfl rfl rfl rfl rfl

theorem State.lockPairs_keeps (s : State) (id : W32) (master : Nat) (ps : List (Nat × Nat)) (durable : Bool) (hk :
    Keeps ls zs s) : Keeps ls zs (State.lockPairs s id master ps durable) := by
  unfold State.lockPairs
  extract_lets -merge +onlyGivenNames x1
  have h1 : Keeps ls zs x1 := by
    unfold x1
    refine Keeps.foldl ?_ _ _ ?_
    · intro x2 x3 h2
      refine State.modTable_keeps _ _ _ ?_
      exact h2
    · exact hk
  clear_value x1
  exact h1.lit rfl rfl rfl rfl rfl

theorem State.applySwitch_keeps (s : State) (hk : Keeps ls zs s) : Keeps ls zs (State.applySwitch s) := by
  unfold State.applySwitch
  extract_lets -merge +onlyGivenNames x1
  clear_value x1
  extract_lets -merge +onlyGivenNames x2
  clear_value x2
  extract_lets -merge +onlyGivenNames x3
  have h3 : Keeps ls zs x3 := by
    unfold x3
    refine State.unlockAll_keeps _ _ ?_
    refine State.switchAll_keeps _ _ _ _ _ ?_
    exact hk
  clear_value x3
  exact h3.lit rfl rfl rfl rfl rfl

theorem State.commitHere_keeps (s : State) (id : W32) (tsw : W64) (hk : Keeps ls zs s) : Keeps ls zs
    (State.commitHere s id tsw) := by
  unfold State.commitHere
  refine Keeps.ite (fun _ => ?_) (fun _ => ?_)
  · extract_lets -merge +onlyGivenNames x2 x1
    have h1 : Keeps ls zs x1 := by
      unfold x1
      exact hk.lit rfl rfl rfl rfl rfl
    try clear_value x1
    refine Keeps.ite (fun _ => ?_) (fun _ => ?_)
    · refine State.fault_keeps _ _ _ _ ?_
      refine State.applySwitch_keeps _ ?_
      exact h1.lit rfl rfl rfl rfl rfl
    · exact h1
  · exact hk

theorem State.abortHere_keeps (s : State) (id : W32) (hk : Keeps ls zs s) : Keeps ls zs (State.abortHere s id) := by
  unfold State.abortHere
  refine Keeps.ite (fun _ => ?_) (fun _ => ?_)
  · extract_lets -merge +onlyGivenNames x1
    have h1 : Keeps ls zs x1 := by
      unfold x1
      refine State.unlockAll_keeps _ _ ?_
      exact hk
    clear_value x1
    exact h1.lit rfl rfl rfl rfl rfl
  · exact hk

theorem State.releaseHere_keeps (s : State) (id : W32) (hk : Keeps ls zs s) : Keeps ls zs (State.releaseHere s id)
    := by
  unfold State.releaseHere
  refine Keeps.ite (fun _ => ?_) (fun _ => ?_)
  · extract_lets -merge +onlyGivenNames x1
    have h1 : Keeps ls zs x1 := by
      unfold x1
      refine Keeps.foldl ?_ _ _ ?_
      · intro x2 x3 h2
        refine State.modVersion_keeps _ _ _ _ _ ?_
        exact h2
      · exact hk
    clear_value x1
    exact h1.lit rfl rfl rfl rfl rfl
  · exact hk

theorem State.tryRelease_keeps (s : State) (hk : Keeps ls zs s) : Keeps ls zs (State.tryRelease s) := by
  unfold State.tryRelease
  split
  · exact hk
  · refine Keeps.ite (fun _ => ?_) (fun _ => ?_)
    · extract_lets -merge +onlyGivenNames x1
      have h1 : Keeps ls zs x1 := by
        unfold x1
        refine State.releaseHere_keeps _ _ ?_
        refine State.mgtAll_keeps _ _ _ _ ?_
        exact hk
      clear_value x1
      exact h1.lit rfl rfl rfl rfl rfl
    · exact hk

theorem State.addDrained_keeps (s : State) (src : Nat) (id : W32) (hk : Keeps ls zs s) : Keeps ls zs
    (State.addDrained s src id) := by
  unfold State.addDrained
  split
  · exact hk
  · refine Keeps.ite (fun _ => ?_) (fun _ => ?_)
    · refine State.tryRelease_keeps _ ?_
      exact hk.lit rfl rfl rfl rfl rfl
    · exact hk

theorem State.sendCommit_keeps (s : State) (m : MasterSwitch) (to_ : List Nat) (tsw : W64) (hk : Keeps ls zs s) :
    Keeps ls zs (State.sendCommit s m to_ tsw) := by
  unfold State.sendCommit
  extract_lets -merge +onlyGivenNames x1
  clear_value x1
  extract_lets -merge +onlyGivenNames x2
  have h2 : Keeps ls zs x2 := by
    unfold x2
    refine Keeps.foldl ?_ _ _ ?_
    · intro x3 x4 h3
      refine Keeps.ite (fun _ => ?_) (fun _ => ?_)
      · exact h3
      · refine State.sendOr_keeps _ _ ?_
        exact h3
    · exact hk
  clear_value x2
  extract_lets -merge +onlyGivenNames x5
  have h5 : Keeps ls zs x5 := by
    unfold x5
    exact h2.lit rfl rfl rfl rfl rfl
  try clear_value x5
  refine Keeps.ite (fun _ => ?_) (fun _ => ?_)
  · refine State.commitHere_keeps _ _ _ ?_
    exact h5
  · exact h5

theorem State.commitAll_keeps (s : State) (m : MasterSwitch) (hk : Keeps ls zs s) : Keeps ls zs (State.commitAll s
    m) := by
  unfold State.commitAll
  extract_lets -merge +onlyGivenNames x1
  clear_value x1
  extract_lets -merge +onlyGivenNames x2
  have h2 : Keeps ls zs x2 := by
    unfold x2
    refine State.sendCommit_keeps _ _ _ _ ?_
    exact hk
  clear_value x2
  split
  · refine State.finishCmd_keeps _ _ _ ?_
    exact h2
  · exact h2

theorem State.abortAll_keeps (s : State) (m : MasterSwitch) (status : Nat) (hk : Keeps ls zs s) : Keeps ls zs
    (State.abortAll s m status) := by
  unfold State.abortAll
  extract_lets -merge +onlyGivenNames x1
  have h1 : Keeps ls zs x1 := by
    unfold x1
    refine Keeps.ite (fun _ => ?_) (fun _ => ?_)
    · refine State.abortHere_keeps _ _ ?_
      refine State.mgtAll_keeps _ _ _ _ ?_
      exact hk
    · exact hk
  clear_value x1
  extract_lets -merge +onlyGivenNames x2
  have h2 : Keeps ls zs x2 := by
    unfold x2
    exact h1.lit rfl rfl rfl rfl rfl
  try clear_value x2
  split
  · refine State.finishCmd_keeps _ _ _ ?_
    exact h2
  · exact h2

theorem State.addPrepared_keeps (s : State) (src : Nat) (id : W32) (hk : Keeps ls zs s) : Keeps ls zs
    (State.addPrepared s src id) := by
  unfold State.addPrepared
  split
  · exact hk
  · refine Keeps.ite (fun _ => ?_) (fun _ => ?_)
    · extract_lets -merge +onlyGivenNames x1
      clear_value x1
      extract_lets -merge +onlyGivenNames x2
      have h2 : Keeps ls zs x2 := by
        unfold x2
        exact hk.lit rfl rfl rfl rfl rfl
      try clear_value x2
      refine Keeps.ite (fun _ => ?_) (fun _ => ?_)
      · refine State.commitAll_keeps _ _ ?_
        exact h2
      · exact h2
    · exact hk

theorem State.addRefused_keeps (s : State) (id : W32) (status : Nat) (hk : Keeps ls zs s) : Keeps ls zs
    (State.addRefused s id status) := by
  unfold State.addRefused
  split
  · exact hk
  · refine Keeps.ite (fun _ => ?_) (fun _ => ?_)
    · refine State.abortAll_keeps _ _ _ ?_
      exact hk
    · exact hk

theorem State.prepareOwn_keeps (s : State) (id : W32) (ps : List (Nat × Nat)) (durable : Bool) (hk : Keeps ls zs s)
    : Keeps ls zs (State.prepareOwn s id ps durable) := by
  unfold State.prepareOwn
  extract_lets -merge +onlyGivenNames x1
  clear_value x1
  refine Keeps.ite (fun _ => ?_) (fun _ => ?_)
  · refine State.addPrepared_keeps _ _ _ ?_
    refine State.lockPairs_keeps _ _ _ _ _ ?_
    exact hk
  · refine State.addRefused_keeps _ _ _ ?_
    exact hk

theorem State.beginSwitch_keeps (s : State) (cmd : Nat) (ps : List (Nat × Nat)) (durable : Bool) (lead : Nat) (hk :
    Keeps ls zs s) : Keeps ls zs (State.beginSwitch s cmd ps durable lead) := by
  unfold State.beginSwitch
  extract_lets -merge +onlyGivenNames x1
  clear_value x1
  extract_lets -merge +onlyGivenNames x2
  clear_value x2
  extract_lets -merge +onlyGivenNames x3
  clear_value x3
  refine State.prepareOwn_keeps _ _ _ _ ?_
  refine State.mgtAll_keeps _ _ _ _ ?_
  exact hk.lit rfl rfl rfl rfl rfl

theorem State.endQuery_keeps (s : State) (m : MasterSwitch) (hk : Keeps ls zs s) : Keeps ls zs (State.endQuery s m)
    := by
  unfold State.endQuery
  extract_lets -merge +onlyGivenNames x1
  clear_value x1
  extract_lets -merge +onlyGivenNames x2
  clear_value x2
  extract_lets -merge +onlyGivenNames x3
  clear_value x3
  extract_lets -merge +onlyGivenNames x4
  clear_value x4
  extract_lets -merge +onlyGivenNames x6 x5
  have h5 : Keeps ls zs x5 := by
    unfold x5
    exact hk.lit rfl rfl rfl rfl rfl
  try clear_value x5
  extract_lets -merge +onlyGivenNames x7
  clear_value x7
  refine Keeps.ite (fun _ => ?_) (fun _ => ?_)
  · refine State.sendCommit_keeps _ _ _ _ ?_
    exact h5
  · refine Keeps.ite (fun _ => ?_) (fun _ => ?_)
    · refine State.abortAll_keeps _ _ _ ?_
      exact h5
    · exact h5

theorem State.addState_keeps (s : State) (src : Nat) (v : Nat) (hk : Keeps ls zs s) : Keeps ls zs (State.addState s
    src v) := by
  unfold State.addState
  split
  · exact hk
  · refine Keeps.ite (fun _ => ?_) (fun _ => ?_)
    · extract_lets -merge +onlyGivenNames x1
      clear_value x1
      extract_lets -merge +onlyGivenNames x2
      have h2 : Keeps ls zs x2 := by
        unfold x2
        exact hk.lit rfl rfl rfl rfl rfl
      try clear_value x2
      refine Keeps.ite (fun _ => ?_) (fun _ => ?_)
      · refine State.endQuery_keeps _ _ ?_
        exact h2
      · exact h2
    · exact hk

theorem State.onPrepare_keeps (s : State) (m : Bytes) (hk : Keeps ls zs s) : Keeps ls zs (State.onPrepare s m) := by
  unfold State.onPrepare
  extract_lets -merge +onlyGivenNames x1
  clear_value x1
  extract_lets -merge +onlyGivenNames x2
  clear_value x2
  extract_lets -merge +onlyGivenNames x3
  clear_value x3
  extract_lets -merge +onlyGivenNames x4
  clear_value x4
  refine Keeps.ite (fun _ => ?_) (fun _ => ?_)
  · refine State.sendOr_keeps _ _ ?_
    refine State.lockPairs_keeps _ _ _ _ _ ?_
    exact hk
  · refine State.sendOr_keeps _ _ ?_
    exact hk

theorem execPrepare_keeps (port : Nat) (msg : Bytes) (s : State) (hk : Keeps ls zs s) : KeepsR ls zs (execPrepare
    port msg s) := by
  unfold execPrepare
  refine KeepsR.next ?_
  refine State.receive_keeps _ _ _ _ _ ?_ ?_
  · exact hk
  · intro x1 h1
    refine State.onPrepare_keeps _ _ ?_
    exact h1

theorem execPrepared_keeps (port : Nat) (msg : Bytes) (s : State) (hk : Keeps ls zs s) : KeepsR ls zs (execPrepared
    port msg s) := by
  unfold execPrepared
  refine KeepsR.next ?_
  refine State.receive_keeps _ _ _ _ _ ?_ ?_
  · exact hk
  · intro x1 h1
    refine State.addPrepared_keeps _ _ _ ?_
    exact h1

theorem execRefusedMsg_keeps (port : Nat) (msg : Bytes) (s : State) (hk : Keeps ls zs s) : KeepsR ls zs
    (execRefusedMsg port msg s) := by
  unfold execRefusedMsg
  refine KeepsR.next ?_
  refine State.receive_keeps _ _ _ _ _ ?_ ?_
  · exact hk
  · intro x1 h1
    refine State.addRefused_keeps _ _ _ ?_
    exact h1

theorem execCommit_keeps (port : Nat) (msg : Bytes) (s : State) (hk : Keeps ls zs s) : KeepsR ls zs (execCommit port
    msg s) := by
  unfold execCommit
  refine KeepsR.next ?_
  refine State.receive_keeps _ _ _ _ _ ?_ ?_
  · exact hk
  · intro x1 h1
    refine State.commitHere_keeps _ _ _ ?_
    exact h1

theorem execAbort_keeps (port : Nat) (msg : Bytes) (s : State) (hk : Keeps ls zs s) : KeepsR ls zs (execAbort port
    msg s) := by
  unfold execAbort
  refine KeepsR.next ?_
  refine State.receive_keeps _ _ _ _ _ ?_ ?_
  · exact hk
  · intro x1 h1
    refine State.abortHere_keeps _ _ ?_
    exact h1

theorem execDrained_keeps (port : Nat) (msg : Bytes) (s : State) (hk : Keeps ls zs s) : KeepsR ls zs (execDrained
    port msg s) := by
  unfold execDrained
  refine KeepsR.next ?_
  refine State.receive_keeps _ _ _ _ _ ?_ ?_
  · exact hk
  · intro x1 h1
    refine State.addDrained_keeps _ _ _ ?_
    exact h1

theorem execRelease_keeps (port : Nat) (msg : Bytes) (s : State) (hk : Keeps ls zs s) : KeepsR ls zs (execRelease
    port msg s) := by
  unfold execRelease
  refine KeepsR.next ?_
  refine State.receive_keeps _ _ _ _ _ ?_ ?_
  · exact hk
  · intro x1 h1
    refine State.releaseHere_keeps _ _ ?_
    exact h1

theorem execSwQuery_keeps (port : Nat) (msg : Bytes) (s : State) (hk : Keeps ls zs s) : KeepsR ls zs (execSwQuery
    port msg s) := by
  unfold execSwQuery
  refine KeepsR.next ?_
  refine State.receive_keeps _ _ _ _ _ ?_ ?_
  · exact hk
  · intro x1 h1
    refine State.sendOr_keeps _ _ ?_
    exact h1

theorem execSwState_keeps (port : Nat) (msg : Bytes) (s : State) (hk : Keeps ls zs s) : KeepsR ls zs (execSwState
    port msg s) := by
  unfold execSwState
  refine KeepsR.next ?_
  refine State.receive_keeps _ _ _ _ _ ?_ ?_
  · exact hk
  · intro x1 h1
    refine State.addState_keeps _ _ _ ?_
    exact h1

theorem execSwQueryTimeout_keeps (s : State) (hk : Keeps ls zs s) : KeepsR ls zs (execSwQueryTimeout s) := by
  unfold execSwQueryTimeout
  refine KeepsR.next ?_
  split
  · refine Keeps.ite (fun _ => ?_) (fun _ => ?_)
    · refine State.endQuery_keeps _ _ ?_
      exact hk
    · exact hk
  · exact hk

theorem execWarrenSwitchApply_keeps (s : State) (hk : Keeps ls zs s) : KeepsR ls zs (execWarrenSwitchApply s) := by
  unfold execWarrenSwitchApply
  refine KeepsR.next ?_
  refine Keeps.ite (fun _ => ?_) (fun _ => ?_)
  · refine State.applySwitch_keeps _ ?_
    exact hk
  · exact hk

theorem execDrainedSend_keeps (s : State) (hk : Keeps ls zs s) : KeepsR ls zs (execDrainedSend s) := by
  unfold execDrainedSend
  refine KeepsR.next ?_
  refine Keeps.ite (fun _ => ?_) (fun _ => ?_)
  · extract_lets -merge +onlyGivenNames x2 x1
    have h1 : Keeps ls zs x1 := by
      unfold x1
      exact hk.lit rfl rfl rfl rfl rfl
    try clear_value x1
    refine Keeps.ite (fun _ => ?_) (fun _ => ?_)
    · refine State.addDrained_keeps _ _ _ ?_
      exact h1
    · refine State.sendOr_keeps _ _ ?_
      exact h1
  · exact hk

theorem execWarrenPrepareTimeout_keeps (s : State) (hk : Keeps ls zs s) : KeepsR ls zs (execWarrenPrepareTimeout s)
    := by
  unfold execWarrenPrepareTimeout
  refine KeepsR.next ?_
  split
  · refine Keeps.ite (fun _ => ?_) (fun _ => ?_)
    · refine State.abortAll_keeps _ _ _ ?_
      exact hk
    · exact hk
  · exact hk

/-! ### Fabric -/

theorem State.syncTime_keeps (s : State) (m16 : Nat) (hk : Keeps ls zs s) : Keeps ls zs (State.syncTime s m16) := by
  unfold State.syncTime
  extract_lets -merge +onlyGivenNames x1
  clear_value x1
  extract_lets -merge +onlyGivenNames x2
  clear_value x2
  extract_lets -merge +onlyGivenNames x3
  clear_value x3
  extract_lets -merge +onlyGivenNames x4
  clear_value x4
  extract_lets -merge +onlyGivenNames x5
  clear_value x5
  refine Keeps.ite (fun _ => ?_) (fun _ => ?_)
  · exact hk.lit rfl rfl rfl rfl rfl
  · exact hk.lit rfl rfl rfl rfl rfl

theorem State.onHeartbeat_keeps (s : State) (m : Bytes) (hk : Keeps ls zs s) : Keeps ls zs (State.onHeartbeat s m)
    := by
  unfold State.onHeartbeat
  extract_lets -merge +onlyGivenNames x1
  clear_value x1
  extract_lets -merge +onlyGivenNames x2
  clear_value x2
  refine Keeps.ite (fun _ => ?_) (fun _ => ?_)
  · exact hk
  · extract_lets -merge +onlyGivenNames x3
    have h3 : Keeps ls zs x3 := by
      unfold x3
      exact hk.lit rfl rfl rfl rfl rfl
    try clear_value x3
    refine State.syncTime_keeps _ _ ?_
    exact h3

theorem execHeartbeat_keeps (port : Nat) (msg : Bytes) (s : State) (hk : Keeps ls zs s) : KeepsR ls zs
    (execHeartbeat port msg s) := by
  unfold execHeartbeat
  refine KeepsR.next ?_
  refine State.receive_keeps _ _ _ _ _ ?_ ?_
  · exact hk
  · intro x1 h1
    refine State.onHeartbeat_keeps _ _ ?_
    exact h1

theorem execHeartbeatTick_keeps (s : State) (hk : Keeps ls zs s) : KeepsR ls zs (execHeartbeatTick s) := by
  unfold execHeartbeatTick
  refine KeepsR.next ?_
  refine Keeps.ite (fun _ => ?_) (fun _ => ?_)
  · refine State.mgtAll_keeps _ _ _ _ ?_
    exact hk
  · exact hk

theorem execWarrenHoldEntry_keeps (s : State) (hk : Keeps ls zs s) : KeepsR ls zs (execWarrenHoldEntry s) := by
  unfold execWarrenHoldEntry
  refine KeepsR.next ?_
  refine Keeps.ite (fun _ => ?_) (fun _ => ?_)
  · exact hk.lit rfl rfl rfl rfl rfl
  · exact hk

theorem State.takeMaster_keeps (s : State) (src : Nat) (e : W32) (hk : Keeps ls zs s) : Keeps ls zs
    (State.takeMaster s src e) := by
  unfold State.takeMaster
  extract_lets -merge +onlyGivenNames x1
  clear_value x1
  extract_lets -merge +onlyGivenNames x2
  clear_value x2
  extract_lets -merge +onlyGivenNames x4 x3
  have h3 : Keeps ls zs x3 := by
    unfold x3
    exact hk.lit rfl rfl rfl rfl rfl
  try clear_value x3
  refine Keeps.ite (fun _ => ?_) (fun _ => ?_)
  · extract_lets -merge +onlyGivenNames x5
    have h5 : Keeps ls zs x5 := by
      unfold x5
      split
      · refine Keeps.ite (fun _ => ?_) (fun _ => ?_)
        · exact h3
        · exact h3.lit rfl rfl rfl rfl rfl
      · exact h3
    clear_value x5
    refine State.fault_keeps _ _ _ _ ?_
    exact h5
  · exact h3

theorem execClaim_keeps (port : Nat) (msg : Bytes) (s : State) (hk : Keeps ls zs s) : KeepsR ls zs (execClaim port
    msg s) := by
  unfold execClaim
  refine KeepsR.next ?_
  refine State.receive_keeps _ _ _ _ _ ?_ ?_
  · exact hk
  · intro x1 h1
    extract_lets -merge +onlyGivenNames x2
    clear_value x2
    refine Keeps.ite (fun _ => ?_) (fun _ => ?_)
    · refine State.takeMaster_keeps _ _ _ ?_
      exact h1
    · exact h1

theorem execHushNote_keeps (port : Nat) (msg : Bytes) (s : State) (hk : Keeps ls zs s) : KeepsR ls zs (execHushNote
    port msg s) := by
  unfold execHushNote
  refine KeepsR.next ?_
  refine State.receive_keeps _ _ _ _ _ ?_ ?_
  · exact hk
  · intro x1 h1
    exact h1.lit rfl rfl rfl rfl rfl

theorem execWakeNote_keeps (port : Nat) (msg : Bytes) (s : State) (hk : Keeps ls zs s) : KeepsR ls zs (execWakeNote
    port msg s) := by
  unfold execWakeNote
  refine KeepsR.next ?_
  refine State.receive_keeps _ _ _ _ _ ?_ ?_
  · exact hk
  · intro x1 h1
    exact h1.lit rfl rfl rfl rfl rfl

theorem execSurveyQ_keeps (port : Nat) (msg : Bytes) (s : State) (hk : Keeps ls zs s) : KeepsR ls zs (execSurveyQ
    port msg s) := by
  unfold execSurveyQ
  refine KeepsR.next ?_
  refine State.receive_keeps _ _ _ _ _ ?_ ?_
  · exact hk
  · intro x1 h1
    refine State.sendOr_keeps _ _ ?_
    exact h1

theorem execSurveyR_keeps (port : Nat) (msg : Bytes) (s : State) (hk : Keeps ls zs s) : KeepsR ls zs (execSurveyR
    port msg s) := by
  unfold execSurveyR
  refine KeepsR.next ?_
  refine State.receive_keeps _ _ _ _ _ ?_ ?_
  · exact hk
  · intro x1 h1
    split
    · exact h1.lit rfl rfl rfl rfl rfl
    · exact h1

theorem State.endStored_keeps (s : State) (id : Nat) (res : Bytes) (hk : Keeps ls zs s) : Keeps ls zs
    (State.endStored s id res) := by
  unfold State.endStored
  split
  · exact hk
  · refine Keeps.ite (fun _ => ?_) (fun _ => ?_)
    · split
      · refine State.finishCmd_keeps _ _ _ ?_
        exact hk
      · refine State.finishCmd_keeps _ _ _ ?_
        exact hk
    · refine State.modCmd_keeps _ _ _ ?_
      exact hk

theorem State.endSurvey_keeps (s : State) (v : Survey) (hk : Keeps ls zs s) : Keeps ls zs (State.endSurvey s v) :=
    by
  unfold State.endSurvey
  extract_lets -merge +onlyGivenNames x2 x1
  have h1 : Keeps ls zs x1 := by
    unfold x1
    exact hk.lit rfl rfl rfl rfl rfl
  try clear_value x1
  split
  · exact h1
  · refine Keeps.ite (fun _ => ?_) (fun _ => ?_)
    · refine State.finishCmd_keeps _ _ _ ?_
      exact h1
    · extract_lets -merge +onlyGivenNames x3
      clear_value x3
      refine State.endStored_keeps _ _ _ ?_
      refine State.store_keeps _ _ _ _ _ ?_
      exact h1

theorem execSurveyTimeout_keeps (s : State) (hk : Keeps ls zs s) : KeepsR ls zs (execSurveyTimeout s) := by
  unfold execSurveyTimeout
  refine KeepsR.next ?_
  split
  · refine Keeps.ite (fun _ => ?_) (fun _ => ?_)
    · refine State.endSurvey_keeps _ _ ?_
      exact hk
    · exact hk
  · exact hk

/-! ### Remote -/

theorem State.putQuill_keeps (s : State) (t : Nat) (c : Nat) (q : Quill) (hk : Keeps ls zs s) : Keeps ls zs
    (State.putQuill s t c q) := by
  unfold State.putQuill
  split
  · refine State.fault_keeps _ _ _ _ ?_
    exact hk
  · refine Keeps.ite (fun _ => ?_) (fun _ => ?_)
    · refine State.fault_keeps _ _ _ _ ?_
      exact hk
    · split
      · refine State.modTile_keeps _ _ _ ?_
        exact hk
      · refine State.tileFault_keeps _ _ _ _ _ _ _ ?_
        exact hk

theorem State.remoteQuill_keeps (s : State) (d : Nat) (t : Nat) (c : Nat) (q : Quill) (hk : Keeps ls zs s) : Keeps
    ls zs (State.remoteQuill s d t c q) := by
  unfold State.remoteQuill
  split
  · refine Keeps.ite (fun _ => ?_) (fun _ => ?_)
    · refine State.putQuill_keeps _ _ _ _ ?_
      exact hk
    · refine State.fault_keeps _ _ _ _ ?_
      exact hk
  · refine State.fault_keeps _ _ _ _ ?_
    exact hk

theorem execQuill_keeps (port : Nat) (msg : Bytes) (s : State) (hk : Keeps ls zs s) : KeepsR ls zs (execQuill port
    msg s) := by
  unfold execQuill
  refine KeepsR.next ?_
  refine State.receive_keeps _ _ _ _ _ ?_ ?_
  · exact hk
  · intro x1 h1
    refine Keeps.ite (fun _ => ?_) (fun _ => ?_)
    · exact h1
    · refine State.remoteQuill_keeps _ _ _ _ _ ?_
      exact h1

theorem State.respond_keeps (s : State) (m : Bytes) (ty : Nat) (status : Nat) (fields : Bytes) (data : Bytes) (hk :
    Keeps ls zs s) : Keeps ls zs (State.respond s m ty status fields data) := by
  unfold State.respond
  refine State.sendOr_keeps _ _ ?_
  exact hk

theorem State.throughHoard_keeps (s : State) (d : Nat) (a : Nat) (n : Nat) (write : Bool) (hk : Keeps ls zs s) :
    Keeps ls zs (State.throughHoard s d a n write) := by
  unfold State.throughHoard
  split
  · rename_i e1
    have h1 := KeepsO.of (ls := ls) (zs := zs) e1 (by
      refine State.touchLines_keeps _ _ _ _ _ _ ?_
      exact hk)
    exact h1
  · exact hk

theorem State.ownerRow_keeps (s : State) (d : Nat) (t : Table) (v : Nat) (row : Nat) (hk : Keeps ls zs s) : KeepsOQ
    ls zs (State.ownerRow s d t v row) := by
  unfold State.ownerRow
  split
  · refine KeepsOQ.some ?_
    refine KeepsQ.mk ?_
    refine KeepsP.mk ?_
    exact hk
  · refine KeepsOQ.ite (fun _ => ?_) (fun _ => ?_)
    · extract_lets -merge +onlyGivenNames x1
      have h1 : Keeps ls zs x1 := by
        unfold x1
        refine State.throughHoard_keeps _ _ _ _ _ ?_
        exact hk
      clear_value x1
      refine KeepsOQ.some ?_
      refine KeepsQ.mk ?_
      refine KeepsP.mk ?_
      exact h1
    · exact KeepsOQ.none

theorem State.serveRow_keeps (s : State) (m : Bytes) (hk : Keeps ls zs s) : Keeps ls zs (State.serveRow s m) := by
  unfold State.serveRow
  extract_lets -merge +onlyGivenNames x1
  clear_value x1
  extract_lets -merge +onlyGivenNames x2
  clear_value x2
  extract_lets -merge +onlyGivenNames x3
  clear_value x3
  extract_lets -merge +onlyGivenNames x4
  clear_value x4
  extract_lets -merge +onlyGivenNames x5
  clear_value x5
  refine Keeps.ite (fun _ => ?_) (fun _ => ?_)
  · refine State.respond_keeps _ _ _ _ _ _ ?_
    exact hk
  · split
    · refine State.respond_keeps _ _ _ _ _ _ ?_
      exact hk
    · rename_i e6
      have h6 := KeepsOQ.of (ls := ls) (zs := zs) e6 (by
        refine State.ownerRow_keeps _ _ _ _ _ ?_
        exact hk)
      refine State.respond_keeps _ _ _ _ _ _ ?_
      exact h6

theorem execRowRead_keeps (port : Nat) (msg : Bytes) (s : State) (hk : Keeps ls zs s) : KeepsR ls zs (execRowRead
    port msg s) := by
  unfold execRowRead
  refine KeepsR.next ?_
  refine State.receive_keeps _ _ _ _ _ ?_ ?_
  · exact hk
  · intro x1 h1
    refine State.serveRow_keeps _ _ ?_
    exact h1

theorem State.frees32_keeps (s : State) (n : Nat) (hk : Keeps ls zs s) : KeepsP ls zs (State.frees32 s n) := by
  induction n generalizing s with
  | zero => exact hk
  | succ k ih =>
    rw [State.frees32]
    exact ih _ (State.free_keeps _ _ hk)

theorem State.ownerRows_keeps (s : State) (d : Nat) (t : Table) (v : Nat) (rows : List (Nat × W32)) (hk : Keeps ls
    zs s) : KeepsOQ ls zs (State.ownerRows s d t v rows) := by
  induction rows generalizing s with
  | nil => exact KeepsOQ.some hk
  | cons p l ih =>
    obtain ⟨r, w⟩ := p
    rw [State.ownerRows]
    split
    · exact KeepsOQ.none
    next e =>
      have h1 := (State.ownerRow_keeps _ _ _ _ _ hk).of e
      split
      · exact KeepsOQ.none
      next e2 => exact KeepsOQ.some (KeepsOQ.of e2 (ih _ h1))

theorem State.contribute_keeps (s : State) (m : Bytes) (status : Nat) (rows : Nat) (v : List W32) (hk : Keeps ls zs
    s) : Keeps ls zs (State.contribute s m status rows v) := by
  unfold State.contribute
  extract_lets -merge +onlyGivenNames x1
  clear_value x1
  extract_lets -merge +onlyGivenNames x2
  clear_value x2
  refine Keeps.foldl ?_ _ _ ?_
  · intro x3 x4 h3
    extract_lets -merge +onlyGivenNames x5
    clear_value x5
    refine State.respond_keeps _ _ _ _ _ _ ?_
    exact h3
  · exact hk

theorem State.noContrib_keeps (s : State) (m : Bytes) (status : Nat) (hk : Keeps ls zs s) : Keeps ls zs
    (State.noContrib s m status) := by
  unfold State.noContrib
  refine State.respond_keeps _ _ _ _ _ _ ?_
  exact hk

theorem State.divide_keeps (s : State) (div : Bool) (n : Nat) (v : List W32) (hk : Keeps ls zs s) : KeepsP ls zs
    (State.divide s div n v) := by
  unfold State.divide
  refine KeepsP.ite (fun _ => ?_) (fun _ => ?_)
  · refine KeepsP.mk ?_
    exact hk
  · refine KeepsP.ite (fun _ => ?_) (fun _ => ?_)
    · refine State.frees32_keeps _ _ ?_
      exact hk
    · refine KeepsP.mk ?_
      exact hk

theorem State.servePool_keeps (s : State) (m : Bytes) (hk : Keeps ls zs s) : Keeps ls zs (State.servePool s m) := by
  unfold State.servePool
  extract_lets -merge +onlyGivenNames x1
  clear_value x1
  extract_lets -merge +onlyGivenNames x2
  clear_value x2
  extract_lets -merge +onlyGivenNames x3
  clear_value x3
  extract_lets -merge +onlyGivenNames x4
  clear_value x4
  extract_lets -merge +onlyGivenNames x5
  clear_value x5
  refine Keeps.ite (fun _ => ?_) (fun _ => ?_)
  · refine State.noContrib_keeps _ _ _ ?_
    exact hk
  · split
    · refine State.noContrib_keeps _ _ _ ?_
      exact hk
    · rename_i e6
      have h6 := KeepsOQ.of (ls := ls) (zs := zs) e6 (by
        refine State.ownerRows_keeps _ _ _ _ _ ?_
        exact hk)
      extract_lets -merge +onlyGivenNames x7
      have h7 : KeepsP ls zs x7 := by
        unfold x7
        refine State.divide_keeps _ _ _ _ ?_
        exact h6
      clear_value x7
      refine State.contribute_keeps _ _ _ _ _ ?_
      exact h7

theorem execPoolReq_keeps (port : Nat) (msg : Bytes) (s : State) (hk : Keeps ls zs s) : KeepsR ls zs (execPoolReq
    port msg s) := by
  unfold execPoolReq
  refine KeepsR.next ?_
  refine Keeps.ite (fun _ => ?_) (fun _ => ?_)
  · refine State.receive_keeps _ _ _ _ _ ?_ ?_
    · exact hk
    · intro x1 h1
      refine State.servePool_keeps _ _ ?_
      exact h1
  · refine Keeps.ite (fun _ => ?_) (fun _ => ?_)
    · refine State.count_keeps _ _ _ _ ?_
      exact hk
    · exact hk

theorem State.serveRead_keeps (s : State) (m : Bytes) (hk : Keeps ls zs s) : Keeps ls zs (State.serveRead s m) := by
  unfold State.serveRead
  extract_lets -merge +onlyGivenNames x1
  clear_value x1
  extract_lets -merge +onlyGivenNames x2
  clear_value x2
  extract_lets -merge +onlyGivenNames x3
  clear_value x3
  refine Keeps.ite (fun _ => ?_) (fun _ => ?_)
  · refine State.respond_keeps _ _ _ _ _ _ ?_
    exact hk
  · extract_lets -merge +onlyGivenNames x4
    have h4 : Keeps ls zs x4 := by
      unfold x4
      refine State.throughHoard_keeps _ _ _ _ _ ?_
      exact hk
    clear_value x4
    refine State.respond_keeps _ _ _ _ _ _ ?_
    exact h4

theorem execBulkRd_keeps (port : Nat) (msg : Bytes) (s : State) (hk : Keeps ls zs s) : KeepsR ls zs (execBulkRd port
    msg s) := by
  unfold execBulkRd
  refine KeepsR.next ?_
  refine State.receive_keeps _ _ _ _ _ ?_ ?_
  · exact hk
  · intro x1 h1
    refine State.serveRead_keeps _ _ ?_
    exact h1

theorem State.serveWrite_keeps (s : State) (m : Bytes) (hk : Keeps ls zs s) : Keeps ls zs (State.serveWrite s m) :=
    by
  unfold State.serveWrite
  extract_lets -merge +onlyGivenNames x1
  clear_value x1
  extract_lets -merge +onlyGivenNames x2
  clear_value x2
  extract_lets -merge +onlyGivenNames x3
  clear_value x3
  refine Keeps.ite (fun _ => ?_) (fun _ => ?_)
  · refine State.respond_keeps _ _ _ _ _ _ ?_
    exact hk
  · refine State.respond_keeps _ _ _ _ _ _ ?_
    refine State.devWrite_keeps _ _ _ ?_
    refine State.throughHoard_keeps _ _ _ _ _ ?_
    exact hk

theorem execBulkWr_keeps (port : Nat) (msg : Bytes) (s : State) (hk : Keeps ls zs s) : KeepsR ls zs (execBulkWr port
    msg s) := by
  unfold execBulkWr
  refine KeepsR.next ?_
  refine State.receive_keeps _ _ _ _ _ ?_ ?_
  · exact hk
  · intro x1 h1
    refine State.serveWrite_keeps _ _ ?_
    exact h1

theorem State.serveAtomic_keeps (s : State) (m : Bytes) (hk : Keeps ls zs s) : Keeps ls zs (State.serveAtomic s m)
    := by
  unfold State.serveAtomic
  extract_lets -merge +onlyGivenNames x1
  clear_value x1
  extract_lets -merge +onlyGivenNames x2
  clear_value x2
  extract_lets -merge +onlyGivenNames x3
  clear_value x3
  extract_lets -merge +onlyGivenNames x4
  clear_value x4
  extract_lets -merge +onlyGivenNames x5
  clear_value x5
  extract_lets -merge +onlyGivenNames x6
  clear_value x6
  extract_lets -merge +onlyGivenNames x7
  clear_value x7
  refine Keeps.ite (fun _ => ?_) (fun _ => ?_)
  · refine State.respond_keeps _ _ _ _ _ _ ?_
    exact hk
  · refine Keeps.ite (fun _ => ?_) (fun _ => ?_)
    · refine State.respond_keeps _ _ _ _ _ _ ?_
      exact hk
    · extract_lets -merge +onlyGivenNames x8
      have h8 : Keeps ls zs x8 := by
        unfold x8
        refine State.throughHoard_keeps _ _ _ _ _ ?_
        exact hk
      clear_value x8
      refine Keeps.ite (fun _ => ?_) (fun _ => ?_)
      · refine State.respond_keeps _ _ _ _ _ _ ?_
        exact h8
      · extract_lets -merge +onlyGivenNames x9
        clear_value x9
        refine State.respond_keeps _ _ _ _ _ _ ?_
        refine State.count_keeps _ _ _ _ ?_
        refine State.devWrite_keeps _ _ _ ?_
        exact h8

theorem execAtomic_keeps (port : Nat) (msg : Bytes) (s : State) (hk : Keeps ls zs s) : KeepsR ls zs (execAtomic port
    msg s) := by
  unfold execAtomic
  refine KeepsR.next ?_
  refine State.receive_keeps _ _ _ _ _ ?_ ?_
  · exact hk
  · intro x1 h1
    refine State.serveAtomic_keeps _ _ ?_
    exact h1

theorem State.endXact_keeps (s : State) (x : Xact) (hk : Keeps ls zs s) : Keeps ls zs (State.endXact s x) := by
  unfold State.endXact
  exact hk.lit rfl rfl rfl rfl rfl

theorem State.lateAnswer_keeps (s : State) (hk : Keeps ls zs s) : Keeps ls zs (State.lateAnswer s) := by
  unfold State.lateAnswer
  refine State.fault_keeps _ _ _ _ ?_
  exact hk

theorem State.dropRows_keeps (s : State) (x : Xact) (n : Nat) (hk : Keeps ls zs s) : Keeps ls zs (State.dropRows s x
    n) := by
  unfold State.dropRows
  refine State.count_keeps _ _ _ _ ?_
  exact hk

theorem State.countArrived_keeps (s : State) (x : Xact) (hk : Keeps ls zs s) : Keeps ls zs (State.countArrived s x)
    := by
  unfold State.countArrived
  extract_lets -merge +onlyGivenNames x1
  clear_value x1
  exact hk.lit rfl rfl rfl rfl rfl

theorem State.failXact_keeps (s : State) (x : Xact) (st : Nat) (hk : Keeps ls zs s) : Keeps ls zs (State.failXact s
    x st) := by
  unfold State.failXact
  extract_lets -merge +onlyGivenNames x1
  clear_value x1
  split
  · refine Keeps.ite (fun _ => ?_) (fun _ => ?_)
    · refine State.finishBags_keeps _ _ ?_
      refine State.dropRows_keeps _ _ _ ?_
      refine State.xactFailed_keeps _ ?_
      exact hk
    · refine State.failLookup_keeps _ _ ?_
      exact hk
  · refine Keeps.ite (fun _ => ?_) (fun _ => ?_)
    · extract_lets -merge +onlyGivenNames x2
      have h2 : Keeps ls zs x2 := by
        unfold x2
        refine State.dropRows_keeps _ _ _ ?_
        refine State.xactFailed_keeps _ ?_
        exact hk
      clear_value x2
      extract_lets -merge +onlyGivenNames x3
      have h3 : Keeps ls zs x3 := by
        unfold x3
        refine State.countArrived_keeps _ _ ?_
        exact h2
      clear_value x3
      refine State.finishBags_keeps _ _ ?_
      refine State.closeBag_keeps _ _ _ _ _ ?_
      exact h3
    · refine State.failLookup_keeps _ _ ?_
      exact hk
  · refine State.modTile_keeps _ _ _ ?_
    refine State.xactFailed_keeps _ ?_
    exact hk
  · refine State.modTile_keeps _ _ _ ?_
    refine State.xactFailed_keeps _ ?_
    exact hk
  · refine State.partTake_keeps _ _ _ ?_
    refine State.xactFailed_keeps _ ?_
    exact hk
  · refine State.modCmd_keeps _ _ _ ?_
    refine State.xactFailed_keeps _ ?_
    exact hk

theorem State.takeAnswer_keeps (s : State) (m : Bytes) (good : State → Xact → Bool → State) (hk : Keeps ls zs s) (hf
    : ∀ (y0 : State) (y1 : Xact) (y2 : Bool), Keeps ls zs y0 → Keeps ls zs (good y0 y1 y2)) : Keeps ls zs
    (State.takeAnswer s m good) := by
  unfold State.takeAnswer
  split
  · refine State.lateAnswer_keeps _ ?_
    exact hk
  · extract_lets -merge +onlyGivenNames x1
    have h1 : Keeps ls zs x1 := by
      unfold x1
      refine State.endXact_keeps _ _ ?_
      exact hk
    clear_value x1
    refine Keeps.ite (fun _ => ?_) (fun _ => ?_)
    · refine hf _ _ _ ?_
      exact h1
    · refine Keeps.ite (fun _ => ?_) (fun _ => ?_)
      · refine hf _ _ _ ?_
        refine State.xactFailed_keeps _ ?_
        exact h1
      · refine State.failXact_keeps _ _ _ ?_
        exact h1

theorem execRowData_keeps (port : Nat) (msg : Bytes) (s : State) (hk : Keeps ls zs s) : KeepsR ls zs (execRowData
    port msg s) := by
  unfold execRowData
  refine KeepsR.next ?_
  refine State.receive_keeps _ _ _ _ _ ?_ ?_
  · exact hk
  · intro x1 h1
    refine State.takeAnswer_keeps _ _ _ ?_ ?_
    · exact h1
    · intro x2 x3 x4 h2
      split
      · refine State.takeRow_keeps _ _ _ _ _ _ ?_
        exact h2
      · exact h2

theorem State.takeBulk_keeps (s : State) (x : Xact) (b : Bytes) (bad : Bool) (hk : Keeps ls zs s) : Keeps ls zs
    (State.takeBulk s x b bad) := by
  unfold State.takeBulk
  split
  · refine State.modTile_keeps _ _ _ ?_
    exact hk
  · refine State.modTile_keeps _ _ _ ?_
    exact hk
  · refine Keeps.ite (fun _ => ?_) (fun _ => ?_)
    · refine State.partTake_keeps _ _ _ ?_
      exact hk
    · extract_lets -merge +onlyGivenNames x1
      clear_value x1
      extract_lets -merge +onlyGivenNames x2
      have h2 : Keeps ls zs x2 := by
        unfold x2
        refine State.partTake_keeps _ _ _ ?_
        exact hk
      clear_value x2
      refine Keeps.ite (fun _ => ?_) (fun _ => ?_)
      · exact h2
      · refine State.partAsk_keeps _ _ _ _ _ _ _ ?_
        exact h2
  · exact hk
  · exact hk
  · exact hk

theorem execBulkData_keeps (port : Nat) (msg : Bytes) (s : State) (hk : Keeps ls zs s) : KeepsR ls zs (execBulkData
    port msg s) := by
  unfold execBulkData
  refine KeepsR.next ?_
  refine State.receive_keeps _ _ _ _ _ ?_ ?_
  · exact hk
  · intro x1 h1
    refine State.takeAnswer_keeps _ _ _ ?_ ?_
    · exact h1
    · intro x2 x3 x4 h2
      refine State.takeBulk_keeps _ _ _ _ ?_
      exact h2

theorem State.takeAck_keeps (s : State) (x : Xact) (hk : Keeps ls zs s) : Keeps ls zs (State.takeAck s x) := by
  unfold State.takeAck
  split
  · refine State.modTile_keeps _ _ _ ?_
    exact hk
  · refine State.modTile_keeps _ _ _ ?_
    exact hk
  · refine State.partSend_keeps _ _ _ _ _ _ ?_
    exact hk
  · exact hk
  · exact hk
  · exact hk

theorem execWriteAck_keeps (port : Nat) (msg : Bytes) (s : State) (hk : Keeps ls zs s) : KeepsR ls zs (execWriteAck
    port msg s) := by
  unfold execWriteAck
  refine KeepsR.next ?_
  refine State.receive_keeps _ _ _ _ _ ?_ ?_
  · exact hk
  · intro x1 h1
    refine State.takeAnswer_keeps _ _ _ ?_ ?_
    · exact h1
    · intro x2 x3 x4 h2
      refine State.takeAck_keeps _ _ ?_
      exact h2

theorem execAtomicRsp_keeps (port : Nat) (msg : Bytes) (s : State) (hk : Keeps ls zs s) : KeepsR ls zs
    (execAtomicRsp port msg s) := by
  unfold execAtomicRsp
  refine KeepsR.next ?_
  refine State.receive_keeps _ _ _ _ _ ?_ ?_
  · exact hk
  · intro x1 h1
    refine State.takeAnswer_keeps _ _ _ ?_ ?_
    · exact h1
    · intro x2 x3 x4 h2
      split
      · refine State.modTile_keeps _ _ _ ?_
        exact h2
      · exact h2

theorem State.applyContrib_keeps (s : State) (x : Xact) (rows : Nat) (bad : Bool) (hk : Keeps ls zs s) : Keeps ls zs
    (State.applyContrib s x rows bad) := by
  unfold State.applyContrib
  split
  · extract_lets -merge +onlyGivenNames x1
    have h1 : Keeps ls zs x1 := by
      unfold x1
      refine State.endXact_keeps _ _ ?_
      exact hk
    clear_value x1
    extract_lets -merge +onlyGivenNames x2
    have h2 : Keeps ls zs x2 := by
      unfold x2
      refine State.countArrived_keeps _ _ ?_
      exact h1
    clear_value x2
    split
    · exact h2
    · extract_lets -merge +onlyGivenNames x3
      clear_value x3
      refine State.addPart_keeps _ _ _ _ _ _ ?_
      exact h2
  · exact hk

theorem State.takePiece_keeps (s : State) (x : Xact) (m : Bytes) (bad : Bool) (hk : Keeps ls zs s) : Keeps ls zs
    (State.takePiece s x m bad) := by
  unfold State.takePiece
  extract_lets -merge +onlyGivenNames x1
  clear_value x1
  refine Keeps.ite (fun _ => ?_) (fun _ => ?_)
  · refine State.applyContrib_keeps _ _ _ _ ?_
    exact hk
  · extract_lets -merge +onlyGivenNames x2
    clear_value x2
    extract_lets -merge +onlyGivenNames x3
    clear_value x3
    exact hk.lit rfl rfl rfl rfl rfl

theorem execPoolContrib_keeps (port : Nat) (msg : Bytes) (s : State) (hk : Keeps ls zs s) : KeepsR ls zs
    (execPoolContrib port msg s) := by
  unfold execPoolContrib
  refine KeepsR.next ?_
  refine State.receive_keeps _ _ _ _ _ ?_ ?_
  · exact hk
  · intro x1 h1
    split
    · refine State.fault_keeps _ _ _ _ ?_
      exact h1
    · refine Keeps.ite (fun _ => ?_) (fun _ => ?_)
      · refine State.takePiece_keeps _ _ _ _ ?_
        exact h1
      · refine Keeps.ite (fun _ => ?_) (fun _ => ?_)
        · refine State.takePiece_keeps _ _ _ _ ?_
          refine State.xactFailed_keeps _ ?_
          exact h1
        · refine State.failXact_keeps _ _ _ ?_
          refine State.endXact_keeps _ _ ?_
          exact h1

theorem execXactTimeout_keeps (tid : W32) (s : State) (hk : Keeps ls zs s) : KeepsR ls zs (execXactTimeout tid s) :=
    by
  unfold execXactTimeout
  refine KeepsR.next ?_
  split
  · refine Keeps.ite (fun _ => ?_) (fun _ => ?_)
    · refine State.failXact_keeps _ _ _ ?_
      refine State.endXact_keeps _ _ ?_
      exact hk
    · exact hk
  · exact hk

end

end Sys2Proof.Machine
end

