-- ==== Sys2Proof/Laws/KeepsCommands.lean ====
section
/-!
SUPPORT. One lemma per operation, meaning by meaning: it keeps what every command keeps (Laws.Keeps). Here: the commands of the CP and the operations of the sequencer.
-/

namespace Sys2Proof.Machine

section
variable {ls : List Instr} {zs : W64 × Nat}

/-! ### Command -/

theorem State.runCmd_keeps (s : State) (r : CmdRow) (c : CmdSrc) (f : State → Bytes → State) (hk : Keeps ls zs s)
    (hf : ∀ (y0 : State) (y1 : Bytes), Keeps ls zs y0 → Keeps ls zs (f y0 y1)) : Keeps ls zs (State.runCmd s r c f)
    := by
  unfold State.runCmd
  split
  · exact hk
  · refine Keeps.ite (fun _ => ?_) (fun _ => ?_)
    · split
      · refine State.reply_keeps _ _ _ _ _ ?_
        refine State.takeCmd_keeps _ _ ?_
        exact hk
      · refine hf _ _ ?_
        refine State.takeCmd_keeps _ _ ?_
        exact hk
    · exact hk

theorem State.quick_keeps (c : CmdSrc) (g : State → Bytes → CmdRes × State) (s : State) (b : Bytes) (hk : Keeps ls
    zs s) (hf : ∀ (y0 : State) (y1 : Bytes), Keeps ls zs y0 → KeepsP ls zs (g y0 y1)) : Keeps ls zs (State.quick c g
    s b) := by
  unfold State.quick
  extract_lets -merge +onlyGivenNames x1
  have h1 : KeepsP ls zs x1 := by
    unfold x1
    refine hf _ _ ?_
    exact hk
  clear_value x1
  refine State.reply_keeps _ _ _ _ _ ?_
  exact h1

theorem State.begin_keeps (c : CmdSrc) (r : CmdRow) (g : State → Nat → Bytes → State) (s : State) (b : Bytes) (hk :
    Keeps ls zs s) (hf : ∀ (y0 : State) (y1 : Nat) (y2 : Bytes), Keeps ls zs y0 → Keeps ls zs (g y0 y1 y2)) : Keeps
    ls zs (State.begin c r g s b) := by
  unfold State.begin
  refine hf _ _ _ ?_
  refine State.startCmd_keeps _ _ _ _ ?_
  exact hk

theorem State.fin_keeps (s : State) (id : Nat) (r : CmdRes) (hk : Keeps ls zs s) : Keeps ls zs (State.fin s id r) :=
    by
  unfold State.fin
  refine State.finishCmd_keeps _ _ _ ?_
  exact hk

theorem State.writeOut_keeps (s : State) (c : CmdSrc) (id : Nat) (a : Nat) (bytes : Bytes) (res : Bytes) (hk : Keeps
    ls zs s) : Keeps ls zs (State.writeOut s c id a bytes res) := by
  unfold State.writeOut
  refine State.endStored_keeps _ _ _ ?_
  refine State.store_keeps _ _ _ _ _ ?_
  exact hk

theorem State.readIn_keeps (s : State) (c : CmdSrc) (id : Nat) (a : Nat) (n : Nat) (hk : Keeps ls zs s) : Keeps ls
    zs (State.readIn s c id a n) := by
  unfold State.readIn
  refine State.fetch_keeps _ _ _ _ _ ?_
  refine State.modCmd_keeps _ _ _ ?_
  exact hk

theorem State.mark_keeps (s : State) (id : Nat) (stage : Nat) (nums : List Nat) (hk : Keeps ls zs s) : Keeps ls zs
    (State.mark s id stage nums) := by
  unfold State.mark
  refine State.modCmd_keeps _ _ _ ?_
  exact hk

/-! ### CmdTable -/

theorem execTableCreate_keeps (src : CmdSrc) (s : State) (hk : Keeps ls zs s) : KeepsR ls zs (execTableCreate src s)
    := by
  unfold execTableCreate
  refine KeepsR.next ?_
  refine State.runCmd_keeps _ _ _ _ ?_ ?_
  · exact hk
  · intro x1 x2 h1
    refine State.begin_keeps _ _ _ _ _ ?_ ?_
    · exact h1
    · intro x3 x4 x5 h3
      refine State.readIn_keeps _ _ _ _ _ ?_
      exact h3

theorem State.createTable_keeps (s : State) (c : Cmd) (hk : Keeps ls zs s) : Keeps ls zs (State.createTable s c) :=
    by
  unfold State.createTable
  extract_lets -merge +onlyGivenNames x1
  clear_value x1
  extract_lets -merge +onlyGivenNames x2
  clear_value x2
  refine Keeps.ite (fun _ => ?_) (fun _ => ?_)
  · refine State.fin_keeps _ _ _ ?_
    exact hk
  · refine Keeps.ite (fun _ => ?_) (fun _ => ?_)
    · refine State.fin_keeps _ _ _ ?_
      exact hk
    · refine State.fin_keeps _ _ _ ?_
      exact hk.lit rfl rfl rfl rfl rfl

theorem State.createStep_keeps (s : State) (c : Cmd) (hk : Keeps ls zs s) : Keeps ls zs (State.createStep s c) := by
  unfold State.createStep
  extract_lets -merge +onlyGivenNames x1
  clear_value x1
  extract_lets -merge +onlyGivenNames x2
  clear_value x2
  extract_lets -merge +onlyGivenNames x3
  clear_value x3
  extract_lets -merge +onlyGivenNames x4
  have h4 : ∀ y0, Keeps ls zs y0 → Keeps ls zs (x4 y0) := by
    unfold x4
    intro x5 h5
    refine Keeps.ite (fun _ => ?_) (fun _ => ?_)
    · refine State.readIn_keeps _ _ _ _ _ ?_
      refine State.mark_keeps _ _ _ _ ?_
      exact h5
    · refine State.createTable_keeps _ _ ?_
      exact h5
  clear_value x4
  split
  · refine Keeps.ite (fun _ => ?_) (fun _ => ?_)
    · refine State.fin_keeps _ _ _ ?_
      exact hk
    · refine Keeps.ite (fun _ => ?_) (fun _ => ?_)
      · refine State.fin_keeps _ _ _ ?_
        exact hk
      · refine Keeps.ite (fun _ => ?_) (fun _ => ?_)
        · refine State.fin_keeps _ _ _ ?_
          exact hk
        · refine Keeps.ite (fun _ => ?_) (fun _ => ?_)
          · refine State.fin_keeps _ _ _ ?_
            exact hk
          · extract_lets -merge +onlyGivenNames x6
            have h6 : Keeps ls zs x6 := by
              unfold x6
              refine State.modCmd_keeps _ _ _ ?_
              exact hk
            clear_value x6
            refine Keeps.ite (fun _ => ?_) (fun _ => ?_)
            · refine h4 _ ?_
              exact h6
            · refine State.readIn_keeps _ _ _ _ _ ?_
              exact h6
  · refine h4 _ ?_
    exact hk
  · refine State.createTable_keeps _ _ ?_
    exact hk

theorem State.modifyTable_keeps (s : State) (b : Bytes) (hk : Keeps ls zs s) : KeepsP ls zs (State.modifyTable s b)
    := by
  unfold State.modifyTable
  extract_lets -merge +onlyGivenNames x1
  clear_value x1
  extract_lets -merge +onlyGivenNames x2
  clear_value x2
  split
  · refine KeepsP.mk ?_
    exact hk
  · split
    · refine KeepsP.mk ?_
      exact hk
    · refine KeepsP.ite (fun _ => ?_) (fun _ => ?_)
      · refine KeepsP.mk ?_
        exact hk
      · refine KeepsP.mk ?_
        refine State.modTable_keeps _ _ _ ?_
        exact hk

theorem execTableModify_keeps (src : CmdSrc) (s : State) (hk : Keeps ls zs s) : KeepsR ls zs (execTableModify src s)
    := by
  unfold execTableModify
  refine KeepsR.next ?_
  refine State.runCmd_keeps _ _ _ _ ?_ ?_
  · exact hk
  · intro x1 x2 h1
    refine State.quick_keeps _ _ _ _ ?_ ?_
    · exact h1
    · intro x3 x4 h3
      refine State.modifyTable_keeps _ _ ?_
      exact h3

theorem State.setVersion_keeps (s : State) (b : Bytes) (hk : Keeps ls zs s) : KeepsP ls zs (State.setVersion s b) :=
    by
  unfold State.setVersion
  extract_lets -merge +onlyGivenNames x1
  clear_value x1
  extract_lets -merge +onlyGivenNames x2
  clear_value x2
  extract_lets -merge +onlyGivenNames x3
  clear_value x3
  extract_lets -merge +onlyGivenNames x4
  clear_value x4
  extract_lets -merge +onlyGivenNames x5
  clear_value x5
  extract_lets -merge +onlyGivenNames x6
  clear_value x6
  split
  · refine KeepsP.mk ?_
    exact hk
  · refine KeepsP.ite (fun _ => ?_) (fun _ => ?_)
    · refine KeepsP.mk ?_
      exact hk
    · refine KeepsP.ite (fun _ => ?_) (fun _ => ?_)
      · refine KeepsP.mk ?_
        exact hk
      · refine KeepsP.ite (fun _ => ?_) (fun _ => ?_)
        · refine KeepsP.mk ?_
          exact hk
        · refine KeepsP.ite (fun _ => ?_) (fun _ => ?_)
          · refine KeepsP.mk ?_
            exact hk
          · extract_lets -merge +onlyGivenNames x7
            have h7 : Keeps ls zs x7 := by
              unfold x7
              refine State.modTable_keeps _ _ _ ?_
              exact hk
            clear_value x7
            refine KeepsP.mk ?_
            refine Keeps.ite (fun _ => ?_) (fun _ => ?_)
            · refine State.record_keeps _ _ _ _ ?_
              exact h7
            · exact h7

theorem execTableVersionSet_keeps (src : CmdSrc) (s : State) (hk : Keeps ls zs s) : KeepsR ls zs
    (execTableVersionSet src s) := by
  unfold execTableVersionSet
  refine KeepsR.next ?_
  refine State.runCmd_keeps _ _ _ _ ?_ ?_
  · exact hk
  · intro x1 x2 h1
    refine State.quick_keeps _ _ _ _ ?_ ?_
    · exact h1
    · intro x3 x4 h3
      refine State.setVersion_keeps _ _ ?_
      exact h3

theorem State.switchHere_keeps (c : CmdSrc) (s : State) (b : Bytes) (hk : Keeps ls zs s) : KeepsP ls zs
    (State.switchHere c s b) := by
  unfold State.switchHere
  extract_lets -merge +onlyGivenNames x1
  clear_value x1
  refine KeepsP.ite (fun _ => ?_) (fun _ => ?_)
  · refine KeepsP.mk ?_
    exact hk
  · split
    · refine KeepsP.mk ?_
      exact hk
    · split
      · refine KeepsP.mk ?_
        exact hk
      · refine KeepsP.ite (fun _ => ?_) (fun _ => ?_)
        · refine KeepsP.mk ?_
          exact hk
        · refine KeepsP.mk ?_
          refine State.switchAll_keeps _ _ _ _ _ ?_
          exact hk

theorem execTableSwitch_keeps (src : CmdSrc) (s : State) (hk : Keeps ls zs s) : KeepsR ls zs (execTableSwitch src s)
    := by
  unfold execTableSwitch
  refine KeepsR.next ?_
  refine State.runCmd_keeps _ _ _ _ ?_ ?_
  · exact hk
  · intro x1 x2 h1
    refine State.quick_keeps _ _ _ _ ?_ ?_
    · exact h1
    · intro x3 x4 h3
      refine State.switchHere_keeps _ _ _ ?_
      exact h3

theorem execTableSwitchWarren_keeps (src : CmdSrc) (s : State) (hk : Keeps ls zs s) : KeepsR ls zs
    (execTableSwitchWarren src s) := by
  unfold execTableSwitchWarren
  refine KeepsR.next ?_
  refine State.runCmd_keeps _ _ _ _ ?_ ?_
  · exact hk
  · intro x1 x2 h1
    refine State.begin_keeps _ _ _ _ _ ?_ ?_
    · exact h1
    · intro x3 x4 x5 h3
      split
      · refine State.fin_keeps _ _ _ ?_
        exact h3
      · refine State.beginSwitch_keeps _ _ _ _ _ ?_
        exact h3

theorem execTableQuery_keeps (src : CmdSrc) (s : State) (hk : Keeps ls zs s) : KeepsR ls zs (execTableQuery src s)
    := by
  unfold execTableQuery
  refine KeepsR.next ?_
  refine State.runCmd_keeps _ _ _ _ ?_ ?_
  · exact hk
  · intro x1 x2 h1
    refine State.begin_keeps _ _ _ _ _ ?_ ?_
    · exact h1
    · intro x3 x4 x5 h3
      extract_lets -merge +onlyGivenNames x6
      clear_value x6
      split
      · refine State.fin_keeps _ _ _ ?_
        exact h3
      · refine Keeps.ite (fun _ => ?_) (fun _ => ?_)
        · refine State.fin_keeps _ _ _ ?_
          exact h3
        · refine State.writeOut_keeps _ _ _ _ _ _ ?_
          exact h3

theorem State.deleteTable_keeps (s : State) (b : Bytes) (hk : Keeps ls zs s) : KeepsP ls zs (State.deleteTable s b)
    := by
  unfold State.deleteTable
  extract_lets -merge +onlyGivenNames x1
  clear_value x1
  extract_lets -merge +onlyGivenNames x2
  clear_value x2
  split
  · refine KeepsP.mk ?_
    exact hk
  · refine KeepsP.ite (fun _ => ?_) (fun _ => ?_)
    · refine KeepsP.mk ?_
      exact hk
    · refine KeepsP.ite (fun _ => ?_) (fun _ => ?_)
      · refine KeepsP.mk ?_
        exact hk
      · extract_lets -merge +onlyGivenNames x3
        clear_value x3
        extract_lets -merge +onlyGivenNames x4
        have h4 : Keeps ls zs x4 := by
          unfold x4
          refine Keeps.ite (fun _ => ?_) (fun _ => ?_)
          · refine State.record_keeps _ _ _ _ ?_
            exact hk
          · exact hk
        clear_value x4
        refine KeepsP.mk ?_
        refine State.dropTable_keeps _ _ ?_
        exact h4

theorem execTableDelete_keeps (src : CmdSrc) (s : State) (hk : Keeps ls zs s) : KeepsR ls zs (execTableDelete src s)
    := by
  unfold execTableDelete
  refine KeepsR.next ?_
  refine State.runCmd_keeps _ _ _ _ ?_ ?_
  · exact hk
  · intro x1 x2 h1
    refine State.quick_keeps _ _ _ _ ?_ ?_
    · exact h1
    · intro x3 x4 h3
      refine State.deleteTable_keeps _ _ ?_
      exact h3

/-! ### CmdDevice -/

theorem execCmdNop_keeps (src : CmdSrc) (s : State) (hk : Keeps ls zs s) : KeepsR ls zs (execCmdNop src s) := by
  unfold execCmdNop
  refine KeepsR.next ?_
  refine State.runCmd_keeps _ _ _ _ ?_ ?_
  · exact hk
  · intro x1 x2 h1
    refine State.quick_keeps _ _ _ _ ?_ ?_
    · exact h1
    · intro x3 x4 h3
      refine KeepsP.mk ?_
      exact h3

theorem execIdentify_keeps (src : CmdSrc) (s : State) (hk : Keeps ls zs s) : KeepsR ls zs (execIdentify src s) := by
  unfold execIdentify
  refine KeepsR.next ?_
  refine State.runCmd_keeps _ _ _ _ ?_ ?_
  · exact hk
  · intro x1 x2 h1
    refine State.quick_keeps _ _ _ _ ?_ ?_
    · exact h1
    · intro x3 x4 h3
      refine KeepsP.mk ?_
      exact h3

theorem execDevStatus_keeps (src : CmdSrc) (s : State) (hk : Keeps ls zs s) : KeepsR ls zs (execDevStatus src s) :=
    by
  unfold execDevStatus
  refine KeepsR.next ?_
  refine State.runCmd_keeps _ _ _ _ ?_ ?_
  · exact hk
  · intro x1 x2 h1
    refine State.quick_keeps _ _ _ _ ?_ ?_
    · exact h1
    · intro x3 x4 h3
      refine KeepsP.mk ?_
      exact h3

theorem execProfileGet_keeps (src : CmdSrc) (s : State) (hk : Keeps ls zs s) : KeepsR ls zs (execProfileGet src s)
    := by
  unfold execProfileGet
  refine KeepsR.next ?_
  refine State.runCmd_keeps _ _ _ _ ?_ ?_
  · exact hk
  · intro x1 x2 h1
    refine State.begin_keeps _ _ _ _ _ ?_ ?_
    · exact h1
    · intro x3 x4 x5 h3
      split
      · refine Keeps.ite (fun _ => ?_) (fun _ => ?_)
        · refine State.writeOut_keeps _ _ _ _ _ _ ?_
          exact h3
        · refine State.fin_keeps _ _ _ ?_
          exact h3
      · refine State.fin_keeps _ _ _ ?_
        exact h3

theorem execProfileWrite_keeps (src : CmdSrc) (s : State) (hk : Keeps ls zs s) : KeepsR ls zs (execProfileWrite src
    s) := by
  unfold execProfileWrite
  refine KeepsR.next ?_
  refine State.runCmd_keeps _ _ _ _ ?_ ?_
  · exact hk
  · intro x1 x2 h1
    refine State.begin_keeps _ _ _ _ _ ?_ ?_
    · exact h1
    · intro x3 x4 x5 h3
      refine State.readIn_keeps _ _ _ _ _ ?_
      exact h3

theorem State.storeProfile_keeps (s : State) (c : Cmd) (hk : Keeps ls zs s) : Keeps ls zs (State.storeProfile s c)
    := by
  unfold State.storeProfile
  extract_lets -merge +onlyGivenNames x1
  clear_value x1
  refine Keeps.ite (fun _ => ?_) (fun _ => ?_)
  · refine State.fin_keeps _ _ _ ?_
    exact hk
  · refine Keeps.ite (fun _ => ?_) (fun _ => ?_)
    · refine State.fin_keeps _ _ _ ?_
      exact hk
    · refine Keeps.ite (fun _ => ?_) (fun _ => ?_)
      · refine State.fin_keeps _ _ _ ?_
        exact hk
      · extract_lets -merge +onlyGivenNames x2
        clear_value x2
        refine State.fin_keeps _ _ _ ?_
        refine State.writeSet_keeps _ _ _ ?_
        exact hk

theorem State.setRole_keeps (s : State) (r : Nat) (hk : Keeps ls zs s) : Keeps ls zs (State.setRole s r) := by
  unfold State.setRole
  refine Keeps.ite (fun _ => ?_) (fun _ => ?_)
  · exact hk
  · refine Keeps.ite (fun _ => ?_) (fun _ => ?_)
    · refine State.becomeMaster_keeps _ ?_
      exact hk
    · exact hk.lit rfl rfl rfl rfl rfl

theorem State.applyLive_keeps (s : State) (i : Nat) (p : Profile) (hk : Keeps ls zs s) : Keeps ls zs
    (State.applyLive s i p) := by
  unfold State.applyLive
  extract_lets -merge +onlyGivenNames x1
  clear_value x1
  extract_lets -merge +onlyGivenNames x3 x4 x2
  have h2 : Keeps ls zs x2 := by
    unfold x2
    exact hk.lit rfl rfl rfl rfl rfl
  try clear_value x2
  refine State.setRole_keeps _ _ ?_
  refine State.applyLinkMask_keeps _ ?_
  exact h2

theorem State.selectProfile_keeps (s : State) (i : Nat) (hk : Keeps ls zs s) : KeepsP ls zs (State.selectProfile s
    i) := by
  unfold State.selectProfile
  split
  · refine KeepsP.ite (fun _ => ?_) (fun _ => ?_)
    · refine KeepsP.mk ?_
      exact hk
    · refine KeepsP.ite (fun _ => ?_) (fun _ => ?_)
      · refine KeepsP.mk ?_
        exact hk
      · refine KeepsP.mk ?_
        refine State.applyLive_keeps _ _ _ ?_
        refine State.writeSet_keeps _ _ _ ?_
        exact hk
  · refine KeepsP.mk ?_
    exact hk

theorem execProfileSelect_keeps (src : CmdSrc) (s : State) (hk : Keeps ls zs s) : KeepsR ls zs (execProfileSelect
    src s) := by
  unfold execProfileSelect
  refine KeepsR.next ?_
  refine State.runCmd_keeps _ _ _ _ ?_ ?_
  · exact hk
  · intro x1 x2 h1
    refine State.quick_keeps _ _ _ _ ?_ ?_
    · exact h1
    · intro x3 x4 h3
      refine State.selectProfile_keeps _ _ ?_
      exact h3

theorem execProfileClear_keeps (src : CmdSrc) (s : State) (hk : Keeps ls zs s) : KeepsR ls zs (execProfileClear src
    s) := by
  unfold execProfileClear
  refine KeepsR.next ?_
  refine State.runCmd_keeps _ _ _ _ ?_ ?_
  · exact hk
  · intro x1 x2 h1
    refine State.quick_keeps _ _ _ _ ?_ ?_
    · exact h1
    · intro x3 x4 h3
      refine KeepsP.ite (fun _ => ?_) (fun _ => ?_)
      · refine KeepsP.mk ?_
        exact h3
      · refine KeepsP.mk ?_
        refine State.writeSet_keeps _ _ _ ?_
        exact h3

theorem execDevHush_keeps (src : CmdSrc) (s : State) (hk : Keeps ls zs s) : KeepsR ls zs (execDevHush src s) := by
  unfold execDevHush
  refine KeepsR.next ?_
  refine State.runCmd_keeps _ _ _ _ ?_ ?_
  · exact hk
  · intro x1 x2 h1
    refine Keeps.ite (fun _ => ?_) (fun _ => ?_)
    · refine State.hushEntry_keeps _ _ ?_
      refine State.reply_keeps _ _ _ _ _ ?_
      exact h1
    · refine State.reply_keeps _ _ _ _ _ ?_
      exact h1

theorem State.destroyHeld_keeps (s : State) (hk : Keeps ls zs s) : Keeps ls zs (State.destroyHeld s) := by
  unfold State.destroyHeld
  refine State.each_keeps _ _ _ ?_ ?_
  · exact hk
  · intro x1 x2 h1
    refine State.modDen_keeps _ _ _ ?_
    exact h1

theorem execScrubRetained_keeps (src : CmdSrc) (s : State) (hk : Keeps ls zs s) : KeepsR ls zs (execScrubRetained
    src s) := by
  unfold execScrubRetained
  refine KeepsR.next ?_
  refine State.runCmd_keeps _ _ _ _ ?_ ?_
  · exact hk
  · intro x1 x2 h1
    refine Keeps.ite (fun _ => ?_) (fun _ => ?_)
    · refine State.reply_keeps _ _ _ _ _ ?_
      exact h1
    · refine State.begin_keeps _ _ _ _ _ ?_ ?_
      · exact h1
      · intro x3 x4 x5 h3
        refine State.destroyHeld_keeps _ ?_
        exact h3

theorem execP2pProbe_keeps (src : CmdSrc) (s : State) (hk : Keeps ls zs s) : KeepsR ls zs (execP2pProbe src s) := by
  unfold execP2pProbe
  refine KeepsR.next ?_
  refine State.runCmd_keeps _ _ _ _ ?_ ?_
  · exact hk
  · intro x1 x2 h1
    refine State.begin_keeps _ _ _ _ _ ?_ ?_
    · exact h1
    · intro x3 x4 x5 h3
      refine State.fetch_keeps _ _ _ _ _ ?_
      exact h3

/-! ### CmdDen -/

theorem State.createDen_keeps (s : State) (b : Bytes) (hk : Keeps ls zs s) : KeepsP ls zs (State.createDen s b) :=
    by
  unfold State.createDen
  extract_lets -merge +onlyGivenNames x1
  clear_value x1
  refine KeepsP.ite (fun _ => ?_) (fun _ => ?_)
  · refine KeepsP.mk ?_
    exact hk
  · refine KeepsP.ite (fun _ => ?_) (fun _ => ?_)
    · refine KeepsP.mk ?_
      exact hk
    · refine KeepsP.mk ?_
      refine State.modDen_keeps _ _ _ ?_
      exact hk

theorem execDenCreate_keeps (src : CmdSrc) (s : State) (hk : Keeps ls zs s) : KeepsR ls zs (execDenCreate src s) :=
    by
  unfold execDenCreate
  refine KeepsR.next ?_
  refine State.runCmd_keeps _ _ _ _ ?_ ?_
  · exact hk
  · intro x1 x2 h1
    refine State.quick_keeps _ _ _ _ ?_ ?_
    · exact h1
    · intro x3 x4 h3
      refine State.createDen_keeps _ _ ?_
      exact h3

theorem State.tilesStep_keeps (s : State) (c : Cmd) (hk : Keeps ls zs s) : Keeps ls zs (State.tilesStep s c) := by
  unfold State.tilesStep
  refine Keeps.ite (fun _ => ?_) (fun _ => ?_)
  · refine State.fin_keeps _ _ _ ?_
    exact hk
  · exact hk

theorem State.onCmd_keeps (s : State) (id : Nat) (f : State → Cmd → State) (hk : Keeps ls zs s) (hf : ∀ (y0 : State)
    (y1 : Cmd), Keeps ls zs y0 → Keeps ls zs (f y0 y1)) : Keeps ls zs (State.onCmd s id f) := by
  unfold State.onCmd
  split
  · refine hf _ _ ?_
    exact hk
  · exact hk

theorem execDenConfigTiles_keeps (src : CmdSrc) (s : State) (hk : Keeps ls zs s) : KeepsR ls zs (execDenConfigTiles
    src s) := by
  unfold execDenConfigTiles
  refine KeepsR.next ?_
  refine State.runCmd_keeps _ _ _ _ ?_ ?_
  · exact hk
  · intro x1 x2 h1
    refine State.begin_keeps _ _ _ _ _ ?_ ?_
    · exact h1
    · intro x3 x4 x5 h3
      extract_lets -merge +onlyGivenNames x6
      clear_value x6
      refine Keeps.ite (fun _ => ?_) (fun _ => ?_)
      · refine State.fin_keeps _ _ _ ?_
        exact h3
      · refine State.onCmd_keeps _ _ _ ?_ ?_
        · refine State.setTiles_keeps _ _ _ ?_
          exact h3
        · intro x7 x8 h7
          refine State.tilesStep_keeps _ _ ?_
          exact h7

theorem execDenConfigHbm_keeps (src : CmdSrc) (s : State) (hk : Keeps ls zs s) : KeepsR ls zs (execDenConfigHbm src
    s) := by
  unfold execDenConfigHbm
  refine KeepsR.next ?_
  refine State.runCmd_keeps _ _ _ _ ?_ ?_
  · exact hk
  · intro x1 x2 h1
    refine State.begin_keeps _ _ _ _ _ ?_ ?_
    · exact h1
    · intro x3 x4 x5 h3
      refine State.readIn_keeps _ _ _ _ _ ?_
      exact h3

theorem State.hbmStep_keeps (s : State) (c : Cmd) (hk : Keeps ls zs s) : Keeps ls zs (State.hbmStep s c) := by
  unfold State.hbmStep
  extract_lets -merge +onlyGivenNames x1
  clear_value x1
  extract_lets -merge +onlyGivenNames x2
  clear_value x2
  refine Keeps.ite (fun _ => ?_) (fun _ => ?_)
  · refine State.fin_keeps _ _ _ ?_
    exact hk
  · refine Keeps.ite (fun _ => ?_) (fun _ => ?_)
    · refine State.fin_keeps _ _ _ ?_
      exact hk
    · refine Keeps.ite (fun _ => ?_) (fun _ => ?_)
      · refine State.fin_keeps _ _ _ ?_
        exact hk
      · refine State.fin_keeps _ _ _ ?_
        refine State.setHbm_keeps _ _ _ ?_
        exact hk

theorem State.setWays_keeps (s : State) (d : Nat) (fill : Nat) (pin : Nat) (scratch : Nat) (hk : Keeps ls zs s) :
    Keeps ls zs (State.setWays s d fill pin scratch) := by
  unfold State.setWays
  extract_lets -merge +onlyGivenNames x1
  have h1 : Keeps ls zs x1 := by
    unfold x1
    refine State.modDen_keeps _ _ _ ?_
    exact hk
  clear_value x1
  refine State.each_keeps _ _ _ ?_ ?_
  · exact h1
  · intro x2 x3 h2
    split
    · refine State.modWay_keeps _ _ _ ?_
      exact h2
    · exact h2

theorem State.waysStep_keeps (s : State) (c : Cmd) (hk : Keeps ls zs s) : Keeps ls zs (State.waysStep s c) := by
  unfold State.waysStep
  refine Keeps.ite (fun _ => ?_) (fun _ => ?_)
  · refine State.fin_keeps _ _ _ ?_
    exact hk
  · exact hk

theorem execDenConfigWays_keeps (src : CmdSrc) (s : State) (hk : Keeps ls zs s) : KeepsR ls zs (execDenConfigWays
    src s) := by
  unfold execDenConfigWays
  refine KeepsR.next ?_
  refine State.runCmd_keeps _ _ _ _ ?_ ?_
  · exact hk
  · intro x1 x2 h1
    refine State.begin_keeps _ _ _ _ _ ?_ ?_
    · exact h1
    · intro x3 x4 x5 h3
      extract_lets -merge +onlyGivenNames x6
      clear_value x6
      split
      · refine State.fin_keeps _ _ _ ?_
        exact h3
      · refine State.onCmd_keeps _ _ _ ?_ ?_
        · refine State.setWays_keeps _ _ _ _ _ ?_
          refine State.mark_keeps _ _ _ _ ?_
          exact h3
        · intro x7 x8 h7
          refine State.waysStep_keeps _ _ ?_
          exact h7

theorem State.mioterStep_keeps (s : State) (c : Cmd) (hk : Keeps ls zs s) : Keeps ls zs (State.mioterStep s c) := by
  unfold State.mioterStep
  extract_lets -merge +onlyGivenNames x1
  clear_value x1
  refine Keeps.ite (fun _ => ?_) (fun _ => ?_)
  · refine State.fin_keeps _ _ _ ?_
    refine State.setMioter_keeps _ _ _ _ ?_
    exact hk
  · exact hk

theorem execDenConfigMioter_keeps (src : CmdSrc) (s : State) (hk : Keeps ls zs s) : KeepsR ls zs
    (execDenConfigMioter src s) := by
  unfold execDenConfigMioter
  refine KeepsR.next ?_
  refine State.runCmd_keeps _ _ _ _ ?_ ?_
  · exact hk
  · intro x1 x2 h1
    refine State.begin_keeps _ _ _ _ _ ?_ ?_
    · exact h1
    · intro x3 x4 x5 h3
      extract_lets -merge +onlyGivenNames x6
      clear_value x6
      refine Keeps.ite (fun _ => ?_) (fun _ => ?_)
      · refine State.fin_keeps _ _ _ ?_
        exact h3
      · refine State.onCmd_keeps _ _ _ ?_ ?_
        · exact h3
        · intro x7 x8 h7
          refine State.mioterStep_keeps _ _ ?_
          exact h7

theorem execDenConfigRegulator_keeps (src : CmdSrc) (s : State) (hk : Keeps ls zs s) : KeepsR ls zs
    (execDenConfigRegulator src s) := by
  unfold execDenConfigRegulator
  refine KeepsR.next ?_
  refine State.runCmd_keeps _ _ _ _ ?_ ?_
  · exact hk
  · intro x1 x2 h1
    refine State.quick_keeps _ _ _ _ ?_ ?_
    · exact h1
    · intro x3 x4 h3
      refine KeepsP.mk ?_
      refine State.modDen_keeps _ _ _ ?_
      exact h3

theorem execDenConfigSched_keeps (src : CmdSrc) (s : State) (hk : Keeps ls zs s) : KeepsR ls zs (execDenConfigSched
    src s) := by
  unfold execDenConfigSched
  refine KeepsR.next ?_
  refine State.runCmd_keeps _ _ _ _ ?_ ?_
  · exact hk
  · intro x1 x2 h1
    refine State.quick_keeps _ _ _ _ ?_ ?_
    · exact h1
    · intro x3 x4 h3
      refine KeepsP.mk ?_
      refine State.modDen_keeps _ _ _ ?_
      exact h3

theorem execDenConfigFlr_keeps (src : CmdSrc) (s : State) (hk : Keeps ls zs s) : KeepsR ls zs (execDenConfigFlr src
    s) := by
  unfold execDenConfigFlr
  refine KeepsR.next ?_
  refine State.runCmd_keeps _ _ _ _ ?_ ?_
  · exact hk
  · intro x1 x2 h1
    refine State.quick_keeps _ _ _ _ ?_ ?_
    · exact h1
    · intro x3 x4 h3
      refine KeepsP.mk ?_
      refine State.modDen_keeps _ _ _ ?_
      exact h3

theorem execDenConfigToken_keeps (src : CmdSrc) (s : State) (hk : Keeps ls zs s) : KeepsR ls zs (execDenConfigToken
    src s) := by
  unfold execDenConfigToken
  refine KeepsR.next ?_
  refine State.runCmd_keeps _ _ _ _ ?_ ?_
  · exact hk
  · intro x1 x2 h1
    refine State.quick_keeps _ _ _ _ ?_ ?_
    · exact h1
    · intro x3 x4 h3
      refine KeepsP.mk ?_
      refine State.modDen_keeps _ _ _ ?_
      exact h3

theorem execDenConfigGran_keeps (src : CmdSrc) (s : State) (hk : Keeps ls zs s) : KeepsR ls zs (execDenConfigGran
    src s) := by
  unfold execDenConfigGran
  refine KeepsR.next ?_
  refine State.runCmd_keeps _ _ _ _ ?_ ?_
  · exact hk
  · intro x1 x2 h1
    refine State.quick_keeps _ _ _ _ ?_ ?_
    · exact h1
    · intro x3 x4 h3
      extract_lets -merge +onlyGivenNames x5
      clear_value x5
      refine KeepsP.ite (fun _ => ?_) (fun _ => ?_)
      · refine KeepsP.mk ?_
        exact h3
      · refine KeepsP.mk ?_
        refine State.modDen_keeps _ _ _ ?_
        exact h3

theorem execDenQuery_keeps (src : CmdSrc) (s : State) (hk : Keeps ls zs s) : KeepsR ls zs (execDenQuery src s) := by
  unfold execDenQuery
  refine KeepsR.next ?_
  refine State.runCmd_keeps _ _ _ _ ?_ ?_
  · exact hk
  · intro x1 x2 h1
    refine State.quick_keeps _ _ _ _ ?_ ?_
    · exact h1
    · intro x3 x4 h3
      refine KeepsP.mk ?_
      exact h3

theorem State.destroyBegin_keeps (s : State) (d : Nat) (hk : Keeps ls zs s) : Keeps ls zs (State.destroyBegin s d)
    := by
  unfold State.destroyBegin
  refine State.killReqs_keeps _ _ _ ?_
  refine State.modDen_keeps _ _ _ ?_
  exact hk

theorem execDenDestroy_keeps (src : CmdSrc) (s : State) (hk : Keeps ls zs s) : KeepsR ls zs (execDenDestroy src s)
    := by
  unfold execDenDestroy
  refine KeepsR.next ?_
  refine State.runCmd_keeps _ _ _ _ ?_ ?_
  · exact hk
  · intro x1 x2 h1
    refine State.begin_keeps _ _ _ _ _ ?_ ?_
    · exact h1
    · intro x3 x4 x5 h3
      refine State.destroyBegin_keeps _ _ ?_
      exact h3

theorem execDenResume_keeps (src : CmdSrc) (s : State) (hk : Keeps ls zs s) : KeepsR ls zs (execDenResume src s) :=
    by
  unfold execDenResume
  refine KeepsR.next ?_
  refine State.runCmd_keeps _ _ _ _ ?_ ?_
  · exact hk
  · intro x1 x2 h1
    refine State.quick_keeps _ _ _ _ ?_ ?_
    · exact h1
    · intro x3 x4 h3
      refine KeepsP.ite (fun _ => ?_) (fun _ => ?_)
      · refine KeepsP.mk ?_
        exact h3
      · refine KeepsP.mk ?_
        refine State.modDen_keeps _ _ _ ?_
        refine State.resetRings_keeps _ _ ?_
        exact h3

theorem execHistDirSet_keeps (src : CmdSrc) (s : State) (hk : Keeps ls zs s) : KeepsR ls zs (execHistDirSet src s)
    := by
  unfold execHistDirSet
  refine KeepsR.next ?_
  refine State.runCmd_keeps _ _ _ _ ?_ ?_
  · exact hk
  · intro x1 x2 h1
    refine State.quick_keeps _ _ _ _ ?_ ?_
    · exact h1
    · intro x3 x4 h3
      refine KeepsP.ite (fun _ => ?_) (fun _ => ?_)
      · refine KeepsP.mk ?_
        exact h3
      · refine KeepsP.mk ?_
        refine State.modDen_keeps _ _ _ ?_
        exact h3

theorem State.releaseHeld_keeps (s : State) (d : Nat) (hk : Keeps ls zs s) : Keeps ls zs (State.releaseHeld s d) :=
    by
  unfold State.releaseHeld
  extract_lets -merge +onlyGivenNames x2 x1
  have h1 : Keeps ls zs x1 := by
    unfold x1
    exact hk.lit rfl rfl rfl rfl rfl
  try clear_value x1
  refine State.leaveRetain_keeps _ ?_
  refine KeepsP.snd ?_
  refine State.postEvent_keeps _ _ _ _ _ ?_
  exact h1

theorem State.attachStep_keeps (s : State) (c : Cmd) (hk : Keeps ls zs s) : Keeps ls zs (State.attachStep s c) := by
  unfold State.attachStep
  split
  · refine State.fin_keeps _ _ _ ?_
    exact hk
  · extract_lets -merge +onlyGivenNames x1
    clear_value x1
    refine Keeps.ite (fun _ => ?_) (fun _ => ?_)
    · refine State.fin_keeps _ _ _ ?_
      refine State.releaseHeld_keeps _ _ ?_
      exact hk
    · refine State.fin_keeps _ _ _ ?_
      exact hk

theorem State.attachBegin_keeps (src : CmdSrc) (s : State) (id : Nat) (b : Bytes) (hk : Keeps ls zs s) : Keeps ls zs
    (State.attachBegin src s id b) := by
  unfold State.attachBegin
  extract_lets -merge +onlyGivenNames x1
  clear_value x1
  extract_lets -merge +onlyGivenNames x2
  clear_value x2
  extract_lets -merge +onlyGivenNames x3
  clear_value x3
  refine Keeps.ite (fun _ => ?_) (fun _ => ?_)
  · refine State.fin_keeps _ _ _ ?_
    exact hk
  · refine Keeps.ite (fun _ => ?_) (fun _ => ?_)
    · refine State.fin_keeps _ _ _ ?_
      refine State.modDen_keeps _ _ _ ?_
      exact hk
    · refine Keeps.ite (fun _ => ?_) (fun _ => ?_)
      · refine State.fin_keeps _ _ _ ?_
        exact hk
      · extract_lets -merge +onlyGivenNames x4
        clear_value x4
        extract_lets -merge +onlyGivenNames x5
        have h5 : Keeps ls zs x5 := by
          unfold x5
          refine State.mark_keeps _ _ _ _ ?_
          exact hk
        clear_value x5
        extract_lets -merge +onlyGivenNames x6
        have h6 : Keeps ls zs x6 := by
          unfold x6
          refine Keeps.ite (fun _ => ?_) (fun _ => ?_)
          · refine State.modCmd_keeps _ _ _ ?_
            exact h5
          · refine State.store_keeps _ _ _ _ _ ?_
            exact h5
        clear_value x6
        refine State.onCmd_keeps _ _ _ ?_ ?_
        · exact h6
        · intro x7 x8 h7
          refine Keeps.ite (fun _ => ?_) (fun _ => ?_)
          · refine State.attachStep_keeps _ _ ?_
            exact h7
          · exact h7

theorem execAttach_keeps (src : CmdSrc) (s : State) (hk : Keeps ls zs s) : KeepsR ls zs (execAttach src s) := by
  unfold execAttach
  refine KeepsR.next ?_
  refine State.runCmd_keeps _ _ _ _ ?_ ?_
  · exact hk
  · intro x1 x2 h1
    refine State.begin_keeps _ _ _ _ _ ?_ ?_
    · exact h1
    · intro x3 x4 x5 h3
      refine State.attachBegin_keeps _ _ _ _ ?_
      exact h3

/-! ### SeqOps -/

theorem State.stallAt_keeps (s : State) (t : Nat) (code : Nat) (hk : Keeps ls zs s) : Keeps ls zs (State.stallAt s t
    code) := by
  unfold State.stallAt
  refine State.modTile_keeps _ _ _ ?_
  exact hk

theorem State.issue_keeps (s : State) (t : Nat) (op : Nat) (regs : W64 → List Nat) (f : State → W64 → Req → State)
    (hk : Keeps ls zs s) (hf : ∀ (y0 : State) (y1 : W64) (y2 : Req), Keeps ls zs y0 → Keeps ls zs (f y0 y1 y2)) :
    Keeps ls zs (State.issue s t op regs f) := by
  unfold State.issue
  split
  · exact hk
  · refine Keeps.ite (fun _ => ?_) (fun _ => ?_)
    · refine Keeps.ite (fun _ => ?_) (fun _ => ?_)
      · refine State.stallAt_keeps _ _ _ ?_
        exact hk
      · refine hf _ _ _ ?_
        refine State.stallAt_keeps _ _ _ ?_
        exact hk
    · exact hk

theorem State.goto_keeps (s : State) (t : Nat) (n : Nat) (hk : Keeps ls zs s) : Keeps ls zs (State.goto s t n) := by
  unfold State.goto
  extract_lets -merge +onlyGivenNames x1
  have h1 : Keeps ls zs x1 := by
    unfold x1
    refine State.modTile_keeps _ _ _ ?_
    exact hk
  clear_value x1
  refine Keeps.ite (fun _ => ?_) (fun _ => ?_)
  · exact h1
  · refine State.tileFault_keeps _ _ _ _ _ _ _ ?_
    exact h1

theorem State.advance_keeps (s : State) (t : Nat) (hk : Keeps ls zs s) : Keeps ls zs (State.advance s t) := by
  unfold State.advance
  refine State.goto_keeps _ _ _ ?_
  exact hk

theorem State.setReg_keeps (s : State) (t : Nat) (n : Nat) (v : W64) (hk : Keeps ls zs s) : Keeps ls zs
    (State.setReg s t n v) := by
  unfold State.setReg
  refine State.advance_keeps _ _ ?_
  refine State.modTile_keeps _ _ _ ?_
  exact hk

theorem State.correctSram_keeps (s : State) (t : Nat) (a : Nat) (xa3 : List Nat) (hk : Keeps ls zs s) : Keeps ls zs
    (State.correctSram s t a xa3) := by
  unfold State.correctSram
  refine Keeps.ite (fun _ => ?_) (fun _ => ?_)
  · refine State.fault_keeps _ _ _ _ ?_
    refine State.modTile_keeps _ _ _ ?_
    exact hk
  · exact hk

theorem State.storageUncorr_keeps (s : State) (t : Nat) (a : Nat) (hk : Keeps ls zs s) : Keeps ls zs
    (State.storageUncorr s t a) := by
  unfold State.storageUncorr
  split
  · refine State.tileFault_keeps _ _ _ _ _ _ _ ?_
    exact hk
  · refine State.fenceTile_keeps _ _ _ _ _ ?_
    exact hk

theorem State.sramCarry_keeps (s : State) (t : Nat) (a : Nat) (n : Nat) (hk : Keeps ls zs s) : KeepsP ls zs
    (State.sramCarry s t a n) := by
  unfold State.sramCarry
  extract_lets -merge +onlyGivenNames x1
  clear_value x1
  refine KeepsP.ite (fun _ => ?_) (fun _ => ?_)
  · refine KeepsP.mk ?_
    refine State.storageUncorr_keeps _ _ _ ?_
    exact hk
  · extract_lets -merge +onlyGivenNames x2
    have h2 : Keeps ls zs x2 := by
      unfold x2
      refine State.correctSram_keeps _ _ _ _ ?_
      exact hk
    clear_value x2
    refine KeepsP.mk ?_
    exact h2

theorem State.sramRead_keeps (s : State) (t : Nat) (a : Nat) (n : Nat) (hk : Keeps ls zs s) : KeepsP ls zs
    (State.sramRead s t a n) := by
  unfold State.sramRead
  extract_lets -merge +onlyGivenNames x1
  have h1 : KeepsP ls zs x1 := by
    unfold x1
    refine State.sramCarry_keeps _ _ _ _ ?_
    exact hk
  clear_value x1
  split
  · exact h1
  · refine KeepsP.ite (fun _ => ?_) (fun _ => ?_)
    · refine KeepsP.mk ?_
      refine State.tileFault_keeps _ _ _ _ _ _ _ ?_
      exact h1
    · exact h1

theorem State.withSram_keeps (s : State) (t : Nat) (a : Nat) (n : Nat) (f : State → Bytes → State) (hk : Keeps ls zs
    s) (hf : ∀ (y0 : State) (y1 : Bytes), Keeps ls zs y0 → Keeps ls zs (f y0 y1)) : Keeps ls zs (State.withSram s t
    a n f) := by
  unfold State.withSram
  extract_lets -merge +onlyGivenNames x1
  have h1 : KeepsP ls zs x1 := by
    unfold x1
    refine State.sramRead_keeps _ _ _ _ ?_
    exact hk
  clear_value x1
  split
  · refine hf _ _ ?_
    exact h1
  · exact h1

theorem State.sramWrite_keeps (s : State) (t : Nat) (a : Nat) (b : Bytes) (hk : Keeps ls zs s) : Keeps ls zs
    (State.sramWrite s t a b) := by
  unfold State.sramWrite
  extract_lets -merge +onlyGivenNames x1
  clear_value x1
  extract_lets -merge +onlyGivenNames x2
  have h2 : Keeps ls zs x2 := by
    unfold x2
    refine State.modTile_keeps _ _ _ ?_
    refine State.correctSram_keeps _ _ _ _ ?_
    exact hk
  clear_value x2
  refine Keeps.ite (fun _ => ?_) (fun _ => ?_)
  · refine State.storageUncorr_keeps _ _ _ ?_
    exact h2
  · exact h2

theorem State.setAcc_keeps (s : State) (t : Nat) (acc : Nat) (st : AccState) (hk : Keeps ls zs s) : Keeps ls zs
    (State.setAcc s t acc st) := by
  unfold State.setAcc
  refine State.modTile_keeps _ _ _ ?_
  exact hk

theorem State.sendAcc_keeps (s : State) (t : Nat) (acc : Nat) (d : Nat) (w : Nat) (o : Nat) (len : Nat) (k :
    AccKind) (data : Bytes) (hk : Keeps ls zs s) : Keeps ls zs (State.sendAcc s t acc d w o len k data) := by
  unfold State.sendAcc
  extract_lets -merge +onlyGivenNames x1
  have h1 : KeepsP ls zs x1 := by
    unfold x1
    refine State.newTid_keeps _ ?_
    exact hk
  clear_value x1
  extract_lets -merge +onlyGivenNames x2
  clear_value x2
  split
  · rename_i e3
    have h3 := KeepsO.of (ls := ls) (zs := zs) e3 (by
      refine State.send_keeps _ _ ?_
      exact h1)
    exact h3.lit rfl rfl rfl rfl rfl
  · refine State.setAcc_keeps _ _ _ _ ?_
    refine State.xactFailed_keeps _ ?_
    exact hk

theorem State.hostAcc_keeps (s : State) (t : Nat) (acc : Nat) (d : Nat) (i : Nat) (len : Nat) (k : AccKind) (data :
    Bytes) (hk : Keeps ls zs s) : Keeps ls zs (State.hostAcc s t acc d i len k data) := by
  unfold State.hostAcc
  extract_lets -merge +onlyGivenNames x1
  have h1 : Keeps ls zs x1 := by
    unfold x1
    refine State.chargePcie_keeps _ _ _ ?_
    exact hk
  clear_value x1
  refine Keeps.ite (fun _ => ?_) (fun _ => ?_)
  · extract_lets -merge +onlyGivenNames x2
    have h2 : Keeps ls zs x2 := by
      unfold x2
      refine State.issueWrite_keeps _ _ _ _ _ ?_
      exact h1
    clear_value x2
    refine Keeps.ite (fun _ => ?_) (fun _ => ?_)
    · exact h2
    · refine State.setAcc_keeps _ _ _ _ ?_
      exact h2
  · refine State.issueRead_keeps _ _ _ _ _ ?_
    exact h1

theorem State.startAcc_keeps (s : State) (t : Nat) (d : Nat) (k : AccKind) (p : Reach) (len : Nat) (data : Bytes)
    (hk : Keeps ls zs s) : Keeps ls zs (State.startAcc s t d k p len data) := by
  unfold State.startAcc
  extract_lets -merge +onlyGivenNames x1
  clear_value x1
  extract_lets -merge +onlyGivenNames x2
  clear_value x2
  extract_lets -merge +onlyGivenNames x3
  have h3 : Keeps ls zs x3 := by
    unfold x3
    refine State.modTile_keeps _ _ _ ?_
    exact hk
  clear_value x3
  extract_lets -merge +onlyGivenNames x4
  have h4 : Keeps ls zs x4 := by
    unfold x4
    split
    · refine State.askHoard_keeps _ _ _ ?_
      refine State.chargeHoard_keeps _ _ _ ?_
      exact h3
    · refine State.hostAcc_keeps _ _ _ _ _ _ _ _ ?_
      exact h3
    · refine State.sendAcc_keeps _ _ _ _ _ _ _ _ _ ?_
      exact h3
    · exact h3
  clear_value x4
  refine State.advance_keeps _ _ ?_
  exact h4

theorem State.globalAcc_keeps (s : State) (t : Nat) (r : Req) (k : AccKind) (a : Nat) (len : Nat) (data : Bytes)
    (src : Option Nat) (hk : Keeps ls zs s) : Keeps ls zs (State.globalAcc s t r k a len data src) := by
  unfold State.globalAcc
  extract_lets -merge +onlyGivenNames x1
  clear_value x1
  refine Keeps.ite (fun _ => ?_) (fun _ => ?_)
  · refine State.tileFault_keeps _ _ _ _ _ _ _ ?_
    exact hk
  · refine Keeps.ite (fun _ => ?_) (fun _ => ?_)
    · refine State.tileFault_keeps _ _ _ _ _ _ _ ?_
      exact hk
    · refine Keeps.ite (fun _ => ?_) (fun _ => ?_)
      · refine State.count_keeps _ _ _ _ ?_
        exact hk
      · refine Keeps.ite (fun _ => ?_) (fun _ => ?_)
        · exact hk
        · split
          · refine State.startAcc_keeps _ _ _ _ _ _ _ ?_
            exact hk
          · refine State.withSram_keeps _ _ _ _ _ ?_ ?_
            · exact hk
            · intro x2 x3 h2
              refine State.startAcc_keeps _ _ _ _ _ _ _ ?_
              exact h2

/-! ### CmdModel -/

theorem execModelLoad_keeps (src : CmdSrc) (s : State) (hk : Keeps ls zs s) : KeepsR ls zs (execModelLoad src s) :=
    by
  unfold execModelLoad
  refine KeepsR.next ?_
  refine State.runCmd_keeps _ _ _ _ ?_ ?_
  · exact hk
  · intro x1 x2 h1
    refine State.begin_keeps _ _ _ _ _ ?_ ?_
    · exact h1
    · intro x3 x4 x5 h3
      split
      · refine State.fin_keeps _ _ _ ?_
        exact h3
      · refine State.readIn_keeps _ _ _ _ _ ?_
        exact h3

theorem State.loadModel_keeps (s : State) (pkt : Bytes) (b : Bytes) (base : Nat) (hk : Keeps ls zs s) : Keeps ls zs
    (State.loadModel s pkt b base) := by
  unfold State.loadModel
  extract_lets -merge +onlyGivenNames x1
  clear_value x1
  extract_lets -merge +onlyGivenNames x2
  clear_value x2
  extract_lets -merge +onlyGivenNames x3
  clear_value x3
  extract_lets -merge +onlyGivenNames x4
  have h4 : Keeps ls zs x4 := by
    unfold x4
    refine State.devWrite_keeps _ _ _ ?_
    exact hk
  clear_value x4
  extract_lets -merge +onlyGivenNames x5
  have h5 : Keeps ls zs x5 := by
    unfold x5
    refine State.modDen_keeps _ _ _ ?_
    exact h4
  clear_value x5
  extract_lets -merge +onlyGivenNames x6
  clear_value x6
  exact h5.lit rfl rfl rfl rfl rfl

theorem State.secondStep_keeps (s : State) (c : Cmd) (hk : Keeps ls zs s) : Keeps ls zs (State.secondStep s c) := by
  unfold State.secondStep
  extract_lets -merge +onlyGivenNames x1
  clear_value x1
  extract_lets -merge +onlyGivenNames x2
  clear_value x2
  refine Keeps.ite (fun _ => ?_) (fun _ => ?_)
  · refine State.fin_keeps _ _ _ ?_
    exact hk
  · refine State.fin_keeps _ _ _ ?_
    refine State.loadModel_keeps _ _ _ _ ?_
    exact hk

theorem State.loadStep_keeps (s : State) (c : Cmd) (hk : Keeps ls zs s) : Keeps ls zs (State.loadStep s c) := by
  unfold State.loadStep
  extract_lets -merge +onlyGivenNames x1
  clear_value x1
  extract_lets -merge +onlyGivenNames x2
  clear_value x2
  extract_lets -merge +onlyGivenNames x3
  have h3 : ∀ y0, Keeps ls zs y0 → Keeps ls zs (x3 y0) := by
    unfold x3
    intro x4 h4
    extract_lets -merge +onlyGivenNames x5
    have h5 : Keeps ls zs x5 := by
      unfold x5
      refine State.modCmd_keeps _ _ _ ?_
      exact h4
    clear_value x5
    refine State.readIn_keeps _ _ _ _ _ ?_
    exact h5
  clear_value x3
  split
  · split
    · refine State.fin_keeps _ _ _ ?_
      exact hk
    · refine State.readIn_keeps _ _ _ _ _ ?_
      refine State.mark_keeps _ _ _ _ ?_
      exact hk
  · split
    · refine State.fin_keeps _ _ _ ?_
      exact hk
    · refine h3 _ ?_
      exact hk
  · refine State.secondStep_keeps _ _ ?_
    exact hk

theorem State.unloadModel_keeps (s : State) (m : Model) (hk : Keeps ls zs s) : Keeps ls zs (State.unloadModel s m)
    := by
  unfold State.unloadModel
  extract_lets -merge +onlyGivenNames x1
  have h1 : Keeps ls zs x1 := by
    unfold x1
    refine State.modDen_keeps _ _ _ ?_
    exact hk
  clear_value x1
  exact h1.lit rfl rfl rfl rfl rfl

theorem execModelUnload_keeps (src : CmdSrc) (s : State) (hk : Keeps ls zs s) : KeepsR ls zs (execModelUnload src s)
    := by
  unfold execModelUnload
  refine KeepsR.next ?_
  refine State.runCmd_keeps _ _ _ _ ?_ ?_
  · exact hk
  · intro x1 x2 h1
    refine State.quick_keeps _ _ _ _ ?_ ?_
    · exact h1
    · intro x3 x4 h3
      split
      · refine KeepsP.mk ?_
        exact h3
      · refine KeepsP.ite (fun _ => ?_) (fun _ => ?_)
        · refine KeepsP.mk ?_
          exact h3
        · refine KeepsP.mk ?_
          refine State.unloadModel_keeps _ _ ?_
          exact h3

theorem execModelQuery_keeps (src : CmdSrc) (s : State) (hk : Keeps ls zs s) : KeepsR ls zs (execModelQuery src s)
    := by
  unfold execModelQuery
  refine KeepsR.next ?_
  refine State.runCmd_keeps _ _ _ _ ?_ ?_
  · exact hk
  · intro x1 x2 h1
    refine State.quick_keeps _ _ _ _ ?_ ?_
    · exact h1
    · intro x3 x4 h3
      split
      · refine KeepsP.mk ?_
        exact h3
      · refine KeepsP.mk ?_
        exact h3

/-! ### CmdCtx -/

theorem execCtxStore_keeps (src : CmdSrc) (s : State) (hk : Keeps ls zs s) : KeepsR ls zs (execCtxStore src s) := by
  unfold execCtxStore
  refine KeepsR.next ?_
  refine State.runCmd_keeps _ _ _ _ ?_ ?_
  · exact hk
  · intro x1 x2 h1
    refine State.begin_keeps _ _ _ _ _ ?_ ?_
    · exact h1
    · intro x3 x4 x5 h3
      split
      · refine State.fin_keeps _ _ _ ?_
        exact h3
      · refine State.readIn_keeps _ _ _ _ _ ?_
        refine State.modEntry_keeps _ _ _ ?_
        exact h3

theorem State.storeEnd_keeps (s : State) (c : Cmd) (r : CmdRes) (hk : Keeps ls zs s) : Keeps ls zs (State.storeEnd s
    c r) := by
  unfold State.storeEnd
  refine State.fin_keeps _ _ _ ?_
  refine State.modEntry_keeps _ _ _ ?_
  exact hk

theorem State.entryLost_keeps (s : State) (c : Cmd) (r : CmdRes) (hk : Keeps ls zs s) : Keeps ls zs (State.entryLost
    s c r) := by
  unfold State.entryLost
  refine State.storeEnd_keeps _ _ _ ?_
  refine State.modEntry_keeps _ _ _ ?_
  exact hk

theorem State.storeSecond_keeps (s : State) (c : Cmd) (hk : Keeps ls zs s) : Keeps ls zs (State.storeSecond s c) :=
    by
  unfold State.storeSecond
  extract_lets -merge +onlyGivenNames x1
  clear_value x1
  refine Keeps.ite (fun _ => ?_) (fun _ => ?_)
  · refine State.fin_keeps _ _ _ ?_
    exact hk
  · refine Keeps.ite (fun _ => ?_) (fun _ => ?_)
    · refine State.entryLost_keeps _ _ _ ?_
      exact hk
    · refine State.storeEnd_keeps _ _ _ ?_
      refine State.modEntry_keeps _ _ _ ?_
      exact hk

theorem State.storeWhole_keeps (s : State) (c : Cmd) (hk : Keeps ls zs s) : Keeps ls zs (State.storeWhole s c) := by
  unfold State.storeWhole
  split
  · refine State.storeEnd_keeps _ _ _ ?_
    exact hk
  · extract_lets -merge +onlyGivenNames x1
    have h1 : Keeps ls zs x1 := by
      unfold x1
      refine State.modCmd_keeps _ _ _ ?_
      exact hk
    clear_value x1
    refine State.readIn_keeps _ _ _ _ _ ?_
    exact h1

theorem State.ctxStoreStep_keeps (s : State) (c : Cmd) (hk : Keeps ls zs s) : Keeps ls zs (State.ctxStoreStep s c)
    := by
  unfold State.ctxStoreStep
  split
  · split
    · refine State.storeEnd_keeps _ _ _ ?_
      exact hk
    · refine Keeps.ite (fun _ => ?_) (fun _ => ?_)
      · refine State.storeWhole_keeps _ _ ?_
        exact hk
      · refine State.readIn_keeps _ _ _ _ _ ?_
        refine State.mark_keeps _ _ _ _ ?_
        exact hk
  · refine State.storeWhole_keeps _ _ ?_
    exact hk
  · refine State.storeSecond_keeps _ _ ?_
    exact hk

theorem State.ctxStoreFail_keeps (s : State) (c : Cmd) (e : Nat) (hk : Keeps ls zs s) : Keeps ls zs
    (State.ctxStoreFail s c e) := by
  unfold State.ctxStoreFail
  refine Keeps.ite (fun _ => ?_) (fun _ => ?_)
  · refine State.entryLost_keeps _ _ _ ?_
    exact hk
  · refine State.storeEnd_keeps _ _ _ ?_
    exact hk

theorem State.beginLoading_keeps (s : State) (q : Nat) (c : Nat) (hk : Keeps ls zs s) : Keeps ls zs
    (State.beginLoading s q c) := by
  unfold State.beginLoading
  refine Keeps.ite (fun _ => ?_) (fun _ => ?_)
  · refine State.clearSlot_keeps _ _ _ _ ?_
    exact hk
  · exact hk

theorem execCtxLoad_keeps (src : CmdSrc) (s : State) (hk : Keeps ls zs s) : KeepsR ls zs (execCtxLoad src s) := by
  unfold execCtxLoad
  refine KeepsR.next ?_
  refine State.runCmd_keeps _ _ _ _ ?_ ?_
  · exact hk
  · intro x1 x2 h1
    refine State.begin_keeps _ _ _ _ _ ?_ ?_
    · exact h1
    · intro x3 x4 x5 h3
      split
      · refine State.fin_keeps _ _ _ ?_
        exact h3
      · refine State.beginLoading_keeps _ _ _ ?_
        refine State.modQuad_keeps _ _ _ ?_
        exact h3

theorem State.loadEnd_keeps (s : State) (q : Nat) (id : Nat) (r : CmdRes) (hk : Keeps ls zs s) : Keeps ls zs
    (State.loadEnd s q id r) := by
  unfold State.loadEnd
  refine State.fin_keeps _ _ _ ?_
  refine State.modQuad_keeps _ _ _ ?_
  exact hk

theorem State.loadDone_keeps (s : State) (q : Nat) (c : Nat) (id : Nat) (e : Nat) (hk : Keeps ls zs s) : Keeps ls zs
    (State.loadDone s q c id e) := by
  unfold State.loadDone
  extract_lets -merge +onlyGivenNames x1
  clear_value x1
  refine Keeps.ite (fun _ => ?_) (fun _ => ?_)
  · extract_lets -merge +onlyGivenNames x2
    have h2 : Keeps ls zs x2 := by
      unfold x2
      refine State.modQuad_keeps _ _ _ ?_
      exact hk
    clear_value x2
    refine State.loadEnd_keeps _ _ _ _ ?_
    refine State.modSlot_keeps _ _ _ _ ?_
    exact h2
  · refine State.loadEnd_keeps _ _ _ _ ?_
    refine State.clearSlot_keeps _ _ _ _ ?_
    exact hk

theorem execCtxLoadDone_keeps (quad : Nat) (s : State) (hk : Keeps ls zs s) : KeepsR ls zs (execCtxLoadDone quad s)
    := by
  unfold execCtxLoadDone
  refine KeepsR.next ?_
  split
  · exact hk
  · refine Keeps.ite (fun _ => ?_) (fun _ => ?_)
    · extract_lets -merge +onlyGivenNames x1
      have h1 : Keeps ls zs x1 := by
        unfold x1
        refine State.loadBegin_keeps _ _ ?_
        exact hk
      clear_value x1
      refine Keeps.ite (fun _ => ?_) (fun _ => ?_)
      · split
        · refine State.loadDone_keeps _ _ _ _ _ ?_
          exact h1
        · exact h1
      · refine Keeps.ite (fun _ => ?_) (fun _ => ?_)
        · refine State.loadEnd_keeps _ _ _ _ ?_
          exact h1
        · exact h1
    · exact hk

theorem State.selectCtx_keeps (s : State) (b : Bytes) (hk : Keeps ls zs s) : KeepsP ls zs (State.selectCtx s b) :=
    by
  unfold State.selectCtx
  extract_lets -merge +onlyGivenNames x1
  clear_value x1
  extract_lets -merge +onlyGivenNames x2
  clear_value x2
  extract_lets -merge +onlyGivenNames x3
  clear_value x3
  refine KeepsP.ite (fun _ => ?_) (fun _ => ?_)
  · refine KeepsP.mk ?_
    exact hk
  · split
    · refine KeepsP.mk ?_
      exact hk
    · split
      · refine KeepsP.mk ?_
        exact hk
      · refine KeepsP.ite (fun _ => ?_) (fun _ => ?_)
        · refine KeepsP.mk ?_
          exact hk
        · refine KeepsP.ite (fun _ => ?_) (fun _ => ?_)
          · refine KeepsP.mk ?_
            exact hk
          · refine KeepsP.mk ?_
            refine State.modModel_keeps _ _ _ _ ?_
            exact hk

theorem execCtxSelect_keeps (src : CmdSrc) (s : State) (hk : Keeps ls zs s) : KeepsR ls zs (execCtxSelect src s) :=
    by
  unfold execCtxSelect
  refine KeepsR.next ?_
  refine State.runCmd_keeps _ _ _ _ ?_ ?_
  · exact hk
  · intro x1 x2 h1
    refine State.quick_keeps _ _ _ _ ?_ ?_
    · exact h1
    · intro x3 x4 h3
      refine State.selectCtx_keeps _ _ ?_
      exact h3

theorem State.freeStep_keeps (s : State) (c : Cmd) (hk : Keeps ls zs s) : Keeps ls zs (State.freeStep s c) := by
  unfold State.freeStep
  extract_lets -merge +onlyGivenNames x1
  clear_value x1
  extract_lets -merge +onlyGivenNames x2
  clear_value x2
  refine Keeps.ite (fun _ => ?_) (fun _ => ?_)
  · refine State.fin_keeps _ _ _ ?_
    refine State.clearSlot_keeps _ _ _ _ ?_
    exact hk
  · exact hk

theorem execCtxFree_keeps (src : CmdSrc) (s : State) (hk : Keeps ls zs s) : KeepsR ls zs (execCtxFree src s) := by
  unfold execCtxFree
  refine KeepsR.next ?_
  refine State.runCmd_keeps _ _ _ _ ?_ ?_
  · exact hk
  · intro x1 x2 h1
    refine State.begin_keeps _ _ _ _ _ ?_ ?_
    · exact h1
    · intro x3 x4 x5 h3
      split
      · refine State.fin_keeps _ _ _ ?_
        exact h3
      · refine State.onCmd_keeps _ _ _ ?_ ?_
        · exact h3
        · intro x6 x7 h6
          refine State.freeStep_keeps _ _ ?_
          exact h6

theorem execCtxQuery_keeps (src : CmdSrc) (s : State) (hk : Keeps ls zs s) : KeepsR ls zs (execCtxQuery src s) := by
  unfold execCtxQuery
  refine KeepsR.next ?_
  refine State.runCmd_keeps _ _ _ _ ?_ ?_
  · exact hk
  · intro x1 x2 h1
    refine State.quick_keeps _ _ _ _ ?_ ?_
    · exact h1
    · intro x3 x4 h3
      refine KeepsP.mk ?_
      exact h3

/-! ### CmdMaint -/

theorem execWarrenStatus_keeps (src : CmdSrc) (s : State) (hk : Keeps ls zs s) : KeepsR ls zs (execWarrenStatus src
    s) := by
  unfold execWarrenStatus
  refine KeepsR.next ?_
  refine State.runCmd_keeps _ _ _ _ ?_ ?_
  · exact hk
  · intro x1 x2 h1
    refine State.quick_keeps _ _ _ _ ?_ ?_
    · exact h1
    · intro x3 x4 h3
      refine KeepsP.mk ?_
      exact h3

theorem execRouteSet_keeps (src : CmdSrc) (s : State) (hk : Keeps ls zs s) : KeepsR ls zs (execRouteSet src s) := by
  unfold execRouteSet
  refine KeepsR.next ?_
  refine State.runCmd_keeps _ _ _ _ ?_ ?_
  · exact hk
  · intro x1 x2 h1
    refine State.quick_keeps _ _ _ _ ?_ ?_
    · exact h1
    · intro x3 x4 h3
      refine KeepsP.ite (fun _ => ?_) (fun _ => ?_)
      · refine KeepsP.mk ?_
        exact h3.lit rfl rfl rfl rfl rfl
      · refine KeepsP.mk ?_
        exact h3

theorem State.onPort_keeps (s : State) (b : Bytes) (f : State → Nat → CmdRes × State) (hk : Keeps ls zs s) (hf : ∀
    (y0 : State) (y1 : Nat), Keeps ls zs y0 → KeepsP ls zs (f y0 y1)) : KeepsP ls zs (State.onPort s b f) := by
  unfold State.onPort
  refine KeepsP.ite (fun _ => ?_) (fun _ => ?_)
  · refine KeepsP.mk ?_
    exact hk
  · refine hf _ _ ?_
    exact hk

theorem State.disablePort_keeps (s : State) (p : Nat) (hk : Keeps ls zs s) : Keeps ls zs (State.disablePort s p) :=
    by
  unfold State.disablePort
  refine State.modPort_keeps _ _ _ ?_
  exact hk

theorem execLinkCtrlDisable_keeps (src : CmdSrc) (s : State) (hk : Keeps ls zs s) : KeepsR ls zs
    (execLinkCtrlDisable src s) := by
  unfold execLinkCtrlDisable
  refine KeepsR.next ?_
  refine State.runCmd_keeps _ _ _ _ ?_ ?_
  · exact hk
  · intro x1 x2 h1
    refine State.quick_keeps _ _ _ _ ?_ ?_
    · exact h1
    · intro x3 x4 h3
      refine State.onPort_keeps _ _ _ ?_ ?_
      · exact h3
      · intro x5 x6 h5
        refine KeepsP.mk ?_
        refine State.disablePort_keeps _ _ ?_
        exact h5

theorem State.enablePort_keeps (s : State) (p : Nat) (hk : Keeps ls zs s) : Keeps ls zs (State.enablePort s p) := by
  unfold State.enablePort
  refine State.modPort_keeps _ _ _ ?_
  exact hk

theorem execLinkCtrlEnable_keeps (src : CmdSrc) (s : State) (hk : Keeps ls zs s) : KeepsR ls zs (execLinkCtrlEnable
    src s) := by
  unfold execLinkCtrlEnable
  refine KeepsR.next ?_
  refine State.runCmd_keeps _ _ _ _ ?_ ?_
  · exact hk
  · intro x1 x2 h1
    refine State.quick_keeps _ _ _ _ ?_ ?_
    · exact h1
    · intro x3 x4 h3
      refine State.onPort_keeps _ _ _ ?_ ?_
      · exact h3
      · intro x5 x6 h5
        refine KeepsP.mk ?_
        refine State.enablePort_keeps _ _ ?_
        exact h5

theorem State.retrainPort_keeps (s : State) (p : Nat) (hk : Keeps ls zs s) : Keeps ls zs (State.retrainPort s p) :=
    by
  unfold State.retrainPort
  refine Keeps.ite (fun _ => ?_) (fun _ => ?_)
  · refine State.modPort_keeps _ _ _ ?_
    exact hk
  · exact hk

theorem execLinkCtrlRetrain_keeps (src : CmdSrc) (s : State) (hk : Keeps ls zs s) : KeepsR ls zs
    (execLinkCtrlRetrain src s) := by
  unfold execLinkCtrlRetrain
  refine KeepsR.next ?_
  refine State.runCmd_keeps _ _ _ _ ?_ ?_
  · exact hk
  · intro x1 x2 h1
    refine State.quick_keeps _ _ _ _ ?_ ?_
    · exact h1
    · intro x3 x4 h3
      refine State.onPort_keeps _ _ _ ?_ ?_
      · exact h3
      · intro x5 x6 h5
        refine KeepsP.mk ?_
        refine State.retrainPort_keeps _ _ ?_
        exact h5

theorem State.clearFences_keeps (s : State) (p : Nat) (hk : Keeps ls zs s) : Keeps ls zs (State.clearFences s p) :=
    by
  unfold State.clearFences
  extract_lets -merge +onlyGivenNames x1
  have h1 : Keeps ls zs x1 := by
    unfold x1
    refine State.record_keeps _ _ _ _ ?_
    refine State.modPort_keeps _ _ _ ?_
    exact hk
  clear_value x1
  refine State.retrainPort_keeps _ _ ?_
  exact h1.lit rfl rfl rfl rfl rfl

theorem execLinkCtrlClearFences_keeps (src : CmdSrc) (s : State) (hk : Keeps ls zs s) : KeepsR ls zs
    (execLinkCtrlClearFences src s) := by
  unfold execLinkCtrlClearFences
  refine KeepsR.next ?_
  refine State.runCmd_keeps _ _ _ _ ?_ ?_
  · exact hk
  · intro x1 x2 h1
    refine State.quick_keeps _ _ _ _ ?_ ?_
    · exact h1
    · intro x3 x4 h3
      refine State.onPort_keeps _ _ _ ?_ ?_
      · exact h3
      · intro x5 x6 h5
        refine KeepsP.ite (fun _ => ?_) (fun _ => ?_)
        · refine KeepsP.mk ?_
          refine State.clearFences_keeps _ _ ?_
          exact h5
        · refine KeepsP.mk ?_
          exact h5

theorem State.beginSurvey_keeps (s : State) (id : Nat) (hk : Keeps ls zs s) : Keeps ls zs (State.beginSurvey s id)
    := by
  unfold State.beginSurvey
  refine State.mgtAll_keeps _ _ _ _ ?_
  exact hk.lit rfl rfl rfl rfl rfl

theorem execWarrenSurvey_keeps (src : CmdSrc) (s : State) (hk : Keeps ls zs s) : KeepsR ls zs (execWarrenSurvey src
    s) := by
  unfold execWarrenSurvey
  refine KeepsR.next ?_
  refine State.runCmd_keeps _ _ _ _ ?_ ?_
  · exact hk
  · intro x1 x2 h1
    refine State.begin_keeps _ _ _ _ _ ?_ ?_
    · exact h1
    · intro x3 x4 x5 h3
      refine Keeps.ite (fun _ => ?_) (fun _ => ?_)
      · refine State.fin_keeps _ _ _ ?_
        exact h3
      · refine Keeps.ite (fun _ => ?_) (fun _ => ?_)
        · refine State.fin_keeps _ _ _ ?_
          exact h3
        · refine State.beginSurvey_keeps _ _ ?_
          exact h3

theorem execMarginRun_keeps (src : CmdSrc) (s : State) (hk : Keeps ls zs s) : KeepsR ls zs (execMarginRun src s) :=
    by
  unfold execMarginRun
  refine KeepsR.next ?_
  refine State.runCmd_keeps _ _ _ _ ?_ ?_
  · exact hk
  · intro x1 x2 h1
    refine State.begin_keeps _ _ _ _ _ ?_ ?_
    · exact h1
    · intro x3 x4 x5 h3
      refine Keeps.ite (fun _ => ?_) (fun _ => ?_)
      · refine State.fin_keeps _ _ _ ?_
        exact h3
      · refine State.each_keeps _ _ _ ?_ ?_
        · exact h3
        · intro x6 x7 h6
          refine State.modStack_keeps _ _ _ ?_
          exact h6

theorem State.zeroStacks_keeps (s : State) (xa1 : List Nat) (hk : Keeps ls zs s) : Keeps ls zs (State.zeroStacks s
    xa1) := by
  unfold State.zeroStacks
  extract_lets -merge +onlyGivenNames x1
  clear_value x1
  extract_lets -merge +onlyGivenNames x2
  exact hk.hbm rfl (mwf_filter hk.2.1 _) rfl rfl rfl

theorem State.marginDone_keeps (s : State) (c : Cmd) (hk : Keeps ls zs s) : Keeps ls zs (State.marginDone s c) := by
  unfold State.marginDone
  extract_lets -merge +onlyGivenNames x1
  clear_value x1
  extract_lets -merge +onlyGivenNames x2
  have h2 : Keeps ls zs x2 := by
    unfold x2
    refine State.each_keeps _ _ _ ?_ ?_
    · exact hk
    · intro x3 x4 h3
      refine State.modStack_keeps _ _ _ ?_
      refine State.marginStack_keeps _ _ _ ?_
      exact h3
  clear_value x2
  refine State.fin_keeps _ _ _ ?_
  refine State.zeroStacks_keeps _ _ ?_
  exact h2

theorem execTileFence_keeps (src : CmdSrc) (s : State) (hk : Keeps ls zs s) : KeepsR ls zs (execTileFence src s) :=
    by
  unfold execTileFence
  refine KeepsR.next ?_
  refine State.runCmd_keeps _ _ _ _ ?_ ?_
  · exact hk
  · intro x1 x2 h1
    refine State.quick_keeps _ _ _ _ ?_ ?_
    · exact h1
    · intro x3 x4 h3
      refine KeepsP.mk ?_
      refine State.fenceTile_keeps _ _ _ _ _ ?_
      exact h3

theorem execTileUnfence_keeps (src : CmdSrc) (s : State) (hk : Keeps ls zs s) : KeepsR ls zs (execTileUnfence src s)
    := by
  unfold execTileUnfence
  refine KeepsR.next ?_
  refine State.runCmd_keeps _ _ _ _ ?_ ?_
  · exact hk
  · intro x1 x2 h1
    refine State.begin_keeps _ _ _ _ _ ?_ ?_
    · exact h1
    · intro x3 x4 x5 h3
      refine Keeps.ite (fun _ => ?_) (fun _ => ?_)
      · refine State.fin_keeps _ _ _ ?_
        exact h3
      · refine Keeps.ite (fun _ => ?_) (fun _ => ?_)
        · refine State.fin_keeps _ _ _ ?_
          exact h3
        · exact h3

theorem State.unfence_keeps (s : State) (t : Nat) (hk : Keeps ls zs s) : Keeps ls zs (State.unfence s t) := by
  unfold State.unfence
  extract_lets -merge +onlyGivenNames x1
  have h1 : Keeps ls zs x1 := by
    unfold x1
    refine State.modTile_keeps _ _ _ ?_
    exact hk
  clear_value x1
  refine State.record_keeps _ _ _ _ ?_
  exact h1.lit rfl rfl rfl rfl rfl

theorem State.unfenceDone_keeps (s : State) (c : Cmd) (pass : Bool) (hk : Keeps ls zs s) : Keeps ls zs
    (State.unfenceDone s c pass) := by
  unfold State.unfenceDone
  refine Keeps.ite (fun _ => ?_) (fun _ => ?_)
  · refine State.fin_keeps _ _ _ ?_
    refine State.unfence_keeps _ _ ?_
    exact hk
  · refine State.fin_keeps _ _ _ ?_
    exact hk

theorem State.sendData_keeps (s : State) (c : CmdSrc) (id : Nat) (dest : Nat) (bytes : Bytes) (hk : Keeps ls zs s) :
    Keeps ls zs (State.sendData s c id dest bytes) := by
  unfold State.sendData
  refine Keeps.ite (fun _ => ?_) (fun _ => ?_)
  · refine State.writeOut_keeps _ _ _ _ _ _ ?_
    exact hk
  · split
    · refine State.uartData_keeps _ _ _ ?_
      refine State.fin_keeps _ _ _ ?_
      exact hk
    · refine Keeps.ite (fun _ => ?_) (fun _ => ?_)
      · refine State.fin_keeps _ _ _ ?_
        exact hk
      · exact hk.lit rfl rfl rfl rfl rfl

theorem execLedgerRead_keeps (src : CmdSrc) (s : State) (hk : Keeps ls zs s) : KeepsR ls zs (execLedgerRead src s)
    := by
  unfold execLedgerRead
  refine KeepsR.next ?_
  refine State.runCmd_keeps _ _ _ _ ?_ ?_
  · exact hk
  · intro x1 x2 h1
    refine State.begin_keeps _ _ _ _ _ ?_ ?_
    · exact h1
    · intro x3 x4 x5 h3
      refine State.sendData_keeps _ _ _ _ _ ?_
      exact h3

theorem execTagRead_keeps (src : CmdSrc) (s : State) (hk : Keeps ls zs s) : KeepsR ls zs (execTagRead src s) := by
  unfold execTagRead
  refine KeepsR.next ?_
  refine State.runCmd_keeps _ _ _ _ ?_ ?_
  · exact hk
  · intro x1 x2 h1
    refine State.begin_keeps _ _ _ _ _ ?_ ?_
    · exact h1
    · intro x3 x4 x5 h3
      refine Keeps.ite (fun _ => ?_) (fun _ => ?_)
      · refine State.fin_keeps _ _ _ ?_
        exact h3
      · refine State.sendData_keeps _ _ _ _ _ ?_
        exact h3

theorem execDiagRun_keeps (src : CmdSrc) (s : State) (hk : Keeps ls zs s) : KeepsR ls zs (execDiagRun src s) := by
  unfold execDiagRun
  refine KeepsR.next ?_
  refine State.runCmd_keeps _ _ _ _ ?_ ?_
  · exact hk
  · intro x1 x2 h1
    refine State.begin_keeps _ _ _ _ _ ?_ ?_
    · exact h1
    · intro x3 x4 x5 h3
      refine Keeps.ite (fun _ => ?_) (fun _ => ?_)
      · refine State.fin_keeps _ _ _ ?_
        exact h3
      · exact h3

theorem State.diagDone_keeps (s : State) (c : Cmd) (result : Bytes) (hk : Keeps ls zs s) : Keeps ls zs
    (State.diagDone s c result) := by
  unfold State.diagDone
  extract_lets -merge +onlyGivenNames x1
  refine State.fin_keeps _ _ _ ?_
  exact hk

theorem execFwStage_keeps (src : CmdSrc) (s : State) (hk : Keeps ls zs s) : KeepsR ls zs (execFwStage src s) := by
  unfold execFwStage
  refine KeepsR.next ?_
  refine State.runCmd_keeps _ _ _ _ ?_ ?_
  · exact hk
  · intro x1 x2 h1
    refine State.begin_keeps _ _ _ _ _ ?_ ?_
    · exact h1
    · intro x3 x4 x5 h3
      refine Keeps.ite (fun _ => ?_) (fun _ => ?_)
      · refine State.fin_keeps _ _ _ ?_
        exact h3
      · refine Keeps.ite (fun _ => ?_) (fun _ => ?_)
        · refine State.readIn_keeps _ _ _ _ _ ?_
          exact h3
        · refine Keeps.ite (fun _ => ?_) (fun _ => ?_)
          · refine State.fin_keeps _ _ _ ?_
            exact h3
          · extract_lets -merge +onlyGivenNames x6
            have h6 : Keeps ls zs x6 := by
              unfold x6
              refine State.mark_keeps _ _ _ _ ?_
              exact h3
            clear_value x6
            exact h6.lit rfl rfl rfl rfl rfl

theorem State.eraseBank_keeps (s : State) (k : Nat) (hk : Keeps ls zs s) : Keeps ls zs (State.eraseBank s k) := by
  unfold State.eraseBank
  extract_lets -merge +onlyGivenNames x1
  clear_value x1
  extract_lets -merge +onlyGivenNames x2
  have h2 : Keeps ls zs x2 := by
    unfold x2
    refine State.record_keeps _ _ _ _ ?_
    exact hk
  clear_value x2
  extract_lets -merge +onlyGivenNames x3
  clear_value x3
  exact h2.lit rfl rfl rfl rfl rfl

theorem State.fwStep_keeps (s : State) (c : Cmd) (hk : Keeps ls zs s) : Keeps ls zs (State.fwStep s c) := by
  unfold State.fwStep
  extract_lets -merge +onlyGivenNames x1
  clear_value x1
  split
  · split
    · refine State.fin_keeps _ _ _ ?_
      exact hk
    · refine State.readIn_keeps _ _ _ _ _ ?_
      refine State.mark_keeps _ _ _ _ ?_
      exact hk
  · split
    · refine State.fin_keeps _ _ _ ?_
      exact hk
    · refine Keeps.ite (fun _ => ?_) (fun _ => ?_)
      · refine State.fin_keeps _ _ _ ?_
        exact hk
      · refine State.mark_keeps _ _ _ _ ?_
        refine State.eraseBank_keeps _ _ ?_
        exact hk
  · refine State.fin_keeps _ _ _ ?_
    exact hk.lit rfl rfl rfl rfl rfl

theorem execFwActivate_keeps (src : CmdSrc) (s : State) (hk : Keeps ls zs s) : KeepsR ls zs (execFwActivate src s)
    := by
  unfold execFwActivate
  refine KeepsR.next ?_
  refine State.runCmd_keeps _ _ _ _ ?_ ?_
  · exact hk
  · intro x1 x2 h1
    refine State.quick_keeps _ _ _ _ ?_ ?_
    · exact h1
    · intro x3 x4 h3
      extract_lets -merge +onlyGivenNames x5
      clear_value x5
      refine KeepsP.ite (fun _ => ?_) (fun _ => ?_)
      · refine KeepsP.mk ?_
        exact h3
      · refine KeepsP.ite (fun _ => ?_) (fun _ => ?_)
        · refine KeepsP.mk ?_
          exact h3
        · refine KeepsP.mk ?_
          refine State.record_keeps _ _ _ _ ?_
          exact h3

theorem execFwQuery_keeps (src : CmdSrc) (s : State) (hk : Keeps ls zs s) : KeepsR ls zs (execFwQuery src s) := by
  unfold execFwQuery
  refine KeepsR.next ?_
  refine State.runCmd_keeps _ _ _ _ ?_ ?_
  · exact hk
  · intro x1 x2 h1
    refine State.quick_keeps _ _ _ _ ?_ ?_
    · exact h1
    · intro x3 x4 h3
      refine KeepsP.mk ?_
      exact h3

theorem execFwCommit_keeps (src : CmdSrc) (s : State) (hk : Keeps ls zs s) : KeepsR ls zs (execFwCommit src s) := by
  unfold execFwCommit
  refine KeepsR.next ?_
  refine State.runCmd_keeps _ _ _ _ ?_ ?_
  · exact hk
  · intro x1 x2 h1
    refine State.quick_keeps _ _ _ _ ?_ ?_
    · exact h1
    · intro x3 x4 h3
      refine KeepsP.mk ?_
      exact h3.lit rfl rfl rfl rfl rfl

theorem State.probeDone_keeps (s : State) (c : Cmd) (hk : Keeps ls zs s) : Keeps ls zs (State.probeDone s c) := by
  unfold State.probeDone
  split
  · refine State.fin_keeps _ _ _ ?_
    exact hk
  · refine State.fin_keeps _ _ _ ?_
    exact hk

theorem State.configStep_keeps (s : State) (c : Cmd) (hk : Keeps ls zs s) : Keeps ls zs (State.configStep s c) := by
  unfold State.configStep
  split
  · refine State.tilesStep_keeps _ _ ?_
    exact hk
  · refine Keeps.ite (fun _ => ?_) (fun _ => ?_)
    · refine State.hbmStep_keeps _ _ ?_
      exact hk
    · exact hk
  · refine State.waysStep_keeps _ _ ?_
    exact hk
  · refine State.mioterStep_keeps _ _ ?_
    exact hk
  · exact hk

theorem State.cmdStep_keeps (s : State) (c : Cmd) (result : Bytes) (hk : Keeps ls zs s) : Keeps ls zs (State.cmdStep
    s c result) := by
  unfold State.cmdStep
  refine Keeps.ite (fun _ => ?_) (fun _ => ?_)
  · refine Keeps.ite (fun _ => ?_) (fun _ => ?_)
    · refine State.fin_keeps _ _ _ ?_
      exact hk
    · exact hk
  · split
    · refine Keeps.ite (fun _ => ?_) (fun _ => ?_)
      · refine State.storeProfile_keeps _ _ ?_
        exact hk
      · exact hk
    · refine State.fin_keeps _ _ _ ?_
      refine State.scrubRetained_keeps _ ?_
      exact hk
    · refine Keeps.ite (fun _ => ?_) (fun _ => ?_)
      · refine State.probeDone_keeps _ _ ?_
        exact hk
      · exact hk
    · refine State.configStep_keeps _ _ ?_
      exact hk
    · refine State.fin_keeps _ _ _ ?_
      refine State.destroyDen_keeps _ _ ?_
      exact hk
    · refine Keeps.ite (fun _ => ?_) (fun _ => ?_)
      · refine State.attachStep_keeps _ _ ?_
        exact hk
      · exact hk
    · refine Keeps.ite (fun _ => ?_) (fun _ => ?_)
      · refine State.loadStep_keeps _ _ ?_
        exact hk
      · exact hk
    · refine Keeps.ite (fun _ => ?_) (fun _ => ?_)
      · refine State.createStep_keeps _ _ ?_
        exact hk
      · exact hk
    · refine Keeps.ite (fun _ => ?_) (fun _ => ?_)
      · refine State.ctxStoreStep_keeps _ _ ?_
        exact hk
      · exact hk
    · refine State.freeStep_keeps _ _ ?_
      exact hk
    · refine State.marginDone_keeps _ _ ?_
      exact hk
    · refine State.unfenceDone_keeps _ _ _ ?_
      exact hk
    · refine State.diagDone_keeps _ _ _ ?_
      exact hk
    · refine Keeps.ite (fun _ => ?_) (fun _ => ?_)
      · refine State.fwStep_keeps _ _ ?_
        exact hk
      · exact hk
    · exact hk

theorem State.cmdFail_keeps (s : State) (c : Cmd) (e : Nat) (hk : Keeps ls zs s) : Keeps ls zs (State.cmdFail s c e)
    := by
  unfold State.cmdFail
  split
  · refine State.probeDone_keeps _ _ ?_
    exact hk
  · refine State.attachStep_keeps _ _ ?_
    exact hk
  · refine State.ctxStoreFail_keeps _ _ _ ?_
    exact hk
  · refine State.fin_keeps _ _ _ ?_
    exact hk

theorem execCommandDone_keeps (id : Nat) (result : Bytes) (s : State) (hk : Keeps ls zs s) : KeepsR ls zs
    (execCommandDone id result s) := by
  unfold execCommandDone
  refine KeepsR.next ?_
  split
  · exact hk
  · refine Keeps.ite (fun _ => ?_) (fun _ => ?_)
    · split
      · refine State.cmdFail_keeps _ _ _ ?_
        exact hk
      · refine State.cmdStep_keeps _ _ _ ?_
        exact hk
    · exact hk

end

end Sys2Proof.Machine
end

