-- ==== Sys2Proof/Laws/KeepsTiles.lean ====
section
/-!
SUPPORT. One lemma per operation, meaning by meaning: it keeps what every command keeps (Laws.Keeps). Here: the rows of the tiles and their engines.
-/

namespace Sys2Proof.Machine

section
variable {ls : List Instr} {zs : W64 × Nat}

/-! ### TileAlu -/

theorem State.alu_keeps (s : State) (t : Nat) (op : Nat) (regs : W64 → List Nat) (v : Tile → W64 → W64) (hk : Keeps
    ls zs s) : Keeps ls zs (State.alu s t op regs v) := by
  unfold State.alu
  refine State.issue_keeps _ _ _ _ _ ?_ ?_
  · exact hk
  · intro x1 x2 x3 h1
    refine State.setReg_keeps _ _ _ _ ?_
    exact h1

theorem execTNop_keeps (tile : Nat) (s : State) (hk : Keeps ls zs s) : KeepsR ls zs (execTNop tile s) := by
  unfold execTNop
  refine KeepsR.next ?_
  refine State.issue_keeps _ _ _ _ _ ?_ ?_
  · exact hk
  · intro x1 x2 x3 h1
    refine State.advance_keeps _ _ ?_
    exact h1

theorem execTAdd_keeps (tile : Nat) (s : State) (hk : Keeps ls zs s) : KeepsR ls zs (execTAdd tile s) := by
  unfold execTAdd
  refine KeepsR.next ?_
  refine State.alu_keeps _ _ _ _ _ ?_
  exact hk

theorem execTAddi_keeps (tile : Nat) (s : State) (hk : Keeps ls zs s) : KeepsR ls zs (execTAddi tile s) := by
  unfold execTAddi
  refine KeepsR.next ?_
  refine State.alu_keeps _ _ _ _ _ ?_
  exact hk

theorem execTSub_keeps (tile : Nat) (s : State) (hk : Keeps ls zs s) : KeepsR ls zs (execTSub tile s) := by
  unfold execTSub
  refine KeepsR.next ?_
  refine State.alu_keeps _ _ _ _ _ ?_
  exact hk

theorem execTMul_keeps (tile : Nat) (s : State) (hk : Keeps ls zs s) : KeepsR ls zs (execTMul tile s) := by
  unfold execTMul
  refine KeepsR.next ?_
  refine State.alu_keeps _ _ _ _ _ ?_
  exact hk

theorem execTAnd_keeps (tile : Nat) (s : State) (hk : Keeps ls zs s) : KeepsR ls zs (execTAnd tile s) := by
  unfold execTAnd
  refine KeepsR.next ?_
  refine State.alu_keeps _ _ _ _ _ ?_
  exact hk

theorem execTOr_keeps (tile : Nat) (s : State) (hk : Keeps ls zs s) : KeepsR ls zs (execTOr tile s) := by
  unfold execTOr
  refine KeepsR.next ?_
  refine State.alu_keeps _ _ _ _ _ ?_
  exact hk

theorem execTXor_keeps (tile : Nat) (s : State) (hk : Keeps ls zs s) : KeepsR ls zs (execTXor tile s) := by
  unfold execTXor
  refine KeepsR.next ?_
  refine State.alu_keeps _ _ _ _ _ ?_
  exact hk

theorem execTAndi_keeps (tile : Nat) (s : State) (hk : Keeps ls zs s) : KeepsR ls zs (execTAndi tile s) := by
  unfold execTAndi
  refine KeepsR.next ?_
  refine State.alu_keeps _ _ _ _ _ ?_
  exact hk

theorem execTShl_keeps (tile : Nat) (s : State) (hk : Keeps ls zs s) : KeepsR ls zs (execTShl tile s) := by
  unfold execTShl
  refine KeepsR.next ?_
  refine State.alu_keeps _ _ _ _ _ ?_
  exact hk

theorem execTShr_keeps (tile : Nat) (s : State) (hk : Keeps ls zs s) : KeepsR ls zs (execTShr tile s) := by
  unfold execTShr
  refine KeepsR.next ?_
  refine State.alu_keeps _ _ _ _ _ ?_
  exact hk

theorem execTSra_keeps (tile : Nat) (s : State) (hk : Keeps ls zs s) : KeepsR ls zs (execTSra tile s) := by
  unfold execTSra
  refine KeepsR.next ?_
  refine State.alu_keeps _ _ _ _ _ ?_
  exact hk

theorem execTSlt_keeps (tile : Nat) (s : State) (hk : Keeps ls zs s) : KeepsR ls zs (execTSlt tile s) := by
  unfold execTSlt
  refine KeepsR.next ?_
  refine State.alu_keeps _ _ _ _ _ ?_
  exact hk

theorem execTSltu_keeps (tile : Nat) (s : State) (hk : Keeps ls zs s) : KeepsR ls zs (execTSltu tile s) := by
  unfold execTSltu
  refine KeepsR.next ?_
  refine State.alu_keeps _ _ _ _ _ ?_
  exact hk

theorem execTMin_keeps (tile : Nat) (s : State) (hk : Keeps ls zs s) : KeepsR ls zs (execTMin tile s) := by
  unfold execTMin
  refine KeepsR.next ?_
  refine State.alu_keeps _ _ _ _ _ ?_
  exact hk

theorem execTMax_keeps (tile : Nat) (s : State) (hk : Keeps ls zs s) : KeepsR ls zs (execTMax tile s) := by
  unfold execTMax
  refine KeepsR.next ?_
  refine State.alu_keeps _ _ _ _ _ ?_
  exact hk

theorem execTLi_keeps (tile : Nat) (s : State) (hk : Keeps ls zs s) : KeepsR ls zs (execTLi tile s) := by
  unfold execTLi
  refine KeepsR.next ?_
  refine State.alu_keeps _ _ _ _ _ ?_
  exact hk

theorem execTLih_keeps (tile : Nat) (s : State) (hk : Keeps ls zs s) : KeepsR ls zs (execTLih tile s) := by
  unfold execTLih
  refine KeepsR.next ?_
  refine State.alu_keeps _ _ _ _ _ ?_
  exact hk

theorem State.readSpecial_keeps (s : State) (t : Nat) (d : Nat) (w : W64) (hk : Keeps ls zs s) : Keeps ls zs
    (State.readSpecial s t d w) := by
  unfold State.readSpecial
  refine Keeps.ite (fun _ => ?_) (fun _ => ?_)
  · extract_lets -merge +onlyGivenNames x1
    have h1 : KeepsP ls zs x1 := by
      unfold x1
      refine State.free_keeps _ _ ?_
      exact hk
    clear_value x1
    refine State.setReg_keeps _ _ _ _ ?_
    exact h1
  · refine State.setReg_keeps _ _ _ _ ?_
    exact hk

theorem execTRdsr_keeps (tile : Nat) (s : State) (hk : Keeps ls zs s) : KeepsR ls zs (execTRdsr tile s) := by
  unfold execTRdsr
  refine KeepsR.next ?_
  refine State.issue_keeps _ _ _ _ _ ?_ ?_
  · exact hk
  · intro x1 x2 x3 h1
    refine State.readSpecial_keeps _ _ _ _ ?_
    exact h1

theorem State.branch_keeps (s : State) (t : Nat) (op : Nat) (cond : W64 → W64 → Bool) (hk : Keeps ls zs s) : Keeps
    ls zs (State.branch s t op cond) := by
  unfold State.branch
  refine State.issue_keeps _ _ _ _ _ ?_ ?_
  · exact hk
  · intro x1 x2 x3 h1
    refine Keeps.ite (fun _ => ?_) (fun _ => ?_)
    · refine State.goto_keeps _ _ _ ?_
      exact h1
    · refine State.advance_keeps _ _ ?_
      exact h1

theorem execTBeq_keeps (tile : Nat) (s : State) (hk : Keeps ls zs s) : KeepsR ls zs (execTBeq tile s) := by
  unfold execTBeq
  refine KeepsR.next ?_
  refine State.branch_keeps _ _ _ _ ?_
  exact hk

theorem execTBne_keeps (tile : Nat) (s : State) (hk : Keeps ls zs s) : KeepsR ls zs (execTBne tile s) := by
  unfold execTBne
  refine KeepsR.next ?_
  refine State.branch_keeps _ _ _ _ ?_
  exact hk

theorem execTBlt_keeps (tile : Nat) (s : State) (hk : Keeps ls zs s) : KeepsR ls zs (execTBlt tile s) := by
  unfold execTBlt
  refine KeepsR.next ?_
  refine State.branch_keeps _ _ _ _ ?_
  exact hk

theorem execTBge_keeps (tile : Nat) (s : State) (hk : Keeps ls zs s) : KeepsR ls zs (execTBge tile s) := by
  unfold execTBge
  refine KeepsR.next ?_
  refine State.branch_keeps _ _ _ _ ?_
  exact hk

theorem State.jal_keeps (s : State) (t : Nat) (w : W64) (hk : Keeps ls zs s) : Keeps ls zs (State.jal s t w) := by
  unfold State.jal
  extract_lets -merge +onlyGivenNames x1
  clear_value x1
  refine State.goto_keeps _ _ _ ?_
  refine State.modTile_keeps _ _ _ ?_
  exact hk

theorem execTJal_keeps (tile : Nat) (s : State) (hk : Keeps ls zs s) : KeepsR ls zs (execTJal tile s) := by
  unfold execTJal
  refine KeepsR.next ?_
  refine State.issue_keeps _ _ _ _ _ ?_ ?_
  · exact hk
  · intro x1 x2 x3 h1
    refine State.jal_keeps _ _ _ ?_
    exact h1

theorem execTJr_keeps (tile : Nat) (s : State) (hk : Keeps ls zs s) : KeepsR ls zs (execTJr tile s) := by
  unfold execTJr
  refine KeepsR.next ?_
  refine State.issue_keeps _ _ _ _ _ ?_ ?_
  · exact hk
  · intro x1 x2 x3 h1
    refine State.goto_keeps _ _ _ ?_
    exact h1

theorem execTEnd_keeps (tile : Nat) (s : State) (hk : Keeps ls zs s) : KeepsR ls zs (execTEnd tile s) := by
  unfold execTEnd
  refine KeepsR.next ?_
  refine State.issue_keeps _ _ _ _ _ ?_ ?_
  · exact hk
  · intro x1 x2 x3 h1
    refine State.modTile_keeps _ _ _ ?_
    exact h1

theorem execTTrap_keeps (tile : Nat) (s : State) (hk : Keeps ls zs s) : KeepsR ls zs (execTTrap tile s) := by
  unfold execTTrap
  refine KeepsR.next ?_
  refine State.issue_keeps _ _ _ _ _ ?_ ?_
  · exact hk
  · intro x1 x2 x3 h1
    refine State.tileFault_keeps _ _ _ _ _ _ _ ?_
    exact h1

theorem State.parkAt_keeps (s : State) (t : Nat) (hk : Keeps ls zs s) : Keeps ls zs (State.parkAt s t) := by
  unfold State.parkAt
  refine Keeps.ite (fun _ => ?_) (fun _ => ?_)
  · refine State.modTile_keeps _ _ _ ?_
    exact hk
  · refine State.advance_keeps _ _ ?_
    exact hk

theorem execTYield_keeps (tile : Nat) (s : State) (hk : Keeps ls zs s) : KeepsR ls zs (execTYield tile s) := by
  unfold execTYield
  refine KeepsR.next ?_
  refine State.issue_keeps _ _ _ _ _ ?_ ?_
  · exact hk
  · intro x1 x2 x3 h1
    refine Keeps.ite (fun _ => ?_) (fun _ => ?_)
    · refine State.parkAt_keeps _ _ ?_
      exact h1
    · refine State.advance_keeps _ _ ?_
      exact h1

/-! ### TileMem -/

theorem State.lds_keeps (s : State) (t : Nat) (w : W64) (hk : Keeps ls zs s) : Keeps ls zs (State.lds s t w) := by
  unfold State.lds
  extract_lets -merge +onlyGivenNames x1
  clear_value x1
  extract_lets -merge +onlyGivenNames x2
  clear_value x2
  refine Keeps.ite (fun _ => ?_) (fun _ => ?_)
  · refine State.withSram_keeps _ _ _ _ _ ?_ ?_
    · exact hk
    · intro x3 x4 h3
      refine State.setReg_keeps _ _ _ _ ?_
      exact h3
  · refine State.tileFault_keeps _ _ _ _ _ _ _ ?_
    exact hk

theorem execTLds_keeps (tile : Nat) (s : State) (hk : Keeps ls zs s) : KeepsR ls zs (execTLds tile s) := by
  unfold execTLds
  refine KeepsR.next ?_
  refine State.issue_keeps _ _ _ _ _ ?_ ?_
  · exact hk
  · intro x1 x2 x3 h1
    refine State.lds_keeps _ _ _ ?_
    exact h1

theorem State.advanceIfRunning_keeps (s : State) (t : Nat) (hk : Keeps ls zs s) : Keeps ls zs
    (State.advanceIfRunning s t) := by
  unfold State.advanceIfRunning
  refine Keeps.ite (fun _ => ?_) (fun _ => ?_)
  · refine State.advance_keeps _ _ ?_
    exact hk
  · exact hk

theorem State.sts_keeps (s : State) (t : Nat) (w : W64) (hk : Keeps ls zs s) : Keeps ls zs (State.sts s t w) := by
  unfold State.sts
  extract_lets -merge +onlyGivenNames x1
  clear_value x1
  extract_lets -merge +onlyGivenNames x2
  clear_value x2
  refine Keeps.ite (fun _ => ?_) (fun _ => ?_)
  · refine State.advanceIfRunning_keeps _ _ ?_
    refine State.sramWrite_keeps _ _ _ _ ?_
    exact hk
  · refine State.tileFault_keeps _ _ _ _ _ _ _ ?_
    exact hk

theorem execTSts_keeps (tile : Nat) (s : State) (hk : Keeps ls zs s) : KeepsR ls zs (execTSts tile s) := by
  unfold execTSts
  refine KeepsR.next ?_
  refine State.issue_keeps _ _ _ _ _ ?_ ?_
  · exact hk
  · intro x1 x2 x3 h1
    refine State.sts_keeps _ _ _ ?_
    exact h1

theorem State.loadG_keeps (s : State) (t : Nat) (w : W64) (r : Req) (hk : Keeps ls zs s) : Keeps ls zs (State.loadG
    s t w r) := by
  unfold State.loadG
  extract_lets -merge +onlyGivenNames x1
  clear_value x1
  extract_lets -merge +onlyGivenNames x2
  clear_value x2
  refine Keeps.ite (fun _ => ?_) (fun _ => ?_)
  · refine State.tileFault_keeps _ _ _ _ _ _ _ ?_
    exact hk
  · refine State.globalAcc_keeps _ _ _ _ _ _ _ _ ?_
    exact hk

theorem execTLdg_keeps (tile : Nat) (s : State) (hk : Keeps ls zs s) : KeepsR ls zs (execTLdg tile s) := by
  unfold execTLdg
  refine KeepsR.next ?_
  refine State.issue_keeps _ _ _ _ _ ?_ ?_
  · exact hk
  · intro x1 x2 x3 h1
    refine State.loadG_keeps _ _ _ _ ?_
    exact h1

theorem State.storeG_keeps (s : State) (t : Nat) (w : W64) (r : Req) (hk : Keeps ls zs s) : Keeps ls zs
    (State.storeG s t w r) := by
  unfold State.storeG
  extract_lets -merge +onlyGivenNames x1
  clear_value x1
  extract_lets -merge +onlyGivenNames x2
  clear_value x2
  refine Keeps.ite (fun _ => ?_) (fun _ => ?_)
  · refine State.tileFault_keeps _ _ _ _ _ _ _ ?_
    exact hk
  · refine State.globalAcc_keeps _ _ _ _ _ _ _ _ ?_
    exact hk

theorem execTStg_keeps (tile : Nat) (s : State) (hk : Keeps ls zs s) : KeepsR ls zs (execTStg tile s) := by
  unfold execTStg
  refine KeepsR.next ?_
  refine State.issue_keeps _ _ _ _ _ ?_ ?_
  · exact hk
  · intro x1 x2 x3 h1
    refine State.storeG_keeps _ _ _ _ ?_
    exact h1

theorem State.blockMove_keeps (s : State) (t : Nat) (w : W64) (f : Nat → Nat → State) (hk : Keeps ls zs s) (hf : ∀
    (y0 : Nat) (y1 : Nat), Keeps ls zs (f y0 y1)) : Keeps ls zs (State.blockMove s t w f) := by
  unfold State.blockMove
  extract_lets -merge +onlyGivenNames x1
  clear_value x1
  extract_lets -merge +onlyGivenNames x2
  clear_value x2
  refine Keeps.ite (fun _ => ?_) (fun _ => ?_)
  · refine State.tileFault_keeps _ _ _ _ _ _ _ ?_
    exact hk
  · refine Keeps.ite (fun _ => ?_) (fun _ => ?_)
    · refine State.tileFault_keeps _ _ _ _ _ _ _ ?_
      exact hk
    · exact hf _ _

theorem execTLdgb_keeps (tile : Nat) (s : State) (hk : Keeps ls zs s) : KeepsR ls zs (execTLdgb tile s) := by
  unfold execTLdgb
  refine KeepsR.next ?_
  refine State.issue_keeps _ _ _ _ _ ?_ ?_
  · exact hk
  · intro x1 x2 x3 h1
    refine State.blockMove_keeps _ _ _ _ ?_ ?_
    · exact h1
    · intro x4 x5
      refine State.globalAcc_keeps _ _ _ _ _ _ _ _ ?_
      exact h1

theorem execTStgb_keeps (tile : Nat) (s : State) (hk : Keeps ls zs s) : KeepsR ls zs (execTStgb tile s) := by
  unfold execTStgb
  refine KeepsR.next ?_
  refine State.issue_keeps _ _ _ _ _ ?_ ?_
  · exact hk
  · intro x1 x2 x3 h1
    refine State.blockMove_keeps _ _ _ _ ?_ ?_
    · exact h1
    · intro x4 x5
      refine State.globalAcc_keeps _ _ _ _ _ _ _ _ ?_
      exact h1

theorem State.atomv_keeps (s : State) (t : Nat) (w : W64) (r : Req) (hk : Keeps ls zs s) : Keeps ls zs (State.atomv
    s t w r) := by
  unfold State.atomv
  extract_lets -merge +onlyGivenNames x1
  clear_value x1
  extract_lets -merge +onlyGivenNames x2
  clear_value x2
  extract_lets -merge +onlyGivenNames x3
  clear_value x3
  extract_lets -merge +onlyGivenNames x4
  clear_value x4
  extract_lets -merge +onlyGivenNames x5
  clear_value x5
  extract_lets -merge +onlyGivenNames x6
  clear_value x6
  extract_lets -merge +onlyGivenNames x7
  clear_value x7
  refine Keeps.ite (fun _ => ?_) (fun _ => ?_)
  · refine State.tileFault_keeps _ _ _ _ _ _ _ ?_
    exact hk
  · refine Keeps.ite (fun _ => ?_) (fun _ => ?_)
    · refine State.tileFault_keeps _ _ _ _ _ _ _ ?_
      exact hk
    · refine Keeps.ite (fun _ => ?_) (fun _ => ?_)
      · refine State.tileFault_keeps _ _ _ _ _ _ _ ?_
        exact hk
      · refine Keeps.ite (fun _ => ?_) (fun _ => ?_)
        · refine State.tileFault_keeps _ _ _ _ _ _ _ ?_
          exact hk
        · refine State.globalAcc_keeps _ _ _ _ _ _ _ _ ?_
          exact hk

theorem execTAtomv_keeps (tile : Nat) (s : State) (hk : Keeps ls zs s) : KeepsR ls zs (execTAtomv tile s) := by
  unfold execTAtomv
  refine KeepsR.next ?_
  refine State.issue_keeps _ _ _ _ _ ?_ ?_
  · exact hk
  · intro x1 x2 x3 h1
    refine State.atomv_keeps _ _ _ _ ?_
    exact h1

theorem State.atoms_keeps (s : State) (t : Nat) (w : W64) (r : Req) (hk : Keeps ls zs s) : Keeps ls zs (State.atoms
    s t w r) := by
  unfold State.atoms
  extract_lets -merge +onlyGivenNames x1
  clear_value x1
  extract_lets -merge +onlyGivenNames x2
  clear_value x2
  extract_lets -merge +onlyGivenNames x3
  clear_value x3
  refine Keeps.ite (fun _ => ?_) (fun _ => ?_)
  · refine State.tileFault_keeps _ _ _ _ _ _ _ ?_
    exact hk
  · refine Keeps.ite (fun _ => ?_) (fun _ => ?_)
    · refine State.tileFault_keeps _ _ _ _ _ _ _ ?_
      exact hk
    · refine State.globalAcc_keeps _ _ _ _ _ _ _ _ ?_
      exact hk

theorem execTAtoms_keeps (tile : Nat) (s : State) (hk : Keeps ls zs s) : KeepsR ls zs (execTAtoms tile s) := by
  unfold execTAtoms
  refine KeepsR.next ?_
  refine State.issue_keeps _ _ _ _ _ ?_ ?_
  · exact hk
  · intro x1 x2 x3 h1
    refine State.atoms_keeps _ _ _ _ ?_
    exact h1

theorem execTFence_keeps (tile : Nat) (s : State) (hk : Keeps ls zs s) : KeepsR ls zs (execTFence tile s) := by
  unfold execTFence
  refine KeepsR.next ?_
  refine State.issue_keeps _ _ _ _ _ ?_ ?_
  · exact hk
  · intro x1 x2 x3 h1
    refine Keeps.ite (fun _ => ?_) (fun _ => ?_)
    · refine State.advance_keeps _ _ ?_
      exact h1
    · refine State.stallAt_keeps _ _ _ ?_
      exact h1

theorem State.deliverAcc_keeps (s : State) (t : Nat) (k : AccKind) (b : Bytes) (hk : Keeps ls zs s) : Keeps ls zs
    (State.deliverAcc s t k b) := by
  unfold State.deliverAcc
  split
  · refine State.modTile_keeps _ _ _ ?_
    exact hk
  · refine State.sramWrite_keeps _ _ _ _ ?_
    exact hk
  · refine Keeps.ite (fun _ => ?_) (fun _ => ?_)
    · refine State.sramWrite_keeps _ _ _ _ ?_
      exact hk
    · exact hk
  · refine State.modTile_keeps _ _ _ ?_
    exact hk
  · exact hk
  · exact hk

theorem State.endAcc_keeps (s : State) (t : Nat) (g : GAcc) (hk : Keeps ls zs s) : Keeps ls zs (State.endAcc s t g)
    := by
  unfold State.endAcc
  extract_lets -merge +onlyGivenNames x1
  clear_value x1
  split
  · exact hk
  · refine State.tileFault_keeps _ _ _ _ _ _ _ ?_
    refine State.modTile_keeps _ _ _ ?_
    exact hk
  · extract_lets -merge +onlyGivenNames x2
    have h2 : Keeps ls zs x2 := by
      unfold x2
      refine State.modTile_keeps _ _ _ ?_
      exact hk
    clear_value x2
    refine Keeps.ite (fun _ => ?_) (fun _ => ?_)
    · exact h2
    · refine Keeps.ite (fun _ => ?_) (fun _ => ?_)
      · refine State.tileFault_keeps _ _ _ _ _ _ _ ?_
        exact h2
      · refine State.deliverAcc_keeps _ _ _ _ ?_
        exact h2

theorem execGlobalAccessDone_keeps (tile : Nat) (acc : Nat) (s : State) (hk : Keeps ls zs s) : KeepsR ls zs
    (execGlobalAccessDone tile acc s) := by
  unfold execGlobalAccessDone
  refine KeepsR.next ?_
  split
  · refine Keeps.ite (fun _ => ?_) (fun _ => ?_)
    · refine State.endAcc_keeps _ _ _ ?_
      exact hk
    · exact hk
  · exact hk

/-! ### TileSync -/

theorem State.placeDesc_keeps (s : State) (t : Nat) (w : W64) (hk : Keeps ls zs s) : Keeps ls zs (State.placeDesc s
    t w) := by
  unfold State.placeDesc
  extract_lets -merge +onlyGivenNames x1
  clear_value x1
  extract_lets -merge +onlyGivenNames x2
  clear_value x2
  refine Keeps.ite (fun _ => ?_) (fun _ => ?_)
  · refine State.tileFault_keeps _ _ _ _ _ _ _ ?_
    exact hk
  · refine Keeps.ite (fun _ => ?_) (fun _ => ?_)
    · refine State.stallAt_keeps _ _ _ ?_
      exact hk
    · refine State.withSram_keeps _ _ _ _ _ ?_ ?_
      · exact hk
      · intro x3 x4 h3
        refine State.advance_keeps _ _ ?_
        refine State.modTile_keeps _ _ _ ?_
        exact h3

theorem execTExec_keeps (tile : Nat) (s : State) (hk : Keeps ls zs s) : KeepsR ls zs (execTExec tile s) := by
  unfold execTExec
  refine KeepsR.next ?_
  refine State.issue_keeps _ _ _ _ _ ?_ ?_
  · exact hk
  · intro x1 x2 x3 h1
    refine State.placeDesc_keeps _ _ _ ?_
    exact h1

theorem execTWaite_keeps (tile : Nat) (s : State) (hk : Keeps ls zs s) : KeepsR ls zs (execTWaite tile s) := by
  unfold execTWaite
  refine KeepsR.next ?_
  refine State.issue_keeps _ _ _ _ _ ?_ ?_
  · exact hk
  · intro x1 x2 x3 h1
    refine Keeps.ite (fun _ => ?_) (fun _ => ?_)
    · refine State.advance_keeps _ _ ?_
      exact h1
    · refine State.stallAt_keeps _ _ _ ?_
      exact h1

theorem execTSempost_keeps (tile : Nat) (s : State) (hk : Keeps ls zs s) : KeepsR ls zs (execTSempost tile s) := by
  unfold execTSempost
  refine KeepsR.next ?_
  refine State.issue_keeps _ _ _ _ _ ?_ ?_
  · exact hk
  · intro x1 x2 x3 h1
    refine State.advanceIfRunning_keeps _ _ ?_
    refine State.postSem_keeps _ _ _ ?_
    exact h1

theorem State.semwait_keeps (s : State) (t : Nat) (n : Nat) (hk : Keeps ls zs s) : Keeps ls zs (State.semwait s t n)
    := by
  unfold State.semwait
  refine Keeps.ite (fun _ => ?_) (fun _ => ?_)
  · refine State.advance_keeps _ _ ?_
    refine State.modTile_keeps _ _ _ ?_
    exact hk
  · refine State.stallAt_keeps _ _ _ ?_
    refine State.modTile_keeps _ _ _ ?_
    exact hk

theorem execTSemwait_keeps (tile : Nat) (s : State) (hk : Keeps ls zs s) : KeepsR ls zs (execTSemwait tile s) := by
  unfold execTSemwait
  refine KeepsR.next ?_
  refine State.issue_keeps _ _ _ _ _ ?_ ?_
  · exact hk
  · intro x1 x2 x3 h1
    refine State.semwait_keeps _ _ _ ?_
    exact h1

theorem execTSemrd_keeps (tile : Nat) (s : State) (hk : Keeps ls zs s) : KeepsR ls zs (execTSemrd tile s) := by
  unfold execTSemrd
  refine KeepsR.next ?_
  refine State.alu_keeps _ _ _ _ _ ?_
  exact hk

theorem State.sendQuill_keeps (s : State) (t : Nat) (r : Req) (v : Nat) (xa4 : Nat) (c : Nat) (hk : Keeps ls zs s) :
    Keeps ls zs (State.sendQuill s t r v xa4 c) := by
  unfold State.sendQuill
  refine Keeps.ite (fun _ => ?_) (fun _ => ?_)
  · refine State.tileFault_keeps _ _ _ _ _ _ _ ?_
    exact hk
  · extract_lets -merge +onlyGivenNames x1
    have h1 : KeepsP ls zs x1 := by
      unfold x1
      refine State.sramCarry_keeps _ _ _ _ ?_
      exact hk
    clear_value x1
    split
    · exact h1
    · extract_lets -merge +onlyGivenNames x2
      clear_value x2
      refine State.advance_keeps _ _ ?_
      refine State.modTile_keeps _ _ _ ?_
      exact h1

theorem State.qsend_keeps (s : State) (t : Nat) (w : W64) (r : Req) (hk : Keeps ls zs s) : Keeps ls zs (State.qsend
    s t w r) := by
  unfold State.qsend
  extract_lets -merge +onlyGivenNames x1
  clear_value x1
  extract_lets -merge +onlyGivenNames x2
  clear_value x2
  refine Keeps.ite (fun _ => ?_) (fun _ => ?_)
  · refine State.tileFault_keeps _ _ _ _ _ _ _ ?_
    exact hk
  · refine Keeps.ite (fun _ => ?_) (fun _ => ?_)
    · refine State.tileFault_keeps _ _ _ _ _ _ _ ?_
      exact hk
    · refine Keeps.ite (fun _ => ?_) (fun _ => ?_)
      · refine State.stallAt_keeps _ _ _ ?_
        exact hk
      · refine State.sendQuill_keeps _ _ _ _ _ _ ?_
        exact hk

theorem execTQsend_keeps (tile : Nat) (s : State) (hk : Keeps ls zs s) : KeepsR ls zs (execTQsend tile s) := by
  unfold execTQsend
  refine KeepsR.next ?_
  refine State.issue_keeps _ _ _ _ _ ?_ ?_
  · exact hk
  · intro x1 x2 x3 h1
    refine State.qsend_keeps _ _ _ _ ?_
    exact h1

theorem State.takeQuill_keeps (s : State) (t : Nat) (c : Nat) (xa3 : HeldQuill) (e : EntryPoint) (hk : Keeps ls zs
    s) : KeepsP ls zs (State.takeQuill s t c xa3 e) := by
  unfold State.takeQuill
  extract_lets -merge +onlyGivenNames x1
  clear_value x1
  split
  · refine KeepsP.mk ?_
    refine State.modTile_keeps _ _ _ ?_
    exact hk
  · extract_lets -merge +onlyGivenNames x2
    clear_value x2
    extract_lets -merge +onlyGivenNames x3
    have h3 : KeepsP ls zs x3 := by
      unfold x3
      refine State.sramCarry_keeps _ _ _ _ ?_
      exact hk
    clear_value x3
    split
    · refine KeepsP.mk ?_
      exact h3
    · refine KeepsP.mk ?_
      refine State.modTile_keeps _ _ _ ?_
      exact h3

theorem State.qrecv_keeps (s : State) (t : Nat) (w : W64) (r : Req) (hk : Keeps ls zs s) : Keeps ls zs (State.qrecv
    s t w r) := by
  unfold State.qrecv
  extract_lets -merge +onlyGivenNames x1
  clear_value x1
  refine Keeps.ite (fun _ => ?_) (fun _ => ?_)
  · refine State.tileFault_keeps _ _ _ _ _ _ _ ?_
    exact hk
  · split
    · refine State.stallAt_keeps _ _ _ ?_
      exact hk
    · extract_lets -merge +onlyGivenNames x2
      have h2 : KeepsP ls zs x2 := by
        unfold x2
        refine State.takeQuill_keeps _ _ _ _ _ ?_
        exact hk
      clear_value x2
      split
      · exact h2
      · refine State.setReg_keeps _ _ _ _ ?_
        refine State.modTile_keeps _ _ _ ?_
        exact h2

theorem execTQrecv_keeps (tile : Nat) (s : State) (hk : Keeps ls zs s) : KeepsR ls zs (execTQrecv tile s) := by
  unfold execTQrecv
  refine KeepsR.next ?_
  refine State.issue_keeps _ _ _ _ _ ?_ ?_
  · exact hk
  · intro x1 x2 x3 h1
    refine State.qrecv_keeps _ _ _ _ ?_
    exact h1

theorem State.qwait_keeps (s : State) (t : Nat) (w : W64) (hk : Keeps ls zs s) : Keeps ls zs (State.qwait s t w) :=
    by
  unfold State.qwait
  extract_lets -merge +onlyGivenNames x1
  clear_value x1
  refine Keeps.ite (fun _ => ?_) (fun _ => ?_)
  · refine State.stallAt_keeps _ _ _ ?_
    exact hk
  · refine State.setReg_keeps _ _ _ _ ?_
    exact hk

theorem execTQwait_keeps (tile : Nat) (s : State) (hk : Keeps ls zs s) : KeepsR ls zs (execTQwait tile s) := by
  unfold execTQwait
  refine KeepsR.next ?_
  refine State.issue_keeps _ _ _ _ _ ?_ ?_
  · exact hk
  · intro x1 x2 x3 h1
    refine State.qwait_keeps _ _ _ ?_
    exact h1

theorem State.carryQuill_keeps (s : State) (t : Nat) (r : Req) (x : SentQuill) (hk : Keeps ls zs s) : Keeps ls zs
    (State.carryQuill s t r x) := by
  unfold State.carryQuill
  extract_lets -merge +onlyGivenNames x1
  clear_value x1
  refine Keeps.ite (fun _ => ?_) (fun _ => ?_)
  · split
    · refine State.putQuill_keeps _ _ _ _ ?_
      exact hk
    · exact hk
  · refine Keeps.ite (fun _ => ?_) (fun _ => ?_)
    · refine State.remoteQuill_keeps _ _ _ _ _ ?_
      exact hk
    · split
      · rename_i e2
        have h2 := KeepsO.of (ls := ls) (zs := zs) e2 (by
          refine State.send_keeps _ _ ?_
          exact hk)
        exact h2
      · refine State.fault_keeps _ _ _ _ ?_
        exact hk

theorem execQuillDeliver_keeps (tile : Nat) (s : State) (hk : Keeps ls zs s) : KeepsR ls zs (execQuillDeliver tile
    s) := by
  unfold execQuillDeliver
  refine KeepsR.next ?_
  split
  · refine Keeps.ite (fun _ => ?_) (fun _ => ?_)
    · refine State.carryQuill_keeps _ _ _ _ ?_
      refine State.modTile_keeps _ _ _ ?_
      exact hk
    · exact hk
  · exact hk

theorem State.releaseBarrier_keeps (s : State) (id : Nat) (n : Nat) (xa3 : List Nat) (hk : Keeps ls zs s) : Keeps ls
    zs (State.releaseBarrier s id n xa3) := by
  unfold State.releaseBarrier
  extract_lets -merge +onlyGivenNames x1
  have h1 : Keeps ls zs x1 := by
    unfold x1
    refine State.modReq_keeps _ _ _ ?_
    exact hk
  clear_value x1
  refine State.each_keeps _ _ _ ?_ ?_
  · exact h1
  · intro x2 x3 h2
    refine State.advance_keeps _ _ ?_
    refine State.modTile_keeps _ _ _ ?_
    exact h2

theorem State.arriveAt_keeps (s : State) (t : Nat) (r : Req) (n : Nat) (k : Nat) (hk : Keeps ls zs s) : Keeps ls zs
    (State.arriveAt s t r n k) := by
  unfold State.arriveAt
  extract_lets -merge +onlyGivenNames x1
  clear_value x1
  refine Keeps.ite (fun _ => ?_) (fun _ => ?_)
  · refine State.tileFault_keeps _ _ _ _ _ _ _ ?_
    exact hk
  · extract_lets -merge +onlyGivenNames x2
    clear_value x2
    extract_lets -merge +onlyGivenNames x3
    have h3 : Keeps ls zs x3 := by
      unfold x3
      refine State.modReq_keeps _ _ _ ?_
      exact hk
    clear_value x3
    extract_lets -merge +onlyGivenNames x4
    have h4 : Keeps ls zs x4 := by
      unfold x4
      refine State.modTile_keeps _ _ _ ?_
      exact h3
    clear_value x4
    refine Keeps.ite (fun _ => ?_) (fun _ => ?_)
    · refine State.releaseBarrier_keeps _ _ _ _ ?_
      exact h4
    · exact h4

theorem execTBarrier_keeps (tile : Nat) (s : State) (hk : Keeps ls zs s) : KeepsR ls zs (execTBarrier tile s) := by
  unfold execTBarrier
  refine KeepsR.next ?_
  refine Keeps.ite (fun _ => ?_) (fun _ => ?_)
  · exact hk
  · refine State.issue_keeps _ _ _ _ _ ?_ ?_
    · exact hk
    · intro x1 x2 x3 h1
      refine Keeps.ite (fun _ => ?_) (fun _ => ?_)
      · refine State.arriveAt_keeps _ _ _ _ _ ?_
        exact h1
      · refine State.stallAt_keeps _ _ _ ?_
        exact h1

theorem State.hnext_keeps (s : State) (t : Nat) (w : W64) (hk : Keeps ls zs s) : Keeps ls zs (State.hnext s t w) :=
    by
  unfold State.hnext
  refine Keeps.ite (fun _ => ?_) (fun _ => ?_)
  · refine State.advance_keeps _ _ ?_
    refine State.modTile_keeps _ _ _ ?_
    exact hk
  · refine State.advance_keeps _ _ ?_
    refine State.fault_keeps _ _ _ _ ?_
    exact hk

theorem execTHnext_keeps (tile : Nat) (s : State) (hk : Keeps ls zs s) : KeepsR ls zs (execTHnext tile s) := by
  unfold execTHnext
  refine KeepsR.next ?_
  refine State.issue_keeps _ _ _ _ _ ?_ ?_
  · exact hk
  · intro x1 x2 x3 h1
    refine State.hnext_keeps _ _ _ ?_
    exact h1

/-! ### Flags -/

theorem State.descBadFault_keeps (s : State) (t : Nat) (hk : Keeps ls zs s) : Keeps ls zs (State.descBadFault s t)
    := by
  unfold State.descBadFault
  refine State.tileFault_keeps _ _ _ _ _ _ _ ?_
  exact hk

theorem State.postOf_keeps (s : State) (t : Nat) (b : Bytes) (hk : Keeps ls zs s) : Keeps ls zs (State.postOf s t b)
    := by
  unfold State.postOf
  refine Keeps.ite (fun _ => ?_) (fun _ => ?_)
  · refine State.postSem_keeps _ _ _ ?_
    exact hk
  · exact hk

theorem State.partCheck_keeps (s : State) (t : Nat) (xa2 : List (Nat × Nat)) (hk : Keeps ls zs s) : Keeps ls zs
    (State.partCheck s t xa2) := by
  unfold State.partCheck
  refine Keeps.foldl ?_ _ _ ?_
  · intro x1 x2 h1
    extract_lets -merge +onlyGivenNames x3
    clear_value x3
    extract_lets -merge +onlyGivenNames x4
    have h4 : Keeps ls zs x4 := by
      unfold x4
      refine State.correctSram_keeps _ _ _ _ ?_
      exact h1
    clear_value x4
    refine Keeps.ite (fun _ => ?_) (fun _ => ?_)
    · refine State.storageUncorr_keeps _ _ _ ?_
      exact h4
    · exact h4
  · exact hk

theorem State.engineTime_keeps (s : State) (d : Nat) (c : Nat) (hk : Keeps ls zs s) : Keeps ls zs (State.engineTime
    s d c) := by
  unfold State.engineTime
  extract_lets -merge +onlyGivenNames x1
  have h1 : KeepsP ls zs x1 := by
    unfold x1
    refine State.free_keeps _ _ ?_
    exact hk
  clear_value x1
  refine State.count_keeps _ _ _ _ ?_
  exact h1

theorem State.startDesc_keeps (s : State) (t : Nat) (q : Nat) (k : Nat) (ok : Tile → Bytes → Bool) (inSram : Bytes →
    Bool) (f : State → Bytes → State) (hk : Keeps ls zs s) (hf : ∀ (y0 : State) (y1 : Bytes), Keeps ls zs y0 → Keeps
    ls zs (f y0 y1)) : Keeps ls zs (State.startDesc s t q k ok inSram f) := by
  unfold State.startDesc
  split
  · exact hk
  · refine Keeps.ite (fun _ => ?_) (fun _ => ?_)
    · exact hk
    · refine Keeps.ite (fun _ => ?_) (fun _ => ?_)
      · refine State.descBadFault_keeps _ _ ?_
        exact hk
      · refine Keeps.ite (fun _ => ?_) (fun _ => ?_)
        · refine State.tileFault_keeps _ _ _ _ _ _ _ ?_
          exact hk
        · refine Keeps.ite (fun _ => ?_) (fun _ => ?_)
          · refine hf _ _ ?_
            refine State.modTile_keeps _ _ _ ?_
            exact hk
          · refine State.modTile_keeps _ _ _ ?_
            exact hk

theorem State.readsOk_keeps (s : State) (t : Nat) (xa2 : List (Nat × Nat)) (hk : Keeps ls zs s) : KeepsP ls zs
    (State.readsOk s t xa2) := by
  induction xa2 generalizing s with
  | nil => exact hk
  | cons p l ih =>
    obtain ⟨a, n⟩ := p
    rw [State.readsOk]
    have hr := State.sramRead_keeps s t a n hk
    split
    · exact ih _ hr
    · exact hr

/-! ### Matrix -/

theorem execMatrixPassStart_keeps (tile : Nat) (s : State) (hk : Keeps ls zs s) : KeepsR ls zs (execMatrixPassStart
    tile s) := by
  unfold execMatrixPassStart
  refine KeepsR.next ?_
  refine Keeps.ite (fun _ => ?_) (fun _ => ?_)
  · refine State.startDesc_keeps _ _ _ _ _ _ _ ?_ ?_
    · exact hk
    · intro x1 x2 h1
      extract_lets -merge +onlyGivenNames x3
      have h3 : KeepsP ls zs x3 := by
        unfold x3
        refine State.readsOk_keeps _ _ _ ?_
        exact h1
      clear_value x3
      refine Keeps.ite (fun _ => ?_) (fun _ => ?_)
      · refine State.modTile_keeps _ _ _ ?_
        exact h3
      · exact h3
  · exact hk

theorem State.endPass_keeps (s : State) (t : Nat) (p : MxPass) (hk : Keeps ls zs s) : Keeps ls zs (State.endPass s t
    p) := by
  unfold State.endPass
  extract_lets -merge +onlyGivenNames x1
  have h1 : KeepsP ls zs x1 := by
    unfold x1
    refine State.readsOk_keeps _ _ _ ?_
    exact hk
  clear_value x1
  refine Keeps.ite (fun _ => ?_) (fun _ => ?_)
  · extract_lets -merge +onlyGivenNames x2
    have h2 : KeepsP ls zs x2 := by
      unfold x2
      refine State.free_keeps _ _ ?_
      exact h1
    clear_value x2
    extract_lets -merge +onlyGivenNames x3
    have h3 : Keeps ls zs x3 := by
      unfold x3
      refine State.engineTime_keeps _ _ _ ?_
      refine State.modTile_keeps _ _ _ ?_
      exact h2
    clear_value x3
    refine State.postOf_keeps _ _ _ ?_
    exact h3
  · exact h1

theorem execMatrixPassDone_keeps (tile : Nat) (s : State) (hk : Keeps ls zs s) : KeepsR ls zs (execMatrixPassDone
    tile s) := by
  unfold execMatrixPassDone
  refine KeepsR.next ?_
  split
  · refine Keeps.ite (fun _ => ?_) (fun _ => ?_)
    · refine State.endPass_keeps _ _ _ ?_
      exact hk
    · exact hk
  · exact hk

/-! ### Vector -/

theorem execVectorPassStart_keeps (tile : Nat) (s : State) (hk : Keeps ls zs s) : KeepsR ls zs (execVectorPassStart
    tile s) := by
  unfold execVectorPassStart
  refine KeepsR.next ?_
  refine Keeps.ite (fun _ => ?_) (fun _ => ?_)
  · refine State.startDesc_keeps _ _ _ _ _ _ _ ?_ ?_
    · exact hk
    · intro x1 x2 h1
      refine State.modTile_keeps _ _ _ ?_
      exact h1
  · exact hk

theorem State.endVec_keeps (s : State) (t : Nat) (b : Bytes) (hk : Keeps ls zs s) : Keeps ls zs (State.endVec s t b)
    := by
  unfold State.endVec
  extract_lets -merge +onlyGivenNames x1
  have h1 : KeepsP ls zs x1 := by
    unfold x1
    refine State.readsOk_keeps _ _ _ ?_
    exact hk
  clear_value x1
  refine Keeps.ite (fun _ => ?_) (fun _ => ?_)
  · extract_lets -merge +onlyGivenNames x2
    have h2 : KeepsP ls zs x2 := by
      unfold x2
      refine State.free_keeps _ _ ?_
      exact h1
    clear_value x2
    extract_lets -merge +onlyGivenNames x3
    have h3 : KeepsP ls zs x3 := by
      unfold x3
      refine State.free_keeps _ _ ?_
      exact h2
    clear_value x3
    extract_lets -merge +onlyGivenNames x4
    clear_value x4
    refine State.postOf_keeps _ _ _ ?_
    refine State.partCheck_keeps _ _ _ ?_
    refine State.engineTime_keeps _ _ _ ?_
    refine State.modTile_keeps _ _ _ ?_
    exact h3
  · exact h1

theorem execVectorPassDone_keeps (tile : Nat) (s : State) (hk : Keeps ls zs s) : KeepsR ls zs (execVectorPassDone
    tile s) := by
  unfold execVectorPassDone
  refine KeepsR.next ?_
  split
  · refine Keeps.ite (fun _ => ?_) (fun _ => ?_)
    · refine State.endVec_keeps _ _ _ ?_
      exact hk
    · exact hk
  · exact hk

theorem execReductionStart_keeps (tile : Nat) (s : State) (hk : Keeps ls zs s) : KeepsR ls zs (execReductionStart
    tile s) := by
  unfold execReductionStart
  refine KeepsR.next ?_
  refine Keeps.ite (fun _ => ?_) (fun _ => ?_)
  · refine State.startDesc_keeps _ _ _ _ _ _ _ ?_ ?_
    · exact hk
    · intro x1 x2 h1
      refine State.modTile_keeps _ _ _ ?_
      exact h1
  · exact hk

theorem State.endRed_keeps (s : State) (t : Nat) (b : Bytes) (hk : Keeps ls zs s) : Keeps ls zs (State.endRed s t b)
    := by
  unfold State.endRed
  extract_lets -merge +onlyGivenNames x1
  have h1 : KeepsP ls zs x1 := by
    unfold x1
    refine State.readsOk_keeps _ _ _ ?_
    exact hk
  clear_value x1
  refine Keeps.ite (fun _ => ?_) (fun _ => ?_)
  · extract_lets -merge +onlyGivenNames x2
    have h2 : KeepsP ls zs x2 := by
      unfold x2
      refine State.free_keeps _ _ ?_
      exact h1
    clear_value x2
    extract_lets -merge +onlyGivenNames x3
    have h3 : KeepsP ls zs x3 := by
      unfold x3
      refine State.free_keeps _ _ ?_
      exact h2
    clear_value x3
    extract_lets -merge +onlyGivenNames x4
    clear_value x4
    refine State.postOf_keeps _ _ _ ?_
    refine State.partCheck_keeps _ _ _ ?_
    refine State.engineTime_keeps _ _ _ ?_
    refine State.modTile_keeps _ _ _ ?_
    exact h3
  · exact h1

theorem execReductionDone_keeps (tile : Nat) (s : State) (hk : Keeps ls zs s) : KeepsR ls zs (execReductionDone tile
    s) := by
  unfold execReductionDone
  refine KeepsR.next ?_
  split
  · refine Keeps.ite (fun _ => ?_) (fun _ => ?_)
    · refine State.endRed_keeps _ _ _ ?_
      exact hk
    · exact hk
  · exact hk

/-! ### Streams -/

theorem State.suStart_keeps (s : State) (t : Nat) (u : Nat) (b : Bytes) (hk : Keeps ls zs s) : Keeps ls zs
    (State.suStart s t u b) := by
  unfold State.suStart
  split
  · exact hk
  · refine Keeps.ite (fun _ => ?_) (fun _ => ?_)
    · refine State.modTile_keeps _ _ _ ?_
      exact hk
    · refine State.tileFault_keeps _ _ _ _ _ _ _ ?_
      exact hk

theorem execStreamDescStart_keeps (tile : Nat) (unit : Nat) (s : State) (hk : Keeps ls zs s) : KeepsR ls zs
    (execStreamDescStart tile unit s) := by
  unfold execStreamDescStart
  refine KeepsR.next ?_
  extract_lets -merge +onlyGivenNames x1
  clear_value x1
  refine Keeps.ite (fun _ => ?_) (fun _ => ?_)
  · refine State.startDesc_keeps _ _ _ _ _ _ _ ?_ ?_
    · exact hk
    · intro x2 x3 h2
      refine State.suStart_keeps _ _ _ _ ?_
      exact h2
  · exact hk

theorem State.suCharge_keeps (s : State) (d : Nat) (a : Nat) (n : Nat) (write : Bool) (hk : Keeps ls zs s) : Keeps
    ls zs (State.suCharge s d a n write) := by
  unfold State.suCharge
  extract_lets -merge +onlyGivenNames x1
  have h1 : Keeps ls zs x1 := by
    unfold x1
    refine State.chargeHoard_keeps _ _ _ ?_
    exact hk
  clear_value x1
  refine Keeps.ite (fun _ => ?_) (fun _ => ?_)
  · refine State.chargeHbm_keeps _ _ _ _ ?_
    exact h1
  · exact h1

theorem State.suServe_keeps (s : State) (t : Nat) (u : Nat) (x : SuXfer) (fail : Nat) (hk : Keeps ls zs s) : Keeps
    ls zs (State.suServe s t u x fail) := by
  unfold State.suServe
  refine State.modTile_keeps _ _ _ ?_
  exact hk

theorem State.suFar_keeps (s : State) (t : Nat) (u : Nat) (d : Nat) (w : Nat) (o : Nat) (x : SuXfer) (hk : Keeps ls
    zs s) : Keeps ls zs (State.suFar s t u d w o x) := by
  unfold State.suFar
  extract_lets -merge +onlyGivenNames x1
  have h1 : KeepsP ls zs x1 := by
    unfold x1
    refine State.newTid_keeps _ ?_
    exact hk
  clear_value x1
  extract_lets -merge +onlyGivenNames x2
  clear_value x2
  extract_lets -merge +onlyGivenNames x3
  clear_value x3
  extract_lets -merge +onlyGivenNames x4
  clear_value x4
  split
  · rename_i e5
    have h5 := KeepsO.of (ls := ls) (zs := zs) e5 (by
      refine State.send_keeps _ _ ?_
      exact h1)
    exact h5.lit rfl rfl rfl rfl rfl
  · refine State.suServe_keeps _ _ _ _ _ ?_
    refine State.xactFailed_keeps _ ?_
    exact hk

theorem State.suHost_keeps (s : State) (t : Nat) (u : Nat) (d : Nat) (i : Nat) (x : SuXfer) (hk : Keeps ls zs s) :
    Keeps ls zs (State.suHost s t u d i x) := by
  unfold State.suHost
  extract_lets -merge +onlyGivenNames x1
  have h1 : Keeps ls zs x1 := by
    unfold x1
    refine State.chargePcie_keeps _ _ _ ?_
    exact hk
  clear_value x1
  extract_lets -merge +onlyGivenNames x2
  clear_value x2
  refine Keeps.ite (fun _ => ?_) (fun _ => ?_)
  · extract_lets -merge +onlyGivenNames x3
    have h3 : Keeps ls zs x3 := by
      unfold x3
      refine State.issueWrite_keeps _ _ _ _ _ ?_
      exact h1
    clear_value x3
    refine Keeps.ite (fun _ => ?_) (fun _ => ?_)
    · exact h3
    · refine State.suServe_keeps _ _ _ _ _ ?_
      exact h3
  · refine State.issueRead_keeps _ _ _ _ _ ?_
    exact h1

theorem State.suLocalXfer_keeps (s : State) (t : Nat) (u : Nat) (d : Nat) (a : Nat) (x : SuXfer) (hk : Keeps ls zs
    s) : Keeps ls zs (State.suLocalXfer s t u d a x) := by
  unfold State.suLocalXfer
  refine State.askHoard_keeps _ _ _ ?_
  refine State.suCharge_keeps _ _ _ _ _ ?_
  exact hk

theorem State.sendXfer_keeps (s : State) (t : Nat) (u : Nat) (d : Nat) (p : Reach) (x : SuXfer) (hk : Keeps ls zs s)
    : Keeps ls zs (State.sendXfer s t u d p x) := by
  unfold State.sendXfer
  split
  · refine State.suLocalXfer_keeps _ _ _ _ _ _ ?_
    exact hk
  · refine State.suHost_keeps _ _ _ _ _ _ ?_
    exact hk
  · refine State.suFar_keeps _ _ _ _ _ _ _ ?_
    exact hk
  · exact hk

theorem State.suIssue_keeps (s : State) (t : Nat) (u : Nat) (r : Req) (d : SuDesc) (p : Reach) (hk : Keeps ls zs s)
    : Keeps ls zs (State.suIssue s t u r d p) := by
  unfold State.suIssue
  extract_lets -merge +onlyGivenNames x1
  clear_value x1
  refine Keeps.ite (fun _ => ?_) (fun _ => ?_)
  · refine State.withSram_keeps _ _ _ _ _ ?_ ?_
    · exact hk
    · intro x2 x3 h2
      extract_lets -merge +onlyGivenNames x4
      clear_value x4
      refine State.sendXfer_keeps _ _ _ _ _ _ ?_
      refine State.modTile_keeps _ _ _ ?_
      exact h2
  · refine State.sendXfer_keeps _ _ _ _ _ _ ?_
    refine State.modTile_keeps _ _ _ ?_
    exact hk

theorem State.suNext_keeps (s : State) (t : Nat) (u : Nat) (r : Req) (d : SuDesc) (hk : Keeps ls zs s) : Keeps ls zs
    (State.suNext s t u r d) := by
  unfold State.suNext
  extract_lets -merge +onlyGivenNames x1
  have h1 : Keeps ls zs x1 := by
    unfold x1
    refine State.modTile_keeps _ _ _ ?_
    exact hk
  clear_value x1
  extract_lets -merge +onlyGivenNames x2
  clear_value x2
  extract_lets -merge +onlyGivenNames x3
  clear_value x3
  extract_lets -merge +onlyGivenNames x4
  clear_value x4
  refine Keeps.ite (fun _ => ?_) (fun _ => ?_)
  · exact h1
  · refine Keeps.ite (fun _ => ?_) (fun _ => ?_)
    · refine State.tileFault_keeps _ _ _ _ _ _ _ ?_
      exact h1
    · refine Keeps.ite (fun _ => ?_) (fun _ => ?_)
      · refine State.tileFault_keeps _ _ _ _ _ _ _ ?_
        exact h1
      · refine Keeps.ite (fun _ => ?_) (fun _ => ?_)
        · exact h1
        · refine Keeps.ite (fun _ => ?_) (fun _ => ?_)
          · refine State.suIssue_keeps _ _ _ _ _ _ ?_
            exact h1
          · refine State.count_keeps _ _ _ _ ?_
            refine State.modTile_keeps _ _ _ ?_
            exact h1

theorem execStreamTransferIssue_keeps (tile : Nat) (unit : Nat) (s : State) (hk : Keeps ls zs s) : KeepsR ls zs
    (execStreamTransferIssue tile unit s) := by
  unfold execStreamTransferIssue
  refine KeepsR.next ?_
  split
  · refine Keeps.ite (fun _ => ?_) (fun _ => ?_)
    · refine State.suNext_keeps _ _ _ _ _ ?_
      exact hk
    · exact hk
  · exact hk

theorem State.postMany_keeps (s : State) (t : Nat) (sem : Nat) (n : Nat) (hk : Keeps ls zs s) : Keeps ls zs
    (State.postMany s t sem n) := by
  induction n generalizing s with
  | zero => exact hk
  | succ k ih =>
    rw [State.postMany]
    exact Keeps.ite (fun _ => ih _ (State.postSem_keeps _ _ _ hk)) (fun _ => hk)

theorem State.postSlots_keeps (s : State) (t : Nat) (u : Nat) (d : SuDesc) (hk : Keeps ls zs s) : Keeps ls zs
    (State.postSlots s t u d) := by
  unfold State.postSlots
  refine Keeps.ite (fun _ => ?_) (fun _ => ?_)
  · extract_lets -merge +onlyGivenNames x1
    clear_value x1
    extract_lets -merge +onlyGivenNames x2
    clear_value x2
    extract_lets -merge +onlyGivenNames x3
    have h3 : Keeps ls zs x3 := by
      unfold x3
      refine State.modTile_keeps _ _ _ ?_
      exact hk
    clear_value x3
    refine State.postMany_keeps _ _ _ _ ?_
    exact h3
  · exact hk

theorem State.postAll_keeps (s : State) (t : Nat) (u : Nat) (prev : Bool) (xa4 : List SuDesc) (hk : Keeps ls zs s) :
    Keeps ls zs (State.postAll s t u prev xa4) := by
  induction xa4 generalizing s prev with
  | nil => exact hk
  | cons d l ih =>
    rw [State.postAll]
    exact ih _ _ (Keeps.ite (fun _ => State.postSlots_keeps _ _ _ _ hk) (fun _ => hk))

theorem State.endDescs_keeps (s : State) (fuel : Nat) (t : Nat) (u : Nat) (hk : Keeps ls zs s) : Keeps ls zs
    (State.endDescs s fuel t u) := by
  induction fuel generalizing s with
  | zero => exact hk
  | succ f ih =>
    rw [State.endDescs]
    split
    · refine Keeps.ite (fun _ => ?_) (fun _ => hk)
      exact ih _ (State.postOf_keeps _ _ _ (State.engineTime_keeps _ _ _ (State.modTile_keeps _ _ _ hk)))
    · exact hk

theorem State.suSettle_keeps (s : State) (t : Nat) (u : Nat) (hk : Keeps ls zs s) : Keeps ls zs (State.suSettle s t
    u) := by
  unfold State.suSettle
  extract_lets -merge +onlyGivenNames x1
  have h1 : Keeps ls zs x1 := by
    unfold x1
    refine State.postAll_keeps _ _ _ _ _ ?_
    exact hk
  clear_value x1
  refine State.endDescs_keeps _ _ _ _ ?_
  exact h1

theorem State.endXfer_keeps (s : State) (t : Nat) (u : Nat) (x : SuXfer) (hk : Keeps ls zs s) : Keeps ls zs
    (State.endXfer s t u x) := by
  unfold State.endXfer
  extract_lets -merge +onlyGivenNames x1
  have h1 : Keeps ls zs x1 := by
    unfold x1
    refine State.modTile_keeps _ _ _ ?_
    exact hk
  clear_value x1
  refine Keeps.ite (fun _ => ?_) (fun _ => ?_)
  · refine State.tileFault_keeps _ _ _ _ _ _ _ ?_
    refine State.modTile_keeps _ _ _ ?_
    exact h1
  · extract_lets -merge +onlyGivenNames x2
    have h2 : Keeps ls zs x2 := by
      unfold x2
      refine Keeps.ite (fun _ => ?_) (fun _ => ?_)
      · exact h1
      · refine State.sramWrite_keeps _ _ _ _ ?_
        exact h1
    clear_value x2
    refine Keeps.ite (fun _ => ?_) (fun _ => ?_)
    · refine State.suSettle_keeps _ _ _ ?_
      exact h2
    · exact h2

theorem execStreamTransferDone_keeps (tile : Nat) (unit : Nat) (s : State) (hk : Keeps ls zs s) : KeepsR ls zs
    (execStreamTransferDone tile unit s) := by
  unfold execStreamTransferDone
  refine KeepsR.next ?_
  split
  · refine Keeps.ite (fun _ => ?_) (fun _ => ?_)
    · refine State.endXfer_keeps _ _ _ _ ?_
      exact hk
    · exact hk
  · exact hk

/-! ### Late -/

theorem State.streamServed_keeps (s : State) (t : Nat) (u : Nat) (dseq : Nat) (addr : Nat) (data : Bytes) (fail :
    Nat) (hk : Keeps ls zs s) : Keeps ls zs (State.streamServed s t u dseq addr data fail) := by
  unfold State.streamServed
  refine State.modTile_keeps _ _ _ ?_
  exact hk

theorem State.giveHost_keeps (s : State) (iss : Issuer) (data : Bytes) (hk : Keeps ls zs s) : Keeps ls zs
    (State.giveHost s iss data) := by
  unfold State.giveHost
  split
  · refine State.ringRead_keeps _ _ _ _ _ ?_
    exact hk
  · refine State.modTile_keeps _ _ _ ?_
    exact hk
  · refine State.streamServed_keeps _ _ _ _ _ _ _ ?_
    exact hk
  · refine State.modReq_keeps _ _ _ ?_
    exact hk
  · refine State.partTake_keeps _ _ _ ?_
    exact hk
  · refine State.partTake_keeps _ _ _ ?_
    exact hk

theorem State.failHost_keeps (s : State) (iss : Issuer) (w : HostFail) (before : Bytes) (hk : Keeps ls zs s) : Keeps
    ls zs (State.failHost s iss w before) := by
  unfold State.failHost
  split
  · refine State.ringRead_keeps _ _ _ _ _ ?_
    exact hk
  · refine State.setAcc_keeps _ _ _ _ ?_
    exact hk
  · refine State.streamServed_keeps _ _ _ _ _ _ _ ?_
    exact hk
  · split
    · refine Keeps.ite (fun _ => ?_) (fun _ => ?_)
      · exact hk
      · refine State.failFeatures_keeps _ _ _ ?_
        exact hk
    · exact hk
  · refine State.partTake_keeps _ _ _ ?_
    refine State.partTake_keeps _ _ _ ?_
    exact hk
  · refine Keeps.ite (fun _ => ?_) (fun _ => ?_)
    · refine State.partTake_keeps _ _ _ ?_
      exact hk
    · refine State.partTake_keeps _ _ _ ?_
      exact hk

theorem State.endRead_keeps (s : State) (iss : Issuer) (off : Nat) (total : Nat) (r : Bytes ⊕ HostFail) (hk : Keeps
    ls zs s) : Keeps ls zs (State.endRead s iss off total r) := by
  unfold State.endRead
  extract_lets -merge +onlyGivenNames x1
  have h1 : KeepsP ls zs x1 := by
    unfold x1
    refine State.endPiece_keeps _ _ _ _ _ ?_
    exact hk
  clear_value x1
  split
  · exact h1
  · refine State.giveHost_keeps _ _ _ ?_
    exact h1
  · refine State.failHost_keeps _ _ _ _ ?_
    exact h1

theorem State.countDn_keeps (s : State) (r : HostRead) (hk : Keeps ls zs s) : Keeps ls zs (State.countDn s r) := by
  unfold State.countDn
  split
  · refine Keeps.ite (fun _ => ?_) (fun _ => ?_)
    · exact hk
    · refine State.count_keeps _ _ _ _ ?_
      exact hk
  · refine Keeps.ite (fun _ => ?_) (fun _ => ?_)
    · exact hk
    · refine State.count_keeps _ _ _ _ ?_
      exact hk

theorem State.completion_keeps (s : State) (tag : Nat) (data : Bytes) (e : CplErr) (hk : Keeps ls zs s) : Keeps ls
    zs (State.completion s tag data e) := by
  unfold State.completion
  extract_lets -merge +onlyGivenNames x1
  have h1 : KeepsP ls zs x1 := by
    unfold x1
    refine State.takeRead_keeps _ _ _ ?_
    exact hk
  clear_value x1
  split
  · exact h1
  · refine State.endRead_keeps _ _ _ _ _ ?_
    refine Keeps.ite (fun _ => ?_) (fun _ => ?_)
    · exact h1
    · refine State.countDn_keeps _ _ ?_
      exact h1

theorem State.takeCompletion_keeps (s : State) (tag : Nat) (data : Bytes) (e : CplErr) (hk : Keeps ls zs s) : Keeps
    ls zs (State.takeCompletion s tag data e) := by
  unfold State.takeCompletion
  refine Keeps.ite (fun _ => ?_) (fun _ => ?_)
  · refine State.hold_keeps _ _ ?_
    exact hk
  · refine State.completion_keeps _ _ _ _ ?_
    exact hk

theorem execRingEntryFetchDone_keeps (tag : Nat) (data : Bytes) (s : State) (hk : Keeps ls zs s) : KeepsR ls zs
    (execRingEntryFetchDone tag data s) := by
  unfold execRingEntryFetchDone
  refine KeepsR.next ?_
  refine Keeps.ite (fun _ => ?_) (fun _ => ?_)
  · refine State.takeCompletion_keeps _ _ _ _ ?_
    exact hk
  · exact hk

theorem execHostReadCompletion_keeps (tag : Nat) (data : Bytes) (err : CplErr) (s : State) (hk : Keeps ls zs s) :
    KeepsR ls zs (execHostReadCompletion tag data err s) := by
  unfold execHostReadCompletion
  refine KeepsR.next ?_
  refine State.takeCompletion_keeps _ _ _ _ ?_
  exact hk

theorem State.readTimeout_keeps (s : State) (tag : Nat) (hk : Keeps ls zs s) : Keeps ls zs (State.readTimeout s tag)
    := by
  unfold State.readTimeout
  extract_lets -merge +onlyGivenNames x1
  have h1 : KeepsP ls zs x1 := by
    unfold x1
    refine State.takeRead_keeps _ _ _ ?_
    exact hk
  clear_value x1
  split
  · exact h1
  · refine State.endRead_keeps _ _ _ _ _ ?_
    exact h1

theorem execCompletionTimeout_keeps (tag : Nat) (s : State) (hk : Keeps ls zs s) : KeepsR ls zs
    (execCompletionTimeout tag s) := by
  unfold execCompletionTimeout
  refine KeepsR.next ?_
  refine Keeps.ite (fun _ => ?_) (fun _ => ?_)
  · exact hk
  · refine State.readTimeout_keeps _ _ ?_
    exact hk

theorem State.writeLeft_keeps (s : State) (iss : Issuer) (hk : Keeps ls zs s) : Keeps ls zs (State.writeLeft s iss)
    := by
  unfold State.writeLeft
  refine Keeps.ite (fun _ => ?_) (fun _ => ?_)
  · exact hk
  · split
    · refine State.modTile_keeps _ _ _ ?_
      exact hk
    · refine State.streamServed_keeps _ _ _ _ _ _ _ ?_
      exact hk
    · refine State.modCmd_keeps _ _ _ ?_
      exact hk
    · exact hk
    · exact hk
    · exact hk

theorem State.writeFault_keeps (s : State) (iss : Issuer) (hk : Keeps ls zs s) : Keeps ls zs (State.writeFault s
    iss) := by
  unfold State.writeFault
  split
  · refine State.setAcc_keeps _ _ _ _ ?_
    exact hk
  · refine State.streamServed_keeps _ _ _ _ _ _ _ ?_
    exact hk
  · refine State.writeLeft_keeps _ _ ?_
    refine State.modCmd_keeps _ _ _ ?_
    exact hk
  · exact hk
  · exact hk
  · exact hk

theorem State.translatedAcc_keeps (s : State) (x : PendXlate) (e : AtsEntry) (hk : Keeps ls zs s) : Keeps ls zs
    (State.translatedAcc s x e) := by
  unfold State.translatedAcc
  refine Keeps.ite (fun _ => ?_) (fun _ => ?_)
  · refine Keeps.ite (fun _ => ?_) (fun _ => ?_)
    · refine State.writeLeft_keeps _ _ ?_
      refine State.sendWrite_keeps _ _ _ _ ?_
      exact hk
    · refine State.writeFault_keeps _ _ ?_
      exact hk
  · refine Keeps.ite (fun _ => ?_) (fun _ => ?_)
    · refine State.sendRead_keeps _ _ _ ?_
      exact hk
    · refine State.endRead_keeps _ _ _ _ _ ?_
      exact hk

theorem Pcie.cache_numVfs (p : Pcie) (e : AtsEntry) : (p.cache e).numVfs = p.numVfs := by
  unfold Pcie.cache
  split <;> rfl

theorem State.translated_keeps (s : State) (fn : Nat) (iova : Nat) (target : Nat) (log2 : Nat) (r : Bool) (w : Bool)
    (hk : Keeps ls zs s) : Keeps ls zs (State.translated s fn iova target log2 r w) := by
  unfold State.translated
  extract_lets -merge +onlyGivenNames x1
  clear_value x1
  split
  · exact hk
  · extract_lets -merge +onlyGivenNames x2
    clear_value x2
    extract_lets -merge +onlyGivenNames x4 x3
    refine State.drainAll_keeps _ ?_
    refine State.translatedAcc_keeps _ _ _ ?_
    exact hk.pcie rfl rfl rfl rfl (Nat.le_trans (Nat.le_of_eq (Pcie.cache_numVfs _ _)) hk.2.2.2)

theorem execTranslationCompletion_keeps (fn : Nat) (iova : Nat) (target : Nat) (log2 : Nat) (r : Bool) (w : Bool) (s
    : State) (hk : Keeps ls zs s) : KeepsR ls zs (execTranslationCompletion fn iova target log2 r w s) := by
  unfold execTranslationCompletion
  refine KeepsR.next ?_
  refine Keeps.ite (fun _ => ?_) (fun _ => ?_)
  · refine State.hold_keeps _ _ ?_
    exact hk
  · refine State.translated_keeps _ _ _ _ _ _ _ ?_
    exact hk

end

end Sys2Proof.Machine
end

