-- ==== Sys2Proof/Laws/KeepsPorts.lean ====
section
/-!
SUPPORT. One lemma per operation, meaning by meaning: it keeps what every command keeps (Laws.Keeps). Here: register writes and the serial ports.
-/

namespace Sys2Proof.Machine

section
variable {ls : List Instr} {zs : W64 × Nat}

/-! ### RegWrite -/

theorem State.ringCfg_keeps (s : State) (fn : Nat) (id : Nat) (x : RegW) (hk : Keeps ls zs s) : Keeps ls zs
    (State.ringCfg s fn id x) := by
  unfold State.ringCfg
  extract_lets -merge +onlyGivenNames x1
  clear_value x1
  extract_lets -merge +onlyGivenNames x2
  clear_value x2
  refine Keeps.ite (fun _ => ?_) (fun _ => ?_)
  · refine Keeps.ite (fun _ => ?_) (fun _ => ?_)
    · exact hk
    · refine Keeps.ite (fun _ => ?_) (fun _ => ?_)
      · refine State.fault_keeps _ _ _ _ ?_
        exact hk
      · refine State.cancelReads_keeps _ _ ?_
        refine State.modRing_keeps _ _ _ ?_
        exact hk
  · refine State.modRing_keeps _ _ _ ?_
    exact hk

theorem State.ringRegWrite_keeps (s : State) (fn : Nat) (id : Nat) (o : Nat) (x : RegW) (hk : Keeps ls zs s) : Keeps
    ls zs (State.ringRegWrite s fn id o x) := by
  unfold State.ringRegWrite
  extract_lets -merge +onlyGivenNames x1
  clear_value x1
  split
  · refine Keeps.ite (fun _ => ?_) (fun _ => ?_)
    · exact hk
    · refine State.modRing_keeps _ _ _ ?_
      exact hk
  · refine State.ringCfg_keeps _ _ _ _ ?_
    exact hk
  · refine Keeps.ite (fun _ => ?_) (fun _ => ?_)
    · exact hk
    · refine State.modRing_keeps _ _ _ ?_
      exact hk
  · exact hk

theorem State.ringWrite_keeps (s : State) (fn : Nat) (o : Nat) (x : RegW) (hk : Keeps ls zs s) : Keeps ls zs
    (State.ringWrite s fn o x) := by
  unfold State.ringWrite
  refine Keeps.ite (fun _ => ?_) (fun _ => ?_)
  · refine State.ringRegWrite_keeps _ _ _ _ _ ?_
    exact hk
  · exact hk

theorem State.hubWrite_keeps (s : State) (o : Nat) (x : RegW) (hk : Keeps ls zs s) : Keeps ls zs (State.hubWrite s o
    x) := by
  unfold State.hubWrite
  refine Keeps.ite (fun _ => ?_) (fun _ => ?_)
  · exact hk.lit rfl rfl rfl rfl rfl
  · refine Keeps.ite (fun _ => ?_) (fun _ => ?_)
    · exact hk.lit rfl rfl rfl rfl rfl
    · refine Keeps.ite (fun _ => ?_) (fun _ => ?_)
      · exact hk.lit rfl rfl rfl rfl rfl
      · refine Keeps.ite (fun _ => ?_) (fun _ => ?_)
        · exact hk.lit rfl rfl rfl rfl rfl
        · refine Keeps.ite (fun _ => ?_) (fun _ => ?_)
          · refine State.ringWrite_keeps _ _ _ _ ?_
            exact hk
          · exact hk

theorem State.fgrWrite_keeps (s : State) (o : Nat) (x : RegW) (hk : Keeps ls zs s) : Keeps ls zs (State.fgrWrite s o
    x) := by
  unfold State.fgrWrite
  refine Keeps.ite (fun _ => ?_) (fun _ => ?_)
  · refine State.modDen_keeps _ _ _ ?_
    exact hk
  · exact hk

theorem State.hrdWrite_keeps (s : State) (o : Nat) (x : RegW) (hk : Keeps ls zs s) : Keeps ls zs (State.hrdWrite s o
    x) := by
  unfold State.hrdWrite
  refine Keeps.ite (fun _ => ?_) (fun _ => ?_)
  · refine Keeps.ite (fun _ => ?_) (fun _ => ?_)
    · exact hk.lit rfl rfl rfl rfl rfl
    · exact hk
  · refine Keeps.ite (fun _ => ?_) (fun _ => ?_)
    · refine Keeps.ite (fun _ => ?_) (fun _ => ?_)
      · exact hk.lit rfl rfl rfl rfl rfl
      · exact hk
    · refine Keeps.ite (fun _ => ?_) (fun _ => ?_)
      · refine State.modDen_keeps _ _ _ ?_
        exact hk
      · exact hk

theorem State.tmrGroupWrite_keeps (s : State) (n : Nat) (o : Nat) (x : RegW) (hk : Keeps ls zs s) : Keeps ls zs
    (State.tmrGroupWrite s n o x) := by
  unfold State.tmrGroupWrite
  split
  · refine State.modTmr_keeps _ _ _ ?_
    exact hk
  · refine State.modTmr_keeps _ _ _ ?_
    exact hk
  · refine State.modTmr_keeps _ _ _ ?_
    exact hk
  · refine State.modTmr_keeps _ _ _ ?_
    exact hk
  · refine State.gateWrite_keeps _ _ _ ?_
    exact hk
  · exact hk

theorem State.tmrWrite_keeps (s : State) (o : Nat) (x : RegW) (hk : Keeps ls zs s) : Keeps ls zs (State.tmrWrite s o
    x) := by
  unfold State.tmrWrite
  refine Keeps.ite (fun _ => ?_) (fun _ => ?_)
  · refine State.tmrGroupWrite_keeps _ _ _ _ ?_
    exact hk
  · split
    · refine Keeps.ite (fun _ => ?_) (fun _ => ?_)
      · refine State.gstart_keeps _ _ _ ?_
        exact hk
      · exact hk
    · exact hk.lit rfl rfl rfl rfl rfl
    · exact hk.lit rfl rfl rfl rfl rfl
    · exact hk.lit rfl rfl rfl rfl rfl
    · exact hk

theorem State.pfWrite_keeps (s : State) (o : Nat) (x : RegW) (hk : Keeps ls zs s) : Keeps ls zs (State.pfWrite s o
    x) := by
  unfold State.pfWrite
  refine Keeps.ite (fun _ => ?_) (fun _ => ?_)
  · refine State.hubWrite_keeps _ _ _ ?_
    exact hk
  · refine Keeps.ite (fun _ => ?_) (fun _ => ?_)
    · refine State.ringWrite_keeps _ _ _ _ ?_
      exact hk
    · refine Keeps.ite (fun _ => ?_) (fun _ => ?_)
      · refine State.fgrWrite_keeps _ _ _ ?_
        exact hk
      · refine Keeps.ite (fun _ => ?_) (fun _ => ?_)
        · refine State.hrdWrite_keeps _ _ _ ?_
          exact hk
        · refine Keeps.ite (fun _ => ?_) (fun _ => ?_)
          · refine State.modStack_keeps _ _ _ ?_
            exact hk
          · refine Keeps.ite (fun _ => ?_) (fun _ => ?_)
            · refine State.modTile_keeps _ _ _ ?_
              exact hk
            · refine Keeps.ite (fun _ => ?_) (fun _ => ?_)
              · refine State.tmrWrite_keeps _ _ _ ?_
                exact hk
              · refine Keeps.ite (fun _ => ?_) (fun _ => ?_)
                · exact hk.lit rfl rfl rfl rfl rfl
                · refine Keeps.ite (fun _ => ?_) (fun _ => ?_)
                  · refine Keeps.ite (fun _ => ?_) (fun _ => ?_)
                    · refine State.acctSnap_keeps _ ?_
                      exact hk
                    · exact hk
                  · refine Keeps.ite (fun _ => ?_) (fun _ => ?_)
                    · exact hk.lit rfl rfl rfl rfl rfl
                    · exact hk

theorem State.msixWrite_keeps (s : State) (fn : Nat) (o : Nat) (x : RegW) (hk : Keeps ls zs s) : Keeps ls zs
    (State.msixWrite s fn o x) := by
  unfold State.msixWrite
  extract_lets -merge +onlyGivenNames x1
  clear_value x1
  extract_lets -merge +onlyGivenNames x2
  clear_value x2
  extract_lets -merge +onlyGivenNames x3
  have h3 : ∀ y0, Keeps ls zs (x3 y0) := by
    unfold x3
    intro x4
    refine State.modFn_keeps _ _ _ ?_
    exact hk
  clear_value x3
  refine Keeps.ite (fun _ => ?_) (fun _ => ?_)
  · exact hk
  · refine Keeps.ite (fun _ => ?_) (fun _ => ?_)
    · exact h3 _
    · refine Keeps.ite (fun _ => ?_) (fun _ => ?_)
      · exact h3 _
      · refine Keeps.ite (fun _ => ?_) (fun _ => ?_)
        · refine State.unmask_keeps _ _ _ ?_
          exact h3 _
        · exact h3 _

theorem State.ctrlPut_keeps (s : State) (fn : Nat) (off : Nat) (x : RegW) (hk : Keeps ls zs s) : Keeps ls zs
    (State.ctrlPut s fn off x) := by
  unfold State.ctrlPut
  refine Keeps.ite (fun _ => ?_) (fun _ => ?_)
  · refine State.msixWrite_keeps _ _ _ _ ?_
    exact hk
  · split
    · refine State.pfWrite_keeps _ _ _ ?_
      exact hk
    · exact hk

theorem State.ctrlWrite_keeps (s : State) (fn : Nat) (off : Nat) (data : Bytes) (hk : Keeps ls zs s) : Keeps ls zs
    (State.ctrlWrite s fn off data) := by
  unfold State.ctrlWrite
  refine Keeps.ite (fun _ => ?_) (fun _ => ?_)
  · split
    · refine State.ctrlPut_keeps _ _ _ _ ?_
      exact hk
    · refine State.accessFault_keeps _ _ _ _ _ ?_
      exact hk
  · refine State.accessFault_keeps _ _ _ _ _ ?_
    exact hk

theorem execRingCfgWrite_keeps (fn : Nat) (off : Nat) (data : Bytes) (s : State) (hk : Keeps ls zs s) : KeepsR ls zs
    (execRingCfgWrite fn off data s) := by
  unfold execRingCfgWrite
  refine KeepsR.next ?_
  refine Keeps.ite (fun _ => ?_) (fun _ => ?_)
  · refine State.memWrite_keeps _ _ _ _ _ _ ?_ ?_
    · exact hk
    · intro x1 h1
      refine State.ctrlWrite_keeps _ _ _ _ ?_
      exact h1
  · exact hk

theorem execRegWrite_keeps (fn : Nat) (off : Nat) (data : Bytes) (s : State) (hk : Keeps ls zs s) : KeepsR ls zs
    (execRegWrite fn off data s) := by
  unfold execRegWrite
  refine KeepsR.next ?_
  refine Keeps.ite (fun _ => ?_) (fun _ => ?_)
  · exact hk
  · refine State.memWrite_keeps _ _ _ _ _ _ ?_ ?_
    · exact hk
    · intro x1 h1
      refine State.ctrlWrite_keeps _ _ _ _ ?_
      exact h1

theorem State.lowRead_keeps (s : State) (fn : Nat) (off : Nat) (hk : Keeps ls zs s) : Keeps ls zs (State.lowRead s
    fn off) := by
  unfold State.lowRead
  split
  · refine State.emit_keeps _ _ ?_
    refine State.modFn_keeps _ _ _ ?_
    exact hk
  · exact hk

theorem execCounterLowRead_keeps (fn : Nat) (off : Nat) (s : State) (hk : Keeps ls zs s) : KeepsR ls zs
    (execCounterLowRead fn off s) := by
  unfold execCounterLowRead
  refine KeepsR.next ?_
  refine Keeps.ite (fun _ => ?_) (fun _ => ?_)
  · refine State.memRead_keeps _ _ _ _ _ _ ?_ ?_
    · exact hk
    · intro x1 h1
      refine State.lowRead_keeps _ _ _ ?_
      exact h1
  · exact hk

theorem State.refusedRead_keeps (s : State) (fn : Nat) (off : Nat) (len : Nat) (hk : Keeps ls zs s) : Keeps ls zs
    (State.refusedRead s fn off len) := by
  unfold State.refusedRead
  split
  · refine State.emit_keeps _ _ ?_
    refine State.accessFault_keeps _ _ _ _ _ ?_
    exact hk
  · exact hk

theorem execRefusedRead_keeps (fn : Nat) (off : Nat) (len : Nat) (s : State) (hk : Keeps ls zs s) : KeepsR ls zs
    (execRefusedRead fn off len s) := by
  unfold execRefusedRead
  refine KeepsR.next ?_
  refine Keeps.ite (fun _ => ?_) (fun _ => ?_)
  · refine State.memRead_keeps _ _ _ _ _ _ ?_ ?_
    · exact hk
    · intro x1 h1
      refine State.refusedRead_keeps _ _ _ _ ?_
      exact h1
  · exact hk

theorem State.jtagRead_keeps (s : State) (off : Nat) (hk : Keeps ls zs s) : Keeps ls zs (State.jtagRead s off) := by
  unfold State.jtagRead
  extract_lets -merge +onlyGivenNames x1
  have h1 : KeepsP ls zs x1 := by
    unfold x1
    refine State.free_keeps _ _ ?_
    exact hk
  clear_value x1
  refine State.emit_keeps _ _ ?_
  extract_lets -merge +onlyGivenNames x2
  have h2 : Keeps ls zs x2 := by
    unfold x2
    exact h1
  clear_value x2
  exact h2.lit rfl rfl rfl rfl rfl

theorem execJtagRegrd_keeps (off : Nat) (s : State) (hk : Keeps ls zs s) : KeepsR ls zs (execJtagRegrd off s) := by
  unfold execJtagRegrd
  refine KeepsR.next ?_
  refine State.jtagRead_keeps _ _ ?_
  exact hk

theorem State.devTouch_keeps (s : State) (fn : Nat) (a : Nat) (n : Nat) (write : Bool) (hk : Keeps ls zs s) : Keeps
    ls zs (State.devTouch s fn a n write) := by
  unfold State.devTouch
  refine Keeps.ite (fun _ => ?_) (fun _ => ?_)
  · exact hk
  · refine Keeps.getD ?_ ?_
    · refine State.touchLines_keeps _ _ _ _ _ _ ?_
      exact hk
    · exact hk

theorem State.devmemPut_keeps (s : State) (fn : Nat) (a : Nat) (data : Bytes) (hk : Keeps ls zs s) : Keeps ls zs
    (State.devmemPut s fn a data) := by
  unfold State.devmemPut
  extract_lets -merge +onlyGivenNames x1
  have h1 : Keeps ls zs x1 := by
    unfold x1
    refine Keeps.ite (fun _ => ?_) (fun _ => ?_)
    · exact hk
    · refine State.count_keeps _ _ _ _ ?_
      exact hk
  clear_value x1
  split
  · refine Keeps.ite (fun _ => ?_) (fun _ => ?_)
    · exact h1
    · refine State.sramWrite_keeps _ _ _ _ ?_
      exact h1
  · refine State.devWrite_keeps _ _ _ ?_
    refine State.devTouch_keeps _ _ _ _ _ ?_
    exact h1

theorem State.devmemGet_keeps (s : State) (fn : Nat) (a : Nat) (n : Nat) (hk : Keeps ls zs s) : KeepsQ ls zs
    (State.devmemGet s fn a n) := by
  unfold State.devmemGet
  split
  · refine KeepsQ.ite (fun _ => ?_) (fun _ => ?_)
    · refine KeepsQ.mk ?_
      refine KeepsP.mk ?_
      exact hk
    · extract_lets -merge +onlyGivenNames x1
      have h1 : KeepsP ls zs x1 := by
        unfold x1
        refine State.sramCarry_keeps _ _ _ _ ?_
        exact hk
      clear_value x1
      refine KeepsQ.mk ?_
      refine KeepsP.mk ?_
      exact h1
  · refine KeepsQ.mk ?_
    refine KeepsP.mk ?_
    refine State.devTouch_keeps _ _ _ _ _ ?_
    exact hk

theorem State.devmemWrite_keeps (s : State) (fn : Nat) (o : Nat) (data : Bytes) (hk : Keeps ls zs s) : Keeps ls zs
    (State.devmemWrite s fn o data) := by
  unfold State.devmemWrite
  split
  · refine State.devmemPut_keeps _ _ _ _ ?_
    exact hk
  · refine State.accessFault_keeps _ _ _ _ _ ?_
    exact hk
  · refine State.accessFault_keeps _ _ _ _ _ ?_
    exact hk

theorem State.devmemData_keeps (s : State) (fn : Nat) (data : Bytes) (ep : Bool) (hk : Keeps ls zs s) : Keeps ls zs
    (State.devmemData s fn data ep) := by
  unfold State.devmemData
  refine State.emit_keeps _ _ ?_
  refine Keeps.ite (fun _ => ?_) (fun _ => ?_)
  · exact hk
  · refine State.count_keeps _ _ _ _ ?_
    exact hk

theorem State.devmemRead_keeps (s : State) (fn : Nat) (o : Nat) (n : Nat) (hk : Keeps ls zs s) : Keeps ls zs
    (State.devmemRead s fn o n) := by
  unfold State.devmemRead
  split
  · extract_lets -merge +onlyGivenNames x1
    have h1 : KeepsQ ls zs x1 := by
      unfold x1
      refine State.devmemGet_keeps _ _ _ _ ?_
      exact hk
    clear_value x1
    refine State.devmemData_keeps _ _ _ _ ?_
    refine KeepsP.snd ?_
    exact h1
  · refine State.devmemData_keeps _ _ _ _ ?_
    refine State.accessFault_keeps _ _ _ _ _ ?_
    exact hk
  · refine State.devmemData_keeps _ _ _ _ ?_
    refine State.accessFault_keeps _ _ _ _ _ ?_
    exact hk

theorem execDevmemWrite_keeps (fn : Nat) (off : Nat) (data : Bytes) (s : State) (hk : Keeps ls zs s) : KeepsR ls zs
    (execDevmemWrite fn off data s) := by
  unfold execDevmemWrite
  refine KeepsR.next ?_
  refine Keeps.ite (fun _ => ?_) (fun _ => ?_)
  · refine State.memWrite_keeps _ _ _ _ _ _ ?_ ?_
    · exact hk
    · intro x1 h1
      refine State.devmemWrite_keeps _ _ _ _ ?_
      exact h1
  · exact hk

theorem execDevmemRead_keeps (fn : Nat) (off : Nat) (len : Nat) (s : State) (hk : Keeps ls zs s) : KeepsR ls zs
    (execDevmemRead fn off len s) := by
  unfold execDevmemRead
  refine KeepsR.next ?_
  refine Keeps.ite (fun _ => ?_) (fun _ => ?_)
  · refine State.memRead_keeps _ _ _ _ _ _ ?_ ?_
    · exact hk
    · intro x1 h1
      refine State.devmemRead_keeps _ _ _ _ ?_
      exact h1
  · exact hk

theorem State.release_keeps (s : State) (t : HeldTlp) (hk : Keeps ls zs s) : Keeps ls zs (State.release s t) := by
  unfold State.release
  split
  · refine State.doorbell_keeps _ _ _ _ ?_
    exact hk
  · refine State.ctrlWrite_keeps _ _ _ _ ?_
    exact hk
  · refine State.devmemWrite_keeps _ _ _ _ ?_
    exact hk
  · refine State.lowRead_keeps _ _ _ ?_
    exact hk
  · refine State.devmemRead_keeps _ _ _ _ ?_
    exact hk
  · refine State.refusedRead_keeps _ _ _ _ ?_
    exact hk
  · refine State.completion_keeps _ _ _ _ ?_
    exact hk
  · refine State.translated_keeps _ _ _ _ _ _ _ ?_
    exact hk

theorem State.hushFaults_keeps (s : State) (hk : Keeps ls zs s) : Keeps ls zs (State.hushFaults s) := by
  unfold State.hushFaults
  extract_lets -merge +onlyGivenNames x1
  clear_value x1
  extract_lets -merge +onlyGivenNames x2
  clear_value x2
  extract_lets -merge +onlyGivenNames x4 x3
  have h3 : Keeps ls zs x3 := by
    unfold x3
    exact hk.lit rfl rfl rfl rfl rfl
  try clear_value x3
  extract_lets -merge +onlyGivenNames x5
  have h5 : Keeps ls zs x5 := by
    unfold x5
    refine Keeps.foldl ?_ _ _ ?_
    · intro x6 x7 h6
      refine State.fault_keeps _ _ _ _ ?_
      exact h6
    · exact h3
  clear_value x5
  refine Keeps.ite (fun _ => ?_) (fun _ => ?_)
  · refine State.fault_keeps _ _ _ _ ?_
    exact h5
  · exact h5

theorem State.releaseAll_keeps (s : State) (hk : Keeps ls zs s) : Keeps ls zs (State.releaseAll s) := by
  unfold State.releaseAll
  extract_lets -merge +onlyGivenNames x1
  clear_value x1
  extract_lets -merge +onlyGivenNames x3 x2
  have h2 : Keeps ls zs x2 := by
    unfold x2
    exact hk.lit rfl rfl rfl rfl rfl
  try clear_value x2
  refine State.hushFaults_keeps _ ?_
  refine Keeps.foldl ?_ _ _ ?_
  · intro x4 x5 h4
    refine State.release_keeps _ _ ?_
    exact h4
  · exact h2

theorem State.hushLeave_keeps (s : State) (code : Nat) (hk : Keeps ls zs s) : Keeps ls zs (State.hushLeave s code)
    := by
  unfold State.hushLeave
  refine State.releaseAll_keeps _ ?_
  refine State.startClocks_keeps _ ?_
  exact hk.lit rfl rfl rfl rfl rfl

theorem State.hushCool_keeps (s : State) (hk : Keeps ls zs s) : Keeps ls zs (State.hushCool s) := by
  unfold State.hushCool
  extract_lets -merge +onlyGivenNames x1
  have h1 : Keeps ls zs x1 := by
    unfold x1
    refine State.resumeLevels_keeps _ ?_
    exact hk
  clear_value x1
  extract_lets -merge +onlyGivenNames x3 x2
  have h2 : Keeps ls zs x2 := by
    unfold x2
    refine State.startClocks_keeps _ ?_
    exact h1.lit rfl rfl rfl rfl rfl
  try clear_value x2
  refine State.releaseAll_keeps _ ?_
  refine State.thermalEvents_keeps _ ?_
  refine State.thermalEvent_keeps _ _ _ _ ?_
  exact h2

theorem State.holdCool_keeps (s : State) (hk : Keeps ls zs s) : Keeps ls zs (State.holdCool s) := by
  unfold State.holdCool
  extract_lets -merge +onlyGivenNames x1
  have h1 : Keeps ls zs x1 := by
    unfold x1
    refine State.resumeLevels_keeps _ ?_
    exact hk
  clear_value x1
  extract_lets -merge +onlyGivenNames x3 x2
  have h2 : Keeps ls zs x2 := by
    unfold x2
    exact h1.lit rfl rfl rfl rfl rfl
  try clear_value x2
  refine Keeps.ite (fun _ => ?_) (fun _ => ?_)
  · refine State.releaseAll_keeps _ ?_
    refine State.thermalEvents_keeps _ ?_
    refine State.startClocks_keeps _ ?_
    exact h2
  · exact h2

theorem State.hushExit_keeps (s : State) (hk : Keeps ls zs s) : Keeps ls zs (State.hushExit s) := by
  unfold State.hushExit
  refine Keeps.ite (fun _ => ?_) (fun _ => ?_)
  · refine Keeps.ite (fun _ => ?_) (fun _ => ?_)
    · refine Keeps.ite (fun _ => ?_) (fun _ => ?_)
      · refine State.hushCool_keeps _ ?_
        exact hk
      · exact hk
    · split
      · refine State.hushLeave_keeps _ _ ?_
        exact hk
      · exact hk
  · refine Keeps.ite (fun _ => ?_) (fun _ => ?_)
    · refine State.holdCool_keeps _ ?_
      exact hk
    · exact hk

theorem execHushExit_keeps (s : State) (hk : Keeps ls zs s) : KeepsR ls zs (execHushExit s) := by
  unfold execHushExit
  refine KeepsR.next ?_
  refine State.hushExit_keeps _ ?_
  exact hk

/-! ### Serial -/

theorem State.uartNak_keeps (s : State) (reason : Nat) (hk : Keeps ls zs s) : Keeps ls zs (State.uartNak s reason)
    := by
  unfold State.uartNak
  refine State.uartSend_keeps _ _ _ ?_
  exact hk.lit rfl rfl rfl rfl rfl

theorem State.uartFrame_keeps (s : State) (frame : Bytes) (cfg : Bool) (f : State → Nat → Bytes → State) (hk : Keeps
    ls zs s) (hf : ∀ (y0 : State) (y1 : Nat) (y2 : Bytes), Keeps ls zs y0 → Keeps ls zs (f y0 y1 y2)) : Keeps ls zs
    (State.uartFrame s frame cfg f) := by
  unfold State.uartFrame
  extract_lets -merge +onlyGivenNames x1
  clear_value x1
  refine Keeps.ite (fun _ => ?_) (fun _ => ?_)
  · extract_lets -merge +onlyGivenNames x3 x2
    have h2 : Keeps ls zs x2 := by
      unfold x2
      exact hk.lit rfl rfl rfl rfl rfl
    try clear_value x2
    split
    · exact h2
    · refine State.uartNak_keeps _ _ ?_
      exact h2
    · refine Keeps.ite (fun _ => ?_) (fun _ => ?_)
      · refine hf _ _ _ ?_
        exact h2
      · refine State.uartNak_keeps _ _ ?_
        exact h2
  · exact hk

theorem State.uartCount_keeps (s : State) (hk : Keeps ls zs s) : Keeps ls zs (State.uartCount s) := by
  unfold State.uartCount
  exact hk.lit rfl rfl rfl rfl rfl

theorem State.uartTake_keeps (s : State) (p : Bytes) (hk : Keeps ls zs s) : Keeps ls zs (State.uartTake s p) := by
  unfold State.uartTake
  extract_lets -merge +onlyGivenNames x2 x3 x1
  have h1 : Keeps ls zs x1 := by
    unfold x1
    exact hk.lit rfl rfl rfl rfl rfl
  try clear_value x1
  refine State.svcStart_keeps _ ?_
  refine State.wakeReq_keeps _ _ ?_
  exact h1

theorem State.uartGood_keeps (s : State) (ty : Nat) (p : Bytes) (hk : Keeps ls zs s) : Keeps ls zs (State.uartGood s
    ty p) := by
  unfold State.uartGood
  refine Keeps.ite (fun _ => ?_) (fun _ => ?_)
  · refine State.uartNak_keeps _ _ ?_
    exact hk
  · refine Keeps.ite (fun _ => ?_) (fun _ => ?_)
    · refine State.uartNak_keeps _ _ ?_
      refine State.uartCount_keeps _ ?_
      exact hk
    · refine State.uartTake_keeps _ _ ?_
      refine State.uartCount_keeps _ ?_
      exact hk

theorem execUartCmdFrame_keeps (frame : Bytes) (s : State) (hk : Keeps ls zs s) : KeepsR ls zs (execUartCmdFrame
    frame s) := by
  unfold execUartCmdFrame
  refine KeepsR.next ?_
  refine State.uartFrame_keeps _ _ _ _ ?_ ?_
  · exact hk
  · intro x1 x2 x3 h1
    refine State.uartGood_keeps _ _ _ ?_
    exact h1

theorem State.uartCfg_keeps (s : State) (_ty : Nat) (p : Bytes) (hk : Keeps ls zs s) : Keeps ls zs (State.uartCfg s
    _ty p) := by
  unfold State.uartCfg
  extract_lets -merge +onlyGivenNames x1
  have h1 : Keeps ls zs x1 := by
    unfold x1
    refine State.uartCount_keeps _ ?_
    exact hk
  clear_value x1
  refine Keeps.ite (fun _ => ?_) (fun _ => ?_)
  · refine State.uartSend_keeps _ _ _ ?_
    exact h1.lit rfl rfl rfl rfl rfl
  · refine State.uartSend_keeps _ _ _ ?_
    exact h1

theorem execUartCfgFrame_keeps (frame : Bytes) (s : State) (hk : Keeps ls zs s) : KeepsR ls zs (execUartCfgFrame
    frame s) := by
  unfold execUartCfgFrame
  refine KeepsR.next ?_
  refine State.uartFrame_keeps _ _ _ _ ?_ ?_
  · exact hk
  · intro x1 x2 x3 h1
    refine State.uartCfg_keeps _ _ _ ?_
    exact h1

theorem execUartCfgApply_keeps (s : State) (hk : Keeps ls zs s) : KeepsR ls zs (execUartCfgApply s) := by
  unfold execUartCfgApply
  refine KeepsR.next ?_
  split
  · exact hk.lit rfl rfl rfl rfl rfl
  · exact hk

theorem execUartFrameGap_keeps (s : State) (hk : Keeps ls zs s) : KeepsR ls zs (execUartFrameGap s) := by
  unfold execUartFrameGap
  refine KeepsR.next ?_
  refine Keeps.ite (fun _ => ?_) (fun _ => ?_)
  · refine State.uartNak_keeps _ _ ?_
    exact hk.lit rfl rfl rfl rfl rfl
  · exact hk

theorem execUartBreak_keeps (s : State) (hk : Keeps ls zs s) : KeepsR ls zs (execUartBreak s) := by
  unfold execUartBreak
  refine KeepsR.next ?_
  refine Keeps.ite (fun _ => ?_) (fun _ => ?_)
  · exact hk.lit rfl rfl rfl rfl rfl
  · exact hk

theorem State.mgtRecv_keeps (s : State) (m : Bytes) (f : State → State) (hk : Keeps ls zs s) (hf : ∀ (y0 : State),
    Keeps ls zs y0 → Keeps ls zs (f y0)) : Keeps ls zs (State.mgtRecv s m f) := by
  unfold State.mgtRecv
  refine Keeps.ite (fun _ => ?_) (fun _ => ?_)
  · extract_lets -merge +onlyGivenNames x1
    have h1 : Keeps ls zs x1 := by
      unfold x1
      refine State.wakeReq_keeps _ _ ?_
      exact hk
    clear_value x1
    refine Keeps.ite (fun _ => ?_) (fun _ => ?_)
    · refine hf _ ?_
      exact h1.lit rfl rfl rfl rfl rfl
    · exact h1.lit rfl rfl rfl rfl rfl
  · exact hk

theorem State.mgtPut_keeps (s : State) (dst : Nat) (ty : Nat) (body : Bytes) (hk : Keeps ls zs s) : Keeps ls zs
    (State.mgtPut s dst ty body) := by
  unfold State.mgtPut
  exact hk.lit rfl rfl rfl rfl rfl

theorem execPing_keeps (msg : Bytes) (s : State) (hk : Keeps ls zs s) : KeepsR ls zs (execPing msg s) := by
  unfold execPing
  refine KeepsR.next ?_
  refine Keeps.ite (fun _ => ?_) (fun _ => ?_)
  · refine State.mgtRecv_keeps _ _ _ ?_ ?_
    · exact hk
    · intro x1 h1
      refine Keeps.ite (fun _ => ?_) (fun _ => ?_)
      · refine State.mgtPut_keeps _ _ _ _ ?_
        exact h1
      · exact h1
  · exact hk

theorem execWake_keeps (msg : Bytes) (s : State) (hk : Keeps ls zs s) : KeepsR ls zs (execWake msg s) := by
  unfold execWake
  refine KeepsR.next ?_
  refine Keeps.ite (fun _ => ?_) (fun _ => ?_)
  · refine State.mgtRecv_keeps _ _ _ ?_ ?_
    · exact hk
    · intro x1 h1
      exact h1
  · exact hk

theorem execSensors_keeps (msg : Bytes) (s : State) (hk : Keeps ls zs s) : KeepsR ls zs (execSensors msg s) := by
  unfold execSensors
  refine KeepsR.next ?_
  refine Keeps.ite (fun _ => ?_) (fun _ => ?_)
  · refine State.mgtRecv_keeps _ _ _ ?_ ?_
    · exact hk
    · intro x1 h1
      refine Keeps.ite (fun _ => ?_) (fun _ => ?_)
      · refine State.mgtPut_keeps _ _ _ _ ?_
        exact h1
      · exact h1
  · exact hk

theorem State.putAlert_keeps (s : State) (hk : Keeps ls zs s) : Keeps ls zs (State.putAlert s) := by
  unfold State.putAlert
  refine Keeps.ite (fun _ => ?_) (fun _ => ?_)
  · exact hk.lit rfl rfl rfl rfl rfl
  · refine State.mgtPut_keeps _ _ _ _ ?_
    exact hk

theorem execAlertSend_keeps (s : State) (hk : Keeps ls zs s) : KeepsR ls zs (execAlertSend s) := by
  unfold execAlertSend
  refine KeepsR.next ?_
  refine Keeps.ite (fun _ => ?_) (fun _ => ?_)
  · refine State.putAlert_keeps _ ?_
    exact hk.lit rfl rfl rfl rfl rfl
  · exact hk

theorem execMgtArbLoss_keeps (s : State) (hk : Keeps ls zs s) : KeepsR ls zs (execMgtArbLoss s) := by
  unfold execMgtArbLoss
  refine KeepsR.next ?_
  split
  · refine Keeps.ite (fun _ => ?_) (fun _ => ?_)
    · exact hk.lit rfl rfl rfl rfl rfl
    · exact hk
  · exact hk

theorem execMgtRetry_keeps (s : State) (hk : Keeps ls zs s) : KeepsR ls zs (execMgtRetry s) := by
  unfold execMgtRetry
  refine KeepsR.next ?_
  split
  · refine Keeps.ite (fun _ => ?_) (fun _ => ?_)
    · refine Keeps.ite (fun _ => ?_) (fun _ => ?_)
      · refine State.fault_keeps _ _ _ _ ?_
        exact hk.lit rfl rfl rfl rfl rfl
      · exact hk.lit rfl rfl rfl rfl rfl
    · exact hk
  · exact hk

theorem execMgtRxDiscard_keeps (s : State) (hk : Keeps ls zs s) : KeepsR ls zs (execMgtRxDiscard s) := by
  unfold execMgtRxDiscard
  refine KeepsR.next ?_
  refine Keeps.ite (fun _ => ?_) (fun _ => ?_)
  · exact hk.lit rfl rfl rfl rfl rfl
  · exact hk

theorem execSmbusArp_keeps (addr : BitVec 7) (s : State) (hk : Keeps ls zs s) : KeepsR ls zs (execSmbusArp addr s)
    := by
  unfold execSmbusArp
  refine KeepsR.next ?_
  refine Keeps.ite (fun _ => ?_) (fun _ => ?_)
  · refine State.emit_keeps _ _ ?_
    exact hk.lit rfl rfl rfl rfl rfl
  · exact hk

theorem execSmbusPecDrop_keeps (s : State) (hk : Keeps ls zs s) : KeepsR ls zs (execSmbusPecDrop s) := by
  unfold execSmbusPecDrop
  refine KeepsR.next ?_
  refine Keeps.ite (fun _ => ?_) (fun _ => ?_)
  · exact hk.lit rfl rfl rfl rfl rfl
  · exact hk

theorem State.mctpSay_keeps (s : State) (vdm : Bool) (ty : Nat) (cmd : Nat) (data : Bytes) (hk : Keeps ls zs s) :
    Keeps ls zs (State.mctpSay s vdm ty cmd data) := by
  unfold State.mctpSay
  refine State.emit_keeps _ _ ?_
  exact hk

theorem State.setEid_keeps (s : State) (vdm : Bool) (e : BitVec 8) (hk : Keeps ls zs s) : Keeps ls zs (State.setEid
    s vdm e) := by
  unfold State.setEid
  refine Keeps.ite (fun _ => ?_) (fun _ => ?_)
  · exact hk.lit rfl rfl rfl rfl rfl
  · exact hk.lit rfl rfl rfl rfl rfl

theorem execSetEndpointId_keeps (vdm : Bool) (msg : Bytes) (s : State) (hk : Keeps ls zs s) : KeepsR ls zs
    (execSetEndpointId vdm msg s) := by
  unfold execSetEndpointId
  refine KeepsR.next ?_
  refine Keeps.ite (fun _ => ?_) (fun _ => ?_)
  · extract_lets -merge +onlyGivenNames x1
    clear_value x1
    refine Keeps.ite (fun _ => ?_) (fun _ => ?_)
    · refine State.mctpSay_keeps _ _ _ _ _ ?_
      exact hk
    · refine State.mctpSay_keeps _ _ _ _ _ ?_
      refine State.setEid_keeps _ _ _ ?_
      exact hk
  · exact hk

theorem execGetEndpointId_keeps (vdm : Bool) (_msg : Bytes) (s : State) (hk : Keeps ls zs s) : KeepsR ls zs
    (execGetEndpointId vdm _msg s) := by
  unfold execGetEndpointId
  refine KeepsR.next ?_
  refine Keeps.ite (fun _ => ?_) (fun _ => ?_)
  · refine State.mctpSay_keeps _ _ _ _ _ ?_
    exact hk
  · exact hk

theorem execGetMctpVersionSupport_keeps (vdm : Bool) (msg : Bytes) (s : State) (hk : Keeps ls zs s) : KeepsR ls zs
    (execGetMctpVersionSupport vdm msg s) := by
  unfold execGetMctpVersionSupport
  refine KeepsR.next ?_
  refine Keeps.ite (fun _ => ?_) (fun _ => ?_)
  · extract_lets -merge +onlyGivenNames x1
    have h1 : KeepsP ls zs x1 := by
      unfold x1
      refine State.free_keeps _ _ ?_
      exact hk
    clear_value x1
    refine Keeps.ite (fun _ => ?_) (fun _ => ?_)
    · refine State.mctpSay_keeps _ _ _ _ _ ?_
      exact h1
    · refine State.mctpSay_keeps _ _ _ _ _ ?_
      exact hk
  · exact hk

theorem execGetMessageTypeSupport_keeps (vdm : Bool) (_msg : Bytes) (s : State) (hk : Keeps ls zs s) : KeepsR ls zs
    (execGetMessageTypeSupport vdm _msg s) := by
  unfold execGetMessageTypeSupport
  refine KeepsR.next ?_
  refine Keeps.ite (fun _ => ?_) (fun _ => ?_)
  · refine State.mctpSay_keeps _ _ _ _ _ ?_
    exact hk
  · exact hk

theorem execGetEndpointUuid_keeps (vdm : Bool) (_msg : Bytes) (s : State) (hk : Keeps ls zs s) : KeepsR ls zs
    (execGetEndpointUuid vdm _msg s) := by
  unfold execGetEndpointUuid
  refine KeepsR.next ?_
  refine Keeps.ite (fun _ => ?_) (fun _ => ?_)
  · extract_lets -merge +onlyGivenNames x1
    have h1 : KeepsP ls zs x1 := by
      unfold x1
      refine State.free_keeps _ _ ?_
      exact hk
    clear_value x1
    refine State.mctpSay_keeps _ _ _ _ _ ?_
    exact h1
  · exact hk

theorem execGetTid_keeps (vdm : Bool) (_msg : Bytes) (s : State) (hk : Keeps ls zs s) : KeepsR ls zs (execGetTid vdm
    _msg s) := by
  unfold execGetTid
  refine KeepsR.next ?_
  refine Keeps.ite (fun _ => ?_) (fun _ => ?_)
  · refine State.mctpSay_keeps _ _ _ _ _ ?_
    exact hk
  · exact hk

theorem execSetTid_keeps (vdm : Bool) (msg : Bytes) (s : State) (hk : Keeps ls zs s) : KeepsR ls zs (execSetTid vdm
    msg s) := by
  unfold execSetTid
  refine KeepsR.next ?_
  refine Keeps.ite (fun _ => ?_) (fun _ => ?_)
  · extract_lets -merge +onlyGivenNames x1
    clear_value x1
    refine Keeps.ite (fun _ => ?_) (fun _ => ?_)
    · refine State.mctpSay_keeps _ _ _ _ _ ?_
      exact hk
    · refine State.mctpSay_keeps _ _ _ _ _ ?_
      exact hk.lit rfl rfl rfl rfl rfl
  · exact hk

theorem execGetPldmVersion_keeps (vdm : Bool) (msg : Bytes) (s : State) (hk : Keeps ls zs s) : KeepsR ls zs
    (execGetPldmVersion vdm msg s) := by
  unfold execGetPldmVersion
  refine KeepsR.next ?_
  refine Keeps.ite (fun _ => ?_) (fun _ => ?_)
  · extract_lets -merge +onlyGivenNames x1
    have h1 : KeepsP ls zs x1 := by
      unfold x1
      refine State.free_keeps _ _ ?_
      exact hk
    clear_value x1
    refine Keeps.ite (fun _ => ?_) (fun _ => ?_)
    · refine State.mctpSay_keeps _ _ _ _ _ ?_
      exact h1
    · refine State.mctpSay_keeps _ _ _ _ _ ?_
      exact hk
  · exact hk

theorem execGetPldmTypes_keeps (vdm : Bool) (_msg : Bytes) (s : State) (hk : Keeps ls zs s) : KeepsR ls zs
    (execGetPldmTypes vdm _msg s) := by
  unfold execGetPldmTypes
  refine KeepsR.next ?_
  refine Keeps.ite (fun _ => ?_) (fun _ => ?_)
  · refine State.mctpSay_keeps _ _ _ _ _ ?_
    exact hk
  · exact hk

theorem execGetPldmCommands_keeps (vdm : Bool) (msg : Bytes) (s : State) (hk : Keeps ls zs s) : KeepsR ls zs
    (execGetPldmCommands vdm msg s) := by
  unfold execGetPldmCommands
  refine KeepsR.next ?_
  refine Keeps.ite (fun _ => ?_) (fun _ => ?_)
  · refine Keeps.ite (fun _ => ?_) (fun _ => ?_)
    · refine State.mctpSay_keeps _ _ _ _ _ ?_
      exact hk
    · refine State.mctpSay_keeps _ _ _ _ _ ?_
      exact hk
  · exact hk

theorem execGetPdrRepositoryInfo_keeps (vdm : Bool) (_msg : Bytes) (s : State) (hk : Keeps ls zs s) : KeepsR ls zs
    (execGetPdrRepositoryInfo vdm _msg s) := by
  unfold execGetPdrRepositoryInfo
  refine KeepsR.next ?_
  refine Keeps.ite (fun _ => ?_) (fun _ => ?_)
  · extract_lets -merge +onlyGivenNames x1
    have h1 : KeepsP ls zs x1 := by
      unfold x1
      refine State.free_keeps _ _ ?_
      exact hk
    clear_value x1
    refine State.mctpSay_keeps _ _ _ _ _ ?_
    exact h1
  · exact hk

theorem execGetPdr_keeps (vdm : Bool) (_msg : Bytes) (s : State) (hk : Keeps ls zs s) : KeepsR ls zs (execGetPdr vdm
    _msg s) := by
  unfold execGetPdr
  refine KeepsR.next ?_
  refine Keeps.ite (fun _ => ?_) (fun _ => ?_)
  · extract_lets -merge +onlyGivenNames x1
    have h1 : KeepsP ls zs x1 := by
      unfold x1
      refine State.free_keeps _ _ ?_
      exact hk
    clear_value x1
    refine State.mctpSay_keeps _ _ _ _ _ ?_
    exact h1
  · exact hk

theorem execGetSensorReading_keeps (vdm : Bool) (msg : Bytes) (s : State) (hk : Keeps ls zs s) : KeepsR ls zs
    (execGetSensorReading vdm msg s) := by
  unfold execGetSensorReading
  refine KeepsR.next ?_
  refine Keeps.ite (fun _ => ?_) (fun _ => ?_)
  · split
    · extract_lets -merge +onlyGivenNames x1
      have h1 : KeepsP ls zs x1 := by
        unfold x1
        refine State.free_keeps _ _ ?_
        exact hk
      clear_value x1
      refine State.mctpSay_keeps _ _ _ _ _ ?_
      exact h1
    · refine State.mctpSay_keeps _ _ _ _ _ ?_
      exact hk
  · exact hk

theorem execGetStateSensorReadings_keeps (vdm : Bool) (msg : Bytes) (s : State) (hk : Keeps ls zs s) : KeepsR ls zs
    (execGetStateSensorReadings vdm msg s) := by
  unfold execGetStateSensorReadings
  refine KeepsR.next ?_
  refine Keeps.ite (fun _ => ?_) (fun _ => ?_)
  · split
    · extract_lets -merge +onlyGivenNames x1
      have h1 : KeepsP ls zs x1 := by
        unfold x1
        refine State.free_keeps _ _ ?_
        exact hk
      clear_value x1
      refine State.mctpSay_keeps _ _ _ _ _ ?_
      exact h1
    · refine State.mctpSay_keeps _ _ _ _ _ ?_
      exact hk
  · exact hk

theorem State.usbSetup_keeps (s : State) (f : State → State) (hk : Keeps ls zs s) (hf : ∀ (y0 : State), Keeps ls zs
    y0 → Keeps ls zs (f y0)) : Keeps ls zs (State.usbSetup s f) := by
  unfold State.usbSetup
  refine Keeps.ite (fun _ => ?_) (fun _ => ?_)
  · extract_lets -merge +onlyGivenNames x1
    have h1 : Keeps ls zs x1 := by
      unfold x1
      refine State.svcStart_keeps _ ?_
      refine State.wakeReq_keeps _ _ ?_
      exact hk
    clear_value x1
    refine Keeps.ite (fun _ => ?_) (fun _ => ?_)
    · refine hf _ ?_
      exact h1
    · exact h1
  · exact hk

theorem execUsbCommand_keeps (pkt : Bytes) (s : State) (hk : Keeps ls zs s) : KeepsR ls zs (execUsbCommand pkt s) :=
    by
  unfold execUsbCommand
  refine KeepsR.next ?_
  refine State.usbSetup_keeps _ _ ?_ ?_
  · exact hk
  · intro x1 h1
    refine Keeps.ite (fun _ => ?_) (fun _ => ?_)
    · refine State.emit_keeps _ _ ?_
      exact h1
    · exact h1.lit rfl rfl rfl rfl rfl

theorem execGetReply_keeps (tag : W16) (s : State) (hk : Keeps ls zs s) : KeepsR ls zs (execGetReply tag s) := by
  unfold execGetReply
  refine KeepsR.next ?_
  refine State.usbSetup_keeps _ _ ?_ ?_
  · exact hk
  · intro x1 h1
    refine Keeps.ite (fun _ => ?_) (fun _ => ?_)
    · refine State.emit_keeps _ _ ?_
      exact h1
    · split
      · refine Keeps.ite (fun _ => ?_) (fun _ => ?_)
        · refine State.emit_keeps _ _ ?_
          exact h1
        · refine State.emit_keeps _ _ ?_
          exact h1
      · refine State.emit_keeps _ _ ?_
        exact h1

theorem execUsbSetupStall_keeps (setup : Bytes) (s : State) (hk : Keeps ls zs s) : KeepsR ls zs (execUsbSetupStall
    setup s) := by
  unfold execUsbSetupStall
  refine KeepsR.next ?_
  refine Keeps.ite (fun _ => ?_) (fun _ => ?_)
  · exact hk
  · refine State.usbSetup_keeps _ _ ?_ ?_
    · exact hk
    · intro x1 h1
      refine State.emit_keeps _ _ ?_
      exact h1

theorem State.ep1End_keeps (s : State) (status : Nat) (hk : Keeps ls zs s) : Keeps ls zs (State.ep1End s status) :=
    by
  unfold State.ep1End
  split
  · refine State.finishCmd_keeps _ _ _ ?_
    exact hk.lit rfl rfl rfl rfl rfl
  · exact hk

theorem State.usbReset_keeps (s : State) (partialCmd : Bool) (hk : Keeps ls zs s) : Keeps ls zs (State.usbReset s
    partialCmd) := by
  unfold State.usbReset
  extract_lets -merge +onlyGivenNames x2 x1
  have h1 : Keeps ls zs x1 := by
    unfold x1
    exact hk.lit rfl rfl rfl rfl rfl
  try clear_value x1
  refine State.ep1End_keeps _ _ ?_
  exact h1

theorem execUsbBusReset_keeps (partialCmd : Bool) (high : Bool) (s : State) (hk : Keeps ls zs s) : KeepsR ls zs
    (execUsbBusReset partialCmd high s) := by
  unfold execUsbBusReset
  refine KeepsR.next ?_
  refine Keeps.ite (fun _ => ?_) (fun _ => ?_)
  · extract_lets -merge +onlyGivenNames x1
    have h1 : Keeps ls zs x1 := by
      unfold x1
      refine State.usbReset_keeps _ _ ?_
      exact hk
    clear_value x1
    exact h1.lit rfl rfl rfl rfl rfl
  · exact hk

theorem execVbusLoss_keeps (partialCmd : Bool) (s : State) (hk : Keeps ls zs s) : KeepsR ls zs (execVbusLoss
    partialCmd s) := by
  unfold execVbusLoss
  refine KeepsR.next ?_
  extract_lets -merge +onlyGivenNames x1
  have h1 : Keeps ls zs x1 := by
    unfold x1
    refine Keeps.ite (fun _ => ?_) (fun _ => ?_)
    · refine State.usbReset_keeps _ _ ?_
      exact hk
    · exact hk
  clear_value x1
  exact h1.lit rfl rfl rfl rfl rfl

theorem execVbusReturn_keeps (s : State) (hk : Keeps ls zs s) : KeepsR ls zs (execVbusReturn s) := by
  unfold execVbusReturn
  refine KeepsR.next ?_
  exact hk.lit rfl rfl rfl rfl rfl

theorem State.ep1In_keeps (s : State) (x : BulkXfer) (hk : Keeps ls zs s) : Keeps ls zs (State.ep1In s x) := by
  unfold State.ep1In
  extract_lets -merge +onlyGivenNames x1
  clear_value x1
  extract_lets -merge +onlyGivenNames x2
  have h2 : Keeps ls zs x2 := by
    unfold x2
    refine State.emit_keeps _ _ ?_
    exact hk
  clear_value x2
  refine Keeps.ite (fun _ => ?_) (fun _ => ?_)
  · refine State.finishCmd_keeps _ _ _ ?_
    exact h2.lit rfl rfl rfl rfl rfl
  · exact h2.lit rfl rfl rfl rfl rfl

theorem State.ep1Out_keeps (s : State) (x : BulkXfer) (data : Bytes) (hk : Keeps ls zs s) : Keeps ls zs
    (State.ep1Out s x data) := by
  unfold State.ep1Out
  extract_lets -merge +onlyGivenNames x1
  clear_value x1
  refine Keeps.ite (fun _ => ?_) (fun _ => ?_)
  · refine State.modCmd_keeps _ _ _ ?_
    exact hk.lit rfl rfl rfl rfl rfl
  · refine Keeps.ite (fun _ => ?_) (fun _ => ?_)
    · refine State.ep1End_keeps _ _ ?_
      exact hk
    · exact hk.lit rfl rfl rfl rfl rfl

theorem execEp1Packet_keeps (data : Bytes) (s : State) (hk : Keeps ls zs s) : KeepsR ls zs (execEp1Packet data s) :=
    by
  unfold execEp1Packet
  refine KeepsR.next ?_
  split
  · refine Keeps.ite (fun _ => ?_) (fun _ => ?_)
    · refine Keeps.ite (fun _ => ?_) (fun _ => ?_)
      · refine State.ep1Out_keeps _ _ _ ?_
        exact hk
      · refine State.ep1In_keeps _ _ ?_
        exact hk
    · exact hk
  · exact hk

theorem execEp1Timeout_keeps (s : State) (hk : Keeps ls zs s) : KeepsR ls zs (execEp1Timeout s) := by
  unfold execEp1Timeout
  refine KeepsR.next ?_
  refine State.ep1End_keeps _ _ ?_
  exact hk

end

end Sys2Proof.Machine
end

