-- ==== Sys2Proof/Laws/Mioter.lean ====
section
/-!
SUPPORT. What the operations on a quadrant's PEs do: queues, consumed operands, and the operands that an operation reads (03 R77 to R80).
-/

namespace Sys2Proof.Machine

theorem Quad.modPe_pe (x : Quad) (p r : Nat) (f : Pe → Pe) : (x.modPe p f).pe r = if r = p then f (x.pe p) else x.pe r := by
  simp [Quad.modPe, Quad.pe, mget_mset]

theorem Pe.setQueue_queue (e : Pe) (a b : Nat) (l : List MioWord) (ha : a < 4) (hb : b < 4) :
    (e.setQueue a l).queue b = if b = a then l else e.queue b := by
  interval_cases a <;> interval_cases b <;> rfl

theorem Pe.setQueue_rest (e : Pe) (a : Nat) (l : List MioWord) :
    (e.setQueue a l).regs = e.regs ∧ (e.setQueue a l).flag = e.flag ∧ (e.setQueue a l).pc = e.pc := by
  unfold Pe.setQueue; split <;> exact ⟨rfl, rfl, rfl⟩

/-- Queues that lose their front item, registers and PC as before. -/
theorem Pe.popped_rest (dirs : List Nat) (e : Pe) :
    let y := dirs.foldl (fun e d => e.setQueue d (e.queue d).tail) e
    y.regs = e.regs ∧ y.flag = e.flag ∧ y.pc = e.pc := by
  induction dirs generalizing e with
  | nil => exact ⟨rfl, rfl, rfl⟩
  | cons d l ih =>
    have h := Pe.setQueue_rest e d (e.queue d).tail
    have h2 := ih (e.setQueue d (e.queue d).tail)
    simp only [List.foldl] at h2 ⊢
    rw [h2.1, h2.2.1, h2.2.2]
    exact h

theorem Pe.popped_queue (dirs : List Nat) (e : Pe) (hn : dirs.Nodup) (h4 : ∀ d ∈ dirs, d < 4) (n : Nat) (h : n < 4) :
    (dirs.foldl (fun e d => e.setQueue d (e.queue d).tail) e).queue n = if n ∈ dirs then (e.queue n).tail else e.queue n := by
  induction dirs generalizing e with
  | nil => simp
  | cons d l ih =>
    have h2 := ih (e.setQueue d (e.queue d).tail) (List.nodup_cons.mp hn).2 (fun d hd => h4 d (List.mem_cons_of_mem _ hd))
    simp only [List.foldl]
    rw [h2, Pe.setQueue_queue _ _ _ _ (h4 d (by simp)) h]
    have hd := (List.nodup_cons.mp hn).1
    by_cases e1 : n = d
    · subst e1; simp [hd]
    · simp [e1]

/-- The queues that an operation reads are distinct, and are the PE's own four. -/
theorem peReads_distinct (ins : Nat) (ua ub : Bool) : (peReads ins ua ub).Nodup ∧ ∀ d ∈ peReads ins ua ub, d < 4 := by
  have hd : ∀ n m, peDir n = some m → m < 4 := by intro n m h; unfold peDir at h; split at h <;> simp at h; omega
  unfold peReads
  simp only []
  split
  · rename_i x y h1 h2
    have hx : x < 4 := by cases ua <;> simp at h1; exact hd _ _ h1
    have hy : y < 4 := by cases ub <;> simp at h2; exact hd _ _ h2
    split <;> simp_all
  · rename_i x h1 h2
    have hx : x < 4 := by cases ua <;> simp at h1; exact hd _ _ h1
    simp [hx]
  · rename_i x h1 h2
    have hx : x < 4 := by cases ub <;> simp at h2; exact hd _ _ h2
    simp [hx]
  · simp

end Sys2Proof.Machine
end

