-- ==== Sys2Proof/Laws/Tile.lean ====
section
/-!
SUPPORT. What the sequencer's shared operations do: scalar registers, the issue of an instruction, the next PC, and reads of tile SRAM.
-/

namespace Sys2Proof.Machine

/-- A write to a scalar register is read back, and no other register changes; S0 stays zero (08 R248). -/
theorem Tile.getS_setS (x : Tile) (n k : Nat) (v : W64) : (x.setS n v).getS k = if k = n ∧ k ≠ 0 then v else x.getS k := by
  unfold Tile.setS Tile.getS
  by_cases hn : n = 0
  · subst hn; simp
  · simp only [hn, if_false, mget_mset]
    by_cases hk : k = 0
    · subst hk; simp
    · simp [hk]

/-- A write to a scalar register changes the register file alone. -/
theorem Tile.setS_frame (x : Tile) (n : Nat) (v : W64) : x.setS n v = { x with sregs := (x.setS n v).sregs } := by
  unfold Tile.setS; split <;> rfl

/-- An update of one tile leaves the rest of the state. -/
theorem modTile_rest (s : State) (t : Nat) (g : Tile → Tile) : { s.modTile t g with tiles := [] } = { s with tiles := [] } := rfl

theorem stallAt_tile (s : State) (t n : Nat) : (s.stallAt t n).tile t = { s.tile t with stall := n } := by simp [State.stallAt]

theorem stallAt_rest (s : State) (t n : Nat) : { s.stallAt t n with tiles := [] } = { s with tiles := [] } := rfl

/-- The instruction at issue is run, when it is the row's and no register that it names is still being written (08 R256). -/
theorem State.issue_runs {s : State} {t op : Nat} {r : Req} {regs : W64 → List Nat} (hr : s.holder t = some r)
    (ha : s.atIssue t op r = true) (hf : ∀ n ∈ regs (s.word t r.den), (s.tile t).pendingReg n = false)
    (f : State → W64 → Req → State) : s.issue t op regs f = f (s.stallAt t 0) (s.word t r.den) r := by
  unfold State.issue
  simp only [hr]
  rw [if_pos ha, if_neg]
  simp only [List.any_eq_true, not_exists, not_and, Bool.not_eq_true]
  exact hf

/-- A row that is not the instruction at issue leaves the state as it is. -/
theorem State.issue_rests {s : State} {t op : Nat} {regs : W64 → List Nat} {f : State → W64 → Req → State}
    (h : ∀ r, s.holder t = some r → s.atIssue t op r = false) : s.issue t op regs f = s := by
  unfold State.issue
  split
  · rfl
  · rename_i r hr
    simp [h r hr]

/-- A PC within the program store is taken. -/
theorem State.goto_within {s : State} {t n : Nat} (h : n < 8192) : s.goto t n = s.modTile t (fun x => { x with pc := n }) := by
  unfold State.goto
  simp only []
  rw [if_pos h]

/-- The next PC of an instruction that is not the last of the program store. -/
theorem State.advance_within {s : State} {t : Nat} (h : (s.tile t).pc < 8191) :
    s.advance t = s.modTile t (fun x => { x with pc := (s.tile t).pc + 1 }) := by
  unfold State.advance
  exact State.goto_within (by omega)

/-- SD takes its value, and the next instruction follows. -/
theorem State.setReg_within (s : State) (t n : Nat) (v : W64) (h : (s.tile t).pc < 8191) : s.setReg t n v =
    (s.modTile t (fun x => x.setS n v)).modTile t (fun x => { x with pc := (s.tile t).pc + 1 }) := by
  unfold State.setReg
  have hp : ((s.modTile t (fun x => x.setS n v)).tile t).pc = (s.tile t).pc := by
    rw [State.modTile_tile, if_pos rfl, Tile.setS_frame]
  rw [State.advance_within (by rw [hp]; exact h), hp]

/-- A read of tile SRAM without an ECC error and without a poison mark gives the bytes that stand there (08 R247, 22 R725). -/
theorem State.withSram_clean {s : State} {t a n : Nat} (h1 : (s.tile t).eccAny (granulesOf a n) 1 = false)
    (h2 : (s.tile t).eccAny (granulesOf a n) 2 = false) (h3 : (s.tile t).marked (granulesOf a n) = false)
    (f : State → Bytes → State) : s.withSram t a n f = f s (Machine.memRead (s.tile t).sram a n) := by
  unfold State.withSram State.sramRead State.sramCarry State.correctSram
  simp [h1, h2, h3]

theorem State.sramCarry_clean {s : State} {t a n : Nat} (h1 : (s.tile t).eccAny (granulesOf a n) 1 = false)
    (h2 : (s.tile t).eccAny (granulesOf a n) 2 = false) : s.sramCarry t a n = (some (Machine.memRead (s.tile t).sram a n), s) := by
  unfold State.sramCarry State.correctSram
  simp [h1, h2]

/-- A global access whose checks pass is started (08 R259, R262). -/
theorem State.globalAcc_starts {s : State} {t : Nat} {r : Req} {k : AccKind} {a n : Nat} {d : Bytes}
    (h1 : s.reachOf r a n k.writes ≠ .bad)
    (h2 : (s.reachOf r a n k.writes).isHost = true → (s.fn (r.den + 1)).bme = true)
    (h3 : (s.den r.den).open (s.reachOf r a n k.writes).path = true)
    (h4 : (s.reachOf r a n k.writes).isFar = true → s.fab.xacts.length < 16384) :
    s.globalAcc t r k a n d none = s.startAcc t r.den k (s.reachOf r a n k.writes) n d := by
  unfold State.globalAcc
  simp only []
  rw [if_neg h1, if_neg (by rintro ⟨x, y⟩; exact y (h2 x)), if_neg (by simp [h3]), if_neg (by rintro ⟨x, y⟩; have := h4 x; omega)]

end Sys2Proof.Machine
end

