-- ==== Sys2Proof/WellFormed.lean ====
section
/-!
DEFINITION. Which commands the interfaces of the DX-60 can deliver: the numbers of units, functions and rings that the spec
gives, and the shape of what a TLP, a message or a packet carries. A meaning asks nothing of this file: on an operand outside
it, it acts on a unit that does not exist.
-/

namespace Sys2Proof

open Sys2Proof.Machine (CmdSrc)

/-- A command source of R479: a ring pair of the PF or of a VF, or a service port. -/
def srcOk (c : CmdSrc) : Bool :=
  match c with
  | .ring fn pair => decide (fn ≤ 32 ∧ pair ≤ 7)
  | .usb | .uart => true

/-- A request to a CTRL or DOORBELL window: inside the window (14 R432), within one 4 KiB page, not empty. -/
def winOk (window off len : Nat) : Bool := decide (0 < len) && decide (off % 4096 + len ≤ 4096) && decide (off + len ≤ window)

/-- Size of a function's CTRL window: 64 MiB of the PF, 1 MiB of a VF (14 R432). -/
def ctrlSize (fn : Nat) : Nat := if fn = 0 then 0x4000000 else 0x100000

/-- Size of a function's DOORBELL window: 1 MiB of the PF, 64 KiB of a VF (14 R432). -/
def dbSize (fn : Nat) : Nat := if fn = 0 then 0x100000 else 0x10000

/-- A message of the Warren: whole flits, from 1 to 129 (16 R523). -/
def msgShape (m : Bytes) : Bool := decide (m.length % 32 = 0) && decide (0 < m.length ∧ m.length ≤ 32 * 129)

/-- The command's operands lie in the ranges that the spec gives its units. -/
def Instr.wf (i : Instr) : Bool :=
  match i with
  | .inlineDoorbell fn off data => decide (fn ≤ 32) && winOk (dbSize fn) off data.length
  | .tailDoorbell fn off data => decide (fn ≤ 32) && winOk (dbSize fn) off data.length
  | .cqHeadDoorbell fn off data => decide (fn ≤ 32) && winOk (dbSize fn) off data.length
  | .ringEntryFetchDone tag _ => decide (tag < 16384)
  | .headWriteBack ring => decide (ring < 33 * 32)
  | .ringCfgWrite fn off data => decide (fn ≤ 32) && winOk (ctrlSize fn) off data.length
  | .msixUnmask fn _ => decide (fn ≤ 32)
  | .regWrite fn off data => decide (fn ≤ 32) && winOk (ctrlSize fn) off data.length
  | .counterLowRead fn off => decide (fn ≤ 32) && winOk (ctrlSize fn) off 4
  | .devmemWrite fn off data => decide (fn ≤ 32) && winOk (2 ^ 39) off data.length
  | .devmemRead fn off len => decide (fn ≤ 32) && winOk (2 ^ 39) off len
  | .bmeClear fn => decide (fn ≤ 32)
  | .bmeSet fn _ => decide (fn ≤ 32)
  | .flr fn => decide (fn ≤ 32)
  | .vfEnableClear _ => true
  | .flrDrainTimeout fn => decide (fn ≤ 32)
  | .atsInvalidate fn itag iova log2 => decide (fn ≤ 32) && decide (itag < 32) && decide (iova < 2 ^ 64) && decide (log2 ≤ 64)
  | .translationCompletion fn iova target log2 _ _ => decide (fn ≤ 32) && decide (iova < 2 ^ 64) && decide (target < 2 ^ 64) && decide (log2 ≤ 64)
  | .hostReadCompletion tag _ _ => decide (tag < 16384)
  | .completionTimeout tag => decide (tag < 16384)
  | .perstAssert _ => true
  | .perstDeassert => true
  | .linkLoss => true
  | .d3hotEntry => true
  | .d0Return => true
  | .retainTimeout => true
  | .requestAdmit => true
  | .featureReadDone _ => true
  | .requestPlace den => decide (den < 32)
  | .taskStart _ => true
  | .tileWake tile => decide (tile < 256)
  | .tileEndReport tile => decide (tile < 256)
  | .taskAbortDone _ => true
  | .guardExpiry tile => decide (tile < 256)
  | .tileDoze tile => decide (tile < 256)
  | .tilePrepareDone tile => decide (tile < 256)
  | .mioTokenBoundary quad => decide (quad < 4)
  | .mioInputWord quad => decide (quad < 4)
  | .peNop quad pe => decide (quad < 4) && decide (pe < 256)
  | .peMov quad pe => decide (quad < 4) && decide (pe < 256)
  | .peAdd quad pe => decide (quad < 4) && decide (pe < 256)
  | .peSub quad pe => decide (quad < 4) && decide (pe < 256)
  | .peAnd quad pe => decide (quad < 4) && decide (pe < 256)
  | .peOr quad pe => decide (quad < 4) && decide (pe < 256)
  | .peXor quad pe => decide (quad < 4) && decide (pe < 256)
  | .peShl quad pe => decide (quad < 4) && decide (pe < 256)
  | .peShr quad pe => decide (quad < 4) && decide (pe < 256)
  | .peSra quad pe => decide (quad < 4) && decide (pe < 256)
  | .peMul quad pe => decide (quad < 4) && decide (pe < 256)
  | .peMulh quad pe => decide (quad < 4) && decide (pe < 256)
  | .peMinu quad pe => decide (quad < 4) && decide (pe < 256)
  | .peMaxu quad pe => decide (quad < 4) && decide (pe < 256)
  | .peCmplt quad pe => decide (quad < 4) && decide (pe < 256)
  | .peCmpeq quad pe => decide (quad < 4) && decide (pe < 256)
  | .peSel quad pe => decide (quad < 4) && decide (pe < 256)
  | .peHash quad pe => decide (quad < 4) && decide (pe < 256)
  | .peCrc quad pe => decide (quad < 4) && decide (pe < 256)
  | .peRange quad pe => decide (quad < 4) && decide (pe < 256)
  | .peLut quad pe => decide (quad < 4) && decide (pe < 256)
  | .peBkt quad pe => decide (quad < 4) && decide (pe < 256)
  | .peEmit quad pe => decide (quad < 4) && decide (pe < 256)
  | .peBrf quad pe => decide (quad < 4) && decide (pe < 256)
  | .mioOutputPass quad => decide (quad < 4)
  | .mioTokenClose quad => decide (quad < 4)
  | .mioTokenTimeout quad => decide (quad < 4)
  | .mioParityError quad slot => decide (quad < 4) && decide (slot < 4)
  | .sampleRecord => true
  | .sampleRestart => true
  | .foragerRecordArrive => true
  | .gatherIssue => true
  | .arrivalReserve _ _ grp ent => decide (grp < 64) && decide (ent < 1024)
  | .prefetchIssue _ => true
  | .prefetchDone _ => true
  | .rowPooled _ => true
  | .histWalkBegin _ => true
  | .histChunkPost _ => true
  | .histReadResume _ => true
  | .tNop tile => decide (tile < 256)
  | .tAdd tile => decide (tile < 256)
  | .tAddi tile => decide (tile < 256)
  | .tSub tile => decide (tile < 256)
  | .tMul tile => decide (tile < 256)
  | .tAnd tile => decide (tile < 256)
  | .tOr tile => decide (tile < 256)
  | .tXor tile => decide (tile < 256)
  | .tAndi tile => decide (tile < 256)
  | .tShl tile => decide (tile < 256)
  | .tShr tile => decide (tile < 256)
  | .tSra tile => decide (tile < 256)
  | .tSlt tile => decide (tile < 256)
  | .tSltu tile => decide (tile < 256)
  | .tMin tile => decide (tile < 256)
  | .tMax tile => decide (tile < 256)
  | .tLi tile => decide (tile < 256)
  | .tLih tile => decide (tile < 256)
  | .tRdsr tile => decide (tile < 256)
  | .tBeq tile => decide (tile < 256)
  | .tBne tile => decide (tile < 256)
  | .tBlt tile => decide (tile < 256)
  | .tBge tile => decide (tile < 256)
  | .tJal tile => decide (tile < 256)
  | .tJr tile => decide (tile < 256)
  | .tEnd tile => decide (tile < 256)
  | .tTrap tile => decide (tile < 256)
  | .tYield tile => decide (tile < 256)
  | .tLds tile => decide (tile < 256)
  | .tSts tile => decide (tile < 256)
  | .tLdg tile => decide (tile < 256)
  | .tStg tile => decide (tile < 256)
  | .tLdgb tile => decide (tile < 256)
  | .tStgb tile => decide (tile < 256)
  | .tAtomv tile => decide (tile < 256)
  | .tAtoms tile => decide (tile < 256)
  | .tFence tile => decide (tile < 256)
  | .tExec tile => decide (tile < 256)
  | .tWaite tile => decide (tile < 256)
  | .tSempost tile => decide (tile < 256)
  | .tSemwait tile => decide (tile < 256)
  | .tSemrd tile => decide (tile < 256)
  | .tQsend tile => decide (tile < 256)
  | .tQrecv tile => decide (tile < 256)
  | .tQwait tile => decide (tile < 256)
  | .tBarrier tile => decide (tile < 256)
  | .tHnext tile => decide (tile < 256)
  | .globalAccessDone tile _ => decide (tile < 256)
  | .quillDeliver tile => decide (tile < 256)
  | .tileParked _ => true
  | .yieldCancel _ => true
  | .taskResume _ => true
  | .matrixPassStart tile => decide (tile < 256)
  | .matrixPassDone tile => decide (tile < 256)
  | .vectorPassStart tile => decide (tile < 256)
  | .vectorPassDone tile => decide (tile < 256)
  | .reductionStart tile => decide (tile < 256)
  | .reductionDone tile => decide (tile < 256)
  | .streamDescStart tile unit => decide (tile < 256) && decide (unit < 2)
  | .streamTransferIssue tile unit => decide (tile < 256) && decide (unit < 2)
  | .streamTransferDone tile unit => decide (tile < 256) && decide (unit < 2)
  | .hoardRequest slice ecc => decide (slice < 64) && decide (ecc ≤ 2)
  | .hoardAdd slice => decide (slice < 64)
  | .hoardMax slice => decide (slice < 64)
  | .hoardMin slice => decide (slice < 64)
  | .cas64 slice => decide (slice < 64)
  | .swap64 slice => decide (slice < 64)
  | .rowCommit slice => decide (slice < 64)
  | .wayChangeDone way => decide (way < 16)
  | .pinRefillDone table => decide (table < 4096)
  | .flushDone => true
  | .hbmAccess pc ecc => decide (pc < 256) && decide (ecc ≤ 2)
  | .hbmScrubRead stack ecc => decide (stack < 8) && decide (ecc ≤ 2)
  | .hbmRowRepair stack => decide (stack < 8)
  | .hbmRepairDone stack => decide (stack < 8)
  | .hbmTempRead stack _ => decide (stack < 8)
  | .dieTempRead die _ => decide (die < 3)
  | .hushExit => true
  | .hushAlarm => true
  | .standbyClockStop => true
  | .powerLimiterEval p100 p1ms => decide (p100 < 65536) && decide (p1ms < 65536)
  | .tclkStep => true
  | .aonclkTrim _ => true
  | .energyCalibrate _ => true
  | .regulatorRefill => true
  | .acctSnap => true
  | .updateAccept den ring => decide (den < 32) && decide (ring < 2)
  | .updateStage den ring => decide (den < 32) && decide (ring < 2)
  | .recordBlockReadDone den ring => decide (den < 32) && decide (ring < 2)
  | .warrenSwitchApply => true
  | .warrenPrepareTimeout => true
  | .prepare port msg => decide (port < 24) && msgShape msg
  | .prepared port msg => decide (port < 24) && msgShape msg
  | .refusedMsg port msg => decide (port < 24) && msgShape msg
  | .commit port msg => decide (port < 24) && msgShape msg
  | .abort port msg => decide (port < 24) && msgShape msg
  | .drained port msg => decide (port < 24) && msgShape msg
  | .drainedSend => true
  | .release port msg => decide (port < 24) && msgShape msg
  | .swQuery port msg => decide (port < 24) && msgShape msg
  | .swState port msg => decide (port < 24) && msgShape msg
  | .heartbeat port msg => decide (port < 24) && msgShape msg
  | .heartbeatTick => true
  | .warrenHoldEntry => true
  | .claim port msg => decide (port < 24) && msgShape msg
  | .hushNote port msg => decide (port < 24) && msgShape msg
  | .wakeNote port msg => decide (port < 24) && msgShape msg
  | .surveyQ port msg => decide (port < 24) && msgShape msg
  | .surveyR port msg => decide (port < 24) && msgShape msg
  | .rowRead port msg => decide (port < 24) && msgShape msg
  | .poolReq port msg => decide (port < 24) && msgShape msg
  | .bulkRd port msg => decide (port < 24) && msgShape msg
  | .bulkWr port msg => decide (port < 24) && msgShape msg
  | .atomic port msg => decide (port < 24) && msgShape msg
  | .quill port msg => decide (port < 24) && msgShape msg
  | .rowData port msg => decide (port < 24) && msgShape msg
  | .bulkData port msg => decide (port < 24) && msgShape msg
  | .writeAck port msg => decide (port < 24) && msgShape msg
  | .atomicRsp port msg => decide (port < 24) && msgShape msg
  | .poolContrib port msg => decide (port < 24) && msgShape msg
  | .lctl port _ => decide (port < 24)
  | .transitMessage port msg => decide (port < 24) && msgShape msg
  | .xactTimeout _ => true
  | .codewordReceive port _ _ _ => decide (port < 24)
  | .laneLockLost port lane => decide (port < 24) && decide (lane < 8)
  | .portDown port => decide (port < 24)
  | .linkTrain port _ peerId peerPort family _ => decide (port < 24) && decide (peerId < 256) && decide (peerPort < 32) && decide (family < 65536)
  | .linkTrainRetry port => decide (port < 24)
  | .cmdNop src => srcOk src
  | .identify src => srcOk src
  | .devStatus src => srcOk src
  | .profileGet src => srcOk src
  | .profileWrite src => srcOk src
  | .profileSelect src => srcOk src
  | .profileClear src => srcOk src
  | .devHush src => srcOk src
  | .scrubRetained src => srcOk src
  | .p2pProbe src => srcOk src
  | .denCreate src => srcOk src
  | .denConfigTiles src => srcOk src
  | .denConfigHbm src => srcOk src
  | .denConfigWays src => srcOk src
  | .denConfigMioter src => srcOk src
  | .denConfigRegulator src => srcOk src
  | .denConfigSched src => srcOk src
  | .denConfigFlr src => srcOk src
  | .denConfigToken src => srcOk src
  | .denConfigGran src => srcOk src
  | .denQuery src => srcOk src
  | .denDestroy src => srcOk src
  | .denResume src => srcOk src
  | .histDirSet src => srcOk src
  | .attach src => srcOk src
  | .modelLoad src => srcOk src
  | .modelUnload src => srcOk src
  | .modelQuery src => srcOk src
  | .tableCreate src => srcOk src
  | .tableModify src => srcOk src
  | .tableVersionSet src => srcOk src
  | .tableSwitch src => srcOk src
  | .tableSwitchWarren src => srcOk src
  | .tableQuery src => srcOk src
  | .tableDelete src => srcOk src
  | .ctxStore src => srcOk src
  | .ctxLoad src => srcOk src
  | .ctxLoadDone quad => decide (quad < 4)
  | .ctxSelect src => srcOk src
  | .ctxFree src => srcOk src
  | .ctxQuery src => srcOk src
  | .warrenStatus src => srcOk src
  | .routeSet src => srcOk src
  | .linkCtrlDisable src => srcOk src
  | .linkCtrlEnable src => srcOk src
  | .linkCtrlRetrain src => srcOk src
  | .linkCtrlClearFences src => srcOk src
  | .warrenSurvey src => srcOk src
  | .marginRun src => srcOk src
  | .tileFence src => srcOk src
  | .tileUnfence src => srcOk src
  | .ledgerRead src => srcOk src
  | .diagRun src => srcOk src
  | .tagRead src => srcOk src
  | .fwStage src => srcOk src
  | .fwActivate src => srcOk src
  | .fwQuery src => srcOk src
  | .fwCommit src => srcOk src
  | .uartCmdFrame _ => true
  | .uartCfgFrame _ => true
  | .uartCfgApply => true
  | .uartFrameGap => true
  | .uartBreak => true
  | .ping _ => true
  | .wake _ => true
  | .sensors _ => true
  | .alertSend => true
  | .mgtArbLoss => true
  | .mgtRetry => true
  | .smbusArp _ => true
  | .setEndpointId _ _ => true
  | .getEndpointId _ _ => true
  | .getMctpVersionSupport _ _ => true
  | .getMessageTypeSupport _ _ => true
  | .getEndpointUuid _ _ => true
  | .getTid _ _ => true
  | .setTid _ _ => true
  | .getPldmVersion _ _ => true
  | .getPldmTypes _ _ => true
  | .getPldmCommands _ _ => true
  | .getPdrRepositoryInfo _ _ => true
  | .getPdr _ _ => true
  | .getSensorReading _ _ => true
  | .getStateSensorReadings _ _ => true
  | .usbCommand pkt => decide (pkt.length = 64)
  | .getReply _ => true
  | .usbSetupStall setup => decide (setup.length = 8)
  | .usbBusReset _ _ => true
  | .vbusLoss _ => true
  | .ep1Packet _ => true
  | .ep1Timeout => true
  | .powerOn _ => true
  | .sysReset _ _ => true
  | .journalReadDone => true
  | .bringUpComplete => true
  | .wdgCpExpiry => true
  | .wdgCpGraceEnd _ => true
  | .wdgAonExpiry _ => true
  | .pllLost _ => true
  | .denFault cause den _ => decide (cause < 65536) && decide (den < 32)
  | .deviceFault cause _ => decide (cause < 65536)
  | .fatalFault cause _ => decide (cause < 65536)
  | .tmrGstart _ _ => true
  | .tmrDeferredStart => true
  | .tmrGateWrite tmr _ => decide (tmr < 8)
  | .tmrMatch tmr => decide (tmr < 8)
  | .jtagHalt => true
  | .jtagRegrd off => winOk 0x4000000 off 8
  | .extest _ => true
  | .clamp => true
  | .highz => true
  | .samplePreload _ _ => true
  | .idcode => true
  | .bypass => true
  | .testLogicReset => true
  | .ledgerCommit => true
  | .ledgerSectorRecycle => true
  | .ledgerHourly => true
  | .tagUpdate => true
  | .tagFlipRetry => true
  | .techAreaCheck => true
  | .inventory => true
  | .stayQuiet => true
  | .readSingleBlock block => decide (block < 65536)
  | .writeSingleBlock block _ => decide (block < 65536)
  | .readMultipleBlocks block count => decide (block < 65536) && decide (0 < count)
  | .select => true
  | .resetToReady => true
  | .getSystemInformation => true
  | .extendedReadSingle block => decide (block < 65536)
  | .extendedWriteSingle block _ => decide (block < 65536)
  | .extendedReadMultiple block count => decide (block < 65536) && decide (0 < count)
  | .extendedGetSystemInfo => true
  | .rfSessionEnd => true
  | .powerLoss => true
  | .vbusReturn => true
  | .swQueryTimeout => true
  | .surveyTimeout => true
  | .debugHaltEnd => true
  | .commandDone _ _ => true
  | .mgtRxDiscard => true
  | .smbusPecDrop => true
  | .linkMsg port msg => decide (port < 24) && msgShape msg
  | .refusedRead fn off len => decide (fn ≤ 32) && winOk (ctrlSize fn) off len

end Sys2Proof
end

