-- ==== Sys2Proof/Tests/Slice0.lean ====
section
/-!
SUPPORT. Tests of the model: ill-formed commands that WellFormed refuses, states and operands that meet the hypotheses of the
statements, and small runs of one command whose expected result comes from the spec.
-/

open Sys2Proof Sys2Proof.Machine

set_option Elab.async false

namespace Sys2Proof.Tests

/-! ### Ill-formed commands (one for each check) -/

theorem test_wf_functions_and_windows :
    (Instr.wf (.bmeClear 33) || Instr.wf (.inlineDoorbell 0 0x100000 [0]) || Instr.wf (.inlineDoorbell 1 0x10000 [0]) ||
     Instr.wf (.inlineDoorbell 33 0 [0]) || Instr.wf (.inlineDoorbell 0 0 []) || Instr.wf (.inlineDoorbell 0 4095 [0, 0]) ||
     Instr.wf (.regWrite 33 0 [0]) || Instr.wf (.regWrite 0 0x4000000 [0]) || Instr.wf (.counterLowRead 33 0) ||
     Instr.wf (.counterLowRead 1 0x100000) || Instr.wf (.refusedRead 33 0 4) || Instr.wf (.refusedRead 0 0 0) ||
     Instr.wf (.devmemWrite 33 0 [0]) || Instr.wf (.devmemWrite 0 (2 ^ 39) [0]) || Instr.wf (.devmemRead 33 0 4) ||
     Instr.wf (.devmemRead 0 0 0) || Instr.wf (.ringEntryFetchDone 16384 []) || Instr.wf (.headWriteBack 1056) ||
     Instr.wf (.jtagRegrd 0x4000000) || Instr.wf (.atsInvalidate 33 0 0 12) || Instr.wf (.atsInvalidate 0 32 0 12) ||
     Instr.wf (.atsInvalidate 0 0 (2 ^ 64) 12) || Instr.wf (.atsInvalidate 0 0 0 65) ||
     Instr.wf (.translationCompletion 33 0 0 12 true true) || Instr.wf (.translationCompletion 0 (2 ^ 64) 0 12 true true) ||
     Instr.wf (.translationCompletion 0 0 (2 ^ 64) 12 true true) || Instr.wf (.translationCompletion 0 0 0 65 true true)) = false := by
  decide +kernel

theorem test_wf_units :
    (Instr.wf (.tileWake 256) || Instr.wf (.hoardRequest 64 0) || Instr.wf (.hoardRequest 0 3) || Instr.wf (.hoardAdd 64) ||
     Instr.wf (.peNop 4 0) || Instr.wf (.peNop 0 256) || Instr.wf (.mioTokenBoundary 4) || Instr.wf (.mioParityError 4 0) ||
     Instr.wf (.mioParityError 0 4) || Instr.wf (.wayChangeDone 16) || Instr.wf (.hbmAccess 256 0) || Instr.wf (.hbmAccess 0 3) ||
     Instr.wf (.hbmScrubRead 8 0) || Instr.wf (.hbmScrubRead 0 3) || Instr.wf (.hbmRowRepair 8) || Instr.wf (.dieTempRead 3 0) ||
     Instr.wf (.tmrGateWrite 8 0) || Instr.wf (.portDown 24) || Instr.wf (.laneLockLost 24 0) || Instr.wf (.laneLockLost 0 8) ||
     Instr.wf (.streamTransferIssue 256 0) || Instr.wf (.streamTransferIssue 0 2) || Instr.wf (.requestPlace 32) ||
     Instr.wf (.updateStage 32 0) || Instr.wf (.updateStage 0 2) || Instr.wf (.pinRefillDone 4096) ||
     Instr.wf (.arrivalReserve 0 0 64 0) || Instr.wf (.arrivalReserve 0 0 0 1024) || Instr.wf (.denFault 65536 0 0) ||
     Instr.wf (.denFault 0 32 0) || Instr.wf (.powerLimiterEval 65536 0) || Instr.wf (.powerLimiterEval 0 65536)) = false := by
  decide +kernel

theorem test_wf_messages_and_ports :
    (Instr.wf (.rowRead 24 (List.replicate 32 0)) || Instr.wf (.rowRead 0 []) || Instr.wf (.rowRead 0 [0]) ||
     Instr.wf (.rowRead 0 (List.replicate 4160 0)) || Instr.wf (.linkTrain 24 0 0 0 0 0) || Instr.wf (.linkTrain 0 0 256 0 0 0) ||
     Instr.wf (.linkTrain 0 0 0 32 0 0) || Instr.wf (.linkTrain 0 0 0 0 65536 0) || Instr.wf (.usbCommand [0]) ||
     Instr.wf (.usbSetupStall [0]) || Instr.wf (.readSingleBlock 65536) || Instr.wf (.readMultipleBlocks 65536 1) ||
     Instr.wf (.readMultipleBlocks 0 0) || Instr.wf (.cmdNop (.ring 33 0)) || Instr.wf (.cmdNop (.ring 0 8)) ||
     Instr.wf (.deviceFault 65536 {})) = false := by
  decide +kernel

/-! ### The block -/

/-- A device whose bring-up is complete, with its link up and 32 VFs. -/
def up : State :=
  { State.reset with
    boot := { State.reset.boot with phase := .complete, cpUp := true, stacks8 := 0xFF },
    pcie := { State.reset.pcie with crs := false, linkUp := true, numVfs := 32 } }

/-- What an outcome's next state satisfies. -/
def goes (o : Host.Outcome State Fault Refusal) (p : State → Bool) : Bool :=
  match o with
  | .next s => p s
  | _ => false

/-- The fault of an outcome. -/
def faults (o : Host.Outcome State Fault Refusal) (f : Fault) : Bool :=
  match o with
  | .fault g => decide (g = f)
  | _ => false

/-- witness of StepRunsTheFrontCommand: an empty queue, on a device that is OFF and on one that runs -/
theorem test_idle_off_and_running :
    { State.reset with pwr := { State.reset.pwr with st := .off } }.pending = [] ∧ up.pending = [] ∧
    { State.reset with pwr := { State.reset.pwr with st := .off } }.tick =
      { State.reset with pwr := { State.reset.pwr with st := .off } } ∧
    goes (step up) (fun u => u.wtime == 1) = true := by decide +kernel

/-- EveryCommandGoesOn at the ends of the pulse widths of which the spec says nothing -/
theorem test_reset_pulse :
    faults (exec (.sysReset 1000 {}) up) .resetPulseUnspecified = true ∧
    faults (exec (.sysReset 9999 {}) up) .resetPulseUnspecified = true ∧
    goes (exec (.sysReset 999 {}) up) (fun u => u == up) = true := by decide +kernel

/-- witness of CommandsLeaveTheQueue and of StepKeepsInvariant -/
theorem test_step_answers_next : up.inv ∧ (∃ t, exec .vbusReturn up = .next t) ∧ ∃ t, step { up with pending := [.vbusReturn] } = .next t :=
  ⟨by unfold State.inv; decide +kernel, ⟨_, rfl⟩, ⟨_, rfl⟩⟩

/-- witness of TablesReadBack -/
theorem test_canonical_memory : memWf [] = true ∧ memWf (memWrite [] 7 [1, 0, 2]) = true ∧ memGet (memWrite [] 7 [1, 0, 2]) 9 = 2 := by
  decide +kernel

/-- No row of the table has bits, so no word spells a command, and a fetch changes nothing. -/
theorem test_no_words : decodeTableWord 32 0 = none ∧ up.withFetchWord 32 0 = up := by decide +kernel

/-! ### Tiles -/

/-- An instruction word (08 R252): OP, SD, SA, SB, SC, SUB, IMM. -/
def ins (op sd sa sb sc sub imm : Nat) : W64 :=
  BitVec.ofNat 64 (op * 2 ^ 56 + sd * 2 ^ 51 + sa * 2 ^ 46 + sb * 2 ^ 41 + sc * 2 ^ 36 + sub * 2 ^ 32 + imm % 2 ^ 32)

/-- A running task of den 0 on tiles 5 and 6. -/
def task : Req := { id := 1, den := 0, phase := .running, tiles := [5, 6], model := 3, be := true }

/-- Model 3 of den 0: one yieldable entry point on two tiles. -/
def model3 : Model := { handle := 3, den := 0, entries := [{ tiles := 2, yieldable := true, pcs := [16, 32] }] }

/-- Tile 5 runs `r` and has the word `w` at instruction index `pc`; den 0 holds stripe 0. -/
def onTile (w : W64) (pc : Nat) (x : Tile) (r : Req) : State :=
  { up with dens := [(0, { st := .active, hbm := [(0, 1)], tiles := 0x60, prog := [(pc, w)] })], reqs := [r], models := [model3],
            tiles := [(5, { x with seq := .running, pwr := .run, req := some 1, pc := pc }), (6, { seq := .running, req := some 1 })] }

/-- S1 to S3 hold `a`, `b` and `c`. -/
def regs (a b c : W64) : Tile := { sregs := [(1, a), (2, b), (3, c)] }

/-- `Issues` as a check that runs. -/
def issues (s : State) (t : Nat) (r : Req) (w : W64) : Bool :=
  decide (s.holder t = some r) && s.hub && (s.tile t).seq == .running && r.phase == .running && decide ((s.tile t).pc < 8192) &&
  s.word t r.den == w && instrOk (s.tile t).pc w && [iSd w, iSa w, iSb w, iSc w].all (fun n => !(s.tile t).pendingReg n)

theorem issues_iff (s : State) (t : Nat) (r : Req) (w : W64) : issues s t r w = true ↔ Issues s t r w := by
  simp [issues, Issues, and_assoc]

/-- `CleanSram` as a check that runs. -/
def clean (x : Tile) (a n : Nat) : Bool :=
  !x.eccAny (granulesOf a n) 1 && !x.eccAny (granulesOf a n) 2 && !x.marked (granulesOf a n)

theorem clean_iff (x : Tile) (a n : Nat) : clean x a n = true ↔ CleanSram x a n := by
  simp [clean, CleanSram, and_assoc]

/-- `MayAccess` as a check that runs. -/
def mayAccess (s : State) (r : Req) (a n : Nat) (write : Bool) : Bool :=
  let p := s.reachOf r a n write
  (match p with
   | .bad => false
   | _ => true) && (!p.isHost || (s.fn (r.den + 1)).bme) && (s.den r.den).open p.path && (!p.isFar || decide (s.fab.xacts.length < 16384))

theorem mayAccess_iff (s : State) (r : Req) (a n : Nat) (write : Bool) : mayAccess s r a n write = true ↔ MayAccess s r a n write := by
  unfold mayAccess MayAccess
  cases s.reachOf r a n write <;> simp [and_assoc]
  all_goals grind

/-- One word of each arithmetic and constant instruction. -/
def aluWords : List W64 :=
  [ins 0x01 3 1 2 0 0 0, ins 0x02 3 1 0 0 0 5, ins 0x03 3 1 2 0 0 0, ins 0x04 3 1 2 0 0 0, ins 0x05 3 1 2 0 0 0, ins 0x06 3 1 2 0 0 0,
   ins 0x07 3 1 2 0 0 0, ins 0x08 3 1 0 0 0 5, ins 0x09 3 1 2 0 0 0, ins 0x09 3 1 0 0 1 63, ins 0x0A 3 1 2 0 0 0, ins 0x0B 3 1 2 0 0 0,
   ins 0x0C 3 1 2 0 0 0, ins 0x0D 3 1 2 0 0 0, ins 0x0E 3 1 2 0 0 0, ins 0x0F 3 1 2 0 0 0, ins 0x10 3 0 0 0 0 7, ins 0x11 3 1 0 0 0 7,
   ins 0x44 3 0 0 0 0 15]

/-- witness of TileArithmeticResults: each word issues at the last index from which the PC can go on -/
theorem test_alu_words_issue :
    aluWords.all (fun w => issues (onTile w 8190 (regs 1 2 0) task) 5 task w) = true ∧
    aluWords.map iOp = [1, 2, 3, 4, 5, 6, 7, 8, 9, 9, 10, 11, 12, 13, 14, 15, 16, 17, 0x44] ∧
    (∀ n ∈ [0, 1, 2, 3, 4, 5], issues (onTile (ins 0x12 3 0 0 0 0 n) 8190 {} task) 5 task (ins 0x12 3 0 0 0 0 n) = true) := by
  decide +kernel

/-- S3 after row `c` has run the word `w` with S1 = `a` and S2 = `b`. -/
def s3 (c : Instr) (w : W64) (a b : W64) : Option W64 :=
  match exec c (onTile w 0 (regs a b 0) task) with
  | .next u => if (u.tile 5).pc = 1 then some ((u.tile 5).getS 3) else none
  | _ => none

/-- 08 R254, worked by hand. -/
theorem test_alu_results :
    s3 (.tAdd 5) (ins 0x01 3 1 2 0 0 0) (-1) 2 = some 1 ∧ s3 (.tAddi 5) (ins 0x02 3 1 0 0 0 0xFFFFFFFF) 0 0 = some (-1) ∧
    s3 (.tSub 5) (ins 0x03 3 1 2 0 0 0) 1 2 = some (-1) ∧ s3 (.tMul 5) (ins 0x04 3 1 2 0 0 0) (2 ^ 33) (2 ^ 31 + 1) = some (2 ^ 33) ∧
    s3 (.tAnd 5) (ins 0x05 3 1 2 0 0 0) 12 10 = some 8 ∧ s3 (.tOr 5) (ins 0x06 3 1 2 0 0 0) 12 10 = some 14 ∧
    s3 (.tXor 5) (ins 0x07 3 1 2 0 0 0) 12 10 = some 6 ∧ s3 (.tAndi 5) (ins 0x08 3 1 0 0 0 0xFFFFFFF0) (-1) 0 = some (-16) ∧
    s3 (.tShl 5) (ins 0x09 3 1 2 0 0 0) 1 65 = some 2 ∧ s3 (.tShl 5) (ins 0x09 3 1 0 0 1 63) 1 0 = some (2 ^ 63) ∧
    s3 (.tShr 5) (ins 0x0A 3 1 2 0 0 0) (-1) 63 = some 1 ∧ s3 (.tSra 5) (ins 0x0B 3 1 2 0 0 0) (-4) 1 = some (-2) ∧
    s3 (.tSlt 5) (ins 0x0C 3 1 2 0 0 0) (-1) 1 = some 1 ∧ s3 (.tSltu 5) (ins 0x0D 3 1 2 0 0 0) (-1) 1 = some 0 ∧
    s3 (.tMin 5) (ins 0x0E 3 1 2 0 0 0) (-1) 1 = some (-1) ∧ s3 (.tMax 5) (ins 0x0F 3 1 2 0 0 0) (-1) 1 = some 1 ∧
    s3 (.tLi 5) (ins 0x10 3 0 0 0 0 0x80000000) 0 0 = some 0xFFFFFFFF80000000#64 ∧
    s3 (.tLih 5) (ins 0x11 3 1 0 0 0 0x12345678) 0xFFFFFFFF00000001#64 0 = some 0x1234567800000001#64 ∧
    s3 (.tRdsr 5) (ins 0x12 3 0 0 0 0 0) 0 0 = some 5 ∧ s3 (.tSemrd 5) (ins 0x44 3 0 0 0 0 0) 0 0 = some 0 ∧
    (match exec (.tAdd 5) (onTile (ins 0x01 0 1 2 0 0 0) 0 (regs 1 2 0) task) with
     | .next u => (u.tile 5).getS 0
     | _ => 1) = 0 := by decide +kernel

/-- witness of TileControlInstructions: branches to the first and the last index, jumps, and each control instruction -/
theorem test_control_words_issue :
    [ins 0x20 0 1 2 0 0 1, ins 0x21 0 1 2 0 0 1, ins 0x22 0 1 2 0 0 (2 ^ 32 - 8190), ins 0x23 0 1 2 0 0 1, ins 0x24 3 0 0 0 0 1].all
      (fun w => issues (onTile w 8190 (regs 1 1 0) task) 5 task w && decide (branchTarget 8190 w < 8192)) = true ∧
    issues (onTile (ins 0x25 0 1 0 0 0 0) 0 (regs 8191 0 0) task) 5 task (ins 0x25 0 1 0 0 0 0) = true ∧
    [0, ins 0x28 0 0 0 0 0 0, ins 0x26 0 0 0 0 0 0, ins 0x27 0 0 0 0 0 0xFFFF].all (fun w => issues (onTile w 8190 {} task) 5 task w) = true ∧
    task.demand = false ∧
    (let r := { task with demand := true }
     let s := onTile (ins 0x28 0 0 0 0 0 0) 8190 {} r
     issues s 5 r (ins 0x28 0 0 0 0 0 0) = true ∧ (s.stallAt 5 0).yieldable r = true) ∧
    issues (onTile (ins 0x01 3 1 2 0 0 0) 8191 (regs 1 2 0) task) 5 task (ins 0x01 3 1 2 0 0 0) = true := by
  decide +kernel

/-- 08 R254: a taken branch, one not taken, JAL's link, and R281's END -/
theorem test_control_results :
    goes (exec (.tBeq 5) (onTile (ins 0x20 0 1 2 0 0 (2 ^ 32 - 10)) 100 (regs 7 7 0) task)) (fun u => (u.tile 5).pc == 90) = true ∧
    goes (exec (.tBne 5) (onTile (ins 0x21 0 1 2 0 0 5) 100 (regs 7 7 0) task)) (fun u => (u.tile 5).pc == 101) = true ∧
    goes (exec (.tBlt 5) (onTile (ins 0x22 0 1 2 0 0 5) 100 (regs (-1) 0 0) task)) (fun u => (u.tile 5).pc == 105) = true ∧
    goes (exec (.tBge 5) (onTile (ins 0x23 0 1 2 0 0 5) 100 (regs 0 0 0) task)) (fun u => (u.tile 5).pc == 105) = true ∧
    goes (exec (.tJal 5) (onTile (ins 0x24 3 0 0 0 0 5) 100 {} task)) (fun u => (u.tile 5).pc == 105 && (u.tile 5).getS 3 == 101) = true ∧
    goes (exec (.tJr 5) (onTile (ins 0x25 0 1 0 0 0 0) 100 (regs 9 0 0) task)) (fun u => (u.tile 5).pc == 9) = true ∧
    goes (exec (.tEnd 5) (onTile (ins 0x26 0 0 0 0 0 0) 100 {} task)) (fun u => (u.tile 5).seq == .ending) = true ∧
    goes (exec (.tTrap 5) (onTile (ins 0x27 0 0 0 0 0 0x12345) 100 {} task))
      (fun u => (u.tile 5).seq == .aborting && (u.tile 5).faultCause == 0x0C && (u.tile 5).trapCode == 0x2345 &&
        (u.tile 5).faultPc == 100 && (u.tile 6).seq == .aborting) = true ∧
    goes (exec (.tJr 5) (onTile (ins 0x25 0 1 0 0 0 0) 100 (regs 8192 0 0) task)) (fun u => (u.tile 5).faultCause == 1) = true := by
  decide +kernel

/-- witness of TileLocalLoadAndStore: the last byte and the last 8 bytes of SRAM, an address just beyond it, and an odd one -/
theorem test_local_addresses :
    (∀ p ∈ [((4194303 : W64), 0), (4194302, 1), (4194300, 6), (4194296, 3), (0, 3)],
      let w := ins 0x30 3 1 0 0 p.2 0
      let s := onTile w 8190 (regs p.1 0 0) task
      issues s 5 task w = true ∧ ((s.tile 5).getS 1 + iImm w).toNat < 4194304 ∧ ((s.tile 5).getS 1 + iImm w).toNat % 2 ^ (iSub w % 4) = 0 ∧
      clean (s.tile 5) ((s.tile 5).getS 1).toNat (2 ^ (iSub w % 4)) = true) ∧
    (∀ p ∈ [((4194304 : W64), 0), (1, 1)],
      issues (onTile (ins 0x30 3 1 0 0 p.2 0) 8190 (regs p.1 0 0) task) 5 task (ins 0x30 3 1 0 0 p.2 0) = true ∧
      issues (onTile (ins 0x31 0 1 2 0 p.2 0) 8190 (regs p.1 0 0) task) 5 task (ins 0x31 0 1 2 0 p.2 0) = true) ∧
    issues (onTile (ins 0x31 0 1 2 0 3 0) 8190 (regs 4194296 0 0) task) 5 task (ins 0x31 0 1 2 0 3 0) = true := by
  decide +kernel

/-- 08 R255: sign extension of a load, and a store of the low bytes -/
theorem test_local_results :
    goes (exec (.tLds 5) (onTile (ins 0x30 3 1 0 0 4 0) 0 { regs 10 0 0 with sram := [⟨10, 0x80⟩] } task))
      (fun u => (u.tile 5).getS 3 == 0xFFFFFFFFFFFFFF80#64) = true ∧
    goes (exec (.tLds 5) (onTile (ins 0x30 3 1 0 0 1 2) 0 { regs 8 0 0 with sram := [⟨10, 0x80⟩, ⟨11, 1⟩] } task))
      (fun u => (u.tile 5).getS 3 == 0x180) = true ∧
    goes (exec (.tSts 5) (onTile (ins 0x31 0 1 2 0 1 0) 0 (regs 10 0x123456 0) task))
      (fun u => memRead (u.tile 5).sram 9 4 == [0, 0x56, 0x34, 0]) = true ∧
    goes (exec (.tSts 5) (onTile (ins 0x31 0 1 2 0 1 0) 0 (regs 11 0x123456 0) task)) (fun u => (u.tile 5).faultCause == 2) = true := by
  decide +kernel

/-- witness of TileGlobalAccesses: the end of a stripe of the den, an address beyond it, a misaligned one, and atomics -/
theorem test_global_addresses :
    [ins 0x34 3 1 0 0 3 0, ins 0x35 0 1 2 0 3 0].all (fun p =>
      let s := onTile p 8190 (regs 16777208 0 0) task
      issues s 5 task p && mayAccess (s.stallAt 5 0) task 16777208 8 false && mayAccess (s.stallAt 5 0) task 16777208 8 true) = true ∧
    [ins 0x36 0 1 2 0 0 0, ins 0x37 0 1 2 0 0 0].all (fun p =>
      let s := onTile p 8190 (regs 16777152 4194240 0) task
      issues s 5 task p && mayAccess (s.stallAt 5 0) task 16777152 64 false && mayAccess (s.stallAt 5 0) task 16777152 64 true &&
      clean (s.tile 5) 4194240 64) = true ∧
    (let w := ins 0x38 0 1 2 3 1 (0xA + 16 * 31 + 1024)
     let s := onTile w 8190 (regs 128 4194176 0) task
     issues s 5 task w = true ∧ atomPermitted 1 0xA 32 128 = true ∧ (s.stallAt 5 0).atomLocalOk 1 0xA 32 128 = true ∧
     mayAccess (s.stallAt 5 0) task 128 128 true = true ∧ clean (s.tile 5) 4194176 128 = true) ∧
    [ins 0x39 3 1 2 3 4 0, ins 0x39 3 1 0 3 5 0].all (fun p =>
      let s := onTile p 8190 (regs 128 1 2) task
      issues s 5 task p && atomPermitted (iSub p) 0 1 128 && (s.stallAt 5 0).atomLocalOk (iSub p) 0 1 128 &&
      mayAccess (s.stallAt 5 0) task 128 8 true) = true ∧
    [ins 0x34 3 1 0 0 3 0, ins 0x35 0 1 2 0 3 0].all (fun p =>
      issues (onTile p 8190 (regs 1 0 0) task) 5 task p && issues (onTile p 8190 (regs 16777216 0 0) task) 5 task p &&
      ((onTile p 8190 (regs 16777216 0 0) task).stallAt 5 0).reachOf task 16777216 8 false == .bad &&
      ((onTile p 8190 (regs 16777216 0 0) task).stallAt 5 0).reachOf task 16777216 8 true == .bad) = true := by
  decide +kernel

/-- witness of TileGlobalAccesses, FENCE and the ends of an access -/
theorem test_fence_and_access_ends :
    (let w := ins 0x3A 0 0 0 0 0 0
     let waits := onTile w 8190 { accs := [{ id := 4 }] } task
     issues (onTile w 8190 {} task) 5 task w = true ∧ ((onTile w 8190 {} task).stallAt 5 0).fenced 5 = true ∧
     issues waits 5 task w = true ∧ (waits.stallAt 5 0).fenced 5 = false) ∧
    (∀ g ∈ [({ id := 4, kind := .ldg 3 4 true, st := .served [1, 2, 3, 0xFF] false } : GAcc),
            { id := 4, kind := .atoms 4 3, st := .served [1, 0, 0, 0, 0, 0, 0, 0] false }, { id := 4, st := .failed 3 }],
      let s := onTile 0 0 { accs := [g] } task
      s.hub = true ∧ (s.tile 5).accs.find? (fun y => y.id == 4) = some g ∧ (s.tile 5).seq ≠ .aborting) := by
  decide +kernel

/-- 08 R254, R255, R262: what LDG and ATOMS put into SD, and what a failed access raises -/
theorem test_access_results :
    goes (exec (.globalAccessDone 5 4) (onTile 0 0 { accs := [{ id := 4, kind := .ldg 3 4 true, st := .served [1, 2, 3, 0xFF] false }] } task))
      (fun u => (u.tile 5).getS 3 == 0xFFFFFFFFFF030201#64 && (u.tile 5).accs.isEmpty) = true ∧
    goes (exec (.globalAccessDone 5 4) (onTile 0 0 { accs := [{ id := 4, kind := .ldgb 64, st := .served (List.replicate 64 7) false }] } task))
      (fun u => memRead (u.tile 5).sram 63 3 == [0, 7, 7]) = true ∧
    goes (exec (.globalAccessDone 5 4) (onTile 0 0 { accs := [{ id := 4, st := .failed 3 }] } task))
      (fun u => (u.tile 5).faultCause == 3) = true ∧
    goes (exec (.tLdg 5) (onTile (ins 0x34 3 1 0 0 3 0) 0 (regs 8 0 0) task))
      (fun u => (u.tile 5).accs.map GAcc.kind == [.ldg 3 8 false] && (u.tile 5).pc == 1) = true ∧
    goes (exec (.tAtoms 5) (onTile (ins 0x39 3 1 0 2 5 0) 0 (regs 4 0 0) task)) (fun u => (u.tile 5).faultCause == 6) = true := by
  decide +kernel

/-- witness of Quills: the last bytes of SRAM, a full queue, a destination beyond the task, an empty and a filled channel -/
theorem test_quill_words_issue :
    (let w := ins 0x50 0 1 2 0 15 0
     let s := onTile w 8190 (regs 1 4194240 0) task
     let full := onTile w 8190 { regs 1 4194240 0 with sendq := [{}, {}, {}, {}] } task
     issues s 5 task w = true ∧ s.quillDestOk task 1 = true ∧ (s.tile 5).sendq.length < 4 ∧ clean (s.tile 5) 4194240 64 = true ∧
     issues full 5 task w = true ∧ 4 ≤ (full.tile 5).sendq.length ∧ s.quillDestOk task 2 = false) ∧
    issues (onTile (ins 0x50 0 1 2 0 15 0) 8190 (regs 2 0 0) task) 5 task (ins 0x50 0 1 2 0 15 0) = true ∧
    (let w := ins 0x51 3 0 2 0 15 0
     issues (onTile w 8190 { regs 0 64 0 with chans := [(15, [{}])] } task) 5 task w = true ∧
     issues (onTile w 8190 (regs 0 64 0) task) 5 task w = true) ∧
    (let x : Tile := { chans := [(15, [{}])] }
     issues (onTile (ins 0x52 3 0 0 0 0 0x8000) 8190 x task) 5 task (ins 0x52 3 0 0 0 0 0x8000) = true ∧ x.chanMask 0x8000 ≠ 0 ∧
     issues (onTile (ins 0x52 3 0 0 0 1 1) 8190 x task) 5 task (ins 0x52 3 0 0 0 1 1) = true ∧
     issues (onTile (ins 0x52 3 0 0 0 0 1) 8190 x task) 5 task (ins 0x52 3 0 0 0 0 1) = true ∧ x.chanMask 1 = 0) ∧
    (let s := onTile 0 0 { sendq := [{ req := 1, dest := 1, chan := 2 }] } task
     s.hub = true ∧ s.holder 5 = some task ∧ (s.tile 5).sendq = [{ req := 1, dest := 1, chan := 2 }] ∧ task.tiles[1]? = some 6) := by
  decide +kernel

/-- 08 R272, R273, R275: a quill leaves for placed index 1, arrives on channel 2 of tile 6, and is received with its source -/
theorem test_quill_results :
    goes (exec (.tQsend 5) (onTile (ins 0x50 0 1 2 0 2 0) 0 (regs 1 64 0) task))
      (fun u => (u.tile 5).sendq.map (fun x => (x.dest, x.chan, x.quill.src)) == [(1, 2, 0)]) = true ∧
    goes (exec (.quillDeliver 5) (onTile 0 0 { sendq := [{ req := 1, dest := 1, chan := 2, quill := { src := 0, data := [9] } }] } task))
      (fun u => (mget [] (u.tile 6).chans 2).map (fun h => h.quill.data) == [[9]] && (u.tile 5).sendq.isEmpty) = true ∧
    goes (exec (.tQrecv 5) (onTile (ins 0x51 3 0 2 0 2 0) 0 { regs 0 64 0 with chans := [(2, [{ quill := { src := 1, data := [9] } }])] } task))
      (fun u => (u.tile 5).getS 3 == 1 && memRead (u.tile 5).sram 64 2 == [9, 0] && (mget [] (u.tile 5).chans 2).isEmpty) = true ∧
    goes (exec (.tQwait 5) (onTile (ins 0x52 3 0 0 0 0 0xFFFF) 0 { chans := [(2, [{}]), (15, [{}])] } task))
      (fun u => (u.tile 5).getS 3 == 0x8004) = true := by decide +kernel

/-- witness of TileSynchronises: each row, with its queue or its semaphore at each end, and the arrivals at a barrier -/
theorem test_sync_words_issue :
    (let w := ins 0x40 0 1 0 0 4 0
     let full := onTile w 8190 { regs 4194288 0 0 with engq := [(4, List.replicate 8 [0])] } task
     issues (onTile w 8190 (regs 4194288 0 0) task) 5 task w = true ∧ ((onTile w 8190 (regs 4194288 0 0) task).tile 5).descLen 4194288 = 8 ∧
     clean ((onTile w 8190 (regs 4194288 0 0) task).tile 5) 4194288 8 = true ∧ issues full 5 task w = true ∧
     8 ≤ ((full.tile 5).queue 4).length) ∧
    (let x : Tile := { engq := [(1, [[0], [0]])] }
     issues (onTile (ins 0x41 0 0 0 0 1 2) 8190 x task) 5 task (ins 0x41 0 0 0 0 1 2) = true ∧
     issues (onTile (ins 0x41 0 0 0 0 1 1) 8190 x task) 5 task (ins 0x41 0 0 0 0 1 1) = true ∧ (x.queue 1).length = 2) ∧
    (∀ p ∈ [(0, 0), (1, 0), (254, 0), (255, 0)],
      let x : Tile := { sems := [(15, p.1)] }
      issues (onTile (ins 0x42 0 0 0 0 0 15) 8190 x task) 5 task (ins 0x42 0 0 0 0 0 15) = true ∧
      issues (onTile (ins 0x43 0 0 0 0 0 15) 8190 x task) 5 task (ins 0x43 0 0 0 0 0 15) = true) ∧
    ({ sems := [(15, 1)] } : Tile).semTurn 15 0 = true ∧ ({ sems := [(15, 1)], semWait := [(15, [2])] } : Tile).semTurn 15 0 = false ∧
    issues (onTile (ins 0x60 0 0 0 0 1 0) 8190 { hbuf1 := true } task) 5 task (ins 0x60 0 0 0 0 1 0) = true ∧
    (∀ p ∈ [(({} : Tile), (2 : W64)), ({ accs := [{ id := 4 }] }, 2), ({}, 1), ({}, 0), ({}, 3)],
      let w := ins 0x53 0 1 0 0 15 0
      let s := onTile w 8190 { p.1 with sregs := [(1, p.2)] } task
      issues s 5 task w = true ∧ (s.tile 5).barrier = none ∧ ((s.stallAt 5 0).fenced 5 = true ↔ p.1.accs = [])) := by decide +kernel

/-- 08 R269, R279, R280: semaphores at their ends, and a barrier that the second arrival releases -/
theorem test_sync_results :
    goes (exec (.tSempost 5) (onTile (ins 0x42 0 0 0 0 0 3) 0 { sems := [(3, 254)] } task)) (fun u => mget 0 (u.tile 5).sems 3 == 255) = true ∧
    goes (exec (.tSempost 5) (onTile (ins 0x42 0 0 0 0 0 3) 0 { sems := [(3, 255)] } task))
      (fun u => mget 0 (u.tile 5).sems 3 == 255 && (u.tile 5).faultCause == 8) = true ∧
    goes (exec (.tSemwait 5) (onTile (ins 0x43 0 0 0 0 0 3) 0 { sems := [(3, 1)] } task))
      (fun u => mget 0 (u.tile 5).sems 3 == 0 && (u.tile 5).pc == 1) = true ∧
    goes (exec (.tSemwait 5) (onTile (ins 0x43 0 0 0 0 0 3) 0 {} task)) (fun u => (u.tile 5).pc == 0 && (u.tile 5).stall == 3) = true ∧
    goes (exec (.tHnext 5) (onTile (ins 0x60 0 0 0 0 1 0) 0 { hbuf1 := true } task)) (fun u => !(u.tile 5).hbuf1 && (u.tile 5).pc == 1) = true ∧
    goes (exec (.tBarrier 5) (onTile (ins 0x53 0 1 0 0 2 0) 0 (regs 2 0 0) task)) (fun u => (u.tile 5).barrier == some 2 && (u.tile 5).pc == 0) = true ∧
    goes (exec (.tBarrier 5) (onTile (ins 0x53 0 1 0 0 2 0) 0 (regs 2 0 0) { task with barriers := [(2, { expected := 2, tiles := [6] })] }))
      (fun u => (u.tile 5).barrier == none && (u.tile 5).pc == 1 && (u.tile 6).pc == 1) = true ∧
    goes (exec (.tBarrier 5) (onTile (ins 0x53 0 1 0 0 2 0) 0 (regs 3 0 0) task)) (fun u => (u.tile 5).faultCause == 0x0B) = true ∧
    goes (exec (.tWaite 5) (onTile (ins 0x41 0 0 0 0 1 0) 0 { engq := [(1, [[0]])] } task)) (fun u => (u.tile 5).pc == 0 && (u.tile 5).stall == 6) = true ∧
    goes (exec (.tExec 5) (onTile (ins 0x40 0 1 0 0 1 0) 0 { regs 16 0 0 with sram := [⟨20, 16⟩] } task))
      (fun u => (u.tile 5).queue 1 == [[0, 0, 0, 0, 16, 0, 0, 0, 0, 0, 0, 0, 0, 0, 0, 0]]) = true := by decide +kernel

/-! ### Engines -/

/-- A descriptor of `n` bytes with fields (offset, size, value). -/
def desc (n : Nat) (l : List (Nat × Nat × Nat)) : Bytes :=
  (List.range n).map (fun i => match l.find? (fun p => decide (p.1 ≤ i) && decide (i < p.1 + p.2.1)) with
    | some p => BitVec.ofNat 8 (p.2.2 / 256 ^ (i - p.1))
    | none => 0)

/-- INT8, M = K = N = 1, ACC, weights loaded from 16, activations at 0, into T4; WAIT on semaphore 1, POST to 2. -/
def mxDesc : Bytes :=
  desc 64 [(0, 1, 1), (1, 1, 3), (2, 1, 1), (3, 1, 2), (4, 2, 64), (8, 1, 5), (9, 1, 5), (0xA, 1, 3), (0xC, 2, 1), (0xE, 2, 1), (0x10, 2, 1),
           (0x1C, 4, 16), (0x20, 4, 16)]

/-- INT32: T1 ← T0 + T0, one element. -/
def vxDesc : Bytes :=
  desc 128 [(0, 1, 2), (4, 2, 128), (8, 1, 0x1A), (0xA, 1, 0x1A), (0xB, 1, 1), (0xC, 2, 1), (0xE, 2, 1), (0x20, 4, 1), (0x58, 4, 0x21)]

/-- INT32: T1 ← sum of the first two elements of T0's entry 0. -/
def rdDesc : Bytes :=
  desc 64 [(0, 1, 3), (4, 2, 64), (9, 1, 0x1A), (0xA, 1, 0x1A), (0xC, 2, 1), (0xE, 2, 2), (0x18, 4, 1), (0x20, 4, 0x3F800000)]

/-- A COPY of 16 bytes between address 0 and SRAM address 64, in or out. -/
def suDesc (out : Bool) : Bytes := desc 64 [(0, 1, 4), (4, 2, 64), (8, 1, if out then 4 else 0), (0xC, 2, 1), (0xE, 2, 16), (0x1C, 4, 64)]

/-- `StartsNext` as a check that runs. -/
def startsNext (s : State) (t q k : Nat) (b : Bytes) : Bool :=
  s.engineOn t && ((s.tile t).queue q)[k]? == some b && (s.tile t).mayStart q b

theorem startsNext_iff (s : State) (t q k : Nat) (b : Bytes) : startsNext s t q k b = true ↔ StartsNext s t q k b := by
  simp [startsNext, StartsNext, and_assoc]

/-- `CleanRuns` as a check that runs. -/
def cleanRuns (x : Tile) (l : List (Nat × Nat)) : Bool := l.all (fun p => clean x p.1 p.2)

theorem cleanRuns_iff (x : Tile) (l : List (Nat × Nat)) : cleanRuns x l = true ↔ CleanRuns x l := by
  unfold cleanRuns CleanRuns
  rw [List.all_eq_true]
  exact ⟨fun h p hp => (clean_iff _ _ _).mp (h p hp), fun h p hp => (clean_iff _ _ _).mpr (h p hp)⟩

/-- Tile 5 with one descriptor in each queue and what they read. -/
def engines : State :=
  onTile 0 0 { engq := [(0, [mxDesc]), (1, [vxDesc]), (2, [rdDesc]), (3, [suDesc false]), (4, [suDesc true])], sems := [(1, 1)],
               sram := [⟨0, 0xFE⟩, ⟨16, 3⟩], tregs := [(0, 5), (1, 7), (65536, 10)] } task

/-- witness of EnginesStart: a descriptor of each engine that it accepts, and three that the vector engine does not start -/
theorem test_descriptors_start :
    (let s := engines
     let x := s.tile 5
     x.passes.length = 0 ∧ startsNext s 5 0 0 mxDesc = true ∧ mxOk x mxDesc = true ∧
     runsIn (mxActRuns mxDesc ++ mxLoadRuns mxDesc) = true ∧ cleanRuns x (mxLoadRuns mxDesc) = true ∧
     x.vx = none ∧ startsNext s 5 1 0 vxDesc = true ∧ vecOk x vxDesc = true ∧ runsIn (vReads vxDesc ++ vWrites vxDesc) = true ∧
     x.rd = none ∧ startsNext s 5 2 0 rdDesc = true ∧ redOk x rdDesc = true ∧ runsIn ((rdX rdDesc).runs ++ rdWrites rdDesc) = true ∧
     (x.unit 0).mayBegin = true ∧ startsNext s 5 3 0 (suDesc false) = true ∧ suOk (x.unit 0) (suDesc false) = true ∧
     suInSram (x.unit 0) (suDesc false) = true ∧ s.holder 5 = some task ∧ s.suSpanOk task (suDesc false) = true ∧
     startsNext s 5 4 0 (suDesc true) = true ∧ suOk (x.unit 1) (suDesc true) = true) ∧
    (let b := desc 128 [(0, 1, 3)]
     let s := onTile 0 0 { engq := [(1, [b])] } task
     s.engineOn 5 = true ∧ ((s.tile 5).queue 1)[0]? = some b ∧ (s.tile 5).vx = none ∧ vecOk (s.tile 5) b = false) ∧
    (let b := patchB (patchB vxDesc 8 [0x0A]) 0x10 (toLe 4 0x400000)
     let s := onTile 0 0 { engq := [(1, [b])] } task
     s.engineOn 5 = true ∧ vecOk (s.tile 5) b = true ∧ runsIn (vReads b ++ vWrites b) = false) ∧
    (let b := patchB vxDesc 1 [1]
     let s := onTile 0 0 { engq := [(1, [b])] } task
     s.engineOn 5 = true ∧ vecOk (s.tile 5) b = true ∧ runsIn (vReads b ++ vWrites b) = true ∧ (s.tile 5).mayStart 1 b = false) := by
  decide +kernel

/-- Tile 5 with a pass of each engine under way. -/
def passes : State :=
  onTile 0 0 { engq := [(0, [mxDesc]), (1, [vxDesc]), (2, [rdDesc])], vx := some vxDesc, rd := some rdDesc,
               passes := [{ desc := mxDesc, w := { valid := true, wfmt := 5, k := 1, n := 1, rows := [[3]] } }],
               sram := [⟨0, 0xFE⟩, ⟨16, 3⟩], tregs := [(0, 5), (1, 7), (65536, 10)] } task

/-- witness of EnginesFinish -/
theorem test_passes_end :
    passes.engineOn 5 = true ∧ (passes.tile 5).passes.length = 1 ∧ cleanRuns (passes.tile 5) (mxActRuns mxDesc) = true ∧
    cleanRuns (passes.tile 5) (vReads vxDesc) = true ∧ cleanRuns (passes.tile 5) (rdX rdDesc).runs = true ∧
    0 < mxM mxDesc ∧ 0 < mxN mxDesc ∧ mxPlace mxDesc 0 0 = 65536 := by decide +kernel

/-- 09 R298 to R300, 10 R320, R337: −2 · 3 into 10, 5 + 5, and 5 + 7 -/
theorem test_pass_results :
    goes (exec (.matrixPassDone 5) passes) (fun u => mget 0 (u.tile 5).tregs 65536 == 4 && mget 0 (u.tile 5).sems 2 == 1) = true ∧
    goes (exec (.vectorPassDone 5) passes) (fun u => mget 0 (u.tile 5).tregs 16384 == 10 && (u.tile 5).queue 1 == []) = true ∧
    goes (exec (.reductionDone 5) passes) (fun u => mget 0 (u.tile 5).tregs 16384 == 12 && (u.tile 5).rdPasses == 1) = true ∧
    goes (exec (.matrixPassStart 5) engines) (fun u => mget 0 (u.tile 5).sems 1 == 0 && (u.tile 5).weights.rows == [[3]]) = true := by
  decide +kernel

/-- Tile 5 whose stream unit 0 has started `b`. -/
def streaming (b : Bytes) : State := onTile 0 0 { su0 := { running := [{ dseq := 0, desc := b }], started := 1 } } task

/-- Tile 5 whose stream unit 0 has one transfer that has been served. -/
def served (x : SuXfer) : State :=
  onTile 0 0 { su0 := { running := [{ dseq := 0, desc := suDesc x.out, slot := 1 }], started := 1, xfers := [x] } } task

/-- witness of StreamTransfers: a transfer in and one out, and transfers that end well and badly -/
theorem test_stream_transfers :
    (∀ out ∈ [false, true],
      let s := streaming (suDesc out)
      let d : SuDesc := { dseq := 0, desc := suDesc out }
      let v := s.modTile 5 (fun x => x.takeCredit 0 d)
      s.engineOn 5 = true ∧ s.holder 5 = some task ∧ ((s.tile 5).unit 0).current = some d ∧ d.needsCredit = false ∧
      ((v.tile 5).unit 0).xfers.length < 6 ∧ v.reachOf task 0 16 out = .dev 0 ∧ v.suOpen task.den (.dev 0) = true ∧
      d.nextXfer.addr = 0 ∧ d.nextXfer.len = 16 ∧ d.nextXfer.out = out ∧ clean (s.tile 5) 64 16 = true) ∧
    (∀ x ∈ [({ len := 16, sram := 64, served := true } : SuXfer), { len := 16, out := true, served := true }, { served := true, fail := 1 }],
      let s := served x
      s.engineOn 5 = true ∧ nextEnd ((s.tile 5).unit 0).xfers = some x ∧ clean (s.tile 5) x.sram x.len = true) := by decide +kernel

/-- 11 R365, R368: an IN transfer brings its bytes; a failed one aborts the task and stands in TIL_SUFLT -/
theorem test_stream_results :
    goes (exec (.streamTransferDone 5 0) (served { len := 16, sram := 64, served := true, data := [1, 2] }))
      (fun u => memRead (u.tile 5).sram 64 3 == [1, 2, 0] && ((u.tile 5).unit 0).bytes == 16 && ((u.tile 5).unit 0).running.isEmpty) = true ∧
    goes (exec (.streamTransferDone 5 0) (served { served := true, fail := 1, addr := 0x80 }))
      (fun u => (u.tile 5).faultCause == 0x0E && (u.tile 5).sufltSub == 1 && (u.tile 5).sufltAddr == 0x80) = true ∧
    goes (exec (.streamTransferIssue 5 0) (streaming (suDesc false))) (fun u => ((u.tile 5).unit 0).xfers.length == 1) = true := by
  decide +kernel

/-! ### The Mioter array -/

/-- A PE instruction (03 R79). -/
def peIns (op d a b k : Nat) : W32 := BitVec.ofNat 32 (op * 2 ^ 26 + d * 2 ^ 21 + a * 2 ^ 16 + b * 2 ^ 11 + k)

/-- PE 17 of quadrant 0 serves token 7 in slot 0, with the instruction `i` at its counter; A may come from the west, B from L1. -/
def onPe (i : W32) (a b : W32) (e : Pe) : State :=
  { up with mioter := { up.mioter with quads := [(0, { pes := [(17,
      { e with tok := some (7, 0), inst := [(0, i)], len := [(0, 1)], regs := [(1, b)], qW := [{ data := a, tok := 7 }] })] })] } }

/-- OP, what the row does, and whether it reads A and B, of every PE row (03 R80). -/
def peRows : List (Nat × PeKind × Bool × Bool) :=
  [(0x00, .nothing, false, false), (0x01, .alu, true, false), (0x02, .alu, true, true), (0x03, .alu, true, true), (0x04, .alu, true, true),
   (0x05, .alu, true, true), (0x06, .alu, true, true), (0x07, .alu, true, true), (0x08, .alu, true, true), (0x09, .alu, true, true),
   (0x0A, .alu, true, true), (0x0B, .alu, true, true), (0x0C, .alu, true, true), (0x0D, .alu, true, true), (0x0E, .alu, true, true),
   (0x0F, .alu, true, true), (0x10, .alu, true, true), (0x11, .alu, true, true), (0x12, .alu, true, true), (0x13, .alu, true, true),
   (0x14, .alu, true, false), (0x15, .alu, true, true), (0x16, .emit, true, true), (0x17, .branch, false, false)]

/-- PE 17 stands at OP `op` (`PeAt`), its operands at the heads of its queues, and its destination has room. -/
def peReady (s : State) (op : Nat) (kind : PeKind) (ua ub : Bool) : Bool :=
  let e := (s.quad 0).pe 17
  s.hub && e.serves == some (7, 0) && bits (e.ins 0) 26 6 == op && !((s.quad 0).destFull 17 kind (e.ins 0)) &&
  (match e.heads 7 (peReads (e.ins 0) ua ub) with
   | some l => !(l.any MioWord.isEnd)
   | none => false)

/-- witness of PeOperations and PeEffects: every row on operands that stand ready; BKT with a window it does not permit -/
theorem test_pe_rows_ready :
    peRows.all (fun p => peReady (onPe (peIns p.1 2 16 1 0) 5 3 {}) p.1 p.2.1 p.2.2.1 p.2.2.2) = true ∧
    peReady (onPe (peIns 0x15 2 16 1 255) 5 3 {}) 0x15 .alu true true = true ∧
    bucketOf (((onPe (peIns 0x15 2 16 1 255) 5 3 {}).quad 0).pe 17 |>.input 0 (peIns 0x15 2 16 1 255).toNat) = none ∧
    (bucketOf (((onPe (peIns 0x15 2 16 1 0) 5 3 {}).quad 0).pe 17 |>.input 0 (peIns 0x15 2 16 1 0).toNat)).isSome = true := by
  decide +kernel

/-- What PE 17 finds at the heads of its queues for the instruction `i` passes `p`. -/
def headsAre (i : W32) (e : Pe) (p : List MioWord → Bool) : Bool :=
  (((onPe i 5 3 e).quad 0).pe 17 |>.heads 7 (peReads i.toNat true true)).any p

/-- witness of PeEffects: a PE that lacks a word, one that stands before END and data, one before END alone -/
theorem test_pe_waits :
    ((((onPe (peIns 0x02 2 17 1 0) 5 3 {}).quad 0).pe 17).heads 7 (peReads (peIns 0x02 2 17 1 0).toNat true true)) = none ∧
    headsAre (peIns 0x02 2 16 17 0) { qN := [{ isEnd := true, tok := 7 }] } (fun l => l.any MioWord.isEnd && !l.all MioWord.isEnd) = true ∧
    headsAre (peIns 0x02 2 17 1 0) { qN := [{ isEnd := true, tok := 7 }] } (fun l => !l.isEmpty && l.all MioWord.isEnd) = true ∧
    (peNbr 17 1).1 ≠ 17 ∧ (peNbr 17 3).1 ≠ 17 := by decide +kernel

/-- L2 and F after row `c` has run with A = `a`, B = `b` and F = `f`. -/
def l2 (c : Instr) (op k : Nat) (a b : W32) (f : Bool) (e : Pe) : Option (W32 × Bool) :=
  match exec c (onPe (peIns op 2 16 1 k) a b { e with flag := [(0, f)] }) with
  | .next u => some (mget 0 ((u.quad 0).pe 17).regs 2, mget false ((u.quad 0).pe 17).flag 0)
  | _ => none

/-- 03 R80, R81, worked by hand -/
theorem test_pe_results :
    l2 (.peMov 0 17) 0x01 0 5 3 false {} = some (5, false) ∧ l2 (.peAdd 0 17) 0x02 0 0xFFFFFFFF 3 true {} = some (2, true) ∧
    l2 (.peSub 0 17) 0x03 0 3 5 false {} = some (0xFFFFFFFE, false) ∧ l2 (.peAnd 0 17) 0x04 0 12 10 false {} = some (8, false) ∧
    l2 (.peOr 0 17) 0x05 0 12 10 false {} = some (14, false) ∧ l2 (.peXor 0 17) 0x06 0 12 10 false {} = some (6, false) ∧
    l2 (.peShl 0 17) 0x07 0 1 33 false {} = some (2, false) ∧ l2 (.peShr 0 17) 0x08 0 0x80000000 31 false {} = some (1, false) ∧
    l2 (.peSra 0 17) 0x09 0 0x80000000 31 false {} = some (0xFFFFFFFF, false) ∧
    l2 (.peMul 0 17) 0x0A 0 0x10001 0x10000 false {} = some (0x10000, false) := by decide +kernel

/-- 03 R80, R81, worked by hand -/
theorem test_pe_comparisons_and_tables :
    l2 (.peMulh 0 17) 0x0B 0 0x80000000 6 false {} = some (3, false) ∧ l2 (.peMinu 0 17) 0x0C 0 0xFFFFFFFF 1 false {} = some (1, false) ∧
    l2 (.peMaxu 0 17) 0x0D 0 0xFFFFFFFF 1 false {} = some (0xFFFFFFFF, false) ∧ l2 (.peCmplt 0 17) 0x0E 0 1 2 false {} = some (1, true) ∧
    l2 (.peCmplt 0 17) 0x0E 0 2 2 true {} = some (0, false) ∧ l2 (.peCmpeq 0 17) 0x0F 0 2 2 false {} = some (1, true) ∧
    l2 (.peSel 0 17) 0x10 0 5 3 true {} = some (5, true) ∧ l2 (.peSel 0 17) 0x10 0 5 3 false {} = some (3, false) ∧
    l2 (.peRange 0 17) 0x13 0 0x80000000 100 false {} = some (50, false) ∧
    l2 (.peLut 0 17) 0x14 250 10 0 false { lut := [(4, 77)] } = some (77, false) ∧
    l2 (.peBkt 0 17) 0x15 0 20 3 false { lut := [(0, 10), (1, 20), (2, 30)] } = some (2, false) := by decide +kernel

/-- 03 R77 to R79: an output to the east is the neighbour's input from the west; BRF, NOP and HASH -/
theorem test_pe_queues :
    goes (exec (.peMov 0 17) (onPe (peIns 0x01 18 16 21 0) 9 0 {}))
      (fun u => ((u.quad 0).pe 18).qW.map MioWord.data == [9] && ((u.quad 0).pe 17).qW.isEmpty) = true ∧
    goes (exec (.peMov 0 17) (onPe (peIns 0x01 17 16 21 0) 9 0 {})) (fun u => ((u.quad 0).pe 1).qS.map MioWord.data == [9]) = true ∧
    goes (exec (.peHash 0 17) (onPe (peIns 0x11 2 21 21 0) 0 0 {})) (fun u => mget 0 ((u.quad 0).pe 17).regs 2 == 0) = true := by
  decide +kernel

/-- A quadrant with one token. -/
def onTok (t : MioTok) (slot : MioSlot) : State :=
  { up with mioter := { up.mioter with quads := [(0, { toks := [t], slots := [(0, slot)] })] } }

/-- witness of MioterTokens: a token that is to enter, one that feeds, one that may close, a stuck one, a ready slot, and samples at
both ends of the buffer -/
theorem test_tokens :
    (let x := (onTok { id := 7, words := [1] } { st := .ready }).quad 0
     x.toks.any MioTok.feeding = false ∧ x.toks.find? (fun t => !t.entered) = some { id := 7, words := [1] }) ∧
    (let x := (onTok { id := 7, entered := true } { st := .ready }).quad 0
     x.toks.find? MioTok.feeding = some { id := 7, entered := true } ∧ x.stuck = some { id := 7, entered := true }) ∧
    (let t : MioTok := { id := 7, req := 1, entered := true, marked := BitVec.allOnes 16, ended := 1 }
     let s := onTok t { st := .ready, laneMask := 1 }
     (s.quad 0).front = some t ∧ (s.quad 0).mayClose t = true ∧ s.recordFits 1 = true ∧ (s.slot 0 0).st = .ready) ∧
    up.hub = true := by decide +kernel

/-- Sampling on, with WPTR, FULL and WRAP. -/
def sampling (w : BitVec 10) (full wrap : Bool) : State :=
  { up with mioter := { up.mioter with smpEn := true, smpWptr := w, smpFull := full, smpWrap := wrap } }

/-- 03 R111, R116: the last record sets FULL; a full buffer skips and counts, or wraps -/
theorem test_samples :
    goes (exec .sampleRecord (sampling 1023 false false)) (fun u => u.mioter.smpWptr == 0 && u.mioter.smpFull) = true ∧
    goes (exec .sampleRecord (sampling 5 true false)) (fun u => u.mioter.smpWptr == 5 && u.mioter.smpDropped == 1) = true ∧
    goes (exec .sampleRecord (sampling 5 true true)) (fun u => u.mioter.smpWptr == 6 && u.mioter.smpDropped == 0) = true ∧
    goes (exec .sampleRestart (sampling 5 true true)) (fun u => u.mioter.smpWptr == 0 && !u.mioter.smpFull) = true := by decide +kernel

/-! ### Requests and tasks -/

/-- A request descriptor: KIND 1, model 3, one sample, no features. -/
def reqDesc : Bytes := desc 64 [(0, 1, 1), (2, 2, 9), (4, 2, 3), (0x1C, 2, 1)]

/-- Den 0 serves, with `b` at the head of its request ring 0, and completion rings that are enabled. -/
def offering (b : Bytes) : State :=
  { up with
    dens := [(0, { st := .active, hbm := [(0, 1)], tiles := 0x60, fill := 1 })], models := [model3],
    tiles := [(5, { pwr := .idle, prepared := true }), (6, { pwr := .idle, prepared := true })],
    pcie := { up.pcie with
      fns := [(1, { bme := true })],
      rings := [(reqKey 0 0, { en := true, tail := 1, entries := [.held b true] }), (rcqKey 0, { en := true })] } }

/-- witness of RequestsAreAdmittedAndPlaced: a head that is admitted, a bad one, a fenced model, features to read, a place found and one
that is missing -/
theorem test_admission :
    (let s := offering reqDesc
     s.serving = true ∧ (List.range 32).filter s.waits = [] ∧
     s.rrDens.find? (fun d => s.denServes d && s.admitTokens d && (s.offer d).isSome) = some 0 ∧ s.offer 0 = some 0 ∧
     (s.takeRequest 0 0).descBad 0 (s.headBytes 0 0) = false) ∧
    (let s := offering (desc 64 [])
     (s.takeRequest 0 0).descBad 0 (s.headBytes 0 0) = true) ∧
    (let s := { offering reqDesc with models := [{ model3 with fenced := true }] }
     (s.takeRequest 0 0).descBad 0 (s.headBytes 0 0) = false ∧ (s.model 0 3).map Model.fenced = some true) ∧
    (let r : Req := { id := 1, model := 3 }
     let s := { offering reqDesc with reqs := [r] }
     s.firstUnplaced 0 = some r ∧ (firstNats (s.tileFree r) (s.entryOf r).tiles (List.range 256)).length = (s.entryOf r).tiles) ∧
    (let r : Req := { id := 1, model := 3 }
     let s := { offering reqDesc with reqs := [r], tiles := [] }
     s.firstUnplaced 0 = some r ∧ (firstNats (s.tileFree r) (s.entryOf r).tiles (List.range 256)).length ≠ (s.entryOf r).tiles) ∧
    (let r : Req := { id := 1, model := 3, desc := desc 64 [(1, 1, 8)] }
     let q : Req := { id := 2, model := 3, feat := some [0] }
     let s := { offering reqDesc with reqs := [r, q] }
     s.req 1 = some r ∧ r.steered = false ∧ dFsrc r.desc = 2 ∧ s.req 2 = some q ∧ dFsrc q.desc ≠ 2) := by decide +kernel

/-- 01 R28 to R31: the request is admitted, and placed on the first free tiles -/
theorem test_admission_results :
    goes (exec .requestAdmit (offering reqDesc))
      (fun u => u.reqs.map (fun r => (r.den, r.model, r.samples)) == [(0, 3, 1)] && (u.ring (reqKey 0 0)).head == 1 &&
        (u.ring (rcqKey 0)).rsvd == 1) = true ∧
    goes (exec (.requestPlace 0) { offering reqDesc with reqs := [{ id := 1, model := 3, steered := true }] })
      (fun u => u.reqs.map (fun r => r.tiles) == [[5, 6]] && (u.tile 6).req == some 1) = true := by decide +kernel

/-- A placed task whose start is due. -/
def placed : Req := { task with phase := .placed, ready := true, samples := 2, desc := reqDesc, tAdmit := 0 }

/-- witness of TasksRun: a placed task, a waking tile, one that has drained, an aborting one, a parked pair with demand, and a yielded
task whose tiles are free -/
theorem test_tasks :
    (let s := { offering reqDesc with reqs := [placed] }
     s.serving = true ∧ s.req 1 = some placed ∧ placed.phase = .placed ∧ placed.ready = true ∧ placed.tiles.Nodup) ∧
    (({ up with tiles := [(5, { seq := .waking })] }.tile 5).seq = .waking) ∧
    (let s := { onTile 0 0 {} task with tiles := [(5, { seq := .ending, req := some 1 })] }
     s.holder 5 = some task ∧ (s.tile 5).seq = .ending ∧ (s.tile 5).drained = true ∧ task.phase = .running) ∧
    (let r := { task with phase := .aborting }
     (onTile 0 0 {} r).req 1 = some r) ∧
    (let r := { task with demand := true }
     let s := { onTile 0 0 {} r with tiles := [(5, { seq := .parked, req := some 1 }), (6, { seq := .parked, req := some 1 })] }
     s.req 1 = some r ∧ s.allParked r = true ∧ (onTile 0 0 {} r).allParked r = false) ∧
    (let r := { task with phase := .yielded }
     let s := { offering reqDesc with reqs := [r] }
     s.serving = true ∧ s.req 1 = some r ∧ s.mayResume r = true) := by decide +kernel

/-- 08 R251: what S1 to S3 and the PC of each tile hold at the start; R281: the task of two tiles ends with the second report -/
theorem test_task_results :
    goes (exec (.taskStart 1) { offering reqDesc with reqs := [placed] })
      (fun u => (u.tile 6).pc == 32 && (u.tile 6).getS 1 == 1 && (u.tile 6).getS 2 == 2 && (u.tile 6).getS 3 == 2 &&
        (u.tile 5).seq == .waking) = true ∧
    goes (exec (.tileWake 5) { up with tiles := [(5, { seq := .waking })] }) (fun u => (u.tile 5).seq == .running) = true ∧
    goes (exec (.tileEndReport 5) { onTile 0 0 {} task with tiles := [(5, { seq := .ending, req := some 1 })] })
      (fun u => u.reqs.map (fun r => r.reported) == [[5]] && (u.tile 5).seq == .ended) = true ∧
    goes (exec (.guardExpiry 5) (onTile 0 0 {} task)) (fun u => (u.tile 5).faultCause == 0x0D) = true := by decide +kernel

/-- witness of TaskAborts: a tile that may doze, one that joins, and a task whose tile faults, with and without an earlier fault -/
theorem test_tile_power_and_aborts :
    (let s := offering reqDesc
     (s.tile 5).pwr = .idle ∧ (s.tile 5).dozeNow ≠ 0 ∧ (s.tile 5).seq ≠ .waking) ∧
    (let s := { offering reqDesc with tiles := [] }
     (s.tileDen 5).isSome = true ∧ (s.tile 5).prepared = false ∧ (s.tile 5).fenced = false) ∧
    (∀ v ∈ [false, true],
      let s := onTile 0 7 { faultValid := v, faultCause := 1 } task
      s.holder 5 = some task ∧ task.phase ≠ .aborting ∧ 5 ∈ task.tiles ∧ (s.tile 5).faultValid = v) ∧
    goes (exec (.tileDoze 5) (offering reqDesc)) (fun u => (u.tile 5).pwr == .doze) = true ∧
    goes (exec (.tilePrepareDone 5) { offering reqDesc with tiles := [] }) (fun u => (u.tile 5).pwr == .idle) = true := by decide +kernel

/-! ### The Forager and the history reader -/

/-- Model 4 of den 0: a history declaration and a pooling group of table 9 (SUM, FP32) on tiles 5 and 6. -/
def model4 : Model :=
  { handle := 4, den := 0,
    entries := [{ tiles := 2, pcs := [16, 32], hist := some { htable := 9, htn := 1, bufBytes := 0x40000, sem1 := 1 },
                  groups := [{ mode := 1, tabs := [(9, 0)], spt := 1, stride := 64 }] }] }

/-- A placed request of model 4. -/
def gatherer : Req := { task with model := 4, phase := .placed, closed := true }

/-- The request `r` of den 0, whose stripe 0 holds table 9: 100 rows of 64 bytes, with the layout `l`, this device being 0 of its
two devices. -/
def gathering (r : Req) (l : Nat) (f : Forager) : State :=
  { up with
    dens := [(0, { st := .active, hbm := [(0, 1)], tiles := 0x60, fill := 1, hdirLen := 2, hdirBase := 0x10000 })], models := [model4],
    reqs := [r], boot := { up.boot with engines := 0x80000000, slices := BitVec.allOnes 64 }, forager := f,
    tables := [(9, { present := true, layout := l, shards := 1, shardIds := [0, 3], rows := 100, rowSize := 64, elems := 16,
                     v0 := { valid := true } })],
    tiles := [(5, { seq := .running, req := some 1 }), (6, { seq := .running, req := some 1 })] }

/-- A history walk that has begun. -/
def walking : Walk := { begun := true, base := 0x1000, cap := 64, next := 1 }

/-- witness of ForagerGathers: arrivals, demand reads of local rows and of one that waits for tokens, an arrival slot, a prefetch, and
rows that have been read -/
theorem test_gathers :
    (∀ p ∈ [ReqPhase.placed, .aborting],
      let s := gathering { gatherer with phase := p } 0 { inq := [(1, List.replicate 16 0)] }
      s.hub = true ∧ s.req 1 = some { gatherer with phase := p }) ∧
    (let s := gathering gatherer 0 { ibuf := [{ req := 1, table := 9, row := 99 }] }
     s.readWaits = [] ∧ ((s.reqs.filter (fun q => q.phase == .placed)).findSome? s.issueFor).isSome = true ∧ s.demandWaits = true) ∧
    (let s := gathering gatherer 1 { ibuf := [{ req := 1, table := 9, row := 99 }] }
     s.req 1 = some gatherer ∧ s.freeArrSlot = some 0 ∧ (gatherer.bag 0 0 0).slot = none ∧ s.bagRemote gatherer 0 0 0 = true ∧
     s.arrOf gatherer.den < max 1 (s.den gatherer.den).arrMax.toNat) ∧
    (let q := { gatherer with phase := .unplaced }
     let s := gathering q 0 { ibuf := [{ req := 1, table := 9, row := 99 }] }
     s.req 1 = some q ∧ s.prefetchEngine = some 31 ∧ (s.forager.ibuf.find? (s.prefetchable q)).isSome = true ∧ s.isCandidate q = true ∧
     s.maySlot q.den = true ∧ s.readTokens q.den = true ∧ s.demandWaits = false) ∧
    (let s := gathering gatherer 0 { slots := [{ r := { id := 8, req := 1, table := 9 }, kind := .prefetch, data := some [] },
                                               { r := { id := 8, req := 1, table := 9 }, data := some (List.replicate 64 0) }] }
     s.forager.slots.any (fun x => x.r.id == 8 && x.kind == .prefetch && x.data.isSome) = true ∧
     (s.forager.slots.find? (fun x => x.r.id == 8 && x.kind != .prefetch && x.data.isSome)).isSome = true) := by decide +kernel

/-- witness of ForagerGathers, the history walks: the last entry of the directory and the first number beyond it, an event to read, a
chunk that is whole, and one that waits for a release -/
theorem test_walks :
    (let r := { gatherer with phase := .running, walk := some {}, desc := desc 64 [(0x24, 4, 1)] }
     let s := gathering r 0 {}
     s.req 1 = some r ∧ s.walksRunning < 64 ∧ dHistId r.desc < (s.den r.den).hdirLen.toNat ∧
     (s.walkRead r.den ((s.den r.den).hdirBase.toNat + 32 * dHistId r.desc) 32).isSome = true) ∧
    (let r := { gatherer with phase := .running, walk := some {}, desc := desc 64 [(0x24, 4, 2)] }
     let s := gathering r 0 {}
     s.walksRunning < 64 ∧ (s.den r.den).hdirLen.toNat ≤ dHistId r.desc) ∧
    (let r := { gatherer with phase := .running, walk := some { walking with reading := true } }
     let s := gathering r 0 {}
     s.readWaits = [] ∧ (s.reqs.filter (fun q => q.phase == .placed)).findSome? s.issueFor = none ∧
     (s.reqs.findSome? s.issueWalk).isSome = true) ∧
    (let w := { walking with reading := true, examined := 1 }
     let r := { gatherer with phase := .running, walk := some w }
     let s := gathering r 0 {}
     (s.entryOf r).hist.isSome = true ∧ w.examined = w.chunkEnd ∧ s.walkOpen 1 = false) ∧
    (let r := { gatherer with phase := .running, walk := some walking }
     let s := gathering r 0 {}
     (s.entryOf r).hist.isSome = true ∧ ∀ h ∈ (s.entryOf r).hist, s.bufFree r h 0 = true) := by decide +kernel

/-- A request of den 0 that reads or changes 8 bytes of HBM at address 64, answered to no one. -/
def hreq (k : HKind) (n : Nat) : HReq := { kind := k, den := some 0, addr := 64, len := n, data := List.replicate n 1 }

/-- `r` waits at the last port of its slice; the line of address 0 is held as `l`. -/
def slice (r : HReq) (l : List HLine) : State :=
  { gathering gatherer 0 {} with
    hoard := { ports := [(5 * homeSlice 64 + 4, [r])], lastPort := [(homeSlice 64, 4)], lines := l.map (fun x => (7, x)),
               dirs := [{ id := 2 }] } }

/-- The next request that the slice of address 64 serves is `r`. -/
def serves (s : State) (r : HReq) : Bool :=
  match s.nextServed (homeSlice 64) with
  | some (x, _) => x == r && s.hub
  | none => false

/-- witness of HoardRequests: each kind of request, with its lines there, and an atomic on a poisoned extent -/
theorem test_hoard_requests :
    [hreq (.read true) 8, hreq (.write true) 8, hreq (.lanes 1 0xA 2 true) 8, hreq (.lanes 2 0xA 2 false) 8, hreq (.lanes 3 0xA 2 true) 8,
     hreq (.cas 0 1) 8, hreq (.swap 5) 8, hreq (.commit 2) 8].all (fun r => serves (slice r []) r) = true ∧
    [hreq (.lanes 1 0xA 2 true) 8, hreq (.cas 0 1) 8, hreq (.swap 5) 8].all (fun r =>
      ((slice r []).reach r true true).any (fun v => !v.devBad r.addr r.len)) = true ∧
    ((slice (hreq (.swap 5) 8) [{ data := List.replicate 128 0, poison := 0x100 }]).reach (hreq (.swap 5) 8) true true).any
      (fun v => v.devBad 64 8) = true ∧
    ((slice (hreq (.read true) 8) []).reach (hreq (.read true) 8) true false).isSome = true ∧
    ((slice (hreq (.write true) 8) []).reach (hreq (.write true) 8) true true).isSome = true ∧
    ((slice (hreq (.commit 2) 8) []).hoard.dirs.find? (fun y => y.id == 2)).isSome = true := by decide +kernel

/-- 05 R162, R163, by hand: a write lands in HBM's line; ADD wraps; MAX compares signed -/
theorem test_hoard_results :
    goes (exec (.hoardRequest (homeSlice 64) 0) (slice (hreq (.write true) 8) []))
      (fun u => (u.devRead 63 10 == [0, 1, 1, 1, 1, 1, 1, 1, 1, 0])) = true ∧
    laneAtomic 1 0xA 1 [0xFF, 0xFF, 0xFF, 0xFF] [2, 0, 0, 0] = [1, 0, 0, 0] ∧
    laneAtomic 2 0xA 1 [0xFF, 0xFF, 0xFF, 0xFF] [2, 0, 0, 0] = [2, 0, 0, 0] ∧
    laneAtomic 3 0xA 1 [0xFF, 0xFF, 0xFF, 0xFF] [2, 0, 0, 0] = [0xFF, 0xFF, 0xFF, 0xFF] := by decide +kernel

/-- witness of HoardState: a line that is dirty, one that is clean, a way whose change waits, a pin region that fills, and a flush -/
theorem test_hoard_state :
    [true, false].all (fun d =>
      let s := slice (hreq (.read true) 8) [{ dirty := d, data := List.replicate 128 0 }]
      serves s (hreq (.read true) 8) && (s.hoard.find 64).isSome) = true ∧
    (let s := { up with hoard := { ways := [(15, { change := some (.pin, 31) })] } }
     (s.way 15).change = some (.pin, 31) ∧ s.hoard.wayHeld 15 = false) ∧
    (let s := { up with tables := [(4095, { present := true, pin := true, pinFilling := true })] }
     (s.table 4095).present = true ∧ (s.table 4095).pin = true ∧ (s.table 4095).pinFilling = true) ∧
    (let s := { up with hoard := { flushActive := true } }
     s.hoard.flushActive = true ∧ s.boot.phase ≠ .warmFlush) := by decide +kernel

/-- 05 R177: what HRD_ECC counts; 06 R183, by hand: byte 256·3 + 5 of stripe 1 at granule 256 -/
theorem test_ecc_and_places :
    goes (exec (.hoardRequest (homeSlice 64) 1) (slice (hreq (.read true) 8) [{ dirty := true, data := List.replicate 128 0 }]))
      (fun u => u.hoard.corr == 1 && u.hoard.uncorr == 0) = true ∧
    goes (exec (.hoardRequest (homeSlice 64) 2) (slice (hreq (.read true) 8) [{ dirty := true, data := List.replicate 128 0 }]))
      (fun u => u.hoard.uncorr == 1 && u.devBad 64 8) = true ∧
    locate 0 1 773 = (2, 5) ∧ locate 0 1 65536 = (0, 256) := by decide +kernel

/-- witness of StripePlacesRoundTrip: the last byte of the last stripe, at each granule -/
theorem test_last_places :
    [0, 1, 2].all (fun g =>
      let p := locate g 18431 16777215
      decide (p.1 < 256) && decide (p.2 = 65535) && decide (unlocate g 18431 p.1 p.2 = 16777215)) = true := by decide +kernel

/-- A stack 7 of the controller. -/
def withStack (x : HbmStack) (q : List HbmAcc) : State := { up with hbm := { up.hbm with stk := [(7, x)], queues := [(255, q)] } }

/-- witness of HbmControllers: a read and a write queued, a scrub of the first word, a candidate with and without a free soft
resource, and a repair that runs -/
theorem test_controllers :
    [true, false].all (fun w =>
      let s := withStack {} [{ addr := 0, write := w }]
      s.hub && (s.hbmNext (mget [] s.hbm.queues 255)).isSome) = true ∧
    (let s := withStack {} []
     let w := s.scrubAddr 7 (s.stack 7).scrubPos / 32
     (s.stack 7).scrubEn = true ∧ (s.stack 7).scrubPos + 1 < stackWords ∧ mget false s.hbm.bad w = false ∧ mget false s.hbm.weak w = false) ∧
    (let s := withStack { cands := [0] } []
     (s.stack 7).cands = [0] ∧ (s.stack 7).repair = none ∧ (s.stack 7).softFree 0 = true) ∧
    (let s := withStack { cands := [2 ^ 32], softRows := [0] } []
     (s.stack 7).repair = none ∧ (s.stack 7).softFree (2 ^ 32) = false) ∧
    ((withStack { repair := some 3 } []).stack 7).repair = some 3 := by decide +kernel

/-! ### Power, temperatures, accounting and timers -/

/-- The device `up` with the power state `w`. -/
def power (w : Power) : State := { up with pwr := w }

/-- witness of TemperatureReadings: the bytes on both sides of the trip limits -/
theorem test_temperatures :
    up.pwr.st ≠ .off ∧ up.stackOut 7 = false ∧ (124#8).toInt < 125 ∧ 125 ≤ (125#8).toInt ∧ (119#8).toInt < 120 ∧ 120 ≤ (120#8).toInt ∧
    [((95 : Int), 0), (96, 1), (105, 1), (106, 2), (110, 2), (111, 3), (115, 3), (116, 4)].all (fun p =>
      nextLevel jEntry jExit 0 p.1 == p.2) = true ∧
    goes (exec (.dieTempRead 2 125) up) (fun u => u.pwr.thermtrip && u.pwr.st == .off) = true ∧
    goes (exec (.dieTempRead 2 96) up) (fun u => mget 0 u.pwr.dieLevel 2 == 1) = true ∧
    goes (exec (.hbmTempRead 7 120) up) (fun u => u.pwr.thermtrip) = true ∧
    goes (exec (.hbmTempRead 7 86) up) (fun u => (u.stack 7).level == 1 && (u.stack 7).tempMax == 86) = true := by decide +kernel

/-- witness of PowerStates: each state with each of its conditions -/
theorem test_power_states :
    (up.pwr.st = .active ∧ up.tim.cpSt ≠ .grace) ∧
    (let s := power { up.pwr with st := .hush }
     s.pwr.st = .hush ∧ s.pwr.thermal = false ∧ s.pwr.wakePend = none) ∧
    (let s := power { up.pwr with st := .standby, svcRun := true }
     s.pwr.st = .standby ∧ s.pwr.thermHold = false ∧ s.cp.running = [] ∧ s.cp.usbIn = none ∧ s.cp.uartIn = none ∧ s.tim.cpSt ≠ .grace) ∧
    (let s := power { up.pwr with st := .standby }
     s.pwr.st = .standby ∧ s.pwr.thermHold = false ∧ s.pwr.svcRun = false) ∧
    (let s := power { up.pwr with st := .hush, alarm := BitVec.allOnes 48 }
     s.pwr.alarm ≠ 0 ∧ s.pwr.thermal = false ∧ s.pwr.wakePend = none) ∧
    (power { up.pwr with st := .hush, wakePend := some 7 }).pwr.wakePend = some 7 ∧
    (let s := power { up.pwr with st := .hush, thermal := true }
     s.pwr.thermal = true ∧ s.cool = true) ∧
    (let s := power { up.pwr with st := .hush, thermal := true, dieTemp := [(0, 101)] }
     s.pwr.thermal = true ∧ s.cool = false) := by decide +kernel

/-- witness of PowerStates, the tasks that are aborted: numbers that differ, one request killed and one left -/
theorem test_kill :
    (([{ id := 1 }, { id := 2, den := 1 }] : List Req).all (fun a => ([{ id := 1 }, { id := 2, den := 1 }] : List Req).all (fun b =>
      a.id != b.id || a == b))) = true ∧
    (State.killReqs { up with reqs := [{ id := 1 }, { id := 2, den := 1 }] } (fun r => r.den == 1) false).reqs.map Req.id = [1] := by
  decide +kernel

/-- 17 R565, R582, R591 -/
theorem test_power_results :
    goes (exec .d3hotEntry up) (fun u => u.pwr.st == .standby) = true ∧
    goes (exec .hushAlarm (power { up.pwr with st := .hush, alarm := 500 })) (fun u => u.pwr.wakePend == some 7 && u.pwr.aon == 500) = true ∧
    goes (exec .d0Return (power { up.pwr with st := .standby, svcRun := true })) (fun u => u.pwr.st == .active && !u.pwr.svcRun) = true := by
  decide +kernel

/-- witness of ClocksAndAccounting: TCLK below, at and above its target, the crystal good, and the limiter on both sides of each bound -/
theorem test_clocks :
    up.hub = true ∧ up.pwr.xtalOk = false ∧ (power { up.pwr with xtalOk := true }).pwr.xtalOk = true ∧
    (let s := power { up.pwr with tclkCur := 17 }
     s.pwr.tclkCur ≠ 0 ∧ s.pwr.tclkCur < s.tclkTarget) ∧
    (power { up.pwr with tclkCur := 18 }).tclkTarget = 18 ∧ (power { up.pwr with tclkCur := 19 }).tclkTarget < 19 ∧
    (let w : Power := { limVal := 10, low := 9 }
     w.cap < 601 ∧ 9 < w.limVal ∧ 569 + 30 < w.cap ∧ 9 ≤ w.low ∧ w.limVal < w.tclkMax ∧ 570 ≤ w.cap ∧ w.cap ≤ 570 + 30) ∧
    (({ limVal := 9, low := 8 } : Power).limVal ≤ 9 ∧ ({ limVal := 9, low := 8 } : Power).low < 9) ∧ (up.den 31).st = .free := by
  decide +kernel

/-- 17 R576, by hand: over the cap of 600 W one step down; ten evaluations below 570 W one step up -/
theorem test_limiter :
    (({ limVal := 18 } : Power).limit 601).limVal = 17 ∧ (({ limVal := 17, low := 9 } : Power).limit 569).limVal = 18 ∧
    (({ limVal := 17, low := 8 } : Power).limit 569).limVal = 17 ∧ (({ limVal := 9 } : Power).limit 601).halfLim = true ∧
    goes (exec .tclkStep (power { up.pwr with tclkCur := 17 })) (fun u => u.pwr.tclkCur == 18) = true := by decide +kernel

/-- Timer 7 of a device. -/
def timer (x : Tmr) : State := { up with wtime := 1000, tim := { up.tim with tmr := [(7, x)] } }

/-- witness of Timers: a match on the reference and one far behind it, starts, gates, matches, halts and ticks -/
theorem test_timers :
    [(1000, 1), (1, 999)].all (fun p =>
      let x : Tmr := { ivl := BitVec.ofNat 64 p.2, cmp := BitVec.ofNat 64 p.1 }
      x.ivl != 0 && decide (x.cmp.toNat ≤ (1000#64).toNat) && decide (x.cmp.toNat + x.steps 1000 * x.ivl.toNat < 2 ^ 64)) = true ∧
    (let s := timer { pend := true }
     s.tim.gstartAt ≤ s.wtime ∧ s.frozen = false) ∧
    (timer {}).gateDup 7 0 = false ∧
    (let s := { up with tim := { up.tim with tmr := [(0, { gEn := true, gDen := 1 }), (7, {})] } }
     let v : W64 := 1 + 2 ^ 8
     s.gateDup 7 v = true) ∧
    (timer { run := true, src := true, armed := true, cmp := 1000 }).matchDue 7 = true ∧
    ({ up with err := { up.err with jtagHalt := true } }.err.jtagHalt = true) ∧
    ({ up with tim := { up.tim with halt := true } }.tim.halt = true) ∧
    (up.fab.slow = 0 ∧ { up with fab := { up.fab with slow := 1 } }.fab.slow ≠ 0 ∧ up.fab.slowPhase = false) := by decide +kernel

/-- 20 R661, R668, by hand: CMP 1, IVL 10 and a reference of 1,000 leave CMP at 1,001 with 99 matches missed; 256 AON ticks are
15,625 ticks of Warren time -/
theorem test_timer_results :
    (let y := ({ ivl := 10, cmp := 1 } : Tmr).matched 1000
     y.cmp = 1001 ∧ y.missed = 99 ∧ y.hits = 1) ∧
    (up.makeup 256).wtime = 15625 ∧ (up.makeup 1).wtime = 61 ∧ (up.makeup 1).tim.resid = 9 ∧
    goes (exec (.tmrGstart 0x80 false) (timer {})) (fun u => (u.tmr 7).run && !(u.tmr 6).run) = true := by decide +kernel

/-! ### Updates, version switches, the Warren and the links -/

/-- An update of table 9 of den 0: source `src`, slot `v`, `n` records. -/
def updDesc (src v n : Nat) : Bytes := desc 64 [(0, 1, 2), (1, 1, 4 * src), (4, 2, 9), (6, 1, v), (8, 4, n)]

/-- Den 0 with `b` at the head of its update ring 1. -/
def updating (b : Bytes) : State :=
  let s := gathering gatherer 1 {}
  { s with pcie := { s.pcie with
    fns := [(1, { bme := true })],
    rings := [(updKey 0 1, { en := true, tail := 1, entries := [.held b true] }), (ucqKey 0 1, { en := true })] } }

/-- witness of UpdateEngine: a descriptor of the most records, a bad one, one of a slot that is not valid, a block in this device's
memory, and records that are staged or skipped -/
theorem test_updates :
    [(updDesc 2 0 65536, 0), (updDesc 2 0 0, 3), (updDesc 2 1 1, 0x0E), (updDesc 0 4 1, 3), (desc 64 [(0, 1, 2), (4, 2, 8), (8, 4, 1)], 5)].all
      (fun p =>
        let s := updating p.1
        s.ringFront (updKey 0 1) == some p.1 && s.updReady 0 1 && s.updTokens 0 && s.updRefusal 0 p.1 == p.2) = true ∧
    (let u : UpdCur := { desc := updDesc 2 0 1, table := 9, count := 1 }
     let s := (gathering gatherer 1 {}).setUpd 0 1 (some u)
     s.hub = true ∧ s.upd 0 1 = some u ∧ s.blockLocal u = true ∧ u.readEnded = false) ∧
    [((0 : Nat), (0 : Nat)), (98, 0), (99, 2), (100, 1), (1, 2), (2 ^ 40 + 1, 4)].all (fun p =>
      let u : UpdCur := { desc := updDesc 2 0 1, table := 9, count := 1, block := toLe 8 p.1 ++ List.replicate 72 1, readEnded := true }
      let s := (gathering gatherer 1 {}).setUpd 0 1 (some u)
      let x := recordAt u.block (s.updStride u) u.idx
      let t := s.table u.table
      s.updHas u && s.skipFlag t (sliceB x 0 5 ++ (if p.2 = 4 then [1] else [0]) ++ List.replicate 74 0) == p.2) = true ∧
    (let u : UpdCur := { desc := updDesc 2 0 1, table := 9, count := 1, block := toLe 8 98 ++ List.replicate 8 0 ++ List.replicate 64 1,
                         readEnded := true }
     let s := (gathering gatherer 1 {}).setUpd 0 1 (some u)
     let t := s.table u.table
     let x := recordAt u.block (s.updStride u) u.idx
     s.updHas u = true ∧ s.skipFlag t x = 0 ∧ (s.stageRow 0 1 u.table (t.rowAddr u.vslot (t.localRow (fld x 0 5))) (x.drop 16)).isSome = true) := by
  decide +kernel

/-- Port 23 is up, on a device of Warren id 0 and the role `role` whose master is 2 and epoch 5. -/
def linked (role : Nat) (q : Port) : State :=
  { up with fab := { up.fab with role := role, master := 2, epoch := 5 }, ports := [(23, { q with st := .l0 })] }

/-- A message of device 3 for this one. -/
def fromThree (ty status : Nat) (tid : W32) (fields data : Bytes) : Bytes :=
  State.mkMsg { up with fab := { up.fab with wid := 3 } } ty 0 0 status tid fields data

/-- `Arrives` as a check that runs. -/
def arrives (s : State) (p : Nat) (m : Bytes) (ty : Nat) : Bool :=
  s.portUp p && mType m == ty && mDst m == s.fab.wid && msgOk m

theorem arrives_iff (s : State) (p : Nat) (m : Bytes) (ty : Nat) : arrives s p m ty = true ↔ Arrives s p m ty := by
  simp [arrives, Arrives, and_assoc]

/-- witness of WarrenSwitches and WarrenManagement: one message of each type -/
theorem test_management_messages :
    [(0x40, [1, 0, 0, 0, 1], List.replicate 64 (0 : Byte)), (0x41, [1, 0, 0, 0], []), (0x42, [1, 0, 0, 0, 1], []),
     (0x43, [1, 0, 0, 0, 9], []), (0x44, [1], []), (0x45, [1], []), (0x46, [1], []), (0x47, [], []), (0x48, [1, 0, 0, 0, 2], []),
     (0x49, [5, 0, 0, 0, 7], []), (0x4A, [6, 0, 0, 0], []), (0x4B, [], []), (0x4C, [], []), (0x4D, [], []),
     (0x4E, [], List.replicate 32 0)].all (fun p => arrives (linked 1 {}) 23 (fromThree p.1 0 0 p.2.1 p.2.2) p.1) = true ∧
    (let m := fromThree 0x49 0 0 [5, 0, 0, 0, 7] []
     let u := (linked 1 {}).taken 23 m
     u.fab.role = 1 ∧ u.fab.epoch = BitVec.ofNat 32 (fld m 0xC 4)) ∧
    ((linked 1 {}).taken 23 (fromThree 0x4A 0 0 [6, 0, 0, 0] [])).fab.accepts 3 6 = true ∧
    (linked 1 {}).fab.hold = false ∧ (linked 1 {}).fab.hushed.contains (linked 1 {}).fab.master = false ∧ (linked 2 {}).fab.role = 2 ∧
    (let s := { linked 2 {} with fab := { (linked 2 {}).fab with survey := some {} } }
     s.hub = true ∧ s.fab.survey.isSome = true ∧ (s.taken 23 (fromThree 0x4E 0 0 [] (List.replicate 32 0))).fab.survey.isSome = true) := by
  decide +kernel

/-- A device in a switch of tables 9 and 10 to their slots 1 and 3. -/
def switching (st : Nat) (tsw : W64) (master : Nat) : State :=
  { linked 1 {} with
    wtime := 1000, wsw := { id := 7, st := st, tsw := tsw, master := master, pairs := [(9, 1), (10, 3)] },
    tables := [(9, { present := true, v1 := { valid := true }, lock := some 7 }), (10, { present := true, v3 := { valid := true }, lock := some 7 })] }

/-- witness of WarrenSwitches: prepared, committed and drained, with T_SW at and before the present; and the master's waits; and of
WarrenManagement's times -/
theorem test_switches :
    ((switching 1 0 2).wsw.st = 1 ∧ (switching 1 0 2).wtime.toNat ≤ (1000#64).toNat ∧ (999#64).toNat < (switching 1 0 2).wtime.toNat) ∧
    (let s := switching 2 1000 2
     s.hub = true ∧ s.wsw.st = 2 ∧ s.wsw.tsw.toNat ≤ s.wtime.toNat ∧ (s.wsw.pairs.map Prod.fst).Nodup ∧ (s.table 9).present = true) ∧
    [0, 2].all (fun m => let s := switching 3 0 m
                         s.wsw.st == 3 && !s.wsw.drainedSent && s.swDrained) = true ∧
    ({ linked 2 {} with msw := some { st := 0 } }.msw = some { st := 0 } ∧ { linked 2 {} with msw := some { st := 2 } }.msw = some { st := 2 }) ∧
    (up.fab.synced = false ∧ (let s := { up with wtime := 1000, fab := { up.fab with synced := true } }
                              s.fab.synced = true ∧ 15999 / 16 < s.wtime.toNat ∧ s.wtime.toNat ≤ 16000 / 16)) := by decide +kernel

/-- 07 R223, R224, 16 R546, R550 -/
theorem test_switch_results :
    goes (exec .warrenSwitchApply (switching 2 1000 2)) (fun u => u.wsw.st == 3 && (u.table 9).active == 1 && (u.table 10).active == 3 &&
      (u.table 9).lock == none && u.wsw.prevs == [(9, 0), (10, 0)]) = true ∧
    goes (exec (.commit 23 (fromThree 0x43 0 0 (toLe 4 7 ++ toLe 8 2000) [])) (switching 1 0 2)) (fun u => u.wsw.st == 2 && u.wsw.tsw == 2000) = true ∧
    goes (exec (.heartbeat 23 (fromThree 0x49 0 0 (toLe 4 5 ++ toLe 8 2000 ++ toLe 4 15) [])) (linked 1 {}))
      (fun u => u.wtime == 2000 && u.fab.synced && u.fab.master == 3 && u.fab.corr == 32015) = true := by decide +kernel

/-- witness of MessagesReadBack: the longest message -/
theorem test_longest_message :
    vcOf 0x21 = some 0 ∧ ([] : Bytes).length ≤ 20 ∧ (List.replicate 8160 (7 : Byte)).length ≤ 8160 ∧ up.fab.wid < 256 ∧
    (let m := up.mkMsg 0x21 255 31 4 0xFFFFFFFF [0xE0, 0x1F] (List.replicate 8160 7)
     mNdata m = 255 ∧ mVc m = 0 ∧ mDst m = 255 ∧ mDen m = 31 ∧ mTid m = 0xFFFFFFFF ∧ m.length = 8192) := by decide +kernel

/-- witness of RemoteRequests: a request of each type, and an owner that refuses -/
theorem test_remote_requests :
    [(0x10, [], []), (0x11, [0, 0, 0, 0, 2], List.replicate 32 (0 : Byte)), (0x12, [0, 0, 0, 0, 0, 0, 0, 0, 64], []),
     (0x13, [0, 0, 0, 0, 0, 0, 0, 0, 64], List.replicate 64 0), (0x14, [0, 0, 0, 0, 0, 0, 0, 0, 1], List.replicate 32 0),
     (0x15, [5, 15, 6], List.replicate 64 0)].all (fun p => arrives (linked 1 {}) 23 (fromThree p.1 0 0 p.2.1 p.2.2) p.1) = true ∧
    ((linked 1 {}).den 0).open .ifs = true ∧
    (let s := { linked 1 {} with dens := [(0, { regIfs := { en := true, level := 0 } })] }
     s.portUp 23 = true ∧ (s.den 0).open .ifs = false) ∧
    ((linked 1 {}).taken 23 (fromThree 0x12 0 0 [] [])).refuses = false ∧
    (let s := { linked 1 {} with pwr := { up.pwr with st := .retain } }
     arrives s 23 (fromThree 0x15 0 0 [5, 15, 6] (List.replicate 64 0)) 0x15 = true ∧ (s.taken 23 (fromThree 0x15 0 0 [] [])).refuses = true) := by
  decide +kernel

/-- A device that waits for the answer to `x`. -/
def waits (x : XIssuer) : State :=
  { linked 1 {} with fab := { (linked 1 {}).fab with xacts := [{ tid := 9, issuer := x, dst := 3 }] } }

/-- witness of RemoteRequests, the answers: one for each kind of transaction, one for none, and a transaction without an answer -/
theorem test_answers :
    [(0x20, XIssuer.row {} 0, [0, 0, 0, 0, 0, 0, 0], 0), (0x21, .part (.cmd 1) 0 0 32, [32, 0], 32), (0x22, .cmdWrite 1 0 0, [], 0),
     (0x23, .tile 5 0, [], 32), (0x30, .pool 1 0 0 0 1 2, [], 32)].all (fun p =>
       let m := fromThree p.1 0 9 p.2.2.1 (List.replicate p.2.2.2 0)
       let s := waits p.2.1
       arrives s 23 m p.1 && ((s.taken 23 m).xactOf m).any (fun x => x.issuer == p.2.1) && mStatus m == 0 &&
       ((linked 1 {}).taken 23 m).xactOf m == none) = true ∧
    [1, 2, 3].all (fun st =>
      let m := fromThree 0x21 st 9 [] []
      arrives (waits (.part (.cmd 1) 0 0 32)) 23 m 0x21 && (((waits (.part (.cmd 1) 0 0 32)).taken 23 m).xactOf m).isSome && mStatus m == st) = true ∧
    (let s := waits (.tile 5 0)
     s.hub = true ∧ s.fab.hushed = [] ∧ (s.fab.xacts.find? (fun y => y.tid == 9)).isSome = true) := by decide +kernel

/-- A message of device 3 for device 4. -/
def transit (hops : Byte) : Bytes := patchB (patchB (fromThree 0x12 0 9 [0, 0, 0, 0, 0, 0, 0, 0, 64] []) 3 [hops]) 5 [4]

/-- witness of Links: credits, a message that is refused, transit with and without hops and a route, codewords in and out of order, and
lanes, ports and training -/
theorem test_links :
    ((linked 1 {}).portUp 23 = true ∧ fld (desc 32 [(0, 1, 1), (2, 2, 10)]) 0 1 = 1) ∧
    (let m := patchB (fromThree 0x12 0 9 [] []) 7 [1]
     mDst m = (linked 1 {}).fab.wid ∧ msgOk m = false ∧ mType m ≠ 0 ∧ mType m ≠ 1) ∧
    [0, 1].all (fun h => let m := transit h
                         mDst m != (linked 1 {}).fab.wid && m.length == 32 * mFlits m && fld m 3 1 == h.toNat) = true ∧
    (linked 1 {}).routePort (transit 1) = none ∧
    (let s := { linked 1 {} with fab := { (linked 1 {}).fab with routes := [(4, [0])] },
                                 ports := [(0, { st := .l0, credReq := 1 }), (23, { st := .l0 })] }
     s.routePort (transit 1) = some 0 ∧ (s.port 0).st = .l0 ∧ mget [] (s.port 0).queues (mVc (transit 1)) = [] ∧
     mFlits (transit 1) ≤ (s.port 0).cred (mVc (transit 1)) ∧ (s.port 0).retry.length + (msgWords (transit 1)).length ≤ 128) ∧
    (let s := linked 1 { rxNext := 255 }
     s.portUp 23 = true ∧ (s.port 23).owed = [] ∧ (s.port 23).queues = [] ∧ (s.port 23).laneErr = [] ∧ (255#20).toNat % 256 = (s.port 23).rxNext.toNat ∧
     (0#20).toNat % 256 ≠ (s.port 23).rxNext.toNat) ∧
    ((linked 1 { lanes := 0x80 }).port 23).lanes.getLsbD 7 = true := by decide +kernel

/-- Port 23 trains. -/
def training (x : Port) : State :=
  { up with boot := { up.boot with prof := { up.boot.prof with linkMask := 0x800000 } }, ports := [(23, { x with st := .training })] }

/-- witness of Links, the training of ports: four lanes that are not fenced, a wrong identity, and a retrain -/
theorem test_training :
    (let s := training { fenced := 0x0F }
     s.hub = true ∧ s.mayTrain 23 = true ∧ (s.port 23).st = .training ∧ (0xF0#8) = ~~~(s.port 23).fenced ∧ 4 ≤ (s.port 23).unfenced ∧
     3 ≠ s.fab.wid ∧ 0 = s.fab.wid ∧ (s.port 23).keep = false) ∧
    (let s := training { keep := true, trainFails := 3 }
     s.mayTrain 23 = true ∧ (s.port 23).keep = true ∧ 3 ≤ (s.port 23).trainFails) ∧
    goes (exec (.linkTrain 23 0xF0 3 31 0xD060 7) (training { fenced := 0x0F })) (fun u => (u.port 23).st == .l0 && (u.port 23).peerId == 3 &&
      (u.port 23).peerPort == 31 && (u.port 23).lanes == 0xF0 && (u.port 23).credRsp == 2048) = true ∧
    goes (exec (.linkTrain 23 0xF0 0 31 0xD060 7) (training { fenced := 0x0F })) (fun u => (u.port 23).st == .idle && (u.port 23).idStop) = true ∧
    goes (exec (.transitMessage 23 (transit 0)) (linked 1 {})) (fun u => u.fab.dropHops == 1) = true ∧
    goes (exec (.transitMessage 23 (transit 1)) (linked 1 {})) (fun u => u.fab.dropNoroute == 1) = true := by decide +kernel

/-! ### Commands of the CP -/

/-- A packet. -/
def pkt (op den : Nat) (l : List (Nat × Nat × Nat)) : Bytes := desc 64 ([(0, 1, op), (4, 1, den)] ++ l)

/-- A device that serves den 0, its models 3 and 4 and its table 9, with den 3 free. -/
def device : State :=
  let s := gathering gatherer 0 {}
  { s with
    models := [model3, model4],
    dens := s.dens.map (fun p => (p.1, { p.2 with mioSlots := 0xFFFF, mioEnts := BitVec.allOnes 64, token := List.replicate 16 1 })),
    mioter := { s.mioter with store := [(63, { st := .valid })], quads := [(3, { slots := [(3, { st := .ready })] })] } }

/-- `s` with the packet `b` on the USB port. -/
def onUsb (s : State) (b : Bytes) : State := { s with cp := { s.cp with usbIn := some b } }

/-- `Takes` as a check that runs. -/
def takes (s : State) (r : CmdRow) (c : CmdSrc) (b : Bytes) : Bool :=
  decide (s.cmdPkt c = some b) && s.takesFrom c && r.mine b && decide (s.cmdRefusal r c b = none)

theorem takes_iff (s : State) (r : CmdRow) (c : CmdSrc) (b : Bytes) : takes s r c b = true ↔ Takes s r c b := by
  simp [takes, Takes, and_assoc]

/-- A row whose packet `b` the CP takes on `s`, where `ok` holds once it has been taken. -/
def atOnce (s : State) (r : CmdRow) (b : Bytes) (ok : State → Bool) : Bool := takes (onUsb s b) r .usb b && ok ((onUsb s b).takeCmd .usb)

/-- As `atOnce`, for a command that begins to run. -/
def begins (s : State) (r : CmdRow) (b : Bytes) (ok : State → Bool) : Bool :=
  let v := (onUsb s b).takeCmd .usb
  takes (onUsb s b) r .usb b && ok (v.startCmd .usb b (r.locks v b))

/-- No further condition. -/
def yes (_ : State) : Bool := true

/-- witness of CommandsAreChecked and CommandsThatEndAtOnce: device, den, Warren and maintenance commands, on the service port, and one of
a VF's last ring pair -/
theorem test_commands_at_once :
    (atOnce device nopRow (pkt 0 255 []) yes && atOnce device (plainRow 1) (pkt 1 255 []) yes && atOnce device (plainRow 2) (pkt 2 255 []) yes &&
     atOnce device profileClearRow (pkt 4 255 [(9, 1, 2)]) (fun v => !v.ldg.profilesWorn) &&
     atOnce device denCreateRow (pkt 0x10 31 [(0xA, 2, 0xFFFF), (0x10, 1, 1)]) (fun v => (v.den 31).st == .free && v.allShared 0xFFFF) &&
     atOnce device configRegulatorRow (pkt 0x11 0 [(8, 1, 4), (0xC, 1, 3), (0x10, 1, 1)]) yes &&
     atOnce device configSchedRow (pkt 0x11 0 [(8, 1, 5), (0xC, 1, 1)]) yes && atOnce device configFlrRow (pkt 0x11 0 [(8, 1, 6), (0xC, 1, 1)]) yes &&
     atOnce device configTokenRow (pkt 0x11 0 [(8, 1, 7), (0x10, 1, 1)]) yes &&
     atOnce device configGranRow (pkt 0x11 0 [(8, 1, 8)]) (fun v => decide ((v.den 0).gran = 0)) &&
     atOnce device (plainRow 0x12) (pkt 0x12 0 []) yes &&
     atOnce { device with dens := [(0, { st := .quiesced })] } denResumeRow (pkt 0x14 0 []) (fun v => (v.den 0).st == .quiesced) &&
     atOnce device histDirRow (pkt 0x15 0 [(0x10, 8, 16777088), (0x18, 4, 4)]) (fun v => v.inHbm 0 16777088 128)) = true ∧
    (atOnce device (plainRow 0x50) (pkt 0x50 255 []) yes &&
     atOnce device routeSetRow (pkt 0x51 255 [(8, 1, 4), (0xA, 4, 0xFFFFFFFF)]) (fun v => (cPorts (pkt 0x51 255 [(0xA, 4, 0xFFFFFFFF)])).all (tbit v.boot.prof.linkMask)) &&
     (List.range 4).all (fun a => atOnce device (linkRow (fun x => x == a)) (pkt 0x52 255 [(8, 1, 23), (9, 1, a)])
       (fun v => (v.port 23).st != .training && v.ldg.canHold 7 (clearRecord 23))) &&
     atOnce device (tileRow 0x61) (pkt 0x61 255 [(8, 1, 255)]) yes &&
     atOnce device fwActivateRow (pkt 0x71 255 [(8, 1, 1)]) (fun v => v.ldg.canHold 4 (v.activateRecord 1)) &&
     atOnce device (plainRow 0x72) (pkt 0x72 255 []) yes && atOnce device fwCommitRow (pkt 0x73 255 []) yes) = true ∧
    (let b := pkt 0 255 []
     let s := { device with pcie := { device.pcie with
       fns := [(32, { bme := true })],
       rings := [(cmdKey 32 7, { en := true, tail := 1, entries := [.held b true] }), (rplKey 32 7, { en := true })] } }
     takes s nopRow (.ring 32 7) b = true) ∧
    (let b := pkt 0 255 []
     takes { device with cp := { device.cp with uartIn := some b, lastSrc := 33 } } nopRow .uart b = true) := by decide +kernel

/-- witness of CommandsThatEndAtOnce: model, table and Mioter commands -/
theorem test_den_commands_at_once :
    (atOnce device modelUnloadRow (pkt 0x21 0 [(8, 2, 3)])
       (fun v => decide (v.model 0 3 = some model3) && !v.reqs.any (fun r => r.den == 0 && r.model == 3)) &&
     atOnce device modelQueryRow (pkt 0x22 0 [(8, 2, 4)]) (fun v => decide (v.model 0 4 = some model4)) &&
     (let b := pkt 0x31 0 [(8, 2, 9), (0xA, 1, 1), (0xC, 4, 0x3F800000)]
      atOnce device tableModifyRow b (fun v => decide (v.tableRefusal b = none ∧ modifyBad (modified b (v.table 9)) v.fab.wid = none ∧
        v.permStatus 9 (modified b (v.table 9)) = 0))) &&
     (let b := pkt 0x32 0 [(8, 2, 9), (0xA, 1, 3), (0xB, 1, 3), (0x10, 8, 0x10000)]
      atOnce device tableVersionRow b (fun v => decide (v.tableRefusal b = none ∧ (v.table 9).slotState 3 < 2) && !v.namedSlot 9 3 &&
        v.inHbm 0 0x10000 ((v.table 9).localRows v.fab.wid * (v.table 9).rowSize) &&
        v.ldg.canHold 0x0E (versionPayload 9 (withVersion b (v.table 9)) false 0))) &&
     (let b := pkt 0x33 0 [(8, 1, 1), (9, 1, 2), (0x10, 2, 9)]
      atOnce device switchRow b (fun v => v.switchOwned .usb (cPairs b) && decide (v.notLocal (cPairs b) = none) &&
        decide (v.switchRefusal (cPairs b) = none) && cDurable b && v.durableOk [9])) &&
     (let b := pkt 0x35 0 [(8, 2, 9)]
      atOnce { device with tables := device.tables.map (fun p => (p.1, { p.2 with active := 1 })) } tableDeleteRow b (fun v =>
        decide (v.tableRefusal b = none) && (List.range 4).all (fun k => decide (((v.table 9).ver k).refs = 0 ∧ (v.table 9).slotState k ≠ 3)) &&
        !v.modelNames 0 9 && decide ((v.table 9).lock = none))) &&
     (let b := pkt 0x42 0 [(8, 2, 4), (0xC, 1, 1), (0xD, 1, 3), (0xE, 1, 3)]
      atOnce device ctxSelectRow b (fun v => ownerOk b (some 0) && decide (v.slotOwner 3 3 = some 0) && decide (v.model 0 4 = some model4) &&
        decide (0 < model4.entries.length) && (v.slot 3 3).st == .ready)) &&
     atOnce device ctxQueryRow (pkt 0x44 255 [(9, 1, 3)]) yes) = true := by decide +kernel

/-- witness of CommandsThatRunBegin: device, den, Warren, maintenance and firmware commands -/
theorem test_commands_begin :
    (begins device profileWriteRow (pkt 4 255 [(8, 1, 3), (0x10, 8, 64)]) yes &&
     begins { device with pcie := { device.pcie with retHeld := 1 } } scrubRow (pkt 6 255 []) (fun w => w.pcie.retHeld != 0) &&
     begins device probeRow (pkt 7 0 [(0x10, 8, 2 ^ 54 - 1)]) yes &&
     begins device configTilesRow (pkt 0x11 0 [(8, 1, 0), (0x10, 32, 2 ^ 255 + 1)]) (fun w => decide (w.tilesRefusal 0 (2 ^ 255 + 1) = 0)) &&
     begins device configHbmRow (pkt 0x11 0 [(8, 1, 1)]) yes &&
     begins device configWaysRow (pkt 0x11 0 [(8, 1, 2), (0x10, 2, 1), (0x12, 2, 2), (0x14, 2, 0x8000)])
       (fun w => decide (w.waysRefusal 0 1 2 0x8000 = none)) &&
     begins device configMioterRow (pkt 0x11 0 [(8, 1, 3), (0x10, 2, 1), (0x18, 8, 2 ^ 63)]) (fun w => decide (w.mioterRefusal 0 1 (2 ^ 63) = 0)) &&
     begins device denDestroyRow (pkt 0x13 0 []) yes &&
     (let b := pkt 0x16 0 [(0x10, 16, leNat (List.replicate 16 (1 : Byte))), (0x20, 8, 64), (0x28, 4, 1)]
      begins { device with pcie := { device.pcie with retHeld := 1 } } attachRow b (fun w => !w.attachBlocked 0 &&
        (w.den 0).token == sliceB b 0x10 16 && w.pcie.retHeld.getLsbD 0))) = true ∧
    (begins { device with fab := { device.fab with role := 2 } } surveyRow (pkt 0x53 255 []) (fun w => decide (w.fab.role = 2 ∧ w.fab.survey = none)) &&
     begins up marginRow (pkt 0x60 255 [(8, 1, 0x80), (9, 1, 31)]) (fun w => !w.stripesHeld && w.pcie.retHeld == 0) &&
     begins { device with tiles := [(255, { fenced := true })] } (tileRow 0x62) (pkt 0x62 255 [(8, 1, 255)])
       (fun w => (w.tile 255).fenced && w.ldg.canHold 6 (unfenceRecord 255)) &&
     begins device ledgerReadRow (pkt 0x63 255 [(8, 4, 33554431), (0xC, 4, 1)]) yes &&
     begins device diagRow (pkt 0x64 255 [(8, 1, 0), (9, 1, 255)]) (fun w => !w.unitInUse 0 255) &&
     begins device tagReadRow (pkt 0x65 255 [(8, 2, 2047), (0xA, 2, 1)]) (fun w => !w.tag.rf) &&
     begins { device with tag := { device.tag with rf := true } } tagReadRow (pkt 0x65 255 [(8, 2, 1983), (0xA, 2, 1)]) (fun w => w.tag.rf) &&
     begins device fwStageRow (pkt 0x70 255 [(0x10, 8, 64), (0x18, 4, 256)]) yes &&
     begins device fwStageRow (pkt 0x70 255 [(0x18, 4, 256)]) (fun w => decide (w.ser.ep1 = none))) = true ∧
    (let b := pkt 5 255 []
     takes (onUsb up b) devHushRow .usb b = true ∧ ((onUsb up b).takeCmd .usb).mayHush = true ∧
     takes (onUsb device b) devHushRow .usb b = true ∧ ((onUsb device b).takeCmd .usb).mayHush = false) := by decide +kernel

/-- witness of CommandsThatRunBegin: model, table and Mioter commands -/
theorem test_den_commands_begin :
    (let b := pkt 0x20 0 [(8, 2, 255), (0x18, 4, 256)]
     begins device modelLoadRow b (fun w => decide (w.loadRefusal b = none))) = true ∧
    begins device tableCreateRow (pkt 0x30 0 []) yes = true ∧
    (let b := pkt 0x33 0 [(8, 1, 1), (9, 1, 3), (0xC, 4, 1000000), (0x10, 2, 9)]
     begins { device with fab := { device.fab with role := 2 } } switchWarrenRow b (fun w => decide (w.warrenRefusal .usb b = none))) = true ∧
    [0, 64].all (fun a =>
      let b := pkt 0x34 0 [(8, 2, 9), (0x10, 8, a)]
      begins device tableQueryRow b (fun w => decide (w.tableRefusal b = none))) = true ∧
    (let b := pkt 0x40 0 [(8, 1, 63), (0x18, 4, 256)]
     begins device ctxStoreRow b (fun w => decide (w.storeRefusal b = none))) = true ∧
    (let b := pkt 0x41 0 [(8, 1, 63), (9, 1, 3), (0xA, 1, 3)]
     begins device ctxLoadRow b (fun w => decide (w.ctxLoadRefusal b = none))) = true ∧
    (let b := pkt 0x43 0 [(9, 1, 3), (0xA, 1, 3)]
     begins device ctxFreeRow b (fun w => decide (w.freeRefusal b = none))) = true := by decide +kernel

/-- The first 28 bytes of a profile with the settings of the default profile. RETAIN_TIMEOUT is such that the accumulator of the
CRC is 0 behind it. -/
def profileStart : Bytes :=
  desc 28 [(0, 4, 0x464F5250), (4, 2, 1), (8, 2, 600), (0xA, 2, 1800), (0xE, 1, 0xFF), (0xF, 1, 12), (0x18, 4, 0x8878FAC9)]

/-- That profile: its 8,192 bytes. -/
def stored : Bytes := profileStart ++ List.replicate 8160 0 ++ List.replicate 4 0xFF

/-- Cells that hold bytes from an address on. -/
def cells (a : Nat) (b : Bytes) : List Host.Cell :=
  match b with
  | [] => []
  | x :: rest => (a, x) :: cells (a + 1) rest

theorem mget_cells (d : Byte) (b : Bytes) (a j : Nat) : mget d (cells a b) (a + j) = b.getD j d := by
  induction b generalizing a j with
  | nil => simp [cells, mget]
  | cons x rest ih =>
    cases j with
    | zero => simp [cells, mget]
    | succ j =>
      have h := ih (a + 1) j
      rw [show a + 1 + j = a + (j + 1) by omega] at h
      simp [cells, mget, h]

theorem mget_cells_below (d : Byte) (b : Bytes) (a j : Nat) (h : j < a) : mget d (cells a b) j = d := by
  induction b generalizing a with
  | nil => simp [cells, mget]
  | cons x rest ih => simp [cells, mget, ih (a + 1) (by omega), show a ≠ j by omega]

/-- A Ledger whose sector 210 holds `b` as profile 0. -/
def holding (b : Bytes) : Ledger := { profSector := some 210, flash := cells (secAt 210 + 0x1000) b }

theorem stored_length : stored.length = 8192 := by
  have h : profileStart.length = 28 := by decide +kernel
  simp [stored, h, -List.reduceReplicate]

theorem stored_zero (j : Nat) (h : 28 ≤ j) (h' : j < 0x1FFC) : stored.getD j 0 = 0 := by
  have e : profileStart.length = 28 := by decide +kernel
  rw [List.getD_eq_getElem?_getD, stored, List.getElem?_append_left (by simp only [List.length_append, List.length_replicate, e]; omega),
    List.getElem?_append_right (by omega), List.getElem?_replicate]
  split <;> rfl

theorem stored_slice_zero (i n : Nat) (h : 28 ≤ i) (h' : i + n ≤ 0x1FFC) : allZero (sliceB stored i n) = true := by
  simp only [allZero, sliceB, List.all_eq_true, List.mem_map, List.mem_range, decide_eq_true_eq]
  rintro x ⟨k, hk, rfl⟩
  exact stored_zero _ (by omega) (by omega)

theorem crcUpdate_zeros (n : Nat) : crcUpdate 0 (List.replicate n 0) = 0 := by
  induction n with
  | zero => rfl
  | succ n ih => simpa [crcUpdate, List.replicate_succ, show crcBits 8 0#32 = 0 by decide] using ih

theorem stored_crc : profileCrcOk stored = true := by
  have e : profileStart.length = 28 := by decide +kernel
  have h : crcUpdate 0xFFFFFFFF#32 profileStart = 0 := by decide +kernel
  have g (k : Nat) (hk : k < 4) : stored.getD (0x1FFC + k) 0 = 0xFF := by
    rw [List.getD_eq_getElem?_getD, stored, List.getElem?_append_right (by simp only [List.length_append, List.length_replicate, e]; omega)]
    simp only [List.length_append, List.length_replicate, e, List.getElem?_replicate]
    rw [if_pos (by omega)]
    rfl
  have f : fld stored 0x1FFC 4 = 0xFFFFFFFF := by
    rw [fld, sliceB, show List.range 4 = [0, 1, 2, 3] from rfl]
    simp only [List.map_cons, List.map_nil, g 0 (by omega), g 1 (by omega), g 2 (by omega), g 3 (by omega)]
    decide
  have z : stored.take 0x1FFC = profileStart ++ List.replicate 8160 0 := by
    rw [stored, List.take_left' (by simp only [List.length_append, List.length_replicate, e])]
  have c : crcUpdate 0xFFFFFFFF#32 (profileStart ++ List.replicate 8160 0) = 0 := by
    rw [crcUpdate, List.foldl_append]
    change crcUpdate (crcUpdate 0xFFFFFFFF#32 profileStart) _ = 0
    rw [h, crcUpdate_zeros]
  simp only [profileCrcOk, f, z, crc32c, c]
  decide

/-- witness of CommandsThatEndAtOnce and CommandsThatRunBegin: a valid profile, for PROFILE_SET SELECT and PROFILE_GET -/
theorem test_stored_profile :
    (holding stored).profBytes 0 = some stored ∧ (holding stored).profOk 0 = true ∧ (holding stored).profilesWorn = false := by
  have h : (holding stored).profBytes 0 = some stored := by
    have m : (holding stored).read (secAt 210 + 0x44) 4 = [0xFF, 0xFF, 0xFF, 0xFF] := by
      simp [Ledger.read, Ledger.get, holding, List.range_succ, mget_cells_below, secAt]
    have r : (holding stored).read (secAt 210 + 0x1000) 8192 = stored := by
      apply List.ext_getElem
      · simp [Ledger.read, stored_length]
      · intro i h1 h2
        simp [Ledger.read, Ledger.get, holding, mget_cells, List.getD_eq_getElem?_getD, List.getElem?_eq_getElem h2]
    simp only [Ledger.profBytes, show (holding stored).profSector = some 210 from rfl, m, Nat.mul_zero, Nat.add_zero, r]
    rw [if_pos (by decide)]
  refine ⟨h, ?_, by decide +kernel⟩
  have n : fld stored 7 1 = 0 := by decide +kernel
  have d : profileDens stored = [] := by simp [profileDens, n]
  have z1 := stored_slice_zero 0x1C 100 (by omega) (by omega)
  have z2 := stored_slice_zero 0x80 (0x1FFC - 0x80) (by omega) (by omega)
  simp only [Ledger.profOk, h, stored_crc, profileFieldsOk, n, d, z1, Nat.mul_zero, Nat.add_zero, z2]
  decide +kernel

/-- witness of CommandsThatEndAtOnce and CommandsThatRunBegin: the packets of PROFILE_SET SELECT and PROFILE_GET -/
theorem test_profile_packets :
    takes (onUsb device (pkt 4 255 [(9, 1, 1)])) profileSelectRow .usb (pkt 4 255 [(9, 1, 1)]) = true ∧
    takes (onUsb device (pkt 3 255 [(0x10, 8, 64)])) profileGetRow .usb (pkt 3 255 [(0x10, 8, 64)]) = true := by decide +kernel

/-- Command 1 runs on `device` with the packet `b`, what it read having arrived. -/
def runs (b : Bytes) (fail : Option Nat) : State :=
  { device with cp := { device.cp with running := [{ id := 1, pkt := b, got := true, fail := fail }] } }

/-- witness of RunningCommandsEnd: one command of each row that COMMAND_DONE ends, one whose read failed, and a CTX_LOAD -/
theorem test_running_commands :
    [pkt 4 255 [], pkt 6 255 [], pkt 7 0 [], pkt 0x11 0 [(8, 1, 1)], pkt 0x11 0 [], pkt 0x13 0 [], pkt 0x20 0 [], pkt 0x30 0 [], pkt 0x40 0 [],
     pkt 0x60 255 [], pkt 0x62 255 [], pkt 0x64 255 [], pkt 0x70 255 []].all (fun b =>
       let s := runs b none
       (s.cmd 1).any (fun c => c.pkt == b && c.got && decide (c.fail = none ∧ c.stage ≠ 9)) && s.hub) = true ∧
    ((runs (pkt 0x11 0 []) none).den 0).leaving = 0 ∧
    ((runs (pkt 0x30 0 []) (some 0x0C)).cmd 1).any (fun c => decide (c.fail = some 0x0C) && !([0x07, 0x16, 0x40].contains (cOp c.pkt))) = true ∧
    (let s := (runs (pkt 0x41 0 [(8, 1, 63), (9, 1, 3), (0xA, 1, 3)]) none).modQuad 3 (fun x => { x with loading := some (3, 1) })
     (s.quad 3).loading = some (3, 1) ∧ ((s.loadBegin 3).slot 3 3).st = .loading ∧ ((s.loadBegin 3).cmd 1).isSome = true) := by decide +kernel

/-- 15 R482, by hand: an undefined opcode, a bad DEN, a VF's profile command, and a reserved byte -/
theorem test_refusals :
    device.cmdRefusal nopRow .usb (pkt 0x7F 255 []) = some { status := 2 } ∧ device.cmdRefusal (plainRow 1) .usb (pkt 1 0 []) = some { status := 3, detail := 4 } ∧
    device.cmdRefusal profileGetRow (.ring 1 0) (pkt 3 255 []) = some { status := 5 } ∧
    device.cmdRefusal (plainRow 1) .usb (pkt 1 255 [(0x20, 1, 1)]) = some { status := 3, detail := 8 } ∧
    device.cmdRefusal denResumeRow .usb (pkt 0x14 3 []) = some { status := 6 } := by decide +kernel

/-! ### The host -/

/-- VF 32 with its ring `id` as `r`, and its den 31 ACTIVE. -/
def vf (id : Nat) (r : Ring) : State :=
  { up with dens := [(31, { st := .active, hbm := [(18431, 1)], tiles := 2 ^ 255 })],
            pcie := { up.pcie with fns := [(32, { bme := true })], rings := [(32 * 32 + id, r)] } }

/-- witness of HostDoorbells: inline, tail and head doorbells, accepted and refused, of a VF's and the PF's rings -/
theorem test_doorbells :
    [(0, 0), (7 * 2048, 7), (8 * 2048, 16), (15 * 2048, 23), (16 * 2048, 25), (17 * 2048, 26)].all (fun p =>
      let s := vf p.2 { en := true, tail := 15, entries := List.replicate 15 (.held [] true) }
      let f := vf p.2 { en := true, tail := 16, entries := List.replicate 16 (.held [] true) }
      s.winUp 32 && decide (dbArea 32 p.1 = .inline p.2) && !(s.dbOff 32 p.2) && decide ((s.ring (32 * 32 + p.2)).used < (s.ring (32 * 32 + p.2)).n) &&
      decide (inlineHeld (s.ring (32 * 32 + p.2)) < 16) && decide ((f.ring (32 * 32 + p.2)).n ≤ (f.ring (32 * 32 + p.2)).used) &&
      (vf p.2 {}).dbOff 32 p.2 && decide (dbArea 32 (p.1 + 0x40) = .tail p.2)) = true ∧
    (let s := vf 0 { en := true, log2n := 5, tail := 16, entries := List.replicate 16 (.held [] true) }
     (s.ring 1024).used < (s.ring 1024).n ∧ 16 ≤ inlineHeld (s.ring 1024)) ∧
    (let s := vf 0 { en := true, tail := 0xFFFFFFFF, head := 0xFFFFFFFF }
     ((15#32) - (s.ring 1024).tail).toNat ≤ (s.ring 1024).n - (s.ring 1024).used ∧
     (s.ring 1024).n - (s.ring 1024).used < ((16#32) - (s.ring 1024).tail).toNat) ∧
    [(0x48, 8), (7 * 2048 + 0x48, 15), (16 * 2048 + 0x48, 27), (17 * 2048 + 0x48, 28), (18 * 2048 + 0x48, 24), (18 * 2048 + 0x50, 29)].all (fun p =>
      let s := vf p.2 { en := true, head := 4, tail := 9 }
      decide (dbArea 32 p.1 = .head p.2) && !(s.dbOff 32 p.2) && decide (((9#32) - (s.ring (1024 + p.2)).head).toNat ≤ (s.ring (1024 + p.2)).used) &&
      decide ((s.ring (1024 + p.2)).used < ((10#32) - (s.ring (1024 + p.2)).head).toNat)) = true ∧
    dbArea 32 (19 * 2048) = .hole ∧ dbArea 0 (8 * 2048) = .hole := by decide +kernel

/-- witness of RegisterAccesses: a register, a ring's configuration, a counter, offsets without a register, vectors and a write-back -/
theorem test_registers :
    (let s := vf 29 {}
     s.winUp 32 = true ∧ sizeOk 0x10740 8 = true ∧ (s.ctrlReg 32 0x10740 0).isSome = true ∧ ringCfgAt 32 0x10740 = false ∧ sizeOk 0 2 = false) ∧
    (sizeOk 0x10008 4 = true ∧ ringCfgAt 32 0x10008 = true ∧ ((vf 0 {}).ctrlReg 32 0x10008 0).isSome = true) ∧
    ((vf 0 {}).ctrlReg 32 0x1FFF8 0 = none ∧ ringCfgAt 32 0x1FFF8 = false ∧ (vf 0 {}).readRefusal 32 0x1FFF8 8 = some 0x0201 ∧
     (vf 0 {}).readRefusal 32 0x10008 2 = some 0x0202) ∧
    ((List.range 0x2000).any (fun i => lowHalfAt 32 (8 * i) && ((vf 0 {}).ctrlReg 32 (8 * i) 0).isSome)) = true ∧
    (23 < vectors 32 ∧ 63 < vectors 0 ∧ ((vf 0 {}).fn 32).bme = true ∧
     (mget ({} : MsixEntry) ((vf 0 {}).modFn 32 (fun f => { f with msix := [(23, { pending := true })] }) |>.fn 32).msix 23).pending = true ∧
     (mget ({} : MsixEntry) ((vf 0 {}).fn 32).msix 23).pending = false) ∧
    ((vf 26 { wbDue := true }).ring 1050).wbDue = true := by decide +kernel

/-- witness of RegisterAccesses, the enable bit of a ring: each of its cases, for a whole and a half write -/
theorem test_ring_enable :
    (let x : RegW := regW 0 8 [1, 5, 0, 0]
     x.bit 0 = true ∧ x.fld 8 5 = 5 ∧ ((vf 7 {}).ring (32 * 32 + 7)).en = false ∧ ((vf 7 { en := true }).ring (32 * 32 + 7)).en = true) ∧
    (let x : RegW := regW 1 8 [0, 0, 0, 0]
     x.bit 0 = false ∧ reservable 24 = true ∧ reservable 7 = false ∧ ((vf 24 { en := true, rsvd := 1 }).ring (32 * 32 + 24)).rsvd ≠ 0) ∧
    goes (exec (.ringCfgWrite 32 (0x10008 + 64 * 7) [1, 5, 0, 0]) (vf 7 { tail := 3 }))
      (fun u => (u.ring 1031).en && (u.ring 1031).log2n == 5 && (u.ring 1031).tail == 0) = true ∧
    goes (exec (.inlineDoorbell 32 (7 * 2048) (List.replicate 64 9)) (vf 7 { en := true }))
      (fun u => (u.ring 1031).tail == 1 && (u.ring 1031).entries == [.held (List.replicate 64 9) true]) = true := by decide +kernel

/-- witness of DevmemAccesses: the last bytes of a stripe and of a tile's SRAM, an address that is not the VF's, and a hole -/
theorem test_devmem :
    (let s := vf 0 {}
     s.winUp 32 = true ∧
     (List.range 3).all (fun i => s.devmemFits 32 (4096 * i + 4088) 8) = true ∧
     s.devmemAt 32 (0x80000000 + 16777208) = .mapped (18431 * 16777216 + 16777208) ∧ s.devmemAt 32 (0x80000000 + 16777216) = .denied ∧
     s.devmemAt 32 0x7FFFFFF8 = .mapped (sramBase + 256 * 4194304 - 8) ∧ s.devmemAt 32 0x20000000 = .hole ∧ s.devmemAt 32 0 = .denied) ∧
    up.devmemAt 0 0x80000000 = .mapped 0 ∧ up.devmemAt 0 0 = .hole := by decide +kernel

/-- Host read 4095 of VF 32 by `i`. -/
def readingHost (i : Issuer) : State := { vf 0 { en := true } with pcie := { (vf 0 { en := true }).pcie with
  reads := [{ tag := 4095, fn := 32, issuer := i, len := 64, total := 64 }] } }

/-- A translation that VF 32 waits for. -/
def translating (w : Bool) : State := { vf 0 {} with pcie := { (vf 0 {}).pcie with
  xlate := [{ fn := 32, addr := 0x1FFF, len := 1, total := 1, write := w, data := [7] }] } }

/-- witness of HostAnswers and FunctionControl -/
theorem test_answers_and_functions :
    (let s := readingHost (.ring 1024 0 1)
     s.asleep = false ∧ (s.pcie.reads.find? (fun x => x.tag == 4095)).any (fun r => !r.discard && !r.late) = true ∧ s.readsRing 4095 = true) ∧
    [true, false].all (fun w => ((translating w).pcie.xlate.find? (fun y => y.fn == 32 && decide (y.addr / 4096 = 0x1ABC / 4096))).any
      (fun x => x.write == w)) = true ∧
    (let s := vf 0 {}
     s.edgeUp 32 = true ∧ s.edgeUp 0 = true ∧ State.edgeUp { s with pcie := s.pcie.configure {} } 32 = true ∧ (s.den 31).scrub = false ∧
     (({ s with pcie := { s.pcie with fns := [(32, { draining := true, ats := true })] } }.fn 32).draining = true) ∧
     (({ s with pcie := { s.pcie with fns := [(32, { draining := true, ats := true })] } }.fn 32).ats = true)) := by decide +kernel

/-! ### Resets, RETAIN, watchdogs and the fault log -/

/-- `up` in the phase `p`, with RETAIN armed by its profile when `r`. -/
def phase (p : BootPhase) (r : Bool) : State :=
  { up with boot := { up.boot with phase := p, graceFault := some (0x0804, 4), prof := { up.boot.prof with retain := r } } }

/-- A fuller device of this phase, whose units have passed. -/
def cold (units : W64) : State :=
  { phase .cold false with boot := { (phase .cold false).boot with slices := units, engines := 0xFFFFFFFF, tilesOk := 1 } }

/-- witness of FullResets, BringUp, RetainedDevice and WatchdogAndDenFaults -/
theorem test_resets :
    (up.pwr.st ≠ .off ∧ up.tap.owned = false ∧ up.hub = true) ∧
    [BootPhase.edge, .cold2, .warm].all (fun p => let s := phase p true
                                                  !s.pcie.perst && decide (s.boot.phase = p ∧ s.boot.mode ≠ 3)) = true ∧
    (let s := { up with pcie := { up.pcie with perst := true } }
     s.pcie.perst = true ∧ s.pwr.st ≠ .off ∧ s.boot.mode ≠ 3) ∧
    [true, false].all (fun r => let s := phase .complete r
                                decide (s.boot.phase = .complete ∧ s.boot.prof.retain = r ∧ s.pwr.st = .active) && s.pcie.linkUp && s.hub &&
                                decide (s.boot.graceFault = some (0x0804, 4))) = true ∧
    (let s := { up with pwr := { up.pwr with st := .retain }, pcie := { up.pcie with retTo := 1, retHeld := 0x80000000 } }
     s.hub = true ∧ s.pwr.st = .retain ∧ s.pcie.retTo ≠ 0) ∧
    ({ up with tim := { up.tim with cpSt := .running } }.tim.cpSt = .running ∧ { up with tim := { up.tim with cpSt := .grace } }.tim.cpSt = .grace) ∧
    ((device.den 0).st ≠ .free ∧ (device.table 9).present = true ∧ (device.table 9).den = 0 ∧ inRanges (device.den 0).hbm (16777215 / 16777216) = true) := by
  decide +kernel

/-- witness of BringUp, the journal reading: units that suffice and units that do not, and a mode that was chosen before -/
theorem test_journal_reading :
    [(0xFFFF, 0), (0x7FFF, 1)].all (fun p =>
      let s := cold (BitVec.ofNat 64 p.1)
      decide (s.boot.phase = .cold ∧ s.wholeJournal.boot.mode = 0) && s.boot.cpUp &&
      (let w := State.repairRows { s.wholeJournal with boot := { s.wholeJournal.boot with phase := .cold2 } }
       !w.boot.prof.margin && decide (w.shortOf = p.2))) = true := by decide +kernel

/-- The fault log at its last place, with an entry of Warren time 0, at time `w`. -/
def logged (w : W64) : State :=
  { up with wtime := w, err := { up.err with wptr := 1023, seq := 7, log := [(1022, { seq := 7, cls := 3, cause := 0x0204, loc := 5, count := 1 })],
                                             lastEcc := [(65536 * 0x0102, some 0)] } }

/-- witness of FaultLog: within the window, at its end, and behind it -/
theorem test_fault_log :
    (logged 250000).coalesces 3 0x0204 5 = true ∧ (logged 250001).coalesces 3 0x0204 5 = false ∧ (logged 250001).eccQuiet 0x0204 5 = false ∧
    (logged 250000000).coalesces 1 0x0102 0 = false ∧ (logged 250000000).eccQuiet 0x0102 0 = true ∧ (logged 250000001).eccQuiet 0x0102 0 = false ∧
    (let u := (logged 250001).logCore 3 0x0204 5
     u.err.wptr = 0 ∧ u.err.seq = 8 ∧ (mget ({} : LogEntry) u.err.log 1023).count = 1) ∧
    (let u := (logged 250000).logCore 3 0x0204 5
     u.err.wptr = 1023 ∧ (mget ({} : LogEntry) u.err.log 1022).count = 2) := by decide +kernel

/-! ### The slow interfaces -/

/-- A UART_MGT message of type `ty` for address 5. -/
def mgt (ty : Nat) : Bytes :=
  let h := [5, 9] ++ toLe 1 ty ++ [0]
  h ++ toLe 4 (crc32c h).toNat

/-- `up` with the serial state `x`. -/
def serial (x : Serial) : State := { up with ser := x }

/-- witness of ManagementBus: a good message of each kind, a bad one, an ALERT that is due, and a message that loses the line 15 and 16
times -/
theorem test_management_bus :
    (let s := serial { mgtAddr := 5 }
     s.mgtHears 5 = true ∧ s.mgtOn = true ∧
     [1, 3, 5].all (fun ty => gDst (mgt ty) == 5 && gType (mgt ty) == ty && gLen (mgt ty) == 0 && mgtWhole (mgt ty) &&
       !(mgtWhole (patchB (mgt ty) 4 [(mgt ty).getD 4 0 + 1]))) = true) ∧
    (let s := serial { mgtAddr := 5, alertDst := 0xFE, alertLast := 0xFFFF }
     s.ser.alertDst ≠ 0xFF ∧ s.alertWord ≠ s.ser.alertLast) ∧
    [15, 16].all (fun n => let s := serial { mgtAddr := 5, mgtQ := [{ losses := n }], mgtHold := true }
                           s.mgtOn && s.ser.mgtHold) = true ∧
    goes (exec (.ping (mgt 1)) (serial { mgtAddr := 5 })) (fun u => u.ser.rxOk == 1 && u.ser.mgtQ.map MgtMsg.ty == [0x81] && u.ser.mgtQ.map MgtMsg.dst == [9]) = true := by
  decide +kernel

/-- witness of ManagementEndpoints: both endpoints, each number at the ends of its range -/
theorem test_endpoints :
    up.aonUp = true ∧ up.endpointUp false = true ∧ up.endpointUp true = true ∧ pldmType 0 = true ∧ pldmType 2 = true ∧ pldmType 1 = false ∧
    (List.range 19).map (fun i => (up.sensor i).isSome) =
      [false, true, true, true, true, true, true, true, true, true, true, true, true, true, false, false, true, true, true] ∧
    (List.range 17).filter (fun i => (up.stateSensor i).isSome) = [14, 15] ∧
    goes (exec (.setEndpointId true [0, 8]) up) (fun u => u.ser.vdmEid == 8 && u.ser.eid == 0) = true ∧
    goes (exec (.setEndpointId false [0, 0xFF]) up) (fun u => u.ser.eid == 0) = true := by decide +kernel

/-- witness of ServicePorts and UsbGetReply: the UART's frames and settings, USB commands, replies and transfers -/
theorem test_service_ports :
    (let s := serial {}
     s.uartOn = true ∧ s.ser.rx = [] ∧ s.ser.uartBusy = false ∧ lenBad 2 32 = false ∧ lenBad 2 33 = true) ∧
    [(1200, 4, true), (6250000, 255, true), (1199, 4, false), (6250001, 4, false), (1200, 3, false)].all (fun p =>
      cfgOk (toLe 4 p.1 ++ [1] ++ toLe 1 p.2.1 ++ [0, 0]) == p.2.2) = true ∧
    (let s := serial { usbAttached := true, usbHeld := some (7, [1]) }
     s.ser.usbAttached = true ∧ (s.wakeReq 6).svcStart.usbServed = true ∧ (s.wakeReq 6).svcStart.ser.usbRun = none ∧
     (s.wakeReq 6).svcStart.ser.usbHeld = some (7, [1]) ∧ setupKnown (List.replicate 8 0) = false) ∧
    (let s := serial { usbAttached := true, usbRun := some 7 }
     (s.wakeReq 6).svcStart.ser.usbRun = some 7) ∧
    (let s := { serial { usbAttached := true } with boot := { up.boot with phase := .warm } }
     (s.wakeReq 6).svcStart.usbServed = false) ∧
    [(false, 64, 0), (false, 63, 0), (true, 0, 65)].all (fun p =>
      let s := serial { usbAttached := true, ep1 := some { out := p.1, data := List.replicate p.2.1 0, want := p.2.2 } }
      s.usbServed && s.ser.usbAttached && s.ep1Size == 64 && s.ser.ep1.isSome) = true := by decide +kernel

/-- 19 R631, R650: a CMD frame is taken; GET_REPLY returns the held reply, and stalls for another TAG -/
theorem test_service_results :
    goes (exec (.uartCmdFrame (uartBytes 1 (pkt 0 255 []))) (serial {})) (fun u => u.cp.uartIn == some (pkt 0 255 []) && u.ser.frames == 1) = true ∧
    goes (exec (.uartCmdFrame (uartBytes 9 [])) (serial {})) (fun u => u.out == [.uart 5 [3]]) = true ∧
    goes (exec (.getReply 7) (serial { usbAttached := true, usbHeld := some (7, [1]) })) (fun u => u.out == [.usb [1] false]) = true ∧
    goes (exec (.getReply 8) (serial { usbAttached := true, usbHeld := some (7, [1]) })) (fun u => u.out == [.usb [] true]) = true := by
  decide +kernel

/-! ### The Ledger, the Service tag and JTAG -/

/-- A device with one record queued, the head of the journal at `off`. -/
def journal (off : Nat) : State :=
  { up with ldg := { headSector := 100, headOff := off, order := [100], readDone := true, queue := [{ ty := 0x0F, payload := List.replicate 12 1 }] } }

/-- witness of LedgerAndTag -/
theorem test_ledger_and_tag :
    ((journal 0x40).ldg.queue.any (journal 0x40).ldg.fits = true ∧ (journal 65532).needsSector = true ∧ (journal 0x40).needsSector = false) ∧
    (up.tag.quiet = false ∧ up.tag.rf = false ∧ up.aonUp = true ∧ up.tag.ackHeld = false) ∧
    (let s := { up with tag := { up.tag with rf := true, quiet := true, pending := some [] } }
     s.tag.rf = true ∧ s.tag.quiet = true ∧ s.tag.pending.isSome = true) := by decide +kernel

/-- A tag whose technician area begins with four bytes of ones and holds its CRC. -/
def goodTag : Tag := { mem := memWrite (memWrite [] 0x1F00 [0xFF, 0xFF, 0xFF, 0xFF]) 0x1FFC [0xFF, 0xFF, 0xFF, 0xFF] }

theorem crc_ones (n : Nat) : crc32c ([0xFF, 0xFF, 0xFF, 0xFF] ++ List.replicate n 0) = 0xFFFFFFFF#32 := by
  have h : crcUpdate 0xFFFFFFFF#32 [0xFF, 0xFF, 0xFF, 0xFF] = 0 := by decide +kernel
  rw [crc32c, crcUpdate, List.foldl_append]
  change ~~~(crcUpdate (crcUpdate 0xFFFFFFFF#32 [0xFF, 0xFF, 0xFF, 0xFF]) _) = _
  rw [h, crcUpdate_zeros]
  decide

/-- witness of LedgerAndTag, TECH_AREA_CHECK: an area whose CRC matches, and one whose CRC does not -/
theorem test_technician_area :
    (crc32c (memRead goodTag.mem 0x1F00 252)).toNat = fld (memRead goodTag.mem 0x1FFC 4) 0 4 ∧
    (crc32c (memRead (memWrite goodTag.mem 0x1FFC [0]) 0x1F00 252)).toNat ≠ fld (memRead (memWrite goodTag.mem 0x1FFC [0]) 0x1FFC 4) 0 4 := by
  have a : memRead goodTag.mem 0x1F00 252 = [0xFF, 0xFF, 0xFF, 0xFF] ++ List.replicate 248 0 := by decide +kernel
  have b : memRead (memWrite goodTag.mem 0x1FFC [0]) 0x1F00 252 = [0xFF, 0xFF, 0xFF, 0xFF] ++ List.replicate 248 0 := by decide +kernel
  rw [a, b, crc_ones]
  decide +kernel

/-- 21 R685, R710: a record is programmed at the head; the answer of INVENTORY; a write outside the technician area is refused -/
theorem test_ledger_results :
    goes (exec .ledgerCommit (journal 0x40)) (fun u => u.ldg.queue.isEmpty && u.ldg.headSeq == 1 && decide (0x40 < u.ldg.headOff)) = true ∧
    goes (exec .inventory up) (fun u => u.tag.rf && u.out == [.rf [0, 0, 0, 0, 0, 0, 0, 0, 0, 0xE0]]) = true ∧
    goes (exec (.extendedWriteSingle 1984 [1, 2, 3, 4]) up) (fun u => memRead u.tag.mem 7936 4 == [1, 2, 3, 4]) = true ∧
    goes (exec (.extendedWriteSingle 1983 [1, 2, 3, 4]) up) (fun u => u.out == [.rf [1, 0x12]]) = true := by decide +kernel

/-- witness of JtagInstructions; 23 R756: IDCODE's value -/
theorem test_jtag :
    (let s := { up with err := { up.err with jtagRd := true } }
     s.aonUp = true ∧ s.err.jtagRd = true ∧ s.hub = true ∧ (0x3FFFFF8 : Nat) % 8 = 0) ∧ up.err.jtagRd = false ∧
    goes (exec .idcode up) (fun u => u.out == [.jtag 0x1D0605AB]) = true := by decide +kernel

end Sys2Proof.Tests
end

section
/-!
Accesses to the CTRL windows (00 R14 to R21), the configuration of rings (14 R440, R474), MSI-X (R453) and HEAD write-backs (R446).

A window that serves answers at once, so each command is one of the model's operations on the state: `ctrlWrite`, `lowRead`,
`refusedRead`, `unmask`, `writeBack`. What each of these does is said once here, and so are the effect of RING_CFG on the rings
and the bits that a write merges.
-/

namespace Sys2Proof.Machine

/-! ### The commands of a window that serves -/

section Serving
variable {s : State} {fn : Nat} (up : s.winUp fn = true)
include up

theorem exec_ringCfgWrite_serves {off : Nat} {data : Bytes} (cfg : ringCfgAt fn off = true) (size : sizeOk off data.length = true) :
    exec (.ringCfgWrite fn off data) s = .next (s.ctrlWrite fn off data) := by
  change execRingCfgWrite fn off data s = _
  rw [execRingCfgWrite, if_pos ⟨cfg, size⟩, State.memWrite_serves up]

theorem exec_regWrite_serves {off : Nat} {data : Bytes} (other : ringCfgAt fn off = false ∨ sizeOk off data.length = false) :
    exec (.regWrite fn off data) s = .next (s.ctrlWrite fn off data) := by
  change execRegWrite fn off data s = _
  rw [execRegWrite, if_neg (by rintro ⟨cfg, size⟩; simp [cfg, size] at other), State.memWrite_serves up]

theorem exec_counterLowRead_serves {off : Nat} (low : lowHalfAt fn off = true) :
    exec (.counterLowRead fn off) s = .next (s.lowRead fn off) := by
  change execCounterLowRead fn off s = _
  rw [execCounterLowRead, if_pos low, State.memRead_serves up]

theorem exec_refusedRead_serves {off len c : Nat} (refusal : s.readRefusal fn off len = some c) :
    exec (.refusedRead fn off len) s = .next ((s.accessFault c fn 0 off).emit (.regData fn 0)) := by
  change execRefusedRead fn off len s = _
  rw [execRefusedRead, if_pos (by rw [refusal]; rfl), State.memRead_serves up, State.refusedRead, refusal]

theorem exec_msixUnmask_serves {v : Nat} (vec : v < vectors fn) : exec (.msixUnmask fn v) s = .next (s.unmask fn v) := by
  change execMsixUnmask fn v s = _
  rw [execMsixUnmask, if_pos ⟨up, vec⟩]

theorem exec_headWriteBack_serves (k : Nat) : exec (.headWriteBack k) s = .next (s.writeBack k) := by
  change execHeadWriteBack k s = _
  rw [execHeadWriteBack, if_pos (State.winUp_awake up).2]

end Serving

/-! ### What a write, a counter's read, an unmasking and a write-back do -/

theorem State.ctrlWrite_register {s : State} {fn off old : Nat} {data : Bytes} (size : sizeOk off data.length = true)
    (reg : s.ctrlReg fn (off / 8 * 8) 0 = some old) :
    s.ctrlWrite fn off data = s.ctrlPut fn (off / 8 * 8) (regW old off data) := by
  rw [State.ctrlWrite, if_pos size, reg]

theorem State.ctrlWrite_hole {s : State} {fn off : Nat} {data : Bytes} (size : sizeOk off data.length = true)
    (hole : s.ctrlReg fn (off / 8 * 8) 0 = none) : s.ctrlWrite fn off data = s.accessFault 0x0201 fn 0 off := by
  rw [State.ctrlWrite, if_pos size, hole]

theorem State.ctrlWrite_badSize {s : State} {fn off : Nat} {data : Bytes} (size : sizeOk off data.length = false) :
    s.ctrlWrite fn off data = s.accessFault 0x0202 fn 0 off := by
  rw [State.ctrlWrite, if_neg (by simp [size])]

theorem State.lowRead_register {s : State} {fn off v : Nat} (reg : s.ctrlReg fn off 0 = some v) :
    s.lowRead fn off = (s.modFn fn (fun f => { f with shadow := some (off, BitVec.ofNat 32 (v / 2 ^ 32)) })).emit
      (.regData fn (BitVec.ofNat 64 (v % 2 ^ 32))) := by
  rw [State.lowRead, reg]

/-- 14 R453: the message that was kept pending leaves. -/
theorem State.unmask_sends {s : State} {fn v : Nat} (pending : (mget ({} : MsixEntry) (s.fn fn).msix v).pending = true)
    (bme : (s.fn fn).bme = true) :
    let e := mget ({} : MsixEntry) (s.fn fn).msix v
    s.unmask fn v = (s.modFn fn (fun f => { f with msix := mset {} f.msix v { e with masked := false, pending := false } })).emit
      (.msix fn v e.addr e.data) := by
  rw [State.unmask, if_pos ⟨pending, bme⟩]

theorem State.unmask_quiet {s : State} {fn v : Nat}
    (quiet : (mget ({} : MsixEntry) (s.fn fn).msix v).pending = false ∨ (s.fn fn).bme = false) :
    let e := mget ({} : MsixEntry) (s.fn fn).msix v
    s.unmask fn v = s.modFn fn (fun f => { f with msix := mset {} f.msix v { e with masked := false } }) := by
  rw [State.unmask, if_neg (by rintro ⟨pending, bme⟩; rw [pending, bme] at quiet; simp at quiet)]

/-- 14 R446, for the ring `id` of a function. -/
theorem State.writeBack_due {s : State} {fn id : Nat} (hid : id < 32) (due : (s.ring (32 * fn + id)).wbDue = true)
    (bme : (s.fn fn).bme = true) :
    let r := s.ring (32 * fn + id)
    s.writeBack (32 * fn + id) = (s.hostWrite fn r.wb.toNat (toLe 4 r.head.toNat ++ [0, 0, 0, 0])).modRing (32 * fn + id)
      (fun x => { x with wbDue := false }) := by
  have hfn : (32 * fn + id) / 32 = fn := by omega
  rw [State.writeBack, hfn, if_pos ⟨due, bme⟩]

/-! ### RING_CFG (14 R440, R474) -/

/-- Cancelling host reads touches no ring. -/
@[simp] theorem State.cancelReads_ring (s : State) (p : Issuer → Bool) (j : Nat) : (s.cancelReads p).ring j = s.ring j := rfl

section RingCfg
variable {s : State} {fn id : Nat} {x : RegW}

theorem State.ringCfg_of_disabled (off : (s.ring (32 * fn + id)).en = false) :
    s.ringCfg fn id x = s.modRing (32 * fn + id) (fun r =>
      if x.bit 0 then Ring.enable { r with log2n := x.fld 8 5 } else { r with log2n := x.fld 8 5 }) := by
  rw [State.ringCfg, if_neg (by simp [off])]

theorem State.ringCfg_stays (on : (s.ring (32 * fn + id)).en = true) (en : x.bit 0 = true) : s.ringCfg fn id x = s := by
  rw [State.ringCfg, if_pos on, if_pos en]

theorem State.ringCfg_reserved (on : (s.ring (32 * fn + id)).en = true) (en : x.bit 0 = false) (kind : reservable id = true)
    (slots : (s.ring (32 * fn + id)).rsvd ≠ 0) : s.ringCfg fn id x = s.fault 0x0208 (ringLoc fn id 0) := by
  rw [State.ringCfg, if_pos on, if_neg (by simp [en]), if_pos (by simp [kind, slots])]

theorem State.ringCfg_disables (on : (s.ring (32 * fn + id)).en = true) (en : x.bit 0 = false)
    (free : reservable id = false ∨ (s.ring (32 * fn + id)).rsvd = 0) :
    s.ringCfg fn id x = (s.modRing (32 * fn + id) Ring.disable).cancelReads (fun i => i.isRing (32 * fn + id)) := by
  rw [State.ringCfg, if_pos on, if_neg (by simp [en]), if_neg (by rcases free with h | h <;> simp [h])]

/-- Another ring is as before, unless the write is one that is logged as a fault (whose event goes into a ring). -/
theorem State.ringCfg_other_ring (s : State) (fn id : Nat) (x : RegW) {j : Nat} (hj : j ≠ 32 * fn + id) :
    (s.ringCfg fn id x).ring j = s.ring j ∨ (reservable id = true ∧ (s.ring (32 * fn + id)).rsvd ≠ 0) := by
  by_cases reserved : reservable id = true ∧ (s.ring (32 * fn + id)).rsvd ≠ 0
  · exact .inr reserved
  · left
    cases on : (s.ring (32 * fn + id)).en with
    | false => rw [State.ringCfg_of_disabled on, State.modRing_ring, if_neg hj]
    | true =>
      cases en : x.bit 0 with
      | true => rw [State.ringCfg_stays on en]
      | false =>
        have free : reservable id = false ∨ (s.ring (32 * fn + id)).rsvd = 0 := by
          rwa [not_and_or, Bool.not_eq_true, not_not] at reserved
        rw [State.ringCfg_disables on en free, State.cancelReads_ring, State.modRing_ring, if_neg hj]

end RingCfg

/-- A write at RING_CFG's place in ring `id` of a RING block. -/
theorem State.ringWrite_cfg (s : State) (fn : Nat) {id : Nat} (x : RegW) (hid : id < 32) :
    s.ringWrite fn (64 * id + 8) x = s.ringCfg fn id x := by
  have hdiv : (64 * id + 8) / 64 = id := by omega
  have hmod : (64 * id + 8) % 64 = 8 := by omega
  rw [State.ringWrite, if_pos (by omega), hdiv, hmod, State.ringRegWrite]

/-- An offset below the MSI-X table is a place of the PF's map. -/
theorem State.ctrlPut_eq_pfWrite {s : State} {fn off o : Nat} {x : RegW} (below : off < msixBase fn) (place : ctrlOff fn off = some o) :
    s.ctrlPut fn off x = s.pfWrite o x := by
  rw [State.ctrlPut, if_neg (by omega), place]

theorem State.hubWrite_ringBlock (s : State) {o : Nat} (x : RegW) (block : 0x80000 ≤ o) :
    s.hubWrite o x = s.ringWrite 0 (o - 0x80000) x := by
  rw [State.hubWrite, if_neg (by omega), if_neg (by omega), if_neg (by omega), if_neg (by omega), if_pos block]

/-- 14 R433: the PF's RING block is at 0x80000 of its window. -/
theorem State.ctrlPut_pf_ringCfg (s : State) {id : Nat} (x : RegW) (hid : id < 32) :
    s.ctrlPut 0 (0x80000 + 64 * id + 8) x = s.ringCfg 0 id x := by
  have hoff : ctrlOff 0 (0x80000 + 64 * id + 8) = some (0x80000 + 64 * id + 8) := by
    rw [ctrlOff, if_pos rfl, if_pos (by omega)]
  have hblock : 0x80000 + 64 * id + 8 - 0x80000 = 64 * id + 8 := by omega
  have hbase : 0x80000 + 64 * id + 8 < msixBase 0 := by rw [msixBase, if_pos rfl]; omega
  rw [State.ctrlPut_eq_pfWrite hbase hoff, State.pfWrite, if_pos (by omega), State.hubWrite_ringBlock s x (by omega), hblock,
    State.ringWrite_cfg s 0 x hid]

/-- 14 R434: a VF's RING block is at 0x10000 of its window, and at 0x400000 and up of the PF's map. -/
theorem State.ctrlPut_vf_ringCfg (s : State) {fn id : Nat} (x : RegW) (hid : id < 32) (h0 : 0 < fn) (h32 : fn ≤ 32) :
    s.ctrlPut fn (0x10000 + 64 * id + 8) x = s.ringCfg fn id x := by
  have hne : fn ≠ 0 := by omega
  have hoff : ctrlOff fn (0x10000 + 64 * id + 8) = some (0x400000 + (fn - 1) * 0x20000 + (64 * id + 8)) := by
    rw [ctrlOff, if_neg hne, if_neg (by omega), if_pos (by omega)]
    exact congrArg some (by omega)
  have hfn : (0x400000 + (fn - 1) * 0x20000 + (64 * id + 8) - 0x400000) / 0x20000 + 1 = fn := by omega
  have hblock : (0x400000 + (fn - 1) * 0x20000 + (64 * id + 8)) % 0x20000 = 64 * id + 8 := by omega
  have hbase : 0x10000 + 64 * id + 8 < msixBase fn := by rw [msixBase, if_neg hne]; omega
  rw [State.ctrlPut_eq_pfWrite hbase hoff, State.pfWrite, if_neg (by omega), if_pos (by omega), hfn, hblock, State.ringWrite_cfg s fn x hid]

/-! ### The bits that a write merges (00 R17) -/

/-- The size and the alignment that are accepted: a whole register, or one of its halves (00 R14). -/
theorem sizeOk_iff (off n : Nat) : sizeOk off n = true ↔ n = 8 ∧ off % 8 = 0 ∨ n = 4 ∧ (off % 8 = 0 ∨ off % 8 = 4) := by
  simp only [sizeOk, Bool.and_eq_true, Bool.or_eq_true, beq_iff_eq]
  constructor
  · rintro ⟨rfl | rfl, h⟩
    · omega
    · omega
  · rintro (⟨rfl, h⟩ | ⟨rfl, h⟩)
    · exact ⟨.inr rfl, h⟩
    · exact ⟨.inl rfl, by omega⟩

/-- A little-endian number's bits are those of its bytes (00 R9). -/
theorem leNat_testBit (bs : Bytes) (j : Nat) : (leNat bs).testBit j = (byteAt bs (j / 8)).getLsbD (j % 8) := by
  induction bs generalizing j with
  | nil => simp [leNat, byteAt]
  | cons b bs ih =>
    have hle : leNat (b :: bs) = 2 ^ 8 * leNat bs + b.toNat := by rw [leNat]; omega
    rw [hle, Nat.testBit_two_pow_mul_add _ b.isLt]
    by_cases h : j < 8
    · have hdiv : j / 8 = 0 := by omega
      have hmod : j % 8 = j := by omega
      rw [if_pos h, hdiv, hmod]
      rfl
    · have hdiv : j / 8 = (j - 8) / 8 + 1 := by omega
      have hmod : j % 8 = (j - 8) % 8 := by omega
      rw [if_neg h, ih, hdiv, hmod]
      rfl

theorem byteAt_sliceB (bs : Bytes) (i : Nat) {n k : Nat} (hk : k < n) : byteAt (sliceB bs i n) k = byteAt bs (i + k) := by
  simp [byteAt, sliceB, hk]

/-- The bits of a field of a run of bytes. -/
theorem fld_testBit (bs : Bytes) (i : Nat) {n j : Nat} (hj : j < 8 * n) :
    (fld bs i n).testBit j = (byteAt bs (i + j / 8)).getLsbD (j % 8) := by
  rw [fld, leNat_testBit, byteAt_sliceB bs i (by omega)]

/-- The bits that an accepted write covers. -/
theorem wrMask_getLsbD {off n i : Nat} (size : sizeOk off n = true) (hi : i < 64) :
    (wrMask off n).getLsbD i = decide (8 * (off % 8) ≤ i ∧ i < 8 * (off % 8) + 8 * n) := by
  have low : ∀ i < 64, (0xFFFFFFFF#64).getLsbD i = decide (i < 32) := by decide
  have high : ∀ i < 64, (0xFFFFFFFF00000000#64).getLsbD i = decide (32 ≤ i) := by decide
  rcases (sizeOk_iff off n).1 size with ⟨rfl, h⟩ | ⟨rfl, h | h⟩
  · rw [wrMask, if_pos rfl, BitVec.getLsbD_allOnes]
    simp [h, hi]
  · rw [wrMask, if_neg (by decide), if_pos h, low i hi]
    simp [h]
  · rw [wrMask, if_neg (by decide), if_neg (by omega), high i hi]
    simp [h, hi]

/-- 00 R17: a bit that the write covers is the data's; every other is the old one. -/
theorem regW_bit (old : Nat) {off i : Nat} {data : Bytes} (hi : i < 64) (size : sizeOk off data.length = true) :
    (regW old off data).bit i =
      if 8 * (off % 8) ≤ i ∧ i < 8 * (off % 8) + 8 * data.length
        then (byteAt data (i / 8 - off % 8)).getLsbD (i % 8) else old.testBit i := by
  have mask := wrMask_getLsbD size hi
  simp only [RegW.bit, regW, BitVec.getLsbD_or, BitVec.getLsbD_and, BitVec.getLsbD_not, BitVec.getLsbD_ofNat, mask, hi, decide_true,
    Bool.true_and, Nat.testBit_mul_two_pow]
  split_ifs with covered
  · obtain ⟨first, last⟩ := covered
    have hbyte : 0 + (i - 8 * (off % 8)) / 8 = i / 8 - off % 8 := by omega
    have hbit : (i - 8 * (off % 8)) % 8 = i % 8 := by omega
    rw [fld_testBit data 0 (by omega), hbyte, hbit]
    simp [first, last]
  · simp [covered]

/-! ### The statement, a clause at a time -/

/-- 00 R14, R15, R17, R20, R21: a write of a register, of a place without one, and of a size that is not accepted. -/
theorem ctrl_writes {s : State} {fn : Nat} (up : s.winUp fn = true) (off : Nat) (data : Bytes) (size : sizeOk off data.length = true) :
    (∀ old, s.ctrlReg fn (off / 8 * 8) 0 = some old →
      (ringCfgAt fn off = true → exec (.ringCfgWrite fn off data) s = .next (s.ctrlPut fn (off / 8 * 8) (regW old off data))) ∧
      (ringCfgAt fn off = false → exec (.regWrite fn off data) s = .next (s.ctrlPut fn (off / 8 * 8) (regW old off data)))) ∧
    (s.ctrlReg fn (off / 8 * 8) 0 = none → ringCfgAt fn off = false →
      exec (.regWrite fn off data) s = .next (s.accessFault 0x0201 fn 0 off)) := by
  refine ⟨fun old reg => ⟨fun cfg => ?_, fun other => ?_⟩, fun hole other => ?_⟩
  · rw [exec_ringCfgWrite_serves up cfg size, State.ctrlWrite_register size reg]
  · rw [exec_regWrite_serves up (.inl other), State.ctrlWrite_register size reg]
  · rw [exec_regWrite_serves up (.inl other), State.ctrlWrite_hole size hole]

/-- 14 R440, R474: the ring that a write of RING_CFG names, for each state of EN before and in the write. -/
theorem State.ringCfg_cases (s : State) (fn id : Nat) (x : RegW) :
    let k := 32 * fn + id
    let r := s.ring k
    (r.en = false → x.bit 0 = true →
      (s.ringCfg fn id x).ring k = { r with log2n := x.fld 8 5, en := true, head := 0, tail := 0, entries := [], wbDue := false }) ∧
    (r.en = false → x.bit 0 = false → (s.ringCfg fn id x).ring k = { r with log2n := x.fld 8 5 }) ∧
    (r.en = true → x.bit 0 = true → s.ringCfg fn id x = s) ∧
    (r.en = true → x.bit 0 = false → reservable id = true → r.rsvd ≠ 0 → s.ringCfg fn id x = s.fault 0x0208 (ringLoc fn id 0)) ∧
    (r.en = true → x.bit 0 = false → (reservable id = false ∨ r.rsvd = 0) →
      (s.ringCfg fn id x).ring k = { r with en := false, entries := [] }) := by
  refine ⟨fun off en => ?_, fun off en => ?_, State.ringCfg_stays, State.ringCfg_reserved, fun on en free => ?_⟩
  · rw [State.ringCfg_of_disabled off, State.modRing_ring, if_pos rfl, if_pos en, Ring.enable]
  · rw [State.ringCfg_of_disabled off, State.modRing_ring, if_pos rfl, if_neg (by simp [en])]
  · rw [State.ringCfg_disables on en free, State.cancelReads_ring, State.modRing_ring, if_pos rfl, Ring.disable]

/-- Settles O43: a window that serves runs the model's operation on the register, the counter, the vector or the ring; RING_CFG
is followed through the four states of EN; and a write's bits are read off its bytes. -/
theorem registerAccesses : Obligations.RegisterAccesses := by
  unfold Obligations.RegisterAccesses
  refine ⟨fun s fn up => ⟨fun off data size => ctrl_writes up off data size, fun off data size => ?badSize,
    fun off v low reg => ?counter, fun off len c refusal => exec_refusedRead_serves up refusal,
    fun v vec => ⟨fun pending bme => ?sends, fun quiet => ?quiet⟩, fun id hid due bme => ?writeBack⟩,
    fun s fn id x => ?ringCfg, fun old off data i hi _ size => regW_bit old hi size⟩
  case badSize => rw [exec_regWrite_serves up (.inr size), State.ctrlWrite_badSize size]
  case counter => rw [exec_counterLowRead_serves up low, State.lowRead_register reg]
  case sends => rw [exec_msixUnmask_serves up vec, State.unmask_sends pending bme]
  case quiet => rw [exec_msixUnmask_serves up vec, State.unmask_quiet quiet]
  case writeBack =>
    intro k r
    rw [exec_headWriteBack_serves up, State.writeBack_due hid due bme]
  case ringCfg =>
    obtain ⟨enabled, resized, stays, reserved, disabled⟩ := State.ringCfg_cases s fn id x
    exact ⟨enabled, resized, stays, reserved, disabled, fun j hj => State.ringCfg_other_ring s fn id x hj,
      State.ctrlPut_pf_ringCfg s x, State.ctrlPut_vf_ringCfg s x⟩

end Sys2Proof.Machine
end

section
/-!
Requests and tasks (01, 08, 13): admission, features, placement, and the life of a task from its start to its end, yield or resume.

Each command is one of the model's operations on the state once its own conditions hold: `admitHead`, `readFeatures`, `placeOn`,
`startTask`, `reportEnd`, `yieldTask` and so on. What admission does with the head of a ring, and what the start message leaves in
a tile, is said once here; so is what a tile holds after an operation has gone over a list of tiles.
-/

namespace Sys2Proof.Machine

/-! ### Admission (01 R26, R28 to R30, R42) -/

/-- A request joins the admitted ones and takes a reference to each version that it reads (01 R30). -/
def State.joinRequest (s : State) (r : Req) : State :=
  r.versions.foldl (fun s p => s.takeRef p.1 p.2) { s with reqs := s.reqs ++ [r], reqSeq := s.reqSeq + 1 }

section Admission
variable {s : State} {d n : Nat}

theorem State.admitNext_admits (calm : (List.range 32).filter s.waits = [])
    (turn : s.rrDens.find? (fun d => s.denServes d && s.admitTokens d && (s.offer d).isSome) = some d) (head : s.offer d = some n) :
    s.admitNext = s.admitHead d n := by
  have quiet : s.each ((List.range 32).filter s.waits) (fun s d => s.count d cRegWait 1) = s := by rw [calm, State.each, List.foldl_nil]
  unfold State.admitNext
  simp only [quiet, turn, head]

theorem State.admitHead_invalid (bad : (s.takeRequest d n).descBad d (s.headBytes d n) = true) :
    s.admitHead d n = (s.takeRequest d n).complete d n (fld (s.headBytes d n) 2 2) 0x03 0 0 (dIrq (s.headBytes d n)) 0 := by
  simp only [State.admitHead, bad, if_true]

/-- A valid descriptor becomes a request: of a fenced model it ends at once, of any other its features begin. -/
theorem State.admitHead_valid (good : (s.takeRequest d n).descBad d (s.headBytes d n) = false) {r : Req}
    (new : r = (s.takeRequest d n).newReq d n (s.headBytes d n)) {m : Model}
    (model : ((s.takeRequest d n).joinRequest r).model d r.model = some m) :
    s.admitHead d n = if m.fenced then ((s.takeRequest d n).joinRequest r).endReq r 0x10 false
      else ((s.takeRequest d n).joinRequest r).beginFeatures r := by
  subst new
  simp only [State.joinRequest] at model ⊢
  simp only [State.admitHead, good, model, Bool.false_eq_true, if_false]

theorem exec_requestAdmit_admits (serving : s.serving = true) (calm : (List.range 32).filter s.waits = [])
    (turn : s.rrDens.find? (fun d => s.denServes d && s.admitTokens d && (s.offer d).isSome) = some d) (head : s.offer d = some n) :
    exec .requestAdmit s = .next (s.admitHead d n) := by
  change execRequestAdmit s = _
  rw [execRequestAdmit, if_pos serving, State.admitNext_admits calm turn head]

end Admission

/-! ### Features and placement (01 R31, R32, R45, 13 R404 to R407) -/

section Features
variable {s : State} {id : Nat} {r : Req} (hub : s.hub = true) (req : s.req id = some r) (waiting : r.steered = false)
  (live : r.phase ≠ .aborting)
include hub req waiting live

theorem exec_featureReadDone_device (source : dFsrc r.desc = 2) : exec (.featureReadDone id) s = .next (s.readFeatures r) := by
  change execFeatureReadDone id s = _
  simp only [execFeatureReadDone, req]
  rw [if_pos ⟨hub, by simp [waiting], live⟩, if_pos source]

theorem exec_featureReadDone_block {b : Bytes} (source : dFsrc r.desc ≠ 2) (block : r.feat = some b) :
    exec (.featureReadDone id) s = .next (s.steer r b) := by
  change execFeatureReadDone id s = _
  simp only [execFeatureReadDone, req]
  rw [if_pos ⟨hub, by simp [waiting], live⟩, if_neg source, block]

end Features

/-- The first unplaced request goes onto the free tiles, or raises yield demand when they are too few. -/
theorem exec_requestPlace_first {s : State} {d : Nat} {r : Req} (serving : s.serving = true) (first : s.firstUnplaced d = some r) :
    exec (.requestPlace d) s = .next (
      if (firstNats (s.tileFree r) (s.entryOf r).tiles (List.range 256)).length = (s.entryOf r).tiles
        then s.placeOn r (firstNats (s.tileFree r) (s.entryOf r).tiles (List.range 256))
        else s.raiseDemand r (s.entryOf r).tiles) := by
  change execRequestPlace d s = _
  simp only [execRequestPlace, if_pos serving, first]

/-- Settles O19: each command of the dispatcher is followed to the operation that its conditions select, and admission is
followed through an invalid descriptor, a fenced model and any other. -/
theorem requestsAreAdmittedAndPlaced : Obligations.RequestsAreAdmittedAndPlaced := by
  unfold Obligations.RequestsAreAdmittedAndPlaced
  refine ⟨fun s => ⟨fun d n serving calm turn head => exec_requestAdmit_admits serving calm turn head,
    fun id r hub req waiting live => ⟨exec_featureReadDone_device hub req waiting live,
      fun b => exec_featureReadDone_block hub req waiting live⟩,
    fun d r serving first => ?place⟩, fun s d n => ⟨State.admitHead_invalid, fun good => ?valid⟩⟩
  case place =>
    refine ⟨fun enough => ?_, fun few => ?_⟩
    · rw [exec_requestPlace_first serving first, if_pos enough]
    · rw [exec_requestPlace_first serving first, if_neg few]
  case valid =>
    refine ⟨fun m model fenced => ?_, fun m model free => ?_⟩
    · exact (State.admitHead_valid good rfl model).trans (if_pos fenced)
    · exact (State.admitHead_valid good rfl model).trans (if_neg (by simp [free]))

/-! ### Operations that go over a list of tiles -/

section Tiles
variable {t k : Nat}

theorem State.each_modTile_tile {g : Tile → Tile} (idem : ∀ x, g (g x) = g x) (ts : List Nat) (s : State) :
    (s.each ts (fun s t => s.modTile t g)).tile t = if t ∈ ts then g (s.tile t) else s.tile t := by
  simp only [State.each]
  induction ts generalizing s with
  | nil => simp
  | cons u ts ih =>
    rw [List.foldl_cons, ih, State.modTile_tile]
    by_cases same : t = u
    · subst same; simp [idem]
    · simp [same]

/-- `g k w` on tile `t`, for each pair `(t, k)` of a list; `w` is the Warren time. -/
def State.modNumbered (s : State) (g : Nat → W64 → Tile → Tile) (l : List (Nat × Nat)) : State :=
  l.foldl (fun s p => s.modTile p.1 (g p.2 s.wtime)) s

variable (g : Nat → W64 → Tile → Tile) {l : List (Nat × Nat)}

theorem State.modNumbered_tile_other (s : State) (other : t ∉ l.map Prod.fst) : (s.modNumbered g l).tile t = s.tile t := by
  rw [State.modNumbered]
  induction l generalizing s with
  | nil => rfl
  | cons p l ih =>
    rw [List.map_cons, List.mem_cons, not_or] at other
    rw [List.foldl_cons, ih _ other.2, State.modTile_tile, if_neg other.1]

theorem State.modNumbered_tile (s : State) (distinct : (l.map Prod.fst).Nodup) (mem : (t, k) ∈ l) :
    (s.modNumbered g l).tile t = g k s.wtime (s.tile t) := by
  induction l generalizing s with
  | nil => simp at mem
  | cons p l ih =>
    rw [List.map_cons, List.nodup_cons] at distinct
    have head : s.modNumbered g (p :: l) = (s.modTile p.1 (g p.2 s.wtime)).modNumbered g l := rfl
    rw [head]
    rcases List.mem_cons.1 mem with rfl | later
    · rw [State.modNumbered_tile_other g _ distinct.1, State.modTile_tile, if_pos rfl]
    · have ne : t ≠ p.1 := fun e => distinct.1 (e ▸ List.mem_map_of_mem later)
      rw [ih _ distinct.2 later, State.modTile_tile, if_neg ne, State.modTile_wtime]

end Tiles

/-! ### The start message (01 R36, 08 R251) -/

/-- Writes to scalar registers change the register file alone. -/
theorem Tile.foldl_setS_frame (l : List (Nat × W64)) (x : Tile) :
    l.foldl (fun y p => y.setS p.1 p.2) x = { x with sregs := (l.foldl (fun y p => y.setS p.1 p.2) x).sregs } := by
  induction l generalizing x with
  | nil => rfl
  | cons p l ih => rw [List.foldl_cons, ih, Tile.setS_frame]

/-- Writes to different scalar registers, none of them S0, are all read back. -/
theorem Tile.foldl_setS_getS (l : List (Nat × W64)) (distinct : (0 :: l.map Prod.fst).Nodup) (x : Tile) (n : Nat) :
    (l.foldl (fun y p => y.setS p.1 p.2) x).getS n = if n ∈ l.map Prod.fst then mget 0 l n else x.getS n := by
  induction l generalizing x with
  | nil => simp
  | cons p l ih =>
    simp only [List.map_cons, List.nodup_cons, List.mem_cons, not_or] at distinct
    obtain ⟨⟨nonzero, tailNonzero⟩, once, rest⟩ := distinct
    rw [List.foldl_cons, ih (List.nodup_cons.2 ⟨tailNonzero, rest⟩), Tile.getS_setS, List.map_cons, mget]
    by_cases same : n = p.1
    · subst same
      simp [once, Ne.symm nonzero]
    · simp [same, Ne.symm same]

section Start
variable (x : Tile) (r : Req) (e : EntryPoint) (i : Nat) (now : W64)

@[simp] theorem Tile.start_seq : (x.start r e i now).seq = .waking := by rw [Tile.start, Tile.foldl_setS_frame]
@[simp] theorem Tile.start_pwr : (x.start r e i now).pwr = .run := by rw [Tile.start, Tile.foldl_setS_frame]
@[simp] theorem Tile.start_pc : (x.start r e i now).pc = e.pcs.getD i 0 := by rw [Tile.start, Tile.foldl_setS_frame]
@[simp] theorem Tile.start_sems : (x.start r e i now).sems = [] := by rw [Tile.start, Tile.foldl_setS_frame]
@[simp] theorem Tile.start_sram : (x.start r e i now).sram = x.sram := by rw [Tile.start, Tile.foldl_setS_frame]

/-- The registers of R251 hold their values, and every other one is zero. -/
theorem Tile.start_getS (n : Nat) : (x.start r e i now).getS n = mget 0 (startRegs r i) n := by
  have fresh : ∀ y : Tile, y.sregs = [] → y.getS n = 0 := by
    intro y empty
    simp [Tile.getS, empty, mget]
  rw [Tile.start, Tile.foldl_setS_getS _ (by simp [startRegs]), fresh _ rfl]
  split_ifs with named
  · rfl
  · simp only [startRegs, List.map_cons, List.map_nil, List.mem_cons, not_or] at named
    simp [startRegs, mget, named, Ne.symm]

end Start

/-- The start message names S1 to S7 (08 R251). -/
theorem startRegs_above (r : Req) (i : Nat) {n : Nat} (above : 8 ≤ n) : mget 0 (startRegs r i) n = 0 := by
  have apart : ∀ m < 8, m ≠ n := by omega
  simp [startRegs, mget, apart]

/-- The `k`-th tile of a task receives its start message with the number `k`. -/
theorem State.startTask_tile {s : State} {r : Req} (distinct : r.tiles.Nodup) {k t : Nat} (place : r.tiles[k]? = some t) :
    (s.startTask r).tile t = (s.tile t).start r (s.entryOf r) k s.wtime := by
  have started : (s.startTask r).tile t =
      (s.modNumbered (fun k w x => x.start r (s.entryOf r) k w) r.tiles.zipIdx).tile t := rfl
  rw [started, State.modNumbered_tile _ s (by rwa [List.zipIdx_map_fst]) (List.mk_mem_zipIdx_iff_getElem?.2 place)]

/-- What a tile that parked goes back to when the demand is cancelled (13 R410). -/
def Tile.unparked (x : Tile) : Tile := if x.seq = .parked then { x with seq := .running, stall := 0 } else x

theorem Tile.unparked_unparked (x : Tile) : x.unparked.unparked = x.unparked := by
  by_cases parked : x.seq = .parked <;> simp [Tile.unparked, parked]

/-! ### The commands of a task, each under its own conditions (01 R36 to R39, R46, 08 R281 to R284, 13 R408 to R412) -/

section Commands
variable {s : State} {id t : Nat} {r : Req}

theorem exec_taskStart_starts (req : s.req id = some r) (serving : s.serving = true) (placed : r.phase = .placed)
    (ready : r.ready = true) : exec (.taskStart id) s = .next (s.startTask r) := by
  change execTaskStart id s = _
  simp only [execTaskStart, req]
  rw [if_pos ⟨serving, placed, ready⟩]

theorem exec_taskResume_resumes (req : s.req id = some r) (serving : s.serving = true) (yielded : r.phase = .yielded)
    (may : s.mayResume r = true) : exec (.taskResume id) s = .next (s.resumeTask r) := by
  change execTaskResume id s = _
  simp only [execTaskResume, req]
  rw [if_pos ⟨serving, yielded, may⟩]

section Hub
variable (hub : s.hub = true)
include hub

theorem exec_tileWake_wakes (waking : (s.tile t).seq = .waking) :
    exec (.tileWake t) s = .next (s.modTile t (fun x => { x with seq := .running })) := by
  change execTileWake t s = _
  rw [execTileWake, if_pos ⟨hub, waking⟩]

theorem exec_tileEndReport_reports (holder : s.holder t = some r) (ending : (s.tile t).seq = .ending)
    (drained : (s.tile t).drained = true) (running : r.phase = .running) :
    exec (.tileEndReport t) s = .next (s.reportEnd t r) := by
  change execTileEndReport t s = _
  simp only [execTileEndReport, holder]
  rw [if_pos ⟨hub, ending, drained, running⟩]

theorem exec_taskAbortDone_ends (req : s.req id = some r) (aborting : r.phase = .aborting) :
    exec (.taskAbortDone id) s = .next (s.abortDone r) := by
  change execTaskAbortDone id s = _
  simp only [execTaskAbortDone, req]
  rw [if_pos ⟨hub, aborting⟩]

theorem exec_guardExpiry_faults (holder : s.holder t = some r) (live : r.phase = .running) (running : (s.tile t).seq = .running) :
    exec (.guardExpiry t) s = .next
      ((s.modTile t (fun x => { x with guardElapsed := x.guardLimit + 1 })).tileFault t 0x0D 0 0 false false) := by
  change execGuardExpiry t s = _
  simp only [execGuardExpiry, holder]
  rw [if_pos ⟨hub, live, .inl running⟩]

theorem exec_tileParked_yields (req : s.req id = some r) (running : r.phase = .running) (demand : r.demand = true)
    (parked : s.allParked r = true) : exec (.tileParked id) s = .next (s.yieldTask r) := by
  change execTileParked id s = _
  simp only [execTileParked, req]
  rw [if_pos ⟨hub, running, demand, parked⟩]

theorem exec_yieldCancel_cancels (req : s.req id = some r) (running : r.phase = .running) (demand : r.demand = true)
    (late : s.allParked r = false) :
    exec (.yieldCancel id) s = .next ((s.each r.tiles (fun s t => s.modTile t Tile.unparked)).count r.den cYcancel 1) := by
  change execYieldCancel id s = _
  simp only [execYieldCancel, req]
  rw [if_pos ⟨hub, running, demand, by simp [late]⟩]
  rfl

end Hub

end Commands

/-! ### The statement, a clause at a time -/

/-- 01 R36, 08 R251: a start, as the task's tiles see it. -/
theorem exec_taskStart_tiles {s : State} {id : Nat} {r : Req} (req : s.req id = some r) (serving : s.serving = true)
    (placed : r.phase = .placed) (ready : r.ready = true) (distinct : r.tiles.Nodup) :
    ∃ u, exec (.taskStart id) s = .next u ∧
      ∀ k t, r.tiles[k]? = some t → u.tile t = (s.tile t).start r (s.entryOf r) k s.wtime :=
  ⟨_, exec_taskStart_starts req serving placed ready, fun _ _ place => State.startTask_tile distinct place⟩

/-- 01 R37: a wake, as the tile, the others and the rest of the state see it. -/
theorem exec_tileWake_frame {s : State} {t : Nat} (hub : s.hub = true) (waking : (s.tile t).seq = .waking) :
    ∃ u, exec (.tileWake t) s = .next u ∧ u.tile t = { s.tile t with seq := .running } ∧ (∀ v, v ≠ t → u.tile v = s.tile v) ∧
      { u with tiles := [] } = { s with tiles := [] } := by
  refine ⟨_, exec_tileWake_wakes hub waking, ?_, fun v other => ?_, modTile_rest _ _ _⟩
  · rw [State.modTile_tile, if_pos rfl]
  · rw [State.modTile_tile, if_neg other]

/-- 13 R410: a cancelled yield, as every tile sees it. -/
theorem exec_yieldCancel_tiles {s : State} {id : Nat} {r : Req} (hub : s.hub = true) (req : s.req id = some r)
    (running : r.phase = .running) (demand : r.demand = true) (late : s.allParked r = false) :
    ∃ u : State, exec (.yieldCancel id) s = .next (u.count r.den cYcancel 1) ∧
      ∀ t, u.tile t = if t ∈ r.tiles ∧ (s.tile t).seq = .parked then { s.tile t with seq := .running, stall := 0 } else s.tile t := by
  refine ⟨_, exec_yieldCancel_cancels hub req running demand late, fun t => ?_⟩
  rw [State.each_modTile_tile Tile.unparked_unparked, Tile.unparked, ← ite_and]

/-- Settles O20: each command of a task is followed to its operation; the start message is read off register by register, and
the wake and the cancelled yield tile by tile. -/
theorem tasksRun : Obligations.TasksRun := by
  unfold Obligations.TasksRun
  refine ⟨⟨fun s id r req serving placed ready distinct => ?start, fun s t hub waking => exec_tileWake_frame hub waking⟩,
    fun s hub => ⟨fun t r holder ending drained running => exec_tileEndReport_reports hub holder ending drained running,
      fun id r req aborting => exec_taskAbortDone_ends hub req aborting,
      fun t r holder live running => exec_guardExpiry_faults hub holder live running,
      fun id r req running demand => ⟨exec_tileParked_yields hub req running demand,
        exec_yieldCancel_tiles hub req running demand⟩,
      fun id r serving req yielded may => exec_taskResume_resumes req serving yielded may⟩⟩
  case start =>
    obtain ⟨u, run, tiles⟩ := exec_taskStart_tiles req serving placed ready distinct
    refine ⟨u, run, fun k t place => ?_⟩
    rw [tiles k t place]
    refine ⟨Tile.start_seq .., Tile.start_pwr .., Tile.start_pc .., Tile.start_getS .., Tile.start_getS .., Tile.start_getS ..,
      Tile.start_getS .., Tile.start_getS .., Tile.start_getS .., Tile.start_getS .., fun n unnamed => ?_, fun n => ?_,
      Tile.start_sram ..⟩
    · rw [Tile.start_getS, startRegs_above r k unnamed]
    · rw [Tile.start_sems, mget]

end Sys2Proof.Machine
end

section
/-!
The PEs of the Mioter array (03 R76 to R81): what a row does with the token that its PE serves, and what it leaves in the
quadrant.

A row waits, merges or executes, by the heads of the queues that it reads (`State.peRow_waits`, `State.peRow_heads`). What an
operation that executes writes is said PE by PE, for a register and for a queue destination.
-/

namespace Sys2Proof.Machine

/-! ### What a row does with the token that its PE serves (R77, R78) -/

@[simp] theorem State.peServes_wtime (s : State) (q p : Nat) (t : Nat × Nat) : (s.peServes q p t).wtime = s.wtime := rfl

/-- Serving a token changes no operand of the PE. -/
@[simp] theorem State.peServes_input (s : State) (q p : Nat) (t : Nat × Nat) (c ins : Nat) :
    (((s.peServes q p t).quad q).pe p).input c ins = ((s.quad q).pe p).input c ins := by
  rw [State.peServes, State.modQuad_quad, if_pos rfl, Quad.modPe_pe, if_pos rfl]
  rfl

section Row
variable {s : State} {q p op : Nat} {t : Nat × Nat} {kind : PeKind} {ua ub : Bool} {f : PeIn → Option (W32 × Bool)}
  (runs : PeAt s q p op t)
include runs

theorem State.peRow_waits (heads : ((s.quad q).pe p).heads t.1 (peReads (((s.quad q).pe p).ins t.2) ua ub) = none) :
    s.peRow q p op kind ua ub f = s.peServes q p t := by
  obtain ⟨hub, serves, code⟩ := runs
  simp only [State.peRow, serves, hub, code, heads]
  simp [State.peServes]

/-- A row whose queues all hold a word of the token waits for its destination, waits for END words, merges, or executes. -/
theorem State.peRow_heads {hs : List MioWord} :
    let ins := ((s.quad q).pe p).ins t.2
    let dirs := peReads ins ua ub
    let v := s.peServes q p t
    ((s.quad q).pe p).heads t.1 dirs = some hs →
    s.peRow q p op kind ua ub f =
      if (s.quad q).destFull p kind ins && !(hs.any MioWord.isEnd && kind == .emit) then v
      else if hs.any MioWord.isEnd then
        if hs.all MioWord.isEnd then
          v.modQuad q (fun y => y.endMerge p t kind ins dirs ((hs.head?.map MioWord.data).getD 0) s.wtime)
        else v
      else v.peExec q p t kind ins dirs f := by
  intro ins dirs v heads
  obtain ⟨hub, serves, code⟩ := runs
  simp only [ins, dirs] at heads
  simp only [State.peRow, serves, hub, code, heads]
  simp [v, ins, dirs, State.peServes]

end Row

/-- The rows of the PEs are `State.peRow` with what `peShape` says of them. -/
theorem exec_eq_peRow {c : Instr} {q p op : Nat} {kind : PeKind} {ua ub : Bool}
    (shape : peShape c = some (q, p, op, kind, ua, ub)) :
    ∃ f, ∀ s, exec c s = .next (s.peRow q p op kind ua ub f) := by
  unfold peShape at shape
  split at shape
  case h_25 => cases shape
  all_goals
    cases shape
    exact ⟨_, fun _ => rfl⟩

/-! ### What an operation removes and writes (R77, R79) -/

/-- A PE that has lost the front words of its queues `dirs`. -/
def Pe.pop (e : Pe) (dirs : List Nat) : Pe := dirs.foldl (fun e d => e.setQueue d (e.queue d).tail) e

@[simp] theorem Pe.pop_regs (e : Pe) (dirs : List Nat) : (e.pop dirs).regs = e.regs := (Pe.popped_rest dirs e).1
@[simp] theorem Pe.pop_flag (e : Pe) (dirs : List Nat) : (e.pop dirs).flag = e.flag := (Pe.popped_rest dirs e).2.1

@[simp] theorem Pe.advance_regs (e : Pe) (c : Nat) : (e.advance c).regs = e.regs := rfl
@[simp] theorem Pe.advance_flag (e : Pe) (c : Nat) : (e.advance c).flag = e.flag := rfl
@[simp] theorem Pe.advance_queue (e : Pe) (c n : Nat) : (e.advance c).queue n = e.queue n := rfl

@[simp] theorem Quad.modPe_lanes (x : Quad) (p : Nat) (g : Pe → Pe) : (x.modPe p g).lanes = x.lanes := rfl
@[simp] theorem Quad.modPe_slots (x : Quad) (p : Nat) (g : Pe → Pe) : (x.modPe p g).slots = x.slots := rfl

theorem Quad.push_pe (x : Quad) (p d r : Nat) (w : MioWord) :
    (x.push p d w).pe r = if r = p then (x.pe p).setQueue d ((x.pe p).queue d ++ [w]) else x.pe r :=
  Quad.modPe_pe ..

section Consume
variable (x : Quad) (p tok : Nat) (dirs : List Nat) (now : W64)

theorem Quad.consume_pe (r : Nat) : (x.consume p tok dirs now).pe r = if r = p then (x.pe p).pop dirs else x.pe r := by
  cases dirs with
  | nil => exact (ite_eq_right_iff.2 fun same => same ▸ rfl).symm
  | cons d dirs => exact Quad.modPe_pe x p r (fun e => e.pop (d :: dirs))

@[simp] theorem Quad.consume_lanes : (x.consume p tok dirs now).lanes = x.lanes := by
  rw [Quad.consume]; split_ifs <;> rfl

@[simp] theorem Quad.consume_slots : (x.consume p tok dirs now).slots = x.slots := by
  rw [Quad.consume]; split_ifs <;> rfl

end Consume

/-- The queue that output `d` of a PE leads to is one of a PE's four. -/
theorem peNbr_queue_lt (p d : Nat) : (peNbr p d).2 < 4 := by
  unfold peNbr; split <;> simp

section Effect
variable (x : Quad) (p : Nat) (t : Nat × Nat) {ins : Nat} (dirs : List Nat) (v : W32 × Bool) (now : W64)

/-- A register destination: the PE's queues, flag, register and program counter change, and no other PE. -/
theorem Quad.peEffect_register (register : bits ins 21 5 < 16) (r : Nat) :
    (x.peEffect p t .alu ins dirs v now).pe r =
      if r = p then Pe.advance { (x.pe p).pop dirs with
        flag := mset false (x.pe p).flag t.2 v.2, regs := mset 0 (x.pe p).regs (16 * t.2 + bits ins 21 5) v.1 } t.2
      else x.pe r := by
  simp only [Quad.peEffect, Quad.writeD, if_pos register, Quad.modPe_pe, Quad.consume_pe]
  split_ifs <;> simp

theorem Quad.peEffect_register_rest (register : bits ins 21 5 < 16) :
    (x.peEffect p t .alu ins dirs v now).lanes = x.lanes ∧ (x.peEffect p t .alu ins dirs v now).slots = x.slots := by
  simp [Quad.peEffect, Quad.writeD, register]

/-- A queue destination at another PE: that queue takes the value, and the registers of `p` stay. -/
theorem Quad.peEffect_queue {d : Nat} (queue : peDir (bits ins 21 5) = some d) (other : (peNbr p d).1 ≠ p) (r : Nat) :
    (x.peEffect p t .alu ins dirs v now).pe r =
      if r = p then Pe.advance { (x.pe p).pop dirs with flag := mset false (x.pe p).flag t.2 v.2 } t.2
      else if r = (peNbr p d).1 then (x.pe r).setQueue (peNbr p d).2
        ((x.pe r).queue (peNbr p d).2 ++ [{ data := v.1, slot := t.2, tok := t.1 }])
      else x.pe r := by
  have above : ¬ bits ins 21 5 < 16 := by
    intro below
    simp [peDir, Nat.not_le.2 below] at queue
  simp only [Quad.peEffect, Quad.writeD, if_neg above, queue, Quad.modPe_pe, Quad.push_pe, Quad.consume_pe]
  by_cases same : r = p
  · simp [same, Ne.symm other]
  · by_cases nbr : r = (peNbr p d).1
    · subst nbr; simp [same]
    · simp [same, nbr]

end Effect

/-! ### The statement on effects, a clause at a time -/

theorem peEffect_writes_register (x : Quad) (p : Nat) (t : Nat × Nat) {ins : Nat} (ua ub : Bool) (v : W32 × Bool) (now : W64)
    (register : bits ins 21 5 < 16) :
    let dirs := peReads ins ua ub
    let e := x.pe p
    let y := x.peEffect p t .alu ins dirs v now
    (∀ j, mget 0 (y.pe p).regs j = if j = 16 * t.2 + bits ins 21 5 then v.1 else mget 0 e.regs j) ∧
      (∀ j, mget false (y.pe p).flag j = if j = t.2 then v.2 else mget false e.flag j) ∧
      (∀ n, n < 4 → (y.pe p).queue n = if n ∈ dirs then (e.queue n).tail else e.queue n) ∧
      (∀ r, r ≠ p → y.pe r = x.pe r) ∧ y.lanes = x.lanes ∧ y.slots = x.slots := by
  intro dirs e y
  have own : y.pe p = _ := (Quad.peEffect_register x p t dirs v now register p).trans (if_pos rfl)
  obtain ⟨distinct, four⟩ := peReads_distinct ins ua ub
  refine ⟨fun j => ?_, fun j => ?_, fun n hn => ?_, fun r other => ?_, Quad.peEffect_register_rest x p t dirs v now register⟩
  · rw [own, Pe.advance_regs, mget_mset]
  · rw [own, Pe.advance_flag, mget_mset]
  · rw [own, Pe.advance_queue]
    exact Pe.popped_queue dirs e distinct four n hn
  · exact (Quad.peEffect_register x p t dirs v now register r).trans (if_neg other)

theorem peEffect_writes_queue (x : Quad) (p : Nat) (t : Nat × Nat) {ins : Nat} (dirs : List Nat) (v : W32 × Bool) (now : W64)
    (above : 16 ≤ bits ins 21 5) (below : bits ins 21 5 < 20) :
    let n := peNbr p (bits ins 21 5 - 16)
    let y := x.peEffect p t .alu ins dirs v now
    n.1 ≠ p → (y.pe p).regs = (x.pe p).regs ∧
      (y.pe n.1).queue n.2 = (x.pe n.1).queue n.2 ++ [{ data := v.1, slot := t.2, tok := t.1 }] ∧
      (∀ r, r ≠ p → r ≠ n.1 → y.pe r = x.pe r) := by
  intro n y other
  have queue : peDir (bits ins 21 5) = some (bits ins 21 5 - 16) := by rw [peDir, if_pos ⟨above, by omega⟩]
  have pe := Quad.peEffect_queue x p t dirs v now queue other
  refine ⟨?_, ?_, fun r notOwn notNbr => ?_⟩
  · rw [pe p, if_pos rfl, Pe.advance_regs, Pe.pop_regs]
  · rw [pe n.1, if_neg other, if_pos rfl, Pe.setQueue_queue _ _ _ _ (peNbr_queue_lt ..) (peNbr_queue_lt ..), if_pos rfl]
  · rw [pe r, if_neg notOwn, if_neg notNbr]

/-- Settles O16: an operation's effect is read off PE by PE, and a row is followed through the heads of its queues: a word that
lacks, END beside data, and END alone. -/
theorem peEffects : Obligations.PeEffects := by
  unfold Obligations.PeEffects
  refine ⟨fun x p t ins ua ub v now => ⟨peEffect_writes_register x p t ua ub v now, peEffect_writes_queue x p t _ v now⟩,
    fun c s q p op kind ua ub t shape runs => ?_⟩
  obtain ⟨f, row⟩ := exec_eq_peRow shape
  refine ⟨fun heads => ?_, fun hs heads ends notAll => ?_, fun h hs heads all room => ?_⟩
  · rw [row, State.peRow_waits runs heads]
  · rw [row, State.peRow_heads runs heads, ends, notAll]
    simp
  · have ends : (h :: hs).any MioWord.isEnd = true := by
      rw [List.all_cons, Bool.and_eq_true] at all
      simp [all.1]
    rw [row, State.peRow_heads runs heads, ends, all, if_neg (by rcases room with room | room <;> simp [room])]
    rfl

/-! ### The value that each operation gives (R79 to R81) -/

/-- A row whose queues hold data words alone, with room at its destination, executes. -/
theorem State.peRow_executes {s : State} {q p op : Nat} {t : Nat × Nat} {kind : PeKind} {ua ub : Bool}
    {f : PeIn → Option (W32 × Bool)} {hs : List MioWord} (runs : PeAt s q p op t) :
    let ins := ((s.quad q).pe p).ins t.2
    let dirs := peReads ins ua ub
    ((s.quad q).pe p).heads t.1 dirs = some hs → hs.any MioWord.isEnd = false → (s.quad q).destFull p kind ins = false →
    s.peRow q p op kind ua ub f = (s.peServes q p t).peExec q p t kind ins dirs f := by
  intro ins dirs heads data room
  rw [State.peRow_heads runs heads, data, room]
  rfl

section Exec
variable {s : State} {q p ins : Nat} {t : Nat × Nat} {kind : PeKind} {dirs : List Nat} {f : PeIn → Option (W32 × Bool)}

theorem State.peExec_value {v : W32 × Bool} (value : f (((s.quad q).pe p).input t.2 ins) = some v) :
    s.peExec q p t kind ins dirs f = s.modQuad q (fun x => x.peEffect p t kind ins dirs v s.wtime) := by
  simp only [State.peExec, value]

/-- Assumption 1: an operation whose result the spec leaves open completes with a free value, and keeps F. -/
theorem State.peExec_open (undefinedResult : f (((s.quad q).pe p).input t.2 ins) = none) :
    s.peExec q p t kind ins dirs f =
      { s.modQuad q (fun x => x.peEffect p t kind ins dirs ((s.free 32).1, (((s.quad q).pe p).input t.2 ins).f) s.wtime) with
        freeCtr := s.freeCtr + 1 } := by
  simp only [State.peExec, undefinedResult]
  rfl

end Exec

/-- A row gives the value that its function has at the PE's operands. -/
theorem peGives_of_exec {c : Instr} {s : State} {q p op : Nat} {t : Nat × Nat} {kind : PeKind} {ua ub : Bool}
    {f : PeIn → Option (W32 × Bool)} {v : W32 × Bool} (shape : peShape c = some (q, p, op, kind, ua, ub))
    (row : ∀ s, exec c s = .next (s.peRow q p op kind ua ub f))
    (value : f (((s.quad q).pe p).input t.2 (((s.quad q).pe p).ins t.2)) = some v) : PeGives c s t v := by
  intro q' p' op' kind' ua' ub' hs shape' runs ins dirs heads data room
  rw [shape] at shape'
  cases shape'
  rw [row, State.peRow_executes runs heads data room, State.peExec_value (by rwa [State.peServes_input])]
  rfl

theorem ofNat_min (a b : W32) : (if a.toNat ≤ b.toNat then a else b) = BitVec.ofNat 32 (min a.toNat b.toNat) := by
  rw [Nat.min_def]
  split_ifs <;> simp

theorem ofNat_max (a b : W32) : (if a.toNat ≤ b.toNat then b else a) = BitVec.ofNat 32 (max a.toNat b.toNat) := by
  rw [Nat.max_def]
  split_ifs <;> simp

/-- A comparison's outcome, as a word and as F. -/
theorem compare_eq (b : Bool) : (BitVec.ofNat 32 (b2n b), b) = if b = true then ((1, true) : W32 × Bool) else (0, false) := by
  cases b <;> rfl

/-- Settles O17: each row is `State.peRow` with its function, whose value at the operands is the one that the statement names;
BKT outside its window completes with a free value. -/
theorem peOperations : Obligations.PeOperations := by
  unfold Obligations.PeOperations
  refine ⟨fun s q p t => ?values, fun s q p t hs runs => ?bucket⟩
  case bucket =>
    intro ins i dirs heads data room undefinedResult
    refine ⟨((s.peServes q p t).free 32).1, ?_⟩
    change execPeBkt q p s = _
    rw [execPeBkt, State.peRow_executes runs heads data room, State.peExec_open (by rwa [State.peServes_input]),
      State.peServes_input]
    rfl
  case values =>
    intro i a b
    refine ⟨?nop, ?mov, ?add, ?sub, ?and, ?or, ?xor, ?shl, ?shr, ?sra, ?mul, ?mulh, ?minu, ?maxu, ?cmplt, ?cmpeq, ?sel, ?hash, ?crc,
      ?range, ?lut, fun v inWindow => ?bkt, ?emit, ?brf⟩
    case mul => exact peGives_of_exec rfl (fun _ => rfl) (congrArg (fun v => some (v, i.f)) (BitVec.mul_def ..))
    case minu => exact peGives_of_exec rfl (fun _ => rfl) (congrArg (fun v => some (v, i.f)) (ofNat_min a b))
    case maxu => exact peGives_of_exec rfl (fun _ => rfl) (congrArg (fun v => some (v, i.f)) (ofNat_max a b))
    case cmplt =>
      exact peGives_of_exec rfl (fun _ => rfl) (congrArg some ((compare_eq _).trans (if_congr decide_eq_true_iff rfl rfl)))
    case cmpeq => exact peGives_of_exec rfl (fun _ => rfl) (congrArg some ((compare_eq _).trans (if_congr beq_iff_eq rfl rfl)))
    case bkt => exact peGives_of_exec rfl (fun _ => rfl) inWindow
    all_goals exact peGives_of_exec rfl (fun _ => rfl) rfl

end Sys2Proof.Machine
end

section
/-!
Tokens and samples of the Mioter array (03 R75, R83, R84, R104, R105, R109 to R116): the commands that move tokens are operations
on a quadrant, or on the state, once their own conditions hold; the commands of sampling are operations on the sampling registers
and the sample buffer.
-/

namespace Sys2Proof.Machine

/-! ### The boundary cycle of the next token (R75, R113) -/

theorem Quad.boundary_enters {x : Quad} {now : W64} {t : MioTok} (idle : x.toks.any MioTok.feeding = false)
    (next : x.toks.find? (fun t => !t.entered) = some t) :
    x.boundary now = { x with
      tag := t.slot, tokens := x.tokens + 1
      toks := modFirst (fun y => y.id == t.id) (fun y => { y with entered := true, progress := now }) x.toks } := by
  simp only [Quad.boundary, idle, next]
  rfl

/-! ### The commands on tokens, each under its own conditions -/

section Tokens
variable {s : State} {q : Nat} {t : MioTok} (hub : s.hub = true)
include hub

theorem exec_mioTokenBoundary : exec (.mioTokenBoundary q) s = .next (s.modQuad q (fun x => x.boundary s.wtime)) := by
  change execMioTokenBoundary q s = _
  rw [execMioTokenBoundary, if_pos hub]

/-- 03 R75, R113: the boundary cycle, as the quadrant and the others see it. -/
theorem exec_mioTokenBoundary_enters (idle : (s.quad q).toks.any MioTok.feeding = false)
    (next : (s.quad q).toks.find? (fun t => !t.entered) = some t) :
    let x := s.quad q
    ∃ u, exec (.mioTokenBoundary q) s = .next u ∧ (u.quad q).tag = t.slot ∧ (u.quad q).tokens = x.tokens + 1 ∧
      (u.quad q).toks = modFirst (fun y => y.id == t.id) (fun y => { y with entered := true, progress := s.wtime }) x.toks ∧
      (u.quad q).pes = x.pes ∧ (u.quad q).lanes = x.lanes ∧ (∀ r, r ≠ q → u.quad r = s.quad r) := by
  refine ⟨_, exec_mioTokenBoundary hub, ?_⟩
  rw [State.modQuad_quad, if_pos rfl, Quad.boundary_enters idle next]
  exact ⟨rfl, rfl, rfl, rfl, rfl, fun r other => (State.modQuad_quad ..).trans (if_neg other)⟩

theorem exec_mioInputWord_feeds (feeding : (s.quad q).toks.find? MioTok.feeding = some t) :
    exec (.mioInputWord q) s = .next (s.modQuad q (fun y => (List.range 16).foldl (fun z r => z.feedRow t.id r) y)) := by
  change execMioInputWord q s = _
  rw [execMioInputWord, if_pos hub]
  simp only [State.modQuad, Quad.feed, feeding]

theorem exec_mioOutputPass_passes (front : (s.quad q).front = some t) :
    exec (.mioOutputPass q) s = .next (s.each (List.range 16) (fun v l => v.passLane q l t.id)) := by
  change execMioOutputPass q s = _
  simp only [execMioOutputPass, front, if_pos hub]

theorem exec_mioTokenClose_closes (front : (s.quad q).front = some t) (may : (s.quad q).mayClose t = true)
    (fits : s.recordFits t.req = true) : exec (.mioTokenClose q) s = .next (s.closeToken q t) := by
  change execMioTokenClose q s = _
  simp only [execMioTokenClose, front]
  rw [if_pos ⟨hub, may, fits⟩]

theorem exec_mioTokenTimeout_drops (stuck : (s.quad q).stuck = some t) :
    exec (.mioTokenTimeout q) s = .next (s.dropSlot q t.slot 0x0013 0x0D) := by
  change execMioTokenTimeout q s = _
  simp only [execMioTokenTimeout, stuck, if_pos hub]

theorem exec_mioParityError_drops {c : Nat} (ready : (s.slot q c).st = .ready) :
    exec (.mioParityError q c) s = .next (s.dropSlot q c 0x0012 0x06) := by
  change execMioParityError q c s = _
  rw [execMioParityError, if_pos ⟨hub, ready⟩]

end Tokens

/-! ### Sampling (R109 to R116) -/

section Sample
variable {m : Mioter} (rcd : Bytes)

/-- 03 R111, R116: with room, or with WRAP, the record goes to WPTR, which advances. -/
theorem Mioter.sample_writes (room : m.smpFull = false ∨ m.smpWrap = true) :
    m.sample rcd = { m with
      smpBuf := mset (List.replicate 64 0) m.smpBuf m.smpWptr.toNat rcd, smpWptr := m.smpWptr + 1
      smpFull := m.smpFull || m.smpWptr == 1023 } := by
  rw [Mioter.sample, if_neg (by rcases room with h | h <;> simp [h])]

theorem Mioter.sample_skips (full : m.smpFull = true) (stops : m.smpWrap = false) :
    m.sample rcd = { m with smpDropped := satAdd m.smpDropped 1 } := by
  rw [Mioter.sample, if_pos (by simp [full, stops])]

end Sample

section Sampling
variable {s : State} (hub : s.hub = true)
include hub

theorem exec_sampleRecord_samples (on : s.mioter.smpEn = true) :
    exec .sampleRecord s = .next { s with mioter := s.mioter.sample s.smpRecord } := by
  change execSampleRecord s = _
  rw [execSampleRecord, if_pos ⟨hub, on⟩]

theorem exec_sampleRestart_restarts : exec .sampleRestart s = .next { s with mioter := s.mioter.restart } := by
  change execSampleRestart s = _
  rw [execSampleRestart, if_pos hub]

/-- A sample that is written, as the buffer and its registers hold it afterwards. -/
theorem exec_sampleRecord_writes (on : s.mioter.smpEn = true) (room : s.mioter.smpFull = false ∨ s.mioter.smpWrap = true) :
    ∃ u, exec .sampleRecord s = .next u ∧ u.mioter.smpWptr = s.mioter.smpWptr + 1 ∧
      (∀ n, mget (List.replicate 64 0) u.mioter.smpBuf n =
        if n = s.mioter.smpWptr.toNat then s.smpRecord else mget (List.replicate 64 0) s.mioter.smpBuf n) ∧
      (u.mioter.smpFull = true ↔ (s.mioter.smpFull = true ∨ s.mioter.smpWptr = 1023)) ∧
      u.mioter.smpDropped = s.mioter.smpDropped := by
  refine ⟨_, exec_sampleRecord_samples hub on, ?_⟩
  rw [Mioter.sample_writes _ room]
  exact ⟨rfl, mget_mset _ _ _ _, by simp, rfl⟩

end Sampling

/-- Settles O18: each command on tokens is followed to its operation, the boundary cycle and the written sample are read off field
by field. -/
theorem mioterTokens : Obligations.MioterTokens := by
  unfold Obligations.MioterTokens
  refine ⟨fun s q hub => ⟨fun t => exec_mioTokenBoundary_enters hub, fun t => exec_mioInputWord_feeds hub,
      fun t => exec_mioOutputPass_passes hub, fun t => exec_mioTokenClose_closes hub⟩,
    fun s q hub => ⟨fun t => exec_mioTokenTimeout_drops hub, fun c => exec_mioParityError_drops hub⟩,
    fun s hub => ⟨exec_sampleRecord_writes hub, fun on full stops => ?skips, ?restarts⟩⟩
  case skips =>
    refine ⟨_, exec_sampleRecord_samples hub on, ?_⟩
    rw [Mioter.sample_skips _ full stops]
    exact ⟨rfl, rfl, rfl⟩
  case restarts => exact ⟨_, exec_sampleRestart_restarts hub, rfl, rfl, rfl, rfl, rfl⟩

end Sys2Proof.Machine
end

section
/-!
Commands of the CP (15 R482 to R509): the commands that end at once, the beginnings of those that run over time, and their ends.

A row that ends at once, or begins, is `State.runCmd` with its own part (`atOnce_of_exec`, `begins_of_exec`); what is left of each is
what its own part does when none of its checks fails, which is said once for each part that has checks.
-/

namespace Sys2Proof.Machine

/-- Row `c` ends at once with what its own part `g` gives. -/
theorem atOnce_of_exec {c : Instr} {src : CmdSrc} {row : CmdRow} {g : State → Bytes → CmdRes × State}
    {ok : State → Bytes → Prop} {eff : State → Bytes → State} {res : State → Bytes → CmdRes}
    (shape : cmdShape c = some (row, src)) (run : ∀ s, exec c s = .next (s.runCmd row src (State.quick src g)))
    (own : ∀ v b, ok v b → g v b = (res v b, eff v b)) : AtOnce c src ok eff res := by
  intro s b r shape' takes holds
  rw [shape] at shape'
  cases shape'
  obtain ⟨pkt, turn, mine, passes⟩ := takes
  rw [run, State.runCmd_quick g pkt turn mine passes, own _ _ holds]

/-! ### Own parts of commands that end at once, when no check of theirs fails -/

section Own
variable {v : State} {b : Bytes}

theorem State.selectProfile_selects {i : Nat} {p : Bytes} (stored : v.ldg.profBytes i = some p) (valid : v.ldg.profOk i = true)
    (worn : v.ldg.profilesWorn = false) :
    v.selectProfile i = ({}, (v.writeSet i v.ldg.profBytes).applyLive i (parseProfile p)) := by
  simp [State.selectProfile, stored, valid, worn]

theorem State.createDen_creates (free : (v.den (cDen b)).st = .free) (shared : v.allShared (fld b 0xA 2) = true) :
    v.createDen b = ({}, v.modDen (cDen b) (fun x => x.created (fld b 8 1) (fld b 0xA 2) (sliceB b 0x10 16))) := by
  simp [State.createDen, free, shared]

/-- A LINK_CTRL whose port is not training acts on it (R505). -/
theorem State.onPort_acts {f : State → Nat → CmdRes × State} (settled : (v.port (cPort b)).st ≠ .training) :
    v.onPort b f = f v (cPort b) := if_neg settled

theorem State.modifyTable_modifies (own : v.tableRefusal b = none)
    (fields : modifyBad (modified b (v.table (cTable b))) v.fab.wid = none)
    (permitted : v.permStatus (cTable b) (modified b (v.table (cTable b))) = 0) :
    v.modifyTable b = ({}, v.modTable (cTable b) (fun _ =>
      if tbit (fld b 0xA 1) 2 then v.placePin (cTable b) (modified b (v.table (cTable b))) else modified b (v.table (cTable b)))) := by
  simp [State.modifyTable, own, fields, permitted]

theorem State.setVersion_sets (own : v.tableRefusal b = none) (free : (v.table (cTable b)).slotState (fld b 0xA 1) < 2)
    (unnamed : v.namedSlot (cTable b) (fld b 0xA 1) = false)
    (place : tbit (fld b 0xB 1) 0 = true → fld b 0x10 8 % 128 = 0 ∧ v.inHbm (v.table (cTable b)).den (fld b 0x10 8)
      ((v.table (cTable b)).localRows v.fab.wid * (v.table (cTable b)).rowSize) = true)
    (durable : tbit (fld b 0xB 1) 1 = true →
      v.ldg.canHold 0x0E (versionPayload (cTable b) (withVersion b (v.table (cTable b))) false 0) = true) :
    v.setVersion b = ({},
      if tbit (fld b 0xB 1) 1 = true then (v.modTable (cTable b) (fun _ => withVersion b (v.table (cTable b)))).record 0x0E
        (versionPayload (cTable b) (withVersion b (v.table (cTable b))) false 0) none
      else v.modTable (cTable b) (fun _ => withVersion b (v.table (cTable b)))) := by
  simp only [withVersion] at durable ⊢
  simp only [State.setVersion, own]
  rw [if_neg (by simp [unnamed, free]), if_neg (fun bad => bad.2 (place bad.1).1),
    if_neg (fun bad => by simp [(place bad.1).2] at bad), if_neg (fun bad => by simp [durable bad.1] at bad)]

theorem State.switchHere_switches {src : CmdSrc} (owned : v.switchOwned src (cPairs b) = true) (here : v.notLocal (cPairs b) = none)
    (pairs : v.switchRefusal (cPairs b) = none) (durable : cDurable b = true → v.durableOk ((cPairs b).map Prod.fst) = true) :
    v.switchHere src b = ({}, v.switchAll (cPairs b) false (cDurable b) 0) := by
  simp only [State.switchHere, owned, here, pairs]
  rw [if_neg (by simp), if_neg (by simpa using durable)]

theorem State.deleteTable_deletes (own : v.tableRefusal b = none)
    (idle : ∀ k, k < 4 → ((v.table (cTable b)).ver k).refs = 0 ∧ (v.table (cTable b)).slotState k ≠ 3)
    (unnamed : v.modelNames (v.table (cTable b)).den (cTable b) = false) (unlocked : (v.table (cTable b)).lock = none) :
    let p := versionPayload (cTable b) (v.table (cTable b)) true 0
    v.deleteTable b = ({}, (if v.hasVersionRecord p = true then v.record 0x0E p none else v).dropTable (cTable b)) := by
  have quiet : (List.range 4).any (fun k =>
      decide (((v.table (cTable b)).ver k).refs ≠ 0) || (v.table (cTable b)).slotState k == 3) = false := by
    rw [List.any_eq_false]
    intro k inRange
    obtain ⟨refs, slot⟩ := idle k (List.mem_range.1 inRange)
    simp [refs, slot]
  simp only [State.deleteTable, own, quiet, unnamed, unlocked]
  rfl

theorem State.selectCtx_selects {d : Nat} {m : Model} (owner : ownerOk b (some d) = true)
    (slot : v.slotOwner (fld b 0xD 1) (fld b 0xE 1) = some d) (model : v.model d (fld b 8 2) = some m)
    (entry : fld b 0xA 2 < m.entries.length) (ready : (v.slot (fld b 0xD 1) (fld b 0xE 1)).st = .ready) :
    v.selectCtx b = ({}, v.modModel d m.handle (fun m => m.rebind (fld b 0xA 2) (fld b 0xC 1 == 1) (fld b 0xD 1, fld b 0xE 1))) := by
  simp only [State.selectCtx, slot, owner, model]
  rw [if_neg (by simp), if_neg (Nat.not_le.2 entry), if_neg (not_not.2 ready)]

end Own

/-- Settles O38: each row is followed through its own part, past checks that its conditions let pass. -/
theorem commandsThatEndAtOnce : Obligations.CommandsThatEndAtOnce := by
  unfold Obligations.CommandsThatEndAtOnce
  refine ⟨fun src => ⟨?nop, ?identify, ?devStatus, fun p => ?profileSelect, ?profileClear, ?denCreate, ?regulator, ?sched, ?flr,
      ?token, ?gran, ?denQuery, ?denResume, ?histDir, ?warrenStatus, ?routeSet, ?disable, ?enable, ?retrain, ?clearFences, ?fence,
      ?activate, ?fwQuery, ?fwCommit⟩,
    fun src => ⟨fun m => ?unload, fun m => ?modelQuery, ?modify, ?versionSet, ?switch, ?delete, fun d m => ?ctxSelect, ?ctxQuery⟩⟩
  case profileSelect =>
    exact atOnce_of_exec rfl (fun _ => rfl) fun v b ⟨stored, valid, worn⟩ => State.selectProfile_selects stored valid worn
  case profileClear => exact atOnce_of_exec rfl (fun _ => rfl) fun v b worn => if_neg (by simp [worn])
  case denCreate => exact atOnce_of_exec rfl (fun _ => rfl) fun v b ⟨free, shared⟩ => State.createDen_creates free shared
  case gran => exact atOnce_of_exec rfl (fun _ => rfl) fun v b fits => if_neg fun ⟨differs, holds⟩ => fits.elim differs holds
  case denResume => exact atOnce_of_exec rfl (fun _ => rfl) fun v b quiesced => if_neg (not_not.2 quiesced)
  case histDir => exact atOnce_of_exec rfl (fun _ => rfl) fun v b inside => if_neg (by simp [inside])
  case routeSet => exact atOnce_of_exec rfl (fun _ => rfl) fun v b masked => if_pos masked
  case disable | enable | retrain => exact atOnce_of_exec rfl (fun _ => rfl) fun v b settled => State.onPort_acts settled
  case clearFences =>
    exact atOnce_of_exec rfl (fun _ => rfl) fun v b ⟨settled, holds⟩ => (State.onPort_acts settled).trans (if_pos holds)
  case activate =>
    refine atOnce_of_exec rfl (fun _ => rfl) fun v b holds => ?_
    cases good : v.bankOk (fld b 8 1) <;> simp [good, holds]
  case unload =>
    refine atOnce_of_exec rfl (fun _ => rfl) fun v b ⟨model, unused⟩ => ?_
    simp only [model, unused]
    rfl
  case modelQuery =>
    refine atOnce_of_exec rfl (fun _ => rfl) fun v b model => ?_
    simp only [model]
  case modify =>
    exact atOnce_of_exec rfl (fun _ => rfl) fun v b ⟨own, fields, permitted⟩ => State.modifyTable_modifies own fields permitted
  case versionSet =>
    exact atOnce_of_exec rfl (fun _ => rfl) fun v b ⟨own, free, unnamed, place, durable⟩ =>
      State.setVersion_sets own free unnamed place durable
  case switch =>
    exact atOnce_of_exec rfl (fun _ => rfl) fun v b ⟨owned, here, pairs, durable⟩ =>
      State.switchHere_switches owned here pairs durable
  case delete =>
    exact atOnce_of_exec rfl (fun _ => rfl) fun v b ⟨own, idle, unnamed, unlocked⟩ =>
      State.deleteTable_deletes own idle unnamed unlocked
  case ctxSelect =>
    exact atOnce_of_exec rfl (fun _ => rfl) fun v b ⟨owner, slot, model, entry, ready⟩ =>
      State.selectCtx_selects owner slot model entry ready
  all_goals exact atOnce_of_exec rfl (fun _ => rfl) (fun _ _ _ => rfl)

/-! ### Commands that begin (R483, R484) -/

/-- Row `c` begins with what its own part `g` does to the state in which it runs. -/
theorem begins_of_exec {c : Instr} {src : CmdSrc} {row : CmdRow} {g : State → Nat → Bytes → State}
    {ok : State → Bytes → Prop} {eff : State → Nat → Bytes → State}
    (shape : cmdShape c = some (row, src)) (run : ∀ s, exec c s = .next (s.runCmd row src (State.begin src row g)))
    (own : ∀ w id b, ok w b → g w id b = eff w id b) : Begins c src ok eff := by
  intro s b r shape' takes
  rw [shape] at shape'
  cases shape'
  obtain ⟨pkt, turn, mine, passes⟩ := takes
  intro v w holds
  rw [run, State.runCmd_runs pkt turn mine passes]
  exact congrArg Host.Outcome.next (own w v.cp.seq b holds)

/-- DEV_HUSH replies before it enters HUSH (R489). -/
theorem exec_devHush_takes {s : State} {src : CmdSrc} {b : Bytes} (takes : Takes s devHushRow src b) :
    exec (.devHush src) s = .next (
      if (s.takeCmd src).mayHush then ((s.takeCmd src).reply src b false {}).hushEntry false
      else (s.takeCmd src).reply src b false { status := 1 }) := by
  obtain ⟨pkt, turn, mine, passes⟩ := takes
  change execDevHush src s = _
  rw [execDevHush, State.runCmd_runs pkt turn mine passes]

/-- SCRUB_RETAINED begins when a den is held (14 R472). -/
theorem begins_scrubRetained (src : CmdSrc) :
    Begins (.scrubRetained src) src (fun w _ => w.pcie.retHeld ≠ 0) (fun w _ _ => w.destroyHeld) := by
  intro s b r shape takes
  cases shape
  obtain ⟨pkt, turn, mine, passes⟩ := takes
  intro v w held
  change execScrubRetained src s = _
  rw [execScrubRetained, State.runCmd_runs pkt turn mine passes]
  exact congrArg Host.Outcome.next (if_neg held)

theorem State.retainRecord_ne_nil (s : State) (d : Nat) : s.retainRecord d ≠ [] := by
  simp [State.retainRecord, State.retainBytes, toLe]

/-- ATTACH whose den is held, with the right token and room for a part of the record, writes that part (R469). -/
theorem State.attachBegin_writes {src : CmdSrc} {w : State} {id : Nat} {b : Bytes} (fresh : w.attachBlocked (cDen b) = false)
    (token : (w.den (cDen b)).token = sliceB b 0x10 16) (held : w.pcie.retHeld.getLsbD (cDen b) = true) (room : 0 < fld b 0x28 4) :
    let rcd := w.retainRecord (cDen b)
    let out := rcd.take (fld b 0x28 4)
    let x := w.mark id (if rcd.length ≤ fld b 0x28 4 then 1 else 2) ((toLe 4 rcd.length).map BitVec.toNat)
    State.attachBegin src w id b = (x.store id src.tag (x.paramAddr src.fn? src.den (fld b 0x20 8) out.length) out).onCmd id
      (fun t c => if c.got then t.attachStep c else t) := by
  have nonempty : (w.retainRecord (cDen b)).take (fld b 0x28 4) ≠ [] := by
    rw [Ne, List.take_eq_nil_iff, not_or]
    exact ⟨Nat.ne_of_gt room, w.retainRecord_ne_nil _⟩
  simp only [State.attachBegin, fresh, token, held, if_neg nonempty]
  simp

/-- Settles O39: each row is followed through its own part, past checks that its conditions let pass; DEV_HUSH and SCRUB_RETAINED check
before they begin. -/
theorem commandsThatRunBegin : Obligations.CommandsThatRunBegin := by
  unfold Obligations.CommandsThatRunBegin
  refine fun src => ⟨fun p => ?profileGet, ?profileWrite, fun s b takes may => ?hush, fun s b takes mayNot => ?busy,
    begins_scrubRetained src, ?probe, ?tiles, ?hbm, ?ways, ?mioter, ?destroy, ?attach, ?load, ?create, ?switch, ?query, ?store, ?ctxLoad,
    ?free, ?survey, ?margin, ?unfence, ?ledgerRead, ?diag, ?tagRead, ?stage, ?stageEp1⟩
  case profileGet =>
    refine begins_of_exec rfl (fun _ => rfl) fun w id b ⟨stored, valid⟩ => ?_
    simp only [stored, if_pos valid]
  case hush => rw [exec_devHush_takes takes, if_pos may]
  case busy => rw [exec_devHush_takes takes, if_neg (by simp [mayNot])]
  case tiles | mioter => exact begins_of_exec rfl (fun _ => rfl) fun w id b passes => if_neg (not_not.2 passes)
  case ways | load | switch | store | ctxLoad | free =>
    refine begins_of_exec rfl (fun _ => rfl) fun w id b passes => ?_
    simp only [passes]
  case query =>
    refine begins_of_exec rfl (fun _ => rfl) fun w id b own => ?_
    simp only [own]
  case attach =>
    exact begins_of_exec rfl (fun _ => rfl) fun w id b ⟨fresh, token, held, room⟩ => State.attachBegin_writes fresh token held room
  case survey =>
    exact begins_of_exec rfl (fun _ => rfl) fun w id b ⟨master, idle⟩ =>
      (if_neg (not_not.2 master)).trans (if_neg (by simp [idle]))
  case margin => exact begins_of_exec rfl (fun _ => rfl) fun w id b ⟨stripes, held⟩ => if_neg (by simp [stripes, held])
  case unfence =>
    exact begins_of_exec rfl (fun _ => rfl) fun w id b ⟨fenced, holds⟩ =>
      (if_neg (by simp [fenced])).trans (if_neg (by simp [holds]))
  case diag => exact begins_of_exec rfl (fun _ => rfl) fun w id b unused => if_neg (by simp [unused])
  case tagRead =>
    refine begins_of_exec rfl (fun _ => rfl) fun w id b readable => if_neg ?_
    rintro ⟨rf, above⟩
    rcases readable with quiet | below
    · simp [quiet] at rf
    · omega
  case stage =>
    exact begins_of_exec rfl (fun _ => rfl) fun w id b ⟨long, address⟩ => (if_neg (Nat.not_lt.2 long)).trans (if_pos address)
  case stageEp1 =>
    exact begins_of_exec rfl (fun _ => rfl) fun w id b ⟨long, address, closed⟩ =>
      (if_neg (Nat.not_lt.2 long)).trans ((if_neg (not_not.2 address)).trans (if_neg (by simp [closed])))
  all_goals exact begins_of_exec rfl (fun _ => rfl) (fun _ _ _ _ => rfl)

/-! ### Running commands go on, and end (R483 to R485) -/

section Running
variable {s : State} {id : Nat} {c : Cmd} (running : s.cmd id = some c)
include running

theorem State.finishCmd_running (r : CmdRes) :
    (s.finishCmd id r).cp.running = ((s.reply c.src c.pkt c.silent r).cp.running).filter (fun x => x.id != id) := by
  simp only [State.finishCmd, running]

/-- A command that has ended is no longer a running command: its locks are given back. -/
theorem State.finishCmd_cmd (r : CmdRes) : (s.finishCmd id r).cmd id = none := by
  rw [State.cmd, State.finishCmd_running running, List.find?_eq_none]
  intro x mem
  simpa using (List.mem_filter.1 mem).2

/-- COMMAND_DONE of a command whose accesses have not failed. -/
theorem exec_commandDone_steps {res : Bytes} (hub : s.hub = true) (sound : c.fail = none) :
    exec (.commandDone id res) s = .next (s.cmdStep c res) := by
  change execCommandDone id res s = _
  simp only [execCommandDone, running, sound]
  rw [if_pos (.inl hub)]

/-- A failed access ends a command with its status, but for the three that have their own rule. -/
theorem exec_commandDone_fails {res : Bytes} {e : Nat} (hub : s.hub = true) (failed : c.fail = some e)
    (plain : cOp c.pkt ∉ [0x07, 0x16, 0x40]) : exec (.commandDone id res) s = .next (s.finishCmd c.id { status := e }) := by
  simp only [List.mem_cons, List.not_mem_nil, or_false, not_or] at plain
  obtain ⟨probe, attach, store⟩ := plain
  change execCommandDone id res s = _
  simp only [execCommandDone, running, failed]
  rw [if_pos (.inl hub), State.cmdFail]
  split
  next op => exact absurd op probe
  next op => exact absurd op attach
  next op => exact absurd op store
  next => rfl

end Running

/-- CTX_LOAD_DONE of a load whose slot is LOADING (03 R102). -/
theorem exec_ctxLoadDone_loads {s : State} {id q k : Nat} {c : Cmd} (hub : s.hub = true)
    (load : (s.quad q).loading = some (k, id)) (slot : ((s.loadBegin q).slot q k).st = .loading)
    (running : (s.loadBegin q).cmd id = some c) :
    exec (.ctxLoadDone q) s = .next ((s.loadBegin q).loadDone q k id (cEntry c.pkt)) := by
  change execCtxLoadDone q s = _
  simp only [execCtxLoadDone, load, if_pos hub, if_pos slot, running]

/-- Settles O40: a command that ends leaves the list of running commands, and COMMAND_DONE is followed to the step of the command's
opcode. -/
theorem runningCommandsEnd : Obligations.RunningCommandsEnd := by
  unfold Obligations.RunningCommandsEnd
  refine fun s id c res running => ⟨State.finishCmd_running running, State.finishCmd_cmd running, fun hub sound early => ?steps,
    fun e hub failed plain => exec_commandDone_fails running hub failed plain,
    fun q k hub load slot cmd => exec_ctxLoadDone_loads hub load slot cmd⟩
  rw [exec_commandDone_steps running hub sound, State.cmdStep, if_neg early]
  refine ⟨fun op got => ?profile, fun op => ?scrub, fun op got => ?probe, fun op sel got => ?hbm, fun op sel left => ?tiles,
    fun op => ?destroy, fun op got => ?load, fun op got => ?create, fun op got => ?store, fun op => ?margin, fun op => ?unfence,
    fun op => ?diag, fun op got => ?fw⟩
  case profile | load | create | store | fw => simp only [op, got, if_true]
  case scrub | destroy | margin => simp only [op]
  case probe => simp only [op, got, if_true, State.probeDone, sound]
  case hbm => simp only [op, State.configStep, sel, got, if_true]
  case tiles => simp only [op, State.configStep, sel, State.tilesStep, if_pos left]
  case unfence => simp only [op, State.unfenceDone, decide_eq_true_iff]
  case diag => simp only [op, State.diagDone]

end Sys2Proof.Machine
end

section
/-!
The Forager and the history reader (04, 12): records, demand reads, arrival slots, prefetches, pooled rows and history walks.

Each command is one of the model's operations on the state once its own conditions hold: `arrive`, `issueFor`, `issueWalk`,
`prefetch`, `freeSlot`, `takeRow`, `beginWalk`, `chunkPost`, `modWalk`. An arrival slot is reserved in two places, and what both
hold afterwards is read off the Hoard's slots and the request.
-/

namespace Sys2Proof.Machine

/-! ### A request as a change of it leaves it -/

/-- The first element that meets `p` is the one that `modFirst p` changes; it is still the first while it meets `p`. -/
theorem find?_modFirst {α : Type} {p : α → Bool} {f : α → α} {l : List α} {a : α} (first : l.find? p = some a)
    (still : p (f a) = true) : (modFirst p f l).find? p = some (f a) := by
  induction l with
  | nil => simp at first
  | cons b l ih =>
    rw [List.find?_cons] at first
    rw [modFirst]
    split at first
    next meets =>
      cases first
      rw [if_pos meets, List.find?_cons_of_pos still]
    next misses =>
      rw [if_neg (by simp [misses]), List.find?_cons_of_neg (by simp [misses]), ih first]

theorem State.req_id {s : State} {id : Nat} {q : Req} (req : s.req id = some q) : q.id = id := by
  simpa using List.find?_some req

theorem State.modReq_req_same {s : State} {id : Nat} {q : Req} {g : Req → Req} (req : s.req id = some q) (same : (g q).id = q.id) :
    (s.modReq id g).req id = some (g q) :=
  find?_modFirst req (by rw [same, State.req_id req, beq_self_eq_true])

theorem Req.modBag_id (q : Req) (smp grp ent : Nat) (f : Bag → Bag) : (q.modBag smp grp ent f).id = q.id := rfl

/-! ### Arrival slots (05 R169) -/

/-- The arrival slot that a bag of a request is given. -/
def State.newArrSlot (s : State) (q : Req) (id smp grp ent : Nat) : ArrSlot :=
  { used := true, den := q.den, req := id, smp := smp, grp := grp, ent := ent, final := q.closed,
    lines := (s.table ((s.groupOf q grp).tabs.getD ent (0, 0)).1).accLines }

/-- Slot `n` holds `a`, and the bag of request `id` names it. -/
def State.reserveArr (s : State) (id smp grp ent n : Nat) (a : ArrSlot) : State :=
  { s with hoard := { s.hoard with arr := mset {} s.hoard.arr n a } }.modReq id (fun r =>
    r.modBag smp grp ent (fun y => { y with slot := some n }))

section Reserve
variable (s : State) (id smp grp ent n : Nat) (a : ArrSlot)

theorem State.reserveArr_slot (j : Nat) :
    mget ({} : ArrSlot) (s.reserveArr id smp grp ent n a).hoard.arr j = if j = n then a else mget {} s.hoard.arr j := by
  rw [State.reserveArr, State.modReq_hoard, mget_mset]

theorem State.reserveArr_req {q : Req} (req : s.req id = some q) :
    (s.reserveArr id smp grp ent n a).req id = some (q.modBag smp grp ent (fun y => { y with slot := some n })) :=
  State.modReq_req_same (s := { s with hoard := { s.hoard with arr := mset {} s.hoard.arr n a } }) req (Req.modBag_id ..)

end Reserve

/-! ### The Forager's commands, each under its own conditions (04 R121 to R142) -/

section Forager
variable {s : State} (hub : s.hub = true)
include hub

section Record
variable {id : Nat} {b : Bytes} {rest : List (Nat × Bytes)} {q : Req} (head : s.forager.inq = (id, b) :: rest)
  (req : s.req id = some q)
include head req

theorem exec_foragerRecordArrive_takes (live : q.phase ≠ .aborting) :
    exec .foragerRecordArrive s = .next (State.arrive { s with forager := { s.forager with inq := rest } } q b) := by
  change execForagerRecordArrive s = _
  simp only [execForagerRecordArrive, head, req]
  rw [if_pos hub, if_neg live]

theorem exec_foragerRecordArrive_loses (ended : q.phase = .aborting) :
    exec .foragerRecordArrive s = .next { s with forager := { s.forager with inq := rest } } := by
  change execForagerRecordArrive s = _
  simp only [execForagerRecordArrive, head, req]
  rw [if_pos hub, if_pos ended]

end Record

section Gather
variable {u : State} (calm : s.readWaits = [])
include calm

theorem exec_gatherIssue_demand (issue : (s.reqs.filter (fun q => q.phase == .placed)).findSome? s.issueFor = some u) :
    exec .gatherIssue s = .next u := by
  change execGatherIssue s = _
  simp only [execGatherIssue, calm, State.each, List.foldl_nil, issue]
  rw [if_pos hub]

theorem exec_gatherIssue_walk (idle : (s.reqs.filter (fun q => q.phase == .placed)).findSome? s.issueFor = none)
    (issue : s.reqs.findSome? s.issueWalk = some u) : exec .gatherIssue s = .next u := by
  change execGatherIssue s = _
  simp only [execGatherIssue, calm, State.each, List.foldl_nil, idle, issue]
  rw [if_pos hub]

end Gather

theorem exec_arrivalReserve_reserves {id smp grp ent n : Nat} {q : Req} (req : s.req id = some q) (free : s.freeArrSlot = some n)
    (placed : q.phase = .placed) (unslotted : (q.bag smp grp ent).slot = none) (remote : s.bagRemote q smp grp ent = true)
    (share : s.arrOf q.den < max 1 (s.den q.den).arrMax.toNat) :
    exec (.arrivalReserve id smp grp ent) s = .next (s.reserveArr id smp grp ent n (s.newArrSlot q id smp grp ent)) := by
  change execArrivalReserve id smp grp ent s = _
  simp only [execArrivalReserve, req, free]
  rw [if_pos ⟨hub, placed, unslotted, remote, share⟩]
  rfl

theorem exec_prefetchIssue_prefetches {id e : Nat} {q : Req} {x : FRec} (req : s.req id = some q) (engine : s.prefetchEngine = some e)
    (row : s.forager.ibuf.find? (s.prefetchable q) = some x) (candidate : s.isCandidate q = true) (share : s.maySlot q.den = true)
    (tokens : s.readTokens q.den = true) (idle : s.demandWaits = false) :
    exec (.prefetchIssue id) s = .next (s.prefetch q x e) := by
  change execPrefetchIssue id s = _
  simp only [execPrefetchIssue, req, engine, row]
  rw [if_pos ⟨hub, candidate, share, tokens, by simp [idle]⟩]

theorem exec_prefetchDone_frees {n : Nat}
    (filled : s.forager.slots.any (fun x => x.r.id == n && x.kind == .prefetch && x.data.isSome) = true) :
    exec (.prefetchDone n) s = .next (s.freeSlot n true) := by
  change execPrefetchDone n s = _
  rw [execPrefetchDone, if_pos ⟨hub, filled⟩]

theorem exec_rowPooled_pools {n : Nat} {g : GSlot} {q : Req} {b : Bytes}
    (slot : s.forager.slots.find? (fun x => x.r.id == n && x.kind != .prefetch && x.data.isSome) = some g)
    (req : s.req g.r.req = some q) (data : g.data = some b) :
    exec (.rowPooled n) s = .next ((s.freeSlot n false).takeRow g.r (s.ownOf (s.tabOf q g.r.table)) false
      ((s.tabOf q g.r.table).rowVals b) g.poison) := by
  change execRowPooled n s = _
  simp only [execRowPooled, slot, req, data, Option.getD_some]
  rw [if_pos hub]

end Forager

/-! ### The commands of a history walk, each under its own conditions (12 R371 to R381) -/

section Walks
variable {s : State} {id : Nat} {q : Req} {w : Walk} (hub : s.hub = true) (req : s.req id = some q) (walk : q.walk = some w)
  (running : q.phase = .running)
include hub req walk running

section Begin
variable (fresh : w.begun = false) (room : s.walksRunning < 64)
include fresh room

theorem exec_histWalkBegin_beyond (beyond : (s.den q.den).hdirLen.toNat ≤ dHistId q.desc) :
    exec (.histWalkBegin id) s = .next (s.beginWalk q none) := by
  change execHistWalkBegin id s = _
  simp only [execHistWalkBegin, req, walk]
  rw [if_pos ⟨hub, by simp [fresh], running, room⟩, if_pos beyond]

theorem exec_histWalkBegin_entry {b : Bytes} {p : Bool} {v : State} (inside : dHistId q.desc < (s.den q.den).hdirLen.toNat)
    (entry : s.walkRead q.den ((s.den q.den).hdirBase.toNat + 32 * dHistId q.desc) 32 = some (b, p, v)) :
    exec (.histWalkBegin id) s = .next (v.beginWalk q (v.readEntry q.den b)) := by
  change execHistWalkBegin id s = _
  simp only [execHistWalkBegin, req, walk, entry]
  rw [if_pos ⟨hub, by simp [fresh], running, room⟩, if_neg (Nat.not_le.2 inside)]

end Begin

section Chunks
variable {h : HistDecl} (hist : (s.entryOf q).hist = some h) (begun : w.begun = true) (going : w.done = false)
include hist begun going

theorem exec_histChunkPost_posts (reading : w.reading = true) (whole : w.examined = w.chunkEnd) (settled : s.walkOpen id = false) :
    exec (.histChunkPost id) s = .next (s.chunkPost q h w) := by
  change execHistChunkPost id s = _
  simp only [execHistChunkPost, req, walk, hist]
  rw [if_pos ⟨hub, begun, by simp [going], reading, whole, by simp [settled], .inl running⟩]

theorem exec_histReadResume_resumes (waiting : w.reading = false) (released : s.bufFree q h (w.chunk % 2) = true) :
    exec (.histReadResume id) s = .next (s.modWalk id (fun y => { y with reading := true })) := by
  change execHistReadResume id s = _
  simp only [execHistReadResume, req, walk, hist]
  rw [if_pos ⟨hub, running, begun, by simp [going], by simp [waiting], released⟩]

end Chunks

end Walks

/-! ### The statement, a clause at a time -/

/-- 05 R169: a reserved arrival slot, as the Hoard's slots and the request see it. -/
theorem exec_arrivalReserve_slot {s : State} {id smp grp ent n : Nat} {q : Req} (hub : s.hub = true) (req : s.req id = some q)
    (free : s.freeArrSlot = some n) (placed : q.phase = .placed) (unslotted : (q.bag smp grp ent).slot = none)
    (remote : s.bagRemote q smp grp ent = true) (share : s.arrOf q.den < max 1 (s.den q.den).arrMax.toNat) :
    ∃ u, exec (.arrivalReserve id smp grp ent) s = .next u ∧
      (∀ j, mget ({} : ArrSlot) u.hoard.arr j = if j = n then s.newArrSlot q id smp grp ent else mget {} s.hoard.arr j) ∧
      u.req id = some (q.modBag smp grp ent (fun y => { y with slot := some n })) :=
  ⟨_, exec_arrivalReserve_reserves hub req free placed unslotted remote share,
    State.reserveArr_slot s id smp grp ent n _, State.reserveArr_req s id smp grp ent n _ req⟩

/-- Settles O22: each command is followed to its operation; a reserved slot is read off the Hoard's slots, number by number, and off
the request's bag. -/
theorem foragerGathers : Obligations.ForagerGathers := by
  unfold Obligations.ForagerGathers
  refine ⟨fun s hub => ⟨fun id b rest q head req live => exec_foragerRecordArrive_takes hub head req live,
      fun id b rest q head req ended => exec_foragerRecordArrive_loses hub head req ended,
      fun u calm issue => exec_gatherIssue_demand hub calm issue,
      fun u calm idle issue => exec_gatherIssue_walk hub calm idle issue,
      fun id smp grp ent q n req free placed unslotted remote share => ?reserve,
      fun id q e x req engine row candidate share tokens idle =>
        exec_prefetchIssue_prefetches hub req engine row candidate share tokens idle,
      fun n filled => exec_prefetchDone_frees hub filled,
      fun n g q b slot req data => exec_rowPooled_pools hub slot req data⟩,
    fun s id q w hub req walk =>
      ⟨fun fresh running room beyond => exec_histWalkBegin_beyond hub req walk running fresh room beyond,
      fun b p v fresh running room inside entry => exec_histWalkBegin_entry hub req walk running fresh room inside entry,
      fun h hist begun going reading whole settled running =>
        exec_histChunkPost_posts hub req walk running hist begun going reading whole settled,
      fun h hist running begun going waiting released =>
        exec_histReadResume_resumes hub req walk running hist begun going waiting released⟩⟩
  case reserve =>
    obtain ⟨u, run, slots, bag⟩ := exec_arrivalReserve_slot hub req free placed unslotted remote share
    refine ⟨u, run, fun j other => ?_, ?_, ?_, bag⟩
    · rw [slots, if_neg other]
    · rw [slots, if_pos rfl, State.newArrSlot]
    · rw [slots, if_pos rfl, State.newArrSlot]

end Sys2Proof.Machine
end

section
/-!
The state after reset (18 R592): every table of the state is empty, so each of its elements holds the default of its type.
-/

namespace Sys2Proof.Machine

/-! ### The elements of the state after reset -/

@[simp] theorem State.reset_ring (k : Nat) : State.reset.ring k = {} := rfl
@[simp] theorem State.reset_den (d : Nat) : State.reset.den d = {} := rfl
@[simp] theorem State.reset_stack (n : Nat) : State.reset.stack n = {} := rfl
@[simp] theorem State.reset_tile (t : Nat) : State.reset.tile t = {} := rfl
@[simp] theorem State.reset_tmr (n : Nat) : State.reset.tmr n = {} := rfl
@[simp] theorem State.reset_table (t : Nat) : State.reset.table t = {} := rfl

/-- HBM's memory is empty after reset, and no virtual function is enabled. -/
theorem State.reset_inv : State.reset.inv := ⟨rfl, Nat.zero_le 32⟩

/-- Settles O53: the invariant holds of the empty memory, and each element of a table is read as the default of its type. -/
theorem resetValues : Obligations.ResetValues := by
  unfold Obligations.ResetValues
  refine ⟨State.reset_inv, fun k => ?ring, fun d => ?den, fun n => ?stack, fun t => ?tile, fun n => ?timer, fun t => ?table,
    rfl, rfl, rfl, rfl, rfl, rfl⟩
  case ring => rw [State.reset_ring]
  case den =>
    rw [State.reset_den]
    exact ⟨rfl, rfl, rfl, rfl, rfl⟩
  case stack =>
    rw [State.reset_stack]
    exact ⟨rfl, rfl⟩
  case tile =>
    rw [State.reset_tile]
    exact ⟨rfl, rfl⟩
  case timer =>
    rw [State.reset_tmr]
    exact ⟨rfl, rfl, rfl⟩
  case table => rw [State.reset_table]

end Sys2Proof.Machine
end

section
/-!
The requests that a slice of the Hoard serves (05 R149 to R151, R162 to R165, R231).

A row of the Hoard is one HCLK of a slice: it acts when the head that round robin picks is of the kind that the row names. What
serving a request does is said once for each kind, the three kinds of atomics going through `State.applyAtomic`. A lane atomic makes
its extent lane by lane, so lane `i` of the result is the lane operation on lane `i` of the old bytes and of the operands.
-/

namespace Sys2Proof.Machine

/-! ### The head that a slice serves -/

/-- A row acts when the request that the slice serves is of its kind. -/
theorem State.sliceRow_serves {s t : State} {n : Nat} {r : HReq} {k : HKind} {row : HKind → Bool} (hub : s.hub = true)
    (next : s.nextServed n = some (r, t)) (kind : r.kind = k) (named : row k = true) : s.sliceRow n row = t := by
  simp only [State.sliceRow, hub, next, kind, named, if_true]

/-- HOARD_REQUEST enters the ECC error that it finds, and then serves a read or a write. -/
theorem exec_hoardRequest (n ecc : Nat) (s : State) : exec (.hoardRequest n ecc) s =
    .next ((if s.hub ∧ (ecc = 1 ∨ ecc = 2) then s.hoardEcc n ecc else s).sliceRow n HKind.isPlain) := by
  change execHoardRequest n ecc s = _
  refine congrArg (fun row => Host.Outcome.next (State.sliceRow _ n row)) ?_
  funext k
  cases k <;> rfl

/-- 05 R149: a served request is the head of one of the five ports, and leaves it. -/
theorem State.nextServed_head {s t : State} {n : Nat} {r : HReq} (next : s.nextServed n = some (r, t)) :
    ∃ p, p < 5 ∧ (s.hPort n p).head? = some r ∧ (s.popPort n p).serveReq r = some t := by
  obtain ⟨p, mem, served⟩ := List.exists_of_findSome?_eq_some next
  obtain ⟨i, -, rfl⟩ := List.mem_map.1 mem
  refine ⟨(mget 4 s.hoard.lastPort n + 1 + i) % 5, Nat.mod_lt _ (by decide), ?_⟩
  cases queue : s.hPort n ((mget 4 s.hoard.lastPort n + 1 + i) % 5) with
  | nil => simp [queue] at served
  | cons q rest =>
    simp only [queue, Option.map_eq_some_iff, Prod.mk.injEq] at served
    obtain ⟨u, served, rfl, rfl⟩ := served
    exact ⟨rfl, served⟩

/-! ### What serving a request does -/

section Serving
variable {s v : State} {r : HReq}

theorem State.serveReq_read {f : Bool} (kind : r.kind = .read f) (there : s.reach r f false = some v) :
    s.serveReq r = some (v.answer r.dst (v.devRead r.addr r.len) (v.devBad r.addr r.len)) := by
  simp only [State.serveReq, kind, there, Option.map_some]

theorem State.serveReq_write {f : Bool} (kind : r.kind = .write f) (there : s.reach r f true = some v) :
    s.serveReq r = some ((v.devWrite r.addr r.data).answer r.dst [] false) := by
  simp only [State.serveReq, kind, there, Option.map_some]

theorem State.serveReq_lanes {op fmt n : Nat} {ret : Bool} (kind : r.kind = .lanes op fmt n ret)
    (there : s.reach r true true = some v) :
    s.serveReq r = some (v.applyAtomic r (fun old => laneAtomic op fmt n old r.data) ret) := by
  simp only [State.serveReq, kind, there, Option.map_some]

theorem State.serveReq_cas {a b : W64} (kind : r.kind = .cas a b) (there : s.reach r true true = some v) :
    s.serveReq r = some (v.applyAtomic r (fun old => if leNat old = a.toNat then toLe 8 b.toNat else old) true) := by
  simp only [State.serveReq, kind, there, Option.map_some]

theorem State.serveReq_swap {b : W64} (kind : r.kind = .swap b) (there : s.reach r true true = some v) :
    s.serveReq r = some (v.applyAtomic r (fun _ => toLe 8 b.toNat) true) := by
  simp only [State.serveReq, kind, there, Option.map_some]

theorem State.serveReq_commit {i : Nat} {x : RowDir} (kind : r.kind = .commit i)
    (staged : s.hoard.dirs.find? (fun y => y.id == i) = some x) : s.serveReq r = some (s.commitRow x) := by
  simp only [State.serveReq, kind, staged]

/-- 05 R162 to R164: an atomic stores what it makes of the old bytes, and answers with those when it returns a value. -/
theorem State.applyAtomic_sound (f : Bytes → Bytes) (ret : Bool) (sound : v.devBad r.addr r.len = false) :
    v.applyAtomic r f ret = ((v.devWrite r.addr (f (v.devRead r.addr r.len))).countFor r.den cAtom).answer r.dst
      (if ret then v.devRead r.addr r.len else []) false := by
  simp only [State.applyAtomic, sound, Bool.false_eq_true, if_false]

/-- 22 R725: an atomic on a poisoned extent is not applied. -/
theorem State.applyAtomic_poisoned (f : Bytes → Bytes) (ret : Bool) (poisoned : v.devBad r.addr r.len = true) :
    v.applyAtomic r f ret = v.answer r.dst [] true := by
  simp only [State.applyAtomic, poisoned, if_true]

end Serving

/-! ### Little-endian bytes, and runs of pieces of one length -/

@[simp] theorem toLe_length (n v : Nat) : (toLe n v).length = n := by
  induction n generalizing v with
  | zero => rfl
  | succ n ih => rw [toLe, List.length_cons, ih]

theorem leNat_toLe (n v : Nat) : leNat (toLe n v) = v % 256 ^ n := by
  induction n generalizing v with
  | zero => rw [toLe, leNat, Nat.pow_zero, Nat.mod_one]
  | succ n ih => rw [toLe, leNat, ih, BitVec.toNat_ofNat, Nat.mod_mod_of_dvd _ (dvd_refl 256), Nat.pow_succ', Nat.mod_mul]

/-- A 32-bit word is the value of its four bytes (00 R9). -/
@[simp] theorem leNat_toLe_word (w : W32) : leNat (toLe 4 w.toNat) = w.toNat := by
  exact (leNat_toLe 4 w.toNat).trans (Nat.mod_eq_of_lt w.isLt)

section Pieces
variable {f : Nat → Bytes} {k : Nat} (pieces : ∀ i, (f i).length = k)
include pieces

theorem length_flatMap_range (n : Nat) : ((List.range n).flatMap f).length = k * n := by
  simp [List.length_flatMap, pieces, Nat.mul_comm]

/-- Byte `j` of piece `i`, the pieces being `k` bytes each. -/
theorem getD_flatMap_range {i n j : Nat} (hi : i < n) (hj : j < k) :
    ((List.range n).flatMap f).getD (k * i + j) 0 = (f i).getD j 0 := by
  induction n with
  | zero => omega
  | succ n ih =>
    have before := length_flatMap_range pieces n
    rw [List.range_succ, List.flatMap_append, List.flatMap_singleton]
    rcases Nat.lt_succ_iff_lt_or_eq.1 hi with below | rfl
    · have inside : k * i + j < k * n := by
        calc k * i + j < k * (i + 1) := by rw [Nat.mul_succ]; omega
          _ ≤ k * n := Nat.mul_le_mul_left k below
      rw [List.getD_append _ _ _ _ (before ▸ inside), ih below]
    · rw [List.getD_append_right _ _ _ _ (by omega), before, Nat.add_sub_cancel_left]

theorem sliceB_flatMap_range {i n : Nat} (hi : i < n) : sliceB ((List.range n).flatMap f) (k * i) k = f i := by
  refine List.ext_getElem (by simp [sliceB, pieces]) (fun j _ hj => ?_)
  have hj' : j < k := pieces i ▸ hj
  simp only [sliceB, List.getElem_map, List.getElem_range]
  rw [getD_flatMap_range pieces hi hj', List.getD_eq_getElem _ _ hj]

end Pieces

/-! ### Lane atomics on INT32 (05 R163) -/

theorem laneOp_int32_length (op old arg : Nat) : (laneOp op 0xA old arg).length = 4 := toLe_length 4 _

theorem laneAtomic_int32_length (op n : Nat) (old arg : Bytes) : (laneAtomic op 0xA n old arg).length = 4 * n :=
  length_flatMap_range (fun _ => laneOp_int32_length op _ _) n

/-- Each lane is the lane operation on the old lane and the operand's. -/
theorem laneAtomic_int32_lane (op : Nat) {n i : Nat} (old arg : Bytes) (hi : i < n) :
    BitVec.ofNat 32 (fld (laneAtomic op 0xA n old arg) (4 * i) 4) =
      laneInt op (BitVec.ofNat 32 (fld old (4 * i) 4)) (BitVec.ofNat 32 (fld arg (4 * i) 4)) := by
  have piece : sliceB (laneAtomic op 0xA n old arg) (4 * i) 4 = laneOp op 0xA (fld old (4 * i) 4) (fld arg (4 * i) 4) :=
    sliceB_flatMap_range (fun _ => laneOp_int32_length op _ _) hi
  rw [fld, piece, laneOp, leNat_toLe_word, BitVec.ofNat_toNat, BitVec.setWidth_eq]

theorem laneInt_max (a b : W32) : (laneInt 2 a b).toInt = max a.toInt b.toInt := by
  rw [laneInt, apply_ite BitVec.toInt, max_def]
  split <;> split <;> omega

theorem laneInt_min (a b : W32) : (laneInt 3 a b).toInt = min a.toInt b.toInt := by
  show (if b.toInt < a.toInt then b else a).toInt = _
  rw [apply_ite BitVec.toInt, min_def]
  split <;> split <;> omega

/-! ### The obligation -/

/-- Settles O23: the rows by the kind of the head that is served, the effects by the request's kind, INT32 lane by lane. -/
theorem hoardRequests : Obligations.HoardRequests := by
  unfold Obligations.HoardRequests
  refine ⟨fun s t n r hub next => ?rows, fun s v r => ?effects, fun n i old arg hi => ?lanes⟩
  case rows =>
    have serves {k : HKind} {row : HKind → Bool} (kind : r.kind = k) (named : row k = true) :
        (.next (s.sliceRow n row) : Host.Outcome State Fault Refusal) = .next t :=
      congrArg _ (State.sliceRow_serves hub next kind named)
    refine ⟨State.nextServed_head next, fun f plain => ?_, fun fmt k ret kind => serves kind rfl, fun fmt k ret kind => serves kind rfl,
      fun fmt k ret kind => serves kind rfl, fun a b kind => serves kind rfl, fun v kind => serves kind rfl,
      fun i kind => serves kind rfl⟩
    rw [exec_hoardRequest, if_neg (by simp)]
    exact plain.elim (fun kind => serves kind rfl) (fun kind => serves kind rfl)
  case effects =>
    refine ⟨fun f kind there => State.serveReq_read kind there, fun f kind there => State.serveReq_write kind there,
      fun op fmt n ret kind there sound => ?_, fun a b kind there sound => ?_, fun b kind there sound => ?_,
      fun b kind there poisoned => ?_, fun i x kind staged => State.serveReq_commit kind staged⟩
    · rw [State.serveReq_lanes kind there, State.applyAtomic_sound _ _ sound]
    · rw [State.serveReq_cas kind there, State.applyAtomic_sound _ _ sound, if_pos rfl]
    · rw [State.serveReq_swap kind there, State.applyAtomic_sound _ _ sound, if_pos rfl]
    · rw [State.serveReq_swap kind there, State.applyAtomic_poisoned _ _ poisoned]
  case lanes =>
    have lane (op : Nat) := laneAtomic_int32_lane op old arg hi
    exact ⟨lane 1, (congrArg _ (lane 2)).trans (laneInt_max _ _), (congrArg _ (lane 3)).trans (laneInt_min _ _),
      fun op => laneAtomic_int32_length op n old arg⟩

end Sys2Proof.Machine
end

section
/-!
What changes the Hoard beside its requests: ECC errors in a line (05 R177), way changes (05 R157), the end of a pin refill (05 R159)
and the end of a flush (05 R175).
-/

namespace Sys2Proof.Machine

/-! ### ECC errors (05 R177, 22 R719) -/

theorem exec_hoardRequest_ecc {s : State} {n ecc : Nat} (hub : s.hub = true) (found : ecc = 1 ∨ ecc = 2) :
    exec (.hoardRequest n ecc) s = .next ((s.hoardEcc n ecc).sliceRow n HKind.isPlain) := by
  rw [exec_hoardRequest, if_pos ⟨hub, found⟩]

section Ecc
variable {s t : State} {n k : Nat} {r : HReq} {l : HLine} (next : s.nextServed n = some (r, t))
  (held : s.hoard.find r.addr = some (k, l))
include next held

theorem State.hoardEcc_corrected :
    s.hoardEcc n 1 = State.fault { s with hoard := { s.hoard with corr := satAdd s.hoard.corr 1 } } 0x0102
      (mkLoc 2 n none false (k / 16 % 4096 + 4096 * (k % 16))) := by
  simp only [State.hoardEcc, next, held, if_true]

/-- A line that HBM does not hold as it is stays, with its granule poisoned. -/
theorem State.hoardEcc_poisons (dirty : l.dirty = true) :
    s.hoardEcc n 2 = State.fault { s with hoard := { s.hoard with
        uncorr := satAdd s.hoard.uncorr 1
        lines := mput s.hoard.lines k { l with poison := l.poison ||| BitVec.ofNat 16 (2 ^ (r.addr % 128 / 8)) } } } 0x0103
      (mkLoc 2 n none false (k / 16 % 4096 + 4096 * (k % 16))) := by
  simp [State.hoardEcc, next, held, dirty]

theorem State.hoardEcc_drops (clean : l.dirty = false) (hbm : l.addr < hbmSize) :
    s.hoardEcc n 2 = State.fault { s with hoard := { s.hoard with
        uncorr := satAdd s.hoard.uncorr 1, lines := merase s.hoard.lines k } } 0x0103
      (mkLoc 2 n none false (k / 16 % 4096 + 4096 * (k % 16))) := by
  simp [State.hoardEcc, next, held, clean, Nat.not_le.2 hbm]

end Ecc

/-! ### Way changes (05 R157) -/

/-- Of the Hoard, a write-back changes the directory of staged rows and nothing else (05 R168, R173). -/
theorem State.writeLineBack_ways (s : State) (l : HLine) : (s.writeLineBack l).hoard.ways = s.hoard.ways := by
  simp only [State.writeLineBack, State.chargeHbm, State.charge, State.count, State.modDen_hoard, State.queueHbm, Hoard.wbEnded]

theorem State.evict_ways (s : State) (k : Nat) : (s.evict k).hoard.ways = s.hoard.ways := by
  unfold State.evict
  split
  · dsimp only
    split
    · exact s.writeLineBack_ways _
    · rfl
  · rfl

theorem State.each_evict_ways (s : State) (ks : List Nat) : (s.each ks State.evict).hoard.ways = s.hoard.ways := by
  induction ks generalizing s with
  | nil => rfl
  | cons k ks ih => exact (ih (s.evict k)).trans (s.evict_ways k)

theorem State.applyWay_way (s : State) (w : Nat) (m : WayMode × Nat) (v : Nat) :
    (s.applyWay w m).way v = if v = w then { mode := m.1, owner := m.2 } else s.way v := by
  have kept (ks : List Nat) :
      (if (s.way w).mode = .shared then s.each ks State.evict else s).hoard.ways = s.hoard.ways := by
    split
    · exact s.each_evict_ways ks
    · rfl
  rw [State.applyWay, State.modWay_way]
  exact if_congr Iff.rfl rfl (congrArg (fun ways => mget ({} : Way) ways v) (kept _))

theorem State.applyWay_lines (s : State) (w : Nat) (m : WayMode × Nat) : ∀ p ∈ (s.applyWay w m).hoard.lines, p.1 % 16 ≠ w := by
  intro p mem
  have kept := (List.mem_filter.1 mem).2
  simpa [lineWay] using kept

theorem exec_wayChangeDone_changes {s : State} {w : Nat} {m : WayMode × Nat} (hub : s.hub = true)
    (waits : (s.way w).change = some m) (free : s.hoard.wayHeld w = false) :
    exec (.wayChangeDone w) s = .next (s.applyWay w m) := by
  change execWayChangeDone w s = _
  simp [execWayChangeDone, waits, hub, free]

/-! ### Pin refills and flushes (05 R159, R175) -/

theorem exec_pinRefillDone_serves {s : State} {n : Nat} (hub : s.hub = true) (present : (s.table n).present = true)
    (pin : (s.table n).pin = true) (filling : (s.table n).pinFilling = true) :
    exec (.pinRefillDone n) s = .next (s.modTable n (fun x => { x with pinVer := some x.active, pinFilling := false })) := by
  change execPinRefillDone n s = _
  simp only [execPinRefillDone, hub, present, pin, filling, and_self, if_true]

/-- The flush has ended, and the Hoard is off. -/
def State.flushEnded (s : State) : State :=
  let u := s.flushAll
  { u with hoard := { u.hoard with flushActive := false, flushDone := true, off := true }
           pcie := { u.pcie with retFlushOk := true, retSt := 2 } }

theorem exec_flushDone_ends {s : State} (hub : s.hub = true) (active : s.hoard.flushActive = true)
    (cold : s.boot.phase ≠ .warmFlush) : exec .flushDone s = .next s.flushEnded.leaveRetain := by
  change execFlushDone s = _
  rw [execFlushDone, if_pos ⟨hub, active⟩]
  exact congrArg (fun u : State => Host.Outcome.next u.leaveRetain) (if_neg cold)

/-! ### The obligation -/

/-- Settles O24: each row is followed to its operation; what the operation leaves is read off the ways, the tables and the lines. -/
theorem hoardState : Obligations.HoardState := by
  unfold Obligations.HoardState
  refine ⟨fun s t n k r l hub next held => ⟨?corrected, fun dirty => ?poisons, fun clean hbm => ?drops⟩,
    fun s hub => ⟨fun w m waits free => ?way, fun n present pin filling => ?pin, fun active cold => ?flush⟩⟩
  case corrected => rw [exec_hoardRequest_ecc hub (.inl rfl), State.hoardEcc_corrected next held]
  case poisons => rw [exec_hoardRequest_ecc hub (.inr rfl), State.hoardEcc_poisons next held dirty]
  case drops => rw [exec_hoardRequest_ecc hub (.inr rfl), State.hoardEcc_drops next held clean hbm]
  case way =>
    have changed : (s.applyWay w m).way w = { mode := m.1, owner := m.2 } := by rw [State.applyWay_way, if_pos rfl]
    refine ⟨s.applyWay w m, exec_wayChangeDone_changes hub waits free, ?_, ?_, ?_, s.applyWay_lines w m, fun v other => ?_⟩
    · rw [changed]
    · rw [changed]
    · rw [changed]
    · rw [State.applyWay_way, if_neg other]
  case pin =>
    refine ⟨_, exec_pinRefillDone_serves hub present pin filling, ?_, fun m other => ?_, rfl⟩
    · rw [State.modTable_table, if_pos rfl]
    · rw [State.modTable_table, if_neg other]
  case flush => exact ⟨s.flushEnded, exec_flushDone_ends hub active cold, rfl, rfl, rfl, rfl, rfl, rfl⟩

end Sys2Proof.Machine
end

section
/-!
Requests of other devices and the answers to this device's own (16 R514, R535 to R542, 05 R170, R172).

A message that arrives leaves the receive buffer as `State.taken` says and acts on that state. An answer finds its transaction, ends
it, and acts by its STATUS.
-/

namespace Sys2Proof.Machine

/-! ### A message that arrives -/

/-- A message that R524 accepts is as long as its header says. -/
theorem msgOk_length {m : Bytes} (ok : msgOk m = true) : m.length = 32 * mFlits m := by
  simp only [msgOk, Bool.and_eq_true, decide_eq_true_eq] at ok
  tauto

section Arriving
variable {s : State} {p : Nat} {m : Bytes} {ty : Nat} (arrives : Arrives s p m ty)
include arrives

theorem State.receive_arrives (f : State → State) : s.receive p m ty f = f (s.taken p m) := by
  obtain ⟨up, type, here, ok⟩ := arrives
  have takes : s.portUp p = true ∧ mType m = ty ∧ mDst m = s.fab.wid ∧ m.length = 32 * mFlits m :=
    ⟨up, type, here, msgOk_length ok⟩
  simp only [State.receive, if_pos takes, if_pos ok, State.taken]

/-- A command that receives messages of a type acts on one that arrives. -/
theorem exec_of_receive {c : Instr} {f : State → State} {u : State} (command : exec c s = .next (s.receive p m ty f))
    (effect : f (s.taken p m) = u) : exec c s = .next u := by
  rw [command, State.receive_arrives arrives, effect]

end Arriving

/-! ### The owner's side (16 R537, R541, R542; 13 R416) -/

theorem State.refuses_iff (s : State) : s.refuses = true ↔ s.pwr.st = .retain ∨ s.pwr.st = .limp := by
  simp only [State.refuses, Bool.or_eq_true, decide_eq_true_eq]

theorem exec_poolReq_open {s : State} {p : Nat} {m : Bytes} (tokens : (s.den (mDen m)).open .ifs = true) :
    exec (.poolReq p m) s = .next (s.receive p m 0x11 (fun s => s.servePool m)) := by
  change execPoolReq p m s = _
  rw [execPoolReq, if_pos tokens]

theorem exec_poolReq_waits {s : State} {p : Nat} {m : Bytes} (up : s.portUp p = true)
    (empty : (s.den (mDen m)).open .ifs = false) : exec (.poolReq p m) s = .next (s.count (mDen m) cRegWait 1) := by
  change execPoolReq p m s = _
  rw [execPoolReq, if_neg (by simp [empty]), if_pos up]

section Refusing
variable {u : State} (refuses : u.refuses = true) (m : Bytes)
include refuses

theorem State.bulkStatus_refuses (n : Nat) : u.bulkStatus m n = 3 := by rw [State.bulkStatus, if_pos refuses]

theorem State.serveRead_refuses : u.serveRead m = u.respond m 0x21 3 (toLe 2 0) [] := by
  simp [State.serveRead, State.bulkStatus_refuses refuses]

theorem State.serveWrite_refuses : u.serveWrite m = u.respond m 0x22 3 [] [] := by
  simp [State.serveWrite, State.bulkStatus_refuses refuses]

theorem State.serveAtomic_refuses : u.serveAtomic m = u.respond m 0x23 3 [] [] := by
  simp only [State.serveAtomic, refuses, if_true]

end Refusing

/-! ### The requester's side (16 R535, R539, 05 R172) -/

section Answers
variable {u : State} {m : Bytes} {x : Xact} (good : State → Xact → Bool → State)

theorem State.takeAnswer_ok (xact : u.xactOf m = some x) (ok : mStatus m = 0) :
    u.takeAnswer m good = good (u.endXact x) x false := by
  simp only [State.takeAnswer, xact, if_pos ok]

theorem State.takeAnswer_late (unknown : u.xactOf m = none) : u.takeAnswer m good = u.lateAnswer := by
  simp only [State.takeAnswer, unknown]

theorem State.takeAnswer_fails (xact : u.xactOf m = some x) (low : 1 ≤ mStatus m) (high : mStatus m ≤ 3) :
    u.takeAnswer m good = (u.endXact x).failXact x (mStatus m) := by
  simp only [State.takeAnswer, xact]
  rw [if_neg (by omega), if_neg (by omega)]

end Answers

theorem exec_xactTimeout_fails {s : State} {tid : W32} {x : Xact} (hub : s.hub = true) (awake : s.fab.hushed = [])
    (xact : s.fab.xacts.find? (fun y => y.tid == tid) = some x) :
    exec (.xactTimeout tid) s = .next ((s.endXact x).failXact x 0) := by
  change execXactTimeout tid s = _
  simp only [execXactTimeout, xact, hub, awake, List.isEmpty_nil, and_self, if_true]

/-! ### The obligation -/

/-- Settles O35: a message that arrives acts on the state without it; an answer then by its transaction and STATUS. -/
theorem remoteRequests : Obligations.RemoteRequests := by
  unfold Obligations.RemoteRequests
  refine ⟨fun s p m => ⟨fun arrives => exec_of_receive arrives rfl rfl,
      fun arrives tokens => exec_of_receive arrives (exec_poolReq_open tokens) rfl,
      fun up empty => exec_poolReq_waits up empty,
      fun arrives => exec_of_receive arrives rfl rfl, fun arrives => exec_of_receive arrives rfl rfl,
      fun arrives => exec_of_receive arrives rfl rfl, fun arrives serves => ?delivers,
      fun arrives refuses => exec_of_receive arrives rfl (if_pos ((State.refuses_iff _).1 refuses)),
      fun refuses => ⟨State.serveRead_refuses refuses m, State.serveWrite_refuses refuses m, State.serveAtomic_refuses refuses m⟩⟩,
    fun s p m => ⟨fun x r k arrives xact ok issuer => ?rowData,
      fun x arrives xact ok => exec_of_receive arrives rfl (State.takeAnswer_ok _ xact ok),
      fun x arrives xact ok => exec_of_receive arrives rfl (State.takeAnswer_ok _ xact ok),
      fun x t n arrives xact ok issuer => ?atomicRsp, fun x arrives xact ok => ?piece, fun arrives unknown => ?stray,
      fun arrives unknown => exec_of_receive arrives rfl (State.takeAnswer_late _ unknown),
      fun tid x hub awake xact => exec_xactTimeout_fails hub awake xact, fun st low high x arrives xact status => ?fails⟩⟩
  case delivers =>
    have answering  := (not_congr (State.refuses_iff _)).1 (Bool.eq_false_iff.1 serves)
    exact exec_of_receive arrives rfl (if_neg answering)
  case rowData => exact exec_of_receive arrives rfl (by rw [State.takeAnswer_ok _ xact ok]; simp only [issuer])
  case atomicRsp => exact exec_of_receive arrives rfl (by rw [State.takeAnswer_ok _ xact ok]; simp only [issuer])
  case piece => exact exec_of_receive arrives rfl (by simp only [xact, if_pos ok])
  case stray => exact exec_of_receive arrives rfl (by simp only [unknown])
  case fails =>
    subst status
    exact exec_of_receive arrives rfl (State.takeAnswer_fails _ xact low high)

end Sys2Proof.Machine
end

section
/-!
The sparse memory of HBM: a run reads back as written, a zeroed range reads zero, and both keep the canonical form (06 R189).
-/

namespace Sys2Proof.Machine

/-- What a table reads after the numbers of a range were taken out of it. -/
theorem mget_mclear {α : Type} (d : α) (m : SMap α) (lo hi j : Nat) :
    mget d (mclear m lo hi) j = if lo ≤ j ∧ j < hi then d else mget d m j := by
  induction m with
  | nil => exact (ite_self d).symm
  | cons p m ih =>
    obtain ⟨i, w⟩ := p
    by_cases inside : lo ≤ i ∧ i < hi
    · have gone : mclear ((i, w) :: m) lo hi = mclear m lo hi := List.filter_cons_of_neg (by simp; omega)
      rw [gone, ih, mget]
      by_cases here : i = j
      · subst here; rw [if_pos inside, if_pos inside]
      · rw [if_neg here]
    · have kept : mclear ((i, w) :: m) lo hi = (i, w) :: mclear m lo hi := List.filter_cons_of_pos (by simp; omega)
      rw [kept, mget, mget, ih]
      by_cases here : i = j
      · subst here; rw [if_pos rfl, if_neg inside, if_pos rfl]
      · rw [if_neg here, if_neg here]

theorem memGet_memZero (m : List Host.Cell) (lo hi j : Nat) :
    memGet (memZero m lo hi) j = if lo ≤ j ∧ j < hi then 0 else memGet m j := mget_mclear 0 m lo hi j

/-- Settles O5: a write by induction on its run of bytes, a zeroing by induction on the table. -/
theorem tablesReadBack : Obligations.TablesReadBack := by
  unfold Obligations.TablesReadBack
  exact ⟨memGet_memWrite, memGet_memZero, fun m a lo hi bs wf => ⟨memWrite_wf wf a bs, memZero_wf wf lo hi⟩⟩

end Sys2Proof.Machine
end

section
/-!
The interleave of a stripe (06 R183): `locate` and `unlocate` undo each other.

Both work on the round `rnd`, the granule within the round and the byte within the granule. The pseudo-channel is the granule
within the round, XORed with two bytes that `unlocate` knows as well, so XORing with them again gives it back.
-/

namespace Sys2Proof.Machine

theorem granBytes_eq_getD {g : Nat} (code : g ≤ 2) : granBytes g = [256, 4096, 65536].getD g 0 := by
  interval_cases g <;> rfl

theorem granBytes_cases (g : Nat) : granBytes g = 256 ∨ granBytes g = 4096 ∨ granBytes g = 65536 := by
  unfold granBytes
  split
  · exact .inl rfl
  · split
    · exact .inr (.inl rfl)
    · exact .inr (.inr rfl)

theorem granBytes_pos (g : Nat) : 0 < granBytes g := by
  have := granBytes_cases g
  omega

theorem xor_mod_xor_mod_lt {x : Nat} (byte : x < 256) (a b : Nat) : (x ^^^ a % 256) ^^^ b % 256 < 256 :=
  Nat.xor_lt_two_pow (n := 8) (Nat.xor_lt_two_pow (n := 8) byte (Nat.mod_lt a (by decide))) (Nat.mod_lt b (by decide))

theorem xor_xor_cancel_cross (x a b : Nat) : (((x ^^^ a) ^^^ b) ^^^ b) ^^^ a = x := by
  rw [Nat.xor_xor_cancel_right, Nat.xor_xor_cancel_right]

theorem locate_channel_lt (g st o : Nat) : (locate g st o).1 < 256 :=
  xor_mod_xor_mod_lt (Nat.mod_lt _ (by decide)) _ st

theorem locate_offset_lt (g st : Nat) {o : Nat} (inside : o < 16777216) : (locate g st o).2 < 65536 := by
  change o / granBytes g / 256 * granBytes g + o % granBytes g < 65536
  obtain size | size | size := granBytes_cases g <;> rw [size] <;> omega

/-- The round and the byte within the granule can be read off an offset. -/
theorem mul_add_mod_div {n : Nat} (pos : 0 < n) (k b : Nat) : (k * n + b % n) / n = k := by
  rw [Nat.mul_comm, Nat.mul_add_div pos, Nat.div_eq_of_lt (Nat.mod_lt b pos), Nat.add_zero]

theorem mul_add_mod_mod (n k b : Nat) : (k * n + b % n) % n = b % n := by
  rw [Nat.mul_comm, Nat.mul_add_mod, Nat.mod_mod]

theorem unlocate_locate (g st o : Nat) : unlocate g st (locate g st o).1 (locate g st o).2 = o := by
  simp only [locate, unlocate, mul_add_mod_div (granBytes_pos g), mul_add_mod_mod, xor_xor_cancel_cross]
  rw [Nat.div_add_mod', Nat.div_add_mod']

theorem locate_unlocate (g st : Nat) {p : Nat} (channel : p < 256) (q : Nat) : locate g st (unlocate g st p q) = (p, q) := by
  have granule := xor_mod_xor_mod_lt channel st (q / granBytes g)
  simp only [locate, unlocate, mul_add_mod_div (granBytes_pos g), mul_add_mod_mod]
  rw [Nat.mul_comm _ 256, Nat.mul_add_div (by decide), Nat.mul_add_mod, Nat.div_eq_of_lt granule, Nat.mod_eq_of_lt granule,
    Nat.add_zero, xor_xor_cancel_cross, Nat.div_add_mod']

theorem unlocate_lt (g st : Nat) {p q : Nat} (channel : p < 256) (offset : q < 65536) : unlocate g st p q < 16777216 := by
  have granule := xor_mod_xor_mod_lt channel st (q / granBytes g)
  simp only [unlocate]
  generalize (p ^^^ st % 256) ^^^ q / granBytes g % 256 = x at granule ⊢
  obtain size | size | size := granBytes_cases g <;> rw [size] <;> omega

/-- Settles O25: `locate` is R183 word for word, and `unlocate` is its inverse between a stripe and 256 pieces of 64 KiB. -/
theorem stripePlacesRoundTrip : Obligations.StripePlacesRoundTrip := by
  unfold Obligations.StripePlacesRoundTrip
  intro g st code
  refine ⟨fun o => ?_, fun o inside => ⟨locate_channel_lt g st o, locate_offset_lt g st inside, unlocate_locate g st o⟩,
    fun p q channel offset => ⟨unlocate_lt g st channel offset, locate_unlocate g st channel q⟩⟩
  simp only [locate, granBytes_eq_getD code]

end Sys2Proof.Machine
end

section
/-!
The HBM controllers (06 R186 to R192, R198, R199): the access that a pseudo-channel serves, a scrub read that finds no error, and
the beginning and the end of an online row repair.
-/

namespace Sys2Proof.Machine

/-! ### Reads that find no error (06 R190) -/

theorem satAdd_zero {w : Nat} (c : BitVec w) : satAdd c 0 = c := by
  simp [satAdd, c.isLt]

theorem State.hbmCorr_zero_stack (s : State) (a n : Nat) : (s.hbmCorr a 0).stack n = s.stack n := by
  rw [State.hbmCorr, State.modStack_stack]
  split
  next here => rw [satAdd_zero, here]
  next => rfl

theorem State.eccRead_clean_stack (s : State) (a : Nat) (ws : List Nat) (n : Nat) : (s.eccRead a ws [] []).stack n = s.stack n :=
  s.hbmCorr_zero_stack a n

/-! ### The controllers' commands -/

section Commands
variable {s : State} (hub : s.hub = true)
include hub

theorem exec_hbmAccess_serves {pc ecc i : Nat} {x : HbmAcc} {v : State} {rest : List HbmAcc}
    (next : s.hbmNext (mget [] s.hbm.queues pc) = some (i, x))
    (others : ((mget [] s.hbm.queues pc).take i).map (fun y => { y with passedBy := y.passedBy + 1 }) ++
      (mget [] s.hbm.queues pc).drop (i + 1) = rest)
    (served : State.keepRow { s with hbm := { s.hbm with queues := mset [] s.hbm.queues pc rest } } x.addr rest = v) :
    exec (.hbmAccess pc ecc) s = .next (if x.write then v.serveHbmWrite x.addr else v.serveHbmRead x.addr ecc) := by
  subst others served
  change execHbmAccess pc ecc s = _
  simp only [execHbmAccess, next, if_pos hub]

/-- The scrub's place in its pass moves by one word, short of the pass's end (06 R191). -/
theorem exec_hbmScrubRead_clean {n w : Nat} (stack : n < 8) (on : (s.stack n).scrubEn = true)
    (more : (s.stack n).scrubPos + 1 < stackWords) (word : s.scrubAddr n (s.stack n).scrubPos / 32 = w)
    (sound : mget false s.hbm.bad w = false) (strong : mget false s.hbm.weak w = false) :
    exec (.hbmScrubRead n 0) s = .next ((s.modStack n (fun y => { y with scrubPos := y.scrubPos + 1 })).eccRead
      (s.scrubAddr n (s.stack n).scrubPos) [w] [] []) := by
  subst word
  change execHbmScrubRead n 0 s = _
  rw [execHbmScrubRead, if_pos ⟨hub, stack, on⟩]
  simp [sound, strong, Nat.not_le.2 more]

theorem exec_hbmRowRepair_begins {n key : Nat} {rest : List Nat} (cands : (s.stack n).cands = key :: rest)
    (idle : (s.stack n).repair = none) (free : (s.stack n).softFree key = true) :
    exec (.hbmRowRepair n) s = .next (s.modStack n (fun y => { y with cands := rest, repair := some key })) := by
  change execHbmRowRepair n s = _
  simp only [execHbmRowRepair, cands, if_pos (And.intro hub idle), if_pos free]

theorem exec_hbmRowRepair_pends {n key : Nat} {rest : List Nat} (cands : (s.stack n).cands = key :: rest)
    (idle : (s.stack n).repair = none) (used : (s.stack n).softFree key = false) :
    exec (.hbmRowRepair n) s = .next
      ((s.modStack n (fun y => { y with cands := rest, pendRows := y.pendRows ++ [key] })).record 8 (rowRecord key 0 0) none) := by
  change execHbmRowRepair n s = _
  simp only [execHbmRowRepair, cands, if_pos (And.intro hub idle), if_neg (Bool.eq_false_iff.1 used)]

theorem exec_hbmRepairDone_retires {n key : Nat} (repairing : (s.stack n).repair = some key) :
    exec (.hbmRepairDone n) s = .next
      (((s.rowRead key).modStack n (fun y => { y with repair := none, softRows := y.softRows ++ [key] })).record 8
        (rowRecord key 1 0) none) := by
  change execHbmRepairDone n s = _
  simp only [execHbmRepairDone, repairing, if_pos hub]

end Commands

/-! ### The obligation -/

/-- Settles O26: each command is followed to its operation; a scrub read without an error leaves every stack and the data as they
are, but for the place of the scrub. -/
theorem hbmControllers : Obligations.HbmControllers := by
  unfold Obligations.HbmControllers
  intro s hub
  refine ⟨fun pc ecc i x next => exec_hbmAccess_serves hub next rfl rfl, fun n stack on more => ?scrub,
    fun n key rest cands idle => ⟨fun free => ?begins, fun used => exec_hbmRowRepair_pends hub cands idle used⟩,
    fun n key repairing => exec_hbmRepairDone_retires hub repairing⟩
  case scrub =>
    intro w sound strong
    refine ⟨_, exec_hbmScrubRead_clean hub stack on more rfl sound strong, ?_, ?_, rfl⟩
    · rw [State.eccRead_clean_stack, State.modStack_stack, if_pos rfl]
    · rw [State.eccRead_clean_stack, State.modStack_stack, if_pos rfl]
  case begins =>
    refine ⟨_, exec_hbmRowRepair_begins hub cands idle free, ?_, ?_, fun m other => ?_⟩
    · rw [State.modStack_stack, if_pos rfl]
    · rw [State.modStack_stack, if_pos rfl]
    · rw [State.modStack_stack, if_neg other]

end Sys2Proof.Machine
end

section
/-!
Temperature readings (17 R579 to R585, 06 R193 to R197, 23 R765): the level that a reading gives, by one rule for dies and stacks,
and what the reading does to the device.
-/

namespace Sys2Proof.Machine

/-! ### Levels with hysteresis (17 R580, 06 R194) -/

theorem highest_le (limits : List Int) (n : Nat) (t : Int) : highest limits n t ≤ n := by
  induction n with
  | zero => exact Nat.le_refl 0
  | succ n ih =>
    rw [highest]
    split
    · exact Nat.le_refl _
    · exact Nat.le_succ_of_le ih

/-- The highest level is `k` when the reading exceeds the limit of `k` and none above it. -/
theorem highest_eq {limits : List Int} {k n : Nat} {t : Int} (le : k ≤ n) (exceeds : k ≠ 0 → limits.getD (k - 1) 0 < t)
    (within : ∀ i, k ≤ i → i < n → t ≤ limits.getD i 0) : highest limits n t = k := by
  induction n with
  | zero => exact (Nat.le_zero.1 le).symm
  | succ n ih =>
    rw [highest]
    rcases Nat.lt_or_eq_of_le le with lt | rfl
    · rw [if_neg (Int.not_lt.2 (within n (Nat.le_of_lt_succ lt) (Nat.lt_succ_self n)))]
      exact ih (Nat.le_of_lt_succ lt) (fun i low high => within i low (Nat.lt_succ_of_lt high))
    · exact if_pos (exceeds (Nat.succ_ne_zero n))

section Levels
variable (entry exit : List Int) (t : Int)

theorem nextLevel_from_zero : nextLevel entry exit 0 t = highest entry 4 t := by
  rw [nextLevel]
  split
  · rfl
  · rw [if_pos rfl]; omega

theorem nextLevel_le {l : Nat} (level : l ≤ 4) : nextLevel entry exit l t ≤ 4 := by
  rw [nextLevel]
  have up := highest_le entry 4 t
  have down := highest_le exit (l - 1) t
  split_ifs <;> omega

variable {entry exit t}

/-- A reading that enters no level keeps the level or leaves it downward. -/
theorem nextLevel_of_no_entry (quiet : ∀ i < 4, t ≤ entry.getD i 0) (l : Nat) :
    nextLevel entry exit l t = if l = 0 then 0 else if t ≤ exit.getD (l - 1) 0 then highest exit (l - 1) t else l := by
  have up : highest entry 4 t = 0 := highest_eq (Nat.zero_le 4) (absurd rfl) (fun i _ high => quiet i high)
  simp only [nextLevel, up, Nat.not_lt_zero, if_false]

/-- Above the exit limit of level 1 alone, every level but 0 becomes 1. -/
theorem nextLevel_in_band {l : Nat} (quiet : ∀ i < 4, t ≤ entry.getD i 0) (above : exit.getD 0 0 < t)
    (below : ∀ i < 4, 1 ≤ i → t ≤ exit.getD i 0) (level : l ≤ 4) : nextLevel entry exit l t = if l = 0 then 0 else 1 := by
  rw [nextLevel_of_no_entry quiet]
  match l with
  | 0 => rfl
  | 1 => exact if_neg (Int.not_le.2 above)
  | l + 2 =>
    change (if t ≤ exit.getD (l + 1) 0 then highest exit (l + 1) t else l + 2) = 1
    rw [if_pos (below _ level (Nat.le_add_left 1 l))]
    exact highest_eq (Nat.le_add_left 1 l) (fun _ => above) (fun i low high => below i (by omega) low)

/-- A reading that exceeds no limit gives level 0. -/
theorem nextLevel_cold {l : Nat} (quiet : ∀ i < 4, t ≤ entry.getD i 0) (below : ∀ i < 4, t ≤ exit.getD i 0) (level : l ≤ 4) :
    nextLevel entry exit l t = 0 := by
  rw [nextLevel_of_no_entry quiet]
  match l with
  | 0 => rfl
  | l + 1 =>
    change (if t ≤ exit.getD l 0 then highest exit l t else l + 1) = 0
    rw [if_pos (below l level)]
    exact highest_eq (Nat.zero_le l) (absurd rfl) (fun i _ high => below i (by omega))

end Levels

/-! ### The limits of dies and stacks

No entry limit lies below that of level 1, and no exit limit but that of level 1 lies below it: this is the band of `nextLevel_in_band`.
-/

theorem jEntry_ge : ∀ i < 4, 95 ≤ jEntry.getD i 0 := by decide
theorem jExit_ge : ∀ i < 4, 93 ≤ jExit.getD i 0 := by decide
theorem jExit_ge_entry : ∀ i < 4, 1 ≤ i → 95 ≤ jExit.getD i 0 := by decide
theorem tEntry_ge : ∀ i < 4, 85 ≤ tEntry.getD i 0 := by decide
theorem tExit_ge : ∀ i < 4, 83 ≤ tExit.getD i 0 := by decide
theorem tExit_ge_entry : ∀ i < 4, 1 ≤ i → 85 ≤ tExit.getD i 0 := by decide

/-! ### Readings (17 R579 to R585, 06 R193 to R197) -/

/-- The state as a reading of logic die `d` leaves it: the temperature, and that the source has been read. -/
def State.dieRead (s : State) (d : Nat) (x : BitVec 8) : State :=
  { s with pwr := { s.pwr with dieTemp := mset 0 s.pwr.dieTemp d x, seen := mset false s.pwr.seen d true } }

/-- The state as a reading of stack `n` leaves it: the temperature, the highest one so far, and that the source has been read. -/
def State.stackRead (s : State) (n : Nat) (x : BitVec 8) : State :=
  let v := s.modStack n (fun y => { y with temp := x, tempMax := if y.tempMax.toInt < x.toInt then x else y.tempMax })
  { v with pwr := { v.pwr with seen := mset false v.pwr.seen (4 + n) true } }

section Readings
variable {s : State} {n : Nat} {x : BitVec 8} (powered : s.pwr.st ≠ .off)
include powered

theorem exec_dieTempRead (die : n < 3) :
    exec (.dieTempRead n x) s = .next (if 125 ≤ x.toInt then (s.dieRead n x).trip (16 + n) x else
      (((s.dieRead n x).setDieLevel n
        ((s.dieRead n x).movesTo jEntry jExit (mget 0 s.pwr.dieLevel n) x)).thermalEvents).heatAct) := by
  change execDieTempRead n x s = _
  rw [execDieTempRead, if_neg (not_or.2 ⟨powered, Nat.not_le.2 die⟩)]
  rfl

theorem exec_hbmTempRead (stack : n < 8) (here : s.stackOut n = false) :
    exec (.hbmTempRead n x) s = .next (if 120 ≤ x.toInt then (s.stackRead n x).trip n x else
      (((s.stackRead n x).setStackLevel n
        ((s.stackRead n x).movesTo tEntry tExit ((s.stackRead n x).stack n).level x)).thermalEvents).heatAct) := by
  change execHbmTempRead n x s = _
  rw [execHbmTempRead, if_neg (by simp [powered, here, stack])]
  rfl

end Readings

theorem State.trip_off (s : State) (src : Nat) (x : BitVec 8) :
    (s.trip src x).pwr.st = .off ∧ (s.trip src x).pwr.thermtrip = true ∧ (s.trip src x).boot.phase = .off ∧
      (s.trip src x).hbm.data = [] := ⟨rfl, rfl, rfl, rfl⟩

/-! ### The obligation -/

/-- Settles O27: the levels by the one rule for dies and stacks, at the limits of each; a reading by the trip limit of its source. -/
theorem temperatureReadings : Obligations.TemperatureReadings := by
  unfold Obligations.TemperatureReadings
  refine ⟨fun t => ⟨nextLevel_from_zero _ _ t, nextLevel_from_zero _ _ t,
      fun l level above below => ?dieBand, fun l level below => ?dieCold, fun l level above below => ?stackBand,
      fun l level below => ?stackCold, fun l m gives level => gives ▸ nextLevel_le _ _ t level⟩,
    fun s x powered => ⟨fun d die => ⟨fun hot => ?dieTrips, fun below => ?dieReads⟩,
      fun n stack here => ⟨fun hot => ?stackTrips, fun below => ?stackReads⟩⟩⟩
  case dieBand =>
    exact nextLevel_in_band (fun i lt => below.trans (jEntry_ge i lt)) above
      (fun i lt low => below.trans (jExit_ge_entry i lt low)) level
  case dieCold =>
    have quiet : t ≤ 95 := below.trans (by decide)
    exact nextLevel_cold (fun i lt => quiet.trans (jEntry_ge i lt)) (fun i lt => below.trans (jExit_ge i lt)) level
  case stackBand =>
    exact nextLevel_in_band (fun i lt => below.trans (tEntry_ge i lt)) above
      (fun i lt low => below.trans (tExit_ge_entry i lt low)) level
  case stackCold =>
    have quiet : t ≤ 85 := below.trans (by decide)
    exact nextLevel_cold (fun i lt => quiet.trans (tEntry_ge i lt)) (fun i lt => below.trans (tExit_ge i lt)) level
  case dieTrips =>
    exact ⟨_, (exec_dieTempRead powered die).trans (congrArg _ (if_pos hot)), State.trip_off _ _ _⟩
  case dieReads => exact (exec_dieTempRead powered die).trans (congrArg _ (if_neg (Int.not_le.2 below)))
  case stackTrips =>
    obtain ⟨off, tripped, _, lost⟩ := (s.stackRead n x).trip_off n x
    exact ⟨_, (exec_hbmTempRead powered stack here).trans (congrArg _ (if_pos hot)), off, tripped, lost⟩
  case stackReads => exact (exec_hbmTempRead powered stack here).trans (congrArg _ (if_neg (Int.not_le.2 below)))

end Sys2Proof.Machine
end

section
/-!
The update engine (07 R226 to R236): the head of an update ring, the record block in this device's memory, and the next record.
-/

namespace Sys2Proof.Machine

/-! ### Acceptance (07 R228, R229) -/

section Accept
variable {s : State} {d n : Nat} {b : Bytes}

theorem exec_updateAccept_takes (head : s.ringFront (updKey d n) = some b) (ready : s.updReady d n = true)
    (tokens : s.updTokens d = true) : exec (.updateAccept d n) s = .next (s.acceptUpd d n b) := by
  change execUpdateAccept d n s = _
  simp only [execUpdateAccept, head, if_pos ready, if_pos tokens]

theorem State.acceptUpd_refuses (refused : s.updRefusal d b ≠ 0) :
    s.acceptUpd d n b = (s.takeUpd d n).postUpd d n (uIrq b)
      (updEntry (uTag b) (s.updRefusal d b) 0 n 0xFF 0 0 0 (s.takeUpd d n).wtime) := by
  rw [State.acceptUpd, if_pos refused]

/-- The descriptor that an accepted update leaves in progress, on the state without its ring entry. -/
theorem State.acceptUpd_begins (accepted : s.updRefusal d b = 0) :
    let v := s.takeUpd d n
    let k := updSlot b (v.table (uTable b))
    s.acceptUpd d n b = ((v.takeRef (uTable b) k).setUpd d n (some
      { desc := b, tag := BitVec.ofNat 16 (uTag b), irq := uIrq b, table := uTable b, vslot := k, count := uCount b,
        tAccept := v.wtime })).beginBlock d n b (updLen b (v.table (uTable b)).rowSize) := by
  rw [State.acceptUpd, if_neg (not_not.2 accepted)]

end Accept

/-! ### The record block and its records (07 R230, R231, R236) -/

section Records
variable {s : State} {d n : Nat} {u : UpdCur} (hub : s.hub = true) (upd : s.upd d n = some u)

include hub upd in
theorem exec_recordBlockReadDone_reads (here : s.blockLocal u = true) (unread : u.readEnded = false) :
    exec (.recordBlockReadDone d n) s = .next ((s.readBlock d n u).updCheck d n) := by
  have reads : s.blockLocal u = true ∧ ¬ u.readEnded = true := ⟨here, by simp [unread]⟩
  change execRecordBlockReadDone d n s = _
  simp only [execRecordBlockReadDone, upd, if_pos hub, if_pos reads]

include hub upd in
theorem exec_updateStage_takes (has : s.updHas u = true) : exec (.updateStage d n) s = .next (s.stageRecord d n u) := by
  have takes : s.hub = true ∧ s.updHas u = true := ⟨hub, has⟩
  change execUpdateStage d n s = _
  simp only [execUpdateStage, upd, if_pos takes]

theorem State.stageRecord_skips
    (skipped : s.skipFlag (s.table u.table) (recordAt u.block (s.updStride u) u.idx) ≠ 0) :
    s.stageRecord d n u = s.nextRecord d n (s.skipFlag (s.table u.table) (recordAt u.block (s.updStride u) u.idx)) := by
  rw [State.stageRecord, if_pos skipped]

theorem State.stageRecord_stages {v : State} (kept : s.skipFlag (s.table u.table) (recordAt u.block (s.updStride u) u.idx) = 0)
    (staged : s.stageRow d n u.table
      ((s.table u.table).rowAddr u.vslot ((s.table u.table).localRow (fld (recordAt u.block (s.updStride u) u.idx) 0 5)))
      ((recordAt u.block (s.updStride u) u.idx).drop 16) = some v) : s.stageRecord d n u = v.nextRecord d n 0 := by
  rw [State.stageRecord, if_neg (not_not.2 kept)]
  simp only [staged]

end Records

/-! ### The obligation -/

/-- Settles O31: the head is taken, and then refused or begun by its status; the next record is skipped or staged by its flag. -/
theorem updateEngine : Obligations.UpdateEngine := by
  unfold Obligations.UpdateEngine
  refine fun s d n => ⟨fun b head ready tokens => ⟨fun refused => ?refuses, fun accepted => ?accepts⟩,
    fun u hub upd here unread => exec_recordBlockReadDone_reads hub upd here unread,
    fun u hub upd has => ⟨fun k flag skipped => ?skips, fun v kept staged => ?stages⟩⟩
  case refuses => rw [exec_updateAccept_takes head ready tokens, State.acceptUpd_refuses refused]
  case accepts => rw [exec_updateAccept_takes head ready tokens, State.acceptUpd_begins accepted]
  case skips =>
    subst flag
    rw [exec_updateStage_takes hub upd has, State.stageRecord_skips skipped]
  case stages => rw [exec_updateStage_takes hub upd has, State.stageRecord_stages kept staged]

end Sys2Proof.Machine
end

section
/-!
Warren switches (07 R218 to R225, 16 R550): the messages of a switch, a COMMIT in time and one that comes late, and the effect of
the switch at T_SW.

A switch changes a table as `Table.switchedTo` says and, besides, only counts, posts events and writes records, none of which
touches a table. A Warren switch names each table at most once, so the order of its pairs does not matter.
-/

namespace Sys2Proof.Machine

/-! ### What leaves the tables alone: counters, events, the fault log and the Ledger -/

section Frames
variable (s : State)

@[simp] theorem State.count_tables (d c n : Nat) : (s.count d c n).tables = s.tables := rfl

@[simp] theorem State.sendVec_tables (f v : Nat) : (s.sendVec f v).tables = s.tables := by
  unfold State.sendVec
  dsimp only
  split_ifs <;> rfl

@[simp] theorem State.writeEntry_tables (k : Nat) (bytes : Bytes) (vec : Option Nat) :
    (s.writeEntry k bytes vec).tables = s.tables := by
  unfold State.writeEntry
  dsimp only
  cases vec with
  | none => split_ifs <;> simp
  | some v => split_ifs <;> simp

@[simp] theorem State.pushEntry_tables (k : Nat) (bytes : Bytes) (vec : Option Nat) :
    (s.pushEntry k bytes vec).tables = s.tables := by
  unfold State.pushEntry
  split_ifs <;> simp

@[simp] theorem State.postEvent_tables (f ty den : Nat) (payload : Bytes) :
    (s.postEvent f ty den payload).2.tables = s.tables := by
  unfold State.postEvent
  dsimp only
  split_ifs <;> simp

@[simp] theorem State.errorEvent_tables (f cls cause : Nat) (loc : W64) : (s.errorEvent f cls cause loc).tables = s.tables := by
  unfold State.errorEvent
  dsimp only
  split_ifs <;> simp

@[simp] theorem State.errorEvents_tables (cls cause : Nat) (loc : W64) : (s.errorEvents cls cause loc).tables = s.tables := by
  unfold State.errorEvents
  split_ifs <;> simp

@[simp] theorem State.logCore_tables (cls cause : Nat) (loc : W64) : (s.logCore cls cause loc).tables = s.tables := by
  unfold State.logCore
  dsimp only
  split_ifs <;> simp [State.newEntry]

@[simp] theorem State.record_tables (ty : Nat) (p : Bytes) (ref : Option (Nat × W32)) : (s.record ty p ref).tables = s.tables := by
  unfold State.record
  split_ifs <;> simp

@[simp] theorem State.versionFreed_tables (t v : Nat) (quiet : Bool) : (s.versionFreed t v quiet).tables = s.tables := by
  unfold State.versionFreed
  split_ifs <;> simp

end Frames

theorem State.table_congr {s t : State} (same : t.tables = s.tables) (n : Nat) : t.table n = s.table n := by
  rw [State.table, State.table, same]

/-! ### One pair (07 R218, R224) -/

/-- A table whose slot `v` becomes ACTIVE in the place of another, which is held for the Warren where `hold` says so. -/
def Table.movedTo (t : Table) (hold : Bool) (v : Nat) : Table :=
  { t.modVer t.active (fun y => { y with hold := hold }) with active := v, pinFilling := t.pin }

/-- A table after a switch to slot `v`, which changes nothing where the table is not here or `v` is ACTIVE already. -/
def Table.switchedTo (t : Table) (hold : Bool) (v : Nat) : Table :=
  if ¬ t.present ∨ t.active = v then t else t.movedTo hold v

theorem Table.modVer_lock (t : Table) (v : Nat) (g : Version → Version) : (t.modVer v g).lock = t.lock := by
  unfold Table.modVer
  split <;> rfl

theorem Table.switchedTo_active {t : Table} (present : t.present = true) (hold : Bool) (v : Nat) :
    (t.switchedTo hold v).active = v := by
  unfold Table.switchedTo
  split
  next same => exact same.resolve_left (not_not.2 present)
  next => rfl

theorem Table.switchedTo_lock (t : Table) (hold : Bool) (v : Nat) : (t.switchedTo hold v).lock = t.lock := by
  unfold Table.switchedTo
  split
  next => rfl
  next => exact t.modVer_lock _ _

section Switch
variable (s : State) (hold : Bool)

theorem State.switchOne_moves {p : Nat × Nat} (moves : ¬ (¬ (s.table p.1).present ∨ (s.table p.1).active = p.2)) :
    (s.switchOne hold p).tables = (s.modTable p.1 (fun t => t.movedTo hold p.2)).tables := by
  rw [State.switchOne, if_neg moves]
  dsimp only
  split
  next => exact State.versionFreed_tables _ _ _ _
  next => rfl

theorem State.switchOne_table (p : Nat × Nat) (n : Nat) :
    (s.switchOne hold p).table n = if n = p.1 then (s.table p.1).switchedTo hold p.2 else s.table n := by
  by_cases moves : ¬ (s.table p.1).present ∨ (s.table p.1).active = p.2
  · rw [State.switchOne, if_pos moves, Table.switchedTo, if_pos moves]
    split
    next here => rw [here]
    next => rfl
  · rw [State.table_congr (s.switchOne_moves hold moves), State.modTable_table, Table.switchedTo, if_neg moves]

end Switch

/-! ### Every pair of a switch (07 R218) -/

/-- What no step of a fold changes is as before the fold. -/
theorem foldl_observes_same {β γ : Type} (see : State → γ) (f : State → β → State) {l : List β}
    (same : ∀ u, ∀ x ∈ l, see (f u x) = see u) (s : State) : see (l.foldl f s) = see s := by
  induction l generalizing s with
  | nil => rfl
  | cons x l ih =>
    have rest := ih (fun u y later => same u y (List.mem_cons_of_mem x later)) (f s x)
    exact rest.trans (same s x List.mem_cons_self)

section SwitchAll
variable (s : State) (hold durable : Bool) (sw : Nat)

theorem State.switchAll_table (ps : List (Nat × Nat)) (n : Nat) :
    (s.switchAll ps hold durable sw).table n = (ps.foldl (fun s p => s.switchOne hold p) s).table n := by
  unfold State.switchAll
  dsimp only
  split
  next => exact foldl_observes_same (fun u => u.table n) _ (fun u _ _ => State.table_congr (u.record_tables _ _ _) n) _
  next => rfl

theorem State.switchAll_table_other {ps : List (Nat × Nat)} {n : Nat} (other : ∀ p ∈ ps, p.1 ≠ n) :
    (s.switchAll ps hold durable sw).table n = s.table n := by
  rw [State.switchAll_table]
  refine foldl_observes_same (fun u => u.table n) _ (fun u p named => ?_) s
  exact (u.switchOne_table hold p n).trans (if_neg (other p named).symm)

theorem State.switchAll_lock (ps : List (Nat × Nat)) (n : Nat) :
    ((s.switchAll ps hold durable sw).table n).lock = (s.table n).lock := by
  rw [State.switchAll_table]
  refine foldl_observes_same (fun u => (u.table n).lock) _ (fun u p _ => ?_) s
  rw [State.switchOne_table]
  split
  next here => rw [Table.switchedTo_lock, here]
  next => rfl

/-- The table of a pair that no other pair names: the pairs before its own leave it alone, and so do those after it. -/
theorem State.foldl_switchOne_named {ps : List (Nat × Nat)} (once : (ps.map Prod.fst).Nodup) {p : Nat × Nat} (named : p ∈ ps) :
    (ps.foldl (fun s p => s.switchOne hold p) s).table p.1 = (s.table p.1).switchedTo hold p.2 := by
  induction ps generalizing s with
  | nil => cases named
  | cons q ps ih =>
    obtain ⟨fresh, once⟩ := List.nodup_cons.1 once
    obtain rfl | later := List.mem_cons.1 named
    · have rest : ∀ r ∈ ps, p.1 ≠ r.1 := fun r mem same => fresh (same ▸ List.mem_map_of_mem mem)
      have after := foldl_observes_same (fun u => u.table p.1) (fun s p => s.switchOne hold p)
        (fun u r mem => (u.switchOne_table hold r p.1).trans (if_neg (rest r mem))) (s.switchOne hold p)
      exact after.trans ((s.switchOne_table hold p p.1).trans (if_pos rfl))
    · have before : p.1 ≠ q.1 := fun same => fresh (same ▸ List.mem_map_of_mem later)
      rw [List.foldl_cons, ih _ once later, State.switchOne_table, if_neg before]

theorem State.switchAll_table_named {ps : List (Nat × Nat)} (once : (ps.map Prod.fst).Nodup) {p : Nat × Nat} (named : p ∈ ps) :
    (s.switchAll ps hold durable sw).table p.1 = (s.table p.1).switchedTo hold p.2 :=
  (s.switchAll_table hold durable sw ps p.1).trans (s.foldl_switchOne_named hold once named)

end SwitchAll

/-! ### The locks (07 R221), and the switch as a whole (07 R223) -/

/-- A table without the lock of a switch. -/
def Table.unlocked (t : Table) (id : W32) : Table := if t.lock = some id then { t with lock := none } else t

theorem Table.unlocked_active (t : Table) (id : W32) : (t.unlocked id).active = t.active := by
  unfold Table.unlocked
  split <;> rfl

theorem Table.unlocked_lock {t : Table} {id : W32} (locked : t.lock = some id) : (t.unlocked id).lock = none := by
  rw [Table.unlocked, if_pos locked]

/-- Applying a function to every value of a sparse table applies it to what the table reads, when it keeps the default. -/
theorem mget_map_values {α : Type} {d : α} {f : α → α} (default : f d = d) (m : SMap α) (k : Nat) :
    mget d (m.map (fun p => (p.1, f p.2))) k = f (mget d m k) := by
  induction m with
  | nil => exact default.symm
  | cons p m ih =>
    rw [List.map_cons, mget, mget, ih]
    split <;> rfl

theorem State.unlockAll_table (s : State) (id : W32) (n : Nat) : (s.unlockAll id).table n = (s.table n).unlocked id := by
  have each : s.tables.map (fun p => if p.2.lock = some id then (p.1, { p.2 with lock := none }) else p) =
      s.tables.map (fun p => (p.1, p.2.unlocked id)) := by
    refine List.map_congr_left (fun p _ => ?_)
    dsimp only [Table.unlocked]
    split <;> rfl
  change mget ({} : Table) (s.tables.map _) n = _
  rw [each]
  have default : ({} : Table).unlocked id = {} := rfl
  exact mget_map_values (f := fun t => t.unlocked id) default s.tables n

theorem State.applySwitch_table (s : State) (n : Nat) :
    s.applySwitch.table n = ((s.switchAll s.wsw.pairs true s.wsw.durable s.wsw.id.toNat).table n).unlocked s.wsw.id :=
  State.unlockAll_table _ _ _

theorem State.applySwitch_wsw (s : State) : s.applySwitch.wsw.st = 3 ∧ s.applySwitch.wsw.prevs = s.previous s.wsw.pairs :=
  ⟨rfl, rfl⟩

theorem State.applySwitch_active_named {s : State} (once : (s.wsw.pairs.map Prod.fst).Nodup) {p : Nat × Nat}
    (named : p ∈ s.wsw.pairs) (present : (s.table p.1).present = true) : (s.applySwitch.table p.1).active = p.2 := by
  rw [State.applySwitch_table, Table.unlocked_active, State.switchAll_table_named _ _ _ _ once named,
    Table.switchedTo_active present]

theorem State.applySwitch_active_other {s : State} {n : Nat} (other : ∀ p ∈ s.wsw.pairs, p.1 ≠ n) :
    (s.applySwitch.table n).active = (s.table n).active := by
  rw [State.applySwitch_table, Table.unlocked_active, State.switchAll_table_other _ _ _ _ other]

theorem State.applySwitch_lock {s : State} {n : Nat} (locked : (s.table n).lock = some s.wsw.id) :
    (s.applySwitch.table n).lock = none := by
  rw [State.applySwitch_table]
  exact Table.unlocked_lock ((State.switchAll_lock _ _ _ _ _ n).trans locked)

theorem exec_warrenSwitchApply_due {s : State} (hub : s.hub = true) (committed : s.wsw.st = 2)
    (due : s.wsw.tsw.toNat ≤ s.wtime.toNat) : exec .warrenSwitchApply s = .next s.applySwitch := by
  change execWarrenSwitchApply s = _
  rw [execWarrenSwitchApply, if_pos ⟨hub, committed, due⟩]

/-! ### COMMIT (07 R220, R223) -/

section Commit
variable {s : State} {t : W64}

theorem State.commitHere_inTime (prepared : s.wsw.st = 1) (inTime : s.wtime.toNat ≤ t.toNat) :
    s.commitHere s.wsw.id t = { s with wsw := { s.wsw with st := 2, tsw := t } } := by
  rw [State.commitHere, if_pos ⟨rfl, prepared⟩]
  exact if_neg (Nat.not_lt.2 inTime)

theorem State.commitHere_late (prepared : s.wsw.st = 1) (late : t.toNat < s.wtime.toNat) :
    s.commitHere s.wsw.id t =
      (State.applySwitch { s with wsw := { s.wsw with st := 2, tsw := t, late := true } }).fault 0x0307 (mkLoc 11 0 none false 0) := by
  rw [State.commitHere, if_pos ⟨rfl, prepared⟩]
  exact if_pos late

theorem State.commitHere_other {id : W32} (other : s.wsw.id ≠ id ∨ s.wsw.st ≠ 1) : s.commitHere id t = s := by
  rw [State.commitHere, if_neg (not_and_or.2 other)]

end Commit

/-! ### DRAINED, and the master's waits (07 R220, R222, 16 R550) -/

section Waits
variable {s : State} (hub : s.hub = true)
include hub

theorem exec_drainedSend_due (applied : s.wsw.st = 3) (unsent : s.wsw.drainedSent = false) (drained : s.swDrained = true) :
    let v : State := { s with wsw := { s.wsw with drainedSent := true } }
    exec .drainedSend s = .next (if s.wsw.master = s.fab.wid then v.addDrained s.fab.wid s.wsw.id
      else v.sendOr (v.mkMsg 0x45 s.wsw.master 0 0 0 (toLe 4 s.wsw.id.toNat) [])) := by
  change execDrainedSend s = _
  rw [execDrainedSend, if_pos ⟨hub, applied, by simp [unsent], drained⟩]

theorem exec_warrenPrepareTimeout_aborts {m : MasterSwitch} (master : s.msw = some m) (preparing : m.st = 0) :
    exec .warrenPrepareTimeout s = .next (s.abortAll m 0x0D) := by
  change execWarrenPrepareTimeout s = _
  simp only [execWarrenPrepareTimeout, master, hub, preparing, and_self, if_true]

theorem exec_swQueryTimeout_ends {m : MasterSwitch} (master : s.msw = some m) (querying : m.st = 2) :
    exec .swQueryTimeout s = .next (s.endQuery m) := by
  change execSwQueryTimeout s = _
  simp only [execSwQueryTimeout, master, hub, querying, and_self, if_true]

end Waits

/-! ### The obligation -/

/-- Settles O32: each message acts on the state without it; a COMMIT by its time; the switch by what it does to a table. -/
theorem warrenSwitches : Obligations.WarrenSwitches := by
  unfold Obligations.WarrenSwitches
  refine ⟨fun s p m => ⟨?prepare, ?prepared, ?refused, ?commit, ?abort, ?drained, ?release, ?query, ?state⟩,
    fun s => ⟨fun t prepared inTime => State.commitHere_inTime prepared inTime,
      fun t prepared late => State.commitHere_late prepared late, fun id t other => State.commitHere_other other,
      fun hub applied unsent drained => ⟨fun own => ?drainsHere, fun other => ?drainsThere⟩,
      fun m hub master preparing => exec_warrenPrepareTimeout_aborts hub master preparing,
      fun m hub master querying => exec_swQueryTimeout_ends hub master querying⟩,
    fun s hub committed due once => ?applies⟩
  case prepare | prepared | refused | commit | abort | drained | release | query | state =>
    exact fun arrives => exec_of_receive arrives rfl rfl
  case drainsHere => exact (exec_drainedSend_due hub applied unsent drained).trans (congrArg _ (if_pos own))
  case drainsThere => exact (exec_drainedSend_due hub applied unsent drained).trans (congrArg _ (if_neg other))
  case applies =>
    obtain ⟨applied, previous⟩ := s.applySwitch_wsw
    exact ⟨s.applySwitch, exec_warrenSwitchApply_due hub committed due, applied, previous,
      fun p named present => State.applySwitch_active_named once named present,
      fun n other => State.applySwitch_active_other other, fun n locked => State.applySwitch_lock locked⟩

end Sys2Proof.Machine
end

section
/-!
The sequencer of a tile (08 R248, R254 to R257, R281, R282, 13 R408): scalar registers, arithmetic, branches and jumps, END, TRAP
and YIELD.

A tile's own instruction changes that tile and nothing else, so the operations that it is made of are said once as `TileBecomes`:
what the tile has become, every other tile and the rest of the state as before. The statements' `WritesReg`, `Computes`, `GoesTo`
and `TileGoes` are read off it.
-/

namespace Sys2Proof.Machine

/-! ### One tile changes -/

/-- From `s` to `u` tile `t` has become `x`; every other tile and the rest of the state are as before. -/
def TileBecomes (s u : State) (t : Nat) (x : Tile) : Prop :=
  u.tile t = x ∧ (∀ v, v ≠ t → u.tile v = s.tile v) ∧ { u with tiles := [] } = { s with tiles := [] }

section Becomes
variable {s u : State} {t : Nat} {x : Tile}

theorem TileBecomes.modTile (h : TileBecomes s u t x) (g : Tile → Tile) : TileBecomes s (u.modTile t g) t (g x) := by
  obtain ⟨tile, others, rest⟩ := h
  refine ⟨?_, fun v other => ?_, rest⟩
  · rw [State.modTile_tile, if_pos rfl, tile]
  · rw [State.modTile_tile, if_neg other, others v other]

theorem tileBecomes_modTile (s : State) (t : Nat) (g : Tile → Tile) : TileBecomes s (s.modTile t g) t (g (s.tile t)) :=
  TileBecomes.modTile ⟨rfl, fun _ _ => rfl, rfl⟩ g

theorem tileBecomes_stallAt (s : State) (t k : Nat) : TileBecomes s (s.stallAt t k) t { s.tile t with stall := k } :=
  tileBecomes_modTile s t _

theorem TileBecomes.goto (h : TileBecomes s u t x) {n : Nat} (within : n < 8192) :
    TileBecomes s (u.goto t n) t { x with pc := n } := by
  rw [State.goto_within within]
  exact h.modTile _

theorem TileBecomes.advance (h : TileBecomes s u t x) (room : x.pc < 8191) :
    TileBecomes s (u.advance t) t { x with pc := x.pc + 1 } := by
  have next : u.advance t = u.goto t (x.pc + 1) := by rw [State.advance, h.1]
  rw [next]
  exact h.goto (by omega)

@[simp] theorem Tile.setS_pc (x : Tile) (n : Nat) (v : W64) : (x.setS n v).pc = x.pc := by rw [Tile.setS_frame]

theorem TileBecomes.setReg (h : TileBecomes s u t x) (room : x.pc < 8191) (n : Nat) (v : W64) :
    TileBecomes s (u.setReg t n v) t { x.setS n v with pc := x.pc + 1 } := by
  have written := (h.modTile (fun y => y.setS n v)).advance (by simpa using room)
  rwa [Tile.setS_pc] at written

/-- Only registers, PC and STALL have changed: register `n` holds `v`. -/
theorem TileBecomes.writesReg {n pc k : Nat} {v : W64}
    (h : TileBecomes s u t { (s.tile t).setS n v with pc := pc, stall := k }) : WritesReg s u t n v pc := by
  obtain ⟨tile, others, rest⟩ := h
  refine ⟨fun j => ?_, ?_, ?_, others, rest⟩
  · rw [tile]
    exact (s.tile t).getS_setS n j v
  · rw [tile]
  · rw [tile, Tile.setS_frame]

theorem Tile.setS_at (x : Tile) (p k n : Nat) (v : W64) :
    ({ x with pc := p, stall := k } : Tile).setS n v = { x.setS n v with pc := p, stall := k } := by
  unfold Tile.setS
  split <;> rfl

/-- The tile goes on to the instruction at `pc`, no register changed. -/
theorem TileBecomes.goesTo {c : Instr} {pc k : Nat} (run : exec c s = .next u)
    (h : TileBecomes s u t { s.tile t with pc := pc, stall := k }) : GoesTo c s t pc :=
  ⟨u, run, TileBecomes.writesReg h⟩

theorem goesTo_of_advance {c : Instr} (room : (s.tile t).pc < 8191) (run : exec c s = .next ((s.stallAt t 0).advance t)) :
    GoesTo c s t ((s.tile t).pc + 1) :=
  TileBecomes.goesTo run ((tileBecomes_stallAt s t 0).advance room)

theorem computes_of_setReg {c : Instr} {n : Nat} {v : W64} (room : (s.tile t).pc < 8191)
    (run : exec c s = .next ((s.stallAt t 0).setReg t n v)) : Computes c s t n v := by
  have done := (tileBecomes_stallAt s t 0).setReg room n v
  rw [Tile.setS_at] at done
  exact ⟨_, run, done.writesReg⟩

end Becomes

/-! ### The instruction at issue (08 R254 to R257) -/

theorem regsDAB_named (w : W64) : regsDAB w ⊆ [iSd w, iSa w, iSb w, iSc w] := by simp [regsDAB]
theorem regsDA_named (w : W64) : regsDA w ⊆ [iSd w, iSa w, iSb w, iSc w] := by simp [regsDA]
theorem regsD_named (w : W64) : regsD w ⊆ [iSd w, iSa w, iSb w, iSc w] := by simp [regsD]
theorem regsAB_named (w : W64) : regsAB w ⊆ [iSd w, iSa w, iSb w, iSc w] := by simp [regsAB]
theorem regsShift_named (w : W64) : regsShift w ⊆ [iSd w, iSa w, iSb w, iSc w] := by
  unfold regsShift
  split
  · exact regsDAB_named w
  · exact regsDA_named w

section Issue
variable {s : State} {t : Nat} {r : Req} {w : W64} (issues : Issues s t r w)
include issues

/-- The row of the instruction at issue has the effect of the row on the tile with its stall cleared. -/
theorem Issues.exec_eq {c : Instr} {op : Nat} {regs : W64 → List Nat} {f : State → W64 → Req → State}
    (row : exec c s = .next (s.issue t op regs f)) (opcode : iOp w = op) (named : regs w ⊆ [iSd w, iSa w, iSb w, iSc w]) :
    exec c s = .next (f (s.stallAt t 0) w r) := by
  obtain ⟨holder, hub, running, phase, pc, word, legal, settled⟩ := issues
  subst word
  have due : s.atIssue t op r = true := by simp [State.atIssue, hub, running, phase, pc, opcode, legal]
  rw [row, State.issue_runs holder due (fun n mem => settled n (named mem))]

theorem Issues.computes {c : Instr} {op : Nat} {regs : W64 → List Nat} {v : Tile → W64 → W64} {y : W64}
    (room : (s.tile t).pc < 8191) (row : exec c s = .next (s.alu t op regs v)) (opcode : iOp w = op)
    (named : regs w ⊆ [iSd w, iSa w, iSb w, iSc w]) (value : v { s.tile t with stall := 0 } w = y) :
    Computes c s t (iSd w) y := by
  have run := issues.exec_eq (f := fun s w _ => s.setReg t (iSd w) (v (s.tile t) w)) row opcode named
  rw [stallAt_tile, value] at run
  exact computes_of_setReg room run

theorem Issues.rdsr (room : (s.tile t).pc < 8191) (opcode : iOp w = 0x12) (held : iRaw w ≠ 2) {y : W64}
    (value : (s.stallAt t 0).special t r.den (iRaw w) = y) : Computes (.tRdsr t) s t (iSd w) y := by
  have run := issues.exec_eq (c := .tRdsr t) (f := fun s w r => s.readSpecial t r.den w) rfl opcode (regsD_named w)
  rw [State.readSpecial, if_neg held, value] at run
  exact computes_of_setReg room run

/-- Special value 2 is a free value. -/
theorem Issues.rdsr_free (room : (s.tile t).pc < 8191) (opcode : iOp w = 0x12) (time : iRaw w = 2) :
    ∃ v u, exec (.tRdsr t) s = .next u ∧ (u.tile t).pc = (s.tile t).pc + 1 ∧
      ∀ k, (u.tile t).getS k = if k = iSd w ∧ k ≠ 0 then v else (s.tile t).getS k := by
  have run := issues.exec_eq (c := .tRdsr t) (f := fun s w r => s.readSpecial t r.den w) rfl opcode (regsD_named w)
  rw [State.readSpecial, if_pos time] at run
  have done := (tileBecomes_stallAt (s.free 64).2 t 0).setReg room (iSd w) (s.free 64).1
  rw [Tile.setS_at] at done
  obtain ⟨regs, pc, -⟩ := done.writesReg
  exact ⟨_, _, run, pc, regs⟩

end Issue

/-- Settles O6: S0 is no register of the file, and a write changes its one number of the file. -/
theorem registerZeroReadsZero : Obligations.RegisterZeroReadsZero := by
  unfold Obligations.RegisterZeroReadsZero
  exact fun x n k v => ⟨rfl, rfl, x.getS_setS n k v⟩

/-! ### Arithmetic, constants and special values (08 R254) -/

theorem w64Of_slt (a b : W64) : w64Of (a.slt b) = if a.toInt < b.toInt then 1 else 0 := by
  simp [w64Of, BitVec.slt]

theorem w64Of_ult (a b : W64) : w64Of (a.ult b) = if a.toNat < b.toNat then 1 else 0 := by
  simp [w64Of, BitVec.ult]

theorem ite_slt_eq_min (a b : W64) : (if b.slt a then b else a) = if a.toInt ≤ b.toInt then a else b := by
  by_cases le : a.toInt ≤ b.toInt
  · simp [BitVec.slt, le, Int.not_lt.2 le]
  · simp [BitVec.slt, le, Int.not_le.1 le]

theorem ite_slt_eq_max (a b : W64) : (if a.slt b then b else a) = if b.toInt ≤ a.toInt then a else b := by
  by_cases le : b.toInt ≤ a.toInt
  · simp [BitVec.slt, le, Int.not_lt.2 le]
  · simp [BitVec.slt, le, Int.not_le.1 le]

theorem Tile.shiftBy_eq (x : Tile) (w : W64) :
    x.shiftBy w = if iSub w = 0 then (x.getS (iSb w)).toNat % 64 else (iImm w).toNat % 64 :=
  apply_ite (fun v : W64 => v.toNat % 64) ..

theorem and_lowMask_eq_setWidth (a : W64) : a &&& 0xFFFFFFFF#64 = (a.setWidth 32).setWidth 64 := by
  apply BitVec.eq_of_toNat_eq
  have small : a.toNat % 2 ^ 32 < 2 ^ 64 := by omega
  simpa using (Nat.and_two_pow_sub_one_eq_mod a.toNat 32).trans (Nat.mod_eq_of_lt small).symm

/-- Settles O7: each row is the arithmetic rule with its function; the comparisons, MIN, MAX and LIH say the same in other words. -/
theorem tileArithmeticResults : Obligations.TileArithmeticResults := by
  unfold Obligations.TileArithmeticResults
  refine ⟨fun s t r w issues room => ⟨fun op => ?add, fun op => ?addi, fun op => ?sub, fun op => ?mul, fun op => ?and, fun op => ?or,
    fun op => ?xor, fun op => ?andi, fun op => ?shl, fun op => ?shr, fun op => ?sra, fun op => ?slt, fun op => ?sltu, fun op => ?min,
    fun op => ?max, fun op => ?li, fun op => ?lih, fun op => ?semrd⟩,
    fun s t r w issues room op => ⟨fun n => ?tile, fun n => ?time, issues.rdsr_free room op, fun n => ?task, fun n => ?den,
      fun n => ?warren⟩⟩
  case add | sub | mul | and | or | xor => exact issues.computes room rfl op (regsDAB_named w) rfl
  case addi | andi => exact issues.computes room rfl op (regsDA_named w) rfl
  case li | semrd => exact issues.computes room rfl op (regsD_named w) rfl
  case slt => exact issues.computes room rfl op (regsDAB_named w) (w64Of_slt _ _)
  case sltu => exact issues.computes room rfl op (regsDAB_named w) (w64Of_ult _ _)
  case min => exact issues.computes room rfl op (regsDAB_named w) (ite_slt_eq_min _ _)
  case max => exact issues.computes room rfl op (regsDAB_named w) (ite_slt_eq_max _ _)
  case lih => exact issues.computes room rfl op (regsDA_named w) (congrArg (· ||| iImm w <<< 32) (and_lowMask_eq_setWidth _))
  case shl => exact issues.computes room rfl op (regsShift_named w) (congrArg (_ <<< ·) (Tile.shiftBy_eq _ w))
  case shr => exact issues.computes room rfl op (regsShift_named w) (congrArg (_ >>> ·) (Tile.shiftBy_eq _ w))
  case sra => exact issues.computes room rfl op (regsShift_named w) (congrArg (BitVec.sshiftRight _) (Tile.shiftBy_eq _ w))
  case tile | time | den | warren => exact issues.rdsr room op (by omega) (by rw [n]; rfl)
  case task => exact issues.rdsr room op (by omega) (by simp only [n, State.special, stallAt_tile])

/-! ### Branches, jumps, and the instructions that stop (08 R254, R257, R281, R282, 13 R408) -/

section Control
variable {s : State} {t : Nat} {r : Req} {w : W64} (issues : Issues s t r w)
include issues

/-- The target of a branch or of JAL lies in the program store (08 R253). -/
theorem Issues.target_within (low : 0x20 ≤ iOp w) (high : iOp w ≤ 0x24) : branchTarget (s.tile t).pc w < 8192 := by
  obtain ⟨-, -, -, -, -, -, legal, -⟩ := issues
  unfold instrOk at legal
  split at legal
  · cases legal
  · simpa [low, high] using And.right (Bool.and_eq_true_iff.1 legal)

theorem Issues.branches {c : Instr} {op : Nat} {cond : W64 → W64 → Bool} (row : exec c s = .next (s.branch t op cond))
    (opcode : iOp w = op) {taken : Bool} (holds : cond ((s.tile t).getS (iSa w)) ((s.tile t).getS (iSb w)) = taken)
    (within : (if taken then branchTarget (s.tile t).pc w else (s.tile t).pc + 1) < 8192) :
    GoesTo c s t (if taken then branchTarget (s.tile t).pc w else (s.tile t).pc + 1) := by
  have run := issues.exec_eq (f := fun s w _ =>
    if cond ((s.tile t).a w) ((s.tile t).b w) then s.goto t (branchTarget (s.tile t).pc w) else s.advance t)
    row opcode (regsAB_named w)
  rw [stallAt_tile] at run
  replace run := run.trans (congrArg (fun b : Bool => Host.Outcome.next (if b then _ else _)) holds)
  cases taken with
  | true => exact TileBecomes.goesTo run ((tileBecomes_stallAt s t 0).goto within)
  | false => exact TileBecomes.goesTo run ((tileBecomes_stallAt s t 0).advance (Nat.lt_of_succ_lt_succ within))

theorem Issues.jal (opcode : iOp w = 0x24) : ∃ u, exec (.tJal t) s = .next u ∧
    WritesReg s u t (iSd w) (BitVec.ofNat 64 ((s.tile t).pc + 1)) (branchTarget (s.tile t).pc w) := by
  have run := issues.exec_eq (c := .tJal t) (f := fun s w _ => s.jal t w) rfl opcode (regsD_named w)
  rw [State.jal, stallAt_tile] at run
  have within := issues.target_within (by omega) (by omega)
  have done := ((tileBecomes_stallAt s t 0).modTile
    (fun x => x.setS (iSd w) (BitVec.ofNat 64 ((s.tile t).pc + 1)))).goto within
  rw [Tile.setS_at] at done
  exact ⟨_, run, done.writesReg⟩

theorem Issues.jr (opcode : iOp w = 0x25) (within : ((s.tile t).getS (iSa w)).toNat < 8192) :
    GoesTo (.tJr t) s t ((s.tile t).getS (iSa w)).toNat := by
  have run := issues.exec_eq (c := .tJr t) (f := fun s w _ => s.goto t ((s.tile t).a w).toNat) rfl opcode (by simp)
  rw [stallAt_tile] at run
  exact TileBecomes.goesTo run ((tileBecomes_stallAt s t 0).goto within)

theorem Issues.yield_eq (opcode : iOp w = 0x28) : exec (.tYield t) s = .next
    (if r.demand ∧ (s.stallAt t 0).yieldable r then (s.stallAt t 0).parkAt t else (s.stallAt t 0).advance t) :=
  issues.exec_eq (c := .tYield t) (f := fun s _ r => if r.demand ∧ s.yieldable r then s.parkAt t else s.advance t) rfl opcode
    (List.nil_subset _)

/-- 13 R408: a yieldable task under demand parks, with the instruction after YIELD next. -/
theorem Issues.yield_parks (opcode : iOp w = 0x28) (room : (s.tile t).pc < 8191) (demand : r.demand = true)
    (yieldable : (s.stallAt t 0).yieldable r = true) : ∃ u, exec (.tYield t) s = .next u ∧
      TileBecomes s u t { s.tile t with seq := .parked, stall := 7, pc := (s.tile t).pc + 1 } := by
  refine ⟨_, issues.yield_eq opcode, ?_⟩
  rw [if_pos ⟨demand, yieldable⟩, State.parkAt, stallAt_tile, if_pos room]
  exact (tileBecomes_stallAt s t 0).modTile _

/-- 08 R281: END lets the tile drain. -/
theorem Issues.end_drains (opcode : iOp w = 0x26) : ∃ u, exec (.tEnd t) s = .next u ∧
    TileBecomes s u t { s.tile t with seq := .ending, stall := 7 } :=
  ⟨_, issues.exec_eq (c := .tEnd t) (f := fun s _ _ => s.modTile t (fun x => { x with seq := .ending, stall := 7 })) rfl opcode
    (List.nil_subset _), (tileBecomes_stallAt s t 0).modTile _⟩

/-- 08 R257: a register is written, and the fall-through from the last index faults. -/
theorem Issues.add_last (opcode : iOp w = 0x01) (last : (s.tile t).pc = 8191) : exec (.tAdd t) s = .next
    ((((s.stallAt t 0).modTile t (fun x => x.setS (iSd w) (x.a w + x.b w))).modTile t (fun x => { x with pc := 8192 })).tileFault
      t 0x01 0 0 false false) := by
  have run := issues.exec_eq (c := .tAdd t) (f := fun s w _ => s.setReg t (iSd w) ((s.tile t).a w + (s.tile t).b w)) rfl opcode
    (regsDAB_named w)
  have next : ((((s.stallAt t 0).modTile t (fun x => x.setS (iSd w) (x.a w + x.b w))).tile t).pc + 1) = 8192 := by
    rw [State.modTile_tile, if_pos rfl, Tile.setS_pc, stallAt_tile, last]
  exact run.trans (congrArg (fun n => Host.Outcome.next (State.goto _ t n)) next)

end Control

/-- Settles O8: each instruction is followed to what its tile becomes; TRAP and the last fall-through to the fault they raise. -/
theorem tileControlInstructions : Obligations.TileControlInstructions := by
  unfold Obligations.TileControlInstructions
  refine ⟨fun s t r w issues => ⟨fun op => issues.branches rfl op rfl, fun op => issues.branches rfl op rfl,
    fun op => issues.branches rfl op rfl, fun op => issues.branches rfl op rfl, issues.jal, issues.jr⟩,
    fun s t r w issues => ⟨fun op room => ?nop, fun op room idle => ?idle, fun op room demand yieldable => ?parks, fun op => ?ends,
      fun op => ?trap⟩,
    fun s t r w issues last op => issues.add_last op last⟩
  case nop => exact goesTo_of_advance room (issues.exec_eq (f := fun s _ _ => s.advance t) rfl op (List.nil_subset _))
  case idle =>
    have run := issues.yield_eq op
    rw [if_neg (by rcases idle with idle | idle <;> simp [idle])] at run
    exact goesTo_of_advance room run
  case parks =>
    obtain ⟨u, run, tile, others, -⟩ := issues.yield_parks op room demand yieldable
    exact ⟨u, run, tile, others⟩
  case ends =>
    obtain ⟨u, run, tile, others, -⟩ := issues.end_drains op
    exact ⟨u, run, tile, others⟩
  case trap => exact issues.exec_eq (f := fun s w _ => s.tileFault t 0x0C (iRaw w % 65536) 0 false false) rfl op (List.nil_subset _)

end Sys2Proof.Machine
end

section
/-!
Memory instructions of a tile (08 R247, R254 to R263): local loads and stores, the issue of global accesses, FENCE, and the end of
an access.
-/

namespace Sys2Proof.Machine

/-! ### Tile SRAM without errors (08 R247, 22 R725) -/

theorem CleanSram.withSram {s : State} {t a n : Nat} (clean : CleanSram (s.tile t) a n) (f : State → Bytes → State) :
    s.withSram t a n f = f s (memRead (s.tile t).sram a n) := by
  obtain ⟨single, double, marks⟩ := clean
  exact State.withSram_clean single double marks f

theorem Tile.eccAny_of_subset {x : Tile} {l m : List Nat} {k : Nat} (sub : l ⊆ m) (absent : x.eccAny m k = false) :
    x.eccAny l k = false := by
  rw [Tile.eccAny, List.any_eq_false] at absent ⊢
  exact fun g mem => absent g (sub mem)

theorem partGranules_subset (a n : Nat) : partGranules a n ⊆ granulesOf a n := List.filter_sublist.subset

theorem mget_foldl_zero (gs : List Nat) (m : SMap Nat) (j : Nat) :
    mget 0 (gs.foldl (fun p g => mset 0 p g 0) m) j = if j ∈ gs then 0 else mget 0 m j := by
  induction gs generalizing m with
  | nil => simp
  | cons g gs ih =>
    rw [List.foldl_cons, ih, mget_mset]
    by_cases same : j = g <;> simp [same]

/-- A write takes ECC errors away and brings none. -/
theorem Tile.putSram_eccAny (x : Tile) (a : Nat) (b : Bytes) {l : List Nat} {k : Nat} (kind : k ≠ 0) (absent : x.eccAny l k = false) :
    (x.putSram a b).eccAny l k = false := by
  rw [Tile.eccAny, List.any_eq_false] at absent ⊢
  intro g mem
  rw [Tile.putSram, mget_foldl_zero]
  split
  · simp [Ne.symm kind]
  · exact absent g mem

/-- A write where no granule has an error is the write of its bytes. -/
theorem State.sramWrite_clean {s : State} {t a : Nat} {b : Bytes} (single : (s.tile t).eccAny (granulesOf a b.length) 1 = false)
    (double : (s.tile t).eccAny (granulesOf a b.length) 2 = false) :
    s.sramWrite t a b = s.modTile t (fun x => x.putSram a b) := by
  have corrected : s.correctSram t a (partGranules a b.length) = s := by
    rw [State.correctSram, Tile.eccAny_of_subset (partGranules_subset a b.length) single]
    rfl
  have sound : ((s.tile t).putSram a b).eccAny (partGranules a b.length) 2 = false :=
    Tile.putSram_eccAny _ a b (by decide) (Tile.eccAny_of_subset (partGranules_subset a b.length) double)
  simp [State.sramWrite, corrected, sound]

/-! ### Local loads and stores (08 R255, R258) -/

theorem localOk_iff (a n : Nat) : localOk a n = true ↔ a < 4194304 ∧ a % n = 0 := by
  simp [localOk]

theorem localOk_eq_false {a n : Nat} (refused : 4194304 ≤ a ∨ a % n ≠ 0) : localOk a n = false := by
  rw [← Bool.not_eq_true, localOk_iff]
  omega

theorem TileBecomes.advanceIfRunning {s u : State} {t : Nat} {x : Tile} (h : TileBecomes s u t x) (running : x.seq = .running)
    (room : x.pc < 8191) : TileBecomes s (u.advanceIfRunning t) t { x with pc := x.pc + 1 } := by
  rw [State.advanceIfRunning, if_pos (by rw [h.1, running])]
  exact h.advance room

theorem Issues.running {s : State} {t : Nat} {r : Req} {w : W64} (issues : Issues s t r w) : (s.tile t).seq = .running := by
  obtain ⟨-, -, running, -⟩ := issues
  exact running

/-- Where no check fails, LDS reads and STS writes the bytes at its address. -/
theorem State.lds_within {s : State} {t : Nat} {w : W64} {a n : Nat} (place : (s.tile t).addr w = a) (size : accSize w = n)
    (within : localOk a n = true) (clean : CleanSram (s.tile t) a n) :
    s.lds t w = s.setReg t (iSd w) (extend n (tbit (iSub w) 2) (Machine.memRead (s.tile t).sram a n)) := by
  subst place size
  simp only [State.lds, within, if_true, clean.withSram]

theorem State.sts_within {s : State} {t : Nat} {w : W64} {a n : Nat} (place : (s.tile t).addr w = a) (size : accSize w = n)
    (within : localOk a n = true) (clean : CleanSram (s.tile t) a n) :
    s.sts t w = (s.modTile t (fun x => x.putSram a (toLe n ((s.tile t).b w).toNat))).advanceIfRunning t := by
  subst place size
  obtain ⟨single, double, -⟩ := clean
  simp only [State.sts, within, if_true]
  rw [State.sramWrite_clean (by rwa [toLe_length]) (by rwa [toLe_length])]

theorem State.lds_refused {s : State} {t : Nat} {w : W64} {a : Nat} (place : (s.tile t).addr w = a)
    (refused : localOk a (accSize w) = false) : s.lds t w = s.tileFault t 0x02 0 (a / 128) false false := by
  subst place
  simp only [State.lds, refused, Bool.false_eq_true, if_false]

theorem State.sts_refused {s : State} {t : Nat} {w : W64} {a : Nat} (place : (s.tile t).addr w = a)
    (refused : localOk a (accSize w) = false) : s.sts t w = s.tileFault t 0x02 0 (a / 128) false false := by
  subst place
  simp only [State.sts, refused, Bool.false_eq_true, if_false]

section Local
variable {s : State} {t : Nat} {r : Req} {w : W64} (issues : Issues s t r w)
include issues

theorem Issues.lds_eq (opcode : iOp w = 0x30) : exec (.tLds t) s = .next ((s.stallAt t 0).lds t w) :=
  issues.exec_eq (f := fun s w _ => s.lds t w) rfl opcode (regsDA_named w)

theorem Issues.sts_eq (opcode : iOp w = 0x31) : exec (.tSts t) s = .next ((s.stallAt t 0).sts t w) :=
  issues.exec_eq (f := fun s w _ => s.sts t w) rfl opcode (regsAB_named w)

section Within
variable (room : (s.tile t).pc < 8191) {a n : Nat} (place : (s.tile t).addr w = a) (size : accSize w = n)
  (within : localOk a n = true) (clean : CleanSram (s.tile t) a n)
include room place size within clean

theorem Issues.lds_loads (opcode : iOp w = 0x30) :
    Computes (.tLds t) s t (iSd w) (extend n (tbit (iSub w) 2) (memRead (s.tile t).sram a n)) := by
  have run := issues.lds_eq opcode
  rw [State.lds_within (by rwa [stallAt_tile]) size within (by rwa [stallAt_tile]), stallAt_tile] at run
  exact computes_of_setReg room run

theorem Issues.sts_stores (opcode : iOp w = 0x31) : ∃ u, exec (.tSts t) s = .next u ∧ TileBecomes s u t
    { { s.tile t with stall := 0 }.putSram a (toLe n ((s.tile t).getS (iSb w)).toNat) with pc := (s.tile t).pc + 1 } := by
  have run := issues.sts_eq opcode
  rw [State.sts_within (by rwa [stallAt_tile]) size within (by rwa [stallAt_tile]), stallAt_tile] at run
  exact ⟨_, run, ((tileBecomes_stallAt s t 0).modTile _).advanceIfRunning issues.running room⟩

end Within

section Refused
variable {a : Nat} (place : (s.tile t).addr w = a) (refused : localOk a (accSize w) = false)
include place refused

theorem Issues.lds_faults (opcode : iOp w = 0x30) :
    exec (.tLds t) s = .next ((s.stallAt t 0).tileFault t 0x02 0 (a / 128) false false) := by
  rw [issues.lds_eq opcode, State.lds_refused (by rwa [stallAt_tile]) refused]

theorem Issues.sts_faults (opcode : iOp w = 0x31) :
    exec (.tSts t) s = .next ((s.stallAt t 0).tileFault t 0x02 0 (a / 128) false false) := by
  rw [issues.sts_eq opcode, State.sts_refused (by rwa [stallAt_tile]) refused]

end Refused

end Local

/-- Settles O9: past its checks LDS writes one register and STS one run of bytes; refused by a check, both fault. -/
theorem tileLocalLoadAndStore : Obligations.TileLocalLoadAndStore := by
  unfold Obligations.TileLocalLoadAndStore
  refine ⟨fun s t r w issues room => ?_, fun s t r w issues => ?_⟩
  · intro a n below aligned clean
    have within : localOk a n = true := (localOk_iff a n).2 ⟨below, aligned⟩
    refine ⟨issues.lds_loads room rfl rfl within clean, fun op => ?_⟩
    obtain ⟨u, run, tile, others, rest⟩ := issues.sts_stores room rfl rfl within clean op
    refine ⟨u, run, by rw [tile], fun j => ?_, fun k => by rw [tile]; rfl, others, (congrArg State.hbm rest :)⟩
    have written := memGet_memWrite (s.tile t).sram a (toLe n ((s.tile t).getS (iSb w)).toNat) j
    rw [toLe_length] at written
    rw [tile]
    exact written
  · intro a refused
    have refusal : localOk a (accSize w) = false := localOk_eq_false refused
    exact ⟨issues.lds_faults rfl refusal, issues.sts_faults rfl refusal⟩

/-! ### Global accesses that issue (08 R254, R259, R262) -/

section Global
variable {s : State} {t : Nat} {r : Req} {w : W64} {a : Nat}

theorem MayAccess.starts {k : AccKind} {n : Nat} (may : MayAccess s r a n k.writes) (data : Bytes) :
    s.globalAcc t r k a n data none = s.startAcc t r.den k (s.reachOf r a n k.writes) n data := by
  obtain ⟨reaches, master, tokens, entry⟩ := may
  exact State.globalAcc_starts reaches master tokens entry

/-- An access whose bytes come from tile SRAM. -/
theorem MayAccess.starts_sram {k : AccKind} {n b : Nat} (may : MayAccess s r a n k.writes) (clean : CleanSram (s.tile t) b n)
    (data : Bytes) : s.globalAcc t r k a n data (some b) =
      s.startAcc t r.den k (s.reachOf r a n k.writes) n (memRead (s.tile t).sram b n) := by
  obtain ⟨reaches, master, tokens, entry⟩ := may
  have mastered : ¬ ((s.reachOf r a n k.writes).isHost ∧ ¬ (s.fn (r.den + 1)).bme) := fun ⟨host, off⟩ => off (master host)
  have room : ¬ ((s.reachOf r a n k.writes).isFar ∧ 16384 ≤ s.fab.xacts.length) := fun ⟨far, full⟩ =>
    absurd (entry far) (by omega)
  simp only [State.globalAcc, reaches, mastered, tokens, room, not_true, if_false, clean.withSram]

theorem State.globalAcc_bad {k : AccKind} {n : Nat} (bad : s.reachOf r a n k.writes = .bad) (data : Bytes) (src : Option Nat) :
    s.globalAcc t r k a n data src = s.tileFault t 0x03 0 0 false false := by
  simp only [State.globalAcc, bad, if_true]

theorem State.blockMove_aligned {b : Nat} (addr : (s.tile t).addr w = a) (place : ((s.tile t).b w).toNat = b) (far : a % 64 = 0)
    (near : b % 64 = 0) (inside : b + 64 ≤ 4194304) (f : Nat → Nat → State) : s.blockMove t w f = f a b := by
  subst addr place
  have fits : ¬ sramSize < ((s.tile t).b w).toNat + 64 := Nat.not_lt.2 inside
  simp only [State.blockMove, far, near, fits, ne_eq, not_true, or_self, if_false]

theorem State.atomv_starts {b c f m n : Nat} {ret : Bool} (addr : ((s.tile t).a w).toNat = a) (source : ((s.tile t).b w).toNat = b)
    (target : ((s.tile t).c w).toNat = c) (format : bits (iRaw w) 0 4 = f) (lanes : bits (iRaw w) 4 6 + 1 = m)
    (returns : tbit (iRaw w) 10 = ret) (size : m * laneBytes f = n) (sourceIn : b + n ≤ 4194304)
    (targetIn : ret = true → c + n ≤ 4194304) (permitted : atomPermitted (iSub w) f m a = true)
    (owned : s.atomLocalOk (iSub w) f m a = true) (may : MayAccess s r a n true) (clean : CleanSram (s.tile t) b n) :
    s.atomv t w r = s.startAcc t r.den (.atomv (iSub w) f m ret c) (s.reachOf r a n true) n (Machine.memRead (s.tile t).sram b n) := by
  have reads : ¬ sramSize < b + n := Nat.not_lt.2 sourceIn
  have writes : ¬ (ret = true ∧ sramSize < c + n) := fun ⟨on, out⟩ => Nat.not_lt.2 (targetIn on) out
  simp only [State.atomv, atomLane, addr, source, target, format, lanes, returns, size, reads, writes, permitted, owned, not_true,
    if_false]
  exact MayAccess.starts_sram (k := .atomv (iSub w) f m ret c) may clean []

theorem State.atoms_starts {b c : W64} (addr : ((s.tile t).a w).toNat = a) (compare : (s.tile t).b w = b) (new : (s.tile t).c w = c)
    (permitted : atomPermitted (iSub w) 0 1 a = true) (owned : s.atomLocalOk (iSub w) 0 1 a = true) (may : MayAccess s r a 8 true) :
    s.atoms t w r = s.startAcc t r.den (.atoms (iSub w) (iSd w)) (s.reachOf r a 8 true) 8
      (if iSub w = 4 then toLe 8 b.toNat ++ toLe 8 c.toNat else toLe 8 c.toNat) := by
  simp only [State.atoms, addr, compare, new, permitted, owned, not_true, if_false]
  exact MayAccess.starts (k := .atoms (iSub w) (iSd w)) may _

variable (issues : Issues s t r w)
include issues

theorem Issues.ldg_eq (opcode : iOp w = 0x34) : exec (.tLdg t) s = .next (
    if (s.tile t).addr w % accSize w ≠ 0 then (s.stallAt t 0).tileFault t 0x04 0 0 false false
    else (s.stallAt t 0).globalAcc t r (.ldg (iSd w) (accSize w) (tbit (iSub w) 2)) ((s.tile t).addr w) (accSize w) [] none) := by
  rw [issues.exec_eq (c := .tLdg t) (f := fun s w r => s.loadG t w r) rfl opcode (regsDA_named w), State.loadG, stallAt_tile]
  rfl

theorem Issues.stg_eq (opcode : iOp w = 0x35) : exec (.tStg t) s = .next (
    if (s.tile t).addr w % accSize w ≠ 0 then (s.stallAt t 0).tileFault t 0x04 0 0 false false
    else (s.stallAt t 0).globalAcc t r .stg ((s.tile t).addr w) (accSize w)
      (toLe (accSize w) ((s.tile t).getS (iSb w)).toNat) none) := by
  rw [issues.exec_eq (c := .tStg t) (f := fun s w r => s.storeG t w r) rfl opcode (regsAB_named w), State.storeG, stallAt_tile]
  rfl

theorem Issues.ldgb_starts (opcode : iOp w = 0x36) {b : Nat} (addr : (s.tile t).addr w = a)
    (place : ((s.tile t).getS (iSb w)).toNat = b) (far : a % 64 = 0) (near : b % 64 = 0) (inside : b + 64 ≤ 4194304)
    (may : MayAccess (s.stallAt t 0) r a 64 false) : exec (.tLdgb t) s =
      .next ((s.stallAt t 0).startAcc t r.den (.ldgb b) ((s.stallAt t 0).reachOf r a 64 false) 64 []) := by
  rw [issues.exec_eq (c := .tLdgb t) (f := fun s w r => s.blockMove t w (fun a l => s.globalAcc t r (.ldgb l) a 64 [] none)) rfl
    opcode (regsAB_named w), State.blockMove_aligned (by rwa [stallAt_tile]) (by rwa [stallAt_tile]) far near inside]
  exact congrArg _ (MayAccess.starts (k := .ldgb b) may [])

theorem Issues.stgb_starts (opcode : iOp w = 0x37) {b : Nat} (addr : (s.tile t).addr w = a)
    (place : ((s.tile t).getS (iSb w)).toNat = b) (far : a % 64 = 0) (near : b % 64 = 0) (inside : b + 64 ≤ 4194304)
    (may : MayAccess (s.stallAt t 0) r a 64 true) (clean : CleanSram (s.tile t) b 64) : exec (.tStgb t) s =
      .next ((s.stallAt t 0).startAcc t r.den .stgb ((s.stallAt t 0).reachOf r a 64 true) 64 (memRead (s.tile t).sram b 64)) := by
  rw [issues.exec_eq (c := .tStgb t) (f := fun s w r => s.blockMove t w (fun a l => s.globalAcc t r .stgb a 64 [] (some l))) rfl
    opcode (regsAB_named w), State.blockMove_aligned (by rwa [stallAt_tile]) (by rwa [stallAt_tile]) far near inside,
    MayAccess.starts_sram (k := .stgb) may (by rwa [stallAt_tile]), stallAt_tile]
  rfl

end Global

theorem bits_zero (v n : Nat) : bits v 0 n = v % 2 ^ n := by rw [bits, Nat.pow_zero, Nat.div_one]

/-! ### FENCE, and accesses that end (08 R254, R262, R263, R283) -/

theorem Issues.fence_eq {s : State} {t : Nat} {r : Req} {w : W64} (issues : Issues s t r w) (opcode : iOp w = 0x3A) :
    exec (.tFence t) s = .next (if (s.stallAt t 0).fenced t then (s.stallAt t 0).advance t else (s.stallAt t 0).stallAt t 9) :=
  issues.exec_eq (f := fun s _ _ => if s.fenced t then s.advance t else s.stallAt t 9) rfl opcode (List.nil_subset _)

section Done
variable {s : State} {t n : Nat} {g : GAcc} (hub : s.hub = true) (found : (s.tile t).accs.find? (fun y => y.id == n) = some g)
include hub found

theorem exec_globalAccessDone_ends : exec (.globalAccessDone t n) s = .next (s.endAcc t g) := by
  change execGlobalAccessDone t n s = _
  simp only [execGlobalAccessDone, found, hub, if_true]

theorem exec_globalAccessDone_fails {c : Nat} (failed : g.st = .failed c) : exec (.globalAccessDone t n) s = .next
    ((s.modTile t (fun x => { x with accs := x.accs.filter (fun y => y.id != g.id) })).tileFault t c 0 0 false false) := by
  rw [exec_globalAccessDone_ends hub found, State.endAcc]
  simp only [failed]

theorem exec_globalAccessDone_delivers {b : Bytes} (served : g.st = .served b false) (live : (s.tile t).seq ≠ .aborting) :
    exec (.globalAccessDone t n) s = .next
      ((s.modTile t (fun x => { x with accs := x.accs.filter (fun y => y.id != g.id) })).deliverAcc t g.kind b) := by
  rw [exec_globalAccessDone_ends hub found, State.endAcc]
  simp only [served, State.modTile_tile, live, if_true, if_false, Bool.false_eq_true]

end Done

/-- What LDG and ATOMS bring goes into SD. -/
theorem State.deliverAcc_register {s : State} {t : Nat} {k : AccKind} {b : Bytes} {sd : Nat} {v : W64}
    (brings : s.deliverAcc t k b = s.modTile t (fun x => x.setS sd v)) (j : Nat) :
    ((s.deliverAcc t k b).tile t).getS j = if j = sd ∧ j ≠ 0 then v else (s.tile t).getS j := by
  rw [brings, State.modTile_tile, if_pos rfl, Tile.getS_setS]

/-- Settles O10: each instruction is followed past the checks that its conditions let pass, or to the fault of the first that does
not; an access that ends, by what has become of it. -/
theorem tileGlobalAccesses : Obligations.TileGlobalAccesses := by
  unfold Obligations.TileGlobalAccesses
  refine ⟨fun s t r w issues => ?_, fun s t r w issues => ?_, fun s t r w issues => ?_, fun s t r w issues op => ?_,
    fun s t n g hub found => ?_⟩
  · intro x u a b n starts
    refine ⟨fun op aligned may => ?ldg, fun op aligned may => ?stg, fun op far near inside may => ?ldgb,
      fun op far near inside may clean => ?stgb⟩
    case ldg =>
      refine (issues.ldg_eq op).trans (congrArg _ ((if_neg (not_not.2 aligned)).trans ?_))
      exact MayAccess.starts (k := .ldg (iSd w) n (tbit (iSub w) 2)) may []
    case stg =>
      refine (issues.stg_eq op).trans (congrArg _ ((if_neg (not_not.2 aligned)).trans ?_))
      exact MayAccess.starts (k := .stg) may _
    case ldgb => exact issues.ldgb_starts op rfl rfl far near inside may
    case stgb => exact issues.stgb_starts op rfl rfl far near inside may clean
  · intro x u a b c f m n ret starts
    refine ⟨fun op source target permitted owned may clean => ?atomv, fun op permitted owned may => ?atoms⟩
    case atomv =>
      rw [issues.exec_eq (c := .tAtomv t) (f := fun s w r => s.atomv t w r) rfl op (by simp)]
      refine (congrArg _ (State.atomv_starts (by rw [stallAt_tile]; rfl) (by rw [stallAt_tile]; rfl) (by rw [stallAt_tile]; rfl)
        (bits_zero _ 4) rfl rfl rfl source target permitted owned may (by rwa [stallAt_tile]))).trans ?_
      rw [stallAt_tile]
      rfl
    case atoms =>
      rw [issues.exec_eq (c := .tAtoms t) (f := fun s w r => s.atoms t w r) rfl op (by simp)]
      exact congrArg _ (State.atoms_starts (by rw [stallAt_tile]; rfl) (by rw [stallAt_tile]; rfl) (by rw [stallAt_tile]; rfl)
        permitted owned may)
  · intro u a n
    exact ⟨fun op odd => (issues.ldg_eq op).trans (congrArg _ (if_pos odd)),
      fun op odd => (issues.stg_eq op).trans (congrArg _ (if_pos odd)),
      fun op aligned bad => (issues.ldg_eq op).trans
        (congrArg _ ((if_neg (not_not.2 aligned)).trans (State.globalAcc_bad bad _ _))),
      fun op aligned bad => (issues.stg_eq op).trans
        (congrArg _ ((if_neg (not_not.2 aligned)).trans (State.globalAcc_bad bad _ _)))⟩
  · refine ⟨fun applied room => ?_, fun outstanding => ?_⟩
    · exact goesTo_of_advance room ((issues.fence_eq op).trans (congrArg _ (if_pos applied)))
    · exact (issues.fence_eq op).trans (congrArg _ (if_neg (by simp [outstanding])))
  · intro v
    have kept : ∀ j, (v.tile t).getS j = (s.tile t).getS j := fun j => by rw [State.modTile_tile, if_pos rfl]; rfl
    refine ⟨fun c failed => exec_globalAccessDone_fails hub found failed, fun b served live =>
      ⟨exec_globalAccessDone_delivers hub found served live, fun sd k sext => ⟨fun kind j => ?ldg, fun op kind j => ?atoms⟩⟩⟩
    case ldg => exact (State.deliverAcc_register (by rw [kind]; rfl) j).trans (by rw [kept])
    case atoms => exact (State.deliverAcc_register (by rw [kind]; rfl) j).trans (by rw [kept])

end Sys2Proof.Machine
end

section
/-!
Quills of a tile (08 R272 to R277): QSEND, QRECV and QWAIT go on (`TileGoes`), wait with their stall code, or fault; and the delivery
of a quill.
-/

namespace Sys2Proof.Machine

theorem TileBecomes.tileGoes {s u : State} {t : Nat} {f : Tile → Tile}
    (h : TileBecomes s u t { f (s.tile t) with pc := (s.tile t).pc, stall := 0 }) (room : (s.tile t).pc < 8191) :
    TileGoes s (u.advance t) t f :=
  h.advance room

/-- One update of the tile, and on to the next instruction; the update sees the tile with its stall cleared. -/
theorem tileGoes_of_modTile {s : State} {t : Nat} {f g : Tile → Tile} (room : (s.tile t).pc < 8191)
    (same : g { s.tile t with stall := 0 } = { f (s.tile t) with pc := (s.tile t).pc, stall := 0 }) :
    TileGoes s (((s.stallAt t 0).modTile t g).advance t) t f :=
  TileBecomes.tileGoes (same ▸ (tileBecomes_stallAt s t 0).modTile g) room

/-! ### Quills (08 R272, R275, R276) -/

theorem stallAt_quillSrc (s : State) (t k v : Nat) : (s.stallAt t k).quillSrc t v = s.quillSrc t v := by
  rw [State.quillSrc, stallAt_tile]
  rfl

theorem State.qsend_inside {s : State} {t : Nat} {w : W64} {r : Req} {v l : Nat} (dest : ((s.tile t).a w).toNat = v)
    (place : ((s.tile t).b w).toNat = l) (inside : l + 64 ≤ 4194304) : s.qsend t w r =
      if ¬ s.quillDestOk r v then s.tileFault t 0x09 0 0 false false
      else if 4 ≤ (s.tile t).sendq.length then s.stallAt t 8
      else s.sendQuill t r v l (iSub w) := by
  subst dest place
  exact if_neg (Nat.not_lt.2 inside)

/-- Sound bytes leave as a quill, whatever its destination. -/
theorem State.sendQuill_clean {s : State} {t v l c : Nat} {r : Req} (clean : CleanSram (s.tile t) l 64) :
    s.sendQuill t r v l c = (s.modTile t (fun x => { x with sendq := x.sendq ++
      [{ req := r.id, dest := BitVec.ofNat 64 v, chan := c,
         quill := { src := s.quillSrc t v, data := Machine.memRead (s.tile t).sram l 64,
                    poison := (s.tile t).marks64 l } }] })).advance t := by
  obtain ⟨single, double, marks⟩ := clean
  simp only [State.sendQuill, marks, State.sramCarry_clean single double, Bool.false_eq_true, false_and, and_false, if_false]

theorem State.qrecv_takes {s : State} {t : Nat} {w : W64} {r : Req} {l : Nat} {h : HeldQuill} {rest : List HeldQuill}
    (place : ((s.tile t).b w).toNat = l) (aligned : l % 64 = 0) (inside : l + 64 ≤ 4194304)
    (oldest : mget [] (s.tile t).chans (iSub w) = h :: rest) (port : h.spill = none) : s.qrecv t w r =
      ((s.modTile t (fun x => { x with chans := mset [] x.chans (iSub w) (mget [] x.chans (iSub w)).tail })).modTile t
        (fun x => x.putMarked l (padB 64 h.quill.data) h.quill.poison)).setReg t (iSd w) h.quill.src := by
  subst place
  have fits : ¬ sramSize < ((s.tile t).b w).toNat + 64 := Nat.not_lt.2 inside
  simp only [State.qrecv, aligned, fits, oldest, State.takeQuill, port, ne_eq, not_true, or_self, if_false]

theorem State.qrecv_empty {s : State} {t : Nat} {w : W64} {r : Req} {l : Nat} (place : ((s.tile t).b w).toNat = l)
    (aligned : l % 64 = 0) (inside : l + 64 ≤ 4194304) (empty : mget [] (s.tile t).chans (iSub w) = []) :
    s.qrecv t w r = s.stallAt t 4 := by
  subst place
  have fits : ¬ sramSize < ((s.tile t).b w).toNat + 64 := Nat.not_lt.2 inside
  simp only [State.qrecv, aligned, fits, empty, ne_eq, not_true, or_self, if_false]

/-- A write of 64 bytes and their marks leaves PC and STALL alone. -/
theorem Tile.putMarked_at (x : Tile) (p k b : Nat) (bs : Bytes) (m : BitVec 8) :
    ({ x with pc := p, stall := k } : Tile).putMarked b bs m = { x.putMarked b bs m with pc := p, stall := k } := by
  unfold Tile.putMarked
  refine List.foldl_hom (init := x.putSram b bs) (fun y : Tile => { y with pc := p, stall := k }) (fun y g => ?_)
  split <;> rfl

section Quill
variable {s : State} {t : Nat} {r : Req} {w : W64} (issues : Issues s t r w)
include issues

theorem Issues.qsend_eq (opcode : iOp w = 0x50) : exec (.tQsend t) s = .next ((s.stallAt t 0).qsend t w r) :=
  issues.exec_eq (f := fun s w r => s.qsend t w r) rfl opcode (regsAB_named w)

theorem Issues.qrecv_eq (opcode : iOp w = 0x51) : exec (.tQrecv t) s = .next ((s.stallAt t 0).qrecv t w r) :=
  issues.exec_eq (f := fun s w r => s.qrecv t w r) rfl opcode (by simp)

theorem Issues.qwait_eq (opcode : iOp w = 0x52) : exec (.tQwait t) s = .next (
    if (s.tile t).chanMask (iRaw w) = 0 ∧ iSub w ≠ 1 then (s.stallAt t 0).stallAt t 4
    else (s.stallAt t 0).setReg t (iSd w) (BitVec.ofNat 64 ((s.tile t).chanMask (iRaw w)))) := by
  rw [issues.exec_eq (c := .tQwait t) (f := fun s w _ => s.qwait t w) rfl opcode (regsD_named w), State.qwait, stallAt_tile]
  rfl

section Place
variable {v l : Nat} (place : ((s.tile t).getS (iSb w)).toNat = l) (inside : l + 64 ≤ 4194304)
include place inside

section Dest
variable (dest : ((s.tile t).getS (iSa w)).toNat = v) (opcode : iOp w = 0x50)
include dest opcode

theorem Issues.qsend_inside : exec (.tQsend t) s = .next (
    if ¬ s.quillDestOk r v then (s.stallAt t 0).tileFault t 0x09 0 0 false false
    else if 4 ≤ (s.tile t).sendq.length then (s.stallAt t 0).stallAt t 8
    else (s.stallAt t 0).sendQuill t r v l (iSub w)) := by
  rw [issues.qsend_eq opcode, State.qsend_inside (v := v) (l := l) (by rwa [stallAt_tile]) (by rwa [stallAt_tile]) inside, stallAt_tile]
  rfl

theorem Issues.qsend_sends (room : (s.tile t).pc < 8191) (allowed : s.quillDestOk r v = true) (free : (s.tile t).sendq.length < 4)
    (clean : CleanSram (s.tile t) l 64) : ∃ u, exec (.tQsend t) s = .next u ∧ TileGoes s u t (fun y => { y with sendq := y.sendq ++
      [{ req := r.id, dest := BitVec.ofNat 64 v, chan := iSub w,
         quill := { src := s.quillSrc t v, data := memRead y.sram l 64, poison := y.marks64 l } }] }) := by
  refine ⟨_, issues.qsend_inside place inside dest opcode, ?_⟩
  rw [if_neg (not_not.2 allowed), if_neg (by omega), State.sendQuill_clean (by rwa [stallAt_tile]), stallAt_quillSrc, stallAt_tile]
  exact tileGoes_of_modTile room rfl

end Dest

theorem Issues.qrecv_moves (room : (s.tile t).pc < 8191) (opcode : iOp w = 0x51) (aligned : l % 64 = 0) {h : HeldQuill}
    {rest : List HeldQuill} (oldest : mget [] (s.tile t).chans (iSub w) = h :: rest) (port : h.spill = none) :
    ∃ u, exec (.tQrecv t) s = .next u ∧ TileGoes s u t (fun y =>
      (({ y with chans := mset [] y.chans (iSub w) rest }.putMarked l (padB 64 h.quill.data) h.quill.poison).setS (iSd w)
        h.quill.src)) := by
  refine ⟨_, issues.qrecv_eq opcode, ?_⟩
  rw [State.qrecv_takes (by rwa [stallAt_tile]) aligned inside (by rwa [stallAt_tile]) port]
  have moved := (((tileBecomes_stallAt s t 0).modTile
    (fun x => { x with chans := mset [] x.chans (iSub w) (mget [] x.chans (iSub w)).tail })).modTile
    (fun x => x.putMarked l (padB 64 h.quill.data) h.quill.poison)).modTile (fun x => x.setS (iSd w) h.quill.src)
  rw [oldest, List.tail_cons] at moved
  have same := Tile.setS_at ({ s.tile t with chans := mset [] (s.tile t).chans (iSub w) rest }.putMarked l (padB 64 h.quill.data)
    h.quill.poison) (s.tile t).pc 0 (iSd w) h.quill.src
  rw [← Tile.putMarked_at] at same
  exact TileBecomes.tileGoes (same ▸ moved) room

end Place

end Quill

/-! ### Delivery (08 R273, R274) -/

/-- 08 R273: the oldest quill leaves its send queue. -/
theorem exec_quillDeliver_carries {s : State} {t : Nat} {r : Req} {x : SentQuill} {rest : List SentQuill} (hub : s.hub = true)
    (holder : s.holder t = some r) (sent : (s.tile t).sendq = x :: rest) :
    exec (.quillDeliver t) s = .next ((s.modTile t (fun y => { y with sendq := rest })).carryQuill t r x) := by
  change execQuillDeliver t s = _
  simp only [execQuillDeliver, holder, sent, hub, if_true]

/-- A destination below 256 is a placed index of the task (08 R272). -/
theorem State.carryQuill_placed {s : State} {t v : Nat} {r : Req} {x : SentQuill} (small : x.dest.toNat < 256)
    (placed : r.tiles[x.dest.toNat]? = some v) : s.carryQuill t r x = s.putQuill v x.chan x.quill := by
  have here : qRemote x.dest.toNat = false := Nat.testBit_lt_two_pow (by omega)
  have index : bits x.dest.toNat 0 8 = x.dest.toNat := by rw [bits_zero]; omega
  simp only [State.carryQuill, here, index, placed, Bool.false_eq_true, not_false_eq_true, if_true]

/-- Settles O11: QSEND, QRECV and QWAIT by what their queue and channels hold; a delivery by its destination. -/
theorem quills : Obligations.Quills := by
  unfold Obligations.Quills
  refine ⟨fun s t r w issues room => ?_, fun s t r x rest hub holder sent =>
    ⟨exec_quillDeliver_carries hub holder sent, fun v small placed => State.carryQuill_placed small placed⟩⟩
  intro x v l m
  refine ⟨fun op inside allowed free clean => issues.qsend_sends rfl inside rfl op room allowed free clean,
    fun op inside allowed full => ?waits, fun op inside refused => ?refused,
    fun h rest op aligned inside oldest port => issues.qrecv_moves rfl inside room op aligned oldest port,
    fun op aligned inside empty => ?empty, fun op ready => ?masks, fun op empty block => ?blocks⟩
  case waits => exact (issues.qsend_inside rfl inside rfl op).trans (congrArg _ ((if_neg (not_not.2 allowed)).trans (if_pos full)))
  case refused => exact (issues.qsend_inside rfl inside rfl op).trans (congrArg _ (if_pos ((Bool.not_eq_true _).mpr refused)))
  case empty =>
    exact (issues.qrecv_eq op).trans
      (congrArg _ (State.qrecv_empty (by rw [stallAt_tile]; rfl) aligned inside (by rwa [stallAt_tile])))
  case masks => exact computes_of_setReg room ((issues.qwait_eq op).trans (congrArg _ (if_neg (by tauto))))
  case blocks => exact (issues.qwait_eq op).trans (congrArg _ (if_pos ⟨empty, block⟩))

end Sys2Proof.Machine
end

section
/-!
How a tile synchronises (08 R263 to R269, R279, R280, 12 R381): engine queues, semaphores, history buffers and barriers.
-/

namespace Sys2Proof.Machine

/-! ### Engine queues (08 R265, R276) -/

theorem Tile.place_queue (x : Tile) (n q : Nat) (b : Bytes) :
    (x.place n b).queue q = if q = n then x.queue q ++ [b] else x.queue q := by
  rw [Tile.queue, Tile.place, mget_mset]
  split
  · rename_i same
    rw [same]
  · rfl

theorem Tile.semTake_sems (x : Tile) (n k : Nat) : mget 0 (x.semTake n k).sems n = mget 0 x.sems n - 1 := by
  rw [Tile.semTake, mget_mset, if_pos rfl]

theorem State.placeDesc_within {s : State} {t : Nat} {w : W64} {a n : Nat} (place : ((s.tile t).a w).toNat = a)
    (size : (s.tile t).descLen a = n) (aligned : a % 16 = 0) (below : a < 4194304) (inside : a + n ≤ 4194304) :
    s.placeDesc t w = if 8 ≤ ((s.tile t).queue (iSub w)).length then s.stallAt t 2
      else s.withSram t a n (fun s b => (s.modTile t (fun x => x.place (iSub w) b)).advance t) := by
  subst place size
  refine if_neg ?_
  rintro (odd | above | out)
  · exact odd aligned
  · exact Nat.not_le.2 below above
  · exact Nat.not_lt.2 inside out

section Queue
variable {s : State} {t : Nat} {r : Req} {w : W64} (issues : Issues s t r w)
include issues

section Exec
variable {a n : Nat} (opcode : iOp w = 0x40) (place : ((s.tile t).getS (iSa w)).toNat = a) (size : (s.tile t).descLen a = n)
  (aligned : a % 16 = 0) (below : a < 4194304) (inside : a + n ≤ 4194304)
include opcode place size aligned below inside

theorem Issues.exec_within : exec (.tExec t) s = .next (
    if 8 ≤ ((s.tile t).queue (iSub w)).length then (s.stallAt t 0).stallAt t 2
    else (s.stallAt t 0).withSram t a n (fun s b => (s.modTile t (fun x => x.place (iSub w) b)).advance t)) := by
  rw [issues.exec_eq (c := .tExec t) (f := fun s w _ => s.placeDesc t w) rfl opcode (by simp),
    State.placeDesc_within (a := a) (n := n) (by rwa [stallAt_tile]) (by rwa [stallAt_tile]) aligned below inside, stallAt_tile]
  rfl

theorem Issues.exec_places (room : (s.tile t).pc < 8191) (free : ((s.tile t).queue (iSub w)).length < 8)
    (clean : CleanSram (s.tile t) a n) : ∃ u, exec (.tExec t) s = .next u ∧
      TileGoes s u t (fun y => { y with engq := (y.place (iSub w) (memRead y.sram a n)).engq }) := by
  refine ⟨_, issues.exec_within opcode place size aligned below inside, ?_⟩
  rw [if_neg (Nat.not_le.2 free), CleanSram.withSram (by rwa [stallAt_tile]), stallAt_tile]
  exact tileGoes_of_modTile room rfl

end Exec

theorem Issues.waite_eq (opcode : iOp w = 0x41) : exec (.tWaite t) s = .next (
    if ((s.tile t).queue (iSub w)).length ≤ iRaw w then (s.stallAt t 0).advance t else (s.stallAt t 0).stallAt t 6) := by
  rw [issues.exec_eq (c := .tWaite t)
    (f := fun s w _ => if ((s.tile t).queue (iSub w)).length ≤ iRaw w then s.advance t else s.stallAt t 6) rfl opcode
    (List.nil_subset _), stallAt_tile]
  rfl

/-! ### Semaphores and history buffers (08 R269, 12 R381) -/

theorem Issues.sempost_eq (opcode : iOp w = 0x42) :
    exec (.tSempost t) s = .next (((s.stallAt t 0).postSem t (iRaw w % 16)).advanceIfRunning t) :=
  issues.exec_eq (f := fun s w _ => (s.postSem t (iRaw w % 16)).advanceIfRunning t) rfl opcode (List.nil_subset _)

theorem Issues.sempost_posts (opcode : iOp w = 0x42) (room : (s.tile t).pc < 8191) {m : Nat} (named : iRaw w % 16 = m)
    (below : mget 0 (s.tile t).sems m < 255) : ∃ u, exec (.tSempost t) s = .next u ∧
      TileGoes s u t (fun y => { y with sems := mset 0 y.sems m (mget 0 y.sems m + 1) }) := by
  subst named
  refine ⟨_, issues.sempost_eq opcode, ?_⟩
  rw [State.postSem, stallAt_tile, if_neg (Nat.not_le.2 below)]
  exact ((tileBecomes_stallAt s t 0).modTile _).advanceIfRunning issues.running room

theorem Issues.sempost_overflows (opcode : iOp w = 0x42) (full : 255 ≤ mget 0 (s.tile t).sems (iRaw w % 16)) :
    exec (.tSempost t) s = .next (((s.stallAt t 0).tileFault t 0x08 0 0 false false).advanceIfRunning t) := by
  rw [issues.sempost_eq opcode, State.postSem, stallAt_tile, if_pos full]

theorem Issues.semwait_eq (opcode : iOp w = 0x43) : exec (.tSemwait t) s = .next (
    if (s.tile t).semFree (iRaw w % 16) 0 then ((s.stallAt t 0).modTile t (fun y => y.semTake (iRaw w % 16) 0)).advance t
    else ((s.stallAt t 0).modTile t (fun y => y.semQueue (iRaw w % 16) 0)).stallAt t 3) := by
  rw [issues.exec_eq (c := .tSemwait t) (f := fun s w _ => s.semwait t (iRaw w % 16)) rfl opcode (List.nil_subset _), State.semwait,
    stallAt_tile]
  rfl

theorem Issues.semwait_takes (opcode : iOp w = 0x43) (room : (s.tile t).pc < 8191) {m : Nat} (named : iRaw w % 16 = m)
    (positive : 0 < mget 0 (s.tile t).sems m) (turn : (s.tile t).semTurn m 0 = true) :
    ∃ u, exec (.tSemwait t) s = .next u ∧ TileGoes s u t (fun y => y.semTake m 0) ∧
      mget 0 (u.tile t).sems m = mget 0 (s.tile t).sems m - 1 := by
  subst named
  have free : (s.tile t).semFree (iRaw w % 16) 0 = true := by simp [Tile.semFree, positive, turn]
  have goes : TileGoes s (((s.stallAt t 0).modTile t (fun y => y.semTake (iRaw w % 16) 0)).advance t) t
      (fun y => y.semTake (iRaw w % 16) 0) := tileGoes_of_modTile room rfl
  refine ⟨_, (issues.semwait_eq opcode).trans (congrArg _ (if_pos free)), goes, ?_⟩
  rw [goes.1]
  exact (s.tile t).semTake_sems (iRaw w % 16) 0

theorem Issues.semwait_waits (opcode : iOp w = 0x43)
    (taken : mget 0 (s.tile t).sems (iRaw w % 16) = 0 ∨ (s.tile t).semTurn (iRaw w % 16) 0 = false) :
    exec (.tSemwait t) s = .next (((s.stallAt t 0).modTile t (fun y => y.semQueue (iRaw w % 16) 0)).stallAt t 3) := by
  have blocked : (s.tile t).semFree (iRaw w % 16) 0 = false := by
    rcases taken with zero | later
    · simp [Tile.semFree, zero]
    · simp [Tile.semFree, later]
  rw [issues.semwait_eq opcode, blocked]
  rfl

theorem Issues.hnext_releases (opcode : iOp w = 0x60) (room : (s.tile t).pc < 8191) (posted : (s.tile t).hbuf (iSub w) = true) :
    ∃ u, exec (.tHnext t) s = .next u ∧ TileGoes s u t (fun y => y.setBuf (iSub w) false) := by
  have run := issues.exec_eq (c := .tHnext t) (f := fun s w _ => s.hnext t w) rfl opcode (List.nil_subset _)
  rw [State.hnext, stallAt_tile] at run
  refine ⟨_, run.trans (congrArg _ (if_pos posted)), tileGoes_of_modTile room ?_⟩
  unfold Tile.setBuf
  split <;> rfl

/-! ### Barriers (08 R263, R279, R280) -/

theorem Issues.barrier_eq (opcode : iOp w = 0x53) (free : (s.tile t).barrier = none) : exec (.tBarrier t) s = .next (
    if (s.stallAt t 0).fenced t then (s.stallAt t 0).arriveAt t r (iSub w) ((s.tile t).getS (iSa w)).toNat
    else (s.stallAt t 0).stallAt t 9) := by
  have row : exec (.tBarrier t) s = .next (s.issue t 0x53 (fun w => [iSa w]) (fun s w r =>
      if s.fenced t then s.arriveAt t r (iSub w) ((s.tile t).a w).toNat else s.stallAt t 9)) := by
    change execTBarrier t s = _
    rw [execTBarrier, free]
    rfl
  rw [issues.exec_eq row opcode (by simp), stallAt_tile]
  rfl

end Queue

/-- Tile `t` of request `r` has arrived at barrier `n` with the count `k` (08 R279). -/
def State.arrivedAt (s : State) (t : Nat) (r : Req) (n k : Nat) : State :=
  (s.modReq r.id (fun x => { x with
    barriers := mset {} x.barriers n { expected := k, tiles := (mget ({} : BarrierSt) r.barriers n).tiles ++ [t] } })).modTile t
    (fun x => { x with barrier := some n, stall := 5 })

section Arrive
variable {s : State} {t n k : Nat} {r : Req}

/-- An arrival that agrees with its barrier waits there, and the last one releases it (08 R279). -/
theorem State.arriveAt_right (right : k ≠ 0 ∧ k ≤ r.tiles.length ∧
      ((mget ({} : BarrierSt) r.barriers n).tiles = [] ∨ (mget ({} : BarrierSt) r.barriers n).expected = k)) :
    s.arriveAt t r n k = if k ≤ ((mget ({} : BarrierSt) r.barriers n).tiles ++ [t]).length
      then (s.arrivedAt t r n k).releaseBarrier r.id n ((mget ({} : BarrierSt) r.barriers n).tiles ++ [t])
      else s.arrivedAt t r n k :=
  if_neg (by rw [← Nat.not_le]; tauto)

/-- Any other arrival is a mismatch (08 R280). -/
theorem State.arriveAt_wrong (wrong : ¬ (k ≠ 0 ∧ k ≤ r.tiles.length ∧
      ((mget ({} : BarrierSt) r.barriers n).tiles = [] ∨ (mget ({} : BarrierSt) r.barriers n).expected = k))) :
    s.arriveAt t r n k = s.tileFault t 0x0B 0 0 false false :=
  if_pos (by rw [← Nat.not_le]; tauto)

end Arrive

/-- Settles O12: each instruction by the queue, the semaphore, the buffer or the barrier that it names. -/
theorem tileSynchronises : Obligations.TileSynchronises := by
  unfold Obligations.TileSynchronises
  refine ⟨fun s t r w issues room => ?_, fun s t r w issues op full => issues.sempost_overflows op full,
    fun s t r w issues op free => ?_⟩
  · intro x a n m
    refine ⟨fun op aligned below inside free clean => ?places, fun op aligned below inside full => ?full, fun op few => ?few,
      fun op many => ?many, fun op below => issues.sempost_posts op room rfl below,
      fun op positive turn => issues.semwait_takes op room rfl positive turn, fun op taken => issues.semwait_waits op taken,
      fun op posted => issues.hnext_releases op room posted⟩
    case places =>
      obtain ⟨u, run, goes⟩ := issues.exec_places op rfl rfl aligned below inside room free clean
      refine ⟨u, run, goes, fun q => ?_⟩
      rw [goes.1]
      exact Tile.place_queue _ _ q _
    case full => exact (issues.exec_within op rfl rfl aligned below inside).trans (congrArg _ (if_pos full))
    case few => exact goesTo_of_advance room ((issues.waite_eq op).trans (congrArg _ (if_pos few)))
    case many => exact (issues.waite_eq op).trans (congrArg _ (if_neg (Nat.not_le.2 many)))
  · intro v n k b l arrived right
    refine ⟨fun outstanding => ?fences, fun applied agrees early => ?arrives, fun applied agrees last => ?releases,
      fun applied wrong => ?mismatch⟩
    case fences => exact (issues.barrier_eq op free).trans (congrArg _ (if_neg ((Bool.not_eq_true _).mpr outstanding)))
    case mismatch => exact (issues.barrier_eq op free).trans (congrArg _ ((if_pos applied).trans (State.arriveAt_wrong wrong)))
    case arrives =>
      exact (issues.barrier_eq op free).trans (congrArg _ ((if_pos applied).trans
        ((State.arriveAt_right agrees).trans (if_neg (Nat.not_le.2 early)))))
    case releases =>
      exact (issues.barrier_eq op free).trans (congrArg _ ((if_pos applied).trans
        ((State.arriveAt_right agrees).trans (if_pos last))))

end Sys2Proof.Machine
end

section
/-!
How the engines of a tile start (08 R268, R269, R271, 09 R308, 10 R332, R339, 11 R351): the one rule for the descriptor that is next in
a queue, and what the matrix array, the vector engine, the reduction unit and the stream units do with one that starts.
-/

namespace Sys2Proof.Machine

/-! ### The descriptor that is next (08 R268, R271) -/

section Desc
variable {s : State} {t q k : Nat} {b : Bytes} {ok : Tile → Bytes → Bool} {inSram : Bytes → Bool}
  (on : s.engineOn t = true) (next : ((s.tile t).queue q)[k]? = some b)
include on next

theorem State.startDesc_refused (refused : ok (s.tile t) b = false) (f : State → Bytes → State) :
    s.startDesc t q k ok inSram f = s.tileFault t 0x07 0 0 false false := by
  simp only [State.startDesc, next, on, refused, Bool.false_eq_true, not_true, not_false_eq_true, if_true, if_false]
  rfl

section Accepted
variable (accepted : ok (s.tile t) b = true)
include accepted

theorem State.startDesc_outside (outside : inSram b = false) (f : State → Bytes → State) :
    s.startDesc t q k ok inSram f = s.tileFault t 0x02 0 0 false false := by
  simp only [State.startDesc, next, on, accepted, outside, Bool.false_eq_true, not_true, not_false_eq_true, if_true, if_false]

theorem State.startDesc_inside (inside : inSram b = true) (f : State → Bytes → State) : s.startDesc t q k ok inSram f =
    if (s.tile t).mayStart q b then f (s.modTile t (fun x => x.took q b)) b else s.modTile t (fun x => x.waits q b) := by
  simp only [State.startDesc, next, on, accepted, inside, not_true, if_false]

end Accepted

end Desc

theorem StartsNext.startDesc {s : State} {t q k : Nat} {b : Bytes} (starts : StartsNext s t q k b) {ok : Tile → Bytes → Bool}
    {inSram : Bytes → Bool} (accepted : ok (s.tile t) b = true) (inside : inSram b = true) (f : State → Bytes → State) :
    s.startDesc t q k ok inSram f = f (s.modTile t (fun x => x.took q b)) b := by
  obtain ⟨on, next, may⟩ := starts
  rw [State.startDesc_inside on next accepted inside, if_pos may]

/-! ### What a start reads (08 R247, R269) -/

theorem State.sramRead_clean {s : State} {t a n : Nat} (clean : CleanSram (s.tile t) a n) :
    s.sramRead t a n = (some (Machine.memRead (s.tile t).sram a n), s) := by
  obtain ⟨single, double, marks⟩ := clean
  simp only [State.sramRead, State.sramCarry_clean single double, marks, Bool.false_eq_true, if_false]

theorem CleanRuns.readsOk {s : State} {t : Nat} {l : List (Nat × Nat)} (clean : CleanRuns (s.tile t) l) :
    s.readsOk t l = (true, s) := by
  induction l with
  | nil => rfl
  | cons p l ih =>
    simp only [State.readsOk, State.sramRead_clean (clean p List.mem_cons_self)]
    exact ih (fun p mem => clean p (List.mem_cons_of_mem _ mem))

/-- A taken semaphore leaves tile SRAM as it is. -/
theorem CleanRuns.took {x : Tile} {l : List (Nat × Nat)} (clean : CleanRuns x l) (q : Nat) (b : Bytes) :
    CleanRuns (x.took q b) l := by
  unfold Tile.took
  split <;> exact clean

@[simp] theorem Tile.took_req (x : Tile) (q : Nat) (b : Bytes) : (x.took q b).req = x.req := by
  unfold Tile.took
  split <;> rfl

/-! ### The engines -/

section Start
variable {s : State} {t : Nat} {b : Bytes}

theorem exec_matrixPassStart_starts (room : (s.tile t).passes.length < 2) (starts : StartsNext s t 0 (s.tile t).passes.length b)
    (accepted : mxOk (s.tile t) b = true) (inside : runsIn (mxActRuns b ++ mxLoadRuns b) = true)
    (clean : CleanRuns (s.tile t) (mxLoadRuns b)) : ∃ u, exec (.matrixPassStart t) s = .next u ∧
      TileBecomes s u t (((s.tile t).took 0 b).startPass b) := by
  refine ⟨_, ?_, (tileBecomes_modTile s t (fun x => x.took 0 b)).modTile (fun x => x.startPass b)⟩
  have reads : (s.modTile t (fun x => x.took 0 b)).readsOk t (mxLoadRuns b) = (true, s.modTile t (fun x => x.took 0 b)) :=
    CleanRuns.readsOk (by rw [State.modTile_tile, if_pos rfl]; exact clean.took 0 b)
  change execMatrixPassStart t s = _
  rw [execMatrixPassStart, if_pos room, starts.startDesc accepted inside]
  simp only [reads, if_true]

theorem exec_vectorPassStart_eq (idle : (s.tile t).vx = none) : exec (.vectorPassStart t) s = .next
    (s.startDesc t 1 0 vecOk (fun b => runsIn (vReads b ++ vWrites b)) (fun s b => s.modTile t (fun x => { x with vx := some b }))) := by
  change execVectorPassStart t s = _
  rw [execVectorPassStart, idle]
  rfl

theorem exec_reductionStart_eq (idle : (s.tile t).rd = none) : exec (.reductionStart t) s = .next
    (s.startDesc t 2 0 redOk (fun b => runsIn ((rdX b).runs ++ rdWrites b)) (fun s b =>
      s.modTile t (fun x => { x with rd := some b }))) := by
  change execReductionStart t s = _
  rw [execReductionStart, idle]
  rfl

theorem exec_streamDescStart_starts {n : Nat} {r : Req} (unit : n < 2) (may : ((s.tile t).unit n).mayBegin = true)
    (starts : StartsNext s t (3 + n) ((s.tile t).unit n).running.length b) (accepted : suOk ((s.tile t).unit n) b = true)
    (inside : suInSram ((s.tile t).unit n) b = true) (holder : s.holder t = some r) (span : s.suSpanOk r b = true) :
    ∃ u, exec (.streamDescStart t n) s = .next u ∧
      TileBecomes s u t (((s.tile t).took (3 + n) b).modUnit n (fun y => y.begin b)) := by
  refine ⟨_, ?_, (tileBecomes_modTile s t (fun x => x.took (3 + n) b)).modTile (fun x => x.modUnit n (fun y => y.begin b))⟩
  have held : (s.modTile t (fun x => x.took (3 + n) b)).holder t = some r := by
    rw [← holder, State.holder, State.modTile_tile, if_pos rfl, Tile.took_req]
    rfl
  have reaches : (s.modTile t (fun x => x.took (3 + n) b)).suSpanOk r b = true := span
  change execStreamDescStart t n s = _
  simp only [execStreamDescStart]
  rw [if_pos ⟨unit, may⟩, starts.startDesc accepted inside]
  simp only [State.suStart, held, reaches, if_true]

end Start

/-- Settles O13: a start by the one rule for the next descriptor, and then by what the engine makes of it. -/
theorem enginesStart : Obligations.EnginesStart := by
  unfold Obligations.EnginesStart
  refine ⟨fun s t b => ?_, fun s t b on next idle => ⟨fun refused => ?refused, fun accepted outside => ?outside,
    fun accepted inside early => ?waits⟩⟩
  · intro x
    refine ⟨fun room starts accepted inside clean => ?matrix, fun idle starts accepted inside => ?vector,
      fun idle starts accepted inside => ?reduction, fun n r unit may starts accepted inside holder span => ?stream⟩
    case matrix =>
      obtain ⟨u, run, tile, others, -⟩ := exec_matrixPassStart_starts room starts accepted inside clean
      exact ⟨u, run, tile, others⟩
    case vector =>
      have run := (exec_vectorPassStart_eq idle).trans (congrArg _ (starts.startDesc accepted inside _))
      obtain ⟨tile, others, -⟩ := (tileBecomes_modTile s t (fun x => x.took 1 b)).modTile (fun x => { x with vx := some b })
      exact ⟨_, run, tile, others⟩
    case reduction =>
      have run := (exec_reductionStart_eq idle).trans (congrArg _ (starts.startDesc accepted inside _))
      obtain ⟨tile, others, -⟩ := (tileBecomes_modTile s t (fun x => x.took 2 b)).modTile (fun x => { x with rd := some b })
      exact ⟨_, run, tile, others⟩
    case stream =>
      obtain ⟨u, run, tile, others, -⟩ := exec_streamDescStart_starts unit may starts accepted inside holder span
      exact ⟨u, run, tile, others⟩
  case refused => exact (exec_vectorPassStart_eq idle).trans (congrArg _ (State.startDesc_refused on next refused _))
  case outside => exact (exec_vectorPassStart_eq idle).trans (congrArg _ (State.startDesc_outside on next accepted outside _))
  case waits =>
    exact (exec_vectorPassStart_eq idle).trans (congrArg _ ((State.startDesc_inside on next accepted inside _).trans
      (if_neg ((Bool.not_eq_true _).mpr early))))

end Sys2Proof.Machine
end

section
/-!
Task abort causes and tile power (08 R282, R283, R285, R286, R294): what the fault log touches, what an abort leaves in a tile of the
task and in its request, and a tile that dozes or joins a den.
-/

namespace Sys2Proof.Machine

/-! ### What a fault in the log touches (22 R719 to R723) -/

/-- From `s` to `u` only what is posted, counted or logged has changed: what has left the package, the functions and their rings,
the dens' counters, the fault log and the Ledger. -/
def OnlyPosts (s u : State) : Prop := u = { s with out := u.out, pcie := u.pcie, dens := u.dens, err := u.err, ldg := u.ldg }

section Posts
variable {s u v : State}

theorem OnlyPosts.trans (first : OnlyPosts s u) (second : OnlyPosts u v) : OnlyPosts s v :=
  Eq.trans second (congrArg (fun x : State => { x with out := v.out, pcie := v.pcie, dens := v.dens, err := v.err, ldg := v.ldg }) first)

theorem OnlyPosts.tiles (posts : OnlyPosts s u) : u.tiles = s.tiles := by rw [posts]
theorem OnlyPosts.reqs (posts : OnlyPosts s u) : u.reqs = s.reqs := by rw [posts]

theorem OnlyPosts.tile (posts : OnlyPosts s u) (t : Nat) : u.tile t = s.tile t := by rw [State.tile, State.tile, posts.tiles]
theorem OnlyPosts.req (posts : OnlyPosts s u) (id : Nat) : u.req id = s.req id := by rw [State.req, State.req, posts.reqs]

end Posts

section Log
variable (s : State)

theorem State.sendVec_posts (f v : Nat) : OnlyPosts s (s.sendVec f v) := by
  unfold State.sendVec
  dsimp only
  split_ifs <;> rfl

theorem State.writeEntry_posts (k : Nat) (bytes : Bytes) (vec : Option Nat) : OnlyPosts s (s.writeEntry k bytes vec) := by
  unfold State.writeEntry
  dsimp only
  cases vec with
  | none => split_ifs <;> rfl
  | some v => split_ifs <;> exact OnlyPosts.trans (by rfl) (State.sendVec_posts _ _ v)

theorem State.pushEntry_posts (k : Nat) (bytes : Bytes) (vec : Option Nat) : OnlyPosts s (s.pushEntry k bytes vec) := by
  unfold State.pushEntry
  split
  · split
    · exact s.writeEntry_posts k bytes vec
    · rfl
  · rfl

theorem State.postEvent_posts (f ty den : Nat) (payload : Bytes) : OnlyPosts s (s.postEvent f ty den payload).2 := by
  unfold State.postEvent
  dsimp only
  split_ifs
  · rfl
  · rfl
  · exact s.pushEntry_posts _ _ _

theorem State.errorEvent_posts (f cls cause : Nat) (loc : W64) : OnlyPosts s (s.errorEvent f cls cause loc) := by
  unfold State.errorEvent
  extract_lets key quiet event
  have posts : OnlyPosts s event.2 := s.postEvent_posts _ _ _ _
  clear_value event
  split_ifs
  · rfl
  · exact posts.trans (by rfl)
  · exact posts

theorem State.errorEvents_posts (cls cause : Nat) (loc : W64) : OnlyPosts s (s.errorEvents cls cause loc) := by
  unfold State.errorEvents
  dsimp only
  split_ifs
  · exact (s.errorEvent_posts _ cls cause loc).trans (State.errorEvent_posts _ 0 cls cause loc)
  · exact s.errorEvent_posts 0 cls cause loc
  · rfl

theorem State.logCore_posts (cls cause : Nat) (loc : W64) : OnlyPosts s (s.logCore cls cause loc) := by
  unfold State.logCore
  dsimp only
  split_ifs
  · rfl
  · rfl
  · exact OnlyPosts.trans (by rfl) (State.errorEvents_posts _ cls cause loc)

theorem State.record_posts (ty : Nat) (p : Bytes) (ref : Option (Nat × W32)) : OnlyPosts s (s.record ty p ref) := by
  unfold State.record
  split_ifs
  · exact s.logCore_posts _ _ _
  · rfl
  · rfl

theorem State.fault_posts (cause : Nat) (loc : W64) (rcd : Option (Nat × Bytes)) : OnlyPosts s (s.fault cause loc rcd) := by
  unfold State.fault
  extract_lets cls before logged ref
  have logs : OnlyPosts s logged := s.logCore_posts cls cause loc
  clear_value ref logged
  split
  · exact logs.trans (State.record_posts _ _ _ _)
  · split_ifs
    · exact logs.trans (State.record_posts _ _ _ _)
    · exact logs

end Log

/-! ### An abort (08 R283) -/

/-- What the abort message for task `id` leaves of a tile that runs the task, or that keeps its yield record. -/
def Tile.abortedFor (x : Tile) (id : Nat) : Tile :=
  if x.req = some id then ({ x with yields := merase x.yields id } : Tile).aborted else { x with yields := merase x.yields id }

theorem merase_merase {α : Type} (m : SMap α) (k : Nat) : merase (merase m k) k = merase m k := by
  simp [merase]

theorem Tile.abortedFor_abortedFor (x : Tile) (id : Nat) : (x.abortedFor id).abortedFor id = x.abortedFor id := by
  by_cases runs : x.req = some id <;> simp [Tile.abortedFor, Tile.aborted, StreamUnit.cleared, runs, merase_merase]

theorem Tile.abortedFor_runs {x : Tile} {id : Nat} (runs : x.req = some id) :
    x.abortedFor id = ({ x with yields := merase x.yields id } : Tile).aborted := if_pos runs

theorem State.each_modTile_req (s : State) (ts : List Nat) (g : Tile → Tile) (id : Nat) :
    (s.each ts (fun s t => s.modTile t g)).req id = s.req id :=
  foldl_observes_same (fun u => u.req id) (fun u t => u.modTile t g) (fun _ _ _ => rfl) s

/-- What the first cause, or the abort of its request, leaves of a request (08 R282). -/
def Req.abortedWith (r : Req) (status : Nat) (silent : Bool) : Req :=
  { r with phase := .aborting, status := status, silent := r.silent || silent, barriers := [], walk := none }

/-- The abort message goes over the tiles of the task. -/
theorem State.startAbort_eq {s : State} {id : Nat} {r : Req} (req : s.req id = some r) (live : r.phase ≠ .aborting) (status : Nat)
    (silent : Bool) : s.startAbort id status silent =
      (((s.modReq id (fun x => x.abortedWith status silent)).cancelReads (fun i => i.isOf id (s.tilesOf r))).each r.tiles
        (fun s t => s.modTile t (fun x => x.abortedFor id))).dropLookups id := by
  simp only [State.startAbort, req, live, if_false]
  rfl

section Abort
variable {s : State} {id : Nat} {r : Req} (req : s.req id = some r) (live : r.phase ≠ .aborting) (status : Nat) (silent : Bool)
include req live

theorem State.startAbort_tile (t : Nat) :
    (s.startAbort id status silent).tile t = if t ∈ r.tiles then (s.tile t).abortedFor id else s.tile t := by
  rw [State.startAbort_eq req live]
  exact State.each_modTile_tile (fun x => x.abortedFor_abortedFor id) r.tiles _

theorem State.startAbort_req : (s.startAbort id status silent).req id = some (r.abortedWith status silent) := by
  rw [State.startAbort_eq req live]
  exact (State.each_modTile_req ..).trans (State.modReq_req_same (g := fun x => x.abortedWith status silent) req rfl)

end Abort

/-! ### A task abort cause (08 R282, R294) -/

theorem State.each_modTile_other {g : Tile → Tile} {ts : List Nat} {t : Nat} (other : t ∉ ts) (s : State) :
    (s.each ts (fun s v => s.modTile v g)).tile t = s.tile t :=
  foldl_observes_same (fun u => u.tile t) _ (fun u v mem => by
    have apart : t ≠ v := fun same => other (same.symm ▸ mem)
    rw [State.modTile_tile, if_neg apart]) s

theorem State.holder_some {s : State} {t : Nat} {r : Req} (holder : s.holder t = some r) :
    (s.tile t).req = some r.id ∧ s.req r.id = some r := by
  unfold State.holder at holder
  split at holder
  next id bound =>
    rw [State.req_id holder]
    exact ⟨bound, holder⟩
  next => cases holder

/-- The cause stands in TIL_FAULT of its tile, PEER in that of the others, and in the log; the abort follows. -/
def State.recordCause (s : State) (t : Nat) (r : Req) (cause trap line : Nat) (poison own : Bool) : State :=
  let loc := mkLoc 1 t (some r.den) poison ((s.tile t).pc % 8192 + 2 ^ 16 * (line % 2 ^ 16))
  ((((s.modTile t (fun y => y.recordFault cause trap y.pc)).each (r.tiles.filter (fun u => u != t && !(r.reported.contains u)))
    (fun s u => s.modTile u (fun y => y.recordFault 0x10 0 (y.pcOf r.id)))).fault cause loc).modReq r.id
    (fun y => { y with flt := some { tile := t, cause := cause, pc := (s.tile t).pc, poison := poison, own := own, loc := loc } }))

section Cause
variable {s : State} {t : Nat} {r : Req}

theorem State.tileFault_eq (holder : s.holder t = some r) (live : r.phase ≠ .aborting) (cause trap line : Nat) (poison own : Bool) :
    s.tileFault t cause trap line poison own =
      (s.recordCause t r cause trap line poison own).startAbort r.id (causeStatus cause) false := by
  obtain ⟨bound, req⟩ := State.holder_some holder
  simp only [State.tileFault, bound, req, live, if_false]
  rfl

variable (cause trap line : Nat) (poison own : Bool)

theorem State.recordCause_tile : (s.recordCause t r cause trap line poison own).tile t =
    (s.tile t).recordFault cause trap (s.tile t).pc := by
  rw [State.recordCause, State.modReq_tile, (State.fault_posts _ _ _ _).tile, State.each_modTile_other (by simp),
    State.modTile_tile, if_pos rfl]

theorem State.recordCause_req (req : s.req r.id = some r) :
    ∃ f, (s.recordCause t r cause trap line poison own).req r.id = some { r with flt := some f } := by
  refine ⟨_, State.modReq_req_same ?_ rfl⟩
  rw [(State.fault_posts _ _ _ _).req, State.each_modTile_req]
  exact req

end Cause

section Record
variable (x : Tile) (cause trap pc : Nat)

@[simp] theorem Tile.recordFault_req : (x.recordFault cause trap pc).req = x.req := by
  unfold Tile.recordFault
  split <;> rfl

@[simp] theorem Tile.recordFault_faultValid : (x.recordFault cause trap pc).faultValid = true := by
  unfold Tile.recordFault
  split
  · assumption
  · rfl

variable {x}

theorem Tile.recordFault_first (free : x.faultValid = false) : x.recordFault cause trap pc =
    { x with faultCause := BitVec.ofNat 8 cause, trapCode := BitVec.ofNat 16 trap, faultValid := true,
             faultPc := BitVec.ofNat 13 pc } :=
  if_neg (by simp [free])

theorem Tile.recordFault_later (held : x.faultValid = true) : x.recordFault cause trap pc = x := if_pos held

end Record

/-- The tile that raises a cause has recorded it and stopped. -/
theorem State.tileFault_tile {s : State} {t : Nat} {r : Req} (holder : s.holder t = some r) (live : r.phase ≠ .aborting)
    (member : t ∈ r.tiles) (cause trap line : Nat) (poison own : Bool) :
    (s.tileFault t cause trap line poison own).tile t =
      ((s.tile t).recordFault cause trap (s.tile t).pc).abortedFor r.id := by
  obtain ⟨-, req⟩ := State.holder_some holder
  obtain ⟨f, recorded⟩ := s.recordCause_req (t := t) cause trap line poison own req
  rw [State.tileFault_eq holder live, State.startAbort_tile recorded live, if_pos member, State.recordCause_tile]

theorem State.tileFault_req {s : State} {t : Nat} {r : Req} (holder : s.holder t = some r) (live : r.phase ≠ .aborting)
    (cause trap line : Nat) (poison own : Bool) : ∃ f, (s.tileFault t cause trap line poison own).req r.id =
      some (({ r with flt := some f } : Req).abortedWith (causeStatus cause) false) := by
  obtain ⟨-, req⟩ := State.holder_some holder
  obtain ⟨f, recorded⟩ := s.recordCause_req (t := t) cause trap line poison own req
  exact ⟨f, by rw [State.tileFault_eq holder live, State.startAbort_req recorded live]⟩

/-! ### Tile power (08 R285, R286) -/

section Power
variable {s : State} {t : Nat} (hub : s.hub = true)
include hub

theorem exec_tileDoze_dozes (idle : (s.tile t).pwr = .idle) (after : (s.tile t).dozeNow ≠ 0) (awake : (s.tile t).seq ≠ .waking) :
    exec (.tileDoze t) s = .next (s.modTile t (fun x => { x with pwr := .doze })) := by
  change execTileDoze t s = _
  rw [execTileDoze, if_pos ⟨hub, idle, after, awake⟩]

theorem exec_tilePrepareDone_joins (member : (s.tileDen t).isSome = true) (fresh : (s.tile t).prepared = false)
    (sound : (s.tile t).fenced = false) : exec (.tilePrepareDone t) s = .next (s.modTile t Tile.joined) := by
  change execTilePrepareDone t s = _
  rw [execTilePrepareDone, if_pos ⟨hub, member, by simp [fresh], by simp [sound]⟩]

end Power

/-- Settles O21: dozing and joining are one update of the tile; a cause is recorded, and the abort then goes over the task. -/
theorem taskAborts : Obligations.TaskAborts := by
  unfold Obligations.TaskAborts
  refine ⟨fun s t hub => ⟨fun idle after awake => ?dozes, fun member fresh sound => ?joins⟩,
    fun s t r cause trap line poison own holder live member => ?aborts⟩
  case dozes =>
    obtain ⟨tile, others, rest⟩ := tileBecomes_modTile s t (fun x => { x with pwr := .doze })
    exact ⟨_, exec_tileDoze_dozes hub idle after awake, tile, others, rest⟩
  case joins =>
    obtain ⟨tile, others, -⟩ := tileBecomes_modTile s t Tile.joined
    refine ⟨_, exec_tilePrepareDone_joins hub member fresh sound, ?_⟩
    rw [tile]
    exact ⟨rfl, rfl, rfl, rfl, rfl, rfl, rfl, rfl, rfl, others⟩
  case aborts =>
    obtain ⟨bound, -⟩ := State.holder_some holder
    have runs : ((s.tile t).recordFault cause trap (s.tile t).pc).req = some r.id := by rw [Tile.recordFault_req, bound]
    have tile := State.tileFault_tile holder live member cause trap line poison own
    rw [Tile.abortedFor_runs runs] at tile
    obtain ⟨f, req⟩ := State.tileFault_req holder live cause trap line poison own
    intro u
    rw [tile]
    refine ⟨rfl, Tile.recordFault_faultValid _ _ _ _, rfl, rfl, fun free => ?_, fun held => ?_, _, req, rfl, rfl, rfl⟩
    · rw [Tile.recordFault_first _ _ _ free]
      exact ⟨rfl, rfl, rfl⟩
    · rw [Tile.recordFault_later _ _ _ held]
      exact ⟨rfl, rfl, rfl⟩

end Sys2Proof.Machine
end

section
/-!
How a pass ends (09 R299, R304, R305, R309, 10 R332, R339): the outputs of a matrix pass taken one by one, each a write of one
accumulator position and of nothing else, and the three engines when the operands of their pass read clean.
-/

namespace Sys2Proof.Machine

/-! ### What a write to the banks leaves (09 R305) -/

/-- From `x` to `y` only tile registers and what the engines note have changed. -/
def OnlyBanks (x y : Tile) : Prop := y = { x with tregs := y.tregs, numstat := y.numstat, satCount := y.satCount }

section Banks
variable {x y z : Tile}

theorem OnlyBanks.trans (first : OnlyBanks x y) (second : OnlyBanks y z) : OnlyBanks x z :=
  Eq.trans second (congrArg (fun w : Tile => { w with tregs := z.tregs, numstat := z.numstat, satCount := z.satCount }) first)

theorem OnlyBanks.sram (banks : OnlyBanks x y) : y.sram = x.sram := by rw [banks]
theorem OnlyBanks.sregs (banks : OnlyBanks x y) : y.sregs = x.sregs := by rw [banks]
theorem OnlyBanks.passes (banks : OnlyBanks x y) : y.passes = x.passes := by rw [banks]
theorem OnlyBanks.mxPasses (banks : OnlyBanks x y) : y.mxPasses = x.mxPasses := by rw [banks]
theorem OnlyBanks.queue (banks : OnlyBanks x y) (q : Nat) : y.queue q = x.queue q := by rw [banks]; rfl

theorem OnlyBanks.foldl {β : Type} {f : Tile → β → Tile} (only : ∀ y i, OnlyBanks y (f y i)) (l : List β) (x : Tile) :
    OnlyBanks x (l.foldl f x) :=
  List.foldlRecOn (motive := OnlyBanks x) l f rfl (fun y banks i _ => banks.trans (only y i))

end Banks

/-! ### One output of a matrix pass (09 R298, R299, R304) -/

/-- Output `i`, a vector and a column, of a pass whose activations lie in `sram`, added to `old`. -/
def MxPass.output (p : MxPass) (sram : SMap Byte) (i : Nat × Nat) (old : W32) : W32 × NumEv :=
  mxResult p.desc (memRead sram (mxActAt p.desc i.1).1 (mxActAt p.desc i.1).2)
    (if isMx (mxAfmt p.desc) then memRead sram (mxActScaleAt p.desc i.1).1 (mxActScaleAt p.desc i.1).2 else []) p.w i.2 old

/-- The position that output `i` goes to. -/
def MxPass.place (p : MxPass) (i : Nat × Nat) : Nat := mxPlace p.desc i.1 i.2

/-- Output `i` is written. -/
def MxPass.write (p : MxPass) (sram : SMap Byte) (y : Tile) (i : Nat × Nat) : Tile :=
  let r := p.output sram i (mget 0 y.tregs (p.place i))
  Tile.note { y with tregs := mset 0 y.tregs (p.place i) r.1 } r.2

/-- The outputs of a pass, vector by vector. -/
def MxPass.outputs (p : MxPass) : List (Nat × Nat) := List.range (mxM p.desc) ×ˢ List.range (mxN p.desc)

section Outputs
variable (p : MxPass)

theorem MxPass.mem_outputs {m c : Nat} : (m, c) ∈ p.outputs ↔ m < mxM p.desc ∧ c < mxN p.desc := by
  rw [MxPass.outputs, List.mem_product, List.mem_range, List.mem_range]

theorem MxPass.outputs_nodup : p.outputs.Nodup := List.Nodup.product List.nodup_range List.nodup_range

variable (sram : SMap Byte)

theorem MxPass.write_banks (y : Tile) (i : Nat × Nat) : OnlyBanks y (p.write sram y i) := rfl

theorem MxPass.write_tregs (y : Tile) (i : Nat × Nat) (j : Nat) : mget 0 (p.write sram y i).tregs j =
    if j = p.place i then (p.output sram i (mget 0 y.tregs (p.place i))).1 else mget 0 y.tregs j :=
  mget_mset _ _ _ _ _

theorem MxPass.foldl_write_other {j : Nat} {l : List (Nat × Nat)} (other : ∀ i ∈ l, p.place i ≠ j) (x : Tile) :
    mget 0 (l.foldl (p.write sram) x).tregs j = mget 0 x.tregs j :=
  List.foldlRecOn (motive := fun y : Tile => mget 0 y.tregs j = mget 0 x.tregs j) l (p.write sram) rfl (fun y same i mem => by
    rw [p.write_tregs, if_neg (other i mem).symm, same])

/-- A position that one output alone of `l` goes to is written once, on what it held before. -/
theorem MxPass.foldl_write_once {l : List (Nat × Nat)} (distinct : l.Nodup) {i : Nat × Nat} (mem : i ∈ l)
    (once : ∀ k ∈ l, p.place k = p.place i → k = i) (x : Tile) :
    mget 0 (l.foldl (p.write sram) x).tregs (p.place i) = (p.output sram i (mget 0 x.tregs (p.place i))).1 := by
  obtain ⟨before, after, rfl⟩ := List.append_of_mem mem
  obtain ⟨fresh, -⟩ := List.nodup_cons.1 (List.nodup_middle.1 distinct)
  have other : ∀ k ∈ before ++ after, p.place k ≠ p.place i := fun k listed same =>
    fresh (once k (List.mem_append.2 ((List.mem_append.1 listed).imp_right (List.mem_cons_of_mem i))) same ▸ listed)
  rw [List.foldl_append, List.foldl_cons, p.foldl_write_other sram (fun k h => other k (List.mem_append_right _ h)),
    p.write_tregs, if_pos rfl, p.foldl_write_other sram (fun k h => other k (List.mem_append_left _ h))]

end Outputs

/-! ### A whole matrix pass (09 R305) -/

theorem Tile.passRow_eq (x : Tile) (p : MxPass) (m : Nat) :
    x.passRow p m = ((List.range (mxN p.desc)).map (fun c => (m, c))).foldl (p.write x.sram) x := by
  rw [List.foldl_map]
  rfl

theorem Tile.passRow_sram (x : Tile) (p : MxPass) (m : Nat) : (x.passRow p m).sram = x.sram := by
  rw [x.passRow_eq]
  exact (OnlyBanks.foldl (p.write_banks x.sram) _ x).sram

/-- No output changes SRAM, so that every vector reads the activations that stand there before the pass. -/
theorem Tile.foldl_passRow_eq (p : MxPass) (ms : List Nat) (x : Tile) :
    ms.foldl (fun y m => y.passRow p m) x = (ms ×ˢ List.range (mxN p.desc)).foldl (p.write x.sram) x := by
  induction ms generalizing x with
  | nil => rfl
  | cons m ms ih => rw [List.foldl_cons, ih, x.passRow_sram, x.passRow_eq, List.product_cons, List.foldl_append]

/-- The outputs are written, and the pass leaves its queue and is counted. -/
theorem Tile.finishPass_eq (x : Tile) (p : MxPass) (stall : W32) : x.finishPass p stall =
    let y := (p.outputs.foldl (p.write x.sram) x).note { nanSeen := mxReadsNan p.desc x p.w }
    { y.leave 0 with passes := y.passes.tail, mxPasses := y.mxPasses + 1, mxStall := y.mxStall + stall } := by
  rw [MxPass.outputs, ← Tile.foldl_passRow_eq]
  rfl

section Finish
variable (x : Tile) (p : MxPass) (stall : W32)

theorem Tile.leave_queue (q : Nat) : (x.leave q).queue q = (x.queue q).tail := by
  rw [Tile.queue, Tile.leave, mget_mset, if_pos rfl]

theorem Tile.finishPass_frame : (x.finishPass p stall).sram = x.sram ∧ (x.finishPass p stall).sregs = x.sregs ∧
    (x.finishPass p stall).passes = x.passes.tail ∧ (x.finishPass p stall).mxPasses = x.mxPasses + 1 ∧
    (x.finishPass p stall).queue 0 = (x.queue 0).tail := by
  have banks : OnlyBanks x (p.outputs.foldl (p.write x.sram) x) := OnlyBanks.foldl (p.write_banks x.sram) p.outputs x
  rw [Tile.finishPass_eq]
  generalize p.outputs.foldl (p.write x.sram) x = y at banks
  exact ⟨banks.sram, banks.sregs, congrArg List.tail banks.passes, congrArg (· + 1) banks.mxPasses,
    (Tile.leave_queue _ 0).trans (congrArg List.tail (banks.queue 0))⟩

theorem Tile.finishPass_tregs : (x.finishPass p stall).tregs = (p.outputs.foldl (p.write x.sram) x).tregs := by
  rw [Tile.finishPass_eq]
  generalize p.outputs.foldl (p.write x.sram) x = y
  rfl

end Finish

/-! ### The engines (09 R305, R309, 10 R332, R339) -/

section Done
variable {s : State} {t : Nat} (on : s.engineOn t = true)
include on

theorem exec_matrixPassDone_eq {p : MxPass} {rest : List MxPass} (running : (s.tile t).passes = p :: rest)
    (clean : CleanRuns (s.tile t) (mxActRuns p.desc)) : exec (.matrixPassDone t) s = .next
      ((((s.free 32).2.modTile t (fun x => x.finishPass p (s.free 32).1)).engineTime (s.denOf t) cMatrix).postOf t p.desc) := by
  change execMatrixPassDone t s = _
  simp only [execMatrixPassDone, running, on, if_true, State.endPass, clean.readsOk]
  rfl

theorem exec_vectorPassDone_eq {b : Bytes} (running : (s.tile t).vx = some b) (clean : CleanRuns (s.tile t) (vReads b)) :
    let p := s.free (4 * vRows b)
    let v := p.2.free 32
    exec (.vectorPassDone t) s = .next (((((v.2.modTile t (fun x =>
      { (x.vecPass b p.1.toNat).leave 1 with vx := none, vxPasses := x.vxPasses + 1, vxStall := x.vxStall + v.1 })).engineTime
        (s.denOf t) cVector).partCheck t (vWrites b)).postOf t b)) := by
  change execVectorPassDone t s = _
  simp only [execVectorPassDone, running, on, if_true, State.endVec, clean.readsOk]
  rfl

theorem exec_reductionDone_eq {b : Bytes} (running : (s.tile t).rd = some b) (clean : CleanRuns (s.tile t) (rdX b).runs) :
    let p := s.free (4 * rdCount b)
    let v := p.2.free 32
    exec (.reductionDone t) s = .next (((((v.2.modTile t (fun x =>
      { (x.reduce b p.1.toNat).leave 2 with rd := none, rdPasses := x.rdPasses + 1, rdStall := x.rdStall + v.1 })).engineTime
        (s.denOf t) cReduce).partCheck t (rdWrites b)).postOf t b)) := by
  change execReductionDone t s = _
  simp only [execReductionDone, running, on, if_true, State.endRed, clean.readsOk]
  rfl

end Done

/-- Settles O14: each engine is followed to the end of its pass; a matrix pass is the writes of its outputs one after another,
of which an accumulator position sees those that go to it. -/
theorem enginesFinish : Obligations.EnginesFinish := by
  unfold Obligations.EnginesFinish
  refine ⟨fun s t on => ⟨fun p rest running clean => exec_matrixPassDone_eq on running clean,
    fun b running clean => exec_vectorPassDone_eq on running clean,
    fun b running clean => exec_reductionDone_eq on running clean⟩, fun x p v => ?_⟩
  intro y named
  obtain ⟨sram, sregs, passes, counted, queue⟩ := x.finishPass_frame p v
  refine ⟨sram, sregs, passes, counted, queue, fun j unnamed => ?other, fun j m c names once => ?product⟩
  case other =>
    rw [x.finishPass_tregs]
    exact p.foldl_write_other x.sram (fun ⟨m, c⟩ mem place => unnamed m c
      ⟨(p.mem_outputs.1 mem).1, (p.mem_outputs.1 mem).2, place⟩) x
  case product =>
    obtain ⟨vector, column, rfl⟩ := names
    rw [x.finishPass_tregs]
    exact p.foldl_write_once x.sram p.outputs_nodup (p.mem_outputs.2 ⟨vector, column⟩) (fun ⟨m', c'⟩ mem place =>
      Prod.ext_iff.2 (once m' c' ⟨(p.mem_outputs.1 mem).1, (p.mem_outputs.1 mem).2, place⟩)) x

end Sys2Proof.Machine
end

section
/-!
Stream transfers (11 R344 to R368): the bounds of a transfer, its issue when nothing stands before it, and its end when it has been
served or has failed.
-/

namespace Sys2Proof.Machine

/-! ### The next transfer (11 R344, R346) -/

section Bounds
variable (d : SuDesc)

theorem SuDesc.nextXfer_len_le_room : d.nextXfer.len ≤ 2048 - d.nextXfer.addr % 2048 := min_le_right _ _

theorem SuDesc.nextXfer_len_le : d.nextXfer.len ≤ 2048 := d.nextXfer_len_le_room.trans (Nat.sub_le _ _)

theorem SuDesc.nextXfer_one_block (filled : 0 < d.nextXfer.len) :
    d.nextXfer.addr / 2048 = (d.nextXfer.addr + d.nextXfer.len - 1) / 2048 := by
  have room := d.nextXfer_len_le_room
  omega

end Bounds

/-! ### What a credit and a transfer entry leave of the tile (11 R345, R352) -/

/-- Taking a credit changes the semaphores and the stream units alone. -/
theorem Tile.takeCredit_frame (x : Tile) (n : Nat) (d : SuDesc) : x.takeCredit n d =
    { x with sems := (x.takeCredit n d).sems, semWait := (x.takeCredit n d).semWait, su0 := (x.takeCredit n d).su0,
             su1 := (x.takeCredit n d).su1 } := by
  unfold Tile.takeCredit Tile.semTake Tile.semQueue Tile.modUnit
  split_ifs <;> rfl

theorem Tile.takeCredit_sram (x : Tile) (n : Nat) (d : SuDesc) : (x.takeCredit n d).sram = x.sram := by rw [Tile.takeCredit_frame]

theorem CleanSram.takeCredit {x : Tile} {a k : Nat} (clean : CleanSram x a k) (n : Nat) (d : SuDesc) :
    CleanSram (x.takeCredit n d) a k := by
  rw [Tile.takeCredit_frame]
  exact clean

/-- A change to a stream unit leaves the rest of the tile. -/
theorem Tile.modUnit_frame (x : Tile) (n : Nat) (f : StreamUnit → StreamUnit) : x.modUnit n f =
    { x with su0 := (x.modUnit n f).su0, su1 := (x.modUnit n f).su1 } := by
  unfold Tile.modUnit
  split <;> rfl

theorem CleanSram.modUnit {x : Tile} {a k : Nat} (clean : CleanSram x a k) (n : Nat) (f : StreamUnit → StreamUnit) :
    CleanSram (x.modUnit n f) a k := by
  rw [Tile.modUnit_frame]
  exact clean

/-- Whether a tile's engines run is said by its request and its sequencer. -/
theorem State.engineOn_modTile {s : State} {t : Nat} {f : Tile → Tile} (req : (f (s.tile t)).req = (s.tile t).req)
    (seq : (f (s.tile t)).seq = (s.tile t).seq) : (s.modTile t f).engineOn t = s.engineOn t := by
  have holder : (s.modTile t f).holder t = s.holder t := by
    rw [State.holder, State.modTile_tile, if_pos rfl, req]
    rfl
  rw [State.engineOn, holder, State.modTile_tile, if_pos rfl, seq]
  rfl

/-! ### Issue (11 R344, R346, R352, R359) -/

section Issue
variable {s : State} {t n : Nat} {r : Req} {d : SuDesc}

theorem exec_streamTransferIssue_eq (on : s.engineOn t = true) (unit : n < 2) (holder : s.holder t = some r)
    (current : ((s.tile t).unit n).current = some d) : exec (.streamTransferIssue t n) s = .next (s.suNext t n r d) := by
  change execStreamTransferIssue t n s = _
  simp only [execStreamTransferIssue, holder, current]
  rw [if_pos ⟨on, unit⟩]

theorem State.suNext_issues {v : State} (credit : s.modTile t (fun x => x.takeCredit n d) = v) {p : Reach}
    (path : v.reachOf r d.nextXfer.addr d.nextXfer.len d.nextXfer.out = p)
    (funded : d.needsCredit = true → ((v.tile t).unit n).credits ≠ 0) (entry : ((v.tile t).unit n).xfers.length < 6)
    (reaches : p ≠ .bad) (master : p.isHost = true → (v.fn (r.den + 1)).bme = true)
    (room : p.isFar = true → v.fab.xacts.length < 16384) (tokens : v.suOpen r.den p = true) :
    s.suNext t n r d = v.suIssue t n r d p := by
  subst credit path
  rw [State.suNext, if_neg (not_or.2 ⟨fun ⟨needs, spent⟩ => funded needs spent, Nat.not_le.2 entry⟩), if_neg reaches,
    if_neg (fun ⟨host, off⟩ => off (master host)), if_neg (fun ⟨far, full⟩ => Nat.not_le.2 (room far) full), if_pos tokens]

theorem State.suIssue_in {p : Reach} (dir : d.nextXfer.out = false) :
    s.suIssue t n r d p = (s.modTile t (fun y => y.holdXfer n d d.nextXfer)).sendXfer t n r.den p d.nextXfer :=
  if_neg (by simp [dir])

theorem State.suIssue_out {p : Reach} (dir : d.nextXfer.out = true) (clean : CleanSram (s.tile t) d.nextXfer.sram d.nextXfer.len) :
    s.suIssue t n r d p =
      let y := { d.nextXfer with data := Machine.memRead (s.tile t).sram d.nextXfer.sram d.nextXfer.len }
      (s.modTile t (fun z => z.holdXfer n d y)).sendXfer t n r.den p y :=
  (if_pos dir).trans (clean.withSram _)

end Issue

/-! ### End (11 R345, R353, R355, R365, R368) -/

/-- Transfer `x` has given up its entry and `k` bytes have been counted. -/
def StreamUnit.ended (z : StreamUnit) (x : SuXfer) (k : Nat) : StreamUnit :=
  { z with xfers := dropFirst (fun w => w == x) z.xfers, bytes := z.bytes + BitVec.ofNat 64 k }

/-- `s` with transfer `x` of unit `n` ended. -/
def State.xferEnded (s : State) (t n : Nat) (x : SuXfer) (k : Nat) : State :=
  s.modTile t (fun y => y.modUnit n (fun z => z.ended x k))

theorem padB_length (n : Nat) (bs : Bytes) : (padB n bs).length = n := by simp [padB, sliceB]

section End
variable {s : State} {t n : Nat} {x : SuXfer}

theorem State.xferEnded_tile (k : Nat) : (s.xferEnded t n x k).tile t = (s.tile t).modUnit n (fun z => z.ended x k) := by
  rw [State.xferEnded, State.modTile_tile, if_pos rfl]

theorem State.xferEnded_engineOn (k : Nat) : (s.xferEnded t n x k).engineOn t = s.engineOn t :=
  State.engineOn_modTile (by rw [Tile.modUnit_frame]) (by rw [Tile.modUnit_frame])

theorem exec_streamTransferDone_eq (on : s.engineOn t = true) (unit : n < 2) (ends : nextEnd ((s.tile t).unit n).xfers = some x) :
    exec (.streamTransferDone t n) s = .next (s.endXfer t n x) := by
  change execStreamTransferDone t n s = _
  simp only [execStreamTransferDone, ends]
  rw [if_pos ⟨on, unit⟩]

/-- A failed transfer counts no byte. -/
theorem State.endXfer_failed (failed : x.fail ≠ 0) : s.endXfer t n x =
    ((s.xferEnded t n x 0).modTile t (fun y => y.suFault n x)).tileFault t 0x0E 0 0 (decide (x.fail = subPoison)) false := by
  simp only [State.endXfer, State.xferEnded, StreamUnit.ended, failed, if_false, ne_eq, not_false_eq_true, if_true,
    BitVec.add_zero]

theorem State.endXfer_served (served : x.fail = 0) : s.endXfer t n x =
    let v := if x.out then s.xferEnded t n x x.len else (s.xferEnded t n x x.len).sramWrite t x.sram (padB x.len x.data)
    if v.engineOn t then v.suSettle t n else v := by
  simp only [State.endXfer, served, ne_eq, not_true, if_false, if_true]
  rfl

section Served
variable (on : s.engineOn t = true) (served : x.fail = 0)
include on served

theorem State.endXfer_out (dir : x.out = true) : s.endXfer t n x = (s.xferEnded t n x x.len).suSettle t n := by
  simp only [State.endXfer_served served, dir, State.xferEnded_engineOn, on, if_true]

theorem State.endXfer_in (dir : x.out = false) (clean : CleanSram (s.tile t) x.sram x.len) : s.endXfer t n x =
    ((s.xferEnded t n x x.len).modTile t (fun y => y.putSram x.sram (padB x.len x.data))).suSettle t n := by
  have written : (s.xferEnded t n x x.len).sramWrite t x.sram (padB x.len x.data) =
      (s.xferEnded t n x x.len).modTile t (fun y => y.putSram x.sram (padB x.len x.data)) := by
    obtain ⟨single, double, -⟩ := clean.modUnit n (fun z => z.ended x x.len)
    rw [← State.xferEnded_tile] at single double
    exact State.sramWrite_clean (by rwa [padB_length]) (by rwa [padB_length])
  have running : ((s.xferEnded t n x x.len).modTile t (fun y => y.putSram x.sram (padB x.len x.data))).engineOn t = true := by
    rw [State.engineOn_modTile rfl rfl, State.xferEnded_engineOn, on]
  simp only [State.endXfer_served served, dir, Bool.false_eq_true, if_false, written, running, if_true]

end Served

end End

/-- Settles O15: an issue passes its checks one after another and then goes by direction; an end goes by failure and direction. -/
theorem streamTransfers : Obligations.StreamTransfers := by
  unfold Obligations.StreamTransfers
  refine ⟨fun s t n r d on unit holder current => ?issue,
    fun s t n x on unit ends => ⟨fun failed => ?failed, fun served dir => ?sent, fun served dir clean => ?brought⟩⟩
  case issue =>
    intro v z x p funded entry reaches master room tokens
    have run : exec (.streamTransferIssue t n) s = .next (v.suIssue t n r d p) :=
      (exec_streamTransferIssue_eq on unit holder current).trans
        (congrArg _ (State.suNext_issues rfl rfl funded entry reaches master room tokens))
    refine ⟨fun dir => run.trans (congrArg _ (State.suIssue_in dir)), fun dir clean => ?_, d.nextXfer_len_le,
      d.nextXfer_one_block⟩
    have tile : v.tile t = (s.tile t).takeCredit n d := (State.modTile_tile ..).trans (if_pos rfl)
    have reads : CleanSram (v.tile t) x.sram x.len := tile ▸ clean.takeCredit n d
    rw [run, State.suIssue_out dir reads, tile, Tile.takeCredit_sram]
  case failed => exact (exec_streamTransferDone_eq on unit ends).trans (congrArg _ (State.endXfer_failed failed))
  case sent => exact (exec_streamTransferDone_eq on unit ends).trans (congrArg _ (State.endXfer_out on served dir))
  case brought => exact (exec_streamTransferDone_eq on unit ends).trans (congrArg _ (State.endXfer_in on served dir clean))

end Sys2Proof.Machine
end

section
/-!
Clocks and accounting on time (13 R414, R418 to R420, 17 R557, R560, R561, R575 to R578): one evaluation of the power limiter on each
side of its bounds, a step of TCLK, the trim of AONCLK, and what a refill, a snapshot and a calibration leave of every den.
-/

namespace Sys2Proof.Machine

/-! ### Operations that go over a list of dens -/

/-- A change of every den of a list reaches each of them once. -/
theorem State.each_modDen_den {g : Den → Den} {ds : List Nat} (distinct : ds.Nodup) (s : State) (d : Nat) :
    (s.each ds (fun s e => s.modDen e g)).den d = if d ∈ ds then g (s.den d) else s.den d := by
  induction ds generalizing s with
  | nil => rfl
  | cons e ds ih =>
    obtain ⟨fresh, rest⟩ := List.nodup_cons.1 distinct
    have step := ih rest (s.modDen e g)
    rw [State.modDen_den] at step
    refine step.trans ?_
    by_cases here : d = e
    · subst here; rw [if_neg fresh, if_pos rfl, if_pos List.mem_cons_self]
    · simp only [List.mem_cons, here, false_or, if_false]

theorem State.each_range_modDen_den (g : Den → Den) (s : State) {d : Nat} (within : d < 32) :
    (s.each (List.range 32) (fun s e => s.modDen e g)).den d = g (s.den d) :=
  (State.each_modDen_den List.nodup_range s d).trans (if_pos (List.mem_range.2 within))

theorem State.each_modDen_wtime (s : State) (ds : List Nat) (g : Den → Den) :
    (s.each ds (fun s e => s.modDen e g)).wtime = s.wtime := foldl_observes_same State.wtime (fun u e => u.modDen e g) (fun _ _ _ => rfl) s

theorem State.each_modDen_pwr (s : State) (ds : List Nat) (g : Den → Den) :
    (s.each ds (fun s e => s.modDen e g)).pwr = s.pwr := foldl_observes_same State.pwr (fun u e => u.modDen e g) (fun _ _ _ => rfl) s

theorem State.chargeEnergy_den_other (s : State) {d e : Nat} (other : d ≠ e) : (s.chargeEnergy e).den d = s.den d :=
  (State.modDen_den ..).trans (if_neg other)

/-! ### The snapshot (13 R420) -/

/-- A den's counters 0 to 19 are kept. -/
def Den.snapped (x : Den) : Den := { x with snap := x.cnt.filter (fun p => decide (p.1 < 20)) }

/-- The snapshot of the device's own accounting, once the dens have theirs. -/
def State.deviceSnapped (s : State) : State :=
  { s with pwr := { s.pwr with acctSnapped := true, acctSnapTime := s.wtime, acctUnattrSnap := s.pwr.acctUnattr } }

theorem State.deviceSnapped_den (s : State) (d : Nat) : s.deviceSnapped.den d = s.den d := rfl

/-- `s` with the counters of every den kept. -/
def State.densSnapped (s : State) : State := s.each (List.range 32) (fun s d => s.modDen d Den.snapped)

theorem State.acctSnap_eq (s : State) : s.acctSnap = s.densSnapped.deviceSnapped := rfl

theorem State.densSnapped_wtime (s : State) : s.densSnapped.wtime = s.wtime := State.each_modDen_wtime ..

theorem State.densSnapped_pwr (s : State) : s.densSnapped.pwr = s.pwr := State.each_modDen_pwr ..

theorem State.acctSnap_den (s : State) {d : Nat} (within : d < 32) : s.acctSnap.den d = (s.den d).snapped := by
  rw [State.acctSnap_eq, State.deviceSnapped_den]
  exact State.each_range_modDen_den Den.snapped s within

theorem State.acctSnap_pwr (s : State) : s.acctSnap.pwr =
    { s.pwr with acctSnapped := true, acctSnapTime := s.wtime, acctUnattrSnap := s.pwr.acctUnattr } := by
  rw [State.acctSnap_eq, State.deviceSnapped, State.densSnapped_wtime, State.densSnapped_pwr]

/-! ### The power limiter (17 R576, R577) -/

section Limiter
variable {w : Power} {p : Nat}

theorem Power.limit_steps_down (above : w.cap < p) (room : 9 < w.limVal) :
    (w.limit p).limVal + 1 = w.limVal ∧ (w.limit p).stepDown = w.stepDown + 1 ∧ (w.limit p).low = 0 := by
  simp only [Power.limit, above, room, if_true, and_true]
  omega

theorem Power.limit_halves (above : w.cap < p) (least : w.limVal ≤ 9) :
    (w.limit p).limVal = w.limVal ∧ (w.limit p).halfLim = true ∧ (w.limit p).low = 0 := by
  simp only [Power.limit, above, Nat.not_lt.2 least, if_true, if_false, and_self]

theorem Power.limit_steps_up (under : p + 30 < w.cap) (count : 9 ≤ w.low) (room : w.limVal < w.tclkMax) :
    (w.limit p).limVal = w.limVal + 1 ∧ (w.limit p).stepUp = w.stepUp + 1 ∧ (w.limit p).low = 0 := by
  have within : ¬ w.cap < p := by omega
  simp only [Power.limit, within, under, count, room, if_true, if_false, and_self]

theorem Power.limit_counts (under : p + 30 < w.cap) (count : w.low < 9) :
    (w.limit p).limVal = w.limVal ∧ (w.limit p).low = w.low + 1 := by
  have within : ¬ w.cap < p := by omega
  simp only [Power.limit, within, under, Nat.not_le.2 count, false_and, if_true, if_false, true_and]
  omega

theorem Power.limit_rests (within : p ≤ w.cap) (near : w.cap ≤ p + 30) :
    (w.limit p).limVal = w.limVal ∧ (w.limit p).low = 0 ∧ (w.limit p).halfLim = (w.halfLim && decide (w.cap < p + 30)) := by
  simp only [Power.limit, Nat.not_lt.2 within, Nat.not_lt.2 near, if_false, and_self]

end Limiter

/-! ### The commands, each under its own conditions -/

section Commands
variable {s : State}

theorem exec_aonclkTrim_loses (live : s.pwr.st ≠ .off) (good : s.pwr.xtalOk = true) : exec (.aonclkTrim false) s = .next
    (State.fault { s with pwr := { s.pwr with xtalOk := false } } 0x0502 (mkLoc 11 0 none false 0)) := by
  change execAonclkTrim false s = _
  rw [execAonclkTrim, if_neg live, if_pos ⟨good, Bool.false_ne_true⟩]

theorem exec_aonclkTrim_good (live : s.pwr.st ≠ .off) :
    exec (.aonclkTrim true) s = .next { s with pwr := { s.pwr with xtalOk := true } } := by
  change execAonclkTrim true s = _
  rw [execAonclkTrim, if_neg live, if_neg (fun lost => lost.2 rfl)]

section Hub
variable (hub : s.hub = true)
include hub

theorem exec_powerLimiterEval_limits (p q : Nat) : exec (.powerLimiterEval p q) s = .next
    { s with pwr := Power.limit { s.pwr with cap := min 1050 s.boot.prof.cap, p100 := p % 65536, p1ms := q % 65536,
                                             seen := mset false s.pwr.seen 12 true } p } := by
  change execPowerLimiterEval p q s = _
  rw [execPowerLimiterEval, if_pos hub]

theorem exec_tclkStep_moves (runs : s.pwr.tclkCur ≠ 0) : exec .tclkStep s = .next { s with pwr := { s.pwr with tclkCur :=
    if s.pwr.tclkCur < s.tclkTarget then s.pwr.tclkCur + 1
    else if s.tclkTarget < s.pwr.tclkCur then s.pwr.tclkCur - 1 else s.pwr.tclkCur } } := by
  change execTclkStep s = _
  rw [execTclkStep, if_pos ⟨hub, runs⟩]

/-- TCLK goes one step of 100 MHz towards its target (17 R560). -/
theorem exec_tclkStep_steps (runs : s.pwr.tclkCur ≠ 0) : ∃ u, exec .tclkStep s = .next u ∧ { u with pwr := s.pwr } = s ∧
    (s.pwr.tclkCur < s.tclkTarget → u.pwr.tclkCur = s.pwr.tclkCur + 1) ∧
    (s.tclkTarget < s.pwr.tclkCur → u.pwr.tclkCur + 1 = s.pwr.tclkCur) ∧
    (s.tclkTarget = s.pwr.tclkCur → u.pwr.tclkCur = s.pwr.tclkCur) := by
  refine ⟨_, exec_tclkStep_moves hub runs, rfl, fun below => if_pos below, fun above => ?_, fun there => ?_⟩
  · simp only [Nat.lt_asymm above, above, if_true, if_false]
    omega
  · simp only [there, lt_irrefl, if_false]

theorem exec_regulatorRefill_refills : ∃ u, exec .regulatorRefill s = .next u ∧ ∀ d, d < 32 →
    u.den d = { s.den d with regHbm := (s.den d).regHbm.refill, regHoard := (s.den d).regHoard.refill,
                             regIfs := (s.den d).regIfs.refill, regPcie := (s.den d).regPcie.refill } :=
  ⟨_, congrArg Host.Outcome.next (if_pos hub), fun _ within => State.each_range_modDen_den _ s within⟩

theorem exec_acctSnap_snaps : exec .acctSnap s = .next s.acctSnap := congrArg Host.Outcome.next (if_pos hub)

/-- A FREE den is charged no energy (13 R419). -/
theorem exec_energyCalibrate_charges (f : W32) : ∃ u, exec (.energyCalibrate f) s = .next u ∧ u.pwr.acctCal = f ∧
    ∀ d, (s.den d).st = .free → u.den d = s.den d := by
  refine ⟨_, congrArg Host.Outcome.next (if_pos hub), rfl, fun d free => ?_⟩
  refine foldl_observes_same (fun u => u.den d) State.chargeEnergy (fun u e charged => u.chargeEnergy_den_other ?_) s
  rintro rfl
  exact of_decide_eq_true (List.mem_filter.1 charged).2 free

end Hub

end Commands

/-- Settles O29: each command under its own conditions; the limiter by the side of its bounds on which the reading lies. -/
theorem clocksAndAccounting : Obligations.ClocksAndAccounting := by
  unfold Obligations.ClocksAndAccounting
  refine ⟨fun s hub => ⟨fun p q => ⟨_, exec_powerLimiterEval_limits hub p q, rfl, rfl⟩, exec_tclkStep_steps hub,
      exec_aonclkTrim_loses, exec_aonclkTrim_good⟩,
    fun w p => ⟨Power.limit_steps_down, Power.limit_halves, Power.limit_steps_up, Power.limit_counts, Power.limit_rests⟩,
    fun s hub => ⟨exec_regulatorRefill_refills hub, ⟨s.acctSnap, exec_acctSnap_snaps hub, ?snapped⟩,
      exec_energyCalibrate_charges hub⟩⟩
  case snapped =>
    rw [State.acctSnap_pwr]
    exact ⟨rfl, rfl, rfl, fun _ within => s.acctSnap_den within⟩

end Sys2Proof.Machine
end

section
/-!
DEVMEM accesses (13 R399, R400, 14 R436, R437): an access that its window serves goes by what its offset names, and an offset of a
VF's window names nothing but what its den owns.
-/

namespace Sys2Proof.Machine

/-! ### Accesses of a window that serves (13 R400, 14 R437) -/

section Access
variable {s : State} {fn off : Nat} (up : s.winUp fn = true)
include up

theorem exec_devmemWrite_serves {data : Bytes} (fits : s.devmemFits fn off data.length = true) :
    exec (.devmemWrite fn off data) s = .next (s.devmemWrite fn off data) := by
  change execDevmemWrite fn off data s = _
  rw [execDevmemWrite, if_pos fits, State.memWrite_serves up]

theorem exec_devmemRead_serves {n : Nat} (fits : s.devmemFits fn off n = true) :
    exec (.devmemRead fn off n) s = .next (s.devmemRead fn off n) := by
  change execDevmemRead fn off n s = _
  rw [execDevmemRead, if_pos fits, State.memRead_serves up]

end Access

section Place
variable {s : State} {fn off : Nat}

theorem State.devmemWrite_mapped {a : Nat} (place : s.devmemAt fn off = .mapped a) (data : Bytes) :
    s.devmemWrite fn off data = s.devmemPut fn a data := by
  simp only [State.devmemWrite, place]

theorem State.devmemWrite_hole (place : s.devmemAt fn off = .hole) (data : Bytes) :
    s.devmemWrite fn off data = s.accessFault 0x0201 fn 2 off := by
  simp only [State.devmemWrite, place]

theorem State.devmemWrite_denied (place : s.devmemAt fn off = .denied) (data : Bytes) :
    s.devmemWrite fn off data = s.accessFault 0x0203 fn 2 off := by
  simp only [State.devmemWrite, place]

theorem State.devmemRead_mapped {a : Nat} (place : s.devmemAt fn off = .mapped a) (n : Nat) :
    s.devmemRead fn off n = (s.devmemGet fn a n).2.2.devmemData fn (s.devmemGet fn a n).1 (s.devmemGet fn a n).2.1 := by
  simp only [State.devmemRead, place]

theorem State.devmemRead_hole (place : s.devmemAt fn off = .hole) (n : Nat) :
    s.devmemRead fn off n = (s.accessFault 0x0201 fn 2 off).devmemData fn (List.replicate n 0) false := by
  simp only [State.devmemRead, place]

theorem State.devmemRead_denied (place : s.devmemAt fn off = .denied) (n : Nat) :
    s.devmemRead fn off n = (s.accessFault 0x0203 fn 2 off).devmemData fn (List.replicate n 0) false := by
  simp only [State.devmemRead, place]

end Place

/-! ### What a VF reaches (13 R399, 14 R436) -/

/-- A stripe of a den, by its number in the den, lies within one of the den's ranges. -/
theorem inRanges_of_nthStripe {l : List (Nat × Nat)} {i n : Nat} (stripe : nthStripe l i = some n) : inRanges l n = true := by
  induction l generalizing i with
  | nil => cases stripe
  | cons p rest ih =>
    rw [nthStripe] at stripe
    rw [inRanges, List.any_cons, Bool.or_eq_true]
    split at stripe
    next inside =>
      obtain rfl := Option.some.inj stripe
      exact .inl (decide_eq_true (by omega))
    next => exact .inr (ih stripe)

theorem State.mem_scratchWays {s : State} {d w : Nat} :
    w ∈ s.scratchWays d ↔ w < 16 ∧ (s.way w).mode = .scratch ∧ (s.way w).owner = d := by
  simp [State.scratchWays]

section Reach
variable {s : State} {d o a : Nat} (place : s.devmemVfAt d o = .mapped a)
include place

theorem State.devmemVfAt_scratch (low : o < 0x20000000) : ∃ w, w < 16 ∧ (s.way w).mode = .scratch ∧ (s.way w).owner = d ∧
    scratchBase + 33554432 * s.scratchRank w ≤ a ∧ a < scratchBase + 33554432 * (s.scratchRank w + 1) := by
  rw [State.devmemVfAt, if_pos low] at place
  split at place
  next w found =>
    obtain ⟨way, scratch, owner⟩ := State.mem_scratchWays.1 (List.mem_of_getElem? found)
    obtain rfl := DevAt.mapped.inj place
    exact ⟨w, way, scratch, owner, by omega, by omega⟩
  next => cases place

theorem State.devmemVfAt_sram (above : 0x20000000 ≤ o) (below : o < 0x80000000) :
    ∃ t b, a = sramBase + 4194304 * t + b ∧ b < 4194304 ∧ t < 256 ∧ (s.den d).tiles.getLsbD t = true := by
  rw [State.devmemVfAt, if_neg (Nat.not_lt.2 above)] at place
  split_ifs at place with gap owned
  obtain rfl := DevAt.mapped.inj place
  exact ⟨(o - 0x40000000) / 4194304, (o - 0x40000000) % 4194304, by omega, Nat.mod_lt _ (by decide), by omega, owned⟩

theorem State.devmemVfAt_stripe (high : 0x80000000 ≤ o) : inRanges (s.den d).hbm (a / 16777216) = true := by
  rw [State.devmemVfAt, if_neg (by omega), if_neg (by omega), if_neg (Nat.not_lt.2 high)] at place
  split at place
  next n stripe =>
    obtain rfl := DevAt.mapped.inj place
    have number : (n * 16777216 + o % 16777216) / 16777216 = n := by omega
    rw [number]
    exact inRanges_of_nthStripe stripe
  next => cases place

end Reach

/-- Settles O44: an access by what its offset names; a VF's reach by the part of its window in which the offset lies. -/
theorem devmemAccesses : Obligations.DevmemAccesses := by
  unfold Obligations.DevmemAccesses
  refine ⟨fun s fn off up => ⟨fun data fits => ?writes, fun n fits => ?reads⟩, fun s d o a place => ?reach⟩
  case writes =>
    rw [exec_devmemWrite_serves up fits]
    exact ⟨fun a place => congrArg _ (State.devmemWrite_mapped place data),
      fun place => congrArg _ (State.devmemWrite_hole place data), fun place => congrArg _ (State.devmemWrite_denied place data)⟩
  case reads =>
    rw [exec_devmemRead_serves up fits]
    exact ⟨fun a place => congrArg _ (State.devmemRead_mapped place n),
      fun place => congrArg _ (State.devmemRead_hole place n), fun place => congrArg _ (State.devmemRead_denied place n)⟩
  case reach =>
    replace place : s.devmemVfAt d o = .mapped a := place
    by_cases scratch : o < 0x20000000
    · exact .inr (.inr (State.devmemVfAt_scratch place scratch))
    · by_cases sram : o < 0x80000000
      · exact .inr (.inl (State.devmemVfAt_sram place (Nat.not_lt.1 scratch) sram))
      · exact .inl (State.devmemVfAt_stripe place (Nat.not_lt.1 sram))

end Sys2Proof.Machine
end

section
/-!
A destroyed den (13 R391, R394).

Up to the zeroing of its stripes nothing changes the ranges of a den, so the stripes that are zeroed are those that the den had. After
it, destroying the den only posts an event, resets its rings, and gives back its tiles, its ways and its descriptor.
-/

namespace Sys2Proof.Machine

/-! ### What leaves the ranges of a den alone: everything up to the zeroing (13 R394) -/

/-- Every den has the ranges in `u` that it has in `s`. -/
def SameRanges (s u : State) : Prop := ∀ e, (u.den e).hbm = (s.den e).hbm

section Ranges
variable {s u v : State}

theorem SameRanges.trans (first : SameRanges s u) (second : SameRanges u v) : SameRanges s v :=
  fun e => (second e).trans (first e)

theorem SameRanges.of_dens (same : u.dens = s.dens) : SameRanges s u := fun e => by rw [State.den, State.den, same]

/-- A fold of operations that leave the ranges alone leaves them alone. -/
theorem SameRanges.foldl {β : Type} (f : State → β → State) (same : ∀ u x, SameRanges u (f u x)) (l : List β) (s : State) :
    SameRanges s (l.foldl f s) :=
  fun e => foldl_observes_same (fun u => (u.den e).hbm) f (fun u x _ => same u x e) s

end Ranges

section Stops
variable (s : State)

theorem State.modDen_sameRanges (d : Nat) {g : Den → Den} (same : ∀ x, (g x).hbm = x.hbm) : SameRanges s (s.modDen d g) := by
  intro e
  rw [State.modDen_den]
  split
  next here => rw [same, here]
  next => rfl

theorem State.count_sameRanges (d c n : Nat) : SameRanges s (s.count d c n) := s.modDen_sameRanges d (fun _ => rfl)

theorem State.sendVec_sameRanges (f v : Nat) : SameRanges s (s.sendVec f v) := by
  unfold State.sendVec
  dsimp only
  split_ifs <;> exact SameRanges.of_dens rfl

theorem State.writeEntry_sameRanges (k : Nat) (bytes : Bytes) (vec : Option Nat) : SameRanges s (s.writeEntry k bytes vec) := by
  unfold State.writeEntry
  extract_lets r f phase b emitted moved counted
  have counts : SameRanges s counted := by
    unfold counted
    split_ifs
    · exact SameRanges.of_dens rfl
    · exact SameRanges.trans (SameRanges.of_dens rfl) (State.count_sameRanges moved _ _ _)
  clear_value counted
  cases vec with
  | none => exact counts
  | some v => exact counts.trans (State.sendVec_sameRanges _ f v)

theorem State.pushEntry_sameRanges (k : Nat) (bytes : Bytes) (vec : Option Nat) : SameRanges s (s.pushEntry k bytes vec) := by
  unfold State.pushEntry
  split
  · split
    · exact s.writeEntry_sameRanges k bytes vec
    · exact SameRanges.of_dens rfl
  · exact SameRanges.of_dens rfl

theorem State.postEvent_sameRanges (f ty den : Nat) (payload : Bytes) : SameRanges s (s.postEvent f ty den payload).2 := by
  unfold State.postEvent
  dsimp only
  split_ifs
  · exact SameRanges.of_dens rfl
  · exact SameRanges.of_dens rfl
  · exact s.pushEntry_sameRanges _ _ _

theorem State.dropRef_sameRanges (t v : Nat) (quiet : Bool) : SameRanges s (s.dropRef t v quiet) := by
  unfold State.dropRef State.modVersion State.versionFreed
  extract_lets was changed d counted
  have counts : SameRanges s counted := SameRanges.trans (SameRanges.of_dens rfl) (changed.count_sameRanges d cVfreed 1)
  split_ifs
  · exact counts
  · exact counts.trans (counted.postEvent_sameRanges _ _ _ _)
  · exact SameRanges.of_dens rfl

theorem State.dropRefs_sameRanges (l : List (Nat × Nat)) (quiet : Bool) : SameRanges s (s.dropRefs l quiet) :=
  SameRanges.foldl (fun u (p : Nat × Nat) => u.dropRef p.1 p.2 quiet) (fun u p => u.dropRef_sameRanges p.1 p.2 quiet) l s

theorem State.complete_sameRanges (d ring tag status tiles trunc : Nat) (irq : Bool) (tAdmit : W64) :
    SameRanges s (s.complete d ring tag status tiles trunc irq tAdmit) :=
  ((s.count_sameRanges _ _ _).trans (State.count_sameRanges _ _ _ _)).trans (State.pushEntry_sameRanges _ _ _ _)

theorem State.runTime_sameRanges (d n : Nat) : SameRanges s (s.runTime d n) := by
  unfold State.runTime
  split_ifs
  · exact SameRanges.of_dens rfl
  · exact SameRanges.trans (SameRanges.of_dens rfl) (State.count_sameRanges (s.free 64).2 _ _ _)

theorem State.leaveIfMarked_sameRanges (t d : Nat) : SameRanges s (s.leaveIfMarked t d) := by
  unfold State.leaveIfMarked
  split_ifs
  · extract_lets mask left
    have leaves : SameRanges s left := s.modDen_sameRanges d (fun _ => rfl)
    exact leaves.trans (SameRanges.of_dens rfl)
  · exact SameRanges.of_dens rfl

theorem State.freeTiles_sameRanges (r : Req) : SameRanges s (s.freeTiles r) :=
  SameRanges.foldl _ (fun u t => SameRanges.trans (SameRanges.of_dens (u := u.modTile t _) rfl)
    (State.leaveIfMarked_sameRanges _ t r.den)) r.tiles s

theorem State.endReq_sameRanges (r : Req) (status : Nat) (quiet : Bool) : SameRanges s (s.endReq r status quiet) := by
  unfold State.endReq
  extract_lets freed dropped finished released tag
  have frees : SameRanges s freed := (s.runTime_sameRanges _ _).trans (State.freeTiles_sameRanges _ r)
  have releases : SameRanges s released := frees.trans (finished.dropRefs_sameRanges r.versions quiet)
  split_ifs
  · exact releases
  · exact releases.trans (released.complete_sameRanges _ _ _ _ _ _ _ _)

theorem State.each_modTile_dens (ts : List Nat) (g : Tile → Tile) : (s.each ts (fun s t => s.modTile t g)).dens = s.dens :=
  foldl_observes_same State.dens (fun u t => u.modTile t g) (fun _ _ _ => rfl) s

theorem State.startAbort_dens (id status : Nat) (silent : Bool) : (s.startAbort id status silent).dens = s.dens := by
  cases req : s.req id with
  | none => simp only [State.startAbort, req]
  | some r =>
    by_cases aborting : r.phase = .aborting
    · simp only [State.startAbort, req, aborting, if_true]
      split <;> rfl
    · rw [State.startAbort_eq req aborting]
      exact State.each_modTile_dens _ r.tiles _

theorem State.killReq_sameRanges (id : Nat) (quiet : Bool) : SameRanges s (s.killReq id quiet) := by
  unfold State.killReq
  extract_lets aborted
  have aborts : SameRanges s aborted := SameRanges.of_dens (s.startAbort_dens _ _ _)
  split
  · exact aborts.trans (State.endReq_sameRanges _ _ _ quiet)
  · exact aborts

theorem State.killReqs_sameRanges (p : Req → Bool) (quiet : Bool) : SameRanges s (s.killReqs p quiet) :=
  SameRanges.foldl _ (fun u id => u.killReq_sameRanges id quiet) _ s

end Stops

/-! ### The zeroing of the stripes (13 R394) -/

theorem Hbm.zeroStripes_memGet (h : Hbm) (first count a : Nat) : memGet (h.zeroStripes first count).data a =
    if first ≤ a / 16777216 ∧ a / 16777216 < first + count then 0 else memGet h.data a := by
  refine (memGet_memZero h.data _ _ a).trans (if_congr ?_ rfl rfl)
  omega

/-- Every byte of the stripes of a list of ranges is zero, and every other byte stays. -/
theorem Hbm.foldl_zeroStripes_memGet (l : List (Nat × Nat)) (h : Hbm) (a : Nat) :
    memGet (l.foldl (fun h p => h.zeroStripes p.1 p.2) h).data a = if inRanges l (a / 16777216) = true then 0 else memGet h.data a := by
  induction l generalizing h with
  | nil => rfl
  | cons p l ih =>
    rw [List.foldl_cons, ih, Hbm.zeroStripes_memGet]
    by_cases later : inRanges l (a / 16777216) = true
    · have listed : inRanges (p :: l) (a / 16777216) = true := by
        rw [inRanges, List.any_cons, Bool.or_eq_true]
        exact .inr later
      rw [if_pos later, if_pos listed]
    · rw [if_neg later]
      refine if_congr ?_ rfl rfl
      rw [inRanges, List.any_cons, Bool.or_eq_true, decide_eq_true_eq]
      exact (or_iff_left later).symm

/-! ### What leaves models, tables and HBM alone: the rest of the scrub, and everything after it (13 R394) -/

/-- `u` holds the models, the tables and the HBM contents of `s`. -/
structure SameHoldings (s u : State) : Prop where
  models : u.models = s.models
  tables : u.tables = s.tables
  hbm : u.hbm = s.hbm

section Holdings
variable {s u v : State}

theorem SameHoldings.trans (first : SameHoldings s u) (second : SameHoldings u v) : SameHoldings s v :=
  ⟨second.models.trans first.models, second.tables.trans first.tables, second.hbm.trans first.hbm⟩

theorem SameHoldings.foldl {β : Type} (f : State → β → State) (same : ∀ u x, SameHoldings u (f u x)) (l : List β) (s : State) :
    SameHoldings s (l.foldl f s) :=
  ⟨foldl_observes_same State.models f (fun u x _ => (same u x).models) s,
    foldl_observes_same State.tables f (fun u x _ => (same u x).tables) s,
    foldl_observes_same State.hbm f (fun u x _ => (same u x).hbm) s⟩

theorem OnlyPosts.sameHoldings (posts : OnlyPosts s u) : SameHoldings s u := ⟨by rw [posts], by rw [posts], by rw [posts]⟩

end Holdings

section Destroy
variable (s : State) (d : Nat)

/-- Steps 2 and 3 of R394: the staged rows, the models and the tables of a den are gone. -/
def State.tablesDropped : State :=
  let u := s.dropUpdates d true
  { u with models := u.models.filter (fun m => m.den != d), tables := u.tables.filter (fun p => !(p.2.present && p.2.den == d)) }

/-- Step 4 of R394 and the Hoard rule: the Mioter slots and entries, the lines and the program of a den are gone. -/
def State.slotsDropped : State :=
  let x := s.den d
  let u := x.slotList.foldl (fun s p => s.clearSlot p.1 p.2 .empty) (s.tablesDropped d)
  ((u.each x.entryList (fun s e => s.modEntry e (fun _ => {}))).dropHoard d).modDen d (fun y => { y with prog := [] })

theorem State.scrubDen_eq : s.scrubDen d =
    { s.slotsDropped d with hbm := (s.den d).hbm.foldl (fun h p => h.zeroStripes p.1 p.2) (s.slotsDropped d).hbm } := rfl

theorem State.foldl_clearSlot_holdings (l : List (Nat × Nat)) (st : SlotState) :
    SameHoldings s (l.foldl (fun s p => s.clearSlot p.1 p.2 st) s) :=
  SameHoldings.foldl (fun u (p : Nat × Nat) => u.clearSlot p.1 p.2 st) (fun _ _ => ⟨rfl, rfl, rfl⟩) l s

theorem State.each_modEntry_holdings (l : List Nat) (g : CfgEntry → CfgEntry) :
    SameHoldings s (s.each l (fun s e => s.modEntry e g)) :=
  SameHoldings.foldl (fun u e => u.modEntry e g) (fun _ _ => ⟨rfl, rfl, rfl⟩) l s

theorem State.dropHoard_holdings : SameHoldings s (s.dropHoard d) := ⟨rfl, rfl, rfl⟩

theorem State.modDen_holdings (g : Den → Den) : SameHoldings s (s.modDen d g) := ⟨rfl, rfl, rfl⟩

theorem State.slotsDropped_holdings : SameHoldings (s.tablesDropped d) (s.slotsDropped d) := by
  unfold State.slotsDropped
  exact (((State.foldl_clearSlot_holdings _ _ _).trans (State.each_modEntry_holdings _ _ _)).trans
    (State.dropHoard_holdings _ d)).trans (State.modDen_holdings _ d _)

theorem State.scrubDen_models : ∀ m ∈ (s.scrubDen d).models, m.den ≠ d := by
  intro m mem
  replace mem : m ∈ (s.tablesDropped d).models := (s.slotsDropped_holdings d).models ▸ mem
  simpa using (List.mem_filter.1 mem).2

theorem State.scrubDen_tables : ∀ p ∈ (s.scrubDen d).tables, p.2.present = true → p.2.den ≠ d := by
  intro p mem present
  replace mem : p ∈ (s.tablesDropped d).tables := (s.slotsDropped_holdings d).tables ▸ mem
  simpa [present] using (List.mem_filter.1 mem).2

theorem State.scrubDen_memGet {a : Nat} (stripe : inRanges (s.den d).hbm (a / 16777216) = true) :
    memGet (s.scrubDen d).hbm.data a = 0 := by
  rw [State.scrubDen_eq]
  exact (Hbm.foldl_zeroStripes_memGet ..).trans (if_pos stripe)

/-! ### The destruction (13 R394) -/

/-- The tasks of the den have ended; its contents are still there. -/
def State.denStopped : State :=
  (s.modDen d (fun x => { x with st := .destroying })).killReqs (fun r => r.den == d) false

/-- The DEN_STATE event is posted, and the den's rings are at their reset values. -/
def State.ringsReset : State := ((s.postEvent (d + 1) 4 d [0, 0]).2).resetRings (d + 1)

/-- The tiles of the den are off. -/
def State.tilesFreed : State :=
  let x := s.den d
  s.each ((List.range 256).filter (fun t => x.tiles.getLsbD t)) (fun s t =>
    s.modTile t (fun y => { y with pwr := .off, prepared := false }))

/-- The Hoard ways of the den are shared again. -/
def State.waysFreed : State :=
  s.each ((List.range 16).filter (fun w => (s.way w).owner == d && (s.way w).mode != .shared)) (fun s w => s.modWay w (fun _ => {}))

/-- RETAIN holds the den no longer. -/
def State.retainFreed : State :=
  { s with pcie := { s.pcie with retHeld := s.pcie.retHeld &&& ~~~(BitVec.ofNat 32 (2 ^ d)) } }

theorem State.destroyDen_eq : s.destroyDen d =
    ((((((s.denStopped d).scrubDen d).ringsReset d).tilesFreed d).waysFreed d).retainFreed d).modDen d Den.freed := rfl

theorem State.denStopped_sameRanges : SameRanges s (s.denStopped d) :=
  (s.modDen_sameRanges d (g := fun x => { x with st := .destroying }) (fun _ => rfl)).trans (State.killReqs_sameRanges _ _ _)

theorem State.ringsReset_holdings : SameHoldings s (s.ringsReset d) :=
  (s.postEvent_posts (d + 1) 4 d [0, 0]).sameHoldings.trans ⟨rfl, rfl, rfl⟩

theorem State.each_modTile_holdings (l : List Nat) (g : Tile → Tile) : SameHoldings s (s.each l (fun s t => s.modTile t g)) :=
  SameHoldings.foldl (fun u t => u.modTile t g) (fun _ _ => ⟨rfl, rfl, rfl⟩) l s

theorem State.each_modWay_holdings (l : List Nat) (g : Way → Way) : SameHoldings s (s.each l (fun s w => s.modWay w g)) :=
  SameHoldings.foldl (fun u w => u.modWay w g) (fun _ _ => ⟨rfl, rfl, rfl⟩) l s

theorem State.retainFreed_holdings : SameHoldings s (s.retainFreed d) := ⟨rfl, rfl, rfl⟩

theorem State.destroyDen_holdings : SameHoldings ((s.denStopped d).scrubDen d) (s.destroyDen d) :=
  ((((State.ringsReset_holdings _ d).trans (State.each_modTile_holdings _ _ _)).trans (State.each_modWay_holdings _ _ _)).trans
    (State.retainFreed_holdings _ d)).trans (State.modDen_holdings _ d _)

theorem State.ringsReset_ring {id : Nat} (within : id < 32) : (s.ringsReset d).ring (32 * (d + 1) + id) = {} :=
  (mget_mclear ..).trans (if_pos (by omega))

theorem State.each_modTile_pcie (l : List Nat) (g : Tile → Tile) : (s.each l (fun s t => s.modTile t g)).pcie = s.pcie :=
  foldl_observes_same State.pcie (fun u t => u.modTile t g) (fun _ _ _ => rfl) s

theorem State.each_modWay_pcie (l : List Nat) (g : Way → Way) : (s.each l (fun s w => s.modWay w g)).pcie = s.pcie :=
  foldl_observes_same State.pcie (fun u w => u.modWay w g) (fun _ _ _ => rfl) s

theorem State.placesFreed_pcie : ((s.tilesFreed d).waysFreed d).pcie = s.pcie :=
  (State.each_modWay_pcie ..).trans (State.each_modTile_pcie ..)

theorem State.destroyDen_pcie : (s.destroyDen d).pcie = ((((s.denStopped d).scrubDen d).ringsReset d).retainFreed d).pcie := by
  rw [State.destroyDen_eq, State.modDen_pcie, State.retainFreed, State.placesFreed_pcie]
  rfl

theorem State.destroyDen_ring {id : Nat} (within : id < 32) : (s.destroyDen d).ring (32 * (d + 1) + id) = {} := by
  rw [State.ring, State.destroyDen_pcie]
  exact State.ringsReset_ring _ d within

theorem State.retainFreed_retHeld (within : d < 32) : (s.retainFreed d).pcie.retHeld.getLsbD d = false := by
  rw [State.retainFreed, BitVec.getLsbD_and, BitVec.getLsbD_not, BitVec.getLsbD_ofNat, Nat.testBit_two_pow_self]
  simp [within]

theorem State.destroyDen_freed : ∃ x : Den, (s.destroyDen d).den d = x.freed :=
  ⟨_, (State.modDen_den ..).trans (if_pos rfl)⟩

end Destroy

/-- Settles O50: the den by what `Den.freed` leaves of it, its models, tables and stripes by its scrub, its rings by their reset. -/
theorem destroyedDenIsEmpty : Obligations.DestroyedDenIsEmpty := by
  unfold Obligations.DestroyedDenIsEmpty
  intro s d within u
  obtain ⟨x, freed⟩ : ∃ x : Den, u.den d = x.freed := s.destroyDen_freed d
  have held : SameHoldings ((s.denStopped d).scrubDen d) u := s.destroyDen_holdings d
  rw [freed, held.models, held.tables, held.hbm]
  refine ⟨rfl, rfl, rfl, rfl, rfl, State.scrubDen_models _ d, State.scrubDen_tables _ d,
    fun id small => s.destroyDen_ring d small, ?retain, fun a stripe => State.scrubDen_memGet _ d ?zeroed⟩
  case retain =>
    rw [s.destroyDen_pcie d]
    exact State.retainFreed_retHeld _ d within
  case zeroed => rwa [s.denStopped_sameRanges d d]

end Sys2Proof.Machine
end

section
/-!
What no command changes, in whatever state it runs: the queue of the commands that wait, and the fuses. `State.fixed` is that part of
the state, and every operation of the model leaves it as it was; the operations stand in the order of the model's files. With what the
laws say of states that meet the invariant (Laws.Keeps), that settles what every command and every step keeps.
-/

namespace Sys2Proof.Machine

/-- The queue of waiting commands, the serial number and the watchdog fuse (21 R593). -/
def State.fixed (s : State) : List Instr × W64 × Nat := (s.pending, s.boot.serial, s.boot.fuseWdg)

/-- Every next state of an outcome has the queue and the fuses of `s`. -/
def StaysFixed (s : State) (o : Host.Outcome State Fault Refusal) : Prop := ∀ t, o = .next t → t.fixed = s.fixed

@[simp] theorem staysFixed_next (s t : State) : StaysFixed s (.next t) ↔ t.fixed = s.fixed :=
  ⟨fun stays => stays t rfl, fun same _ next => by cases next; exact same⟩

@[simp] theorem fixed_fold (s : State) : (s.pending, s.boot.serial, s.boot.fuseWdg) = s.fixed := rfl

/-- A record update shows its queue and its fuses. -/
@[simp] theorem fixed_mk a b c d e f g h i j k l m n o p q r s t u v w x y z aa bb cc dd :
    State.fixed (State.mk a b c d e f g h i j k l m n o p q r s t u v w x y z aa bb cc dd) = (a, x.serial, x.fuseWdg) := rfl

theorem fixed_of_eq {s t : State} (queue : t.pending = s.pending) (boot : t.boot = s.boot) : t.fixed = s.fixed := by
  rw [State.fixed, queue, boot, State.fixed]

@[simp] theorem fixed_ite {c : Prop} [Decidable c] (s t : State) : (if c then s else t).fixed = if c then s.fixed else t.fixed :=
  apply_ite ..

@[simp] theorem fixed_snd_ite {α : Type} {c : Prop} [Decidable c] (x y : α × State) :
    (if c then x else y).2.fixed = if c then x.2.fixed else y.2.fixed :=
  apply_ite (fun p : α × State => p.2.fixed) ..

theorem ite_fixed {c : Prop} [Decidable c] {s t : State} {z : List Instr × W64 × Nat} (first : s.fixed = z)
    (second : t.fixed = z) : (if c then s else t).fixed = z := by
  rw [fixed_ite, first, second, ite_self]

@[simp] theorem foldl_fixed {α : Type} {f : State → α → State} (h : ∀ u x, (f u x).fixed = u.fixed) (l : List α) (s : State) :
    (l.foldl f s).fixed = s.fixed := by
  induction l generalizing s with
  | nil => rfl
  | cons x l ih => exact (ih _).trans (h s x)

@[simp] theorem foldl_snd_fixed {α β : Type} {f : β × State → α → β × State} (h : ∀ u x, (f u x).2.fixed = u.2.fixed) (l : List α)
    (s : β × State) : (l.foldl f s).2.fixed = s.2.fixed := by
  induction l generalizing s with
  | nil => rfl
  | cons x l ih => exact (ih _).trans (h s x)

section Fixed
variable (s : State)

/-! ### Ops -/

@[simp] theorem State.modFn_fixed (f : Nat) (g : Fn → Fn) : (s.modFn f g).fixed = s.fixed := by simp [State.modFn]
@[simp] theorem State.modRing_fixed (k : Nat) (g : Ring → Ring) : (s.modRing k g).fixed = s.fixed := by simp [State.modRing]
@[simp] theorem State.modDen_fixed (d : Nat) (g : Den → Den) : (s.modDen d g).fixed = s.fixed := by simp [State.modDen]
@[simp] theorem State.modTile_fixed (t : Nat) (g : Tile → Tile) : (s.modTile t g).fixed = s.fixed := by simp [State.modTile]

@[simp] theorem State.modTable_fixed (t : Nat) (g : Table → Table) : (s.modTable t g).fixed = s.fixed := by
  simp [State.modTable]

@[simp] theorem State.modQuad_fixed (q : Nat) (g : Quad → Quad) : (s.modQuad q g).fixed = s.fixed := by simp [State.modQuad]

@[simp] theorem State.modSlot_fixed (q c : Nat) (g : MioSlot → MioSlot) : (s.modSlot q c g).fixed = s.fixed := by
  simp [State.modSlot]

@[simp] theorem State.modEntry_fixed (e : Nat) (g : CfgEntry → CfgEntry) : (s.modEntry e g).fixed = s.fixed := by
  simp [State.modEntry]

@[simp] theorem State.modPort_fixed (p : Nat) (g : Port → Port) : (s.modPort p g).fixed = s.fixed := by simp [State.modPort]

@[simp] theorem State.modStack_fixed (n : Nat) (g : HbmStack → HbmStack) : (s.modStack n g).fixed = s.fixed := by
  simp [State.modStack]

@[simp] theorem State.modTmr_fixed (n : Nat) (g : Tmr → Tmr) : (s.modTmr n g).fixed = s.fixed := by simp [State.modTmr]
@[simp] theorem State.modWay_fixed (w : Nat) (g : Way → Way) : (s.modWay w g).fixed = s.fixed := by simp [State.modWay]
@[simp] theorem State.setUpd_fixed (d r : Nat) (u : Option UpdCur) : (s.setUpd d r u).fixed = s.fixed := by simp [State.setUpd]
@[simp] theorem State.modReq_fixed (id : Nat) (g : Req → Req) : (s.modReq id g).fixed = s.fixed := by simp [State.modReq]
@[simp] theorem State.modCmd_fixed (id : Nat) (g : Cmd → Cmd) : (s.modCmd id g).fixed = s.fixed := by simp [State.modCmd]

@[simp] theorem State.modModel_fixed (d handle : Nat) (g : Model → Model) : (s.modModel d handle g).fixed = s.fixed := by
  simp [State.modModel]

@[simp] theorem State.each_fixed (l : List Nat) (g : State → Nat → State) (h : ∀ v i, (g v i).fixed = v.fixed) :
    (s.each l g).fixed = s.fixed := by
  simp [State.each, h]

@[simp] theorem State.emit_fixed (o : Out) : (s.emit o).fixed = s.fixed := by simp [State.emit]
@[simp] theorem State.free_fixed (w : Nat) : (s.free w).2.fixed = s.fixed := by simp [State.free]
@[simp] theorem State.count_fixed (d c n : Nat) : (s.count d c n).fixed = s.fixed := by simp [State.count]
@[simp] theorem State.sendVec_fixed (f v : Nat) : (s.sendVec f v).fixed = s.fixed := by simp [State.sendVec]

@[simp] theorem State.writeEntry_fixed (k : Nat) (bytes : Bytes) (vec : Option Nat) :
    (s.writeEntry k bytes vec).fixed = s.fixed := by
  simp only [State.writeEntry]
  split <;> simp

@[simp] theorem State.pushEntry_fixed (k : Nat) (bytes : Bytes) (vec : Option Nat) :
    (s.pushEntry k bytes vec).fixed = s.fixed := by
  simp [State.pushEntry]

@[simp] theorem State.postEvent_fixed (f ty den : Nat) (payload : Bytes) :
    (s.postEvent f ty den payload).2.fixed = s.fixed := by
  simp [State.postEvent]

@[simp] theorem State.hostWrite_fixed (f iova : Nat) (data : Bytes) : (s.hostWrite f iova data).fixed = s.fixed := by
  simp [State.hostWrite]

@[simp] theorem State.errorEvent_fixed (f cls cause : Nat) (loc : W64) : (s.errorEvent f cls cause loc).fixed = s.fixed := by
  simp [State.errorEvent]

@[simp] theorem State.errorEvents_fixed (cls cause : Nat) (loc : W64) : (s.errorEvents cls cause loc).fixed = s.fixed := by
  simp [State.errorEvents]

@[simp] theorem State.newEntry_fixed (cls cause : Nat) (loc : W64) : (s.newEntry cls cause loc).fixed = s.fixed := by
  simp [State.newEntry]

@[simp] theorem State.logCore_fixed (cls cause : Nat) (loc : W64) : (s.logCore cls cause loc).fixed = s.fixed := by
  simp [State.logCore]

@[simp] theorem State.record_fixed (ty : Nat) (p : Bytes) (ref : Option (Nat × W32)) : (s.record ty p ref).fixed = s.fixed := by
  simp [State.record]

@[simp] theorem State.fault_fixed (cause : Nat) (loc : W64) (rcd : Option (Nat × Bytes)) :
    (s.fault cause loc rcd).fixed = s.fixed := by
  unfold State.fault
  split <;> simp

@[simp] theorem State.charge_fixed (d : Nat) (p : Path) (bytes : Nat) : (s.charge d p bytes).fixed = s.fixed := by
  simp [State.charge]

@[simp] theorem State.chargeHoard_fixed (d bytes : Nat) : (s.chargeHoard d bytes).fixed = s.fixed := by simp [State.chargeHoard]
@[simp] theorem State.chargePcie_fixed (d bytes : Nat) : (s.chargePcie d bytes).fixed = s.fixed := by simp [State.chargePcie]

@[simp] theorem State.chargeHbm_fixed (d bytes : Nat) (write : Bool) : (s.chargeHbm d bytes write).fixed = s.fixed := by
  simp [State.chargeHbm]

@[simp] theorem State.chargeIfs_fixed (d bytes : Nat) : (s.chargeIfs d bytes).fixed = s.fixed := by simp [State.chargeIfs]

/-! ### Life -/

@[simp] theorem State.versionFreed_fixed (t v : Nat) (quiet : Bool) : (s.versionFreed t v quiet).fixed = s.fixed := by
  simp [State.versionFreed]

@[simp] theorem State.modVersion_fixed (t v : Nat) (quiet : Bool) (g : Version → Version) :
    (s.modVersion t v quiet g).fixed = s.fixed := by
  simp [State.modVersion]

@[simp] theorem State.takeRef_fixed (t v : Nat) : (s.takeRef t v).fixed = s.fixed := by simp [State.takeRef]

@[simp] theorem State.dropRef_fixed (t v : Nat) (quiet : Bool) : (s.dropRef t v quiet).fixed = s.fixed := by
  simp [State.dropRef]

@[simp] theorem State.dropRefs_fixed (pairs : List (Nat × Nat)) (quiet : Bool) : (s.dropRefs pairs quiet).fixed = s.fixed := by
  simp [State.dropRefs]

@[simp] theorem State.complete_fixed (d ring tag status tiles trunc : Nat) (irq : Bool) (tAdmit : W64) :
    (s.complete d ring tag status tiles trunc irq tAdmit).fixed = s.fixed := by
  simp [State.complete]

@[simp] theorem State.leaveIfMarked_fixed (t d : Nat) : (s.leaveIfMarked t d).fixed = s.fixed := by simp [State.leaveIfMarked]
@[simp] theorem State.freeTiles_fixed (r : Req) : (s.freeTiles r).fixed = s.fixed := by simp [State.freeTiles]
@[simp] theorem State.dropLookups_fixed (id : Nat) : (s.dropLookups id).fixed = s.fixed := by simp [State.dropLookups]
@[simp] theorem State.runTime_fixed (d n : Nat) : (s.runTime d n).fixed = s.fixed := by simp [State.runTime]

@[simp] theorem State.endReq_fixed (r : Req) (status : Nat) (quiet : Bool) : (s.endReq r status quiet).fixed = s.fixed := by
  simp [State.endReq]

@[simp] theorem State.cancelReads_fixed (p : Issuer → Bool) : (s.cancelReads p).fixed = s.fixed := by simp [State.cancelReads]

@[simp] theorem State.startAbort_fixed (id status : Nat) (silent : Bool) : (s.startAbort id status silent).fixed = s.fixed := by
  unfold State.startAbort
  split <;> simp

@[simp] theorem State.killReq_fixed (id : Nat) (quiet : Bool) : (s.killReq id quiet).fixed = s.fixed := by
  simp only [State.killReq]
  split <;> simp

@[simp] theorem State.killReqs_fixed (p : Req → Bool) (quiet : Bool) : (s.killReqs p quiet).fixed = s.fixed := by
  simp [State.killReqs]

@[simp] theorem State.tileFault_fixed (t cause trap line : Nat) (poison own : Bool) :
    (s.tileFault t cause trap line poison own).fixed = s.fixed := by
  simp only [State.tileFault]
  (repeat' split) <;> simp

@[simp] theorem State.completeFenced_fixed (d t : Nat) : (s.completeFenced d t).fixed = s.fixed := by
  simp [State.completeFenced]

@[simp] theorem State.fenceModels_fixed (d : Nat) : (s.fenceModels d).fixed = s.fixed := by simp [State.fenceModels]

@[simp] theorem State.fenceTile_fixed (t reason status : Nat) (flt : Option W64) :
    (s.fenceTile t reason status flt).fixed = s.fixed := by
  simp only [State.fenceTile]
  (repeat' split) <;> simp

@[simp] theorem State.countFault_fixed (r : Req) (f : ReqFault) : (s.countFault r f).fixed = s.fixed := by
  simp [State.countFault]

@[simp] theorem State.flushAll_fixed : s.flushAll.fixed = s.fixed := by simp [State.flushAll]
@[simp] theorem State.discardStaged_fixed (d : Nat) : (s.discardStaged d).fixed = s.fixed := by simp [State.discardStaged]

@[simp] theorem State.dropUpdates_fixed (d : Nat) (quiet : Bool) : (s.dropUpdates d quiet).fixed = s.fixed := by
  simp [State.dropUpdates]

@[simp] theorem State.clearSlot_fixed (q c : Nat) (st : SlotState) : (s.clearSlot q c st).fixed = s.fixed := by
  simp [State.clearSlot]

@[simp] theorem State.dropTable_fixed (t : Nat) : (s.dropTable t).fixed = s.fixed := by simp [State.dropTable]
@[simp] theorem State.dropHoard_fixed (d : Nat) : (s.dropHoard d).fixed = s.fixed := by simp [State.dropHoard]
@[simp] theorem State.scrubDen_fixed (d : Nat) : (s.scrubDen d).fixed = s.fixed := by simp [State.scrubDen]
@[simp] theorem State.silenceCmds_fixed (p : Nat → Bool) : (s.silenceCmds p).fixed = s.fixed := by simp [State.silenceCmds]
@[simp] theorem State.resetRings_fixed (f : Nat) : (s.resetRings f).fixed = s.fixed := by simp [State.resetRings]

@[simp] theorem State.flrFinish_fixed (f : Nat) : (s.flrFinish f).fixed = s.fixed := by
  simp only [State.flrFinish]
  (repeat' split) <;> simp

@[simp] theorem State.flrStart_fixed (f : Nat) : (s.flrStart f).fixed = s.fixed := by simp [State.flrStart]
@[simp] theorem State.destroyDen_fixed (d : Nat) : (s.destroyDen d).fixed = s.fixed := by simp [State.destroyDen]
@[simp] theorem State.enterRetain_fixed (cause : Nat) : (s.enterRetain cause).fixed = s.fixed := by simp [State.enterRetain]
@[simp] theorem State.leaveRetain_fixed : s.leaveRetain.fixed = s.fixed := by simp [State.leaveRetain]
@[simp] theorem State.quiesce_fixed (d : Nat) : (s.quiesce d).fixed = s.fixed := by simp [State.quiesce]

/-! ### Mem -/

@[simp] theorem State.hbmUncorr_fixed (a n : Nat) : (s.hbmUncorr a n).fixed = s.fixed := by simp [State.hbmUncorr]
@[simp] theorem State.hbmCorr_fixed (a n : Nat) : (s.hbmCorr a n).fixed = s.fixed := by simp [State.hbmCorr]
@[simp] theorem State.hbmWrite_fixed (a : Nat) (bs : Bytes) : (s.hbmWrite a bs).fixed = s.fixed := by simp [State.hbmWrite]

@[simp] theorem State.lineWrite_fixed (a o : Nat) (bs : Bytes) : (s.lineWrite a o bs).fixed = s.fixed := by
  simp only [State.lineWrite]
  (repeat' split) <;> simp

@[simp] theorem State.devLines_fixed (fuel a : Nat) (bs : Bytes) : (s.devLines fuel a bs).fixed = s.fixed := by
  induction fuel generalizing s a bs with
  | zero => rfl
  | succ n ih => simp [State.devLines, ih]

@[simp] theorem State.devWrite_fixed (a : Nat) (bs : Bytes) : (s.devWrite a bs).fixed = s.fixed := by
  unfold State.devWrite
  split <;> simp


/-! ### Nor -/

@[simp] theorem State.retireSector_fixed (n : Nat) : (s.retireSector n).fixed = s.fixed := by simp [State.retireSector]

@[simp] theorem State.eraseSector_fixed (n role : Nat) (ns : List Nat) : (s.eraseSector n role ns).fixed = s.fixed := by
  simp [State.eraseSector]

@[simp] theorem execLedgerCommit_fixed : StaysFixed s (execLedgerCommit s) := by
  unfold execLedgerCommit
  (repeat' split) <;> simp

@[simp] theorem State.eraseAhead_fixed : s.eraseAhead.fixed = s.fixed := by
  simp only [State.eraseAhead]
  (repeat' split) <;> simp

@[simp] theorem State.keepAhead_fixed : s.keepAhead.fixed = s.fixed := by simp [State.keepAhead]

@[simp] theorem State.recycle_fixed : s.recycle.fixed = s.fixed := by
  simp only [State.recycle]
  split <;> simp

@[simp] theorem execLedgerSectorRecycle_fixed : StaysFixed s (execLedgerSectorRecycle s) := by simp [execLedgerSectorRecycle]
@[simp] theorem State.writeDirect_fixed (r : LdgRec) : (s.writeDirect r).fixed = s.fixed := by simp [State.writeDirect]
@[simp] theorem execLedgerHourly_fixed : StaysFixed s (execLedgerHourly s) := by simp [execLedgerHourly]

@[simp] theorem State.writeSet_fixed (choice : Nat) (prof : Nat → Option Bytes) : (s.writeSet choice prof).fixed = s.fixed := by
  unfold State.writeSet
  split
  · rfl
  · extract_lets gen present body v l l'
    simp only [fixed_mk, fixed_fold]
    exact State.eraseSector_fixed s _ _ _


/-! ### DenOps -/

@[simp] theorem State.removeTile_fixed (d t : Nat) : (s.removeTile d t).fixed = s.fixed := by simp [State.removeTile]

@[simp] theorem State.setTiles_fixed (d : Nat) (mask : BitVec 256) : (s.setTiles d mask).fixed = s.fixed := by
  simp [State.setTiles]

@[simp] theorem State.setHbm_fixed (d : Nat) (new : List (Nat × Nat)) : (s.setHbm d new).fixed = s.fixed := by
  simp [State.setHbm]

@[simp] theorem State.setMioter_fixed (d slots ents : Nat) : (s.setMioter d slots ents).fixed = s.fixed := by
  simp [State.setMioter]

@[simp] theorem State.profileFault_fixed (cause idx code : Nat) (den : Option Nat) :
    (s.profileFault cause idx code den).fixed = s.fixed := by
  simp [State.profileFault]

@[simp] theorem State.applyDenRecord_fixed (rcd : Bytes) : (s.applyDenRecord rcd).fixed = s.fixed := by
  unfold State.applyDenRecord
  split
  · exact State.profileFault_fixed ..
  · simp only [State.modDen_fixed, State.setMioter_fixed]
    refine (State.each_fixed _ _ _ fun u w => ?_).trans ?_
    · split <;> simp
    · simp only [State.setHbm_fixed, State.setTiles_fixed, State.modDen_fixed]
      refine (foldl_fixed (fun u p => ?_) _ _).trans (State.each_fixed _ _ _ fun u t => State.profileFault_fixed ..)
      split <;> simp

@[simp] theorem State.applyDenRecords_fixed : s.applyDenRecords.fixed = s.fixed := by simp [State.applyDenRecords]

/-! ### Link -/

@[simp] theorem State.pump_fixed (fuel p : Nat) : (s.pump fuel p).fixed = s.fixed := by
  induction fuel generalizing s with
  | zero => rfl
  | succ n ih =>
    unfold State.pump
    dsimp only
    (repeat' split) <;> simp [ih]

@[simp] theorem State.pumpAll_fixed (p : Nat) : (s.pumpAll p).fixed = s.fixed := by simp [State.pumpAll]
@[simp] theorem State.enqueue_fixed (p : Nat) (m : Bytes) : (s.enqueue p m).fixed = s.fixed := by simp [State.enqueue]

theorem State.send_fixed (m : Bytes) {y : State} (h : (s.send m) = some y) : y.fixed = s.fixed := by
  unfold State.send at h
  split at h
  · cases h
  · cases h; simp

@[simp] theorem State.sendOr_fixed (m : Bytes) : (s.sendOr m).fixed = s.fixed := by
  unfold State.sendOr
  split
  next sent => exact State.send_fixed _ _ sent
  · rfl

@[simp] theorem State.mgtAll_fixed (ty : Nat) (fields data : Bytes) : (s.mgtAll ty fields data).fixed = s.fixed := by
  simp [State.mgtAll]

@[simp] theorem State.creditBack_fixed (p : Nat) (m : Bytes) : (s.creditBack p m).fixed = s.fixed := by simp [State.creditBack]
@[simp] theorem State.linkMsgFault_fixed (p : Nat) : (s.linkMsgFault p).fixed = s.fixed := by simp [State.linkMsgFault]

@[simp] theorem State.receive_fixed (p : Nat) (m : Bytes) (ty : Nat) (f : State → State) (h : ∀ v, (f v).fixed = v.fixed) :
    (s.receive p m ty f).fixed = s.fixed := by
  simp [State.receive, h]

@[simp] theorem execLinkMsg_fixed (port : Nat) (msg : Bytes) : StaysFixed s (execLinkMsg port msg s) := by simp [execLinkMsg]
@[simp] theorem execLctl_fixed (port : Nat) (flit : Bytes) : StaysFixed s (execLctl port flit s) := by simp [execLctl]

@[simp] theorem execTransitMessage_fixed (port : Nat) (msg : Bytes) : StaysFixed s (execTransitMessage port msg s) := by
  unfold execTransitMessage
  (repeat' split) <;> simp

@[simp] theorem State.fenceLane_fixed (p lane reason : Nat) : (s.fenceLane p lane reason).fixed = s.fixed := by
  simp [State.fenceLane]

@[simp] theorem State.afterFence_fixed (p : Nat) : (s.afterFence p).fixed = s.fixed := by simp [State.afterFence]

@[simp] theorem execLaneLockLost_fixed (port lane : Nat) : StaysFixed s (execLaneLockLost port lane s) := by
  simp [execLaneLockLost]

@[simp] theorem execPortDown_fixed (port : Nat) : StaysFixed s (execPortDown port s) := by simp [execPortDown]

@[simp] theorem execLinkTrain_fixed (port : Nat) (locked : BitVec 8) (peerId peerPort family delay : Nat) :
    StaysFixed s (execLinkTrain port locked peerId peerPort family delay s) := by
  simp [execLinkTrain]

@[simp] theorem execLinkTrainRetry_fixed (port : Nat) : StaysFixed s (execLinkTrainRetry port s) := by simp [execLinkTrainRetry]
@[simp] theorem State.replay_fixed (p : Nat) : (s.replay p).fixed = s.fixed := by simp [State.replay]

@[simp] theorem execCodewordReceive_fixed (port : Nat) (header : BitVec 20) (errs : List Nat) (bad : Bool) :
    StaysFixed s (execCodewordReceive port header errs bad s) := by
  simp [execCodewordReceive]

@[simp] theorem State.applyLinkMask_fixed : s.applyLinkMask.fixed = s.fixed := by
  refine State.each_fixed _ _ _ fun u p => ?_
  dsimp only
  (repeat' split) <;> simp


/-! ### Timers -/

@[simp] theorem State.timerMatch_fixed (n : Nat) : (s.timerMatch n).fixed = s.fixed := by simp [State.timerMatch]
@[simp] theorem State.tryMatch_fixed (n : Nat) : (s.tryMatch n).fixed = s.fixed := by simp [State.tryMatch]
@[simp] theorem execTmrMatch_fixed (tmr : Nat) : StaysFixed s (execTmrMatch tmr s) := by simp [execTmrMatch]

@[simp] theorem State.gstart_fixed (start : BitVec 8) (defer : Bool) : (s.gstart start defer).fixed = s.fixed := by
  simp [State.gstart]

@[simp] theorem execTmrGstart_fixed (start : BitVec 8) (defer : Bool) : StaysFixed s (execTmrGstart start defer s) := by
  simp [execTmrGstart]

@[simp] theorem State.deferredStart_fixed : s.deferredStart.fixed = s.fixed := by simp [State.deferredStart]
@[simp] theorem execTmrDeferredStart_fixed : StaysFixed s (execTmrDeferredStart s) := by simp [execTmrDeferredStart]
@[simp] theorem State.gateWrite_fixed (n : Nat) (v : W64) : (s.gateWrite n v).fixed = s.fixed := by simp [State.gateWrite]

@[simp] theorem execTmrGateWrite_fixed (tmr : Nat) (value : W64) : StaysFixed s (execTmrGateWrite tmr value s) := by
  simp [execTmrGateWrite]

@[simp] theorem State.wdgHold_fixed : s.wdgHold.fixed = s.fixed := by simp [State.wdgHold]
@[simp] theorem State.wdgResume_fixed : s.wdgResume.fixed = s.fixed := by simp [State.wdgResume]
@[simp] theorem execJtagHalt_fixed : StaysFixed s (execJtagHalt s) := by simp [execJtagHalt]
@[simp] theorem execDebugHaltEnd_fixed : StaysFixed s (execDebugHaltEnd s) := by simp [execDebugHaltEnd]
@[simp] theorem State.makeup_fixed (e : Nat) : (s.makeup e).fixed = s.fixed := by simp [State.makeup]
@[simp] theorem State.aonTick_fixed : s.aonTick.fixed = s.fixed := by simp [State.aonTick]
@[simp] theorem State.wtimeTick_fixed : s.wtimeTick.fixed = s.fixed := by simp [State.wtimeTick]
@[simp] theorem State.tmrCount_fixed : s.tmrCount.fixed = s.fixed := by simp [State.tmrCount]
@[simp] theorem State.guardTicks_fixed : s.guardTicks.fixed = s.fixed := by simp [State.guardTicks]

@[simp] theorem State.aonShare_fixed : s.aonShare.fixed = s.fixed := by
  unfold State.aonShare
  exact ite_fixed (fixed_of_eq rfl rfl) ((State.aonTick_fixed _).trans (fixed_of_eq rfl rfl))

@[simp] theorem State.tmclkTick_fixed : s.tmclkTick.fixed = s.fixed := by simp [State.tmclkTick]

@[simp] theorem State.mgtSend_fixed : s.mgtSend.fixed = s.fixed := by
  unfold State.mgtSend
  split <;> simp

@[simp] theorem State.tick_fixed : s.tick.fixed = s.fixed := by simp [State.tick]

/-! ### Power -/

@[simp] theorem State.stopClocks_fixed : s.stopClocks.fixed = s.fixed := by simp [State.stopClocks]
@[simp] theorem State.startClocks_fixed : s.startClocks.fixed = s.fixed := by simp [State.startClocks]
@[simp] theorem State.hushEntry_fixed (thermal : Bool) : (s.hushEntry thermal).fixed = s.fixed := by simp [State.hushEntry]
@[simp] theorem State.wakeReq_fixed (code : Nat) : (s.wakeReq code).fixed = s.fixed := by simp [State.wakeReq]
@[simp] theorem State.svcStart_fixed : s.svcStart.fixed = s.fixed := by simp [State.svcStart]
@[simp] theorem execHushAlarm_fixed : StaysFixed s (execHushAlarm s) := by simp [execHushAlarm]
@[simp] theorem execStandbyClockStop_fixed : StaysFixed s (execStandbyClockStop s) := by simp [execStandbyClockStop]
@[simp] theorem execD3hotEntry_fixed : StaysFixed s (execD3hotEntry s) := by simp [execD3hotEntry]
@[simp] theorem execD0Return_fixed : StaysFixed s (execD0Return s) := by simp [execD0Return]
@[simp] theorem execTclkStep_fixed : StaysFixed s (execTclkStep s) := by simp [execTclkStep]

@[simp] theorem execPowerLimiterEval_fixed (p100 p1ms : Nat) : StaysFixed s (execPowerLimiterEval p100 p1ms s) := by
  simp [execPowerLimiterEval]

@[simp] theorem execAonclkTrim_fixed (ok : Bool) : StaysFixed s (execAonclkTrim ok s) := by simp [execAonclkTrim]

@[simp] theorem State.thermalEvent_fixed (src level reading : Nat) : (s.thermalEvent src level reading).fixed = s.fixed := by
  simp [State.thermalEvent]

@[simp] theorem State.thermalEvents_fixed : s.thermalEvents.fixed = s.fixed := by simp [State.thermalEvents]

@[simp] theorem State.thermalEntry_fixed (key src level : Nat) (temp : BitVec 8) :
    (s.thermalEntry key src level temp).fixed = s.fixed := by
  simp [State.thermalEntry]

@[simp] theorem State.setDieLevel_fixed (d level : Nat) : (s.setDieLevel d level).fixed = s.fixed := by simp [State.setDieLevel]

@[simp] theorem State.setStackLevel_fixed (n level : Nat) : (s.setStackLevel n level).fixed = s.fixed := by
  simp [State.setStackLevel]

@[simp] theorem State.heatAct_fixed : s.heatAct.fixed = s.fixed := by
  unfold State.heatAct
  (repeat' split) <;> simp

@[simp] theorem State.resumeLevels_fixed : s.resumeLevels.fixed = s.fixed := by simp [State.resumeLevels]
@[simp] theorem State.trip_fixed (src : Nat) (temp : BitVec 8) : (s.trip src temp).fixed = s.fixed := by simp [State.trip]

@[simp] theorem execDieTempRead_fixed (die : Nat) (temp : BitVec 8) : StaysFixed s (execDieTempRead die temp s) := by
  simp [execDieTempRead]

@[simp] theorem execHbmTempRead_fixed (stack : Nat) (temp : BitVec 8) : StaysFixed s (execHbmTempRead stack temp s) := by
  simp [execHbmTempRead]

@[simp] theorem execRegulatorRefill_fixed : StaysFixed s (execRegulatorRefill s) := by simp [execRegulatorRefill]
@[simp] theorem State.chargeEnergy_fixed (d : Nat) : (s.chargeEnergy d).fixed = s.fixed := by simp [State.chargeEnergy]

@[simp] theorem execEnergyCalibrate_fixed (factor : W32) : StaysFixed s (execEnergyCalibrate factor s) := by
  simp [execEnergyCalibrate]

@[simp] theorem State.acctSnap_fixed : s.acctSnap.fixed = s.fixed := by simp [State.acctSnap]
@[simp] theorem execAcctSnap_fixed : StaysFixed s (execAcctSnap s) := by simp [execAcctSnap]

/-! ### Boot -/

@[simp] theorem State.freeNat_fixed (n : Nat) : (s.freeNat n).2.fixed = s.fixed := by simp [State.freeNat]
@[simp] theorem State.becomeMaster_fixed : s.becomeMaster.fixed = s.fixed := by simp [State.becomeMaster]
@[simp] theorem State.trainPcie_fixed : s.trainPcie.fixed = s.fixed := by simp [State.trainPcie]
@[simp] theorem State.fullReset_fixed (powerOn : Bool) : (s.fullReset powerOn).fixed = s.fixed := by simp [State.fullReset]
@[simp] theorem State.bootLedger_fixed : s.bootLedger.fixed = s.fixed := by simp [State.bootLedger]
@[simp] theorem State.bootProfile_fixed (b : BootIn) : (s.bootProfile b).fixed = s.fixed := by simp [State.bootProfile]
@[simp] theorem State.bootStep3_fixed : s.bootStep3.fixed = s.fixed := by simp [State.bootStep3]

@[simp] theorem State.fillErrReset_fixed : s.fillErrReset.fixed = s.fixed := by
  simp only [State.fillErrReset]
  split <;> simp

@[simp] theorem State.releaseCp_fixed : s.releaseCp.fixed = s.fixed := by simp [State.releaseCp]
@[simp] theorem State.bootRecord_fixed : s.bootRecord.fixed = s.fixed := by simp [State.bootRecord]

@[simp] theorem State.setBank_fixed (bank : Option Nat) : (s.setBank bank).fixed = s.fixed := by
  unfold State.setBank
  split <;> simp

@[simp] theorem State.restoreLanes_fixed : s.restoreLanes.fixed = s.fixed := by simp [State.restoreLanes]
@[simp] theorem State.selfTests_fixed (b : BootIn) : (s.selfTests b).fixed = s.fixed := by simp [State.selfTests]
@[simp] theorem State.startLinks_fixed : s.startLinks.fixed = s.fixed := by simp [State.startLinks]

@[simp] theorem State.bootFirst_fixed (b : BootIn) (source : Nat) : (s.bootFirst b source).fixed = s.fixed := by
  simp [State.bootFirst]

@[simp] theorem State.bootBank_fixed : s.bootBank.fixed = s.fixed := by simp [State.bootBank]
@[simp] theorem State.bootHub_fixed (b : BootIn) : (s.bootHub b).fixed = s.fixed := by simp [State.bootHub]
@[simp] theorem State.serviceOnly_fixed : s.serviceOnly.fixed = s.fixed := by simp [State.serviceOnly]

@[simp] theorem State.coldBoot_fixed (b : BootIn) (source : Nat) : (s.coldBoot b source).fixed = s.fixed := by
  simp [State.coldBoot]

@[simp] theorem State.restart_fixed (b : BootIn) (source : Nat) : (s.restart b source).fixed = s.fixed := by
  simp [State.restart]

@[simp] theorem execPowerOn_fixed (b : BootIn) : StaysFixed s (execPowerOn b s) := by simp [execPowerOn]

@[simp] theorem execSysReset_fixed (ns : Nat) (b : BootIn) : StaysFixed s (execSysReset ns b s) := by
  unfold execSysReset
  split
  · simp
  · split
    · exact fun _ stops => nomatch stops
    · simp

@[simp] theorem State.hardenRow_fixed (key : Nat) : (s.hardenRow key).fixed = s.fixed := by simp [State.hardenRow]
@[simp] theorem State.resoftRow_fixed (key : Nat) : (s.resoftRow key).fixed = s.fixed := by simp [State.resoftRow]
@[simp] theorem State.repairRows_fixed : s.repairRows.fixed = s.fixed := by simp [State.repairRows]

@[simp] theorem State.marginByte_fixed (swept : Bool) (n : Nat) : (s.marginByte swept n).2.fixed = s.fixed := by
  simp [State.marginByte]

@[simp] theorem State.marginPc_fixed (sweeps : Nat) : (s.marginPc sweeps).2.fixed = s.fixed := by simp [State.marginPc]

@[simp] theorem State.marginStack_fixed (n sweeps : Nat) : (s.marginStack n sweeps).fixed = s.fixed := by
  simp only [State.marginStack]
  split <;> simp

@[simp] theorem State.wholeJournal_fixed : s.wholeJournal.fixed = s.fixed := by
  unfold State.wholeJournal
  dsimp only
  refine (foldl_fixed ?_ _ _).trans ((foldl_fixed ?_ _ _).trans ((foldl_fixed ?_ _ _).trans ?_))
  · exact fun _ _ => rfl
  · exact fun _ _ => rfl
  · exact fun _ _ => rfl
  · rw [State.eraseAhead_fixed, State.eraseAhead_fixed]
    exact State.each_fixed _ _ _ fun _ _ => State.fault_fixed ..

@[simp] theorem State.afterJournal_fixed : s.afterJournal.fixed = s.fixed := by simp [State.afterJournal]
@[simp] theorem execJournalReadDone_fixed : StaysFixed s (execJournalReadDone s) := by simp [execJournalReadDone]
@[simp] theorem State.fallbackRecord_fixed : s.fallbackRecord.fixed = s.fixed := by simp [State.fallbackRecord]

@[simp] theorem execBringUpComplete_fixed : StaysFixed s (execBringUpComplete s) := by
  unfold execBringUpComplete
  (repeat' split) <;> simp


/-! ### Reset -/

@[simp] theorem State.resetMioter_fixed : s.resetMioter.fixed = s.fixed := by simp [State.resetMioter]
@[simp] theorem State.resetCp_fixed : s.resetCp.fixed = s.fixed := by simp [State.resetCp]
@[simp] theorem State.resetHubUnits_fixed : s.resetHubUnits.fixed = s.fixed := by simp [State.resetHubUnits]

@[simp] theorem State.resetHubRest_fixed (source : Nat) : (s.resetHubRest source).fixed = s.fixed := by
  simp [State.resetHubRest]

@[simp] theorem State.warmStart_fixed : s.warmStart.fixed = s.fixed := by simp [State.warmStart]
@[simp] theorem State.hubReset_fixed (source : Nat) : (s.hubReset source).fixed = s.fixed := by simp [State.hubReset]

@[simp] theorem State.deviceReset_fixed (b : BootIn) (source : Nat) : (s.deviceReset b source).fixed = s.fixed := by
  simp [State.deviceReset]

@[simp] theorem execFlushDone_fixed : StaysFixed s (execFlushDone s) := by simp [execFlushDone]

@[simp] theorem State.retainBy_fixed (cause : Nat) : (s.retainBy cause).fixed = s.fixed := by
  unfold State.retainBy
  split <;> simp

@[simp] theorem execPerstAssert_fixed (b : BootIn) : StaysFixed s (execPerstAssert b s) := by simp [execPerstAssert]
@[simp] theorem execPerstDeassert_fixed : StaysFixed s (execPerstDeassert s) := by simp [execPerstDeassert]
@[simp] theorem execLinkLoss_fixed : StaysFixed s (execLinkLoss s) := by simp [execLinkLoss]
@[simp] theorem State.scrubRetained_fixed : s.scrubRetained.fixed = s.fixed := by simp [State.scrubRetained]
@[simp] theorem execRetainTimeout_fixed : StaysFixed s (execRetainTimeout s) := by simp [execRetainTimeout]
@[simp] theorem execPowerLoss_fixed : StaysFixed s (execPowerLoss s) := by simp [execPowerLoss]

@[simp] theorem State.beginGrace_fixed (cause source : Nat) : (s.beginGrace cause source).fixed = s.fixed := by
  simp [State.beginGrace]

@[simp] theorem execWdgCpExpiry_fixed : StaysFixed s (execWdgCpExpiry s) := by simp [execWdgCpExpiry]

@[simp] theorem execWdgCpGraceEnd_fixed (b : BootIn) : StaysFixed s (execWdgCpGraceEnd b s) := by
  unfold execWdgCpGraceEnd
  split <;> simp

@[simp] theorem execWdgAonExpiry_fixed (b : BootIn) : StaysFixed s (execWdgAonExpiry b s) := by simp [execWdgAonExpiry]

@[simp] theorem execDenFault_fixed (cause den index : Nat) : StaysFixed s (execDenFault cause den index s) := by
  simp [execDenFault]

@[simp] theorem execDeviceFault_fixed (cause : Nat) (b : BootIn) : StaysFixed s (execDeviceFault cause b s) := by
  simp [execDeviceFault]

@[simp] theorem State.fatal_fixed (cause : Nat) (b : BootIn) : (s.fatal cause b).fixed = s.fixed := by simp [State.fatal]

@[simp] theorem execFatalFault_fixed (cause : Nat) (b : BootIn) : StaysFixed s (execFatalFault cause b s) := by
  simp [execFatalFault]

@[simp] theorem execPllLost_fixed (b : BootIn) : StaysFixed s (execPllLost b s) := by simp [execPllLost]

/-! ### TagTap -/

@[simp] theorem execTagUpdate_fixed : StaysFixed s (execTagUpdate s) := by simp [execTagUpdate]

@[simp] theorem execTagFlipRetry_fixed : StaysFixed s (execTagFlipRetry s) := by
  unfold execTagFlipRetry
  split <;> simp

@[simp] theorem execTechAreaCheck_fixed : StaysFixed s (execTechAreaCheck s) := by simp [execTechAreaCheck]
@[simp] theorem State.rfBegin_fixed : s.rfBegin.fixed = s.fixed := by simp [State.rfBegin]
@[simp] theorem State.rfOk_fixed (data : Bytes) : (s.rfOk data).fixed = s.fixed := by simp [State.rfOk]
@[simp] theorem State.rfErr_fixed (code : Nat) : (s.rfErr code).fixed = s.fixed := by simp [State.rfErr]

@[simp] theorem State.rfRead_fixed (limit block count : Nat) : (s.rfRead limit block count).fixed = s.fixed := by
  simp [State.rfRead]

@[simp] theorem State.rfWrite_fixed (limit block : Nat) (data : Bytes) : (s.rfWrite limit block data).fixed = s.fixed := by
  simp [State.rfWrite]

@[simp] theorem execInventory_fixed : StaysFixed s (execInventory s) := by simp [execInventory]
@[simp] theorem execStayQuiet_fixed : StaysFixed s (execStayQuiet s) := by simp [execStayQuiet]
@[simp] theorem execSelect_fixed : StaysFixed s (execSelect s) := by simp [execSelect]
@[simp] theorem execResetToReady_fixed : StaysFixed s (execResetToReady s) := by simp [execResetToReady]

@[simp] theorem execReadSingleBlock_fixed (block : Nat) : StaysFixed s (execReadSingleBlock block s) := by
  simp [execReadSingleBlock]

@[simp] theorem execWriteSingleBlock_fixed (block : Nat) (data : Bytes) : StaysFixed s (execWriteSingleBlock block data s) := by
  simp [execWriteSingleBlock]

@[simp] theorem execReadMultipleBlocks_fixed (block count : Nat) : StaysFixed s (execReadMultipleBlocks block count s) := by
  simp [execReadMultipleBlocks]

@[simp] theorem execExtendedReadSingle_fixed (block : Nat) : StaysFixed s (execExtendedReadSingle block s) := by
  simp [execExtendedReadSingle]

@[simp] theorem execExtendedWriteSingle_fixed (block : Nat) (data : Bytes) :
    StaysFixed s (execExtendedWriteSingle block data s) := by
  simp [execExtendedWriteSingle]

@[simp] theorem execExtendedReadMultiple_fixed (block count : Nat) : StaysFixed s (execExtendedReadMultiple block count s) := by
  simp [execExtendedReadMultiple]

@[simp] theorem State.rfInfo_fixed (blocks width : Nat) : (s.rfInfo blocks width).fixed = s.fixed := by simp [State.rfInfo]
@[simp] theorem execGetSystemInformation_fixed : StaysFixed s (execGetSystemInformation s) := by simp [execGetSystemInformation]

@[simp] theorem execExtendedGetSystemInfo_fixed : StaysFixed s (execExtendedGetSystemInfo s) := by
  simp [execExtendedGetSystemInfo]

@[simp] theorem execRfSessionEnd_fixed : StaysFixed s (execRfSessionEnd s) := by simp [execRfSessionEnd]
@[simp] theorem State.setInstr_fixed (i : TapInstr) : (s.setInstr i).fixed = s.fixed := by simp [State.setInstr]
@[simp] theorem State.ownBalls_fixed (i : TapInstr) : (s.ownBalls i).fixed = s.fixed := by simp [State.ownBalls]
@[simp] theorem execExtest_fixed (cells : W64) : StaysFixed s (execExtest cells s) := by simp [execExtest]
@[simp] theorem execClamp_fixed : StaysFixed s (execClamp s) := by simp [execClamp]
@[simp] theorem execHighz_fixed : StaysFixed s (execHighz s) := by simp [execHighz]

@[simp] theorem execSamplePreload_fixed (balls cells : W64) : StaysFixed s (execSamplePreload balls cells s) := by
  simp [execSamplePreload]

@[simp] theorem execIdcode_fixed : StaysFixed s (execIdcode s) := by simp [execIdcode]
@[simp] theorem execBypass_fixed : StaysFixed s (execBypass s) := by simp [execBypass]
@[simp] theorem execTestLogicReset_fixed : StaysFixed s (execTestLogicReset s) := by simp [execTestLogicReset]

/-! ### Host -/

@[simp] theorem State.hold_fixed (t : HeldTlp) : (s.hold t).fixed = s.fixed := by simp [State.hold]

@[simp] theorem State.holdWrite_fixed (k : HeldKind) (fn off : Nat) (data : Bytes) :
    (s.holdWrite k fn off data).fixed = s.fixed := by
  simp [State.holdWrite]

@[simp] theorem State.holdRead_fixed (k : HeldKind) (fn off len : Nat) : (s.holdRead k fn off len).fixed = s.fixed := by
  simp [State.holdRead]

@[simp] theorem State.memWrite_fixed (k : HeldKind) (fn off : Nat) (data : Bytes) (f : State → State) (h : ∀ v, (f v).fixed =
    v.fixed) :
    (s.memWrite k fn off data f).fixed = s.fixed := by
  simp [State.memWrite, h]

@[simp] theorem State.memRead_fixed (k : HeldKind) (fn off len : Nat) (f : State → State) (h : ∀ v, (f v).fixed = v.fixed) :
    (s.memRead k fn off len f).fixed = s.fixed := by
  simp [State.memRead, h]

@[simp] theorem State.accessFault_fixed (cause fn w off : Nat) : (s.accessFault cause fn w off).fixed = s.fixed := by
  simp [State.accessFault]

@[simp] theorem State.sendRead_fixed (x : PendXlate) (addr : Nat) : (s.sendRead x addr).fixed = s.fixed := by
  simp [State.sendRead]

@[simp] theorem State.sendWrite_fixed (f addr : Nat) (data : Bytes) : (s.sendWrite f addr data).fixed = s.fixed := by
  simp [State.sendWrite]

@[simp] theorem State.translate_fixed (x : PendXlate) : (s.translate x).fixed = s.fixed := by
  unfold State.translate
  (repeat' split) <;> simp

@[simp] theorem State.issueAcc_fixed (x : PendXlate) : (s.issueAcc x).fixed = s.fixed := by simp [State.issueAcc]

@[simp] theorem State.issueRead_fixed (f : Nat) (iss : Issuer) (addr len : Nat) :
    (s.issueRead f iss addr len).fixed = s.fixed := by
  simp [State.issueRead]

@[simp] theorem State.issueWrite_fixed (f : Nat) (iss : Issuer) (addr : Nat) (data : Bytes) :
    (s.issueWrite f iss addr data).fixed = s.fixed := by
  simp [State.issueWrite]

@[simp] theorem State.drainWaiting_fixed (fuel : Nat) : (s.drainWaiting fuel).fixed = s.fixed := by
  induction fuel generalizing s with
  | zero => rfl
  | succ n ih =>
    unfold State.drainWaiting
    (repeat' split) <;> simp [ih]

@[simp] theorem State.drainAll_fixed : s.drainAll.fixed = s.fixed := by simp [State.drainAll]

@[simp] theorem State.endPiece_fixed (iss : Issuer) (off total : Nat) (r : Bytes ⊕ HostFail) :
    (s.endPiece iss off total r).2.fixed = s.fixed := by
  simp only [State.endPiece]
  split <;> simp

@[simp] theorem State.drained_fixed (f : Nat) : (s.drained f).fixed = s.fixed := by simp [State.drained]

@[simp] theorem State.takeRead_fixed (tag : Nat) (arrived : Bool) : (s.takeRead tag arrived).2.fixed = s.fixed := by
  unfold State.takeRead
  split <;> simp

@[simp] theorem State.writeBack_fixed (k : Nat) : (s.writeBack k).fixed = s.fixed := by simp [State.writeBack]

@[simp] theorem State.fetchRing_fixed (fuel k : Nat) : (s.fetchRing fuel k).fixed = s.fixed := by
  induction fuel generalizing s with
  | zero => rfl
  | succ n ih =>
    unfold State.fetchRing
    dsimp only
    split <;> simp [ih]

@[simp] theorem State.readBack_fixed (k : Nat) : (s.readBack k).fixed = s.fixed := by simp [State.readBack]
@[simp] theorem State.kickRing_fixed (k : Nat) : (s.kickRing k).fixed = s.fixed := by simp [State.kickRing]
@[simp] theorem State.takeFront_fixed (k : Nat) : (s.takeFront k).fixed = s.fixed := by simp [State.takeFront]

@[simp] theorem State.ringRead_fixed (k first n : Nat) (r : Bytes ⊕ HostFail) : (s.ringRead k first n r).fixed = s.fixed := by
  unfold State.ringRead
  split <;> simp

@[simp] theorem State.dbDrop_fixed (fn id cause : Nat) : (s.dbDrop fn id cause).fixed = s.fixed := by simp [State.dbDrop]

@[simp] theorem State.putInline_fixed (fn id : Nat) (data : Bytes) : (s.putInline fn id data).fixed = s.fixed := by
  simp [State.putInline]

@[simp] theorem State.inlineWrite_fixed (fn id off : Nat) (data : Bytes) : (s.inlineWrite fn id off data).fixed = s.fixed := by
  simp [State.inlineWrite]

@[simp] theorem State.tailWrite_fixed (fn id off : Nat) (data : Bytes) : (s.tailWrite fn id off data).fixed = s.fixed := by
  simp [State.tailWrite]

@[simp] theorem State.postLost_fixed (f : Nat) : (s.postLost f).fixed = s.fixed := by simp [State.postLost]

@[simp] theorem State.headWrite_fixed (fn id off : Nat) (data : Bytes) : (s.headWrite fn id off data).fixed = s.fixed := by
  simp [State.headWrite]

@[simp] theorem State.doorbell_fixed (fn off : Nat) (data : Bytes) : (s.doorbell fn off data).fixed = s.fixed := by
  unfold State.doorbell
  split <;> simp

@[simp] theorem execInlineDoorbell_fixed (fn off : Nat) (data : Bytes) : StaysFixed s (execInlineDoorbell fn off data s) := by
  simp [execInlineDoorbell]

@[simp] theorem execTailDoorbell_fixed (fn off : Nat) (data : Bytes) : StaysFixed s (execTailDoorbell fn off data s) := by
  simp [execTailDoorbell]

@[simp] theorem execCqHeadDoorbell_fixed (fn off : Nat) (data : Bytes) : StaysFixed s (execCqHeadDoorbell fn off data s) := by
  simp [execCqHeadDoorbell]

@[simp] theorem execHeadWriteBack_fixed (ring : Nat) : StaysFixed s (execHeadWriteBack ring s) := by simp [execHeadWriteBack]
@[simp] theorem State.unmask_fixed (f v : Nat) : (s.unmask f v).fixed = s.fixed := by simp [State.unmask]
@[simp] theorem execMsixUnmask_fixed (fn vec : Nat) : StaysFixed s (execMsixUnmask fn vec s) := by simp [execMsixUnmask]

@[simp] theorem State.revoke_fixed (iss : Issuer) : (s.revoke iss).fixed = s.fixed := by
  unfold State.revoke
  split <;> simp

@[simp] theorem State.bmeClear_fixed (f : Nat) : (s.bmeClear f).fixed = s.fixed := by simp [State.bmeClear]
@[simp] theorem execBmeClear_fixed (fn : Nat) : StaysFixed s (execBmeClear fn s) := by simp [execBmeClear]
@[simp] theorem State.postHeld_fixed (f : Nat) : (s.postHeld f).fixed = s.fixed := by simp [State.postHeld]
@[simp] theorem State.postVectors_fixed (f : Nat) : (s.postVectors f).fixed = s.fixed := by simp [State.postVectors]
@[simp] theorem State.bmeSet_fixed (f : Nat) (ats : Bool) : (s.bmeSet f ats).fixed = s.fixed := by simp [State.bmeSet]
@[simp] theorem execBmeSet_fixed (fn : Nat) (cfg : PcieCfg) : StaysFixed s (execBmeSet fn cfg s) := by simp [execBmeSet]
@[simp] theorem State.vfClear_fixed : s.vfClear.fixed = s.fixed := by simp [State.vfClear]
@[simp] theorem State.pfFlr_fixed : s.pfFlr.fixed = s.fixed := by simp [State.pfFlr]
@[simp] theorem execFlr_fixed (fn : Nat) : StaysFixed s (execFlr fn s) := by simp [execFlr]
@[simp] theorem execVfEnableClear_fixed (byFlr : Bool) : StaysFixed s (execVfEnableClear byFlr s) := by simp [execVfEnableClear]
@[simp] theorem State.drainEnd_fixed (f : Nat) : (s.drainEnd f).fixed = s.fixed := by simp [State.drainEnd]
@[simp] theorem execFlrDrainTimeout_fixed (fn : Nat) : StaysFixed s (execFlrDrainTimeout fn s) := by simp [execFlrDrainTimeout]

@[simp] theorem execAtsInvalidate_fixed (fn itag iova log2 : Nat) : StaysFixed s (execAtsInvalidate fn itag iova log2 s) := by
  simp [execAtsInvalidate]


/-! ### Pool -/

@[simp] theorem State.writeBag_fixed (r : Req) (b : Bag) : (s.writeBag r b).fixed = s.fixed := by
  simp only [State.writeBag]
  split <;> simp

@[simp] theorem State.freeArr_fixed (b : Bag) : (s.freeArr b).fixed = s.fixed := by
  unfold State.freeArr
  split <;> simp

@[simp] theorem State.closeBag_fixed (id smp grp ent : Nat) : (s.closeBag id smp grp ent).fixed = s.fixed := by
  unfold State.closeBag
  split <;> simp

@[simp] theorem State.finishBags_fixed (id : Nat) : (s.finishBags id).fixed = s.fixed := by
  unfold State.finishBags
  split <;> simp

@[simp] theorem State.addPart_fixed (id smp grp ent : Nat) (p : BagPart) : (s.addPart id smp grp ent p).fixed = s.fixed := by
  simp [State.addPart]


/-! ### Tasks -/

@[simp] theorem State.steer_fixed (r : Req) (feat : Bytes) : (s.steer r feat).fixed = s.fixed := by
  unfold State.steer
  split <;> simp

@[simp] theorem State.beginFeatures_fixed (r : Req) : (s.beginFeatures r).fixed = s.fixed := by
  unfold State.beginFeatures
  split <;> simp

@[simp] theorem State.useCredit_fixed (d r : Nat) : (s.useCredit d r).fixed = s.fixed := by simp [State.useCredit]
@[simp] theorem State.takeRequest_fixed (d ring : Nat) : (s.takeRequest d ring).fixed = s.fixed := by simp [State.takeRequest]
@[simp] theorem State.admitHead_fixed (d ring : Nat) : (s.admitHead d ring).fixed = s.fixed := by simp [State.admitHead]

@[simp] theorem State.admitNext_fixed : s.admitNext.fixed = s.fixed := by
  unfold State.admitNext
  dsimp only
  split
  · split <;> simp
  · simp

@[simp] theorem execRequestAdmit_fixed : StaysFixed s (execRequestAdmit s) := by simp [execRequestAdmit]

@[simp] theorem State.failFeatures_fixed (r : Req) (status : Nat) : (s.failFeatures r status).fixed = s.fixed := by
  simp [State.failFeatures]

@[simp] theorem State.readFeatures_fixed (r : Req) : (s.readFeatures r).fixed = s.fixed := by simp [State.readFeatures]

@[simp] theorem execFeatureReadDone_fixed (req : Nat) : StaysFixed s (execFeatureReadDone req s) := by
  unfold execFeatureReadDone
  (repeat' split) <;> simp

@[simp] theorem State.bindTiles_fixed (id : Nat) (ts : List Nat) : (s.bindTiles id ts).fixed = s.fixed := by
  simp [State.bindTiles]

@[simp] theorem State.placeOn_fixed (r : Req) (ts : List Nat) : (s.placeOn r ts).fixed = s.fixed := by simp [State.placeOn]
@[simp] theorem State.raiseDemand_fixed (q : Req) (n : Nat) : (s.raiseDemand q n).fixed = s.fixed := by simp [State.raiseDemand]

@[simp] theorem execRequestPlace_fixed (den : Nat) : StaysFixed s (execRequestPlace den s) := by
  unfold execRequestPlace
  (repeat' split) <;> simp

@[simp] theorem State.startTask_fixed (r : Req) : (s.startTask r).fixed = s.fixed := by simp [State.startTask]

@[simp] theorem execTaskStart_fixed (req : Nat) : StaysFixed s (execTaskStart req s) := by
  unfold execTaskStart
  split <;> simp

@[simp] theorem execTileWake_fixed (tile : Nat) : StaysFixed s (execTileWake tile s) := by simp [execTileWake]
@[simp] theorem State.reportEnd_fixed (t : Nat) (r : Req) : (s.reportEnd t r).fixed = s.fixed := by simp [State.reportEnd]

@[simp] theorem execTileEndReport_fixed (tile : Nat) : StaysFixed s (execTileEndReport tile s) := by
  unfold execTileEndReport
  split <;> simp

@[simp] theorem State.abortDone_fixed (r : Req) : (s.abortDone r).fixed = s.fixed := by
  unfold State.abortDone
  split <;> simp

@[simp] theorem execTaskAbortDone_fixed (req : Nat) : StaysFixed s (execTaskAbortDone req s) := by
  unfold execTaskAbortDone
  split <;> simp

@[simp] theorem execGuardExpiry_fixed (tile : Nat) : StaysFixed s (execGuardExpiry tile s) := by
  unfold execGuardExpiry
  split <;> simp

@[simp] theorem execTileDoze_fixed (tile : Nat) : StaysFixed s (execTileDoze tile s) := by simp [execTileDoze]

@[simp] theorem execTilePrepareDone_fixed (tile : Nat) : StaysFixed s (execTilePrepareDone tile s) := by
  simp [execTilePrepareDone]

@[simp] theorem State.yieldTask_fixed (r : Req) : (s.yieldTask r).fixed = s.fixed := by simp [State.yieldTask]

@[simp] theorem execTileParked_fixed (req : Nat) : StaysFixed s (execTileParked req s) := by
  unfold execTileParked
  split <;> simp

@[simp] theorem execYieldCancel_fixed (req : Nat) : StaysFixed s (execYieldCancel req s) := by
  unfold execYieldCancel
  split <;> simp

@[simp] theorem State.postSem_fixed (t n : Nat) : (s.postSem t n).fixed = s.fixed := by simp [State.postSem]

@[simp] theorem State.postDue_fixed (r : Req) (decl : HistDecl) : (s.postDue r decl).fixed = s.fixed := by
  unfold State.postDue
  split <;> simp

@[simp] theorem State.resumeTask_fixed (r : Req) : (s.resumeTask r).fixed = s.fixed := by
  simp only [State.resumeTask]
  split <;> simp

@[simp] theorem execTaskResume_fixed (req : Nat) : StaysFixed s (execTaskResume req s) := by
  unfold execTaskResume
  split <;> simp


/-! ### Mioter -/

@[simp] theorem execMioTokenBoundary_fixed (quad : Nat) : StaysFixed s (execMioTokenBoundary quad s) := by
  simp [execMioTokenBoundary]

@[simp] theorem execMioInputWord_fixed (quad : Nat) : StaysFixed s (execMioInputWord quad s) := by simp [execMioInputWord]

@[simp] theorem State.peExec_fixed (q p : Nat) (t : Nat × Nat) (kind : PeKind) (ins : Nat) (dirs : List Nat) (f : PeIn → Option
    (W32 × Bool)) :
    (s.peExec q p t kind ins dirs f).fixed = s.fixed := by
  simp only [State.peExec]
  split <;> simp

@[simp] theorem State.peRow_fixed (q p op : Nat) (kind : PeKind) (useA useB : Bool) (f : PeIn → Option (W32 × Bool)) :
    (s.peRow q p op kind useA useB f).fixed = s.fixed := by
  simp only [State.peRow]
  (repeat' split) <;> simp

@[simp] theorem State.peAlu_fixed (q p op : Nat) (f : W32 → W32 → W32) : (s.peAlu q p op f).fixed = s.fixed := by
  simp [State.peAlu]

@[simp] theorem execPeNop_fixed (quad pe : Nat) : StaysFixed s (execPeNop quad pe s) := by simp [execPeNop]
@[simp] theorem execPeMov_fixed (quad pe : Nat) : StaysFixed s (execPeMov quad pe s) := by simp [execPeMov]
@[simp] theorem execPeAdd_fixed (quad pe : Nat) : StaysFixed s (execPeAdd quad pe s) := by simp [execPeAdd]
@[simp] theorem execPeSub_fixed (quad pe : Nat) : StaysFixed s (execPeSub quad pe s) := by simp [execPeSub]
@[simp] theorem execPeAnd_fixed (quad pe : Nat) : StaysFixed s (execPeAnd quad pe s) := by simp [execPeAnd]
@[simp] theorem execPeOr_fixed (quad pe : Nat) : StaysFixed s (execPeOr quad pe s) := by simp [execPeOr]
@[simp] theorem execPeXor_fixed (quad pe : Nat) : StaysFixed s (execPeXor quad pe s) := by simp [execPeXor]
@[simp] theorem execPeShl_fixed (quad pe : Nat) : StaysFixed s (execPeShl quad pe s) := by simp [execPeShl]
@[simp] theorem execPeShr_fixed (quad pe : Nat) : StaysFixed s (execPeShr quad pe s) := by simp [execPeShr]
@[simp] theorem execPeSra_fixed (quad pe : Nat) : StaysFixed s (execPeSra quad pe s) := by simp [execPeSra]
@[simp] theorem execPeMul_fixed (quad pe : Nat) : StaysFixed s (execPeMul quad pe s) := by simp [execPeMul]
@[simp] theorem execPeMulh_fixed (quad pe : Nat) : StaysFixed s (execPeMulh quad pe s) := by simp [execPeMulh]
@[simp] theorem execPeMinu_fixed (quad pe : Nat) : StaysFixed s (execPeMinu quad pe s) := by simp [execPeMinu]
@[simp] theorem execPeMaxu_fixed (quad pe : Nat) : StaysFixed s (execPeMaxu quad pe s) := by simp [execPeMaxu]
@[simp] theorem execPeCmplt_fixed (quad pe : Nat) : StaysFixed s (execPeCmplt quad pe s) := by simp [execPeCmplt]
@[simp] theorem execPeCmpeq_fixed (quad pe : Nat) : StaysFixed s (execPeCmpeq quad pe s) := by simp [execPeCmpeq]
@[simp] theorem execPeSel_fixed (quad pe : Nat) : StaysFixed s (execPeSel quad pe s) := by simp [execPeSel]
@[simp] theorem execPeHash_fixed (quad pe : Nat) : StaysFixed s (execPeHash quad pe s) := by simp [execPeHash]
@[simp] theorem execPeCrc_fixed (quad pe : Nat) : StaysFixed s (execPeCrc quad pe s) := by simp [execPeCrc]
@[simp] theorem execPeRange_fixed (quad pe : Nat) : StaysFixed s (execPeRange quad pe s) := by simp [execPeRange]
@[simp] theorem execPeLut_fixed (quad pe : Nat) : StaysFixed s (execPeLut quad pe s) := by simp [execPeLut]
@[simp] theorem execPeBkt_fixed (quad pe : Nat) : StaysFixed s (execPeBkt quad pe s) := by simp [execPeBkt]
@[simp] theorem execPeEmit_fixed (quad pe : Nat) : StaysFixed s (execPeEmit quad pe s) := by simp [execPeEmit]
@[simp] theorem execPeBrf_fixed (quad pe : Nat) : StaysFixed s (execPeBrf quad pe s) := by simp [execPeBrf]

@[simp] theorem State.passRecord_fixed (id : Nat) (rcd : Bytes) : (s.passRecord id rcd).fixed = s.fixed := by
  simp [State.passRecord]

@[simp] theorem State.passLane_fixed (q lane id : Nat) : (s.passLane q lane id).fixed = s.fixed := by
  simp only [State.passLane]
  (repeat' split) <;> simp

@[simp] theorem execMioOutputPass_fixed (quad : Nat) : StaysFixed s (execMioOutputPass quad s) := by
  unfold execMioOutputPass
  split <;> simp

@[simp] theorem State.mioTime_fixed (id : Nat) : (s.mioTime id).fixed = s.fixed := by
  unfold State.mioTime
  split <;> simp

@[simp] theorem State.loadBegin_fixed (q : Nat) : (s.loadBegin q).fixed = s.fixed := by
  unfold State.loadBegin
  split <;> simp

@[simp] theorem State.closeToken_fixed (q : Nat) (t : MioTok) : (s.closeToken q t).fixed = s.fixed := by simp [State.closeToken]

@[simp] theorem execMioTokenClose_fixed (quad : Nat) : StaysFixed s (execMioTokenClose quad s) := by
  unfold execMioTokenClose
  split <;> simp

@[simp] theorem State.dropSlot_fixed (q c cause status : Nat) : (s.dropSlot q c cause status).fixed = s.fixed := by
  refine (State.each_fixed _ _ _ fun u id => ?_).trans (by simp)
  dsimp only
  split <;> simp

@[simp] theorem execMioTokenTimeout_fixed (quad : Nat) : StaysFixed s (execMioTokenTimeout quad s) := by
  unfold execMioTokenTimeout
  split <;> simp

@[simp] theorem execMioParityError_fixed (quad slot : Nat) : StaysFixed s (execMioParityError quad slot s) := by
  simp [execMioParityError]

@[simp] theorem execSampleRecord_fixed : StaysFixed s (execSampleRecord s) := by simp [execSampleRecord]
@[simp] theorem execSampleRestart_fixed : StaysFixed s (execSampleRestart s) := by simp [execSampleRestart]

/-! ### Hoard -/

@[simp] theorem State.queueHbm_fixed (a : Nat) (write : Bool) : (s.queueHbm a write).fixed = s.fixed := by simp [State.queueHbm]

@[simp] theorem State.writeLineBack_fixed (line : HLine) : (s.writeLineBack line).fixed = s.fixed := by
  simp [State.writeLineBack]

@[simp] theorem State.evict_fixed (k : Nat) : (s.evict k).fixed = s.fixed := by
  unfold State.evict
  split <;> simp

theorem State.placeLine_fixed (line : HLine) {y : State} (h : (s.placeLine line) = some y) : y.fixed = s.fixed := by
  unfold State.placeLine at h
  dsimp only at h
  split at h
  · cases h; simp
  · cases h

@[simp] theorem State.countFor_fixed (d : Option Nat) (c : Nat) : (s.countFor d c).fixed = s.fixed := by
  unfold State.countFor
  split <;> simp

theorem State.touchLine_fixed (d : Option Nat) (a : Nat) (fill write bill : Bool) {y : State} (h : (s.touchLine d a fill write
    bill) = some y) :
    y.fixed = s.fixed := by
  unfold State.touchLine at h
  split at h
  · cases h; rfl
  · split at h
    · cases h; simp
    · split at h
      · dsimp only at h
        split_ifs at h
        · exact (State.placeLine_fixed _ _ h).trans (by simp)
        · exact (State.placeLine_fixed _ _ h).trans (by simp)
        · cases h; simp
        · cases h; simp
      · cases h; simp

theorem State.touchLines_fixed (d : Option Nat) (fill write bill : Bool) (lines : List Nat) {y : State} (h : (s.touchLines d
    fill write bill lines) = some y) :
    y.fixed = s.fixed := by
  induction lines generalizing s with
  | nil => cases h; rfl
  | cons a rest ih =>
    unfold State.touchLines at h
    split at h
    next touched => exact (ih _ h).trans (State.touchLine_fixed _ _ _ _ _ _ touched)
    · cases h

@[simp] theorem State.postUpd_fixed (d r : Nat) (irq : Bool) (e : Bytes) : (s.postUpd d r irq e).fixed = s.fixed := by
  simp [State.postUpd]

@[simp] theorem State.updCheck_fixed (d r : Nat) : (s.updCheck d r).fixed = s.fixed := by
  unfold State.updCheck
  split <;> simp

@[simp] theorem State.commitOne_fixed (x : RowDir) (p : Nat × HLine) : (s.commitOne x p).fixed = s.fixed := by
  simp [State.commitOne]

@[simp] theorem State.commitRow_fixed (x : RowDir) : (s.commitRow x).fixed = s.fixed := by simp [State.commitRow]

@[simp] theorem State.answer_fixed (dst : HDst) (data : Bytes) (poison : Bool) :
    (s.answer dst data poison).fixed = s.fixed := by
  unfold State.answer
  split <;> simp

theorem State.reach_fixed (r : HReq) (fill write : Bool) {y : State} (h : (s.reach r fill write) = some y) :
    y.fixed = s.fixed := by
  unfold State.reach at h
  split at h
  · cases h; simp
  · exact State.touchLines_fixed _ _ _ _ _ _ h

@[simp] theorem State.applyAtomic_fixed (r : HReq) (f : Bytes → Bytes) (ret : Bool) :
    (s.applyAtomic r f ret).fixed = s.fixed := by
  simp [State.applyAtomic]

theorem State.serveReq_fixed (r : HReq) {y : State} (h : (s.serveReq r) = some y) : y.fixed = s.fixed := by
  unfold State.serveReq at h
  split at h
  case h_6 => cases h; split <;> simp
  all_goals
    obtain ⟨u, reached, rfl⟩ := Option.map_eq_some_iff.1 h
    simp [State.reach_fixed _ _ _ _ reached]

@[simp] theorem State.askHoard_fixed (port : Nat) (r : HReq) : (s.askHoard port r).fixed = s.fixed := by simp [State.askHoard]
@[simp] theorem State.popPort_fixed (slice p : Nat) : (s.popPort slice p).fixed = s.fixed := by simp [State.popPort]

theorem State.nextServed_fixed (slice : Nat) {y : State} {u} (h : (s.nextServed slice) = some (u, y)) : y.fixed = s.fixed := by
  obtain ⟨p, -, served⟩ := List.exists_of_findSome?_eq_some h
  split at served
  · obtain ⟨t, req, pair⟩ := Option.map_eq_some_iff.1 served
    cases pair
    exact (State.serveReq_fixed _ _ req).trans (by simp)
  · cases served

@[simp] theorem State.sliceRow_fixed (slice : Nat) (kind : HKind → Bool) : (s.sliceRow slice kind).fixed = s.fixed := by
  unfold State.sliceRow
  split
  · split
    next served =>
      split
      · exact State.nextServed_fixed _ _ served
      · rfl
    · rfl
  · rfl

@[simp] theorem State.hoardEcc_fixed (slice ecc : Nat) : (s.hoardEcc slice ecc).fixed = s.fixed := by
  unfold State.hoardEcc
  (repeat' split) <;> simp

@[simp] theorem execHoardRequest_fixed (slice ecc : Nat) : StaysFixed s (execHoardRequest slice ecc s) := by
  simp [execHoardRequest]

@[simp] theorem execHoardAdd_fixed (slice : Nat) : StaysFixed s (execHoardAdd slice s) := by simp [execHoardAdd]
@[simp] theorem execHoardMax_fixed (slice : Nat) : StaysFixed s (execHoardMax slice s) := by simp [execHoardMax]
@[simp] theorem execHoardMin_fixed (slice : Nat) : StaysFixed s (execHoardMin slice s) := by simp [execHoardMin]
@[simp] theorem execCas64_fixed (slice : Nat) : StaysFixed s (execCas64 slice s) := by simp [execCas64]
@[simp] theorem execSwap64_fixed (slice : Nat) : StaysFixed s (execSwap64 slice s) := by simp [execSwap64]
@[simp] theorem execRowCommit_fixed (slice : Nat) : StaysFixed s (execRowCommit slice s) := by simp [execRowCommit]

@[simp] theorem State.applyWay_fixed (w : Nat) (m : WayMode × Nat) : (s.applyWay w m).fixed = s.fixed := by
  simp [State.applyWay]

@[simp] theorem execWayChangeDone_fixed (way : Nat) : StaysFixed s (execWayChangeDone way s) := by
  unfold execWayChangeDone
  split <;> simp

@[simp] theorem execPinRefillDone_fixed (table : Nat) : StaysFixed s (execPinRefillDone table s) := by simp [execPinRefillDone]

/-! ### HbmOps -/

@[simp] theorem State.eccRead_fixed (a : Nat) (ws corr unc : List Nat) : (s.eccRead a ws corr unc).fixed = s.fixed := by
  simp [State.eccRead]

@[simp] theorem State.serveHbmRead_fixed (a ecc : Nat) : (s.serveHbmRead a ecc).fixed = s.fixed := by simp [State.serveHbmRead]

@[simp] theorem State.serveHbmWrite_fixed (a : Nat) : (s.serveHbmWrite a).fixed = s.fixed := by
  unfold State.serveHbmWrite
  (repeat' split) <;> simp

@[simp] theorem State.keepRow_fixed (a : Nat) (rest : List HbmAcc) : (s.keepRow a rest).fixed = s.fixed := by
  simp [State.keepRow]

@[simp] theorem execHbmAccess_fixed (pc ecc : Nat) : StaysFixed s (execHbmAccess pc ecc s) := by
  simp only [execHbmAccess]
  split <;> simp

@[simp] theorem execHbmScrubRead_fixed (stack ecc : Nat) : StaysFixed s (execHbmScrubRead stack ecc s) := by
  simp [execHbmScrubRead]

@[simp] theorem execHbmRowRepair_fixed (stack : Nat) : StaysFixed s (execHbmRowRepair stack s) := by
  simp only [execHbmRowRepair]
  split <;> simp

@[simp] theorem State.rowRead_fixed (key : Nat) : (s.rowRead key).fixed = s.fixed := by simp [State.rowRead]

@[simp] theorem execHbmRepairDone_fixed (stack : Nat) : StaysFixed s (execHbmRepairDone stack s) := by
  unfold execHbmRepairDone
  split <;> simp


/-! ### ForagerOps -/

@[simp] theorem State.storeRecord_fixed (q : Req) (e : Nat) (b : Bytes) : (s.storeRecord q e b).fixed = s.fixed := by
  simp [State.storeRecord]

@[simp] theorem State.arrive_fixed (q : Req) (b : Bytes) : (s.arrive q b).fixed = s.fixed := by
  unfold State.arrive
  (repeat' split) <;> simp

@[simp] theorem execForagerRecordArrive_fixed : StaysFixed s (execForagerRecordArrive s) := by
  unfold execForagerRecordArrive
  (repeat' split) <;> simp

@[simp] theorem State.issueSlot_fixed (d e : Nat) (x : FRec) (kind : ReadKind) (a len : Nat) :
    (s.issueSlot d e x kind a len).fixed = s.fixed := by
  simp [State.issueSlot]

theorem State.trySlot_fixed (d : Nat) (x : FRec) (kind : ReadKind) (a len : Nat) {y : State} (h : (s.trySlot d x kind a len) =
    some y) :
    y.fixed = s.fixed := by
  unfold State.trySlot at h
  split at h
  · split_ifs at h
    cases h; simp
  · cases h

@[simp] theorem State.histWrite_fixed (q : Req) (decl : HistDecl) (off : Nat) (bs : Bytes) (poison : Bool) :
    (s.histWrite q decl off bs poison).fixed = s.fixed := by
  simp [State.histWrite]

@[simp] theorem State.placeEmb_fixed (q : Req) (x : FRec) (shard : Nat) (v : List W32) (poison : Bool) :
    (s.placeEmb q x shard v poison).fixed = s.fixed := by
  unfold State.placeEmb
  split <;> simp

@[simp] theorem State.takeRow_fixed (x : FRec) (shard : Nat) (remote : Bool) (v : List W32) (poison : Bool) :
    (s.takeRow x shard remote v poison).fixed = s.fixed := by
  unfold State.takeRow
  split <;> simp

@[simp] theorem State.failLookup_fixed (id : Nat) : (s.failLookup id).fixed = s.fixed := by
  simp only [State.failLookup]
  (repeat' split) <;> simp

@[simp] theorem State.ask_fixed (m : Bytes) (x : Xact) (req : Nat) : (s.ask m x req).fixed = s.fixed := by
  unfold State.ask
  split
  next sent => simp [State.send_fixed _ _ sent]
  · simp

@[simp] theorem State.newTid_fixed : s.newTid.2.fixed = s.fixed := by simp [State.newTid]

@[simp] theorem State.askRow_fixed (q : Req) (x : FRec) (t : Table) (k : Nat) : (s.askRow q x t k).fixed = s.fixed := by
  simp [State.askRow]

@[simp] theorem State.askSlices_fixed (q : Req) (x : FRec) (t : Table) : (s.askSlices q x t).fixed = s.fixed := by
  simp [State.askSlices]

@[simp] theorem State.askPool_fixed (q : Req) (b : Bag) (slot k : Nat) (rows : List (Nat × W32)) (div : Nat) :
    (s.askPool q b slot k rows div).fixed = s.fixed := by
  simp [State.askPool]

@[simp] theorem State.dropRecs_fixed (ids : List Nat) : (s.dropRecs ids).fixed = s.fixed := by simp [State.dropRecs]

theorem State.readHere_fixed (q : Req) (x : FRec) (t : Table) (kind : ReadKind) {y : State} (h : (s.readHere q x t kind) = some
    y) :
    y.fixed = s.fixed := by
  unfold State.readHere at h
  extract_lets s' at h
  have counted : s'.fixed = s.fixed := by unfold s'; split <;> simp
  split at h
  · cases h; simp [counted]
  · split_ifs at h
    · exact (State.trySlot_fixed _ _ _ _ _ _ h).trans (by simp [counted])
    · cases h; simp

@[simp] theorem State.prefetchUsed_fixed (q : Req) (x : FRec) (t : Table) : (s.prefetchUsed q x t).fixed = s.fixed := by
  unfold State.prefetchUsed
  split <;> simp

theorem State.issueRemote_fixed (q : Req) (x : FRec) (t : Table) (k : Nat) {y : State} (h : (s.issueRemote q x t k) = some y) :
    y.fixed = s.fixed := by
  unfold State.issueRemote at h
  split_ifs at h
  · cases h; simp
  · dsimp only at h
    split at h
    · cases h
    · split_ifs at h
      cases h; simp

theorem State.issueCol_fixed (q : Req) (x : FRec) (t : Table) {y : State} (h : (s.issueCol q x t) = some y) :
    y.fixed = s.fixed := by
  unfold State.issueCol at h
  extract_lets cat others s1 at h
  have first : ∀ u, s1 = some u → u.fixed = s.fixed := by
    intro u read
    unfold s1 at read
    split_ifs at read
    · exact State.readHere_fixed _ _ _ _ _ read
    all_goals cases read; simp
  split_ifs at h
  all_goals
    obtain ⟨u, read, rfl⟩ := Option.map_eq_some_iff.1 h
    simp [first u read]

theorem State.issueDemand_fixed (q : Req) (x : FRec) {y : State} (h : (s.issueDemand q x) = some y) : y.fixed = s.fixed := by
  unfold State.issueDemand at h
  dsimp only at h
  split at h
  · exact State.issueCol_fixed _ _ _ _ h
  · split at h
    · exact State.issueRemote_fixed _ _ _ _ _ h
    · exact (State.readHere_fixed _ _ _ _ _ h).trans (by simp)

theorem State.issueColRows_fixed (q : Req) (b : Bag) {y : State} (h : (s.issueColRows q b) = some y) : y.fixed = s.fixed := by
  unfold State.issueColRows at h
  split at h
  · split at h
    · cases h; simp
    · cases h
  · cases h

theorem State.issueFor_fixed (q : Req) {y : State} (h : (s.issueFor q) = some y) : y.fixed = s.fixed := by
  unfold State.issueFor at h
  split at h
  next found =>
    cases h
    obtain ⟨x, -, issued⟩ := List.exists_of_findSome?_eq_some found
    exact State.issueDemand_fixed _ _ _ issued
  · obtain ⟨b, -, issued⟩ := List.exists_of_findSome?_eq_some h
    exact State.issueColRows_fixed _ _ _ issued

theorem State.walkRead_fixed (d a n : Nat) {y : State} {u} {w} (h : (s.walkRead d a n) = some (u, w, y)) :
    y.fixed = s.fixed := by
  unfold State.walkRead at h
  split_ifs at h
  obtain ⟨t, touched, same⟩ := Option.map_eq_some_iff.1 h
  cases same
  exact (State.touchLines_fixed _ _ _ _ _ _ touched).trans (by simp)

@[simp] theorem State.modWalk_fixed (id : Nat) (f : Walk → Walk) : (s.modWalk id f).fixed = s.fixed := by simp [State.modWalk]

theorem State.issueEmb_fixed (q : Req) (x : FRec) {y : State} (h : (s.issueEmb q x) = some y) : y.fixed = s.fixed := by
  unfold State.issueEmb at h
  dsimp only at h
  split at h
  · split_ifs at h
    · obtain ⟨u, read, rfl⟩ := Option.map_eq_some_iff.1 h
      simp [State.readHere_fixed _ _ _ _ _ read]
    · cases h; simp
  · split at h
    · split_ifs at h
      cases h; simp
    · exact State.readHere_fixed _ _ _ _ _ h

theorem State.walkEvent_fixed (q : Req) (decl : HistDecl) (w : Walk) {y : State} (h : (s.walkEvent q decl w) = some y) :
    y.fixed = s.fixed := by
  unfold State.walkEvent at h
  dsimp only at h
  split at h
  · cases h
  next read =>
    have same := State.walkRead_fixed _ _ _ _ read
    split_ifs at h
    · cases h; simp [same]
    · exact (State.issueEmb_fixed _ _ _ h).trans (by simpa using same)

theorem State.issueWalk_fixed (q : Req) {y : State} (h : (s.issueWalk q) = some y) : y.fixed = s.fixed := by
  unfold State.issueWalk at h
  split at h
  · split_ifs at h
    exact State.walkEvent_fixed _ _ _ _ h
  · cases h

@[simp] theorem execGatherIssue_fixed : StaysFixed s (execGatherIssue s) := by
  unfold execGatherIssue
  rw [staysFixed_next]
  split
  · dsimp only
    have counted : (s.each s.readWaits (fun s d => s.count d cRegWait 1)).fixed = s.fixed := by simp
    split
    next found =>
      obtain ⟨q, -, issued⟩ := List.exists_of_findSome?_eq_some found
      exact (State.issueFor_fixed _ _ issued).trans counted
    · split
      next found =>
        obtain ⟨q, -, issued⟩ := List.exists_of_findSome?_eq_some found
        exact (State.issueWalk_fixed _ _ issued).trans counted
      · exact counted
  · rfl

@[simp] theorem execArrivalReserve_fixed (req smp grp ent : Nat) : StaysFixed s (execArrivalReserve req smp grp ent s) := by
  unfold execArrivalReserve
  split <;> simp

@[simp] theorem State.prefetch_fixed (q : Req) (x : FRec) (e : Nat) : (s.prefetch q x e).fixed = s.fixed := by
  simp only [State.prefetch]
  split <;> simp

@[simp] theorem execPrefetchIssue_fixed (req : Nat) : StaysFixed s (execPrefetchIssue req s) := by
  unfold execPrefetchIssue
  (repeat' split) <;> simp

@[simp] theorem State.freeSlot_fixed (id : Nat) (prefetch : Bool) : (s.freeSlot id prefetch).fixed = s.fixed := by
  simp [State.freeSlot]

@[simp] theorem execPrefetchDone_fixed (rid : Nat) : StaysFixed s (execPrefetchDone rid s) := by simp [execPrefetchDone]

@[simp] theorem execRowPooled_fixed (rid : Nat) : StaysFixed s (execRowPooled rid s) := by
  unfold execRowPooled
  split <;> simp

@[simp] theorem State.beginWalk_fixed (q : Req) (w : Option Walk) : (s.beginWalk q w).fixed = s.fixed := by
  unfold State.beginWalk
  split <;> simp

@[simp] theorem execHistWalkBegin_fixed (req : Nat) : StaysFixed s (execHistWalkBegin req s) := by
  unfold execHistWalkBegin
  rw [staysFixed_next]
  split
  · rfl
  · split
    · rfl
    · split
      · dsimp only
        split
        · simp
        · split
          next read => simp [State.walkRead_fixed _ _ _ _ read]
          · rfl
      · rfl

@[simp] theorem State.postChunk_fixed (q : Req) (decl : HistDecl) (b : Nat) : (s.postChunk q decl b).fixed = s.fixed := by
  simp [State.postChunk]

@[simp] theorem State.chunkPost_fixed (q : Req) (decl : HistDecl) (w : Walk) : (s.chunkPost q decl w).fixed = s.fixed := by
  simp [State.chunkPost]

@[simp] theorem execHistChunkPost_fixed (req : Nat) : StaysFixed s (execHistChunkPost req s) := by
  unfold execHistChunkPost
  (repeat' split) <;> simp

@[simp] theorem execHistReadResume_fixed (req : Nat) : StaysFixed s (execHistReadResume req s) := by
  unfold execHistReadResume
  (repeat' split) <;> simp


/-! ### Reply -/

@[simp] theorem State.takeCmd_fixed (c : CmdSrc) : (s.takeCmd c).fixed = s.fixed := by
  unfold State.takeCmd
  split <;> simp

@[simp] theorem State.uartSend_fixed (ty : Nat) (body : Bytes) : (s.uartSend ty body).fixed = s.fixed := by
  simp [State.uartSend]

@[simp] theorem State.reply_fixed (c : CmdSrc) (pkt : Bytes) (silent : Bool) (r : CmdRes) :
    (s.reply c pkt silent r).fixed = s.fixed := by
  unfold State.reply
  split <;> simp

@[simp] theorem State.uartData_fixed (fuel : Nat) (b : Bytes) : (s.uartData fuel b).fixed = s.fixed := by
  induction fuel generalizing s b with
  | zero => rfl
  | succ n ih => simp [State.uartData, ih]

@[simp] theorem State.finishCmd_fixed (id : Nat) (r : CmdRes) : (s.finishCmd id r).fixed = s.fixed := by
  unfold State.finishCmd
  split <;> simp

@[simp] theorem State.startCmd_fixed (c : CmdSrc) (pkt : Bytes) (locks : List (LockObj × Bool)) :
    (s.startCmd c pkt locks).fixed = s.fixed := by
  simp [State.startCmd]

@[simp] theorem State.partTake_fixed (iss : Issuer) (r : Bytes × Bool ⊕ Nat) : (s.partTake iss r).fixed = s.fixed := by
  unfold State.partTake
  split <;> simp

@[simp] theorem State.xactFailed_fixed : s.xactFailed.fixed = s.fixed := by simp [State.xactFailed]

@[simp] theorem State.partAsk_fixed (iss : Issuer) (d w base off total : Nat) :
    (s.partAsk iss d w base off total).fixed = s.fixed := by
  unfold State.partAsk
  dsimp only
  split
  · simp
  · split
    next sent => simp [State.send_fixed _ _ sent]
    · simp

@[simp] theorem State.partSend_fixed (id d w base off : Nat) : (s.partSend id d w base off).fixed = s.fixed := by
  unfold State.partSend
  dsimp only
  split
  · rfl
  · split
    · simp
    · split
      · simp
      · split
        next sent => simp [State.send_fixed _ _ sent]
        · simp

@[simp] theorem State.fetch_fixed (iss : Issuer) (d : Nat) (p : ParamAddr) (n : Nat) : (s.fetch iss d p n).fixed = s.fixed := by
  unfold State.fetch
  split <;> simp

@[simp] theorem State.store_fixed (id d : Nat) (p : ParamAddr) (b : Bytes) : (s.store id d p b).fixed = s.fixed := by
  unfold State.store
  split <;> simp


/-! ### Updates -/

@[simp] theorem State.beginBlock_fixed (d r : Nat) (b : Bytes) (n : Nat) : (s.beginBlock d r b n).fixed = s.fixed := by
  unfold State.beginBlock
  (repeat' split) <;> simp

@[simp] theorem State.takeUpd_fixed (d r : Nat) : (s.takeUpd d r).fixed = s.fixed := by simp [State.takeUpd]
@[simp] theorem State.acceptUpd_fixed (d r : Nat) (b : Bytes) : (s.acceptUpd d r b).fixed = s.fixed := by simp [State.acceptUpd]

@[simp] theorem execUpdateAccept_fixed (den ring : Nat) : StaysFixed s (execUpdateAccept den ring s) := by
  unfold execUpdateAccept
  split <;> simp

@[simp] theorem State.readBlock_fixed (d r : Nat) (u : UpdCur) : (s.readBlock d r u).fixed = s.fixed := by
  simp [State.readBlock]

@[simp] theorem execRecordBlockReadDone_fixed (den ring : Nat) : StaysFixed s (execRecordBlockReadDone den ring s) := by
  unfold execRecordBlockReadDone
  split <;> simp

theorem State.stageLine_fixed (d a addr : Nat) (row : Bytes) {y : State} (h : (s.stageLine d a addr row) = some y) :
    y.fixed = s.fixed := by
  unfold State.stageLine at h
  dsimp only at h
  split_ifs at h
  split at h
  all_goals exact (State.placeLine_fixed _ _ h).trans (by simp)

theorem State.stageLines_fixed (d addr : Nat) (row : Bytes) (lines : List Nat) {y : State} (h : (s.stageLines d addr row lines)
    = some y) :
    y.fixed = s.fixed := by
  induction lines generalizing s with
  | nil => cases h; rfl
  | cons a rest ih =>
    unfold State.stageLines at h
    split at h
    next staged => exact (ih _ h).trans (State.stageLine_fixed _ _ _ _ _ staged)
    · cases h

theorem State.stageRow_fixed (d r tn addr : Nat) (row : Bytes) {y : State} (h : (s.stageRow d r tn addr row) = some y) :
    y.fixed = s.fixed := by
  unfold State.stageRow at h
  dsimp only at h
  split_ifs at h
  split at h
  · cases h
  next staged =>
    cases h
    have same := State.stageLines_fixed _ _ _ _ _ staged
    simpa using same

@[simp] theorem State.nextRecord_fixed (d r flag : Nat) : (s.nextRecord d r flag).fixed = s.fixed := by simp [State.nextRecord]

@[simp] theorem State.stageRecord_fixed (d r : Nat) (u : UpdCur) : (s.stageRecord d r u).fixed = s.fixed := by
  unfold State.stageRecord
  dsimp only
  split
  · simp
  · split
    next staged => simp [State.stageRow_fixed _ _ _ _ _ _ staged]
    · simp

@[simp] theorem execUpdateStage_fixed (den ring : Nat) : StaysFixed s (execUpdateStage den ring s) := by
  unfold execUpdateStage
  split <;> simp


/-! ### Switch -/

@[simp] theorem State.switchOne_fixed (hold : Bool) (p : Nat × Nat) : (s.switchOne hold p).fixed = s.fixed := by
  simp [State.switchOne]

@[simp] theorem State.switchAll_fixed (ps : List (Nat × Nat)) (hold durable : Bool) (sw : Nat) :
    (s.switchAll ps hold durable sw).fixed = s.fixed := by
  simp [State.switchAll]

@[simp] theorem State.unlockAll_fixed (id : W32) : (s.unlockAll id).fixed = s.fixed := by simp [State.unlockAll]

@[simp] theorem State.lockPairs_fixed (id : W32) (master : Nat) (ps : List (Nat × Nat)) (durable : Bool) :
    (s.lockPairs id master ps durable).fixed = s.fixed := by
  simp [State.lockPairs]

@[simp] theorem State.applySwitch_fixed : s.applySwitch.fixed = s.fixed := by simp [State.applySwitch]

@[simp] theorem State.commitHere_fixed (id : W32) (tsw : W64) : (s.commitHere id tsw).fixed = s.fixed := by
  simp [State.commitHere]

@[simp] theorem State.abortHere_fixed (id : W32) : (s.abortHere id).fixed = s.fixed := by simp [State.abortHere]
@[simp] theorem State.releaseHere_fixed (id : W32) : (s.releaseHere id).fixed = s.fixed := by simp [State.releaseHere]

@[simp] theorem State.tryRelease_fixed : s.tryRelease.fixed = s.fixed := by
  unfold State.tryRelease
  split <;> simp

@[simp] theorem State.addDrained_fixed (src : Nat) (id : W32) : (s.addDrained src id).fixed = s.fixed := by
  unfold State.addDrained
  split <;> simp

@[simp] theorem State.sendCommit_fixed (m : MasterSwitch) (to_ : List Nat) (tsw : W64) :
    (s.sendCommit m to_ tsw).fixed = s.fixed := by
  simp [State.sendCommit]

@[simp] theorem State.commitAll_fixed (m : MasterSwitch) : (s.commitAll m).fixed = s.fixed := by
  unfold State.commitAll
  split <;> simp

@[simp] theorem State.abortAll_fixed (m : MasterSwitch) (status : Nat) : (s.abortAll m status).fixed = s.fixed := by
  simp only [State.abortAll]
  split <;> simp

@[simp] theorem State.addPrepared_fixed (src : Nat) (id : W32) : (s.addPrepared src id).fixed = s.fixed := by
  unfold State.addPrepared
  split <;> simp

@[simp] theorem State.addRefused_fixed (id : W32) (status : Nat) : (s.addRefused id status).fixed = s.fixed := by
  unfold State.addRefused
  split <;> simp

@[simp] theorem State.prepareOwn_fixed (id : W32) (ps : List (Nat × Nat)) (durable : Bool) :
    (s.prepareOwn id ps durable).fixed = s.fixed := by
  simp [State.prepareOwn]

@[simp] theorem State.beginSwitch_fixed (cmd : Nat) (ps : List (Nat × Nat)) (durable : Bool) (lead : Nat) :
    (s.beginSwitch cmd ps durable lead).fixed = s.fixed := by
  simp [State.beginSwitch]

@[simp] theorem State.endQuery_fixed (m : MasterSwitch) : (s.endQuery m).fixed = s.fixed := by
  simp only [State.endQuery]
  (repeat' split) <;> simp

@[simp] theorem State.addState_fixed (src v : Nat) : (s.addState src v).fixed = s.fixed := by
  simp only [State.addState]
  (repeat' split) <;> simp

@[simp] theorem State.onPrepare_fixed (m : Bytes) : (s.onPrepare m).fixed = s.fixed := by simp [State.onPrepare]
@[simp] theorem execPrepare_fixed (port : Nat) (msg : Bytes) : StaysFixed s (execPrepare port msg s) := by simp [execPrepare]
@[simp] theorem execPrepared_fixed (port : Nat) (msg : Bytes) : StaysFixed s (execPrepared port msg s) := by simp [execPrepared]

@[simp] theorem execRefusedMsg_fixed (port : Nat) (msg : Bytes) : StaysFixed s (execRefusedMsg port msg s) := by
  simp [execRefusedMsg]

@[simp] theorem execCommit_fixed (port : Nat) (msg : Bytes) : StaysFixed s (execCommit port msg s) := by simp [execCommit]
@[simp] theorem execAbort_fixed (port : Nat) (msg : Bytes) : StaysFixed s (execAbort port msg s) := by simp [execAbort]
@[simp] theorem execDrained_fixed (port : Nat) (msg : Bytes) : StaysFixed s (execDrained port msg s) := by simp [execDrained]
@[simp] theorem execRelease_fixed (port : Nat) (msg : Bytes) : StaysFixed s (execRelease port msg s) := by simp [execRelease]
@[simp] theorem execSwQuery_fixed (port : Nat) (msg : Bytes) : StaysFixed s (execSwQuery port msg s) := by simp [execSwQuery]
@[simp] theorem execSwState_fixed (port : Nat) (msg : Bytes) : StaysFixed s (execSwState port msg s) := by simp [execSwState]

@[simp] theorem execSwQueryTimeout_fixed : StaysFixed s (execSwQueryTimeout s) := by
  unfold execSwQueryTimeout
  split <;> simp

@[simp] theorem execWarrenSwitchApply_fixed : StaysFixed s (execWarrenSwitchApply s) := by simp [execWarrenSwitchApply]
@[simp] theorem execDrainedSend_fixed : StaysFixed s (execDrainedSend s) := by simp [execDrainedSend]

@[simp] theorem execWarrenPrepareTimeout_fixed : StaysFixed s (execWarrenPrepareTimeout s) := by
  unfold execWarrenPrepareTimeout
  split <;> simp


/-! ### Fabric -/

@[simp] theorem State.syncTime_fixed (m16 : Nat) : (s.syncTime m16).fixed = s.fixed := by simp [State.syncTime]
@[simp] theorem State.onHeartbeat_fixed (m : Bytes) : (s.onHeartbeat m).fixed = s.fixed := by simp [State.onHeartbeat]

@[simp] theorem execHeartbeat_fixed (port : Nat) (msg : Bytes) : StaysFixed s (execHeartbeat port msg s) := by
  simp [execHeartbeat]

@[simp] theorem execHeartbeatTick_fixed : StaysFixed s (execHeartbeatTick s) := by simp [execHeartbeatTick]
@[simp] theorem execWarrenHoldEntry_fixed : StaysFixed s (execWarrenHoldEntry s) := by simp [execWarrenHoldEntry]

@[simp] theorem State.takeMaster_fixed (src : Nat) (e : W32) : (s.takeMaster src e).fixed = s.fixed := by
  simp only [State.takeMaster]
  (repeat' split) <;> simp

@[simp] theorem execClaim_fixed (port : Nat) (msg : Bytes) : StaysFixed s (execClaim port msg s) := by simp [execClaim]

@[simp] theorem execHushNote_fixed (port : Nat) (msg : Bytes) : StaysFixed s (execHushNote port msg s) := by
  exact (staysFixed_next ..).2 (State.receive_fixed _ _ _ _ _ fun _ => rfl)

@[simp] theorem execWakeNote_fixed (port : Nat) (msg : Bytes) : StaysFixed s (execWakeNote port msg s) := by
  exact (staysFixed_next ..).2 (State.receive_fixed _ _ _ _ _ fun _ => rfl)

@[simp] theorem execSurveyQ_fixed (port : Nat) (msg : Bytes) : StaysFixed s (execSurveyQ port msg s) := by simp [execSurveyQ]

@[simp] theorem execSurveyR_fixed (port : Nat) (msg : Bytes) : StaysFixed s (execSurveyR port msg s) := by
  refine (staysFixed_next ..).2 (State.receive_fixed _ _ _ _ _ fun u => ?_)
  dsimp only
  split <;> simp

@[simp] theorem State.endStored_fixed (id : Nat) (res : Bytes) : (s.endStored id res).fixed = s.fixed := by
  unfold State.endStored
  (repeat' split) <;> simp

@[simp] theorem State.endSurvey_fixed (v : Survey) : (s.endSurvey v).fixed = s.fixed := by
  simp only [State.endSurvey]
  split <;> simp

@[simp] theorem execSurveyTimeout_fixed : StaysFixed s (execSurveyTimeout s) := by
  unfold execSurveyTimeout
  split <;> simp


/-! ### Remote -/

@[simp] theorem State.putQuill_fixed (t c : Nat) (q : Quill) : (s.putQuill t c q).fixed = s.fixed := by
  unfold State.putQuill
  (repeat' split) <;> simp

@[simp] theorem State.remoteQuill_fixed (d t c : Nat) (q : Quill) : (s.remoteQuill d t c q).fixed = s.fixed := by
  unfold State.remoteQuill
  split <;> simp

@[simp] theorem execQuill_fixed (port : Nat) (msg : Bytes) : StaysFixed s (execQuill port msg s) := by simp [execQuill]

@[simp] theorem State.respond_fixed (m : Bytes) (ty status : Nat) (fields data : Bytes) :
    (s.respond m ty status fields data).fixed = s.fixed := by
  simp [State.respond]

@[simp] theorem State.throughHoard_fixed (d a n : Nat) (write : Bool) : (s.throughHoard d a n write).fixed = s.fixed := by
  unfold State.throughHoard
  split
  next touched => exact State.touchLines_fixed _ _ _ _ _ _ touched
  · rfl

theorem State.ownerRow_fixed (d : Nat) (t : Table) (v row : Nat) {y : State} {u} {w} (h : (s.ownerRow d t v row) = some (u, w,
    y)) :
    y.fixed = s.fixed := by
  unfold State.ownerRow at h
  split at h
  · cases h; rfl
  · split_ifs at h
    cases h; simp

@[simp] theorem State.serveRow_fixed (m : Bytes) : (s.serveRow m).fixed = s.fixed := by
  unfold State.serveRow
  dsimp only
  split
  · simp
  · split
    · simp
    next read => simp [State.ownerRow_fixed _ _ _ _ _ read]

@[simp] theorem execRowRead_fixed (port : Nat) (msg : Bytes) : StaysFixed s (execRowRead port msg s) := by simp [execRowRead]

@[simp] theorem State.frees32_fixed (n : Nat) : (s.frees32 n).2.fixed = s.fixed := by
  induction n generalizing s with
  | zero => rfl
  | succ n ih => simp [State.frees32, ih]

theorem State.ownerRows_fixed (d : Nat) (t : Table) (v : Nat) (rows : List (Nat × W32)) {y : State} {u} {w} (h : (s.ownerRows d
    t v rows) = some (u, w, y)) :
    y.fixed = s.fixed := by
  induction rows generalizing s u w y with
  | nil => cases h; rfl
  | cons r rest ih =>
    unfold State.ownerRows at h
    split at h
    · cases h
    next read =>
      split at h
      · cases h
      next reads => cases h; exact (ih _ reads).trans (State.ownerRow_fixed _ _ _ _ _ read)

@[simp] theorem State.contribute_fixed (m : Bytes) (status rows : Nat) (v : List W32) :
    (s.contribute m status rows v).fixed = s.fixed := by
  simp [State.contribute]

@[simp] theorem State.noContrib_fixed (m : Bytes) (status : Nat) : (s.noContrib m status).fixed = s.fixed := by
  simp [State.noContrib]

@[simp] theorem State.divide_fixed (div : Bool) (n : Nat) (v : List W32) : (s.divide div n v).2.fixed = s.fixed := by
  simp [State.divide]

@[simp] theorem State.servePool_fixed (m : Bytes) : (s.servePool m).fixed = s.fixed := by
  unfold State.servePool
  dsimp only
  split
  · simp
  · split
    · simp
    next read => simp [State.ownerRows_fixed _ _ _ _ _ read]

@[simp] theorem execPoolReq_fixed (port : Nat) (msg : Bytes) : StaysFixed s (execPoolReq port msg s) := by simp [execPoolReq]
@[simp] theorem State.serveRead_fixed (m : Bytes) : (s.serveRead m).fixed = s.fixed := by simp [State.serveRead]
@[simp] theorem execBulkRd_fixed (port : Nat) (msg : Bytes) : StaysFixed s (execBulkRd port msg s) := by simp [execBulkRd]
@[simp] theorem State.serveWrite_fixed (m : Bytes) : (s.serveWrite m).fixed = s.fixed := by simp [State.serveWrite]
@[simp] theorem execBulkWr_fixed (port : Nat) (msg : Bytes) : StaysFixed s (execBulkWr port msg s) := by simp [execBulkWr]
@[simp] theorem State.serveAtomic_fixed (m : Bytes) : (s.serveAtomic m).fixed = s.fixed := by simp [State.serveAtomic]
@[simp] theorem execAtomic_fixed (port : Nat) (msg : Bytes) : StaysFixed s (execAtomic port msg s) := by simp [execAtomic]
@[simp] theorem State.endXact_fixed (x : Xact) : (s.endXact x).fixed = s.fixed := by simp [State.endXact]
@[simp] theorem State.lateAnswer_fixed : s.lateAnswer.fixed = s.fixed := by simp [State.lateAnswer]
@[simp] theorem State.dropRows_fixed (x : Xact) (n : Nat) : (s.dropRows x n).fixed = s.fixed := by simp [State.dropRows]
@[simp] theorem State.countArrived_fixed (x : Xact) : (s.countArrived x).fixed = s.fixed := by simp [State.countArrived]

@[simp] theorem State.failXact_fixed (x : Xact) (st : Nat) : (s.failXact x st).fixed = s.fixed := by
  unfold State.failXact
  split <;> simp

@[simp] theorem State.takeAnswer_fixed (m : Bytes) (good : State → Xact → Bool → State) (h : ∀ v i j, (good v i j).fixed =
    v.fixed) :
    (s.takeAnswer m good).fixed = s.fixed := by
  unfold State.takeAnswer
  split <;> simp [h]

@[simp] theorem execRowData_fixed (port : Nat) (msg : Bytes) : StaysFixed s (execRowData port msg s) := by
  refine (staysFixed_next ..).2 (State.receive_fixed _ _ _ _ _ fun u => State.takeAnswer_fixed _ _ _ fun v x bad => ?_)
  split <;> simp

@[simp] theorem State.takeBulk_fixed (x : Xact) (b : Bytes) (bad : Bool) : (s.takeBulk x b bad).fixed = s.fixed := by
  unfold State.takeBulk
  split <;> simp

@[simp] theorem execBulkData_fixed (port : Nat) (msg : Bytes) : StaysFixed s (execBulkData port msg s) := by simp [execBulkData]

@[simp] theorem State.takeAck_fixed (x : Xact) : (s.takeAck x).fixed = s.fixed := by
  unfold State.takeAck
  split <;> simp

@[simp] theorem execWriteAck_fixed (port : Nat) (msg : Bytes) : StaysFixed s (execWriteAck port msg s) := by simp [execWriteAck]

@[simp] theorem execAtomicRsp_fixed (port : Nat) (msg : Bytes) : StaysFixed s (execAtomicRsp port msg s) := by
  refine (staysFixed_next ..).2 (State.receive_fixed _ _ _ _ _ fun u => State.takeAnswer_fixed _ _ _ fun v x bad => ?_)
  split <;> simp

@[simp] theorem State.applyContrib_fixed (x : Xact) (rows : Nat) (bad : Bool) :
    (s.applyContrib x rows bad).fixed = s.fixed := by
  simp only [State.applyContrib]
  (repeat' split) <;> simp

@[simp] theorem State.takePiece_fixed (x : Xact) (m : Bytes) (bad : Bool) : (s.takePiece x m bad).fixed = s.fixed := by
  simp [State.takePiece]

@[simp] theorem execPoolContrib_fixed (port : Nat) (msg : Bytes) : StaysFixed s (execPoolContrib port msg s) := by
  refine (staysFixed_next ..).2 (State.receive_fixed _ _ _ _ _ fun u => ?_)
  split
  · simp
  · split_ifs <;> simp

@[simp] theorem execXactTimeout_fixed (tid : W32) : StaysFixed s (execXactTimeout tid s) := by
  unfold execXactTimeout
  split <;> simp


/-! ### Command -/

@[simp] theorem State.runCmd_fixed (r : CmdRow) (c : CmdSrc) (f : State → Bytes → State) (h : ∀ v i, (f v i).fixed = v.fixed) :
    (s.runCmd r c f).fixed = s.fixed := by
  unfold State.runCmd
  (repeat' split) <;> simp [h]

@[simp] theorem State.quick_fixed (c : CmdSrc) (g : State → Bytes → CmdRes × State) (b : Bytes) (h : ∀ v i, (g v i).2.fixed =
    v.fixed) :
    (State.quick c g s b).fixed = s.fixed := by
  simp [State.quick, h]

@[simp] theorem State.begin_fixed (c : CmdSrc) (r : CmdRow) (g : State → Nat → Bytes → State) (b : Bytes) (h : ∀ v i j, (g v i
    j).fixed = v.fixed) :
    (State.begin c r g s b).fixed = s.fixed := by
  simp [State.begin, h]

/-- A command that ends at once, when its own part leaves the queue and the fuses alone. -/
theorem runQuick_fixed {row : CmdRow} {src : CmdSrc} {g : State → Bytes → CmdRes × State}
    (own : ∀ v b, (g v b).2.fixed = v.fixed) : StaysFixed s (.next (s.runCmd row src (State.quick src g))) :=
  (staysFixed_next ..).2 (State.runCmd_fixed _ _ _ _ fun _ _ => State.quick_fixed _ _ _ _ own)

/-- A command that begins, when its beginning leaves the queue and the fuses alone. -/
theorem runBegin_fixed {row : CmdRow} {src : CmdSrc} {g : State → Nat → Bytes → State}
    (own : ∀ v id b, (g v id b).fixed = v.fixed) : StaysFixed s (.next (s.runCmd row src (State.begin src row g))) :=
  (staysFixed_next ..).2 (State.runCmd_fixed _ _ _ _ fun _ _ => State.begin_fixed _ _ _ _ _ own)

@[simp] theorem State.fin_fixed (id : Nat) (r : CmdRes) : (s.fin id r).fixed = s.fixed := by simp [State.fin]

@[simp] theorem State.writeOut_fixed (c : CmdSrc) (id a : Nat) (bytes res : Bytes) :
    (s.writeOut c id a bytes res).fixed = s.fixed := by
  simp [State.writeOut]

@[simp] theorem State.readIn_fixed (c : CmdSrc) (id a n : Nat) : (s.readIn c id a n).fixed = s.fixed := by simp [State.readIn]

@[simp] theorem State.mark_fixed (id stage : Nat) (nums : List Nat) : (s.mark id stage nums).fixed = s.fixed := by
  simp [State.mark]


/-! ### CmdTable -/

@[simp] theorem execTableCreate_fixed (src : CmdSrc) : StaysFixed s (execTableCreate src s) := by simp [execTableCreate]
@[simp] theorem State.createTable_fixed (c : Cmd) : (s.createTable c).fixed = s.fixed := by simp [State.createTable]

@[simp] theorem State.createStep_fixed (c : Cmd) : (s.createStep c).fixed = s.fixed := by
  unfold State.createStep
  split <;> simp

@[simp] theorem State.modifyTable_fixed (b : Bytes) : (s.modifyTable b).2.fixed = s.fixed := by
  simp only [State.modifyTable]
  (repeat' split) <;> simp

@[simp] theorem execTableModify_fixed (src : CmdSrc) : StaysFixed s (execTableModify src s) := by simp [execTableModify]

@[simp] theorem State.setVersion_fixed (b : Bytes) : (s.setVersion b).2.fixed = s.fixed := by
  unfold State.setVersion
  split <;> simp

@[simp] theorem execTableVersionSet_fixed (src : CmdSrc) : StaysFixed s (execTableVersionSet src s) := by
  simp [execTableVersionSet]

@[simp] theorem State.switchHere_fixed (c : CmdSrc) (b : Bytes) : (State.switchHere c s b).2.fixed = s.fixed := by
  simp only [State.switchHere]
  (repeat' split) <;> simp

@[simp] theorem execTableSwitch_fixed (src : CmdSrc) : StaysFixed s (execTableSwitch src s) := by simp [execTableSwitch]

@[simp] theorem execTableSwitchWarren_fixed (src : CmdSrc) : StaysFixed s (execTableSwitchWarren src s) := by
  exact runBegin_fixed _ fun u id b => by split <;> simp

@[simp] theorem execTableQuery_fixed (src : CmdSrc) : StaysFixed s (execTableQuery src s) := by
  exact runBegin_fixed _ fun u id b => by dsimp only; split <;> simp

@[simp] theorem State.deleteTable_fixed (b : Bytes) : (s.deleteTable b).2.fixed = s.fixed := by
  unfold State.deleteTable
  split <;> simp

@[simp] theorem execTableDelete_fixed (src : CmdSrc) : StaysFixed s (execTableDelete src s) := by simp [execTableDelete]

/-! ### CmdDevice -/

@[simp] theorem execCmdNop_fixed (src : CmdSrc) : StaysFixed s (execCmdNop src s) := by simp [execCmdNop]
@[simp] theorem execIdentify_fixed (src : CmdSrc) : StaysFixed s (execIdentify src s) := by simp [execIdentify]
@[simp] theorem execDevStatus_fixed (src : CmdSrc) : StaysFixed s (execDevStatus src s) := by simp [execDevStatus]

@[simp] theorem execProfileGet_fixed (src : CmdSrc) : StaysFixed s (execProfileGet src s) := by
  exact runBegin_fixed _ fun u id b => by split <;> simp

@[simp] theorem execProfileWrite_fixed (src : CmdSrc) : StaysFixed s (execProfileWrite src s) := by simp [execProfileWrite]
@[simp] theorem State.storeProfile_fixed (c : Cmd) : (s.storeProfile c).fixed = s.fixed := by simp [State.storeProfile]
@[simp] theorem State.setRole_fixed (r : Nat) : (s.setRole r).fixed = s.fixed := by simp [State.setRole]
@[simp] theorem State.applyLive_fixed (i : Nat) (p : Profile) : (s.applyLive i p).fixed = s.fixed := by simp [State.applyLive]

@[simp] theorem State.selectProfile_fixed (i : Nat) : (s.selectProfile i).2.fixed = s.fixed := by
  unfold State.selectProfile
  split <;> simp

@[simp] theorem execProfileSelect_fixed (src : CmdSrc) : StaysFixed s (execProfileSelect src s) := by simp [execProfileSelect]
@[simp] theorem execProfileClear_fixed (src : CmdSrc) : StaysFixed s (execProfileClear src s) := by simp [execProfileClear]
@[simp] theorem execDevHush_fixed (src : CmdSrc) : StaysFixed s (execDevHush src s) := by simp [execDevHush]
@[simp] theorem State.destroyHeld_fixed : s.destroyHeld.fixed = s.fixed := by simp [State.destroyHeld]
@[simp] theorem execScrubRetained_fixed (src : CmdSrc) : StaysFixed s (execScrubRetained src s) := by simp [execScrubRetained]
@[simp] theorem execP2pProbe_fixed (src : CmdSrc) : StaysFixed s (execP2pProbe src s) := by simp [execP2pProbe]

/-! ### CmdDen -/

@[simp] theorem State.createDen_fixed (b : Bytes) : (s.createDen b).2.fixed = s.fixed := by simp [State.createDen]
@[simp] theorem execDenCreate_fixed (src : CmdSrc) : StaysFixed s (execDenCreate src s) := by simp [execDenCreate]
@[simp] theorem State.tilesStep_fixed (c : Cmd) : (s.tilesStep c).fixed = s.fixed := by simp [State.tilesStep]

@[simp] theorem State.onCmd_fixed (id : Nat) (f : State → Cmd → State) (h : ∀ v i, (f v i).fixed = v.fixed) :
    (s.onCmd id f).fixed = s.fixed := by
  unfold State.onCmd
  split <;> simp [h]

@[simp] theorem execDenConfigTiles_fixed (src : CmdSrc) : StaysFixed s (execDenConfigTiles src s) := by
  exact runBegin_fixed _ fun u id b => by simp

@[simp] theorem execDenConfigHbm_fixed (src : CmdSrc) : StaysFixed s (execDenConfigHbm src s) := by simp [execDenConfigHbm]
@[simp] theorem State.hbmStep_fixed (c : Cmd) : (s.hbmStep c).fixed = s.fixed := by simp [State.hbmStep]

@[simp] theorem State.setWays_fixed (d fill pin scratch : Nat) : (s.setWays d fill pin scratch).fixed = s.fixed := by
  refine (State.each_fixed _ _ _ fun u n => ?_).trans (State.modDen_fixed ..)
  split <;> simp

@[simp] theorem State.waysStep_fixed (c : Cmd) : (s.waysStep c).fixed = s.fixed := by simp [State.waysStep]

@[simp] theorem execDenConfigWays_fixed (src : CmdSrc) : StaysFixed s (execDenConfigWays src s) := by
  exact runBegin_fixed _ fun u id b => by dsimp only; split <;> simp

@[simp] theorem State.mioterStep_fixed (c : Cmd) : (s.mioterStep c).fixed = s.fixed := by simp [State.mioterStep]

@[simp] theorem execDenConfigMioter_fixed (src : CmdSrc) : StaysFixed s (execDenConfigMioter src s) := by
  exact runBegin_fixed _ fun u id b => by simp

@[simp] theorem execDenConfigRegulator_fixed (src : CmdSrc) : StaysFixed s (execDenConfigRegulator src s) := by
  simp [execDenConfigRegulator]

@[simp] theorem execDenConfigSched_fixed (src : CmdSrc) : StaysFixed s (execDenConfigSched src s) := by
  simp [execDenConfigSched]

@[simp] theorem execDenConfigFlr_fixed (src : CmdSrc) : StaysFixed s (execDenConfigFlr src s) := by simp [execDenConfigFlr]

@[simp] theorem execDenConfigToken_fixed (src : CmdSrc) : StaysFixed s (execDenConfigToken src s) := by
  simp [execDenConfigToken]

@[simp] theorem execDenConfigGran_fixed (src : CmdSrc) : StaysFixed s (execDenConfigGran src s) := by simp [execDenConfigGran]
@[simp] theorem execDenQuery_fixed (src : CmdSrc) : StaysFixed s (execDenQuery src s) := by simp [execDenQuery]
@[simp] theorem State.destroyBegin_fixed (d : Nat) : (s.destroyBegin d).fixed = s.fixed := by simp [State.destroyBegin]
@[simp] theorem execDenDestroy_fixed (src : CmdSrc) : StaysFixed s (execDenDestroy src s) := by simp [execDenDestroy]
@[simp] theorem execDenResume_fixed (src : CmdSrc) : StaysFixed s (execDenResume src s) := by simp [execDenResume]
@[simp] theorem execHistDirSet_fixed (src : CmdSrc) : StaysFixed s (execHistDirSet src s) := by simp [execHistDirSet]
@[simp] theorem State.releaseHeld_fixed (d : Nat) : (s.releaseHeld d).fixed = s.fixed := by simp [State.releaseHeld]

@[simp] theorem State.attachStep_fixed (c : Cmd) : (s.attachStep c).fixed = s.fixed := by
  unfold State.attachStep
  split <;> simp

@[simp] theorem State.attachBegin_fixed (src : CmdSrc) (id : Nat) (b : Bytes) :
    (State.attachBegin src s id b).fixed = s.fixed := by
  simp [State.attachBegin]

@[simp] theorem execAttach_fixed (src : CmdSrc) : StaysFixed s (execAttach src s) := by simp [execAttach]

/-! ### SeqOps -/

@[simp] theorem State.stallAt_fixed (t code : Nat) : (s.stallAt t code).fixed = s.fixed := by simp [State.stallAt]

@[simp] theorem State.issue_fixed (t op : Nat) (regs : W64 → List Nat) (f : State → W64 → Req → State) (h : ∀ v i j, (f v i
    j).fixed = v.fixed) :
    (s.issue t op regs f).fixed = s.fixed := by
  unfold State.issue
  split <;> simp [h]

@[simp] theorem State.goto_fixed (t n : Nat) : (s.goto t n).fixed = s.fixed := by simp [State.goto]
@[simp] theorem State.advance_fixed (t : Nat) : (s.advance t).fixed = s.fixed := by simp [State.advance]
@[simp] theorem State.setReg_fixed (t n : Nat) (v : W64) : (s.setReg t n v).fixed = s.fixed := by simp [State.setReg]

@[simp] theorem State.correctSram_fixed (t a : Nat) (l : List Nat) : (s.correctSram t a l).fixed = s.fixed := by
  simp [State.correctSram]

@[simp] theorem State.storageUncorr_fixed (t a : Nat) : (s.storageUncorr t a).fixed = s.fixed := by
  unfold State.storageUncorr
  split <;> simp

@[simp] theorem State.sramCarry_fixed (t a n : Nat) : (s.sramCarry t a n).2.fixed = s.fixed := by simp [State.sramCarry]

@[simp] theorem State.sramRead_fixed (t a n : Nat) : (s.sramRead t a n).2.fixed = s.fixed := by
  simp only [State.sramRead]
  split <;> simp

@[simp] theorem State.withSram_fixed (t a n : Nat) (f : State → Bytes → State) (h : ∀ v i, (f v i).fixed = v.fixed) :
    (s.withSram t a n f).fixed = s.fixed := by
  simp only [State.withSram]
  split <;> simp [h]

@[simp] theorem State.sramWrite_fixed (t a : Nat) (b : Bytes) : (s.sramWrite t a b).fixed = s.fixed := by simp [State.sramWrite]
@[simp] theorem State.setAcc_fixed (t acc : Nat) (st : AccState) : (s.setAcc t acc st).fixed = s.fixed := by simp [State.setAcc]

@[simp] theorem State.sendAcc_fixed (t acc d w o len : Nat) (k : AccKind) (data : Bytes) :
    (s.sendAcc t acc d w o len k data).fixed = s.fixed := by
  unfold State.sendAcc
  dsimp only
  split
  next sent => simp [State.send_fixed _ _ sent]
  · simp

@[simp] theorem State.hostAcc_fixed (t acc d i len : Nat) (k : AccKind) (data : Bytes) :
    (s.hostAcc t acc d i len k data).fixed = s.fixed := by
  simp [State.hostAcc]

@[simp] theorem State.startAcc_fixed (t d : Nat) (k : AccKind) (p : Reach) (len : Nat) (data : Bytes) :
    (s.startAcc t d k p len data).fixed = s.fixed := by
  unfold State.startAcc
  split <;> simp

@[simp] theorem State.globalAcc_fixed (t : Nat) (r : Req) (k : AccKind) (a len : Nat) (data : Bytes) (src : Option Nat) :
    (s.globalAcc t r k a len data src).fixed = s.fixed := by
  unfold State.globalAcc
  split <;> simp


/-! ### CmdModel -/

@[simp] theorem execModelLoad_fixed (src : CmdSrc) : StaysFixed s (execModelLoad src s) := by
  exact runBegin_fixed _ fun u id b => by split <;> simp

@[simp] theorem State.loadModel_fixed (pkt b : Bytes) (base : Nat) : (s.loadModel pkt b base).fixed = s.fixed := by
  simp [State.loadModel]

@[simp] theorem State.secondStep_fixed (c : Cmd) : (s.secondStep c).fixed = s.fixed := by simp [State.secondStep]

@[simp] theorem State.loadStep_fixed (c : Cmd) : (s.loadStep c).fixed = s.fixed := by
  unfold State.loadStep
  (repeat' split) <;> simp

@[simp] theorem State.unloadModel_fixed (m : Model) : (s.unloadModel m).fixed = s.fixed := by simp [State.unloadModel]

@[simp] theorem execModelUnload_fixed (src : CmdSrc) : StaysFixed s (execModelUnload src s) := by
  exact runQuick_fixed _ fun u b => by split <;> simp

@[simp] theorem execModelQuery_fixed (src : CmdSrc) : StaysFixed s (execModelQuery src s) := by
  exact runQuick_fixed _ fun u b => by split <;> simp


/-! ### CmdCtx -/

@[simp] theorem execCtxStore_fixed (src : CmdSrc) : StaysFixed s (execCtxStore src s) := by
  exact runBegin_fixed _ fun u id b => by split <;> simp

@[simp] theorem State.storeEnd_fixed (c : Cmd) (r : CmdRes) : (s.storeEnd c r).fixed = s.fixed := by simp [State.storeEnd]
@[simp] theorem State.entryLost_fixed (c : Cmd) (r : CmdRes) : (s.entryLost c r).fixed = s.fixed := by simp [State.entryLost]
@[simp] theorem State.storeSecond_fixed (c : Cmd) : (s.storeSecond c).fixed = s.fixed := by simp [State.storeSecond]

@[simp] theorem State.storeWhole_fixed (c : Cmd) : (s.storeWhole c).fixed = s.fixed := by
  unfold State.storeWhole
  split <;> simp

@[simp] theorem State.ctxStoreStep_fixed (c : Cmd) : (s.ctxStoreStep c).fixed = s.fixed := by
  unfold State.ctxStoreStep
  (repeat' split) <;> simp

@[simp] theorem State.ctxStoreFail_fixed (c : Cmd) (e : Nat) : (s.ctxStoreFail c e).fixed = s.fixed := by
  simp [State.ctxStoreFail]

@[simp] theorem State.beginLoading_fixed (q c : Nat) : (s.beginLoading q c).fixed = s.fixed := by simp [State.beginLoading]

@[simp] theorem execCtxLoad_fixed (src : CmdSrc) : StaysFixed s (execCtxLoad src s) := by
  exact runBegin_fixed _ fun u id b => by split <;> simp

@[simp] theorem State.loadEnd_fixed (q id : Nat) (r : CmdRes) : (s.loadEnd q id r).fixed = s.fixed := by simp [State.loadEnd]
@[simp] theorem State.loadDone_fixed (q c id e : Nat) : (s.loadDone q c id e).fixed = s.fixed := by simp [State.loadDone]

@[simp] theorem execCtxLoadDone_fixed (quad : Nat) : StaysFixed s (execCtxLoadDone quad s) := by
  simp only [execCtxLoadDone]
  (repeat' split) <;> simp

@[simp] theorem State.selectCtx_fixed (b : Bytes) : (s.selectCtx b).2.fixed = s.fixed := by
  simp only [State.selectCtx]
  (repeat' split) <;> simp

@[simp] theorem execCtxSelect_fixed (src : CmdSrc) : StaysFixed s (execCtxSelect src s) := by simp [execCtxSelect]
@[simp] theorem State.freeStep_fixed (c : Cmd) : (s.freeStep c).fixed = s.fixed := by simp [State.freeStep]

@[simp] theorem execCtxFree_fixed (src : CmdSrc) : StaysFixed s (execCtxFree src s) := by
  exact runBegin_fixed _ fun u id b => by split <;> simp

@[simp] theorem execCtxQuery_fixed (src : CmdSrc) : StaysFixed s (execCtxQuery src s) := by simp [execCtxQuery]

/-! ### CmdMaint -/

@[simp] theorem execWarrenStatus_fixed (src : CmdSrc) : StaysFixed s (execWarrenStatus src s) := by simp [execWarrenStatus]
@[simp] theorem execRouteSet_fixed (src : CmdSrc) : StaysFixed s (execRouteSet src s) := by simp [execRouteSet]

@[simp] theorem State.onPort_fixed (b : Bytes) (f : State → Nat → CmdRes × State) (h : ∀ v i, (f v i).2.fixed = v.fixed) :
    (s.onPort b f).2.fixed = s.fixed := by
  simp [State.onPort, h]

@[simp] theorem State.disablePort_fixed (p : Nat) : (s.disablePort p).fixed = s.fixed := by simp [State.disablePort]

@[simp] theorem execLinkCtrlDisable_fixed (src : CmdSrc) : StaysFixed s (execLinkCtrlDisable src s) := by
  exact runQuick_fixed _ fun u b => by simp

@[simp] theorem State.enablePort_fixed (p : Nat) : (s.enablePort p).fixed = s.fixed := by simp [State.enablePort]

@[simp] theorem execLinkCtrlEnable_fixed (src : CmdSrc) : StaysFixed s (execLinkCtrlEnable src s) := by
  exact runQuick_fixed _ fun u b => by simp

@[simp] theorem State.retrainPort_fixed (p : Nat) : (s.retrainPort p).fixed = s.fixed := by simp [State.retrainPort]

@[simp] theorem execLinkCtrlRetrain_fixed (src : CmdSrc) : StaysFixed s (execLinkCtrlRetrain src s) := by
  exact runQuick_fixed _ fun u b => by simp

@[simp] theorem State.clearFences_fixed (p : Nat) : (s.clearFences p).fixed = s.fixed := by simp [State.clearFences]

@[simp] theorem execLinkCtrlClearFences_fixed (src : CmdSrc) : StaysFixed s (execLinkCtrlClearFences src s) := by
  exact runQuick_fixed _ fun u b => State.onPort_fixed _ _ _ fun v p => by split <;> simp

@[simp] theorem State.beginSurvey_fixed (id : Nat) : (s.beginSurvey id).fixed = s.fixed := by simp [State.beginSurvey]
@[simp] theorem execWarrenSurvey_fixed (src : CmdSrc) : StaysFixed s (execWarrenSurvey src s) := by simp [execWarrenSurvey]

@[simp] theorem execMarginRun_fixed (src : CmdSrc) : StaysFixed s (execMarginRun src s) := by
  exact runBegin_fixed _ fun u id b => by split <;> simp

@[simp] theorem State.zeroStacks_fixed (l : List Nat) : (s.zeroStacks l).fixed = s.fixed := by simp [State.zeroStacks]
@[simp] theorem State.marginDone_fixed (c : Cmd) : (s.marginDone c).fixed = s.fixed := by simp [State.marginDone]
@[simp] theorem execTileFence_fixed (src : CmdSrc) : StaysFixed s (execTileFence src s) := by simp [execTileFence]
@[simp] theorem execTileUnfence_fixed (src : CmdSrc) : StaysFixed s (execTileUnfence src s) := by simp [execTileUnfence]
@[simp] theorem State.unfence_fixed (t : Nat) : (s.unfence t).fixed = s.fixed := by simp [State.unfence]

@[simp] theorem State.unfenceDone_fixed (c : Cmd) (pass : Bool) : (s.unfenceDone c pass).fixed = s.fixed := by
  simp [State.unfenceDone]

@[simp] theorem State.sendData_fixed (c : CmdSrc) (id dest : Nat) (bytes : Bytes) :
    (s.sendData c id dest bytes).fixed = s.fixed := by
  unfold State.sendData
  (repeat' split) <;> simp

@[simp] theorem execLedgerRead_fixed (src : CmdSrc) : StaysFixed s (execLedgerRead src s) := by simp [execLedgerRead]
@[simp] theorem execTagRead_fixed (src : CmdSrc) : StaysFixed s (execTagRead src s) := by simp [execTagRead]
@[simp] theorem execDiagRun_fixed (src : CmdSrc) : StaysFixed s (execDiagRun src s) := by simp [execDiagRun]

@[simp] theorem State.diagDone_fixed (c : Cmd) (result : Bytes) : (s.diagDone c result).fixed = s.fixed := by
  simp [State.diagDone]

@[simp] theorem execFwStage_fixed (src : CmdSrc) : StaysFixed s (execFwStage src s) := by simp [execFwStage]
@[simp] theorem State.eraseBank_fixed (k : Nat) : (s.eraseBank k).fixed = s.fixed := by simp [State.eraseBank]

@[simp] theorem State.fwStep_fixed (c : Cmd) : (s.fwStep c).fixed = s.fixed := by
  unfold State.fwStep
  (repeat' split) <;> simp

@[simp] theorem execFwActivate_fixed (src : CmdSrc) : StaysFixed s (execFwActivate src s) := by simp [execFwActivate]
@[simp] theorem execFwQuery_fixed (src : CmdSrc) : StaysFixed s (execFwQuery src s) := by simp [execFwQuery]
@[simp] theorem execFwCommit_fixed (src : CmdSrc) : StaysFixed s (execFwCommit src s) := by exact runQuick_fixed _ fun u b => rfl

@[simp] theorem State.probeDone_fixed (c : Cmd) : (s.probeDone c).fixed = s.fixed := by
  unfold State.probeDone
  split <;> simp

@[simp] theorem State.configStep_fixed (c : Cmd) : (s.configStep c).fixed = s.fixed := by
  unfold State.configStep
  split <;> simp

@[simp] theorem State.cmdStep_fixed (c : Cmd) (result : Bytes) : (s.cmdStep c result).fixed = s.fixed := by
  unfold State.cmdStep
  (repeat' split) <;> simp

@[simp] theorem State.cmdFail_fixed (c : Cmd) (e : Nat) : (s.cmdFail c e).fixed = s.fixed := by
  unfold State.cmdFail
  split <;> simp

@[simp] theorem execCommandDone_fixed (id : Nat) (result : Bytes) : StaysFixed s (execCommandDone id result s) := by
  unfold execCommandDone
  (repeat' split) <;> simp


/-! ### TileAlu -/

@[simp] theorem State.alu_fixed (t op : Nat) (regs : W64 → List Nat) (v : Tile → W64 → W64) :
    (s.alu t op regs v).fixed = s.fixed := by
  simp [State.alu]

@[simp] theorem execTNop_fixed (tile : Nat) : StaysFixed s (execTNop tile s) := by simp [execTNop]
@[simp] theorem execTAdd_fixed (tile : Nat) : StaysFixed s (execTAdd tile s) := by simp [execTAdd]
@[simp] theorem execTAddi_fixed (tile : Nat) : StaysFixed s (execTAddi tile s) := by simp [execTAddi]
@[simp] theorem execTSub_fixed (tile : Nat) : StaysFixed s (execTSub tile s) := by simp [execTSub]
@[simp] theorem execTMul_fixed (tile : Nat) : StaysFixed s (execTMul tile s) := by simp [execTMul]
@[simp] theorem execTAnd_fixed (tile : Nat) : StaysFixed s (execTAnd tile s) := by simp [execTAnd]
@[simp] theorem execTOr_fixed (tile : Nat) : StaysFixed s (execTOr tile s) := by simp [execTOr]
@[simp] theorem execTXor_fixed (tile : Nat) : StaysFixed s (execTXor tile s) := by simp [execTXor]
@[simp] theorem execTAndi_fixed (tile : Nat) : StaysFixed s (execTAndi tile s) := by simp [execTAndi]
@[simp] theorem execTShl_fixed (tile : Nat) : StaysFixed s (execTShl tile s) := by simp [execTShl]
@[simp] theorem execTShr_fixed (tile : Nat) : StaysFixed s (execTShr tile s) := by simp [execTShr]
@[simp] theorem execTSra_fixed (tile : Nat) : StaysFixed s (execTSra tile s) := by simp [execTSra]
@[simp] theorem execTSlt_fixed (tile : Nat) : StaysFixed s (execTSlt tile s) := by simp [execTSlt]
@[simp] theorem execTSltu_fixed (tile : Nat) : StaysFixed s (execTSltu tile s) := by simp [execTSltu]
@[simp] theorem execTMin_fixed (tile : Nat) : StaysFixed s (execTMin tile s) := by simp [execTMin]
@[simp] theorem execTMax_fixed (tile : Nat) : StaysFixed s (execTMax tile s) := by simp [execTMax]
@[simp] theorem execTLi_fixed (tile : Nat) : StaysFixed s (execTLi tile s) := by simp [execTLi]
@[simp] theorem execTLih_fixed (tile : Nat) : StaysFixed s (execTLih tile s) := by simp [execTLih]

@[simp] theorem State.readSpecial_fixed (t d : Nat) (w : W64) : (s.readSpecial t d w).fixed = s.fixed := by
  simp [State.readSpecial]

@[simp] theorem execTRdsr_fixed (tile : Nat) : StaysFixed s (execTRdsr tile s) := by simp [execTRdsr]

@[simp] theorem State.branch_fixed (t op : Nat) (cond : W64 → W64 → Bool) : (s.branch t op cond).fixed = s.fixed := by
  simp [State.branch]

@[simp] theorem execTBeq_fixed (tile : Nat) : StaysFixed s (execTBeq tile s) := by simp [execTBeq]
@[simp] theorem execTBne_fixed (tile : Nat) : StaysFixed s (execTBne tile s) := by simp [execTBne]
@[simp] theorem execTBlt_fixed (tile : Nat) : StaysFixed s (execTBlt tile s) := by simp [execTBlt]
@[simp] theorem execTBge_fixed (tile : Nat) : StaysFixed s (execTBge tile s) := by simp [execTBge]
@[simp] theorem State.jal_fixed (t : Nat) (w : W64) : (s.jal t w).fixed = s.fixed := by simp [State.jal]
@[simp] theorem execTJal_fixed (tile : Nat) : StaysFixed s (execTJal tile s) := by simp [execTJal]
@[simp] theorem execTJr_fixed (tile : Nat) : StaysFixed s (execTJr tile s) := by simp [execTJr]
@[simp] theorem execTEnd_fixed (tile : Nat) : StaysFixed s (execTEnd tile s) := by simp [execTEnd]
@[simp] theorem execTTrap_fixed (tile : Nat) : StaysFixed s (execTTrap tile s) := by simp [execTTrap]
@[simp] theorem State.parkAt_fixed (t : Nat) : (s.parkAt t).fixed = s.fixed := by simp [State.parkAt]
@[simp] theorem execTYield_fixed (tile : Nat) : StaysFixed s (execTYield tile s) := by simp [execTYield]

/-! ### TileMem -/

@[simp] theorem State.lds_fixed (t : Nat) (w : W64) : (s.lds t w).fixed = s.fixed := by simp [State.lds]
@[simp] theorem execTLds_fixed (tile : Nat) : StaysFixed s (execTLds tile s) := by simp [execTLds]

@[simp] theorem State.advanceIfRunning_fixed (t : Nat) : (s.advanceIfRunning t).fixed = s.fixed := by
  simp [State.advanceIfRunning]

@[simp] theorem State.sts_fixed (t : Nat) (w : W64) : (s.sts t w).fixed = s.fixed := by simp [State.sts]
@[simp] theorem execTSts_fixed (tile : Nat) : StaysFixed s (execTSts tile s) := by simp [execTSts]
@[simp] theorem State.loadG_fixed (t : Nat) (w : W64) (r : Req) : (s.loadG t w r).fixed = s.fixed := by simp [State.loadG]
@[simp] theorem execTLdg_fixed (tile : Nat) : StaysFixed s (execTLdg tile s) := by simp [execTLdg]
@[simp] theorem State.storeG_fixed (t : Nat) (w : W64) (r : Req) : (s.storeG t w r).fixed = s.fixed := by simp [State.storeG]
@[simp] theorem execTStg_fixed (tile : Nat) : StaysFixed s (execTStg tile s) := by simp [execTStg]

@[simp] theorem State.blockMove_fixed (t : Nat) (w : W64) (f : Nat → Nat → State) (h : ∀ v i, (f v i).fixed = s.fixed) :
    (s.blockMove t w f).fixed = s.fixed := by
  simp [State.blockMove, h]

@[simp] theorem execTLdgb_fixed (tile : Nat) : StaysFixed s (execTLdgb tile s) := by simp [execTLdgb]
@[simp] theorem execTStgb_fixed (tile : Nat) : StaysFixed s (execTStgb tile s) := by simp [execTStgb]
@[simp] theorem State.atomv_fixed (t : Nat) (w : W64) (r : Req) : (s.atomv t w r).fixed = s.fixed := by simp [State.atomv]
@[simp] theorem execTAtomv_fixed (tile : Nat) : StaysFixed s (execTAtomv tile s) := by simp [execTAtomv]
@[simp] theorem State.atoms_fixed (t : Nat) (w : W64) (r : Req) : (s.atoms t w r).fixed = s.fixed := by simp [State.atoms]
@[simp] theorem execTAtoms_fixed (tile : Nat) : StaysFixed s (execTAtoms tile s) := by simp [execTAtoms]
@[simp] theorem execTFence_fixed (tile : Nat) : StaysFixed s (execTFence tile s) := by simp [execTFence]

@[simp] theorem State.deliverAcc_fixed (t : Nat) (k : AccKind) (b : Bytes) : (s.deliverAcc t k b).fixed = s.fixed := by
  unfold State.deliverAcc
  split <;> simp

@[simp] theorem State.endAcc_fixed (t : Nat) (g : GAcc) : (s.endAcc t g).fixed = s.fixed := by
  unfold State.endAcc
  split <;> simp

@[simp] theorem execGlobalAccessDone_fixed (tile acc : Nat) : StaysFixed s (execGlobalAccessDone tile acc s) := by
  unfold execGlobalAccessDone
  split <;> simp


/-! ### TileSync -/

@[simp] theorem State.placeDesc_fixed (t : Nat) (w : W64) : (s.placeDesc t w).fixed = s.fixed := by simp [State.placeDesc]
@[simp] theorem execTExec_fixed (tile : Nat) : StaysFixed s (execTExec tile s) := by simp [execTExec]
@[simp] theorem execTWaite_fixed (tile : Nat) : StaysFixed s (execTWaite tile s) := by simp [execTWaite]
@[simp] theorem execTSempost_fixed (tile : Nat) : StaysFixed s (execTSempost tile s) := by simp [execTSempost]
@[simp] theorem State.semwait_fixed (t n : Nat) : (s.semwait t n).fixed = s.fixed := by simp [State.semwait]
@[simp] theorem execTSemwait_fixed (tile : Nat) : StaysFixed s (execTSemwait tile s) := by simp [execTSemwait]
@[simp] theorem execTSemrd_fixed (tile : Nat) : StaysFixed s (execTSemrd tile s) := by simp [execTSemrd]

@[simp] theorem State.sendQuill_fixed (t : Nat) (r : Req) (v dest c : Nat) : (s.sendQuill t r v dest c).fixed = s.fixed := by
  simp only [State.sendQuill]
  (repeat' split) <;> simp

@[simp] theorem State.qsend_fixed (t : Nat) (w : W64) (r : Req) : (s.qsend t w r).fixed = s.fixed := by simp [State.qsend]
@[simp] theorem execTQsend_fixed (tile : Nat) : StaysFixed s (execTQsend tile s) := by simp [execTQsend]

@[simp] theorem State.takeQuill_fixed (t c : Nat) (quill : HeldQuill) (e : EntryPoint) :
    (s.takeQuill t c quill e).2.fixed = s.fixed := by
  simp only [State.takeQuill]
  (repeat' split) <;> simp

@[simp] theorem State.qrecv_fixed (t : Nat) (w : W64) (r : Req) : (s.qrecv t w r).fixed = s.fixed := by
  simp only [State.qrecv]
  (repeat' split) <;> simp

@[simp] theorem execTQrecv_fixed (tile : Nat) : StaysFixed s (execTQrecv tile s) := by simp [execTQrecv]
@[simp] theorem State.qwait_fixed (t : Nat) (w : W64) : (s.qwait t w).fixed = s.fixed := by simp [State.qwait]
@[simp] theorem execTQwait_fixed (tile : Nat) : StaysFixed s (execTQwait tile s) := by simp [execTQwait]

@[simp] theorem State.carryQuill_fixed (t : Nat) (r : Req) (x : SentQuill) : (s.carryQuill t r x).fixed = s.fixed := by
  unfold State.carryQuill
  dsimp only
  split
  · split <;> simp
  · split
    · simp
    · split
      next sent => exact State.send_fixed _ _ sent
      · simp

@[simp] theorem execQuillDeliver_fixed (tile : Nat) : StaysFixed s (execQuillDeliver tile s) := by
  unfold execQuillDeliver
  split <;> simp

@[simp] theorem State.releaseBarrier_fixed (id n : Nat) (l : List Nat) : (s.releaseBarrier id n l).fixed = s.fixed := by
  simp [State.releaseBarrier]

@[simp] theorem State.arriveAt_fixed (t : Nat) (r : Req) (n k : Nat) : (s.arriveAt t r n k).fixed = s.fixed := by
  simp [State.arriveAt]

@[simp] theorem execTBarrier_fixed (tile : Nat) : StaysFixed s (execTBarrier tile s) := by simp [execTBarrier]
@[simp] theorem State.hnext_fixed (t : Nat) (w : W64) : (s.hnext t w).fixed = s.fixed := by simp [State.hnext]
@[simp] theorem execTHnext_fixed (tile : Nat) : StaysFixed s (execTHnext tile s) := by simp [execTHnext]

/-! ### Flags -/

@[simp] theorem State.descBadFault_fixed (t : Nat) : (s.descBadFault t).fixed = s.fixed := by simp [State.descBadFault]
@[simp] theorem State.postOf_fixed (t : Nat) (b : Bytes) : (s.postOf t b).fixed = s.fixed := by simp [State.postOf]

@[simp] theorem State.partCheck_fixed (t : Nat) (pairs : List (Nat × Nat)) : (s.partCheck t pairs).fixed = s.fixed := by
  simp [State.partCheck]

@[simp] theorem State.engineTime_fixed (d c : Nat) : (s.engineTime d c).fixed = s.fixed := by simp [State.engineTime]

@[simp] theorem State.startDesc_fixed (t q k : Nat) (ok : Tile → Bytes → Bool) (inSram : Bytes → Bool) (f : State → Bytes →
    State) (h : ∀ v i, (f v i).fixed = v.fixed) :
    (s.startDesc t q k ok inSram f).fixed = s.fixed := by
  unfold State.startDesc
  split <;> simp [h]

@[simp] theorem State.readsOk_fixed (t : Nat) (pairs : List (Nat × Nat)) : (s.readsOk t pairs).2.fixed = s.fixed := by
  induction pairs generalizing s with
  | nil => rfl
  | cons x rest ih =>
    unfold State.readsOk
    dsimp only
    split <;> simp [ih]


/-! ### Matrix -/

@[simp] theorem execMatrixPassStart_fixed (tile : Nat) : StaysFixed s (execMatrixPassStart tile s) := by
  simp [execMatrixPassStart]

@[simp] theorem State.endPass_fixed (t : Nat) (p : MxPass) : (s.endPass t p).fixed = s.fixed := by simp [State.endPass]

@[simp] theorem execMatrixPassDone_fixed (tile : Nat) : StaysFixed s (execMatrixPassDone tile s) := by
  unfold execMatrixPassDone
  split <;> simp


/-! ### Vector -/

@[simp] theorem execVectorPassStart_fixed (tile : Nat) : StaysFixed s (execVectorPassStart tile s) := by
  simp [execVectorPassStart]

@[simp] theorem State.endVec_fixed (t : Nat) (b : Bytes) : (s.endVec t b).fixed = s.fixed := by simp [State.endVec]

@[simp] theorem execVectorPassDone_fixed (tile : Nat) : StaysFixed s (execVectorPassDone tile s) := by
  unfold execVectorPassDone
  split <;> simp

@[simp] theorem execReductionStart_fixed (tile : Nat) : StaysFixed s (execReductionStart tile s) := by simp [execReductionStart]
@[simp] theorem State.endRed_fixed (t : Nat) (b : Bytes) : (s.endRed t b).fixed = s.fixed := by simp [State.endRed]

@[simp] theorem execReductionDone_fixed (tile : Nat) : StaysFixed s (execReductionDone tile s) := by
  unfold execReductionDone
  split <;> simp


/-! ### Streams -/

@[simp] theorem State.suStart_fixed (t u : Nat) (b : Bytes) : (s.suStart t u b).fixed = s.fixed := by
  unfold State.suStart
  split <;> simp

@[simp] theorem execStreamDescStart_fixed (tile unit : Nat) : StaysFixed s (execStreamDescStart tile unit s) := by
  simp [execStreamDescStart]

@[simp] theorem State.suCharge_fixed (d a n : Nat) (write : Bool) : (s.suCharge d a n write).fixed = s.fixed := by
  simp [State.suCharge]

@[simp] theorem State.suServe_fixed (t u : Nat) (x : SuXfer) (fail : Nat) : (s.suServe t u x fail).fixed = s.fixed := by
  simp [State.suServe]

@[simp] theorem State.suFar_fixed (t u d w o : Nat) (x : SuXfer) : (s.suFar t u d w o x).fixed = s.fixed := by
  unfold State.suFar
  dsimp only
  split
  next sent => simp [State.send_fixed _ _ sent]
  · simp

@[simp] theorem State.suHost_fixed (t u d i : Nat) (x : SuXfer) : (s.suHost t u d i x).fixed = s.fixed := by simp [State.suHost]

@[simp] theorem State.suLocalXfer_fixed (t u d a : Nat) (x : SuXfer) : (s.suLocalXfer t u d a x).fixed = s.fixed := by
  simp [State.suLocalXfer]

@[simp] theorem State.sendXfer_fixed (t u d : Nat) (p : Reach) (x : SuXfer) : (s.sendXfer t u d p x).fixed = s.fixed := by
  unfold State.sendXfer
  split <;> simp

@[simp] theorem State.suIssue_fixed (t u : Nat) (r : Req) (d : SuDesc) (p : Reach) : (s.suIssue t u r d p).fixed = s.fixed := by
  simp [State.suIssue]

@[simp] theorem State.suNext_fixed (t u : Nat) (r : Req) (d : SuDesc) : (s.suNext t u r d).fixed = s.fixed := by
  simp only [State.suNext]
  (repeat' split) <;> simp

@[simp] theorem execStreamTransferIssue_fixed (tile unit : Nat) : StaysFixed s (execStreamTransferIssue tile unit s) := by
  unfold execStreamTransferIssue
  split <;> simp

@[simp] theorem State.postMany_fixed (t sem n : Nat) : (s.postMany t sem n).fixed = s.fixed := by
  induction n generalizing s with
  | zero => rfl
  | succ n ih => simp [State.postMany, ih]

@[simp] theorem State.postSlots_fixed (t u : Nat) (d : SuDesc) : (s.postSlots t u d).fixed = s.fixed := by
  simp [State.postSlots]

@[simp] theorem State.postAll_fixed (t u : Nat) (prev : Bool) (descs : List SuDesc) :
    (s.postAll t u prev descs).fixed = s.fixed := by
  induction descs generalizing s prev with
  | nil => rfl
  | cons d rest ih => simp [State.postAll, ih]

@[simp] theorem State.endDescs_fixed (fuel t u : Nat) : (s.endDescs fuel t u).fixed = s.fixed := by
  induction fuel generalizing s with
  | zero => rfl
  | succ n ih =>
    unfold State.endDescs
    (repeat' split) <;> simp [ih]

@[simp] theorem State.suSettle_fixed (t u : Nat) : (s.suSettle t u).fixed = s.fixed := by simp [State.suSettle]
@[simp] theorem State.endXfer_fixed (t u : Nat) (x : SuXfer) : (s.endXfer t u x).fixed = s.fixed := by simp [State.endXfer]

@[simp] theorem execStreamTransferDone_fixed (tile unit : Nat) : StaysFixed s (execStreamTransferDone tile unit s) := by
  unfold execStreamTransferDone
  split <;> simp


/-! ### Late -/

@[simp] theorem State.streamServed_fixed (t u dseq addr : Nat) (data : Bytes) (fail : Nat) :
    (s.streamServed t u dseq addr data fail).fixed = s.fixed := by
  simp [State.streamServed]

@[simp] theorem State.giveHost_fixed (iss : Issuer) (data : Bytes) : (s.giveHost iss data).fixed = s.fixed := by
  unfold State.giveHost
  split <;> simp

@[simp] theorem State.failHost_fixed (iss : Issuer) (w : HostFail) (before : Bytes) :
    (s.failHost iss w before).fixed = s.fixed := by
  unfold State.failHost
  (repeat' split) <;> simp

@[simp] theorem State.endRead_fixed (iss : Issuer) (off total : Nat) (r : Bytes ⊕ HostFail) :
    (s.endRead iss off total r).fixed = s.fixed := by
  simp only [State.endRead]
  split <;> simp

@[simp] theorem State.countDn_fixed (r : HostRead) : (s.countDn r).fixed = s.fixed := by
  unfold State.countDn
  split <;> simp

@[simp] theorem State.completion_fixed (tag : Nat) (data : Bytes) (e : CplErr) : (s.completion tag data e).fixed = s.fixed := by
  simp only [State.completion]
  split <;> simp

@[simp] theorem State.takeCompletion_fixed (tag : Nat) (data : Bytes) (e : CplErr) :
    (s.takeCompletion tag data e).fixed = s.fixed := by
  simp [State.takeCompletion]

@[simp] theorem execRingEntryFetchDone_fixed (tag : Nat) (data : Bytes) : StaysFixed s (execRingEntryFetchDone tag data s) := by
  simp [execRingEntryFetchDone]

@[simp] theorem execHostReadCompletion_fixed (tag : Nat) (data : Bytes) (err : CplErr) :
    StaysFixed s (execHostReadCompletion tag data err s) := by
  simp [execHostReadCompletion]

@[simp] theorem State.readTimeout_fixed (tag : Nat) : (s.readTimeout tag).fixed = s.fixed := by
  simp only [State.readTimeout]
  split <;> simp

@[simp] theorem execCompletionTimeout_fixed (tag : Nat) : StaysFixed s (execCompletionTimeout tag s) := by
  simp [execCompletionTimeout]

@[simp] theorem State.writeLeft_fixed (iss : Issuer) : (s.writeLeft iss).fixed = s.fixed := by
  unfold State.writeLeft
  (repeat' split) <;> simp

@[simp] theorem State.writeFault_fixed (iss : Issuer) : (s.writeFault iss).fixed = s.fixed := by
  unfold State.writeFault
  split <;> simp

@[simp] theorem State.translatedAcc_fixed (x : PendXlate) (e : AtsEntry) : (s.translatedAcc x e).fixed = s.fixed := by
  simp [State.translatedAcc]

@[simp] theorem State.translated_fixed (fn iova target log2 : Nat) (r w : Bool) :
    (s.translated fn iova target log2 r w).fixed = s.fixed := by
  simp only [State.translated]
  split <;> simp

@[simp] theorem execTranslationCompletion_fixed (fn iova target log2 : Nat) (r w : Bool) :
    StaysFixed s (execTranslationCompletion fn iova target log2 r w s) := by
  simp [execTranslationCompletion]


/-! ### RegWrite -/

@[simp] theorem State.ringCfg_fixed (fn id : Nat) (x : RegW) : (s.ringCfg fn id x).fixed = s.fixed := by simp [State.ringCfg]

@[simp] theorem State.ringRegWrite_fixed (fn id o : Nat) (x : RegW) : (s.ringRegWrite fn id o x).fixed = s.fixed := by
  unfold State.ringRegWrite
  split <;> simp

@[simp] theorem State.ringWrite_fixed (fn o : Nat) (x : RegW) : (s.ringWrite fn o x).fixed = s.fixed := by
  simp [State.ringWrite]

@[simp] theorem State.hubWrite_fixed (o : Nat) (x : RegW) : (s.hubWrite o x).fixed = s.fixed := by simp [State.hubWrite]
@[simp] theorem State.fgrWrite_fixed (o : Nat) (x : RegW) : (s.fgrWrite o x).fixed = s.fixed := by simp [State.fgrWrite]
@[simp] theorem State.hrdWrite_fixed (o : Nat) (x : RegW) : (s.hrdWrite o x).fixed = s.fixed := by simp [State.hrdWrite]

@[simp] theorem State.tmrGroupWrite_fixed (n o : Nat) (x : RegW) : (s.tmrGroupWrite n o x).fixed = s.fixed := by
  unfold State.tmrGroupWrite
  split <;> simp

@[simp] theorem State.tmrWrite_fixed (o : Nat) (x : RegW) : (s.tmrWrite o x).fixed = s.fixed := by
  unfold State.tmrWrite
  (repeat' split) <;> simp

@[simp] theorem State.pfWrite_fixed (o : Nat) (x : RegW) : (s.pfWrite o x).fixed = s.fixed := by
  unfold State.pfWrite
  exact ite_fixed (State.hubWrite_fixed ..) (ite_fixed (State.ringWrite_fixed ..) (ite_fixed (State.fgrWrite_fixed ..)
    (ite_fixed (State.hrdWrite_fixed ..) (ite_fixed (State.modStack_fixed ..) (ite_fixed (State.modTile_fixed ..)
    (ite_fixed (State.tmrWrite_fixed ..) (ite_fixed (fixed_of_eq rfl rfl) (ite_fixed (ite_fixed (State.acctSnap_fixed _) rfl)
    (ite_fixed (fixed_of_eq rfl rfl) rfl)))))))))

@[simp] theorem State.msixWrite_fixed (fn o : Nat) (x : RegW) : (s.msixWrite fn o x).fixed = s.fixed := by
  simp [State.msixWrite]

@[simp] theorem State.ctrlPut_fixed (fn off : Nat) (x : RegW) : (s.ctrlPut fn off x).fixed = s.fixed := by
  unfold State.ctrlPut
  (repeat' split) <;> simp

@[simp] theorem State.ctrlWrite_fixed (fn off : Nat) (data : Bytes) : (s.ctrlWrite fn off data).fixed = s.fixed := by
  unfold State.ctrlWrite
  (repeat' split) <;> simp

@[simp] theorem execRingCfgWrite_fixed (fn off : Nat) (data : Bytes) : StaysFixed s (execRingCfgWrite fn off data s) := by
  simp [execRingCfgWrite]

@[simp] theorem execRegWrite_fixed (fn off : Nat) (data : Bytes) : StaysFixed s (execRegWrite fn off data s) := by
  simp [execRegWrite]

@[simp] theorem State.lowRead_fixed (fn off : Nat) : (s.lowRead fn off).fixed = s.fixed := by
  unfold State.lowRead
  split <;> simp

@[simp] theorem execCounterLowRead_fixed (fn off : Nat) : StaysFixed s (execCounterLowRead fn off s) := by
  simp [execCounterLowRead]

@[simp] theorem State.refusedRead_fixed (fn off len : Nat) : (s.refusedRead fn off len).fixed = s.fixed := by
  unfold State.refusedRead
  split <;> simp

@[simp] theorem execRefusedRead_fixed (fn off len : Nat) : StaysFixed s (execRefusedRead fn off len s) := by
  simp [execRefusedRead]

@[simp] theorem State.jtagRead_fixed (off : Nat) : (s.jtagRead off).fixed = s.fixed := by simp [State.jtagRead]
@[simp] theorem execJtagRegrd_fixed (off : Nat) : StaysFixed s (execJtagRegrd off s) := by simp [execJtagRegrd]

@[simp] theorem State.devTouch_fixed (fn a n : Nat) (write : Bool) : (s.devTouch fn a n write).fixed = s.fixed := by
  unfold State.devTouch
  split
  · rfl
  · cases touched : s.touchLines (fnDen fn) false write false (linesOf a n) with
    | none => rfl
    | some t => exact State.touchLines_fixed _ _ _ _ _ _ touched

@[simp] theorem State.devmemPut_fixed (fn a : Nat) (data : Bytes) : (s.devmemPut fn a data).fixed = s.fixed := by
  simp only [State.devmemPut]
  split <;> simp

@[simp] theorem State.devmemGet_fixed (fn a n : Nat) : (s.devmemGet fn a n).2.2.fixed = s.fixed := by
  unfold State.devmemGet
  (repeat' split) <;> simp

@[simp] theorem State.devmemWrite_fixed (fn o : Nat) (data : Bytes) : (s.devmemWrite fn o data).fixed = s.fixed := by
  unfold State.devmemWrite
  split <;> simp

@[simp] theorem State.devmemData_fixed (fn : Nat) (data : Bytes) (ep : Bool) : (s.devmemData fn data ep).fixed = s.fixed := by
  simp [State.devmemData]

@[simp] theorem State.devmemRead_fixed (fn o n : Nat) : (s.devmemRead fn o n).fixed = s.fixed := by
  unfold State.devmemRead
  split <;> simp

@[simp] theorem execDevmemWrite_fixed (fn off : Nat) (data : Bytes) : StaysFixed s (execDevmemWrite fn off data s) := by
  simp [execDevmemWrite]

@[simp] theorem execDevmemRead_fixed (fn off len : Nat) : StaysFixed s (execDevmemRead fn off len s) := by simp [execDevmemRead]

@[simp] theorem State.release_fixed (t : HeldTlp) : (s.release t).fixed = s.fixed := by
  unfold State.release
  split <;> simp

@[simp] theorem State.hushFaults_fixed : s.hushFaults.fixed = s.fixed := by simp [State.hushFaults]
@[simp] theorem State.releaseAll_fixed : s.releaseAll.fixed = s.fixed := by simp [State.releaseAll]
@[simp] theorem State.hushLeave_fixed (code : Nat) : (s.hushLeave code).fixed = s.fixed := by simp [State.hushLeave]
@[simp] theorem State.hushCool_fixed : s.hushCool.fixed = s.fixed := by simp [State.hushCool]
@[simp] theorem State.holdCool_fixed : s.holdCool.fixed = s.fixed := by simp [State.holdCool]

@[simp] theorem State.hushExit_fixed : s.hushExit.fixed = s.fixed := by
  unfold State.hushExit
  (repeat' split) <;> simp

@[simp] theorem execHushExit_fixed : StaysFixed s (execHushExit s) := by simp [execHushExit]

/-! ### Serial -/

@[simp] theorem State.uartNak_fixed (reason : Nat) : (s.uartNak reason).fixed = s.fixed := by simp [State.uartNak]

@[simp] theorem State.uartFrame_fixed (frame : Bytes) (cfg : Bool) (f : State → Nat → Bytes → State) (h : ∀ v i j, (f v i
    j).fixed = v.fixed) :
    (s.uartFrame frame cfg f).fixed = s.fixed := by
  simp only [State.uartFrame]
  (repeat' split) <;> simp [h]

@[simp] theorem State.uartCount_fixed : s.uartCount.fixed = s.fixed := by simp [State.uartCount]
@[simp] theorem State.uartTake_fixed (p : Bytes) : (s.uartTake p).fixed = s.fixed := by simp [State.uartTake]
@[simp] theorem State.uartGood_fixed (ty : Nat) (p : Bytes) : (s.uartGood ty p).fixed = s.fixed := by simp [State.uartGood]
@[simp] theorem execUartCmdFrame_fixed (frame : Bytes) : StaysFixed s (execUartCmdFrame frame s) := by simp [execUartCmdFrame]
@[simp] theorem State.uartCfg_fixed (_ty : Nat) (p : Bytes) : (s.uartCfg _ty p).fixed = s.fixed := by simp [State.uartCfg]
@[simp] theorem execUartCfgFrame_fixed (frame : Bytes) : StaysFixed s (execUartCfgFrame frame s) := by simp [execUartCfgFrame]

@[simp] theorem execUartCfgApply_fixed : StaysFixed s (execUartCfgApply s) := by
  unfold execUartCfgApply
  split <;> simp

@[simp] theorem execUartFrameGap_fixed : StaysFixed s (execUartFrameGap s) := by simp [execUartFrameGap]
@[simp] theorem execUartBreak_fixed : StaysFixed s (execUartBreak s) := by simp [execUartBreak]

@[simp] theorem State.mgtRecv_fixed (m : Bytes) (f : State → State) (h : ∀ v, (f v).fixed = v.fixed) :
    (s.mgtRecv m f).fixed = s.fixed := by
  simp [State.mgtRecv, h]

@[simp] theorem State.mgtPut_fixed (dst ty : Nat) (body : Bytes) : (s.mgtPut dst ty body).fixed = s.fixed := by
  simp [State.mgtPut]

@[simp] theorem execPing_fixed (msg : Bytes) : StaysFixed s (execPing msg s) := by simp [execPing]
@[simp] theorem execWake_fixed (msg : Bytes) : StaysFixed s (execWake msg s) := by simp [execWake]
@[simp] theorem execSensors_fixed (msg : Bytes) : StaysFixed s (execSensors msg s) := by simp [execSensors]
@[simp] theorem State.putAlert_fixed : s.putAlert.fixed = s.fixed := by simp [State.putAlert]
@[simp] theorem execAlertSend_fixed : StaysFixed s (execAlertSend s) := by simp [execAlertSend]

@[simp] theorem execMgtArbLoss_fixed : StaysFixed s (execMgtArbLoss s) := by
  unfold execMgtArbLoss
  split <;> simp

@[simp] theorem execMgtRetry_fixed : StaysFixed s (execMgtRetry s) := by
  unfold execMgtRetry
  split <;> simp

@[simp] theorem execMgtRxDiscard_fixed : StaysFixed s (execMgtRxDiscard s) := by simp [execMgtRxDiscard]
@[simp] theorem execSmbusArp_fixed (addr : BitVec 7) : StaysFixed s (execSmbusArp addr s) := by simp [execSmbusArp]
@[simp] theorem execSmbusPecDrop_fixed : StaysFixed s (execSmbusPecDrop s) := by simp [execSmbusPecDrop]

@[simp] theorem State.mctpSay_fixed (vdm : Bool) (ty cmd : Nat) (data : Bytes) :
    (s.mctpSay vdm ty cmd data).fixed = s.fixed := by
  simp [State.mctpSay]

@[simp] theorem State.setEid_fixed (vdm : Bool) (e : BitVec 8) : (s.setEid vdm e).fixed = s.fixed := by simp [State.setEid]

@[simp] theorem execSetEndpointId_fixed (vdm : Bool) (msg : Bytes) : StaysFixed s (execSetEndpointId vdm msg s) := by
  simp [execSetEndpointId]

@[simp] theorem execGetEndpointId_fixed (vdm : Bool) (_msg : Bytes) : StaysFixed s (execGetEndpointId vdm _msg s) := by
  simp [execGetEndpointId]

@[simp] theorem execGetMctpVersionSupport_fixed (vdm : Bool) (msg : Bytes) :
    StaysFixed s (execGetMctpVersionSupport vdm msg s) := by
  simp [execGetMctpVersionSupport]

@[simp] theorem execGetMessageTypeSupport_fixed (vdm : Bool) (_msg : Bytes) :
    StaysFixed s (execGetMessageTypeSupport vdm _msg s) := by
  simp [execGetMessageTypeSupport]

@[simp] theorem execGetEndpointUuid_fixed (vdm : Bool) (_msg : Bytes) : StaysFixed s (execGetEndpointUuid vdm _msg s) := by
  simp [execGetEndpointUuid]

@[simp] theorem execGetTid_fixed (vdm : Bool) (_msg : Bytes) : StaysFixed s (execGetTid vdm _msg s) := by simp [execGetTid]
@[simp] theorem execSetTid_fixed (vdm : Bool) (msg : Bytes) : StaysFixed s (execSetTid vdm msg s) := by simp [execSetTid]

@[simp] theorem execGetPldmVersion_fixed (vdm : Bool) (msg : Bytes) : StaysFixed s (execGetPldmVersion vdm msg s) := by
  simp [execGetPldmVersion]

@[simp] theorem execGetPldmTypes_fixed (vdm : Bool) (_msg : Bytes) : StaysFixed s (execGetPldmTypes vdm _msg s) := by
  simp [execGetPldmTypes]

@[simp] theorem execGetPldmCommands_fixed (vdm : Bool) (msg : Bytes) : StaysFixed s (execGetPldmCommands vdm msg s) := by
  simp [execGetPldmCommands]

@[simp] theorem execGetPdrRepositoryInfo_fixed (vdm : Bool) (_msg : Bytes) :
    StaysFixed s (execGetPdrRepositoryInfo vdm _msg s) := by
  simp [execGetPdrRepositoryInfo]

@[simp] theorem execGetPdr_fixed (vdm : Bool) (_msg : Bytes) : StaysFixed s (execGetPdr vdm _msg s) := by simp [execGetPdr]

@[simp] theorem execGetSensorReading_fixed (vdm : Bool) (msg : Bytes) : StaysFixed s (execGetSensorReading vdm msg s) := by
  unfold execGetSensorReading
  (repeat' split) <;> simp

@[simp] theorem execGetStateSensorReadings_fixed (vdm : Bool) (msg : Bytes) :
    StaysFixed s (execGetStateSensorReadings vdm msg s) := by
  unfold execGetStateSensorReadings
  (repeat' split) <;> simp

@[simp] theorem State.usbSetup_fixed (f : State → State) (h : ∀ v, (f v).fixed = v.fixed) : (s.usbSetup f).fixed = s.fixed := by
  simp [State.usbSetup, h]

@[simp] theorem execUsbCommand_fixed (pkt : Bytes) : StaysFixed s (execUsbCommand pkt s) := by simp [execUsbCommand]

@[simp] theorem execGetReply_fixed (tag : W16) : StaysFixed s (execGetReply tag s) := by
  refine (staysFixed_next ..).2 (State.usbSetup_fixed _ _ fun u => ?_)
  split
  · simp
  · split
    · split <;> simp
    · simp

@[simp] theorem execUsbSetupStall_fixed (setup : Bytes) : StaysFixed s (execUsbSetupStall setup s) := by
  simp [execUsbSetupStall]

@[simp] theorem State.ep1End_fixed (status : Nat) : (s.ep1End status).fixed = s.fixed := by
  unfold State.ep1End
  split <;> simp

@[simp] theorem State.usbReset_fixed (partialCmd : Bool) : (s.usbReset partialCmd).fixed = s.fixed := by simp [State.usbReset]

@[simp] theorem execUsbBusReset_fixed (partialCmd high : Bool) : StaysFixed s (execUsbBusReset partialCmd high s) := by
  simp [execUsbBusReset]

@[simp] theorem execVbusLoss_fixed (partialCmd : Bool) : StaysFixed s (execVbusLoss partialCmd s) := by simp [execVbusLoss]
@[simp] theorem execVbusReturn_fixed : StaysFixed s (execVbusReturn s) := by simp [execVbusReturn]
@[simp] theorem State.ep1In_fixed (x : BulkXfer) : (s.ep1In x).fixed = s.fixed := by simp [State.ep1In]
@[simp] theorem State.ep1Out_fixed (x : BulkXfer) (data : Bytes) : (s.ep1Out x data).fixed = s.fixed := by simp [State.ep1Out]

@[simp] theorem execEp1Packet_fixed (data : Bytes) : StaysFixed s (execEp1Packet data s) := by
  unfold execEp1Packet
  split <;> simp

@[simp] theorem execEp1Timeout_fixed : StaysFixed s (execEp1Timeout s) := by simp [execEp1Timeout]

/-! ### Every command, and every step -/

/-- No command changes the queue or a fuse: each meaning's own lemma says so. -/
theorem exec_fixed (c : Instr) : StaysFixed s (exec c s) := by
  cases c <;> simp [exec]

end Fixed

/-- Every command keeps what Laws.Keeps lists: each meaning's own lemma says so. -/
theorem exec_keeps {ls : List Instr} {zs : W64 × Nat} (c : Instr) (s : State) (hk : Keeps ls zs s) : KeepsR ls zs (exec c s) :=
  match c with
  | .inlineDoorbell fn off data => execInlineDoorbell_keeps fn off data s hk
  | .tailDoorbell fn off data => execTailDoorbell_keeps fn off data s hk
  | .cqHeadDoorbell fn off data => execCqHeadDoorbell_keeps fn off data s hk
  | .ringEntryFetchDone tag data => execRingEntryFetchDone_keeps tag data s hk
  | .headWriteBack ring => execHeadWriteBack_keeps ring s hk
  | .ringCfgWrite fn off data => execRingCfgWrite_keeps fn off data s hk
  | .msixUnmask fn vec => execMsixUnmask_keeps fn vec s hk
  | .regWrite fn off data => execRegWrite_keeps fn off data s hk
  | .counterLowRead fn off => execCounterLowRead_keeps fn off s hk
  | .devmemWrite fn off data => execDevmemWrite_keeps fn off data s hk
  | .devmemRead fn off len => execDevmemRead_keeps fn off len s hk
  | .bmeClear fn => execBmeClear_keeps fn s hk
  | .bmeSet fn cfg => execBmeSet_keeps fn cfg s hk
  | .flr fn => execFlr_keeps fn s hk
  | .vfEnableClear byFlr => execVfEnableClear_keeps byFlr s hk
  | .flrDrainTimeout fn => execFlrDrainTimeout_keeps fn s hk
  | .atsInvalidate fn itag iova log2 => execAtsInvalidate_keeps fn itag iova log2 s hk
  | .translationCompletion fn iova target log2 r w => execTranslationCompletion_keeps fn iova target log2 r w s hk
  | .hostReadCompletion tag data err => execHostReadCompletion_keeps tag data err s hk
  | .completionTimeout tag => execCompletionTimeout_keeps tag s hk
  | .perstAssert b => execPerstAssert_keeps b s hk
  | .perstDeassert => execPerstDeassert_keeps s hk
  | .linkLoss => execLinkLoss_keeps s hk
  | .d3hotEntry => execD3hotEntry_keeps s hk
  | .d0Return => execD0Return_keeps s hk
  | .retainTimeout => execRetainTimeout_keeps s hk
  | .requestAdmit => execRequestAdmit_keeps s hk
  | .featureReadDone req => execFeatureReadDone_keeps req s hk
  | .requestPlace den => execRequestPlace_keeps den s hk
  | .taskStart req => execTaskStart_keeps req s hk
  | .tileWake tile => execTileWake_keeps tile s hk
  | .tileEndReport tile => execTileEndReport_keeps tile s hk
  | .taskAbortDone req => execTaskAbortDone_keeps req s hk
  | .guardExpiry tile => execGuardExpiry_keeps tile s hk
  | .tileDoze tile => execTileDoze_keeps tile s hk
  | .tilePrepareDone tile => execTilePrepareDone_keeps tile s hk
  | .mioTokenBoundary quad => execMioTokenBoundary_keeps quad s hk
  | .mioInputWord quad => execMioInputWord_keeps quad s hk
  | .peNop quad pe => execPeNop_keeps quad pe s hk
  | .peMov quad pe => execPeMov_keeps quad pe s hk
  | .peAdd quad pe => execPeAdd_keeps quad pe s hk
  | .peSub quad pe => execPeSub_keeps quad pe s hk
  | .peAnd quad pe => execPeAnd_keeps quad pe s hk
  | .peOr quad pe => execPeOr_keeps quad pe s hk
  | .peXor quad pe => execPeXor_keeps quad pe s hk
  | .peShl quad pe => execPeShl_keeps quad pe s hk
  | .peShr quad pe => execPeShr_keeps quad pe s hk
  | .peSra quad pe => execPeSra_keeps quad pe s hk
  | .peMul quad pe => execPeMul_keeps quad pe s hk
  | .peMulh quad pe => execPeMulh_keeps quad pe s hk
  | .peMinu quad pe => execPeMinu_keeps quad pe s hk
  | .peMaxu quad pe => execPeMaxu_keeps quad pe s hk
  | .peCmplt quad pe => execPeCmplt_keeps quad pe s hk
  | .peCmpeq quad pe => execPeCmpeq_keeps quad pe s hk
  | .peSel quad pe => execPeSel_keeps quad pe s hk
  | .peHash quad pe => execPeHash_keeps quad pe s hk
  | .peCrc quad pe => execPeCrc_keeps quad pe s hk
  | .peRange quad pe => execPeRange_keeps quad pe s hk
  | .peLut quad pe => execPeLut_keeps quad pe s hk
  | .peBkt quad pe => execPeBkt_keeps quad pe s hk
  | .peEmit quad pe => execPeEmit_keeps quad pe s hk
  | .peBrf quad pe => execPeBrf_keeps quad pe s hk
  | .mioOutputPass quad => execMioOutputPass_keeps quad s hk
  | .mioTokenClose quad => execMioTokenClose_keeps quad s hk
  | .mioTokenTimeout quad => execMioTokenTimeout_keeps quad s hk
  | .mioParityError quad slot => execMioParityError_keeps quad slot s hk
  | .sampleRecord => execSampleRecord_keeps s hk
  | .sampleRestart => execSampleRestart_keeps s hk
  | .foragerRecordArrive => execForagerRecordArrive_keeps s hk
  | .gatherIssue => execGatherIssue_keeps s hk
  | .arrivalReserve req smp grp ent => execArrivalReserve_keeps req smp grp ent s hk
  | .prefetchIssue req => execPrefetchIssue_keeps req s hk
  | .prefetchDone rid => execPrefetchDone_keeps rid s hk
  | .rowPooled rid => execRowPooled_keeps rid s hk
  | .histWalkBegin req => execHistWalkBegin_keeps req s hk
  | .histChunkPost req => execHistChunkPost_keeps req s hk
  | .histReadResume req => execHistReadResume_keeps req s hk
  | .tNop tile => execTNop_keeps tile s hk
  | .tAdd tile => execTAdd_keeps tile s hk
  | .tAddi tile => execTAddi_keeps tile s hk
  | .tSub tile => execTSub_keeps tile s hk
  | .tMul tile => execTMul_keeps tile s hk
  | .tAnd tile => execTAnd_keeps tile s hk
  | .tOr tile => execTOr_keeps tile s hk
  | .tXor tile => execTXor_keeps tile s hk
  | .tAndi tile => execTAndi_keeps tile s hk
  | .tShl tile => execTShl_keeps tile s hk
  | .tShr tile => execTShr_keeps tile s hk
  | .tSra tile => execTSra_keeps tile s hk
  | .tSlt tile => execTSlt_keeps tile s hk
  | .tSltu tile => execTSltu_keeps tile s hk
  | .tMin tile => execTMin_keeps tile s hk
  | .tMax tile => execTMax_keeps tile s hk
  | .tLi tile => execTLi_keeps tile s hk
  | .tLih tile => execTLih_keeps tile s hk
  | .tRdsr tile => execTRdsr_keeps tile s hk
  | .tBeq tile => execTBeq_keeps tile s hk
  | .tBne tile => execTBne_keeps tile s hk
  | .tBlt tile => execTBlt_keeps tile s hk
  | .tBge tile => execTBge_keeps tile s hk
  | .tJal tile => execTJal_keeps tile s hk
  | .tJr tile => execTJr_keeps tile s hk
  | .tEnd tile => execTEnd_keeps tile s hk
  | .tTrap tile => execTTrap_keeps tile s hk
  | .tYield tile => execTYield_keeps tile s hk
  | .tLds tile => execTLds_keeps tile s hk
  | .tSts tile => execTSts_keeps tile s hk
  | .tLdg tile => execTLdg_keeps tile s hk
  | .tStg tile => execTStg_keeps tile s hk
  | .tLdgb tile => execTLdgb_keeps tile s hk
  | .tStgb tile => execTStgb_keeps tile s hk
  | .tAtomv tile => execTAtomv_keeps tile s hk
  | .tAtoms tile => execTAtoms_keeps tile s hk
  | .tFence tile => execTFence_keeps tile s hk
  | .tExec tile => execTExec_keeps tile s hk
  | .tWaite tile => execTWaite_keeps tile s hk
  | .tSempost tile => execTSempost_keeps tile s hk
  | .tSemwait tile => execTSemwait_keeps tile s hk
  | .tSemrd tile => execTSemrd_keeps tile s hk
  | .tQsend tile => execTQsend_keeps tile s hk
  | .tQrecv tile => execTQrecv_keeps tile s hk
  | .tQwait tile => execTQwait_keeps tile s hk
  | .tBarrier tile => execTBarrier_keeps tile s hk
  | .tHnext tile => execTHnext_keeps tile s hk
  | .globalAccessDone tile acc => execGlobalAccessDone_keeps tile acc s hk
  | .quillDeliver tile => execQuillDeliver_keeps tile s hk
  | .tileParked req => execTileParked_keeps req s hk
  | .yieldCancel req => execYieldCancel_keeps req s hk
  | .taskResume req => execTaskResume_keeps req s hk
  | .matrixPassStart tile => execMatrixPassStart_keeps tile s hk
  | .matrixPassDone tile => execMatrixPassDone_keeps tile s hk
  | .vectorPassStart tile => execVectorPassStart_keeps tile s hk
  | .vectorPassDone tile => execVectorPassDone_keeps tile s hk
  | .reductionStart tile => execReductionStart_keeps tile s hk
  | .reductionDone tile => execReductionDone_keeps tile s hk
  | .streamDescStart tile unit => execStreamDescStart_keeps tile unit s hk
  | .streamTransferIssue tile unit => execStreamTransferIssue_keeps tile unit s hk
  | .streamTransferDone tile unit => execStreamTransferDone_keeps tile unit s hk
  | .hoardRequest slice ecc => execHoardRequest_keeps slice ecc s hk
  | .hoardAdd slice => execHoardAdd_keeps slice s hk
  | .hoardMax slice => execHoardMax_keeps slice s hk
  | .hoardMin slice => execHoardMin_keeps slice s hk
  | .cas64 slice => execCas64_keeps slice s hk
  | .swap64 slice => execSwap64_keeps slice s hk
  | .rowCommit slice => execRowCommit_keeps slice s hk
  | .wayChangeDone way => execWayChangeDone_keeps way s hk
  | .pinRefillDone table => execPinRefillDone_keeps table s hk
  | .flushDone => execFlushDone_keeps s hk
  | .hbmAccess pc ecc => execHbmAccess_keeps pc ecc s hk
  | .hbmScrubRead stack ecc => execHbmScrubRead_keeps stack ecc s hk
  | .hbmRowRepair stack => execHbmRowRepair_keeps stack s hk
  | .hbmRepairDone stack => execHbmRepairDone_keeps stack s hk
  | .hbmTempRead stack temp => execHbmTempRead_keeps stack temp s hk
  | .dieTempRead die temp => execDieTempRead_keeps die temp s hk
  | .hushExit => execHushExit_keeps s hk
  | .hushAlarm => execHushAlarm_keeps s hk
  | .standbyClockStop => execStandbyClockStop_keeps s hk
  | .powerLimiterEval p100 p1ms => execPowerLimiterEval_keeps p100 p1ms s hk
  | .tclkStep => execTclkStep_keeps s hk
  | .aonclkTrim ok => execAonclkTrim_keeps ok s hk
  | .energyCalibrate factor => execEnergyCalibrate_keeps factor s hk
  | .regulatorRefill => execRegulatorRefill_keeps s hk
  | .acctSnap => execAcctSnap_keeps s hk
  | .updateAccept den ring => execUpdateAccept_keeps den ring s hk
  | .updateStage den ring => execUpdateStage_keeps den ring s hk
  | .recordBlockReadDone den ring => execRecordBlockReadDone_keeps den ring s hk
  | .warrenSwitchApply => execWarrenSwitchApply_keeps s hk
  | .warrenPrepareTimeout => execWarrenPrepareTimeout_keeps s hk
  | .prepare port msg => execPrepare_keeps port msg s hk
  | .prepared port msg => execPrepared_keeps port msg s hk
  | .refusedMsg port msg => execRefusedMsg_keeps port msg s hk
  | .commit port msg => execCommit_keeps port msg s hk
  | .abort port msg => execAbort_keeps port msg s hk
  | .drained port msg => execDrained_keeps port msg s hk
  | .drainedSend => execDrainedSend_keeps s hk
  | .release port msg => execRelease_keeps port msg s hk
  | .swQuery port msg => execSwQuery_keeps port msg s hk
  | .swState port msg => execSwState_keeps port msg s hk
  | .heartbeat port msg => execHeartbeat_keeps port msg s hk
  | .heartbeatTick => execHeartbeatTick_keeps s hk
  | .warrenHoldEntry => execWarrenHoldEntry_keeps s hk
  | .claim port msg => execClaim_keeps port msg s hk
  | .hushNote port msg => execHushNote_keeps port msg s hk
  | .wakeNote port msg => execWakeNote_keeps port msg s hk
  | .surveyQ port msg => execSurveyQ_keeps port msg s hk
  | .surveyR port msg => execSurveyR_keeps port msg s hk
  | .rowRead port msg => execRowRead_keeps port msg s hk
  | .poolReq port msg => execPoolReq_keeps port msg s hk
  | .bulkRd port msg => execBulkRd_keeps port msg s hk
  | .bulkWr port msg => execBulkWr_keeps port msg s hk
  | .atomic port msg => execAtomic_keeps port msg s hk
  | .quill port msg => execQuill_keeps port msg s hk
  | .rowData port msg => execRowData_keeps port msg s hk
  | .bulkData port msg => execBulkData_keeps port msg s hk
  | .writeAck port msg => execWriteAck_keeps port msg s hk
  | .atomicRsp port msg => execAtomicRsp_keeps port msg s hk
  | .poolContrib port msg => execPoolContrib_keeps port msg s hk
  | .lctl port flit => execLctl_keeps port flit s hk
  | .transitMessage port msg => execTransitMessage_keeps port msg s hk
  | .xactTimeout tid => execXactTimeout_keeps tid s hk
  | .codewordReceive port header errs bad => execCodewordReceive_keeps port header errs bad s hk
  | .laneLockLost port lane => execLaneLockLost_keeps port lane s hk
  | .portDown port => execPortDown_keeps port s hk
  | .linkTrain port locked peerId peerPort family delay => execLinkTrain_keeps port locked peerId peerPort family delay s hk
  | .linkTrainRetry port => execLinkTrainRetry_keeps port s hk
  | .cmdNop src => execCmdNop_keeps src s hk
  | .identify src => execIdentify_keeps src s hk
  | .devStatus src => execDevStatus_keeps src s hk
  | .profileGet src => execProfileGet_keeps src s hk
  | .profileWrite src => execProfileWrite_keeps src s hk
  | .profileSelect src => execProfileSelect_keeps src s hk
  | .profileClear src => execProfileClear_keeps src s hk
  | .devHush src => execDevHush_keeps src s hk
  | .scrubRetained src => execScrubRetained_keeps src s hk
  | .p2pProbe src => execP2pProbe_keeps src s hk
  | .denCreate src => execDenCreate_keeps src s hk
  | .denConfigTiles src => execDenConfigTiles_keeps src s hk
  | .denConfigHbm src => execDenConfigHbm_keeps src s hk
  | .denConfigWays src => execDenConfigWays_keeps src s hk
  | .denConfigMioter src => execDenConfigMioter_keeps src s hk
  | .denConfigRegulator src => execDenConfigRegulator_keeps src s hk
  | .denConfigSched src => execDenConfigSched_keeps src s hk
  | .denConfigFlr src => execDenConfigFlr_keeps src s hk
  | .denConfigToken src => execDenConfigToken_keeps src s hk
  | .denConfigGran src => execDenConfigGran_keeps src s hk
  | .denQuery src => execDenQuery_keeps src s hk
  | .denDestroy src => execDenDestroy_keeps src s hk
  | .denResume src => execDenResume_keeps src s hk
  | .histDirSet src => execHistDirSet_keeps src s hk
  | .attach src => execAttach_keeps src s hk
  | .modelLoad src => execModelLoad_keeps src s hk
  | .modelUnload src => execModelUnload_keeps src s hk
  | .modelQuery src => execModelQuery_keeps src s hk
  | .tableCreate src => execTableCreate_keeps src s hk
  | .tableModify src => execTableModify_keeps src s hk
  | .tableVersionSet src => execTableVersionSet_keeps src s hk
  | .tableSwitch src => execTableSwitch_keeps src s hk
  | .tableSwitchWarren src => execTableSwitchWarren_keeps src s hk
  | .tableQuery src => execTableQuery_keeps src s hk
  | .tableDelete src => execTableDelete_keeps src s hk
  | .ctxStore src => execCtxStore_keeps src s hk
  | .ctxLoad src => execCtxLoad_keeps src s hk
  | .ctxLoadDone quad => execCtxLoadDone_keeps quad s hk
  | .ctxSelect src => execCtxSelect_keeps src s hk
  | .ctxFree src => execCtxFree_keeps src s hk
  | .ctxQuery src => execCtxQuery_keeps src s hk
  | .warrenStatus src => execWarrenStatus_keeps src s hk
  | .routeSet src => execRouteSet_keeps src s hk
  | .linkCtrlDisable src => execLinkCtrlDisable_keeps src s hk
  | .linkCtrlEnable src => execLinkCtrlEnable_keeps src s hk
  | .linkCtrlRetrain src => execLinkCtrlRetrain_keeps src s hk
  | .linkCtrlClearFences src => execLinkCtrlClearFences_keeps src s hk
  | .warrenSurvey src => execWarrenSurvey_keeps src s hk
  | .marginRun src => execMarginRun_keeps src s hk
  | .tileFence src => execTileFence_keeps src s hk
  | .tileUnfence src => execTileUnfence_keeps src s hk
  | .ledgerRead src => execLedgerRead_keeps src s hk
  | .diagRun src => execDiagRun_keeps src s hk
  | .tagRead src => execTagRead_keeps src s hk
  | .fwStage src => execFwStage_keeps src s hk
  | .fwActivate src => execFwActivate_keeps src s hk
  | .fwQuery src => execFwQuery_keeps src s hk
  | .fwCommit src => execFwCommit_keeps src s hk
  | .uartCmdFrame frame => execUartCmdFrame_keeps frame s hk
  | .uartCfgFrame frame => execUartCfgFrame_keeps frame s hk
  | .uartCfgApply => execUartCfgApply_keeps s hk
  | .uartFrameGap => execUartFrameGap_keeps s hk
  | .uartBreak => execUartBreak_keeps s hk
  | .ping msg => execPing_keeps msg s hk
  | .wake msg => execWake_keeps msg s hk
  | .sensors msg => execSensors_keeps msg s hk
  | .alertSend => execAlertSend_keeps s hk
  | .mgtArbLoss => execMgtArbLoss_keeps s hk
  | .mgtRetry => execMgtRetry_keeps s hk
  | .smbusArp addr => execSmbusArp_keeps addr s hk
  | .setEndpointId vdm msg => execSetEndpointId_keeps vdm msg s hk
  | .getEndpointId vdm msg => execGetEndpointId_keeps vdm msg s hk
  | .getMctpVersionSupport vdm msg => execGetMctpVersionSupport_keeps vdm msg s hk
  | .getMessageTypeSupport vdm msg => execGetMessageTypeSupport_keeps vdm msg s hk
  | .getEndpointUuid vdm msg => execGetEndpointUuid_keeps vdm msg s hk
  | .getTid vdm msg => execGetTid_keeps vdm msg s hk
  | .setTid vdm msg => execSetTid_keeps vdm msg s hk
  | .getPldmVersion vdm msg => execGetPldmVersion_keeps vdm msg s hk
  | .getPldmTypes vdm msg => execGetPldmTypes_keeps vdm msg s hk
  | .getPldmCommands vdm msg => execGetPldmCommands_keeps vdm msg s hk
  | .getPdrRepositoryInfo vdm msg => execGetPdrRepositoryInfo_keeps vdm msg s hk
  | .getPdr vdm msg => execGetPdr_keeps vdm msg s hk
  | .getSensorReading vdm msg => execGetSensorReading_keeps vdm msg s hk
  | .getStateSensorReadings vdm msg => execGetStateSensorReadings_keeps vdm msg s hk
  | .usbCommand pkt => execUsbCommand_keeps pkt s hk
  | .getReply tag => execGetReply_keeps tag s hk
  | .usbSetupStall setup => execUsbSetupStall_keeps setup s hk
  | .usbBusReset partialCmd high => execUsbBusReset_keeps partialCmd high s hk
  | .vbusLoss partialCmd => execVbusLoss_keeps partialCmd s hk
  | .ep1Packet data => execEp1Packet_keeps data s hk
  | .ep1Timeout => execEp1Timeout_keeps s hk
  | .powerOn b => execPowerOn_keeps b s hk
  | .sysReset ns b => execSysReset_keeps ns b s hk
  | .journalReadDone => execJournalReadDone_keeps s hk
  | .bringUpComplete => execBringUpComplete_keeps s hk
  | .wdgCpExpiry => execWdgCpExpiry_keeps s hk
  | .wdgCpGraceEnd b => execWdgCpGraceEnd_keeps b s hk
  | .wdgAonExpiry b => execWdgAonExpiry_keeps b s hk
  | .pllLost b => execPllLost_keeps b s hk
  | .denFault cause den index => execDenFault_keeps cause den index s hk
  | .deviceFault cause b => execDeviceFault_keeps cause b s hk
  | .fatalFault cause b => execFatalFault_keeps cause b s hk
  | .tmrGstart start defer => execTmrGstart_keeps start defer s hk
  | .tmrDeferredStart => execTmrDeferredStart_keeps s hk
  | .tmrGateWrite tmr value => execTmrGateWrite_keeps tmr value s hk
  | .tmrMatch tmr => execTmrMatch_keeps tmr s hk
  | .jtagHalt => execJtagHalt_keeps s hk
  | .jtagRegrd off => execJtagRegrd_keeps off s hk
  | .extest cells => execExtest_keeps cells s hk
  | .clamp => execClamp_keeps s hk
  | .highz => execHighz_keeps s hk
  | .samplePreload balls cells => execSamplePreload_keeps balls cells s hk
  | .idcode => execIdcode_keeps s hk
  | .bypass => execBypass_keeps s hk
  | .testLogicReset => execTestLogicReset_keeps s hk
  | .ledgerCommit => execLedgerCommit_keeps s hk
  | .ledgerSectorRecycle => execLedgerSectorRecycle_keeps s hk
  | .ledgerHourly => execLedgerHourly_keeps s hk
  | .tagUpdate => execTagUpdate_keeps s hk
  | .tagFlipRetry => execTagFlipRetry_keeps s hk
  | .techAreaCheck => execTechAreaCheck_keeps s hk
  | .inventory => execInventory_keeps s hk
  | .stayQuiet => execStayQuiet_keeps s hk
  | .readSingleBlock block => execReadSingleBlock_keeps block s hk
  | .writeSingleBlock block data => execWriteSingleBlock_keeps block data s hk
  | .readMultipleBlocks block count => execReadMultipleBlocks_keeps block count s hk
  | .select => execSelect_keeps s hk
  | .resetToReady => execResetToReady_keeps s hk
  | .getSystemInformation => execGetSystemInformation_keeps s hk
  | .extendedReadSingle block => execExtendedReadSingle_keeps block s hk
  | .extendedWriteSingle block data => execExtendedWriteSingle_keeps block data s hk
  | .extendedReadMultiple block count => execExtendedReadMultiple_keeps block count s hk
  | .extendedGetSystemInfo => execExtendedGetSystemInfo_keeps s hk
  | .rfSessionEnd => execRfSessionEnd_keeps s hk
  | .powerLoss => execPowerLoss_keeps s hk
  | .vbusReturn => execVbusReturn_keeps s hk
  | .swQueryTimeout => execSwQueryTimeout_keeps s hk
  | .surveyTimeout => execSurveyTimeout_keeps s hk
  | .debugHaltEnd => execDebugHaltEnd_keeps s hk
  | .commandDone id result => execCommandDone_keeps id result s hk
  | .mgtRxDiscard => execMgtRxDiscard_keeps s hk
  | .smbusPecDrop => execSmbusPecDrop_keeps s hk
  | .linkMsg port msg => execLinkMsg_keeps port msg s hk
  | .refusedRead fn off len => execRefusedRead_keeps fn off len s hk

/-- A step takes the front command off the queue, and leaves the fuses as they were. -/
theorem step_fuses {s t : State} (goes : step s = .next t) :
    t.boot.serial = s.boot.serial ∧ t.boot.fuseWdg = s.boot.fuseWdg := by
  have fuses : t.fixed.2 = s.fixed.2 := by
    unfold step at goes
    split at goes
    · cases goes
      exact congrArg Prod.snd (State.tick_fixed s)
    next c rest _ =>
      have same : t.fixed = State.fixed { s with pending := rest } := exec_fixed _ c t goes
      rw [same]
      rfl
  exact Prod.mk.inj fuses

theorem step_inv {s t : State} (holds : s.inv) (goes : step s = .next t) : t.inv := by
  obtain ⟨canonical, vfs⟩ := holds
  have kept : ∃ ls zs, Keeps ls zs t := by
    unfold step at goes
    split at goes
    · cases goes
      exact ⟨_, _, State.tick_keeps s ⟨rfl, canonical, rfl, vfs⟩⟩
    next c rest _ => exact ⟨_, _, exec_keeps c { s with pending := rest } ⟨rfl, canonical, rfl, vfs⟩ t goes⟩
  obtain ⟨_, _, _, canonical', _, vfs'⟩ := kept
  exact ⟨canonical', vfs'⟩

/-- Settles O3: every meaning leaves the queue as it is (`exec_fixed`). -/
theorem commandsLeaveTheQueue : Obligations.CommandsLeaveTheQueue := by
  unfold Obligations.CommandsLeaveTheQueue
  intro c s t goes
  exact congrArg Prod.fst (exec_fixed s c t goes)

/-- Settles O4: the invariant by the laws of each meaning (`exec_keeps`), the fuses by `exec_fixed`. -/
theorem stepKeepsInvariant : Obligations.StepKeepsInvariant := by
  unfold Obligations.StepKeepsInvariant
  exact ⟨fun _ _ => step_inv, fun _ _ => step_fuses⟩

end Sys2Proof.Machine
end

section
/-!
Totality: every meaning answers a next state, but for the pulse on SYS_RESET# of which the spec says nothing (23 R750).
-/

namespace Sys2Proof.Machine

theorem exec_ledgerCommit_goesOn (s : State) : ∃ t, exec .ledgerCommit s = .next t := by
  change ∃ t, execLedgerCommit s = .next t
  unfold execLedgerCommit
  split
  · exact ⟨s, rfl⟩
  · split
    · dsimp only
      split
      · exact ⟨_, rfl⟩
      · exact ⟨_, rfl⟩
    · exact ⟨s, rfl⟩

/-- 18 R592, 23 R750, R757: a pulse that is ignored, the one without a meaning, or a reset. -/
theorem exec_sysReset_goesOn (ns : Nat) (b : BootIn) (s : State) : (∃ t, exec (.sysReset ns b) s = .next t) ∨
    (1000 ≤ ns ∧ ns < 10000 ∧ s.pwr.st ≠ .off ∧ s.tap.owned = false ∧ exec (.sysReset ns b) s = .fault .resetPulseUnspecified) := by
  change (∃ t, execSysReset ns b s = .next t) ∨ (_ ∧ _ ∧ _ ∧ _ ∧ execSysReset ns b s = _)
  unfold execSysReset
  by_cases ignored : s.pwr.st = .off ∨ s.tap.owned = true ∨ ns < 1000
  · exact .inl ⟨s, if_pos ignored⟩
  · rw [if_neg ignored]
    simp only [not_or, Bool.not_eq_true, Nat.not_lt] at ignored
    obtain ⟨powered, free, long⟩ := ignored
    by_cases short : ns < 10000
    · exact .inr ⟨long, short, powered, free, if_pos short⟩
    · exact .inl ⟨_, if_neg short⟩

/-- Settles O2: each meaning but two is a next state as it stands; the two are looked into. -/
theorem everyCommandGoesOn : Obligations.EveryCommandGoesOn := by
  unfold Obligations.EveryCommandGoesOn
  intro c s
  cases c
  case ledgerCommit => exact .inl (exec_ledgerCommit_goesOn s)
  case sysReset ns b =>
    refine (exec_sysReset_goesOn ns b s).imp_right fun ⟨long, short, powered, free, stops⟩ => ?_
    exact ⟨ns, b, rfl, long, short, powered, free, stops⟩
  all_goals exact .inl ⟨_, rfl⟩

end Sys2Proof.Machine
end

section
/-!
Runs of bytes: what a slice of a run that was put together gives, what a run reads back after it was written, and what programming does
to the bytes of the Ledger.
-/

namespace Sys2Proof.Machine

/-! ### Slices (00 R9) -/

@[simp] theorem sliceB_length (bs : Bytes) (i n : Nat) : (sliceB bs i n).length = n := by simp [sliceB]

theorem sliceB_eq_take_drop {bs : Bytes} {i n : Nat} (within : i + n ≤ bs.length) : sliceB bs i n = (bs.drop i).take n := by
  refine List.ext_getElem (by simp; omega) fun k inSlice _ => ?_
  rw [sliceB_length] at inSlice
  simp only [sliceB, List.getElem_map, List.getElem_range, List.getElem_take, List.getElem_drop]
  exact List.getD_eq_getElem _ _ (by omega)

/-- The piece of a run that stands at `i`. -/
theorem sliceB_piece {x y z : Bytes} {i n : Nat} (start : x.length = i) (length : y.length = n) :
    sliceB (x ++ (y ++ z)) i n = y := by
  subst start length
  rw [sliceB_eq_take_drop (by simp only [List.length_append]; omega), List.drop_left, List.take_left]

/-- The last piece of a run. -/
theorem sliceB_last {x y : Bytes} {i n : Nat} (start : x.length = i) (length : y.length = n) : sliceB (x ++ y) i n = y := by
  have piece : sliceB (x ++ (y ++ [])) i n = y := sliceB_piece start length
  rwa [List.append_nil] at piece

theorem sliceB_sliceB (bs : Bytes) {i n j k : Nat} (within : j + k ≤ n) : sliceB (sliceB bs i n) j k = sliceB bs (i + j) k := by
  unfold sliceB
  refine List.map_congr_left fun m inSlice => ?_
  rw [List.mem_range] at inSlice
  rw [List.getD_eq_getElem _ _ (by simp; omega)]
  simp [Nat.add_assoc]

theorem sliceB_self (bs : Bytes) : sliceB bs 0 bs.length = bs := by
  rw [sliceB_eq_take_drop (by omega), List.drop_zero, List.take_length]

/-- A number in a run, little-endian. -/
theorem fld_piece {x z : Bytes} {i n v : Nat} (start : x.length = i) : fld (x ++ (toLe n v ++ z)) i n = v % 256 ^ n := by
  rw [fld, sliceB_piece start (toLe_length n v), leNat_toLe]

theorem fld_last {x : Bytes} {i n v : Nat} (start : x.length = i) : fld (x ++ toLe n v) i n = v % 256 ^ n := by
  rw [fld, sliceB_last start (toLe_length n v), leNat_toLe]

/-! ### Memories -/

/-- A part of a run that is read. -/
theorem memRead_part (m : List Host.Cell) (a : Nat) {i n k : Nat} (within : i + n ≤ k) :
    memRead m (a + i) n = sliceB (memRead m a k) i n := by
  unfold memRead sliceB
  refine List.map_congr_left fun j inRun => ?_
  rw [List.mem_range] at inRun
  rw [List.getD_eq_getElem _ _ (by simp; omega)]
  simp [Nat.add_assoc]

/-! ### The Ledger (21 R681) -/

section Ledger
variable (l : Ledger)

theorem Ledger.program_frame (a : Nat) (bs : Bytes) : l.program a bs = { l with flash := (l.program a bs).flash } := by
  induction bs generalizing l a with
  | nil => rfl
  | cons b bs ih => exact ih _ _

/-- Programming clears bits of the bytes that it covers, and touches no other (21 R681). -/
theorem Ledger.program_get (a : Nat) (bs : Bytes) (j : Nat) :
    (l.program a bs).get j = if a ≤ j ∧ j < a + bs.length then l.get j &&& bs.getD (j - a) 0 else l.get j := by
  induction bs generalizing l a with
  | nil => rw [if_neg (by simp only [List.length_nil]; omega)]; rfl
  | cons b bs ih =>
    have first : ∀ k, Ledger.get { l with flash := mset 0xFF l.flash a (l.get a &&& b) } k =
        if k = a then l.get a &&& b else l.get k := mget_mset _ _ _ _
    rw [Ledger.program, ih, first, List.length_cons]
    by_cases here : j = a
    · subst here
      rw [if_neg (by omega), if_pos rfl, if_pos (by omega), Nat.sub_self]
      rfl
    · rw [if_neg here]
      by_cases later : a + 1 ≤ j ∧ j < a + 1 + bs.length
      · rw [if_pos later, if_pos (by omega), show j - a = j - (a + 1) + 1 by omega]
        rfl
      · rw [if_neg later, if_neg (by omega)]

theorem Ledger.program_keeps (a : Nat) (bs : Bytes) : (l.program a bs).queue = l.queue ∧ (l.program a bs).headSector = l.headSector ∧
    (l.program a bs).headOff = l.headOff := by
  rw [Ledger.program_frame]
  exact ⟨rfl, rfl, rfl⟩

/-- A record moves the head behind itself, in the same sector (21 R684). -/
theorem Ledger.write_head (r : LdgRec) : (l.write r).queue = l.queue ∧ (l.write r).headSeq = l.headSeq + 1 ∧
    (l.write r).headOff = l.headOff + (recBytes r (l.headSeq + 1)).length ∧ (l.write r).headSector = l.headSector := by
  simp only [Ledger.write, Ledger.program_keeps, and_self]

end Ledger

end Sys2Proof.Machine
end

section
/-!
The Ledger's journal (21 R684 to R690), the Service tag's wired updates (R705 to R714) and its RF commands (R710 to R712).
-/

namespace Sys2Proof.Machine

/-! ### The journal -/

/-- The Ledger once the record `r` at the front of its queue has been programmed; a fault record joins those that the tag shows
(21 R684, R708). -/
def Ledger.committed (l : Ledger) (r : LdgRec) (rest : List LdgRec) (fw : W32) : Ledger :=
  let w := ({ l with queue := rest } : Ledger).write r
  if r.ty = 0x0F ∨ r.ty = 0x0C then { w with faults := (({ r with seq := w.headSeq }, fw) :: w.faults).take 32 } else w

section Committed
variable (l : Ledger) (r : LdgRec) (rest : List LdgRec) (fw : W32)

theorem Ledger.committed_head : (l.committed r rest fw).queue = rest ∧ (l.committed r rest fw).headSeq = l.headSeq + 1 ∧
    (l.committed r rest fw).headOff = l.headOff + (recBytes r (l.headSeq + 1)).length ∧
    (l.committed r rest fw).headSector = l.headSector := by
  unfold Ledger.committed
  dsimp only
  split
  · simp only [Ledger.write_head, and_self]
  · simp only [Ledger.write_head, and_self]

theorem Ledger.committed_faults (fault : r.ty = 0x0F ∨ r.ty = 0x0C) :
    (l.committed r rest fw).faults.head? = some ({ r with seq := l.headSeq + 1 }, fw) := by
  simp only [Ledger.committed, if_pos fault]
  rfl

end Committed

/-- 21 R684: the front record is programmed; what else changes is the journaled bit of its entry in the fault log. -/
theorem exec_ledgerCommit_commits {s : State} {r : LdgRec} {rest : List LdgRec} (queue : s.ldg.queue = r :: rest)
    (fits : s.ldg.fits r = true) : ∃ u, exec .ledgerCommit s = .next u ∧ u.ldg = s.ldg.committed r rest s.boot.fwVersion := by
  change ∃ u, execLedgerCommit s = .next u ∧ _
  simp only [execLedgerCommit, queue, fits, if_true]
  split
  · refine ⟨_, rfl, ?_⟩
    split
    · rfl
    · rfl
  · exact ⟨_, rfl, rfl⟩

theorem exec_ledgerSectorRecycle_opens {s : State} (needs : s.needsSector = true) :
    exec .ledgerSectorRecycle s = .next s.recycle := congrArg Host.Outcome.next (if_pos needs)

theorem exec_ledgerSectorRecycle_rests {s : State} (needs : s.needsSector = false) :
    exec .ledgerSectorRecycle s = .next s := congrArg Host.Outcome.next (if_neg (by simp [needs]))

/-! ### The hourly record (21 R690, R693) -/

section Frames
variable (s : State)

@[simp] theorem State.sendVec_ldg (f v : Nat) : (s.sendVec f v).ldg = s.ldg := by
  unfold State.sendVec
  dsimp only
  split_ifs <;> rfl

@[simp] theorem State.count_ldg (d c n : Nat) : (s.count d c n).ldg = s.ldg := rfl

@[simp] theorem State.writeEntry_ldg (k : Nat) (bytes : Bytes) (vec : Option Nat) : (s.writeEntry k bytes vec).ldg = s.ldg := by
  unfold State.writeEntry
  dsimp only
  cases vec with
  | none => split_ifs <;> simp
  | some v => split_ifs <;> simp

@[simp] theorem State.pushEntry_ldg (k : Nat) (bytes : Bytes) (vec : Option Nat) : (s.pushEntry k bytes vec).ldg = s.ldg := by
  unfold State.pushEntry
  split_ifs <;> simp

@[simp] theorem State.postEvent_ldg (f ty den : Nat) (payload : Bytes) : (s.postEvent f ty den payload).2.ldg = s.ldg := by
  unfold State.postEvent
  dsimp only
  split_ifs <;> simp

@[simp] theorem State.errorEvent_ldg (f cls cause : Nat) (loc : W64) : (s.errorEvent f cls cause loc).ldg = s.ldg := by
  unfold State.errorEvent
  dsimp only
  split_ifs <;> simp

@[simp] theorem State.errorEvents_ldg (cls cause : Nat) (loc : W64) : (s.errorEvents cls cause loc).ldg = s.ldg := by
  unfold State.errorEvents
  split_ifs <;> simp

/-- A fault in the log leaves the Ledger alone; its record is queued apart from it (22 R721). -/
@[simp] theorem State.logCore_ldg (cls cause : Nat) (loc : W64) : (s.logCore cls cause loc).ldg = s.ldg := by
  unfold State.logCore
  dsimp only
  split_ifs <;> simp [State.newEntry]

end Frames

/-- The counts that the hourly record carries. -/
def Ledger.counts (l : Ledger) : W32 × W32 := (l.hours, l.powerOns)

@[simp] theorem Ledger.push_counts (l : Ledger) (r : LdgRec) : (l.push r).counts = l.counts := by
  unfold Ledger.push
  split_ifs <;> rfl

@[simp] theorem State.record_counts (s : State) (ty : Nat) (p : Bytes) (ref : Option (Nat × W32)) :
    (s.record ty p ref).ldg.counts = s.ldg.counts := by
  unfold State.record
  split_ifs
  · rw [State.logCore_ldg]
  · rfl
  · exact Ledger.push_counts ..

theorem exec_ledgerHourly_counts (s : State) : ∃ u, exec .ledgerHourly s = .next u ∧ u.ldg.hours = s.ldg.hours + 1 ∧
    u.ldg.powerOns = s.ldg.powerOns := by
  have counts : ∃ u, exec .ledgerHourly s = .next u ∧ u.ldg.counts = (s.ldg.hours + 1, s.ldg.powerOns) := by
    refine ⟨_, rfl, (foldl_observes_same (fun u => u.ldg.counts) _ (fun u src _ => ?_) _).trans (State.record_counts ..)⟩
    split
    · exact State.record_counts ..
    · rfl
  obtain ⟨u, run, counts⟩ := counts
  exact ⟨u, run, Prod.mk.inj counts⟩

/-! ### The wired side of the tag (21 R705 to R709, R713, R714) -/

section Bank
variable (s : State) (gen : Nat)

theorem State.bankBody_length : s.bankBody.length = 2544 := by
  delta State.bankBody
  simp only [List.length_append, toLe_length, List.length_map, List.length_range, List.length_replicate, padB_length]

theorem State.composeBank_length : (s.composeBank gen).length = 2560 := by
  simp only [State.composeBank, List.length_append, toLe_length, State.bankBody_length, List.length_cons, List.length_nil]

theorem State.composeBank_gen : fld (s.composeBank gen) 4 4 = gen % 2 ^ 32 := by
  rw [State.composeBank]
  simp only [List.append_assoc]
  exact fld_piece rfl

theorem State.composeBank_crc : fld (s.composeBank gen) 12 4 = (crc32c s.bankBody).toNat := by
  have crc : fld (s.composeBank gen) 12 4 = (crc32c s.bankBody).toNat % 256 ^ 4 := by
    rw [State.composeBank, List.append_assoc]
    exact fld_piece (by simp)
  exact crc.trans (Nat.mod_eq_of_lt (crc32c s.bankBody).isLt)

theorem State.composeBank_body : sliceB (s.composeBank gen) 16 2544 = s.bankBody :=
  sliceB_last (by simp) s.bankBody_length

/-- A bank as it was composed has a valid CRC, and its GEN (21 R707). -/
theorem Tag.bank_valid {t : Tag} {b : Bool} (bank : memRead t.mem (bankAddr b) 2560 = s.composeBank gen) :
    t.bankOk b = true ∧ t.gen b = gen % 2 ^ 32 := by
  constructor
  · have head : fld (memRead t.mem (bankAddr b) 16) 12 4 = (crc32c s.bankBody).toNat := by
      rw [← State.composeBank_crc s gen, ← bank, show bankAddr b = bankAddr b + 0 from rfl,
        memRead_part _ _ (show 0 + 16 ≤ 2560 by omega),
        fld, sliceB_sliceB _ (by omega)]
      rfl
    rw [Tag.bankOk, head, memRead_part _ _ (show 16 + 2544 ≤ 2560 by omega), bank, State.composeBank_body]
    simp
  · have whole : memRead t.mem (bankAddr b + 4) 4 = sliceB (s.composeBank gen) 4 4 := by
      rw [memRead_part _ _ (show 4 + 4 ≤ 2560 by omega), bank]
    rw [Tag.gen, whole, fld, sliceB_sliceB _ (by omega)]
    exact s.composeBank_gen gen

end Bank

/-- The pointer block names the bank that it was made for (21 R706). -/
theorem Tag.active_of_pointer {t : Tag} {b : Bool} {gen : Nat} (pointer : memRead t.mem 0x40 4 = pointerBlock b gen) :
    t.active = b := by
  have check : fld (pointerBlock b gen) 2 2 = (crc32c ((pointerBlock b gen).take 2)).toNat % 65536 := fld_last rfl
  rw [Tag.active, pointer, if_pos check]
  cases b
  · rfl
  · rfl

/-- The other bank, and the pointer block, lie outside a bank (21 R705). -/
theorem memRead_write_bank_other (m : List Host.Cell) (b : Bool) {bs : Bytes} (bank : bs.length = 2560) :
    memRead (memWrite m (bankAddr !b) bs) (bankAddr b) 2560 = memRead m (bankAddr b) 2560 ∧
    memRead (memWrite m (bankAddr !b) bs) 0x40 4 = memRead m 0x40 4 := by
  constructor
  · exact memRead_memWrite_other _ _ _ _ _ (by cases b <;> simp [bankAddr, bank])
  · exact memRead_memWrite_other _ _ _ _ _ (by cases b <;> simp [bankAddr])

theorem memRead_write_pointer_bank (m : List Host.Cell) (b : Bool) {p : Bytes} (length : p.length = 4) :
    memRead (memWrite m 0x40 p) (bankAddr b) 2560 = memRead m (bankAddr b) 2560 :=
  memRead_memWrite_other _ _ _ _ _ (by cases b <;> simp [bankAddr, length])

@[simp] theorem pointerBlock_length (b : Bool) (gen : Nat) : (pointerBlock b gen).length = 4 := by
  simp [pointerBlock]

/-- A tag whose bank `b` has been written, and whose pointer block is flipped, or kept for a retry while an RF session holds it
(21 R709, R713). -/
def Tag.updated (t : Tag) (b : Bool) (bank p : Bytes) : Tag :=
  let mem := memWrite t.mem (bankAddr b) bank
  if t.rf then { t with mem := mem, pending := some p, deferred := t.deferred + 1, due := false }
  else { t with mem := memWrite mem 0x40 p, pending := none, due := false }

section Updated
variable (t : Tag) (o : Bool) {bank p : Bytes} (whole : bank.length = 2560) (pointer : p.length = 4)

theorem Tag.updated_free (free : t.rf = false) : t.updated o bank p =
    { t with mem := memWrite (memWrite t.mem (bankAddr o) bank) 0x40 p, pending := none, due := false } := by
  rw [Tag.updated, free]
  rfl

theorem Tag.updated_held (held : t.rf = true) : t.updated o bank p =
    { t with mem := memWrite t.mem (bankAddr o) bank, pending := some p, deferred := t.deferred + 1, due := false } := by
  rw [Tag.updated, held]
  rfl

include whole in
theorem memRead_bank (m : List Host.Cell) : memRead (memWrite m (bankAddr o) bank) (bankAddr o) 2560 = bank :=
  whole ▸ memRead_memWrite m (bankAddr o) bank

include whole pointer

theorem Tag.updated_bank : memRead (t.updated o bank p).mem (bankAddr o) 2560 = bank := by
  cases rf : t.rf with
  | false =>
    rw [Tag.updated_free t o rf]
    exact (memRead_write_pointer_bank _ o pointer).trans (memRead_bank o whole t.mem)
  | true =>
    rw [Tag.updated_held t o rf]
    exact memRead_bank o whole t.mem

theorem Tag.updated_other :
    memRead (t.updated (!o) bank p).mem (bankAddr o) 2560 = memRead t.mem (bankAddr o) 2560 := by
  have other := (memRead_write_bank_other t.mem o whole).1
  cases rf : t.rf with
  | false =>
    rw [Tag.updated_free t _ rf]
    exact (memRead_write_pointer_bank _ o pointer).trans other
  | true =>
    rw [Tag.updated_held t _ rf]
    exact other

omit pointer in
/-- The pointer block stays while an RF session holds it (R713). -/
theorem Tag.updated_waits (held : t.rf = true) : memRead (t.updated (!o) bank p).mem 0x40 4 = memRead t.mem 0x40 4 ∧
    (t.updated (!o) bank p).deferred = t.deferred + 1 ∧ (t.updated (!o) bank p).pending.isSome := by
  rw [Tag.updated_held t _ held]
  exact ⟨(memRead_write_bank_other t.mem o whole).2, rfl, rfl⟩

end Updated

theorem exec_tagUpdate_updates {s : State} (up : s.aonUp = true) : exec .tagUpdate s = .next { s with
    tag := s.tag.updated (!s.tag.active) (s.composeBank (s.tag.gen s.tag.active + 1))
      (pointerBlock (!s.tag.active) (s.tag.gen s.tag.active + 1)) } :=
  congrArg Host.Outcome.next (if_pos up)

theorem memRead_pointer (m : List Host.Cell) {p : Bytes} (pointer : p.length = 4) : memRead (memWrite m 0x40 p) 0x40 4 = p :=
  pointer ▸ memRead_memWrite m 0x40 p

section Tagged
variable (s : State) (o : Bool) (gen : Nat)

theorem State.update_valid : let t := s.tag.updated o (s.composeBank gen) (pointerBlock o gen)
    t.bankOk o = true ∧ t.gen o = gen % 2 ^ 32 :=
  Tag.bank_valid s gen (Tag.updated_bank s.tag o (s.composeBank_length gen) (pointerBlock_length o gen))

theorem State.update_flips (free : s.tag.rf = false) : let t := s.tag.updated o (s.composeBank gen) (pointerBlock o gen)
    t.active = o ∧ t.pending = none := by
  rw [Tag.updated_free s.tag o free]
  exact ⟨Tag.active_of_pointer (memRead_pointer _ (pointerBlock_length o gen)), rfl⟩

end Tagged

section Update
variable {s : State} (up : s.aonUp = true)
include up

/-- 21 R713: a pointer block that was kept is written once no RF session holds it. -/
theorem exec_tagFlipRetry_flips {p : Bytes} (pending : s.tag.pending = some p) (free : s.tag.rf = false) :
    exec .tagFlipRetry s = .next { s with tag := { s.tag with mem := memWrite s.tag.mem 0x40 p, pending := none } } := by
  change execTagFlipRetry s = _
  rw [execTagFlipRetry, pending]
  exact congrArg Host.Outcome.next (if_pos ⟨up, by simp [free]⟩)

section Tech
variable (free : s.tag.rf = false)
include free

theorem exec_techAreaCheck_same (same : (crc32c (memRead s.tag.mem 0x1F00 252)).toNat = fld (memRead s.tag.mem 0x1FFC 4) 0 4) :
    exec .techAreaCheck s = .next s := by
  change execTechAreaCheck s = _
  rw [execTechAreaCheck, if_pos ⟨up, by simp [free]⟩]
  exact congrArg Host.Outcome.next (if_pos same)

theorem exec_techAreaCheck_differs
    (differs : (crc32c (memRead s.tag.mem 0x1F00 252)).toNat ≠ fld (memRead s.tag.mem 0x1FFC 4) 0 4) :
    exec .techAreaCheck s = .next
      (let v := s.record 0x10 (memRead s.tag.mem 0x1F00 256) none
       { v with tag := { v.tag with mem := memWrite v.tag.mem 0x1FFC (toLe 4 (crc32c (memRead s.tag.mem 0x1F00 252)).toNat) } }) := by
  change execTechAreaCheck s = _
  rw [execTechAreaCheck, if_pos ⟨up, by simp [free]⟩]
  exact congrArg Host.Outcome.next (if_neg differs)

end Tech

end Update

/-! ### The RF side of the tag (21 R710 to R712) -/

section Rf
variable (s : State)

/-- A session that begins, or goes on: the pointer block is latched at its begin (R712). -/
theorem State.rfBegin_session : s.rfBegin.tag.rf = true ∧ s.rfBegin.tag.mem = s.tag.mem ∧ s.rfBegin.tag.uid = s.tag.uid ∧
    s.rfBegin.out = s.out ∧ (s.tag.rf = false → s.rfBegin.tag.latch = Machine.memRead s.tag.mem 0x40 4) := by
  unfold State.rfBegin
  split
  next active => exact ⟨active, rfl, rfl, rfl, fun free => by simp [free] at active⟩
  next => exact ⟨rfl, rfl, rfl, rfl, fun _ => rfl⟩

theorem exec_inventory_answers (awake : s.tag.quiet = false) : ∃ u, exec .inventory s = .next u ∧ u.tag.rf = true ∧
    u.tag.mem = s.tag.mem ∧ u.out = s.out ++ [.rf ([0, 0] ++ toLe 8 s.tag.uid.toNat)] ∧
    (s.tag.rf = false → u.tag.latch = memRead s.tag.mem 0x40 4) := by
  obtain ⟨rf, mem, uid, out, latch⟩ := s.rfBegin_session
  have run : exec .inventory s = .next (s.rfBegin.rfOk ([0] ++ toLe 8 s.rfBegin.tag.uid.toNat)) := by
    rw [uid]
    exact congrArg Host.Outcome.next (if_neg (by simp [awake]))
  refine ⟨_, run, rf, mem, ?_, latch⟩
  rw [uid, ← out]
  rfl

theorem exec_inventory_quiet (quiet : s.tag.quiet = true) : exec .inventory s = .next s :=
  congrArg Host.Outcome.next (if_pos quiet)

theorem exec_select_answers : ∃ u, exec .select s = .next u ∧ u.tag.quiet = false ∧ u.tag.selected = true ∧ u.tag.rf = true ∧
    u.out = s.out ++ [.rf [0]] := by
  refine ⟨_, rfl, ?_⟩
  unfold State.rfBegin
  split
  next active => exact ⟨rfl, rfl, active, rfl⟩
  next => exact ⟨rfl, rfl, rfl, rfl⟩

theorem State.rfRead_within {limit b n : Nat} (few : n ≤ 32) (within : b + n ≤ limit) :
    s.rfRead limit b n = s.emit (.rf ([0] ++ (List.range n).flatMap (fun i => s.tag.block (b + i)))) := by
  rw [State.rfRead, if_neg (by omega), if_neg (by omega), State.rfOk]

theorem State.rfRead_one {limit b : Nat} (within : b < limit) : s.rfRead limit b 1 = s.emit (.rf ([0] ++ s.tag.block b)) := by
  rw [State.rfRead_within s (by omega) within]
  simp

/-- Only the technician area can be written, but for ACK while the device holds it (R711). -/
theorem State.rfWrite_technician {b : Nat} (d : Bytes) (area : 1984 ≤ b) (known : b < 2048)
    (open_ : ¬ (b = 2047 ∧ s.tag.ackHeld = true)) : s.rfWrite 2048 b d =
      State.emit { s with tag := { s.tag with mem := Machine.memWrite s.tag.mem (4 * b) (padB 4 d) } } (.rf [0]) := by
  rw [State.rfWrite, if_neg (by omega), if_neg (by rintro (low | held); exacts [by omega, open_ held])]
  rfl

theorem State.rfWrite_locked {limit b : Nat} (d : Bytes) (known : b < limit) (locked : b < 1984) :
    (s.rfWrite limit b d).tag.mem = s.tag.mem ∧ (s.rfWrite limit b d).out = s.out ++ [.rf [1, 0x12]] := by
  rw [State.rfWrite, if_neg (by omega), if_pos (.inl locked)]
  exact ⟨rfl, rfl⟩

theorem exec_rfSessionEnd_ends (active : s.tag.rf = true) : ∃ u, exec .rfSessionEnd s = .next u ∧ u.tag.rf = false ∧
    u.tag.mem = s.tag.mem :=
  ⟨_, congrArg Host.Outcome.next (if_pos active), rfl, rfl⟩

end Rf

/-- Settles O58: the journal by what its records move, the tag by what its updated memory reads back, the RF side command by
command. -/
theorem ledgerAndTag : Obligations.LedgerAndTag := by
  unfold Obligations.LedgerAndTag
  refine ⟨fun s => ⟨?commit, exec_ledgerSectorRecycle_opens, exec_ledgerSectorRecycle_rests, exec_ledgerHourly_counts s⟩,
    fun l a j b => l.program_get a b j, fun s up => ⟨?update, fun p pending free => exec_tagFlipRetry_flips up pending free,
      fun free => ⟨exec_techAreaCheck_same up free, exec_techAreaCheck_differs up free⟩⟩, fun s => ?rf⟩
  case commit =>
    intro r rest queue fits
    obtain ⟨u, run, ldg⟩ := exec_ledgerCommit_commits queue fits
    obtain ⟨queue', seq, off, sector⟩ := s.ldg.committed_head r rest s.boot.fwVersion
    rw [← ldg] at queue' seq off sector
    exact ⟨u, run, queue', seq, off, sector, fun fault => ldg ▸ s.ldg.committed_faults r rest s.boot.fwVersion fault⟩
  case update =>
    obtain ⟨valid, gen⟩ := s.update_valid (!s.tag.active) (s.tag.gen s.tag.active + 1)
    exact ⟨_, exec_tagUpdate_updates up, valid, s.tag.updated_other _ (s.composeBank_length _) (pointerBlock_length ..),
      fun free => ⟨(s.update_flips _ _ free).1, gen, (s.update_flips _ _ free).2⟩,
      fun held => s.tag.updated_waits _ (s.composeBank_length _) held⟩
  case rf =>
    exact ⟨exec_inventory_answers s, exec_inventory_quiet s, ⟨_, rfl, rfl, rfl, rfl⟩, exec_select_answers s, ⟨_, rfl, rfl, rfl, rfl⟩,
      fun b known => congrArg Host.Outcome.next (s.rfRead_one known), fun b known => congrArg Host.Outcome.next (s.rfRead_one known),
      fun b n few within => congrArg Host.Outcome.next (s.rfRead_within few within),
      fun b n few within => congrArg Host.Outcome.next (s.rfRead_within few within),
      fun b d area known held => congrArg Host.Outcome.next (s.rfWrite_technician d area known held),
      fun b d locked => ⟨_, rfl, s.rfWrite_locked d (by omega) locked⟩,
      fun b d known => ⟨_, rfl, s.rfWrite_locked d known (by omega)⟩, rfl, rfl, exec_rfSessionEnd_ends s⟩

end Sys2Proof.Machine
end

section
/-!
DEN_QUERY's answer at its offsets (15 R493).
-/

namespace Sys2Proof.Machine

theorem fld_first {n v : Nat} {z : Bytes} : fld (toLe n v ++ z) 0 n = v % 256 ^ n := fld_piece (x := []) List.length_nil

theorem replyBytes_length (pkt : Bytes) (r : CmdRes) : (replyBytes pkt r).length = 32 := by
  simp [replyBytes, padB_length]

theorem replyBytes_status (pkt : Bytes) (r : CmdRes) : fld (replyBytes pkt r) 2 1 = r.status % 256 := by
  rw [replyBytes]
  simp only [List.append_assoc]
  exact fld_piece (by simp)

/-- The result stands from 0x08 on in the reply (15 R488). -/
theorem fld_replyBytes (pkt : Bytes) (r : CmdRes) {i n : Nat} (within : i + n ≤ 24) :
    fld (replyBytes pkt r) (8 + i) n = fld (padB 24 r.result) i n := by
  have result : sliceB (replyBytes pkt r) 8 24 = padB 24 r.result := sliceB_last (by simp) (padB_length ..)
  rw [← result, fld, fld, sliceB_sliceB _ within]

theorem tbit_b2n (b : Bool) : tbit (b2n b % 256 ^ 1) 0 = b := by cases b <;> rfl

section DenQuery
variable (s : State) (d : Nat)

theorem State.denResult_length : (s.denResult d).length = 24 := by simp [State.denResult]

/-- DEN_STATE, DEN_QUEUE, MODELS, HELD and TABLES, one behind the other. -/
theorem State.denResult_fields : fld (s.denResult d) 0 8 = s.denStateReg d % 256 ^ 8 ∧
    fld (s.denResult d) 8 8 = s.denQueueReg d % 256 ^ 8 ∧
    fld (s.denResult d) 16 1 = (s.models.filter (fun m => m.den == d)).length % 256 ^ 1 ∧
    fld (s.denResult d) 17 1 = b2n (s.pcie.retHeld.getLsbD d) % 256 ^ 1 ∧
    fld (s.denResult d) 20 4 = (s.tables.filter (fun p => p.2.present && p.2.den == d)).length % 256 ^ 4 := by
  rw [State.denResult]
  generalize (s.tables.filter (fun p => p.2.present && p.2.den == d)).length = tables
  generalize (s.models.filter (fun m => m.den == d)).length = models
  generalize b2n (s.pcie.retHeld.getLsbD d) = held
  generalize s.denStateReg d = state
  generalize s.denQueueReg d = queue
  refine ⟨?_, ?_, ?_, ?_, fld_last (by simp)⟩ <;> simp only [List.append_assoc]
  · exact fld_first
  · exact fld_piece (by simp)
  · rw [← List.append_assoc]
    exact fld_piece (by simp)
  · rw [← List.append_assoc, ← List.append_assoc]
    exact fld_piece (by simp)

/-- A reply carries DEN_QUERY's result at 0x08. -/
theorem fld_denReply (b : Bytes) {i n : Nat} (within : i + n ≤ 24) :
    fld (replyBytes b { result := s.denResult d }) (8 + i) n = fld (s.denResult d) i n := by
  rw [fld_replyBytes b _ within]
  have whole : padB 24 (s.denResult d) = s.denResult d := by
    have self := sliceB_self (s.denResult d)
    rwa [State.denResult_length] at self
  rw [whole]

theorem fld_denReply_of {b : Bytes} {i n x : Nat} (within : i + n ≤ 24) (at_i : fld (s.denResult d) i n = x) :
    fld (replyBytes b { result := s.denResult d }) (8 + i) n = x := (fld_denReply s d b within).trans at_i

end DenQuery

/-- Settles O41: the result's pieces, read in the reply behind its 8 bytes of head. -/
theorem denQueryAnswers : Obligations.DenQueryAnswers := by
  unfold Obligations.DenQueryAnswers
  intro s src b takes v d
  obtain ⟨pkt, turn, mine, passes⟩ := takes
  obtain ⟨state, queue, models, held, tables⟩ := v.denResult_fields d
  have state' := fld_denReply_of v d (b := b) (i := 0) (by omega) state
  have queue' := fld_denReply_of v d (b := b) (i := 8) (by omega) queue
  have models' := fld_denReply_of v d (b := b) (i := 16) (by omega) models
  have held' := fld_denReply_of v d (b := b) (i := 17) (by omega) held
  have tables' := fld_denReply_of v d (b := b) (i := 20) (by omega) tables
  refine ⟨v.denResult d, congrArg Host.Outcome.next (State.runCmd_quick _ pkt turn mine passes), replyBytes_length .., ?_,
    ?_, ?_, ?_, ?_, ?_⟩
  · exact (replyBytes_status ..).trans (Nat.zero_mod _)
  · rw [state']; norm_num
  · rw [queue']; norm_num
  · rw [models']; norm_num
  · rw [held', tbit_b2n]
  · rw [tables']; norm_num

end Sys2Proof.Machine
end

section
/-!
The service interfaces: the TAP, GET_REPLY, UART_MGT, and the MCTP and PLDM commands (19, 23 R756, R757).
-/

namespace Sys2Proof.Machine

section Tap
variable {s : State} (powered : s.aonUp = true)
include powered

theorem State.setInstr_powered (i : TapInstr) : s.setInstr i = { s with tap := { s.tap with instr := i } } := if_pos powered

theorem State.ownBalls_powered (i : TapInstr) :
    s.ownBalls i = { s with tap := { s.tap with instr := i, owned := true } } := if_pos powered

theorem exec_extest_powered (cells : W64) :
    exec (.extest cells) s = .next { s with tap := { instr := .extest, owned := true, boundary := cells } } :=
  congrArg Host.Outcome.next (if_pos powered)

theorem exec_samplePreload_powered (balls cells : W64) : exec (.samplePreload balls cells) s = .next
    (State.emit { s with tap := { s.tap with instr := .samplePreload, boundary := cells } } (.jtag balls)) :=
  congrArg Host.Outcome.next (if_pos powered)

theorem exec_idcode_powered :
    exec .idcode s = .next (State.emit { s with tap := { s.tap with instr := .idcode } } (.jtag 0x1D0605AB)) := by
  change execIdcode s = _
  rw [execIdcode, if_pos powered, State.setInstr_powered powered]

theorem exec_bypass_powered :
    exec .bypass s = .next (State.emit { s with tap := { s.tap with instr := .bypass } } (.jtag 0)) := by
  change execBypass s = _
  rw [execBypass, if_pos powered, State.setInstr_powered powered]

end Tap

theorem State.jtagValue_closed {s : State} {off : Nat} (shut : s.err.jtagRd = false ∨ s.hub = false ∨ off % 8 ≠ 0)
    (f : W32) : s.jtagValue off f = 0 := by
  refine if_neg ?_
  rintro ⟨reads, runs, whole⟩
  simp [reads, runs, whole] at shut

theorem State.jtagValue_open {s : State} {off : Nat} (reads : s.err.jtagRd = true) (runs : s.hub = true) (whole : off % 8 = 0)
    (f : W32) : s.jtagValue off f = BitVec.ofNat 64 ((s.ctrlReg 0 off f).getD 0) := if_pos ⟨reads, runs, whole⟩

/-- Settles O59, one instruction of the TAP after the other. -/
theorem jtagInstructions : Obligations.JtagInstructions := by
  unfold Obligations.JtagInstructions
  refine fun s => ⟨fun powered => ⟨exec_extest_powered powered, ?clamp, ?highz, exec_samplePreload_powered powered,
    exec_idcode_powered powered, exec_bypass_powered powered⟩, rfl, fun off => ?regrd⟩
  case clamp => exact congrArg Host.Outcome.next (State.ownBalls_powered powered .clamp)
  case highz => exact congrArg Host.Outcome.next (State.ownBalls_powered powered .highz)
  case regrd =>
    exact ⟨_, s.jtagValue off (s.free 32).1, rfl, rfl, rfl, fun shut => State.jtagValue_closed shut _,
      fun reads runs whole => ⟨_, State.jtagValue_open reads runs whole _⟩⟩

/-! ### USB SETUPs (19 R647 to R652) -/

section Usb
variable {s : State} (attached : s.ser.usbAttached = true)
include attached

theorem State.usbSetup_served (served : (s.wakeReq 6).svcStart.usbServed = true) (f : State → State) :
    s.usbSetup f = f (s.wakeReq 6).svcStart := (if_pos attached).trans (if_pos served)

theorem State.usbSetup_unserved (unserved : (s.wakeReq 6).svcStart.usbServed = false) (f : State → State) :
    s.usbSetup f = (s.wakeReq 6).svcStart := (if_pos attached).trans (if_neg (by simp [unserved]))

variable {t : W16} (served : (s.wakeReq 6).svcStart.usbServed = true)
include served

theorem exec_getReply_running (runs : (s.wakeReq 6).svcStart.ser.usbRun = some t) :
    exec (.getReply t) s = .next ((s.wakeReq 6).svcStart.emit (.usb [] false)) := by
  change execGetReply t s = _
  rw [execGetReply, State.usbSetup_served attached served, if_pos runs]

theorem exec_getReply_held {b : Bytes} (idle : (s.wakeReq 6).svcStart.ser.usbRun ≠ some t)
    (held : (s.wakeReq 6).svcStart.ser.usbHeld = some (t, b)) :
    exec (.getReply t) s = .next ((s.wakeReq 6).svcStart.emit (.usb b false)) := by
  change execGetReply t s = _
  rw [execGetReply, State.usbSetup_served attached served, if_neg idle, held]
  simp only [if_pos]

theorem exec_getReply_other (idle : (s.wakeReq 6).svcStart.ser.usbRun ≠ some t)
    (none_held : ∀ b, (s.wakeReq 6).svcStart.ser.usbHeld ≠ some (t, b)) :
    exec (.getReply t) s = .next ((s.wakeReq 6).svcStart.emit (.usb [] true)) := by
  change execGetReply t s = _
  rw [execGetReply, State.usbSetup_served attached served, if_neg idle]
  cases holds : (s.wakeReq 6).svcStart.ser.usbHeld with
  | none => rfl
  | some held =>
    obtain ⟨tag, b⟩ := held
    have other : tag ≠ t := fun same => none_held b (same ▸ holds)
    simp only [if_neg other]

end Usb

/-- Settles O57: the three cases of a TAG, each by its lemma. -/
theorem usbGetReply : Obligations.UsbGetReply := by
  unfold Obligations.UsbGetReply
  exact fun s t attached served => ⟨exec_getReply_running attached served,
    fun b idle held => ⟨exec_getReply_held attached served idle held, held⟩, exec_getReply_other attached served⟩

/-! ### UART_MGT (19 R636 to R642) -/

section Receive
variable {s : State} {m : Bytes} (hears : s.mgtHears (gDst m) = true) (f : State → State)
include hears

theorem State.mgtRecv_good (whole : mgtWhole m = true) : s.mgtRecv m f =
    f { s.wakeReq 5 with ser := { (s.wakeReq 5).ser with rxOk := satAdd (s.wakeReq 5).ser.rxOk 1 } } :=
  (if_pos hears).trans (if_pos whole)

theorem State.mgtRecv_bad (broken : mgtWhole m = false) : s.mgtRecv m f =
    { s.wakeReq 5 with ser := { (s.wakeReq 5).ser with rxBad := satAdd (s.wakeReq 5).ser.rxBad 1 } } :=
  (if_pos hears).trans (if_neg (by simp [broken]))

end Receive

/-- PING and SENSORS hand their message to the receiver; every other type is WAKE's. -/
theorem exec_ping {s : State} {m : Bytes} (ty : gType m = 1) : exec (.ping m) s =
    .next (s.mgtRecv m (fun s => if gLen m = 0 then s.mgtPut (gSrc m) 0x81 s.surveyEntry else s)) :=
  congrArg Host.Outcome.next (if_pos ty)

theorem exec_sensors {s : State} {m : Bytes} (ty : gType m = 3) : exec (.sensors m) s =
    .next (s.mgtRecv m (fun s => if gLen m = 0 then s.mgtPut (gSrc m) 0x83 s.sensorData else s)) :=
  congrArg Host.Outcome.next (if_pos ty)

theorem exec_wake {s : State} {m : Bytes} (not_ping : gType m ≠ 1) (not_sensors : gType m ≠ 3) :
    exec (.wake m) s = .next (s.mgtRecv m (fun s => s)) :=
  congrArg Host.Outcome.next (if_pos ⟨not_ping, not_sensors⟩)

theorem mem_modFirst_of_any {α : Type} {p : α → Bool} {g : α → α} :
    ∀ {l : List α}, l.any p = true → ∃ x, p x = true ∧ g x ∈ modFirst p g l
  | x :: l, found => by
    by_cases here : p x = true
    · exact ⟨x, here, by simp [modFirst, here]⟩
    · have later : l.any p = true := by simpa [here] using found
      obtain ⟨y, hit, inside⟩ := mem_modFirst_of_any (g := g) later
      exact ⟨y, hit, by simp [modFirst, here, inside]⟩

/-- An ALERT with the present payload waits in the queue, and nothing but the interface has changed (19 R642). -/
theorem State.putAlert_waits (s : State) : s.putAlert.ser.alertLast = s.ser.alertLast ∧
    (∃ m ∈ s.putAlert.ser.mgtQ, m.ty = 4 ∧ m.body = s.putAlert.alertBytes) ∧ { s.putAlert with ser := s.ser } = s := by
  rw [State.putAlert]
  split
  next waiting =>
    obtain ⟨m, alert, inside⟩ := mem_modFirst_of_any (g := fun m => { m with body := s.alertBytes }) waiting
    exact ⟨rfl, ⟨_, inside, by simpa using alert, rfl⟩, rfl⟩
  next => exact ⟨rfl, ⟨_, List.mem_append_right _ List.mem_cons_self, rfl, rfl⟩, rfl⟩

section Bus
variable {s : State} (on : s.mgtOn = true)
include on

theorem exec_alertSend_due (sends : s.ser.alertDst ≠ 0xFF) (changed : s.alertWord ≠ s.ser.alertLast) :
    exec .alertSend s = .next (State.putAlert { s with ser := { s.ser with alertLast := s.alertWord } }) :=
  congrArg Host.Outcome.next (if_pos ⟨on, sends, changed⟩)

variable {m : MgtMsg} {rest : List MgtMsg} (queue : s.ser.mgtQ = m :: rest)
include queue

theorem exec_mgtArbLoss_sending (sending : s.ser.mgtHold = false) : exec .mgtArbLoss s = .next { s with ser := { s.ser with
    mgtQ := { m with losses := m.losses + 1 } :: rest, mgtHold := true, coll := satAdd s.ser.coll 1 } } := by
  change execMgtArbLoss s = _
  simp only [execMgtArbLoss, queue, on, sending, and_self, if_true]

theorem exec_mgtRetry_again (held : s.ser.mgtHold = true) (few : m.losses < 16) :
    exec .mgtRetry s = .next { s with ser := { s.ser with mgtHold := false } } := by
  change execMgtRetry s = _
  simp only [execMgtRetry, queue, on, held, and_self, if_true, if_neg (Nat.not_le.2 few)]

theorem exec_mgtRetry_givesUp (held : s.ser.mgtHold = true) (many : 16 ≤ m.losses) : exec .mgtRetry s = .next
    (State.fault { s with ser := { s.ser with mgtQ := rest, mgtHold := false, giveup := satAdd s.ser.giveup 1 } } 0x0507
      (mkLoc 11 0 none false 0)) := by
  change execMgtRetry s = _
  simp only [execMgtRetry, queue, on, held, and_self, if_true, if_pos many]

end Bus

/-- Settles O54: a received message by its type and CRC, then the ALERT and its losses. -/
theorem managementBus : Obligations.ManagementBus := by
  unfold Obligations.ManagementBus
  refine fun s => ⟨fun m hears => ⟨?_, ?_, ?_, ?_, ?_, ?_⟩, fun on =>
    ⟨congrArg Host.Outcome.next (if_pos on), ?_, fun m rest queue =>
    ⟨exec_mgtArbLoss_sending on queue, exec_mgtRetry_again on queue, exec_mgtRetry_givesUp on queue⟩⟩⟩
  · intro whole ping empty
    rw [exec_ping ping, State.mgtRecv_good hears _ whole, if_pos empty]
  · intro whole sensors empty
    rw [exec_sensors sensors, State.mgtRecv_good hears _ whole, if_pos empty]
  · intro whole not_ping not_sensors
    rw [exec_wake not_ping not_sensors, State.mgtRecv_good hears _ whole]
  · intro broken ping
    rw [exec_ping ping, State.mgtRecv_bad hears _ broken]
  · intro broken sensors
    rw [exec_sensors sensors, State.mgtRecv_bad hears _ broken]
  · intro broken not_ping not_sensors
    rw [exec_wake not_ping not_sensors, State.mgtRecv_bad hears _ broken]
  · intro sends changed
    obtain ⟨last, queued, same⟩ := State.putAlert_waits { s with ser := { s.ser with alertLast := s.alertWord } }
    exact ⟨_, exec_alertSend_due on sends changed, last, queued,
      by simpa using congrArg (fun u : State => { u with ser := s.ser }) same⟩

/-! ### MCTP and PLDM (19 R643 to R645) -/

section Endpoint
variable {s : State} {vdm : Bool} {msg : Bytes}

theorem State.setEid_eid (e : BitVec 8) : (s.setEid vdm e).eidOf vdm = e ∧ (s.setEid vdm e).eidOf (!vdm) = s.eidOf (!vdm) := by
  cases vdm <;> exact ⟨rfl, rfl⟩

theorem State.setEid_out (e : BitVec 8) : (s.setEid vdm e).out = s.out := by cases vdm <;> rfl

variable (up : s.endpointUp vdm = true)
include up

theorem exec_setEndpointId_takes (sets : fld msg 0 1 % 4 ≤ 1) (nonzero : BitVec.ofNat 8 (fld msg 1 1) ≠ 0)
    (no_broadcast : BitVec.ofNat 8 (fld msg 1 1) ≠ 0xFF) : exec (.setEndpointId vdm msg) s = .next
      ((s.setEid vdm (BitVec.ofNat 8 (fld msg 1 1))).mctpSay vdm 0 1 [0, 0, BitVec.ofNat 8 (fld msg 1 1), 0]) := by
  exact congrArg Host.Outcome.next ((if_pos up).trans
    (if_neg (not_or.2 ⟨Nat.not_lt.2 sets, not_or.2 ⟨nonzero, no_broadcast⟩⟩)))

theorem exec_setEndpointId_refuses
    (illegal : 1 < fld msg 0 1 % 4 ∨ BitVec.ofNat 8 (fld msg 1 1) = 0 ∨ BitVec.ofNat 8 (fld msg 1 1) = 0xFF) :
    exec (.setEndpointId vdm msg) s = .next (s.mctpSay vdm 0 1 [2]) :=
  congrArg Host.Outcome.next ((if_pos up).trans (if_pos illegal))

theorem exec_getMctpVersionSupport_known (known : fld msg 0 1 = 0 ∨ fld msg 0 1 = 1 ∨ fld msg 0 1 = 0xFF) :
    exec (.getMctpVersionSupport vdm msg) s = .next ((s.free 32).2.mctpSay vdm 0 4 ([0, 1] ++ toLe 4 (s.free 32).1.toNat)) := by
  refine congrArg Host.Outcome.next ((if_pos up).trans (if_pos ?_))
  simpa using known

theorem exec_setTid_takes (nonzero : BitVec.ofNat 8 (fld msg 0 1) ≠ 0) (no_broadcast : BitVec.ofNat 8 (fld msg 0 1) ≠ 0xFF) :
    exec (.setTid vdm msg) s =
      .next (State.mctpSay { s with ser := { s.ser with tid := BitVec.ofNat 8 (fld msg 0 1) } } vdm 1 1 [0]) :=
  congrArg Host.Outcome.next ((if_pos up).trans (if_neg (not_or.2 ⟨nonzero, no_broadcast⟩)))

theorem exec_getPldmVersion_offered (offered : pldmType (fld msg 5 1) = true) : exec (.getPldmVersion vdm msg) s = .next
    ((s.free 32).2.mctpSay vdm 1 3 ([0, 0, 0, 0, 0, 5] ++ toLe 4 (s.free 32).1.toNat ++
      toLe 4 (crc32c (toLe 4 (s.free 32).1.toNat)).toNat)) :=
  congrArg Host.Outcome.next ((if_pos up).trans (if_pos offered))

theorem exec_getPldmCommands_offered (offered : pldmType (fld msg 0 1) = true) : exec (.getPldmCommands vdm msg) s = .next
    (s.mctpSay vdm 1 5 ([0] ++ toLe 32 (pldmCommands (fld msg 0 1)))) :=
  congrArg Host.Outcome.next ((if_pos up).trans (if_pos offered))

theorem exec_getSensorReading_some {size : Nat} {ok : Bool} {v : Bytes} (sensor : s.sensor (fld msg 0 2) = some (size, ok, v)) :
    exec (.getSensorReading vdm msg) s = .next ((s.free 32).2.mctpSay vdm 1 0x11
      ([0] ++ toLe 1 size ++ [if ok then 0 else 2] ++ toLe 4 (s.free 32).1.toNat ++ v)) := by
  change execGetSensorReading vdm msg s = _
  rw [execGetSensorReading, if_pos up, sensor]

theorem exec_getSensorReading_none (unknown : s.sensor (fld msg 0 2) = none) :
    exec (.getSensorReading vdm msg) s = .next (s.mctpSay vdm 1 0x11 [0x80]) := by
  change execGetSensorReading vdm msg s = _
  rw [execGetSensorReading, if_pos up, unknown]

theorem exec_getStateSensorReadings_some {v : Nat} (sensor : s.stateSensor (fld msg 0 2) = some v) :
    exec (.getStateSensorReadings vdm msg) s = .next ((s.free 16).2.mctpSay vdm 1 0x21
      ([0, 1, 0] ++ toLe 1 v ++ toLe 2 (s.free 16).1.toNat)) := by
  change execGetStateSensorReadings vdm msg s = _
  rw [execGetStateSensorReadings, if_pos up, sensor]

end Endpoint

/-- Settles O55: the device's one answer to each command, and what it leaves as it is. -/
theorem managementEndpoints : Obligations.ManagementEndpoints := by
  unfold Obligations.ManagementEndpoints
  refine fun s vdm msg => ⟨fun powered => ⟨fun a => congrArg Host.Outcome.next (if_pos powered),
      congrArg Host.Outcome.next (if_pos powered)⟩,
    fun up => ⟨?setEid, ?badEid, ⟨_, congrArg Host.Outcome.next (if_pos up), rfl, rfl⟩, ?versions,
      ⟨_, congrArg Host.Outcome.next (if_pos up), rfl, rfl⟩, ⟨_, _, congrArg Host.Outcome.next (if_pos up), rfl, rfl⟩,
      ⟨_, congrArg Host.Outcome.next (if_pos up), rfl, rfl⟩, ?setTid, ?pldmVersion,
      ⟨_, congrArg Host.Outcome.next (if_pos up), rfl, rfl⟩, ?pldmCommands,
      ⟨_, _, congrArg Host.Outcome.next (if_pos up), rfl, rfl⟩,
      ⟨_, _, congrArg Host.Outcome.next (if_pos up), rfl, rfl⟩, ?sensor, ?noSensor, ?stateSensor⟩⟩
  case setEid =>
    intro sets nonzero no_broadcast
    obtain ⟨set, kept⟩ := State.setEid_eid (s := s) (vdm := vdm) (BitVec.ofNat 8 (fld msg 1 1))
    exact ⟨_, exec_setEndpointId_takes up sets nonzero no_broadcast, congrArg (· ++ _) (State.setEid_out _), set, kept⟩
  case badEid => exact fun illegal => ⟨_, exec_setEndpointId_refuses up illegal, rfl, rfl⟩
  case versions => exact fun known => ⟨_, _, exec_getMctpVersionSupport_known up known, rfl, rfl⟩
  case setTid => exact fun nonzero no_broadcast => ⟨_, exec_setTid_takes up nonzero no_broadcast, rfl, rfl⟩
  case pldmVersion => exact fun offered => ⟨_, _, exec_getPldmVersion_offered up offered, (s.free 32).1.isLt, rfl, rfl⟩
  case pldmCommands => exact fun offered => ⟨_, exec_getPldmCommands_offered up offered, rfl, rfl⟩
  case sensor => exact fun size ok v sensor => ⟨_, _, exec_getSensorReading_some up sensor, rfl, rfl⟩
  case noSensor => exact fun unknown => ⟨_, exec_getSensorReading_none up unknown, rfl, rfl⟩
  case stateSensor => exact fun v sensor => ⟨_, _, exec_getStateSensorReadings_some up sensor, rfl, rfl⟩

end Sys2Proof.Machine
end

section
/-!
UART_SVC frames and the USB service port (19 R629 to R634, R646 to R652).
-/

namespace Sys2Proof.Machine

section Frames
variable {s : State} {ty : Nat} {p : Bytes}

theorem uartBytes_type (byte : ty < 256) : fld (uartBytes ty p) 1 1 = ty := by
  simp only [uartBytes, List.append_assoc]
  exact (fld_piece (by simp)).trans (Nat.mod_eq_of_lt byte)

theorem uartBytes_len (short : p.length ≤ 4096) : fld (uartBytes ty p) 2 2 = p.length := by
  simp only [uartBytes, List.append_assoc]
  rw [← List.append_assoc, fld_piece (by simp)]
  exact Nat.mod_eq_of_lt (by norm_num; omega)

theorem uartBytes_payload : sliceB (uartBytes ty p) 4 p.length = p := by
  simp only [uartBytes, List.append_assoc]
  rw [← List.append_assoc, ← List.append_assoc, sliceB_piece (by simp) rfl]

/-- The CRC covers TYPE, LEN and the payload. -/
theorem uartBytes_crc :
    fld (uartBytes ty p) (4 + p.length) 4 = (crc32c (sliceB (uartBytes ty p) 1 (p.length + 3))).toNat := by
  have covered : sliceB (uartBytes ty p) 1 (p.length + 3) = toLe 1 ty ++ toLe 2 p.length ++ p := by
    rw [uartBytes, List.append_assoc]
    exact sliceB_piece (by simp) (by simp; omega)
  rw [covered, uartBytes, fld_last (by simp; omega)]
  exact Nat.mod_eq_of_lt (BitVec.isLt _)

theorem uartBytes_length : (uartBytes ty p).length = p.length + 8 := by
  simp [uartBytes]
  omega

theorem toSync_uartBytes : toSync (uartBytes ty p) = uartBytes ty p := by
  simp [toSync, uartBytes]

/-- A frame of legal length reads back whole, with its CRC good. -/
theorem uartParse_uartBytes (byte : ty < 256) (short : p.length ≤ 4096) (legal : lenBad ty p.length = false) :
    uartParse (uartBytes ty p) = .whole ty p true := by
  rw [uartParse, uartBytes_length, uartBytes_type byte, uartBytes_len short, uartBytes_payload, uartBytes_crc]
  rw [if_neg (by omega), if_neg (by simp [legal]), if_neg (by omega), decide_eq_true rfl]

theorem uartRest_uartBytes (byte : ty < 256) (short : p.length ≤ 4096) (legal : lenBad ty p.length = false) :
    uartRest (uartBytes ty p) = [] := by
  rw [uartRest, uartParse_uartBytes byte short legal]
  simp only
  rw [List.drop_of_length_le (by rw [uartBytes_length])]
  rfl

variable (on : s.uartOn = true) (fresh : s.ser.rx = [])
include on fresh

/-- A whole frame reaches its handler, and nothing stays behind in the receiver. -/
theorem State.uartFrame_whole (byte : ty < 256) (short : p.length ≤ 4096) (legal : lenBad ty p.length = false) {cfg : Bool}
    (kind : decide (ty = 6) = cfg) (f : State → Nat → Bytes → State) : s.uartFrame (uartBytes ty p) cfg f = f s ty p := by
  have same : { s with ser := { s.ser with rx := [] } } = s := by rw [← fresh]
  simp only [State.uartFrame, fresh, List.nil_append, toSync_uartBytes, uartBytes_type byte, kind, on,
    uartRest_uartBytes byte short legal, same, uartParse_uartBytes byte short legal, beq_self_eq_true, Bool.and_self, if_true]

theorem exec_uartCmdFrame_whole (byte : ty < 256) (short : p.length ≤ 4096) (legal : lenBad ty p.length = false)
    (no_cfg : ty ≠ 6) : exec (.uartCmdFrame (uartBytes ty p)) s = .next (s.uartGood ty p) :=
  congrArg Host.Outcome.next (State.uartFrame_whole on fresh byte short legal (decide_eq_false no_cfg) _)

theorem exec_uartCfgFrame_whole (eight : p.length = 8) : exec (.uartCfgFrame (uartBytes 6 p)) s = .next (s.uartCfg 6 p) :=
  congrArg Host.Outcome.next (State.uartFrame_whole on fresh (by omega) (by omega) (by simp [lenBad, eight])
    (decide_eq_true rfl) _)

theorem exec_uartCmdFrame_cmd (whole : p.length = 64) : exec (.uartCmdFrame (uartBytes 1 p)) s =
    .next (if s.ser.uartBusy then s.uartCount.uartNak 4 else s.uartCount.uartTake p) :=
  (exec_uartCmdFrame_whole on fresh (by omega) (by omega) (by simp [lenBad, whole]) (by omega)).trans
    (congrArg Host.Outcome.next (if_neg (by simp)))

end Frames

section Settings
variable {s : State}

theorem exec_uartCfgApply_pending {b m k : Nat} (waits : s.ser.cfgPend = some (b, m, k)) : exec .uartCfgApply s = .next
    { s with ser := { s.ser with cfgPend := none, baud := BitVec.ofNat 23 b, sync := m == 1, ckdiv := BitVec.ofNat 8 k } } := by
  change execUartCfgApply s = _
  rw [execUartCfgApply, waits]

end Settings

/-! ### The USB port -/

/-- A reply closes no EP1 transfer. -/
theorem State.reply_ep1 (s : State) (c : CmdSrc) (pkt : Bytes) (silent : Bool) (r : CmdRes) :
    (s.reply c pkt silent r).ser.ep1 = s.ser.ep1 := by
  cases c with
  | ring f p =>
    rw [State.reply]
    split
    · rfl
    · rw [s.pushEntry_posts (rplKey f p)]
  | usb => rfl
  | uart => rfl

theorem State.finishCmd_ep1 (s : State) (id : Nat) (r : CmdRes) : (s.finishCmd id r).ser.ep1 = s.ser.ep1 := by
  rw [State.finishCmd]
  split
  · rfl
  · exact s.reply_ep1 ..

theorem State.ep1End_closed (s : State) (status : Nat) : (s.ep1End status).ser.ep1 = none := by
  rw [State.ep1End]
  split
  · exact State.finishCmd_ep1 ..
  next idle => exact idle

theorem State.usbReset_closed (s : State) (part : Bool) : (s.usbReset part).ser.ep1 = none := State.ep1End_closed ..

section Attached
variable {s : State} (attached : s.ser.usbAttached = true)
include attached

theorem exec_usbCommand_idle (served : (s.wakeReq 6).svcStart.usbServed = true) (idle : (s.wakeReq 6).svcStart.ser.usbRun = none)
    (pkt : Bytes) : exec (.usbCommand pkt) s = .next { (s.wakeReq 6).svcStart with
      ser := { (s.wakeReq 6).svcStart.ser with usbRun := some (BitVec.ofNat 16 (cTag pkt)), usbHeld := none },
      cp := { (s.wakeReq 6).svcStart.cp with usbIn := some (padB 64 pkt) } } := by
  change execUsbCommand pkt s = _
  rw [execUsbCommand, State.usbSetup_served attached served, if_neg (by simp [idle])]

theorem exec_usbCommand_busy (served : (s.wakeReq 6).svcStart.usbServed = true) (busy : (s.wakeReq 6).svcStart.ser.usbRun ≠ none)
    (pkt : Bytes) : exec (.usbCommand pkt) s = .next ((s.wakeReq 6).svcStart.emit (.usb [] true)) := by
  change execUsbCommand pkt s = _
  rw [execUsbCommand, State.usbSetup_served attached served, if_pos (Option.isSome_iff_ne_none.2 busy)]

theorem exec_usbSetupStall_unknown (served : (s.wakeReq 6).svcStart.usbServed = true) {setup : Bytes}
    (unknown : setupKnown setup = false) : exec (.usbSetupStall setup) s = .next ((s.wakeReq 6).svcStart.emit (.usb [] true)) := by
  change execUsbSetupStall setup s = _
  rw [execUsbSetupStall, if_neg (by simp [unknown]), State.usbSetup_served attached served]

theorem exec_usbBusReset_attached (part high : Bool) : exec (.usbBusReset part high) s =
    .next { s.usbReset part with ser := { (s.usbReset part).ser with usbHigh := high } } :=
  congrArg Host.Outcome.next (if_pos attached)

theorem exec_vbusLoss_attached (part : Bool) : exec (.vbusLoss part) s =
    .next { s.usbReset part with ser := { (s.usbReset part).ser with vbus := false, usbAttached := false } } := by
  change execVbusLoss part s = _
  simp only [execVbusLoss, if_pos attached]

end Attached

section Transfer
variable {s : State} {x : BulkXfer} (open_ : s.ser.ep1 = some x)
include open_

theorem exec_ep1Timeout_open :
    exec .ep1Timeout s = .next (State.finishCmd { s with ser := { s.ser with ep1 := none } } x.cmd { status := 0x0C }) := by
  change execEp1Timeout s = _
  rw [execEp1Timeout, State.ep1End, open_]

variable (attached : s.ser.usbAttached = true) (served : s.usbServed = true)
include attached served

theorem exec_ep1Packet_in (reads : x.out = false) (d : Bytes) : exec (.ep1Packet d) s = .next (s.ep1In x) := by
  change execEp1Packet d s = _
  simp [execEp1Packet, open_, attached, served, reads]

theorem exec_ep1Packet_out (writes : x.out = true) (d : Bytes) : exec (.ep1Packet d) s = .next (s.ep1Out x d) := by
  change execEp1Packet d s = _
  simp [execEp1Packet, open_, attached, served, writes]

end Transfer

/-- A full packet that does not yet complete the image leaves the transfer open (19 R651). -/
theorem State.ep1Out_more {s : State} {x : BulkXfer} {d : Bytes} (full : d.length = s.ep1Size)
    (wants : x.data.length + s.ep1Size < x.want) :
    s.ep1Out x d = { s with ser := { s.ser with ep1 := some { x with data := x.data ++ d } } } := by
  have all : d.take (min s.ep1Size (x.want - x.data.length)) = d := List.take_of_length_le (by omega)
  simp only [State.ep1Out, all]
  rw [if_neg (by rw [List.length_append]; omega), if_neg (by omega)]

/-- Settles O56: frames by their type, then the port by what a SETUP or a packet finds. -/
theorem servicePorts : Obligations.ServicePorts := by
  unfold Obligations.ServicePorts
  refine ⟨fun s on => ⟨fun fresh => ⟨?cmd, ?busy, ?otherType, ?cfg, ?badCfg⟩, fun b m k waits => exec_uartCfgApply_pending waits,
    fun part => congrArg Host.Outcome.next (if_pos ⟨on, part⟩), congrArg Host.Outcome.next (if_pos on)⟩,
    fun s => ⟨fun attached => ⟨fun served => ⟨fun p idle => exec_usbCommand_idle attached served idle p,
      fun p busy => exec_usbCommand_busy attached served busy p, fun t runs => exec_getReply_running attached served runs,
      fun t b idle held => exec_getReply_held attached served idle held,
      fun x unknown => exec_usbSetupStall_unknown attached served unknown⟩,
      fun unserved p => congrArg Host.Outcome.next (State.usbSetup_unserved attached unserved _),
      fun part high => ⟨_, exec_usbBusReset_attached attached part high, rfl, s.usbReset_closed part⟩,
      fun part => ⟨_, exec_vbusLoss_attached attached part, rfl, rfl, s.usbReset_closed part⟩⟩,
      ⟨_, rfl, rfl, rfl, rfl⟩, fun x d open_ attached served => ⟨?inFull, ?inShort, ?out⟩,
      fun x open_ => exec_ep1Timeout_open open_⟩⟩
  case cmd => exact fun p whole idle => (exec_uartCmdFrame_cmd on fresh whole).trans (by rw [if_neg (by simp [idle])])
  case busy => exact fun p whole busy => (exec_uartCmdFrame_cmd on fresh whole).trans (by rw [if_pos busy])
  case otherType =>
    exact fun ty p byte no_cmd no_cfg short legal =>
      (exec_uartCmdFrame_whole on fresh byte short legal no_cfg).trans (congrArg Host.Outcome.next (if_pos no_cmd))
  case cfg => exact fun p eight legal => (exec_uartCfgFrame_whole on fresh eight).trans (congrArg Host.Outcome.next (if_pos legal))
  case badCfg =>
    exact fun p eight illegal =>
      (exec_uartCfgFrame_whole on fresh eight).trans (congrArg Host.Outcome.next (if_neg (by simp [illegal])))
  case inFull =>
    exact fun reads full => (exec_ep1Packet_in open_ attached served reads d).trans
      (congrArg Host.Outcome.next (if_neg (Nat.not_lt.2 full)))
  case inShort =>
    intro reads last
    refine (exec_ep1Packet_in open_ attached served reads d).trans (congrArg Host.Outcome.next ?_)
    have rest : x.data.take s.ep1Size = x.data := List.take_of_length_le (by omega)
    simp only [State.ep1In, rest]
    rw [if_pos last]
  case out =>
    exact fun writes full wants => (exec_ep1Packet_out open_ attached served writes d).trans
      (congrArg Host.Outcome.next (State.ep1Out_more full wants))

end Sys2Proof.Machine
end

section
/-!
Full resets, the functions' control, and the host's answers (14 R455 to R465, 18 R592).
-/

namespace Sys2Proof.Machine

theorem exec_sysReset_short {s : State} (b : BootIn) {ns : Nat} (short : ns < 1000) : exec (.sysReset ns b) s = .next s :=
  if_pos (.inr (.inr short))

section Resets
variable {s : State} (b : BootIn) (powered : s.pwr.st ≠ .off)
include powered

theorem exec_sysReset_long {ns : Nat} (long : 10000 ≤ ns) (free : s.tap.owned = false) :
    exec (.sysReset ns b) s = .next ((s.fullReset false).coldBoot b 1) := by
  change execSysReset ns b s = _
  rw [execSysReset, if_neg (by simp [powered, free]; omega), if_neg (by omega), State.restart]

theorem exec_wdgAonExpiry_powered : exec (.wdgAonExpiry b) s = .next ((s.fullReset false).coldBoot b 2) :=
  congrArg Host.Outcome.next (if_neg powered)

theorem exec_fatalFault_reset : exec (.fatalFault 0x0901 b) s = .next ((s.fullReset false).coldBoot b 6) := by
  refine congrArg Host.Outcome.next ((if_pos (.inl ⟨rfl, powered⟩)).trans ?_)
  rw [State.fatal, if_neg (by decide), State.restart]

end Resets

/-- The loss of the PLL is journaled before the reset (22 R737). -/
theorem State.fatal_pll (s : State) (b : BootIn) : s.fatal 0x0902 b =
    (State.fullReset (s.writeDirect (s.mkRec 0x0F (toLe 1 4 ++ [0] ++ toLe 2 0x0902 ++ toLe 8 (mkLoc 11 0 none false 0).toNat)))
      false).coldBoot b 6 := by
  rw [State.fatal, if_pos rfl, State.restart]

/-- Settles O47: the reset state field by field, and the four causes of a reset. -/
theorem fullResets : Obligations.FullResets := by
  unfold Obligations.FullResets
  refine ⟨fun s p => ⟨rfl, rfl, rfl, rfl, rfl, ?_, ?_, rfl, rfl, rfl, rfl, rfl, rfl, rfl, rfl, rfl, rfl, rfl, rfl, rfl⟩,
    fun s b => ⟨rfl, fun powered => ⟨fun ns short => exec_sysReset_short b short,
      fun ns long free => exec_sysReset_long b powered long free, exec_wdgAonExpiry_powered b powered,
      exec_fatalFault_reset b powered⟩, fun runs => ⟨?_, ?_⟩, ⟨_, rfl, rfl, rfl, rfl, rfl, rfl⟩⟩⟩
  · rintro rfl
    exact ⟨rfl, rfl, rfl, rfl, rfl⟩
  · rintro rfl
    exact ⟨rfl, rfl, rfl, rfl, rfl⟩
  · exact congrArg Host.Outcome.next ((if_pos runs).trans (s.fatal_pll b))
  · exact congrArg Host.Outcome.next ((if_pos (.inr ⟨rfl, runs⟩)).trans (s.fatal_pll b))

/-! ### The functions (14 R456, R461 to R465) -/

section Flr
variable (s : State) (f : Nat)

theorem State.resetRings_ring {id : Nat} (within : id < 32) : (s.resetRings f).ring (32 * f + id) = {} := by
  rw [State.ring, State.resetRings, mget_mclear, if_pos (by omega)]

/-- A function without scrubbing ends its FLR with its registers at reset. -/
theorem State.flrFinish_plain (plain : (s.den (f - 1)).scrub = false) : s.flrFinish f =
    State.modFn { s.resetRings f with pcie := { (s.resetRings f).pcie with
      ats := s.pcie.ats.filter (fun e => e.fn != f), xlate := s.pcie.xlate.filter (fun e => e.fn != f),
      waiting := s.pcie.waiting.filter (fun e => e.fn != f) } } f
      (fun x => { x with msix := [], shadow := none, held := [], flr := false, draining := false,
                         bme := false, ats := false, evlostSince := 0 }) := by
  simp only [State.flrFinish]
  split
  · rfl
  · rw [if_neg]
    · rfl
    · rintro ⟨scrubs, -⟩
      exact absurd (scrubs.symm.trans plain) (by decide)

theorem State.flrFinish_pf_numVfs : (s.flrFinish 0).pcie.numVfs = s.pcie.numVfs := rfl

theorem State.flrStart_pf_numVfs : (s.flrStart 0).pcie.numVfs = s.pcie.numVfs := by
  simp only [State.flrStart, if_true]
  split
  · rw [State.flrFinish_pf_numVfs]
    rfl
  · rfl

end Flr

section Functions
variable {s : State} {fn : Nat} (up : s.edgeUp fn = true)
include up

theorem exec_bmeClear_up : exec (.bmeClear fn) s = .next (s.bmeClear fn) := congrArg Host.Outcome.next (if_pos up)

theorem exec_flr_vf (vf : 0 < fn) (named : fn ≤ 32) : exec (.flr fn) s = .next (s.flrStart fn) :=
  congrArg Host.Outcome.next ((if_pos ⟨up, named⟩).trans (if_neg (by omega)))

theorem exec_atsInvalidate_on (translates : (s.fn fn).ats = true) (itag iova log2 : Nat) :
    exec (.atsInvalidate fn itag iova log2) s = .next (State.emit { s with pcie := { s.pcie with
      ats := s.pcie.ats.filter (fun e => !(e.fn == fn &&
        decide (e.iova / 2 ^ e.log2 * 2 ^ e.log2 < iova / 2 ^ log2 * 2 ^ log2 + 2 ^ log2) &&
        decide (iova / 2 ^ log2 * 2 ^ log2 < e.iova / 2 ^ e.log2 * 2 ^ e.log2 + 2 ^ e.log2))) } } (.invalDone fn itag)) :=
  congrArg Host.Outcome.next (if_pos ⟨up, translates⟩)

end Functions

section PfControl
variable {s : State} (up : s.edgeUp 0 = true)
include up

theorem exec_flr_pf : exec (.flr 0) s = .next s.pfFlr :=
  congrArg Host.Outcome.next ((if_pos ⟨up, by omega⟩).trans (if_pos rfl))

theorem exec_vfEnableClear_flr : exec (.vfEnableClear true) s = .next s.pfFlr :=
  congrArg Host.Outcome.next ((if_pos up).trans (if_pos rfl))

theorem exec_vfEnableClear_cfg : exec (.vfEnableClear false) s = .next s.vfClear :=
  congrArg Host.Outcome.next ((if_pos up).trans (if_neg (by decide)))

end PfControl

theorem State.vfClear_numVfs (s : State) : s.vfClear.pcie.numVfs = 0 := rfl

theorem State.pfFlr_numVfs (s : State) : s.pfFlr.pcie.numVfs = 0 := by
  rw [State.pfFlr, State.flrStart_pf_numVfs, State.vfClear_numVfs]

/-- Settles O45: each function control by its definition; an FLR of the PF clears NumVFs. -/
theorem functionControl : Obligations.FunctionControl := by
  unfold Obligations.FunctionControl
  refine ⟨fun s fn cfg named up => congrArg Host.Outcome.next (if_pos ⟨up, named⟩), fun s fn up =>
    ⟨exec_bmeClear_up up, exec_flr_vf up, ?pf, ?clear, fun drains => congrArg Host.Outcome.next (if_pos drains), ?plain, ?ats⟩⟩
  case pf =>
    rintro rfl
    exact ⟨_, exec_flr_pf up, exec_vfEnableClear_flr up, State.pfFlr_numVfs s⟩
  case clear =>
    rintro rfl
    exact ⟨_, exec_vfEnableClear_cfg up, s.vfClear_numVfs⟩
  case plain =>
    intro plain
    dsimp only
    rw [s.flrFinish_plain fn plain]
    refine ⟨fun id within => s.resetRings_ring fn within, ?_, ?_, ?_, fun e kept => ?_⟩
    · simp
    · simp
    · simp
    · simpa using (List.mem_filter.1 kept).2
  case ats =>
    intro itag iova log2 translates
    refine ⟨_, exec_atsInvalidate_on up translates itag iova log2, rfl, fun e => ?_⟩
    refine List.mem_filter.trans (and_congr_right fun _ => ?_)
    simp only [Bool.not_eq_true', ← Bool.not_eq_true, Bool.and_eq_true, beq_iff_eq, decide_eq_true_eq,
      and_assoc]

/-! ### What waits for the host (14 R441, R455, R457, R459) -/

section Completions
variable {s : State} (awake : s.asleep = false) {tag : Nat} {r : HostRead}
  (finds : s.pcie.reads.find? (fun x => x.tag == tag) = some r) (kept : r.discard = false) (early : r.late = false)
include finds kept early

theorem State.takeRead_found (arrived : Bool) : (s.takeRead tag arrived).1 = some r := by
  simp [State.takeRead, finds, kept, early]

include awake

theorem State.takeCompletion_found (data : Bytes) (e : CplErr) : s.takeCompletion tag data e =
    (if e = .refused then (s.takeRead tag true).2 else (s.takeRead tag true).2.countDn r).endRead r.issuer r.off r.total
      (cplResult e r.len data) := by
  rw [State.takeCompletion, if_neg (by simp [awake])]
  simp only [State.completion, State.takeRead_found finds kept early]

theorem exec_completionTimeout_found : exec (.completionTimeout tag) s =
    .next ((s.takeRead tag false).2.endRead r.issuer r.off r.total (.inr .error)) := by
  refine congrArg Host.Outcome.next ((if_neg (by simp [awake])).trans ?_)
  simp only [State.readTimeout, State.takeRead_found finds kept early]

end Completions

section Translations
variable {s : State} (awake : s.asleep = false) {fn iova : Nat} {x : PendXlate}
  (finds : s.pcie.xlate.find? (fun y => y.fn == fn && decide (y.addr / 4096 = iova / 4096)) = some x)
include awake finds

/-- The answer is cached, and the access that waited for it goes on. -/
theorem exec_translationCompletion_found (target log2 : Nat) (r w : Bool) : exec (.translationCompletion fn iova target log2 r w) s =
    .next (State.drainAll (State.translatedAcc
      { s with
        pcie := Pcie.cache
          { s.pcie with xlate := dropFirst (fun y => y.fn == fn && decide (y.addr / 4096 = iova / 4096)) s.pcie.xlate }
          (atsEntry fn iova target log2 r w) } x (atsEntry fn iova target log2 r w))) := by
  refine congrArg Host.Outcome.next ((if_neg (by simp [awake])).trans ?_)
  simp only [State.translated, finds]

end Translations

/-- The four ends of a translated access: granted or not, for a write and for a read (14 R459). -/
theorem State.translatedAcc_cases (s : State) (x : PendXlate) (e : AtsEntry) :
    (x.write = true → e.w = true → s.translatedAcc x e = (s.sendWrite x.fn (e.apply x.addr) x.data).writeLeft x.issuer) ∧
    (x.write = true → e.w = false → s.translatedAcc x e = s.writeFault x.issuer) ∧
    (x.write = false → e.r = true → s.translatedAcc x e = s.sendRead x (e.apply x.addr)) ∧
    (x.write = false → e.r = false → s.translatedAcc x e = s.endRead x.issuer x.off x.total (.inr .xlate)) := by
  refine ⟨fun writes granted => ?_, fun writes refused => ?_, fun reads granted => ?_, fun reads refused => ?_⟩
  · rw [State.translatedAcc, if_pos writes, if_pos granted]
  · rw [State.translatedAcc, if_pos writes, if_neg (by simp [refused])]
  · rw [State.translatedAcc, if_neg (by simp [reads]), if_pos granted]
  · rw [State.translatedAcc, if_neg (by simp [reads]), if_neg (by simp [refused])]

/-- Settles O46: a read that is found ends by its result; a translation that is found goes on by its rights. -/
theorem hostAnswers : Obligations.HostAnswers := by
  unfold Obligations.HostAnswers
  refine fun s awake => ⟨fun tag r data finds kept early => ?_, fun fn iova target log2 r w x finds => ?_⟩
  · have completes := State.takeCompletion_found awake finds kept early data
    have answered : exec (.hostReadCompletion tag data .ok) s = .next _ := congrArg Host.Outcome.next (completes .ok)
    exact ⟨answered, congrArg Host.Outcome.next (completes .refused), congrArg Host.Outcome.next (completes .poisoned),
      fun ring => (congrArg Host.Outcome.next (if_pos ring)).trans answered,
      exec_completionTimeout_found awake finds kept early⟩
  · have ends := exec_translationCompletion_found awake finds target log2 r w
    obtain ⟨wrote, write_refused, read, read_refused⟩ := State.translatedAcc_cases
      { s with
          pcie := Pcie.cache
            { s.pcie with xlate := dropFirst (fun y => y.fn == fn && decide (y.addr / 4096 = iova / 4096)) s.pcie.xlate }
            (atsEntry fn iova target log2 r w) } x (atsEntry fn iova target log2 r w)
    refine ⟨fun writes granted => ?_, fun writes refused => ?_, fun reads granted => ?_, fun reads refused => ?_⟩
    · rw [ends, wrote writes granted]
    · rw [ends, write_refused writes refused]
    · rw [ends, read reads granted]
    · rw [ends, read_refused reads refused]

end Sys2Proof.Machine
end

section
/-!
Doorbells (14 R438 to R447).
-/

namespace Sys2Proof.Machine

section Doorbells
variable {s : State} {fn off : Nat} {data : Bytes} (up : s.winUp fn = true) {id : Nat}
include up

theorem exec_inlineDoorbell_up (area : dbArea fn off = .inline id) :
    exec (.inlineDoorbell fn off data) s = .next (s.inlineWrite fn id off data) := by
  refine congrArg Host.Outcome.next ((if_pos (by rw [area]; rfl)).trans ?_)
  rw [State.memWrite_serves up, State.doorbell, area]

theorem exec_inlineDoorbell_hole (area : dbArea fn off = .hole) :
    exec (.inlineDoorbell fn off data) s = .next (s.accessFault 0x0201 fn 1 off) := by
  refine congrArg Host.Outcome.next ((if_pos (by rw [area]; rfl)).trans ?_)
  rw [State.memWrite_serves up, State.doorbell, area]

theorem exec_tailDoorbell_up (area : dbArea fn off = .tail id) :
    exec (.tailDoorbell fn off data) s = .next (s.tailWrite fn id off data) := by
  refine congrArg Host.Outcome.next ((if_pos (by rw [area]; rfl)).trans ?_)
  rw [State.memWrite_serves up, State.doorbell, area]

theorem exec_cqHeadDoorbell_up (area : dbArea fn off = .head id) :
    exec (.cqHeadDoorbell fn off data) s = .next (s.headWrite fn id off data) := by
  refine congrArg Host.Outcome.next ((if_pos (by rw [area]; rfl)).trans ?_)
  rw [State.memWrite_serves up, State.doorbell, area]

end Doorbells

section Writes
variable {s : State} {fn off : Nat} {data : Bytes} {id : Nat}

theorem State.inlineWrite_misshaped (bad : data.length ≠ 64 ∨ off % 2048 ≠ 0) :
    s.inlineWrite fn id off data = s.dbDrop fn id 0x0204 := if_pos bad

section Shaped
variable (size : data.length = 64) (start : off % 2048 = 0)
include size start

theorem State.inlineWrite_shaped : s.inlineWrite fn id off data =
    if s.dbOff fn id then s.dbDrop fn id 0x0205
    else if (s.ring (32 * fn + id)).n ≤ (s.ring (32 * fn + id)).used then s.dbDrop fn id 0x0206 else s.putInline fn id data :=
  if_neg (not_or.2 ⟨not_not.2 size, not_not.2 start⟩)

theorem State.inlineWrite_off (shut : s.dbOff fn id = true) : s.inlineWrite fn id off data = s.dbDrop fn id 0x0205 := by
  rw [State.inlineWrite_shaped size start, if_pos shut]

variable (opened : s.dbOff fn id = false)
include opened

theorem State.inlineWrite_full (full : (s.ring (32 * fn + id)).n ≤ (s.ring (32 * fn + id)).used) :
    s.inlineWrite fn id off data = s.dbDrop fn id 0x0206 := by
  rw [State.inlineWrite_shaped size start, if_neg (by simp [opened]), if_pos full]

theorem State.inlineWrite_put (room : (s.ring (32 * fn + id)).used < (s.ring (32 * fn + id)).n) :
    s.inlineWrite fn id off data = s.putInline fn id data := by
  rw [State.inlineWrite_shaped size start, if_neg (by simp [opened]), if_neg (Nat.not_le.2 room)]

end Shaped

/-- Entry TAIL of the ring is put: in the host's ring when `full`, else on the device. -/
def State.putEntry (s : State) (fn id : Nat) (data : Bytes) (full : Bool) : State :=
  let k := 32 * fn + id
  let r := s.ring k
  let s := if full then s.hostWrite fn (r.base.toNat + r.tail.toNat % r.n * 64) data else s
  let e : RingEntry := if full then .inHost else .held data true
  (s.modRing k (fun x => { x with tail := x.tail + 1, entries := x.entries ++ [e] })).kickRing k

/-- The first 16 inline entries stay on the device; a further one is written into the host's ring (14 R443). -/
theorem State.putInline_eq :
    s.putInline fn id data = s.putEntry fn id data (decide (16 ≤ inlineHeld (s.ring (32 * fn + id)))) := rfl

section Open
variable (size : data.length = 4 ∨ data.length = 8) (opened : s.dbOff fn id = false)
include size opened

theorem State.tailWrite_open (start : off % 2048 = 0x40) : s.tailWrite fn id off data =
    if (s.ring (32 * fn + id)).n - (s.ring (32 * fn + id)).used <
        (BitVec.ofNat 32 (fld data 0 4) - (s.ring (32 * fn + id)).tail).toNat then s.dbDrop fn id 0x0206
    else (s.modRing (32 * fn + id) (fun x => { x with
      tail := BitVec.ofNat 32 (fld data 0 4),
      entries := x.entries ++
        List.replicate (BitVec.ofNat 32 (fld data 0 4) - (s.ring (32 * fn + id)).tail).toNat .announced })).kickRing
        (32 * fn + id) := by
  have shaped : ¬ ((data.length ≠ 4 ∧ data.length ≠ 8) ∨ off % 2048 ≠ 0x40) := by omega
  simp only [State.tailWrite, if_neg shaped, opened, Bool.false_eq_true, if_false]

theorem State.headWrite_open (start : off % 8 = 0) : s.headWrite fn id off data =
    if (s.ring (32 * fn + id)).used < (BitVec.ofNat 32 (fld data 0 4) - (s.ring (32 * fn + id)).head).toNat then
      s.fault 0x0207 (ringLoc fn id 0)
    else if id = 29 then
      (s.modRing (32 * fn + id) (fun x => { x with head := BitVec.ofNat 32 (fld data 0 4) })).postLost fn
    else s.modRing (32 * fn + id) (fun x => { x with head := BitVec.ofNat 32 (fld data 0 4) }) := by
  have shaped : ¬ ((data.length ≠ 4 ∧ data.length ≠ 8) ∨ off % 8 ≠ 0) := by omega
  simp only [State.headWrite, if_neg shaped, opened, Bool.false_eq_true, if_false]

end Open
end Writes

/-- Settles O42: each area's write, by the first check that fails. -/
theorem hostDoorbells : Obligations.HostDoorbells := by
  unfold Obligations.HostDoorbells
  refine fun s fn off data up => ⟨fun id area => ?inline,
    fun id area size start opened => ?tail, fun id area size start opened => ?head,
    exec_inlineDoorbell_hole up⟩
  case inline =>
    dsimp only
    rw [exec_inlineDoorbell_up up area]
    refine ⟨fun size start opened room => ?_, fun bad => ?_, fun size start shut => ?_, fun size start opened full => ?_⟩
    · rw [State.inlineWrite_put size start opened room, State.putInline_eq]
      exact ⟨fun few => by rw [decide_eq_false (Nat.not_le.2 few)]; rfl, fun many => by rw [decide_eq_true many]; rfl⟩
    · rw [State.inlineWrite_misshaped bad]
    · rw [State.inlineWrite_off size start shut]
    · rw [State.inlineWrite_full size start opened full]
  case tail =>
    dsimp only
    rw [exec_tailDoorbell_up up area, State.tailWrite_open size opened start]
    exact ⟨fun fits => by rw [if_neg (Nat.not_lt.2 fits)], fun beyond => by rw [if_pos beyond]⟩
  case head =>
    dsimp only
    rw [exec_cqHeadDoorbell_up up area, State.headWrite_open size opened start]
    exact ⟨fun held => by rw [if_neg (Nat.not_lt.2 held)], fun beyond => by rw [if_pos beyond]⟩

end Sys2Proof.Machine
end

section
/-!
The CP's checks of a packet (15 R482, R488).
-/

namespace Sys2Proof.Machine

/-- Each command row is run by its row's checks. -/
theorem exec_of_shape {c : Instr} {r : CmdRow} {src : CmdSrc} (shape : cmdShape c = some (r, src)) (s : State) :
    ∃ f, exec c s = .next (s.runCmd r src f) := by
  unfold cmdShape at shape
  split at shape <;> cases shape <;> exact ⟨_, rfl⟩

/-! ### Every packet is of some row -/

/-- Some command of the source takes the packet. -/
def HasRow (src : CmdSrc) (b : Bytes) : Prop := ∃ c r, cmdShape c = some (r, src) ∧ r.mine b = true

section Rows
variable (src : CmdSrc) {b : Bytes}

/-- PROFILE_SET by what its byte 9 asks for. -/
theorem profileSet_row (op : cOp b = 4) : HasRow src b := by
  by_cases select : fld b 9 1 = 1
  · exact ⟨.profileSelect src, _, rfl, by simp [profileSelectRow, op, select]⟩
  by_cases clear : fld b 9 1 = 2
  · exact ⟨.profileClear src, _, rfl, by simp [profileClearRow, op, clear]⟩
  · refine ⟨.profileWrite src, _, rfl, ?_⟩
    have writes : fld b 9 1 = 0 ∨ 2 < fld b 9 1 := by omega
    simpa [profileWriteRow, op] using writes

theorem configRow_mine (op : cOp b = 0x11) {n : Nat} (sel : cSel b = n) (ps : CmdSrc → Bytes → List Param) :
    (configRow n ps).mine b = true := by simp [configRow, op, sel]

/-- DEN_CONFIG by its selector. -/
theorem denConfig_row (op : cOp b = 0x11) : HasRow src b := by
  by_cases beyond : 8 < cSel b
  · exact ⟨.denConfigTiles src, _, rfl, by simp [configTilesRow, op, beyond]⟩
  have low : cSel b ≤ 8 := by omega
  interval_cases sel : cSel b
  · exact ⟨.denConfigTiles src, _, rfl, by simp [configTilesRow, op, sel]⟩
  · exact ⟨.denConfigHbm src, _, rfl, configRow_mine op sel _⟩
  · exact ⟨.denConfigWays src, _, rfl, configRow_mine op sel _⟩
  · exact ⟨.denConfigMioter src, _, rfl, configRow_mine op sel _⟩
  · exact ⟨.denConfigRegulator src, _, rfl, configRow_mine op sel _⟩
  · exact ⟨.denConfigSched src, _, rfl, configRow_mine op sel _⟩
  · exact ⟨.denConfigFlr src, _, rfl, configRow_mine op sel _⟩
  · exact ⟨.denConfigToken src, _, rfl, configRow_mine op sel _⟩
  · exact ⟨.denConfigGran src, _, rfl, configRow_mine op sel _⟩

/-- TABLE_SWITCH of this device, or of the Warren. -/
theorem tableSwitch_row (op : cOp b = 0x33) : HasRow src b := by
  by_cases warren : cWarren b = true
  · exact ⟨.tableSwitchWarren src, _, rfl, by simp [switchWarrenRow, op, warren]⟩
  · exact ⟨.tableSwitch src, _, rfl, by simp [switchRow, op, warren]⟩

/-- LINK_CTRL by its action; a reserved one is left to DISABLE's parameter check. -/
theorem linkCtrl_row (op : cOp b = 0x52) : HasRow src b := by
  have row {p : Nat → Bool} (action : p (fld b 9 1) = true) : (linkRow p).mine b = true := by simp [linkRow, op, action]
  by_cases enable : fld b 9 1 = 1
  · exact ⟨.linkCtrlEnable src, _, rfl, row (decide_eq_true enable)⟩
  by_cases retrain : fld b 9 1 = 2
  · exact ⟨.linkCtrlRetrain src, _, rfl, row (decide_eq_true retrain)⟩
  by_cases clear : fld b 9 1 = 3
  · exact ⟨.linkCtrlClearFences src, _, rfl, row (decide_eq_true clear)⟩
  · exact ⟨.linkCtrlDisable src, _, rfl, row (decide_eq_true (by omega))⟩

end Rows

/-- The opcodes that 15 R482 defines. -/
def definedOps : List Nat :=
  [0, 1, 2, 3, 4, 5, 6, 7, 0x10, 0x11, 0x12, 0x13, 0x14, 0x15, 0x16, 0x20, 0x21, 0x22, 0x30, 0x31, 0x32, 0x33, 0x34, 0x35,
   0x40, 0x41, 0x42, 0x43, 0x44, 0x50, 0x51, 0x52, 0x53, 0x60, 0x61, 0x62, 0x63, 0x64, 0x65, 0x70, 0x71, 0x72, 0x73]

theorem opInfo_defined {op : Nat} (defined : (opInfo op).isSome = true) : op ∈ definedOps := by
  have low : op < 0x74 := by
    by_contra high
    have undefined : opInfo op = none := by
      unfold opInfo
      repeat rw [if_neg (by omega)]
    simp [undefined] at defined
  revert defined
  revert op
  decide

theorem exists_row (src : CmdSrc) (b : Bytes) : HasRow src b := by
  by_cases undefined : (opInfo (cOp b)).isNone = true
  · exact ⟨.cmdNop src, _, rfl, by simp [nopRow, undefined]⟩
  have defined := opInfo_defined (op := cOp b) (by simpa [Option.isSome_iff_ne_none] using undefined)
  simp only [definedOps, List.mem_cons, List.not_mem_nil, or_false] at defined
  rcases defined with op | op | op | op | op | op | op | op | op | op | op | op | op | op | op | op | op | op | op | op |
    op | op | op | op | op | op | op | op | op | op | op | op | op | op | op | op | op | op | op | op | op | op | op
  · exact ⟨.cmdNop src, _, rfl, by simp [nopRow, op]⟩
  · exact ⟨.identify src, _, rfl, decide_eq_true op⟩
  · exact ⟨.devStatus src, _, rfl, decide_eq_true op⟩
  · exact ⟨.profileGet src, _, rfl, decide_eq_true op⟩
  · exact profileSet_row src op
  · exact ⟨.devHush src, _, rfl, decide_eq_true op⟩
  · exact ⟨.scrubRetained src, _, rfl, decide_eq_true op⟩
  · exact ⟨.p2pProbe src, _, rfl, decide_eq_true op⟩
  · exact ⟨.denCreate src, _, rfl, decide_eq_true op⟩
  · exact denConfig_row src op
  · exact ⟨.denQuery src, _, rfl, decide_eq_true op⟩
  · exact ⟨.denDestroy src, _, rfl, decide_eq_true op⟩
  · exact ⟨.denResume src, _, rfl, decide_eq_true op⟩
  · exact ⟨.histDirSet src, _, rfl, decide_eq_true op⟩
  · exact ⟨.attach src, _, rfl, decide_eq_true op⟩
  · exact ⟨.modelLoad src, _, rfl, decide_eq_true op⟩
  · exact ⟨.modelUnload src, _, rfl, decide_eq_true op⟩
  · exact ⟨.modelQuery src, _, rfl, decide_eq_true op⟩
  · exact ⟨.tableCreate src, _, rfl, decide_eq_true op⟩
  · exact ⟨.tableModify src, _, rfl, decide_eq_true op⟩
  · exact ⟨.tableVersionSet src, _, rfl, decide_eq_true op⟩
  · exact tableSwitch_row src op
  · exact ⟨.tableQuery src, _, rfl, decide_eq_true op⟩
  · exact ⟨.tableDelete src, _, rfl, decide_eq_true op⟩
  · exact ⟨.ctxStore src, _, rfl, decide_eq_true op⟩
  · exact ⟨.ctxLoad src, _, rfl, decide_eq_true op⟩
  · exact ⟨.ctxSelect src, _, rfl, decide_eq_true op⟩
  · exact ⟨.ctxFree src, _, rfl, decide_eq_true op⟩
  · exact ⟨.ctxQuery src, _, rfl, decide_eq_true op⟩
  · exact ⟨.warrenStatus src, _, rfl, decide_eq_true op⟩
  · exact ⟨.routeSet src, _, rfl, decide_eq_true op⟩
  · exact linkCtrl_row src op
  · exact ⟨.warrenSurvey src, _, rfl, decide_eq_true op⟩
  · exact ⟨.marginRun src, _, rfl, decide_eq_true op⟩
  · exact ⟨.tileFence src, _, rfl, decide_eq_true op⟩
  · exact ⟨.tileUnfence src, _, rfl, decide_eq_true op⟩
  · exact ⟨.ledgerRead src, _, rfl, decide_eq_true op⟩
  · exact ⟨.diagRun src, _, rfl, decide_eq_true op⟩
  · exact ⟨.tagRead src, _, rfl, decide_eq_true op⟩
  · exact ⟨.fwStage src, _, rfl, decide_eq_true op⟩
  · exact ⟨.fwActivate src, _, rfl, decide_eq_true op⟩
  · exact ⟨.fwQuery src, _, rfl, decide_eq_true op⟩
  · exact ⟨.fwCommit src, _, rfl, decide_eq_true op⟩

/-! ### The checks, in order -/

section Checks
variable {s : State} {r : CmdRow} {src : CmdSrc} {b : Bytes}

theorem State.cmdRefusal_undefined (undefined : opInfo (cOp b) = none) : s.cmdRefusal r src b = some { status := 2 } := by
  simp only [State.cmdRefusal, State.headCheck, undefined]

variable {sc : Nat} {v : Bool} (info : opInfo (cOp b) = some (sc, v))
include info

theorem State.cmdRefusal_head {o : Nat} (bad : headBad b sc src.vf.isSome = some o) :
    s.cmdRefusal r src b = some { status := 3, detail := o } := by
  simp only [State.cmdRefusal, State.headCheck, info, bad]

variable (head : headBad b sc src.vf.isSome = none)
include head

theorem State.cmdRefusal_notAllowed (barred : notAllowed src b sc v = true) : s.cmdRefusal r src b = some { status := 5 } := by
  simp only [State.cmdRefusal, State.headCheck, info, head, barred, if_true]

variable (allowed : notAllowed src b sc v = false)
include allowed

theorem State.cmdRefusal_state (refuses : s.stateRefuses src b sc = true) : s.cmdRefusal r src b = some { status := 6 } := by
  simp only [State.cmdRefusal, State.headCheck, info, head, allowed, refuses, if_true, if_false, Bool.false_eq_true]

variable (ready : s.stateRefuses src b sc = false)
include ready

theorem State.cmdRefusal_param {o : Nat} (bad : paramBad b 8 (r.params src b) = some o) :
    s.cmdRefusal r src b = some { status := 3, detail := o } := by
  simp only [State.cmdRefusal, State.headCheck, info, head, allowed, ready, bad, if_false, Bool.false_eq_true]

theorem State.cmdRefusal_locks (params : paramBad b 8 (r.params src b) = none) :
    s.cmdRefusal r src b = if s.locksFree (r.locks s b) then none else some { status := 0x01 } := by
  simp only [State.cmdRefusal, State.headCheck, info, head, allowed, ready, params, if_false, Bool.false_eq_true]

end Checks

/-- Settles O37: a row for each opcode, what the row's checks do with a packet, and the checks one by one. -/
theorem commandsAreChecked : Obligations.CommandsAreChecked := by
  unfold Obligations.CommandsAreChecked
  refine ⟨exists_row, fun c r src s b shape pkt => ?_, fun c r src s shape none => ?_, fun s r src b =>
    ⟨State.cmdRefusal_undefined, fun sc v info => ⟨fun o => State.cmdRefusal_head info, fun head =>
      ⟨State.cmdRefusal_notAllowed info head, fun allowed => ⟨State.cmdRefusal_state info head allowed, fun ready =>
        ⟨fun o => State.cmdRefusal_param info head allowed ready, fun params => ⟨fun held => ?_, fun free => ?_⟩⟩⟩⟩⟩⟩⟩
  · obtain ⟨f, runs⟩ := exec_of_shape shape s
    rw [runs]
    refine ⟨fun x takes mine refuses => ?_, fun left => ?_⟩
    · rw [State.runCmd_refuses pkt takes mine refuses]
    · rw [State.runCmd_rests f (.inr (left.imp id fun other p same => ?_))]
      exact Option.some.inj (pkt.symm.trans same) ▸ other
  · obtain ⟨f, runs⟩ := exec_of_shape shape s
    rw [runs, State.runCmd_rests f (.inl none)]
  · rw [State.cmdRefusal_locks info head allowed ready params, if_neg (by simp [held])]
  · rw [State.cmdRefusal_locks info head allowed ready params, if_pos free]

end Sys2Proof.Machine
end

section
/-!
Messages read back (16 R524).
-/

namespace Sys2Proof.Machine

theorem sliceB_append_left {x : Bytes} (y : Bytes) {i n : Nat} (within : i + n ≤ x.length) : sliceB (x ++ y) i n = sliceB x i n := by
  unfold sliceB
  refine List.map_congr_left fun k inSlice => ?_
  rw [List.mem_range] at inSlice
  rw [List.getD_append _ _ _ _ (by omega)]

theorem fld_append_left {x : Bytes} (y : Bytes) {i n : Nat} (within : i + n ≤ x.length) : fld (x ++ y) i n = fld x i n := by
  rw [fld, sliceB_append_left y within, fld]

/-- What stands at the front of a padded run. -/
theorem sliceB_padB {n : Nat} {bs : Bytes} (fits : bs.length ≤ n) : sliceB (padB n bs) 0 bs.length = bs := by
  rw [padB, sliceB_sliceB bs (by omega), Nat.zero_add, sliceB_self]

theorem padFlits_length (b : Bytes) : (padFlits b).length = 32 * ((b.length + 31) / 32) := by
  rw [padFlits, padB_length, Nat.mul_comm]

theorem vcOf_le {ty v : Nat} (vc : vcOf ty = some v) : v ≤ 3 := by
  unfold vcOf at vc
  split_ifs at vc <;> cases vc <;> decide

/-- The header of a message: its 12 named bytes, and the 20 that its type names (16 R524). -/
def msgHeader (ty vc n src dst den status : Nat) (tid : W32) (fields : Bytes) : Bytes :=
  toLe 1 ty ++ toLe 1 vc ++ toLe 1 n ++ [15] ++ toLe 1 src ++ toLe 1 dst ++ toLe 1 den ++ toLe 1 status ++ toLe 4 tid.toNat ++
  padB 20 fields

theorem State.mkMsg_eq {s : State} {ty v dst den status : Nat} {tid : W32} {fields data : Bytes} (vc : vcOf ty = some v) :
    s.mkMsg ty dst den status tid fields data =
      msgHeader ty v ((data.length + 31) / 32) s.fab.wid dst den status tid fields ++ padFlits data := by
  have flits : (padFlits data).length / 32 = (data.length + 31) / 32 := by rw [padFlits_length]; omega
  simp only [State.mkMsg, vc, flits, msgHeader]

section Header
variable (ty vc n src dst den status : Nat) (tid : W32) (fields : Bytes)

theorem msgHeader_length : (msgHeader ty vc n src dst den status tid fields).length = 32 := by
  simp [msgHeader, padB_length]

/-- The bytes that each header field has. -/
theorem msgHeader_fields : fld (msgHeader ty vc n src dst den status tid fields) 0 1 = ty % 256 ∧
    fld (msgHeader ty vc n src dst den status tid fields) 1 1 = vc % 256 ∧
    fld (msgHeader ty vc n src dst den status tid fields) 2 1 = n % 256 ∧
    fld (msgHeader ty vc n src dst den status tid fields) 4 1 = src % 256 ∧
    fld (msgHeader ty vc n src dst den status tid fields) 5 1 = dst % 256 ∧
    fld (msgHeader ty vc n src dst den status tid fields) 6 1 = den % 256 ∧
    fld (msgHeader ty vc n src dst den status tid fields) 7 1 = status % 256 ∧
    fld (msgHeader ty vc n src dst den status tid fields) 8 4 = tid.toNat := by
  have word : tid.toNat % 256 ^ 4 = tid.toNat := Nat.mod_eq_of_lt (by have := tid.isLt; norm_num at *; omega)
  rw [msgHeader]
  refine ⟨?_, ?_, ?_, ?_, ?_, ?_, ?_, ?_⟩
  · simp (disch := simp) only [fld_append_left]
    exact (fld_last (x := []) List.length_nil).trans (congrArg _ (Nat.pow_one 256))
  all_goals simp (disch := simp) only [fld_append_left, fld_last, Nat.pow_one, word]

theorem msgHeader_tail {k : Nat} (fits : k ≤ 20) :
    sliceB (msgHeader ty vc n src dst den status tid fields) 0xC k = sliceB (padB 20 fields) 0 k := by
  have part : sliceB (msgHeader ty vc n src dst den status tid fields) 0xC 20 = padB 20 fields :=
    sliceB_last (by simp) (padB_length ..)
  rw [← part, sliceB_sliceB _ (by omega)]

end Header

/-- Settles O34: the header's bytes are the message's first, and its data what follows. -/
theorem messagesReadBack : Obligations.MessagesReadBack := by
  unfold Obligations.MessagesReadBack
  intro s ty v dst den status tid fields data vc ty_lt dst_lt den_lt status_lt wid_lt few short m
  have made : m = msgHeader ty v ((data.length + 31) / 32) s.fab.wid dst den status tid fields ++ padFlits data :=
    State.mkMsg_eq vc
  have long := msgHeader_length ty v ((data.length + 31) / 32) s.fab.wid dst den status tid fields
  obtain ⟨type, channel, flits, source, dest, theDen, theStatus, transaction⟩ :=
    msgHeader_fields ty v ((data.length + 31) / 32) s.fab.wid dst den status tid fields
  have v_le := vcOf_le vc
  have ndata : mNdata m = (data.length + 31) / 32 := by
    rw [mNdata, made, fld_append_left _ (by omega), flits, Nat.mod_eq_of_lt (by omega)]
  refine ⟨?_, ?_, ndata, ?_, ?_, ?_, ?_, ?_, ?_, ?_, ?_⟩
  · rw [mType, made, fld_append_left _ (by omega), type, Nat.mod_eq_of_lt ty_lt]
  · rw [mVc, made, fld_append_left _ (by omega), channel]
    omega
  · rw [mSrc, made, fld_append_left _ (by omega), source, Nat.mod_eq_of_lt wid_lt]
  · rw [mDst, made, fld_append_left _ (by omega), dest, Nat.mod_eq_of_lt dst_lt]
  · rw [mDen, made, fld_append_left _ (by omega), theDen]
    omega
  · rw [mStatus, made, fld_append_left _ (by omega), theStatus, Nat.mod_eq_of_lt status_lt]
  · rw [mTid, made, fld_append_left _ (by omega), transaction, BitVec.ofNat_toNat, BitVec.setWidth_eq]
  · rw [mFlits, ndata, made, List.length_append, long, padFlits_length]
    omega
  · rw [mData, made, List.drop_left' long]
  · rw [made, sliceB_append_left _ (by omega), msgHeader_tail _ _ _ _ _ _ _ _ _ few, sliceB_padB few]

end Sys2Proof.Machine
end

section
/-!
The Warren's management: heartbeats, HOLD, notes, surveys and time (16 R536, R543, R546 to R549).
-/

namespace Sys2Proof.Machine

section Received
variable {s : State} {p : Nat} {m : Bytes}

/-- A member follows the heartbeat of its epoch, or of the first one that it hears (16 R546). -/
theorem State.onHeartbeat_member (member : s.fab.role = 1)
    (epoch : s.fab.epoch = 0 ∨ s.fab.epoch = BitVec.ofNat 32 (fld m 0xC 4)) : s.onHeartbeat m =
      State.syncTime { s with fab := { s.fab with epoch := BitVec.ofNat 32 (fld m 0xC 4), master := mSrc m, hold := false } }
        (16 * fld m 0x10 8 + fld m 0x18 4) :=
  if_neg (not_or.2 ⟨not_not.2 member, fun ⟨known, other⟩ => epoch.elim known other⟩)

end Received

section Time
variable (s : State) (n : Nat)

theorem State.syncTime_corr : (s.syncTime n).fab.corr = BitVec.ofInt 32 ((n : Int) - 16 * (s.wtime.toNat : Int)) := by
  simp only [State.syncTime]
  split <;> rfl

variable {s n}

/-- A device that is behind, or was never synchronised, takes the master's time (16 R546). -/
theorem State.syncTime_jump (behind : s.fab.synced = false ∨ s.wtime.toNat ≤ n / 16) :
    (s.syncTime n).wtime = BitVec.ofNat 64 (n / 16) ∧ (s.syncTime n).fab.slow = 0 ∧ (s.syncTime n).fab.synced = true := by
  simp only [State.syncTime]
  rw [if_pos behind]
  exact ⟨rfl, rfl, rfl⟩

/-- One that is ahead slows down (16 R546). -/
theorem State.syncTime_slow (synced : s.fab.synced = true) (ahead : n / 16 < s.wtime.toNat) :
    (s.syncTime n).wtime = s.wtime ∧ (s.syncTime n).fab.slow = s.wtime.toNat - n / 16 := by
  simp only [State.syncTime]
  rw [if_neg (by simp [synced, ahead])]
  exact ⟨rfl, rfl⟩

end Time

/-- Settles O33: each message by its handler, then the two ways to the master's time. -/
theorem warrenManagement : Obligations.WarrenManagement := by
  unfold Obligations.WarrenManagement
  refine ⟨fun s p m => ⟨fun arrives member epoch => ?_, fun runs master => congrArg Host.Outcome.next (if_pos ⟨runs, master⟩),
    fun runs member open_ awake => ?_, fun arrives accepts => exec_of_receive arrives rfl (if_pos accepts), fun arrives => ?_,
    fun arrives => ?_, fun arrives => exec_of_receive arrives rfl rfl, fun v arrives waits => ?_, fun v runs waits => ?_⟩,
    fun s n small => ⟨s.syncTime_corr n, fun behind => ?_, fun synced ahead => State.syncTime_slow synced ahead⟩⟩
  · exact exec_of_receive arrives rfl (State.onHeartbeat_member member epoch)
  · exact congrArg Host.Outcome.next (if_pos ⟨runs, member, by simp [open_], by rw [awake]; exact Bool.false_ne_true⟩)
  · refine ⟨_, exec_of_receive arrives rfl rfl, ?_, fun n other => ?_, rfl⟩
    · simp
    · simp [other]
  · refine ⟨_, exec_of_receive arrives rfl rfl, ?_, fun n other => ?_, rfl⟩
    · simp
    · simp [other]
  · refine exec_of_receive arrives rfl ?_
    dsimp only
    rw [waits]
  · change execSurveyTimeout s = _
    simp only [execSurveyTimeout, waits, runs, if_true]
  · obtain ⟨now, steady, synced⟩ := State.syncTime_jump behind
    exact ⟨by rw [now, BitVec.toNat_ofNat, Nat.mod_eq_of_lt small], steady, synced⟩

end Sys2Proof.Machine
end

section
/-!
The fault log (22 R721 to R723).
-/

namespace Sys2Proof.Machine

section PostedErr
variable (s : State)

@[simp] theorem State.sendVec_err (f v : Nat) : (s.sendVec f v).err = s.err := by
  unfold State.sendVec
  dsimp only
  split_ifs <;> rfl

@[simp] theorem State.writeEntry_err (k : Nat) (bytes : Bytes) (vec : Option Nat) : (s.writeEntry k bytes vec).err = s.err := by
  unfold State.writeEntry
  dsimp only
  cases vec with
  | none => split_ifs <;> rfl
  | some v => split_ifs <;> exact State.sendVec_err _ _ v

@[simp] theorem State.pushEntry_err (k : Nat) (bytes : Bytes) (vec : Option Nat) : (s.pushEntry k bytes vec).err = s.err := by
  unfold State.pushEntry
  split
  · split
    · exact s.writeEntry_err k bytes vec
    · rfl
  · rfl

@[simp] theorem State.postEvent_err (f ty den : Nat) (payload : Bytes) : (s.postEvent f ty den payload).2.err = s.err := by
  unfold State.postEvent
  dsimp only
  split_ifs
  · rfl
  · rfl
  · exact s.pushEntry_err _ _ _

end PostedErr

/-- Nothing of the log has changed but that its newest entry may be marked as evented (22 R723). -/
structure NewestMarked (e e' : Err) : Prop where
  seq : e'.seq = e.seq
  wptr : e'.wptr = e.wptr
  cls : e'.cls = e.cls
  newest : ∃ b, mget ({} : LogEntry) e'.log e.newest = { mget ({} : LogEntry) e.log e.newest with evented := b }
  others : ∀ j, j ≠ e.newest → mget ({} : LogEntry) e'.log j = mget {} e.log j

section Marks
variable {e e' e'' : Err}

theorem NewestMarked.refl : NewestMarked e e := ⟨rfl, rfl, rfl, ⟨_, rfl⟩, fun _ _ => rfl⟩

theorem NewestMarked.same_newest (marked : NewestMarked e e') : e'.newest = e.newest := by
  rw [Err.newest, Err.newest, marked.wptr]

theorem NewestMarked.trans (first : NewestMarked e e') (second : NewestMarked e' e'') : NewestMarked e e'' := by
  obtain ⟨b, entry⟩ := first.newest
  obtain ⟨c, again⟩ := second.newest
  have others := second.others
  rw [first.same_newest] at again others
  exact ⟨second.seq.trans first.seq, second.wptr.trans first.wptr, second.cls.trans first.cls, ⟨c, by rw [again, entry]⟩,
    fun j other => (others j other).trans (first.others j other)⟩

end Marks

section Entries
variable (s : State) (cls cause : Nat) (loc : W64)

theorem State.errorEvent_marks (f : Nat) : NewestMarked s.err (s.errorEvent f cls cause loc).err := by
  unfold State.errorEvent
  extract_lets key quiet event
  have kept : event.2.err = s.err := s.postEvent_err _ _ _ _
  clear_value event
  split_ifs
  · exact .refl
  · rw [← kept]
    exact ⟨rfl, rfl, rfl, ⟨true, by rw [mget_mset, if_pos rfl]⟩, fun j other => by rw [mget_mset, if_neg other]⟩
  · rw [kept]
    exact .refl

theorem State.errorEvents_marks : NewestMarked s.err (s.errorEvents cls cause loc).err := by
  unfold State.errorEvents
  dsimp only
  split_ifs
  · exact (s.errorEvent_marks cls cause loc _).trans (State.errorEvent_marks _ cls cause loc 0)
  · exact s.errorEvent_marks cls cause loc 0
  · exact .refl

/-- The class is counted before the log is looked at. -/
def State.counted : State := { s with err := { s.err with cls := mset 0 s.err.cls cls (mget 0 s.err.cls cls + 1) } }

theorem State.logCore_eq : s.logCore cls cause loc =
    if s.coalesces cls cause loc then
      { s.counted cls with
        err := { (s.counted cls).err with
          log := mset {} s.err.log s.err.newest
            { mget ({} : LogEntry) s.err.log s.err.newest with
              count := satAdd (mget ({} : LogEntry) s.err.log s.err.newest).count 1 } } }
    else if s.eccQuiet cause loc then s.counted cls
    else ((s.counted cls).newEntry cls cause loc).errorEvents cls cause loc := rfl

theorem State.counted_cls : mget 0 (s.counted cls).err.cls cls = mget 0 s.err.cls cls + 1 := by
  rw [State.counted, mget_mset, if_pos rfl]

theorem State.newEntry_newest : (s.newEntry cls cause loc).err.newest = s.err.wptr.toNat := by
  have step : ((s.err.wptr + 1).toNat + 1023) % 1024 = s.err.wptr.toNat := by
    have := s.err.wptr.isLt
    rw [BitVec.toNat_add]
    simp
    omega
  exact step

theorem State.newEntry_log (j : Nat) : mget ({} : LogEntry) (s.newEntry cls cause loc).err.log j =
    if j = s.err.wptr.toNat then { seq := s.err.seq + 1, cls := cls, cause := cause, loc := loc, wtime := s.wtime, count := 1 }
    else mget {} s.err.log j := mget_mset ..

end Entries

/-- Settles O52: a coalesced fault, a quiet one, and a new entry, of which the ERROR events only mark the newest. -/
theorem faultLog : Obligations.FaultLog := by
  unfold Obligations.FaultLog
  refine fun s cls cause loc => ⟨fun joins => ?_, fun apart quiet => ?_, fun apart loud => ?_⟩
  · refine ⟨_, rfl, ?_⟩
    rw [State.logCore_eq, if_pos joins]
    exact ⟨rfl, rfl, s.counted_cls cls, by rw [mget_mset, if_pos rfl], fun j other => by rw [mget_mset, if_neg other]⟩
  · refine ⟨_, rfl, ?_⟩
    rw [State.logCore_eq, if_neg (by simp [apart]), if_pos quiet]
    exact ⟨rfl, rfl, rfl, s.counted_cls cls⟩
  · refine ⟨_, rfl, ?_⟩
    rw [State.logCore_eq, if_neg (by simp [apart]), if_neg (by rw [loud]; exact Bool.false_ne_true)]
    have marked := ((s.counted cls).newEntry cls cause loc).errorEvents_marks cls cause loc
    obtain ⟨b, newest⟩ := marked.newest
    have others := marked.others
    rw [State.newEntry_newest] at newest others
    refine ⟨marked.seq, marked.wptr, ?_, ⟨b, ?_⟩, fun j other => ?_⟩
    · rw [marked.cls]
      exact s.counted_cls cls
    · refine newest.trans ?_
      rw [State.newEntry_log, if_pos rfl]
      rfl
    · refine (others j other).trans ?_
      exact (State.newEntry_log ..).trans (if_neg other)

end Sys2Proof.Machine
end

section
/-!
The timers: matches, starts, gates, debug halt, ticks and the make-up (20 R659 to R670).
-/

namespace Sys2Proof.Machine

/-! ### A match (20 R661) -/

section Match
variable {x : Tmr} {r : W64} (repeats : x.ivl ≠ 0)
include repeats

theorem Tmr.ivl_pos : 0 < x.ivl.toNat := Nat.pos_of_ne_zero fun zero => repeats (BitVec.eq_of_toNat_eq zero)

theorem Tmr.matched_repeating : x.matched r = { x with
    hits := x.hits + 1, gCredit := if x.route = 1 ∧ x.gEn then x.batch else x.gCredit,
    cmp := x.cmp + BitVec.ofNat 64 (x.steps r) * x.ivl, missed := satAdd x.missed (x.steps r - 1) } := if_neg repeats

/-- The steps are the fewest that pass the reference. -/
theorem Tmr.steps_passes (passed : x.cmp.toNat ≤ r.toNat) : r.toNat < x.cmp.toNat + x.steps r * x.ivl.toNat ∧
    x.cmp.toNat + x.steps r * x.ivl.toNat ≤ r.toNat + x.ivl.toNat := by
  have whole := Nat.div_add_mod (r.toNat - x.cmp.toNat) x.ivl.toNat
  have rest := Nat.mod_lt (r.toNat - x.cmp.toNat) (Tmr.ivl_pos repeats)
  rw [Tmr.steps, Nat.add_mul, Nat.one_mul, Nat.mul_comm]
  omega

theorem Tmr.matched_cmp (fits : x.cmp.toNat + x.steps r * x.ivl.toNat < 2 ^ 64) :
    (x.matched r).cmp.toNat = x.cmp.toNat + x.steps r * x.ivl.toNat := by
  have counted : x.steps r ≤ x.steps r * x.ivl.toNat := Nat.le_mul_of_pos_right _ (Tmr.ivl_pos repeats)
  rw [Tmr.matched_repeating repeats, BitVec.toNat_add, BitVec.toNat_mul, BitVec.toNat_ofNat,
    Nat.mod_eq_of_lt (a := x.steps r) (by omega), Nat.mod_eq_of_lt (a := x.steps r * x.ivl.toNat) (by omega),
    Nat.mod_eq_of_lt fits]

end Match

/-! ### What the timers' own commands change -/

/-- Only the timers and TMR_EVT have changed. -/
def OnlyTimers (s u : State) : Prop := u = { s with tim := { s.tim with tmr := u.tim.tmr, evt := u.tim.evt } }

section Only
variable {s u v : State}

theorem OnlyTimers.refl (s : State) : OnlyTimers s s := rfl

theorem OnlyTimers.trans (first : OnlyTimers s u) (second : OnlyTimers u v) : OnlyTimers s v :=
  Eq.trans second (congrArg (fun x : State => { x with tim := { x.tim with tmr := v.tim.tmr, evt := v.tim.evt } }) first)

theorem OnlyTimers.each {f : State → Nat → State} (step : ∀ u n, OnlyTimers u (f u n)) (l : List Nat) (s : State) :
    OnlyTimers s (s.each l f) := by
  induction l generalizing s with
  | nil => exact .refl s
  | cons n l ih => exact (step s n).trans (ih (f s n))

theorem OnlyTimers.wtime (only : OnlyTimers s u) : u.wtime = s.wtime := by rw [only]
theorem OnlyTimers.fab (only : OnlyTimers s u) : u.fab = s.fab := by rw [only]
theorem OnlyTimers.resid (only : OnlyTimers s u) : u.tim.resid = s.tim.resid := by rw [only]
theorem OnlyTimers.makeups (only : OnlyTimers s u) : u.tim.makeups = s.tim.makeups := by rw [only]

end Only

section Commands
variable (s : State)

theorem State.tryMatch_onlyTimers (n : Nat) : OnlyTimers s (s.tryMatch n) := by
  unfold State.tryMatch
  split <;> rfl

theorem State.deferredStart_onlyTimers : OnlyTimers s s.deferredStart := by
  unfold State.deferredStart
  split
  · refine OnlyTimers.each (fun u n => ?_) _ s
    split <;> rfl
  · exact .refl s

theorem State.tmrCount_onlyTimers : OnlyTimers s s.tmrCount := by
  unfold State.tmrCount
  split
  · exact .refl s
  · refine OnlyTimers.each (fun u n => ?_) _ s
    split <;> rfl

end Commands

/-- A step that changes timer `n` alone, once for each number of a list, changes each of them by its own rule. -/
theorem State.each_tmr {f : State → Nat → State} {g : Nat → Tmr → Tmr}
    (step : ∀ u n m, (f u n).tmr m = if m = n then g n (u.tmr n) else u.tmr m) {l : List Nat} (distinct : l.Nodup) (s : State)
    (m : Nat) : (s.each l f).tmr m = if m ∈ l then g m (s.tmr m) else s.tmr m := by
  induction l generalizing s with
  | nil => rfl
  | cons n l ih =>
    obtain ⟨fresh, rest⟩ := List.nodup_cons.1 distinct
    refine (ih rest (f s n)).trans ?_
    rw [step]
    by_cases here : m = n
    · subst here
      rw [if_neg fresh, if_pos rfl, if_pos List.mem_cons_self]
    · simp only [here, if_false, List.mem_cons, false_or]

theorem State.each_range_tmr {f : State → Nat → State} {g : Nat → Tmr → Tmr}
    (step : ∀ u n m, (f u n).tmr m = if m = n then g n (u.tmr n) else u.tmr m) (s : State) {n : Nat} (within : n < 8) :
    (s.each (List.range 8) f).tmr n = g n (s.tmr n) :=
  (State.each_tmr step List.nodup_range s n).trans (if_pos (List.mem_range.2 within))

/-! ### Starts, gates, matches and debug halt -/

section Starts
variable (s : State)

/-- What a TMR_GSTART write does to a timer (20 R660). -/
def Tmr.gstarted (x : Tmr) (named defer : Bool) : Tmr :=
  if defer then { x with pend := named && !x.run } else if named then { x with run := true, pend := false } else x

theorem State.gstart_tmr (start : BitVec 8) (defer : Bool) {n : Nat} (within : n < 8) :
    (s.gstart start defer).tmr n = (s.tmr n).gstarted (start.getLsbD n) defer :=
  State.each_range_tmr (g := fun n x => x.gstarted (start.getLsbD n) defer) (fun _ _ _ => State.modTmr_tmr ..) s within

variable {s}

theorem State.deferredStart_tmr (reached : s.tim.gstartAt ≤ s.wtime) (thawed : s.frozen = false) {n : Nat} (within : n < 8) :
    s.deferredStart.tmr n = if (s.tmr n).pend then { s.tmr n with run := true, pend := false } else s.tmr n := by
  have due : s.tim.gstartAt ≤ s.wtime ∧ ¬ s.frozen = true := ⟨reached, by simp [thawed]⟩
  rw [State.deferredStart, if_pos due]
  refine State.each_range_tmr (g := fun _ x => if x.pend then { x with run := true, pend := false } else x)
    (fun u k m => ?_) s within
  split
  · exact State.modTmr_tmr ..
  · split
    next same => rw [same]
    next => rfl

theorem State.tryMatch_due {n : Nat} (due : s.matchDue n = true) : (s.tryMatch n).tmr n = (s.tmr n).matched (s.tmrRef (s.tmr n)) ∧
    (s.tryMatch n).tim.evt = s.tim.evt ||| BitVec.ofNat 8 (2 ^ n) ∧ ∀ m, m ≠ n → (s.tryMatch n).tmr m = s.tmr m := by
  rw [State.tryMatch, if_pos due]
  exact ⟨(State.modTmr_tmr ..).trans (if_pos rfl), rfl, fun m other => (State.modTmr_tmr ..).trans (if_neg other)⟩

theorem State.wdgHold_tim (s : State) : s.wdgHold.tim.halt = s.tim.halt ∧
    s.wdgHold.tim.cpSt = if s.tim.cpSt = .running then .held else s.tim.cpSt := by
  unfold State.wdgHold
  split
  · exact ⟨rfl, rfl⟩
  · exact ⟨rfl, rfl⟩

theorem State.wdgResume_tim (runs : s.hub = true) (released : s.tim.halt = false) : s.wdgResume.tim.halt = false ∧
    s.wdgResume.tim.cpSt = if s.tim.cpSt = .held then .running else s.tim.cpSt := by
  unfold State.wdgResume
  by_cases held : s.tim.cpSt = .held
  · rw [if_pos ⟨held, by simp [released], runs⟩, if_pos held]
    exact ⟨released, rfl⟩
  · rw [if_neg (fun due => held due.1), if_neg held]
    exact ⟨released, rfl⟩

end Starts

/-! ### Ticks and the make-up (20 R659, R668) -/

/-- Warren time, and the state of its synchronisation. -/
def State.clock (s : State) : W64 × Fab := (s.wtime, s.fab)

theorem OnlyTimers.clock {s u : State} (only : OnlyTimers s u) : u.clock = s.clock := Prod.ext only.wtime only.fab

theorem ite_observed {α β : Type} {c : Prop} [Decidable c] (see : α → β) {a b : α} {x : β} (yes : see a = x) (no : see b = x) :
    see (if c then a else b) = x := by
  split
  · exact yes
  · exact no

theorem State.mgtSend_clock (s : State) : s.mgtSend.clock = s.clock := by
  unfold State.mgtSend
  split
  · exact ite_observed State.clock rfl rfl
  · rfl

theorem State.aonTick_clock (s : State) (p : Power) : (State.aonTick { s with pwr := p }).clock = s.clock := rfl

theorem State.withPwr_clock (s : State) (p : Power) : State.clock { s with pwr := p } = s.clock := rfl

theorem State.aonShare_clock (s : State) : s.aonShare.clock = s.clock := by
  unfold State.aonShare
  exact ite_observed State.clock (s.withPwr_clock _) (s.aonTick_clock _)

theorem State.guardTicks_clock (s : State) : s.guardTicks.clock = s.clock := rfl

/-- Of a TMCLK edge, only the count of Warren time concerns Warren time. -/
theorem State.tmclkTick_clock (s : State) : s.tmclkTick.clock = s.wtimeTick.clock := by
  rw [State.tmclkTick, State.aonShare_clock, State.guardTicks_clock, (State.deferredStart_onlyTimers _).clock,
    (OnlyTimers.each State.tryMatch_onlyTimers _ _).clock, (State.tmrCount_onlyTimers _).clock]

section Tick
variable {s : State} (runs : s.hub = true)
include runs

theorem State.tick_clock : s.tick.clock = s.mgtSend.wtimeTick.clock := by
  rw [State.tick, if_pos runs, State.tmclkTick_clock]

theorem State.tick_steady (steady : s.fab.slow = 0) : s.tick.wtime = s.wtime + 1 := by
  have wtime : s.mgtSend.wtime = s.wtime := congrArg Prod.fst s.mgtSend_clock
  have fab : s.mgtSend.fab = s.fab := congrArg Prod.snd s.mgtSend_clock
  have tick : s.tick.wtime = s.mgtSend.wtimeTick.wtime := congrArg Prod.fst (State.tick_clock runs)
  rw [tick, State.wtimeTick, fab, if_pos steady, wtime]

theorem State.tick_slow (ahead : s.fab.slow ≠ 0) (first : s.fab.slowPhase = false) :
    s.tick.wtime = s.wtime ∧ s.tick.fab.slow = s.fab.slow - 1 := by
  have wtime : s.mgtSend.wtime = s.wtime := congrArg Prod.fst s.mgtSend_clock
  have fab : s.mgtSend.fab = s.fab := congrArg Prod.snd s.mgtSend_clock
  have tick : s.tick.wtime = s.mgtSend.wtimeTick.wtime := congrArg Prod.fst (State.tick_clock runs)
  have member : s.tick.fab = s.mgtSend.wtimeTick.fab := congrArg Prod.snd (State.tick_clock runs)
  rw [tick, member, State.wtimeTick, fab, if_neg ahead, if_neg (by simp [first])]
  exact ⟨wtime, rfl⟩

end Tick

section Release
variable (s : State)

/-- The state at the release of TMCLK before its timers advance: `n` counts of 1/256 TMCLK have been missed. -/
def State.released (n : Nat) : State :=
  { s with wtime := s.wtime + BitVec.ofNat 64 (n / 256),
           tim := { s.tim with resid := BitVec.ofNat 8 (n % 256), makeups := s.tim.makeups + 1 } }

/-- The running timers count the missed TMCLKs. -/
def State.caughtUp (add : W64) : State :=
  if s.frozen then s
  else s.each (List.range 8) (fun s n => if (s.tmr n).run then s.modTmr n (fun x => { x with count := x.count + add }) else s)

theorem State.makeup_eq (e : Nat) : s.makeup e =
    ((((s.released (e * 15625 + s.tim.resid.toNat)).caughtUp (BitVec.ofNat 64 ((e * 15625 + s.tim.resid.toNat) / 256))).each
      (List.range 8) State.tryMatch).deferredStart) := by
  delta State.makeup State.released State.caughtUp
  rfl

theorem State.caughtUp_onlyTimers (add : W64) : OnlyTimers s (s.caughtUp add) := by
  unfold State.caughtUp
  split
  · exact .refl s
  · refine OnlyTimers.each (fun v n => ?_) _ s
    split <;> rfl

theorem State.makeup_onlyTimers (e : Nat) : OnlyTimers (s.released (e * 15625 + s.tim.resid.toNat)) (s.makeup e) := by
  rw [State.makeup_eq]
  exact (State.caughtUp_onlyTimers _ _).trans
    ((OnlyTimers.each State.tryMatch_onlyTimers _ _).trans (State.deferredStart_onlyTimers _))

theorem State.released_fields (n : Nat) : (s.released n).wtime = s.wtime + BitVec.ofNat 64 (n / 256) ∧
    (s.released n).tim.resid = BitVec.ofNat 8 (n % 256) ∧ (s.released n).tim.makeups = s.tim.makeups + 1 := ⟨rfl, rfl, rfl⟩

end Release

theorem ofNat_mod_256 (n : Nat) : BitVec.ofNat 8 (n % 256) = BitVec.ofNat 8 n := by
  apply BitVec.eq_of_toNat_eq
  simp

/-- Settles O30: the arithmetic of a match, each command's rule for each timer, and the ticks. -/
theorem timers : Obligations.Timers := by
  unfold Obligations.Timers
  refine ⟨fun x r repeats passed fits => ?_, fun s runs => ⟨fun m => ?_, fun m => ?_, fun reached thawed => ?_,
    fun n v within single => ?_,
    fun n v within twice => ?_, fun n within due => ?_, fun halts => ?_, fun halted => ?_⟩,
    fun s runs steady => State.tick_steady runs steady, fun s runs ahead first => State.tick_slow runs ahead first, fun s e => ?_⟩
  · obtain ⟨beyond, least⟩ := Tmr.steps_passes repeats passed
    have cmp := Tmr.matched_cmp repeats fits
    refine ⟨cmp, cmp ▸ beyond, cmp ▸ least, ?_⟩
    rw [Tmr.matched_repeating repeats]
    exact ⟨rfl, rfl, rfl, rfl⟩
  · exact ⟨_, congrArg Host.Outcome.next (if_pos runs), fun n within => s.gstart_tmr m false within⟩
  · exact ⟨_, congrArg Host.Outcome.next (if_pos runs), fun n within => s.gstart_tmr m true within⟩
  · exact ⟨_, congrArg Host.Outcome.next (if_pos runs), fun n within => State.deferredStart_tmr reached thawed within⟩
  · refine ⟨_, congrArg Host.Outcome.next ((if_pos ⟨runs, within⟩).trans (if_neg (by simp [single]))), ?_, fun m other => ?_⟩
    · exact (State.modTmr_tmr ..).trans (if_pos rfl)
    · exact (State.modTmr_tmr ..).trans (if_neg other)
  · exact congrArg Host.Outcome.next ((if_pos ⟨runs, within⟩).trans (if_pos twice))
  · exact ⟨_, congrArg Host.Outcome.next (if_pos ⟨runs, within⟩), State.tryMatch_due due⟩
  · exact ⟨_, congrArg Host.Outcome.next (if_pos ⟨runs, halts⟩), State.wdgHold_tim _⟩
  · exact ⟨_, congrArg Host.Outcome.next (if_pos halted), State.wdgResume_tim runs rfl⟩
  · have only := s.makeup_onlyTimers e
    obtain ⟨wtime, resid, makeups⟩ := s.released_fields (e * 15625 + s.tim.resid.toNat)
    exact ⟨only.wtime.trans wtime, (only.resid.trans resid).trans (ofNat_mod_256 _), only.makeups.trans makeups⟩

end Sys2Proof.Machine
end

section
/-!
Link messages, codewords and training (16 R517 to R532).
-/

namespace Sys2Proof.Machine

/-! ### Credits (16 R525) -/

theorem Port.modCred_cred (x : Port) {v n : Nat} (named : v < 4) (asked : n < 4) (f : Nat → Nat) :
    (x.modCred v f).cred n = if n = v then f (x.cred n) else x.cred n := by
  interval_cases v <;> interval_cases n <;> rfl

theorem Port.modCred_kept (x : Port) (v : Nat) (f : Nat → Nat) :
    (x.modCred v f).retry = x.retry ∧ (x.modCred v f).queues = x.queues := by
  unfold Port.modCred
  split <;> exact ⟨rfl, rfl⟩

/-- The credits of one VC that an LCTL flit returns. -/
def Port.returned (flit : Bytes) (x : Port) (v : Nat) : Port :=
  x.modCred v (fun c => min (vcBuffer v) (c + fld flit (2 + 2 * v) 2))

theorem Port.returned_kept (flit : Bytes) (vs : List Nat) (x : Port) :
    (vs.foldl (Port.returned flit) x).retry = x.retry ∧ (vs.foldl (Port.returned flit) x).queues = x.queues := by
  induction vs generalizing x with
  | nil => exact ⟨rfl, rfl⟩
  | cons v vs ih =>
    obtain ⟨retry, queues⟩ := ih (x.returned flit v)
    obtain ⟨retry', queues'⟩ := x.modCred_kept v (fun c => min (vcBuffer v) (c + fld flit (2 + 2 * v) 2))
    exact ⟨retry.trans retry', queues.trans queues'⟩

theorem Port.returned_cred (flit : Bytes) (x : Port) {n : Nat} (asked : n < 4) :
    ((List.range 4).foldl (Port.returned flit) x).cred n = min (vcBuffer n) (x.cred n + fld flit (2 + 2 * n) 2) := by
  have all : List.range 4 = [0, 1, 2, 3] := rfl
  simp only [all, List.foldl_cons, List.foldl_nil, Port.returned, Port.modCred_cred _ (by omega : 0 < 4) asked,
    Port.modCred_cred _ (by omega : 1 < 4) asked, Port.modCred_cred _ (by omega : 2 < 4) asked,
    Port.modCred_cred _ (by omega : 3 < 4) asked]
  interval_cases n <;> rfl

/-- Changes of one port, one after the other, are one change of it. -/
theorem State.foldl_modPort (g : Port → Nat → Port) (vs : List Nat) (s : State) (p q : Nat) :
    (vs.foldl (fun s v => s.modPort p (fun y => g y v)) s).port q = if q = p then vs.foldl g (s.port p) else s.port q := by
  induction vs generalizing s with
  | nil =>
    split
    next same => rw [same]; rfl
    next => rfl
  | cons v vs ih =>
    refine (ih (s.modPort p (fun y => g y v))).trans ?_
    rw [State.modPort_port, State.modPort_port, if_pos rfl]
    by_cases same : q = p
    · rw [if_pos same, if_pos same, List.foldl_cons]
    · rw [if_neg same, if_neg same, if_neg same]

/-! ### Messages -/

section Messages
variable {s : State} {p : Nat} {m : Bytes} (up : s.portUp p = true)
include up

theorem exec_lctl_credits (lctl : fld m 0 1 = 1) : exec (.lctl p m) s =
    .next (((List.range 4).foldl (fun s v => s.modPort p (fun y => y.returned m v)) s).pumpAll p) :=
  congrArg Host.Outcome.next (if_pos ⟨up, lctl⟩)

theorem exec_linkMsg_refused (here : mDst m = s.fab.wid) (bad : msgOk m = false) (no_idle : mType m ≠ 0) (no_lctl : mType m ≠ 1) :
    exec (.linkMsg p m) s = .next ((s.creditBack p m).fault 0x0305 (mkLoc 4 p none false 0)) :=
  congrArg Host.Outcome.next (if_pos ⟨up, here, by simp [bad], no_idle, no_lctl⟩)

variable (away : mDst m ≠ s.fab.wid) (whole : m.length = 32 * mFlits m)
include away whole

theorem exec_transitMessage_hops (spent : fld m 3 1 = 0) : exec (.transitMessage p m) s = .next
    { s.creditBack p m with fab := { (s.creditBack p m).fab with dropHops := satAdd (s.creditBack p m).fab.dropHops 1 } } :=
  congrArg Host.Outcome.next ((if_pos ⟨up, away, whole⟩).trans (if_pos spent))

variable (hops : fld m 3 1 ≠ 0)
include hops

theorem exec_transitMessage_noroute (lost : s.routePort m = none) : exec (.transitMessage p m) s = .next
    { s.creditBack p m with
      fab := { (s.creditBack p m).fab with dropNoroute := satAdd (s.creditBack p m).fab.dropNoroute 1 } } := by
  refine congrArg Host.Outcome.next ((if_pos ⟨up, away, whole⟩).trans ((if_neg hops).trans ?_))
  rw [lost]

theorem exec_transitMessage_forward {q : Nat} (route : s.routePort m = some q) (live : (s.port q).st = .l0)
    (first : mget [] (s.port q).queues (mVc m) = []) (credits : mFlits m ≤ (s.port q).cred (mVc m))
    (room : (s.port q).retry.length + (msgWords m).length ≤ 128) : exec (.transitMessage p m) s =
      .next ((s.enqueue q (patchB m 3 (toLe 1 (fld m 3 1 - 1)))).creditBack p m) := by
  refine congrArg Host.Outcome.next ((if_pos ⟨up, away, whole⟩).trans ((if_neg hops).trans ?_))
  rw [route]
  exact if_pos ⟨live, by rw [first]; rfl, credits, room⟩

end Messages

/-! ### Codewords (16 R519 to R521) -/

/-- A port with nothing to send sends nothing. -/
theorem State.pumpAll_idle {s : State} {p : Nat} (owes : (s.port p).owed = []) (empty : (s.port p).queues = []) :
    s.pumpAll p = s := by
  have none_next : (s.port p).nextVc = none := by simp [Port.nextVc, empty, mget]
  rw [State.pumpAll, State.pump]
  simp only [owes, List.isEmpty_nil, Bool.not_true, Bool.false_eq_true, false_and, if_false, none_next, ite_self]

/-- A codeword without symbol errors changes at most when the present second began. -/
theorem Port.addErrs_clean {x : Port} (clean : x.laneErr = []) (now : W64) : ∃ t, x.addErrs now [] = { x with errT := t } := by
  have counts_none : ∀ (ls : List Nat) (y : Port), y.laneErr = [] →
      ls.foldl (fun q l => { q with laneErr := mset 0 q.laneErr l (mget 0 q.laneErr l + ([] : List Nat).getD l 0) }) y = y := by
    intro ls y none_counted
    have step : ∀ l, ({ y with laneErr := mset 0 y.laneErr l (mget 0 y.laneErr l + ([] : List Nat).getD l 0) } : Port) = y := by
      intro l
      have unchanged : mset 0 y.laneErr l (mget 0 y.laneErr l + ([] : List Nat).getD l 0) = y.laneErr := by
        rw [none_counted]
        rfl
      rw [unchanged]
    induction ls with
    | nil => rfl
    | cons l ls ih => rw [List.foldl_cons, step, ih]
  unfold Port.addErrs
  dsimp only
  split
  · exact ⟨now, (counts_none _ _ rfl).trans (by rw [← clean])⟩
  · exact ⟨x.errT, counts_none _ _ clean⟩

/-- The sequenced codeword expected next is taken; another one is NAKed (16 R521). -/
def Port.sequenced (x : Port) (seq : Nat) : Port :=
  if seq = x.rxNext.toNat then { x with rxNext := x.rxNext + 1, nakSent := false } else { x with nakSent := true }

/-- The port after a good codeword's symbol errors and ACK. -/
def Port.acknowledged (x : Port) (now : W64) (errs : List Nat) (h : Nat) : Port :=
  Port.acked { x.addErrs now errs with corrSym := satAdd x.corrSym errs.sum } (BitVec.ofNat 8 (bits h 8 8))

/-- The end of a good codeword: what can be sent is sent, and lanes with too many errors are fenced. -/
def State.codewordEnd (s : State) (p : Nat) : State :=
  let s := s.pumpAll p
  let noisy := (List.range 8).filter (fun l => decide (10000 < mget 0 (s.port p).laneErr l) && !((s.port p).fenced.getLsbD l))
  if noisy.isEmpty then s else (s.each noisy (fun s l => s.fenceLane p l 3)).afterFence p

theorem State.codewordEnd_idle {s : State} {p : Nat} (owes : (s.port p).owed = []) (empty : (s.port p).queues = [])
    (clean : (s.port p).laneErr = []) : s.codewordEnd p = s := by
  simp [State.codewordEnd, State.pumpAll_idle owes empty, clean, mget]

theorem Port.acked_kept (x : Port) (ack : BitVec 8) : (x.acked ack).owed = x.owed ∧ (x.acked ack).queues = x.queues ∧
    (x.acked ack).laneErr = x.laneErr ∧ (x.acked ack).rxNext = x.rxNext ∧ (x.acked ack).st = x.st := by
  unfold Port.acked
  dsimp only
  split <;> exact ⟨rfl, rfl, rfl, rfl, rfl⟩

theorem Port.acked_retry_congr {x y : Port} (retry : x.retry = y.retry) (seq : x.txSeq = y.txSeq) (ack : BitVec 8) :
    (x.acked ack).retry = (y.acked ack).retry := by
  unfold Port.acked
  rw [retry, seq]
  dsimp only
  split
  · rfl
  · exact retry

theorem Port.sequenced_kept (x : Port) (seq : Nat) : (x.sequenced seq).owed = x.owed ∧ (x.sequenced seq).queues = x.queues ∧
    (x.sequenced seq).laneErr = x.laneErr ∧ (x.sequenced seq).retry = x.retry ∧ (x.sequenced seq).st = x.st := by
  unfold Port.sequenced
  split <;> exact ⟨rfl, rfl, rfl, rfl, rfl⟩

theorem State.sequencing_port (s : State) (p seq : Nat) :
    (if seq = (s.port p).rxNext.toNat then s.modPort p (fun y => { y with rxNext := y.rxNext + 1, nakSent := false })
     else s.modPort p (fun y => { y with nakSent := true })).port p = (s.port p).sequenced seq := by
  unfold Port.sequenced
  split <;> exact (State.modPort_port ..).trans (if_pos rfl)

section Good
variable {s : State} {p : Nat} {h : BitVec 20} (up : s.portUp p = true)
include up

theorem exec_codewordReceive_bad (l : List Nat) : exec (.codewordReceive p h l true) s =
    .next (s.modPort p (fun y => { y with uncorrCw := satAdd y.uncorrCw 1, nakSent := true })) :=
  congrArg Host.Outcome.next ((if_pos up).trans (if_pos rfl))

variable (sequenced : h.getLsbD 17 = false) (no_nak : h.getLsbD 16 = false)
include sequenced no_nak

/-- A good sequenced codeword without NAK: symbol errors, ACK and SEQ, and then the codeword's end. -/
theorem exec_codewordReceive_good (errs : List Nat) : ∃ t : State,
    exec (.codewordReceive p h errs false) s = .next (t.codewordEnd p) ∧
    t.port p = ((s.port p).acknowledged s.wtime errs h.toNat).sequenced (bits h.toNat 0 8) := by
  have plain : tbit h.toNat 17 = false := sequenced
  have quiet : tbit h.toNat 16 = false := no_nak
  refine ⟨_, congrArg Host.Outcome.next ((if_pos up).trans ((if_neg Bool.false_ne_true).trans rfl)), ?_⟩
  dsimp only
  rw [plain, quiet, if_neg Bool.false_ne_true, if_neg Bool.false_ne_true]
  refine (State.sequencing_port _ p _).trans ?_
  rw [State.modPort_port, if_pos rfl, State.modPort_port, if_pos rfl]
  rfl

variable (owes : (s.port p).owed = []) (empty : (s.port p).queues = []) (clean : (s.port p).laneErr = [])
include owes empty clean

/-- A clean codeword at a port that owes and holds nothing (16 R521). -/
theorem exec_codewordReceive_clean : ∃ u : State, exec (.codewordReceive p h [] false) s = .next u ∧ (u.port p).st = .l0 ∧
    (h.toNat % 256 = (s.port p).rxNext.toNat → (u.port p).rxNext = (s.port p).rxNext + 1 ∧ (u.port p).nakSent = false) ∧
    (h.toNat % 256 ≠ (s.port p).rxNext.toNat → (u.port p).rxNext = (s.port p).rxNext ∧ (u.port p).nakSent = true) ∧
    (u.port p).retry = ((s.port p).acked (BitVec.ofNat 8 (h.toNat / 256))).retry := by
  obtain ⟨u, runs, taken⟩ := exec_codewordReceive_good up sequenced no_nak []
  obtain ⟨t, counted⟩ := Port.addErrs_clean clean s.wtime
  have ack : BitVec.ofNat 8 (bits h.toNat 8 8) = BitVec.ofNat 8 (h.toNat / 256) := ofNat_mod_256 (h.toNat / 256)
  have seq : bits h.toNat 0 8 = h.toNat % 256 := by simp [bits]
  rw [Port.acknowledged, counted, ack, seq] at taken
  generalize corrected :
    ({ ({ s.port p with errT := t } : Port) with corrSym := satAdd (s.port p).corrSym ([] : List Nat).sum } : Port) = x at taken
  obtain ⟨owed, queues, lanes, next, st⟩ := x.acked_kept (BitVec.ofNat 8 (h.toNat / 256))
  have retry := Port.acked_retry_congr (x := x) (y := s.port p) (by rw [← corrected]) (by rw [← corrected])
    (BitVec.ofNat 8 (h.toNat / 256))
  obtain ⟨owed', queues', lanes', retry', st'⟩ := (x.acked (BitVec.ofNat 8 (h.toNat / 256))).sequenced_kept (h.toNat % 256)
  have ready : (s.hub = true ∧ p < 24) ∧ (s.port p).st = .l0 := by simpa [State.portUp] using up
  have idle : u.codewordEnd p = u := by
    refine State.codewordEnd_idle ?_ ?_ ?_
    · rw [taken, owed', owed, ← corrected, owes]
    · rw [taken, queues', queues, ← corrected, empty]
    · rw [taken, lanes', lanes, ← corrected, clean]
  rw [idle] at runs
  refine ⟨u, runs, ?_, fun expected => ?_, fun other => ?_, ?_⟩
  · rw [taken, st', st, ← corrected, ready.2]
  · have here : h.toNat % 256 = (x.acked (BitVec.ofNat 8 (h.toNat / 256))).rxNext.toNat := by rw [next, ← corrected, expected]
    rw [taken, Port.sequenced, if_pos here]
    exact ⟨by rw [next, ← corrected], rfl⟩
  · have apart : h.toNat % 256 ≠ (x.acked (BitVec.ofNat 8 (h.toNat / 256))).rxNext.toNat := by
      rw [next, ← corrected]
      exact other
    rw [taken, Port.sequenced, if_neg apart]
    exact ⟨by rw [next, ← corrected], rfl⟩
  · rw [taken, retry', retry]

end Good

/-! ### Lanes and training (16 R517, R518, R520, R522) -/

section Training
variable {s : State} {p : Nat} (runs : s.hub = true) (named : p < 24)
include runs named

theorem exec_laneLockLost_locked {n : Nat} (lane : n < 8) (live : (s.port p).st = .l0)
    (locked : (s.port p).lanes.getLsbD n = true) :
    exec (.laneLockLost p n) s = .next ((s.fenceLane p n 1).afterFence p) :=
  congrArg Host.Outcome.next (if_pos ⟨runs, named, lane, live, locked⟩)

theorem exec_portDown_live (live : (s.port p).st = .l0) : exec (.portDown p) s = .next (s.modPort p Port.goDown) :=
  congrArg Host.Outcome.next (if_pos ⟨runs, named, .inl live⟩)

variable (may : s.mayTrain p = true) (trains : (s.port p).st = .training)
include may trains

/-- When every unfenced lane has locked, training fences none. -/
theorem exec_linkTrain_locked (wide : 4 ≤ (s.port p).unfenced) (id n f delay : Nat) :
    exec (.linkTrain p (~~~(s.port p).fenced) id n f delay) s = .next (
      if id = s.fab.wid ∨ f ≠ 0xD060 then
        (s.modPort p (fun y => { y.goDown with st := .idle, idStop := true, peerValid := false })).fault 0x0304
          (mkLoc 4 p none false 0)
      else (s.modPort p (fun y => y.toL0 (~~~y.fenced) (id % 256) (n % 32) delay)).pumpAll p) := by
  have none_lost : (List.range 8).filter
      (fun l => !((s.port p).fenced.getLsbD l) && !((~~~(s.port p).fenced).getLsbD l)) = [] := by
    refine List.filter_eq_nil_iff.2 fun l lane => ?_
    rw [List.mem_range] at lane
    simp [lane]
  change execLinkTrain p _ id n f delay s = _
  rw [execLinkTrain, if_pos ⟨runs, named, may, .inl trains⟩, none_lost]
  exact congrArg Host.Outcome.next (if_neg (Nat.not_lt.2 wide))

theorem exec_linkTrainRetry_trains : exec (.linkTrainRetry p) s = .next (
    if (s.port p).keep ∧ 4 ≤ (s.port p).trainFails + 1 then s.modPort p Port.goDown
    else s.modPort p (fun y => { y with st := .training, trainFails := y.trainFails + 1 })) :=
  congrArg Host.Outcome.next (if_pos ⟨runs, named, may, .inl trains⟩)

end Training

theorem State.modPort_same (s : State) (p : Nat) (g : Port → Port) : (s.modPort p g).port p = g (s.port p) :=
  (State.modPort_port ..).trans (if_pos rfl)

theorem State.modPort_other (s : State) {p q : Nat} (other : q ≠ p) (g : Port → Port) : (s.modPort p g).port q = s.port q :=
  (State.modPort_port ..).trans (if_neg other)

/-- Settles O36: messages, codewords, and then lanes and training. -/
theorem links : Obligations.Links := by
  unfold Obligations.Links
  refine ⟨fun s p m up => ⟨?lctl, exec_linkMsg_refused up, ?transit⟩, fun s p h l up => ⟨?bad, ?good⟩, fun s p runs named =>
    ⟨fun n lane live locked => exec_laneLockLost_locked runs named lane live locked, ?down, ?train⟩⟩
  case lctl =>
    intro lctl
    refine ⟨_, exec_lctl_credits up lctl, ?_⟩
    have ports := State.foldl_modPort (Port.returned m) (List.range 4) s p
    obtain ⟨retry, queues⟩ := Port.returned_kept m (List.range 4) (s.port p)
    rw [ports p, if_pos rfl]
    exact ⟨fun n asked => Port.returned_cred m _ asked, retry, queues, fun q other => (ports q).trans (if_neg other)⟩
  case transit =>
    exact fun away whole => ⟨exec_transitMessage_hops up away whole, exec_transitMessage_noroute up away whole,
      fun q hops route live first credits room => exec_transitMessage_forward up away whole hops route live first credits room⟩
  case bad =>
    refine ⟨_, exec_codewordReceive_bad up l, ?_⟩
    rw [State.modPort_same]
    exact ⟨rfl, rfl, rfl, rfl, fun q other => State.modPort_other s other _⟩
  case good =>
    rintro owes empty clean rfl no_nak sequenced
    exact exec_codewordReceive_clean up sequenced no_nak owes empty clean
  case down =>
    intro live
    refine ⟨_, exec_portDown_live runs named live, ?_⟩
    rw [State.modPort_same]
    exact ⟨rfl, rfl, rfl, fun q other => State.modPort_other s other _⟩
  case train =>
    intro may trains
    refine ⟨?_, ?_, fun fresh => ?_, fun keeps fails => ?_⟩
    · rintro l id n delay rfl wide other id_lt n_lt
      rw [exec_linkTrain_locked runs named may trains wide, if_neg (by simp [other]), Nat.mod_eq_of_lt id_lt,
        Nat.mod_eq_of_lt n_lt]
    · rintro l id n f delay rfl wide wrong
      rw [exec_linkTrain_locked runs named may trains wide, if_pos wrong]
    · refine ⟨_, exec_linkTrainRetry_trains runs named may trains, ?_⟩
      rw [if_neg (by simp [fresh]), State.modPort_same]
      exact ⟨rfl, rfl, fun q other => State.modPort_other s other _⟩
    · refine ⟨_, exec_linkTrainRetry_trains runs named may trains, ?_⟩
      rw [if_pos ⟨keeps, by omega⟩, State.modPort_same]

end Sys2Proof.Machine
end

section
/-!
What ending tasks and updates leaves as it is: Warren time, power and bring-up, the host's link, each den's state; and the requests
that are left (13 R394, 17 R565, R570).
-/

namespace Sys2Proof.Machine

/-- What no post of the device changes. -/
def State.posture (s : State) : W64 × Power × Boot × Bool × (Nat → DenSt) :=
  (s.wtime, s.pwr, s.boot, s.pcie.linkUp, fun d => (s.den d).st)

/-- The requests, and `State.posture`. -/
def State.bearing (s : State) : List Req × W64 × Power × Boot × Bool × (Nat → DenSt) := (s.reqs, s.posture)

theorem State.bearing_posture {s t : State} (same : t.bearing = s.bearing) : t.posture = s.posture := congrArg Prod.snd same

theorem State.bearing_reqs {s t : State} (same : t.bearing = s.bearing) : t.reqs = s.reqs := congrArg Prod.fst same

theorem State.posture_fields {s t : State} (same : t.posture = s.posture) : t.wtime = s.wtime ∧ t.pwr = s.pwr ∧ t.boot = s.boot ∧
    t.pcie.linkUp = s.pcie.linkUp ∧ ∀ d, (t.den d).st = (s.den d).st := by
  simp only [State.posture, Prod.mk.injEq] at same
  obtain ⟨wtime, pwr, boot, linkUp, dens⟩ := same
  exact ⟨wtime, pwr, boot, linkUp, fun d => congrFun dens d⟩

theorem bearing_of_eq {s t : State} (reqs : t.reqs = s.reqs) (wtime : t.wtime = s.wtime) (pwr : t.pwr = s.pwr)
    (boot : t.boot = s.boot) (linkUp : t.pcie.linkUp = s.pcie.linkUp) (dens : ∀ d, (t.den d).st = (s.den d).st) : t.bearing = s.bearing := by
  simp only [State.bearing, State.posture, reqs, wtime, pwr, boot, linkUp, dens]

@[simp] theorem bearing_ite {c : Prop} [Decidable c] (s t : State) :
    (if c then s else t).bearing = if c then s.bearing else t.bearing := apply_ite ..

@[simp] theorem bearing_snd_ite {α : Type} {c : Prop} [Decidable c] (x y : α × State) :
    (if c then x else y).2.bearing = if c then x.2.bearing else y.2.bearing := apply_ite (fun p : α × State => p.2.bearing) ..

@[simp] theorem foldl_bearing {α : Type} {f : State → α → State} (keeps : ∀ u x, (f u x).bearing = u.bearing)
    (l : List α) (s : State) : (l.foldl f s).bearing = s.bearing := foldl_observes_same State.bearing f (fun u x _ => keeps u x) s

@[simp] theorem each_bearing {f : State → Nat → State} (keeps : ∀ u n, (f u n).bearing = u.bearing) (l : List Nat) (s : State) :
    (s.each l f).bearing = s.bearing := foldl_bearing keeps l s

section Bearing
variable (s : State)

/-! ### Posts -/

@[simp] theorem State.modFn_bearing (f : Nat) (g : Fn → Fn) : (s.modFn f g).bearing = s.bearing := rfl
@[simp] theorem State.modRing_bearing (k : Nat) (g : Ring → Ring) : (s.modRing k g).bearing = s.bearing := rfl
@[simp] theorem State.modTile_bearing (t : Nat) (g : Tile → Tile) : (s.modTile t g).bearing = s.bearing := rfl
@[simp] theorem State.modTable_bearing (t : Nat) (g : Table → Table) : (s.modTable t g).bearing = s.bearing := rfl
@[simp] theorem State.modPort_bearing (p : Nat) (g : Port → Port) : (s.modPort p g).bearing = s.bearing := rfl
@[simp] theorem State.modStack_bearing (n : Nat) (g : HbmStack → HbmStack) : (s.modStack n g).bearing = s.bearing := rfl
@[simp] theorem State.emit_bearing (o : Out) : (s.emit o).bearing = s.bearing := rfl
@[simp] theorem State.free_bearing (w : Nat) : (s.free w).2.bearing = s.bearing := rfl
@[simp] theorem State.setUpd_bearing (d r : Nat) (u : Option UpdCur) : (s.setUpd d r u).bearing = s.bearing := rfl
@[simp] theorem State.dropLookups_bearing (id : Nat) : (s.dropLookups id).bearing = s.bearing := rfl
@[simp] theorem State.cancelReads_bearing (p : Issuer → Bool) : (s.cancelReads p).bearing = s.bearing := rfl

theorem State.modDen_bearing (d : Nat) {g : Den → Den} (keeps : ∀ x, (g x).st = x.st) : (s.modDen d g).bearing = s.bearing := by
  refine bearing_of_eq rfl rfl rfl rfl rfl fun e => ?_
  rw [State.modDen_den]
  split
  next same => rw [same, keeps]
  next => rfl

@[simp] theorem State.count_bearing (d c n : Nat) : (s.count d c n).bearing = s.bearing := s.modDen_bearing d fun _ => rfl
@[simp] theorem State.sendVec_bearing (f v : Nat) : (s.sendVec f v).bearing = s.bearing := by simp [State.sendVec]

@[simp] theorem State.writeEntry_bearing (k : Nat) (bytes : Bytes) (vec : Option Nat) :
    (s.writeEntry k bytes vec).bearing = s.bearing := by
  simp only [State.writeEntry]
  split <;> simp

@[simp] theorem State.pushEntry_bearing (k : Nat) (bytes : Bytes) (vec : Option Nat) :
    (s.pushEntry k bytes vec).bearing = s.bearing := by simp [State.pushEntry]

@[simp] theorem State.postEvent_bearing (f ty den : Nat) (payload : Bytes) :
    (s.postEvent f ty den payload).2.bearing = s.bearing := by simp [State.postEvent]

@[simp] theorem State.versionFreed_bearing (t v : Nat) (quiet : Bool) : (s.versionFreed t v quiet).bearing = s.bearing := by
  simp [State.versionFreed]

@[simp] theorem State.dropRef_bearing (t v : Nat) (quiet : Bool) : (s.dropRef t v quiet).bearing = s.bearing := by
  simp [State.dropRef, State.modVersion]

@[simp] theorem State.dropRefs_bearing (pairs : List (Nat × Nat)) (quiet : Bool) :
    (s.dropRefs pairs quiet).bearing = s.bearing := by
  simp [State.dropRefs]

@[simp] theorem State.complete_bearing (d ring tag status tiles trunc : Nat) (irq : Bool) (tAdmit : W64) :
    (s.complete d ring tag status tiles trunc irq tAdmit).bearing = s.bearing := by simp [State.complete]

@[simp] theorem State.runTime_bearing (d n : Nat) : (s.runTime d n).bearing = s.bearing := by simp [State.runTime]

@[simp] theorem State.leaveIfMarked_bearing (t d : Nat) : (s.leaveIfMarked t d).bearing = s.bearing := by
  simp only [State.leaveIfMarked, bearing_ite, State.modTile_bearing, ite_eq_right_iff]
  exact fun _ => s.modDen_bearing d fun _ => rfl

@[simp] theorem State.freeTiles_bearing (r : Req) : (s.freeTiles r).bearing = s.bearing := by simp [State.freeTiles]

@[simp] theorem State.discardStaged_bearing (d : Nat) : (s.discardStaged d).bearing = s.bearing := by
  simp only [State.discardStaged, State.setUpd_bearing]
  rfl

@[simp] theorem State.dropUpdates_bearing (d : Nat) (quiet : Bool) : (s.dropUpdates d quiet).bearing = s.bearing := by
  simp only [State.dropUpdates, State.dropRefs_bearing, State.discardStaged_bearing]
  exact each_bearing (fun u r => u.modRing_bearing _ _) _ s

/-! ### The end of requests -/

theorem map_modFirst {α β : Type} {p : α → Bool} {f : α → α} {see : α → β} (same : ∀ x, see (f x) = see x) (l : List α) :
    (modFirst p f l).map see = l.map see := by
  induction l with
  | nil => rfl
  | cons x l ih =>
    rw [modFirst]
    split
    · rw [List.map_cons, List.map_cons, same]
    · rw [List.map_cons, List.map_cons, ih]

/-- The numbers of the requests. -/
def State.ids (s : State) : List Nat := s.reqs.map Req.id

theorem State.req_none_iff (id : Nat) : s.req id = none ↔ id ∉ s.ids := by
  simp [State.req, State.ids, List.find?_eq_none]

theorem State.modReq_ids (id : Nat) {g : Req → Req} (same : ∀ x, (g x).id = x.id) : (s.modReq id g).ids = s.ids :=
  map_modFirst same s.reqs

/-- An abort changes the posture of nothing, and the number of no request. -/
theorem State.startAbort_keeps_ids (id status : Nat) (silent : Bool) :
    (s.startAbort id status silent).posture = s.posture ∧ (s.startAbort id status silent).ids = s.ids := by
  cases found : s.req id with
  | none => simp only [State.startAbort, found, and_self]
  | some r =>
    by_cases aborting : r.phase = .aborting
    · simp only [State.startAbort, found, aborting, if_true]
      split
      · exact ⟨rfl, s.modReq_ids id fun _ => rfl⟩
      · exact ⟨rfl, rfl⟩
    · rw [State.startAbort_eq found aborting]
      have bears (u : State) : (((u.cancelReads (fun i => i.isOf id (s.tilesOf r))).each r.tiles
          (fun s t => s.modTile t (fun x => x.abortedFor id))).dropLookups id).bearing = u.bearing :=
        (State.dropLookups_bearing _ id).trans
          ((each_bearing (fun v t => v.modTile_bearing t _) _ _).trans (u.cancelReads_bearing _))
      have aborts := bears (s.modReq id (fun x => x.abortedWith status silent))
      exact ⟨(State.bearing_posture aborts).trans rfl,
        (congrArg (List.map Req.id) (State.bearing_reqs aborts)).trans (s.modReq_ids id fun _ => rfl)⟩

theorem State.endReq_bearing (r : Req) (status : Nat) (quiet : Bool) :
    (s.endReq r status quiet).bearing = (s.reqs.filter (fun x => x.id != r.id), s.posture) := by
  have frees : (((s.runTime r.den (s.tilesOf r).length).freeTiles r).dropLookups r.id).bearing = s.bearing := by simp
  have finished (u : State) (same : u.bearing = s.bearing) :
      State.bearing { u with reqs := u.reqs.filter (fun x => x.id != r.id) } =
      (s.reqs.filter (fun x => x.id != r.id), s.posture) := by
    rw [← State.bearing_reqs same, ← State.bearing_posture same]
    rfl
  simp only [State.endReq, bearing_ite, State.modRing_bearing, State.complete_bearing, ite_self, State.dropRefs_bearing]
  exact finished _ frees

theorem filter_ids (l : List Req) (id : Nat) :
    (l.filter (fun x => x.id != id)).map Req.id = (l.map Req.id).filter (fun n => n != id) := by
  rw [List.filter_map]
  rfl

theorem State.killReq_ids (id : Nat) (quiet : Bool) : (s.killReq id quiet).posture = s.posture ∧
    (s.killReq id quiet).ids = s.ids.filter (fun n => n != id) := by
  obtain ⟨posture, ids⟩ := s.startAbort_keeps_ids id 0x0C true
  unfold State.killReq
  dsimp only
  split
  next r found =>
    have named : r.id = id := by simpa using List.find?_some found
    have ends := (s.startAbort id 0x0C true).endReq_bearing { r with silent := true } 0x0C quiet
    have left : State.ids _ = _ := (congrArg (List.map Req.id ∘ Prod.fst) ends).trans (filter_ids _ _)
    refine ⟨(congrArg Prod.snd ends).trans posture, left.trans ?_⟩
    change List.filter _ (State.ids _) = _
    rw [ids, ← named]
  next missing =>
    refine ⟨posture, ids.trans (List.filter_eq_self.2 fun n inIds => ?_).symm⟩
    have absent := ((s.startAbort id 0x0C true).req_none_iff id).1 missing
    rw [ids] at absent
    simpa using fun same : n = id => absent (same ▸ inIds)

theorem State.killReqs_posture (p : Req → Bool) (quiet : Bool) : (s.killReqs p quiet).posture = s.posture :=
  foldl_observes_same State.posture (fun u id => u.killReq id quiet) (fun u id _ => (u.killReq_ids id quiet).1) s

/-- Of the requests that are killed, none is left. -/
theorem State.foldl_killReq_ids (l : List Nat) (quiet : Bool) :
    (l.foldl (fun u id => u.killReq id quiet) s).ids = s.ids.filter (fun n => !l.contains n) := by
  induction l generalizing s with
  | nil => exact (List.filter_eq_self.2 fun _ _ => rfl).symm
  | cons id l ih =>
    rw [List.foldl_cons, ih, (s.killReq_ids id quiet).2, List.filter_filter]
    refine List.filter_congr fun n _ => ?_
    rw [List.contains_cons, Bool.not_or, Bool.and_comm]
    rfl

theorem State.killReqs_req {p : Req → Bool} (quiet : Bool) {r : Req} (admitted : r ∈ s.reqs) (killed : p r = true) :
    (s.killReqs p quiet).req r.id = none := by
  refine (State.req_none_iff _ _).2 fun left => ?_
  rw [State.killReqs, State.each, State.foldl_killReq_ids, List.mem_filter] at left
  have named : r.id ∈ (s.reqs.filter p).map Req.id := List.mem_map_of_mem (List.mem_filter.2 ⟨admitted, killed⟩)
  simp only [List.contains_iff_mem.2 named, Bool.not_true, Bool.false_eq_true, and_false] at left

end Bearing
end Sys2Proof.Machine
end

section
/-!
Power states (17 R565 to R571), and a bound of what stopping the clocks changes.
-/

namespace Sys2Proof.Machine

section Links
variable (s : State)

@[simp] theorem State.charge_bearing (d : Nat) (p : Path) (bytes : Nat) : (s.charge d p bytes).bearing = s.bearing := by
  refine s.modDen_bearing d fun x => ?_
  cases p <;> rfl

@[simp] theorem State.chargeIfs_bearing (d bytes : Nat) : (s.chargeIfs d bytes).bearing = s.bearing := by simp [State.chargeIfs]

@[simp] theorem State.pump_bearing (fuel p : Nat) : (s.pump fuel p).bearing = s.bearing := by
  induction fuel generalizing s with
  | zero => rfl
  | succ n ih =>
    unfold State.pump
    dsimp only
    (repeat' split) <;> simp [ih]

@[simp] theorem State.enqueue_bearing (p : Nat) (m : Bytes) : (s.enqueue p m).bearing = s.bearing := by
  simp [State.enqueue, State.pumpAll]

@[simp] theorem State.sendOr_bearing (m : Bytes) : (s.sendOr m).bearing = s.bearing := by
  unfold State.sendOr State.send
  cases s.routePort m with
  | none => rfl
  | some p => simp

@[simp] theorem State.mgtAll_bearing (ty : Nat) (fields data : Bytes) : (s.mgtAll ty fields data).bearing = s.bearing := by
  simp [State.mgtAll]

@[simp] theorem State.wdgHold_bearing : s.wdgHold.bearing = s.bearing := by
  unfold State.wdgHold
  exact ite_observed State.bearing rfl rfl

theorem State.sleepPort_bearing (p : Nat) :
    (if (s.port p).st = .l0 then s.modPort p (fun y => { y with st := .sleep }) else s).bearing = s.bearing :=
  ite_observed State.bearing (s.modPort_bearing p _) rfl

/-- The stop of the clocks is noted in AON ticks (17 R566). -/
def State.stopNoted : State := { s with pwr := { s.pwr with stopAon := s.pwr.aon } }

/-- The other steps of the stop: HUSH_NOTE, ports into SLEEP, self-refresh, WDG_CP held. -/
def State.quieted : State :=
  (((s.mgtAll 0x4B [] []).each (List.range 24)
    (fun s p => if (s.port p).st = .l0 then s.modPort p (fun y => { y with st := .sleep }) else s)).each
      ((List.range 8).filter (fun n => !(((s.mgtAll 0x4B [] []).each (List.range 24)
        (fun s p => if (s.port p).st = .l0 then s.modPort p (fun y => { y with st := .sleep }) else s)).stackOut n)))
      (fun s n => s.modStack n (fun y => { y with selfref := true }))).wdgHold

theorem State.stopClocks_eq : s.stopClocks = s.quieted.stopNoted := rfl

theorem State.quieted_bearing : s.quieted.bearing = s.bearing := by
  rw [State.quieted, State.wdgHold_bearing, each_bearing (fun u n => u.modStack_bearing n _),
    each_bearing (fun u p => u.sleepPort_bearing p), State.mgtAll_bearing]

/-- Stopping the clocks leaves the device's power state as it is (17 R566). -/
theorem State.stopClocks_st : s.stopClocks.pwr.st = s.pwr.st := by
  have noted (u : State) : u.stopNoted.pwr.st = u.pwr.st := rfl
  rw [State.stopClocks_eq, noted, (State.posture_fields (State.bearing_posture s.quieted_bearing)).2.1]

theorem State.killReqs_pwr (p : Req → Bool) (quiet : Bool) : (s.killReqs p quiet).pwr = s.pwr :=
  (State.posture_fields (s.killReqs_posture p quiet)).2.1

end Links

/-! ### D3hot, D0 and HUSH -/

section PowerSteps
variable {s : State}

theorem exec_d3hotEntry_active (active : s.pwr.st = .active) (no_grace : s.tim.cpSt ≠ .grace) :
    ∃ u : State, exec .d3hotEntry s = .next { u with pwr := { u.pwr with st := .standby } } :=
  ⟨_, congrArg Host.Outcome.next (if_pos ⟨active, no_grace⟩)⟩

theorem exec_d3hotEntry_hush (hush : s.pwr.st = .hush) : exec .d3hotEntry s = .next
    { s.killReqs (fun _ => true) false with
      pwr := { (s.killReqs (fun _ => true) false).pwr with
        st := .standby, thermHold := (s.killReqs (fun _ => true) false).pwr.thermal, thermal := false, wakePend := none } } := by
  refine congrArg Host.Outcome.next ((if_neg ?_).trans (if_pos hush))
  rintro ⟨active, -⟩
  rw [hush] at active
  cases active

variable (standby : s.pwr.st = .standby) (free : s.pwr.thermHold = false)
include standby free

theorem exec_d0Return_free : exec .d0Return s = .next (
    if s.pwr.svcRun then { s with pwr := { s.pwr with st := .active, svcRun := false } }
    else State.startClocks { s with pwr := { s.pwr with st := .active } }) :=
  congrArg Host.Outcome.next ((if_pos standby).trans (if_neg (by simp [free])))

end PowerSteps

section Hush
variable {s : State} (hush : s.pwr.st = .hush)
include hush

theorem exec_hushAlarm_counts (due : s.pwr.alarm ≠ 0) (no_heat : s.pwr.thermal = false) (no_wake : s.pwr.wakePend = none) :
    exec .hushAlarm s = .next { s with pwr := { s.pwr with
      aon := if s.pwr.aon.toNat < s.pwr.alarm.toNat then s.pwr.alarm.setWidth 64 else s.pwr.aon, wakePend := some 7 } } := by
  refine congrArg Host.Outcome.next ((if_pos ⟨hush, due⟩).trans (if_pos ⟨hush, ?_, no_wake⟩))
  rw [no_heat]
  exact Bool.false_ne_true

theorem State.hushExit_thermal (heat : s.pwr.thermal = true) : s.hushExit = if s.cool then s.hushCool else s :=
  (if_pos hush).trans (if_pos heat)

theorem State.hushExit_wake (no_heat : s.pwr.thermal = false) {c : Nat} (wakes : s.pwr.wakePend = some c) :
    s.hushExit = s.hushLeave c := by
  rw [State.hushExit, if_pos hush, if_neg (by simp [no_heat]), wakes]

end Hush

/-- The tick count after an alarm is at the alarm, or was past it. -/
theorem alarm_reached (aon : W64) (alarm : BitVec 48) :
    alarm.toNat ≤ (if aon.toNat < alarm.toNat then alarm.setWidth 64 else aon).toNat ∧
    aon.toNat ≤ (if aon.toNat < alarm.toNat then alarm.setWidth 64 else aon).toNat := by
  have wide : (alarm.setWidth 64).toNat = alarm.toNat := BitVec.toNat_setWidth_of_le (by decide)
  split
  next ahead => exact ⟨wide.ge, by omega⟩
  next behind => exact ⟨Nat.not_lt.1 behind, le_rfl⟩

theorem exec_standbyClockStop_idle {s : State} (standby : s.pwr.st = .standby) (service : s.pwr.svcRun = true)
    (no_command : s.cp.running = []) (no_usb : s.cp.usbIn = none) (no_uart : s.cp.uartIn = none) (no_grace : s.tim.cpSt ≠ .grace) :
    exec .standbyClockStop s = .next { s.stopClocks with pwr := { s.stopClocks.pwr with svcRun := false } } :=
  congrArg Host.Outcome.next (if_pos ⟨standby, service, no_command, no_usb, no_uart, no_grace⟩)

/-- Settles O28: each change of the power state, and the requests that are killed. -/
theorem powerStates : Obligations.PowerStates := by
  unfold Obligations.PowerStates
  refine ⟨fun s => ⟨fun active no_grace => ?_, fun hush => ?_, fun standby free service => ?_, fun standby free no_service => ?_,
    fun hush due no_heat no_wake => ?_, fun c hush no_heat wakes => ?_, fun hush heat cool => ?_, fun hush heat hot => ?_,
    fun standby service no_command no_usb no_uart no_grace => ?_⟩,
    fun s p quiet _ r admitted killed => s.killReqs_req quiet admitted killed⟩
  · obtain ⟨u, enters⟩ := exec_d3hotEntry_active active no_grace
    exact ⟨_, enters, rfl⟩
  · refine ⟨_, exec_d3hotEntry_hush hush, rfl, ?_, rfl⟩
    exact congrArg Power.thermal (s.killReqs_pwr _ _)
  · exact ⟨_, (exec_d0Return_free standby free).trans (congrArg Host.Outcome.next (if_pos service)), rfl, rfl, rfl, rfl⟩
  · exact (exec_d0Return_free standby free).trans (congrArg Host.Outcome.next (if_neg (by simp [no_service])))
  · exact ⟨_, exec_hushAlarm_counts hush due no_heat no_wake, hush, rfl, alarm_reached s.pwr.aon s.pwr.alarm⟩
  · exact congrArg Host.Outcome.next (State.hushExit_wake hush no_heat wakes)
  · exact congrArg Host.Outcome.next ((State.hushExit_thermal hush heat).trans (if_pos cool))
  · exact congrArg Host.Outcome.next ((State.hushExit_thermal hush heat).trans (if_neg (by simp [hot])))
  · exact ⟨_, exec_standbyClockStop_idle standby service no_command no_usb no_uart no_grace, s.stopClocks_st.trans standby, rfl⟩

end Sys2Proof.Machine
end

section
/-!
RETAIN: its entry by PERST# and by link loss, and its end by timeout (14 R466 to R472, 18 R592, R608).
-/

namespace Sys2Proof.Machine

/-- A mask built bit by bit has the bits that were asked for. -/
theorem foldl_bits (p : Nat → Prop) [DecidablePred p] (n : Nat) :
    (List.range n).foldl (fun v d => if p d then v + 2 ^ d else v) 0 < 2 ^ n ∧
    ∀ d, d < n → ((List.range n).foldl (fun v d => if p d then v + 2 ^ d else v) 0).testBit d = decide (p d) := by
  induction n with
  | zero => exact ⟨Nat.one_pos, fun d inside => absurd inside (Nat.not_lt_zero d)⟩
  | succ n ih =>
    obtain ⟨small, earlier⟩ := ih
    rw [List.range_succ, List.foldl_append, List.foldl_cons, List.foldl_nil]
    generalize (List.range n).foldl (fun v d => if p d then v + 2 ^ d else v) 0 = v at small earlier
    have unset : v.testBit n = false := Nat.testBit_lt_two_pow small
    split
    next set =>
      refine ⟨by rw [Nat.pow_succ]; omega, fun d inside => ?_⟩
      rcases Nat.lt_succ_iff_lt_or_eq.1 inside with below | rfl
      · rw [Nat.add_comm, Nat.testBit_two_pow_add_gt below, earlier d below]
      · rw [Nat.add_comm, Nat.testBit_two_pow_add_eq, unset, decide_eq_true set, Bool.not_false]
    next clear =>
      refine ⟨by rw [Nat.pow_succ]; omega, fun d inside => ?_⟩
      rcases Nat.lt_succ_iff_lt_or_eq.1 inside with below | rfl
      · exact earlier d below
      · rw [unset, decide_eq_false clear]

/-! ### Entry (14 R466, R467) -/

section Entry
variable (s : State)

/-- The device at the entry of RETAIN: no tasks, no updates. -/
def State.tasksEnded : State := (s.killReqs (fun _ => true) true).each (List.range 32) (fun s d => s.dropUpdates d true)

/-- The dens that RETAIN holds. -/
def State.activeMask : Nat := (List.range 32).foldl (fun v d => if (s.den d).st = .active then v + 2 ^ d else v) 0

/-- Functions at their reset values, and tiles in doze. -/
def State.functionsReset : State :=
  (s.each (List.range 33) (fun s f => (s.resetRings f).modFn f (fun x =>
    { x with msix := [], held := [], bme := false, ats := false, evlostSince := 0, flr := false, draining := false,
             shadow := none }))).each (List.range 256)
    (fun s t => s.modTile t (fun x => if x.pwr = .off then x else { x with pwr := .doze }))

/-- RETAIN's own registers, and the flush that it begins. -/
def State.retainSet (cause held : Nat) : State :=
  { s with pcie := { s.pcie with ats := [], xlate := [], waiting := [], parts := [],
                                 reads := s.pcie.reads.map (fun (r : HostRead) => { r with discard := true }),
                                 retSt := 1, retCause := cause, retHeld := BitVec.ofNat 32 held, retT := s.wtime,
                                 retTo := s.boot.prof.retainTimeout, retFlushOk := false },
           hoard := { s.hoard with flushActive := true, flushDone := false },
           pwr := { s.pwr with st := .retain, thermal := false, svcRun := false } }

theorem State.enterRetain_eq {cause : Nat} (outside : s.pwr.st ≠ .retain) :
    s.enterRetain cause = s.tasksEnded.functionsReset.retainSet cause s.tasksEnded.activeMask := by
  delta State.enterRetain State.tasksEnded State.functionsReset State.retainSet State.activeMask
  rw [if_neg outside]

theorem State.tasksEnded_posture : s.tasksEnded.posture = s.posture := by
  have drops : s.tasksEnded.bearing = (s.killReqs (fun _ => true) true).bearing :=
    each_bearing (fun u d => u.dropUpdates_bearing d true) _ _
  exact (State.bearing_posture drops).trans (s.killReqs_posture _ _)

theorem State.resetRings_bearing (f : Nat) : (s.resetRings f).bearing = s.bearing := rfl

theorem State.functionsReset_posture : s.functionsReset.posture = s.posture := by
  have resets : s.functionsReset.bearing = s.bearing :=
    (each_bearing (fun u t => u.modTile_bearing t _) _ _).trans
      (each_bearing (fun u f => (State.modFn_bearing _ f _).trans (u.resetRings_bearing f)) _ s)
  exact State.bearing_posture resets

theorem State.activeMask_bit {d : Nat} (den : d < 32) :
    (BitVec.ofNat 32 s.activeMask).getLsbD d = true ↔ (s.den d).st = .active := by
  rw [BitVec.getLsbD_ofNat, decide_eq_true den, Bool.true_and, State.activeMask, (foldl_bits _ 32).2 d den, decide_eq_true_iff]

theorem State.retainSet_fields (cause held : Nat) : (s.retainSet cause held).pwr.st = .retain ∧
    (s.retainSet cause held).pcie.retSt = 1 ∧ (s.retainSet cause held).pcie.retCause = cause ∧
    (s.retainSet cause held).pcie.retT = s.wtime ∧ (s.retainSet cause held).pcie.ats = [] ∧
    (s.retainSet cause held).hoard.flushActive = true ∧ (s.retainSet cause held).pcie.retHeld = BitVec.ofNat 32 held ∧
    (∀ r ∈ (s.retainSet cause held).pcie.reads, r.discard = true) ∧ (s.retainSet cause held).pcie.linkUp = s.pcie.linkUp := by
  refine ⟨rfl, rfl, rfl, rfl, rfl, rfl, rfl, fun r read => ?_, rfl⟩
  obtain ⟨x, _, rfl⟩ := List.mem_map.1 read
  rfl

variable {s}

/-- The entry of RETAIN from ACTIVE, as far as the host sees it. -/
theorem State.enterRetain_active (active : s.pwr.st = .active) (cause : Nat) :
    (s.enterRetain cause).pwr.st = .retain ∧ (s.enterRetain cause).pcie.retSt = 1 ∧ (s.enterRetain cause).pcie.retCause = cause ∧
    (s.enterRetain cause).pcie.retT = s.wtime ∧ (s.enterRetain cause).pcie.ats = [] ∧
    (s.enterRetain cause).hoard.flushActive = true ∧
    (∀ d, d < 32 → ((s.enterRetain cause).pcie.retHeld.getLsbD d = true ↔ (s.den d).st = .active)) ∧
    (∀ r ∈ (s.enterRetain cause).pcie.reads, r.discard = true) ∧ (s.enterRetain cause).pcie.linkUp = s.pcie.linkUp := by
  obtain ⟨wtime, _, _, linkUp, _⟩ := State.posture_fields (s.tasksEnded.functionsReset_posture.trans s.tasksEnded_posture)
  obtain ⟨_, _, _, _, dens⟩ := State.posture_fields s.tasksEnded_posture
  obtain ⟨st, retSt, retCause, retT, ats, flush, held, reads, linkUp'⟩ :=
    s.tasksEnded.functionsReset.retainSet_fields cause s.tasksEnded.activeMask
  rw [s.enterRetain_eq (by rw [active]; decide)]
  refine ⟨st, retSt, retCause, retT.trans wtime, ats, flush, fun d den => ?_, reads, linkUp'.trans linkUp⟩
  rw [held, s.tasksEnded.activeMask_bit den, dens d]

theorem State.retainBy_active (active : s.pwr.st = .active) (cause : Nat) : s.retainBy cause = s.enterRetain cause := by
  rw [State.retainBy, active]

end Entry

section Causes
variable {s : State}

theorem exec_perstAssert_retains (b : BootIn) (complete : s.boot.phase = .complete) (retains : s.boot.prof.retain = true)
    (active : s.pwr.st = .active) : exec (.perstAssert b) s = .next { s.enterRetain 0 with
      pcie := { (s.enterRetain 0).pcie.edge with perst := true }, boot := { (s.enterRetain 0).boot with phase := .edge } } := by
  refine congrArg Host.Outcome.next ((if_neg (by rw [active]; decide)).trans ((if_pos complete).trans ((if_pos retains).trans ?_)))
  rw [State.retainBy_active active]

theorem exec_perstAssert_restarts (b : BootIn) (complete : s.boot.phase = .complete) (loses : s.boot.prof.retain = false)
    (powered : s.pwr.st ≠ .off) : exec (.perstAssert b) s =
      .next ((State.fullReset { s with pcie := { s.pcie with perst := true } } false).coldBoot b 3) := by
  refine congrArg Host.Outcome.next ((if_neg powered).trans ((if_pos complete).trans ((if_neg ?_).trans rfl)))
  rw [loses]
  exact Bool.false_ne_true

variable (linked : s.pcie.linkUp = true) (complete : s.boot.phase = .complete) (powered : s.pwr.st ≠ .off)
include linked complete powered

theorem exec_linkLoss_up : exec .linkLoss s = .next (
    if s.boot.prof.retain then State.retainBy { s with pcie := { s.pcie with linkUp := false } } 1
    else State.each { s with pcie := { s.pcie with linkUp := false } } (List.range 32) (fun s d => s.flrStart (d + 1))) :=
  congrArg Host.Outcome.next ((if_pos ⟨linked, powered⟩).trans (if_neg (not_not.2 complete)))

end Causes

/-- Settles O49: the entry, its two causes with and without RETAIN in the profile, and the timeout. -/
theorem retainedDevice : Obligations.RetainedDevice := by
  unfold Obligations.RetainedDevice
  refine fun s => ⟨fun cause active => ?_, fun b complete retains active => ?_, fun b complete loses powered =>
    exec_perstAssert_restarts b complete loses powered, fun linked complete => ⟨fun retains active => ?_, fun loses powered => ?_⟩,
    fun runs retained bounded => congrArg Host.Outcome.next (if_pos ⟨runs, retained, bounded⟩)⟩
  · obtain ⟨st, retSt, retCause, retT, ats, flush, held, reads, _⟩ := State.enterRetain_active active cause
    exact ⟨_, rfl, st, retSt, retCause, retT, ats, flush, held, reads⟩
  · obtain ⟨st, _, retCause, _⟩ := State.enterRetain_active active 0
    exact ⟨_, exec_perstAssert_retains b complete retains active, st, rfl, rfl, retCause, rfl, rfl⟩
  · have powered : s.pwr.st ≠ .off := by rw [active]; decide
    have active' : (State.pwr { s with pcie := { s.pcie with linkUp := false } }).st = .active := active
    obtain ⟨st, _, retCause, _, _, _, _, _, linkUp⟩ := State.enterRetain_active active' 1
    refine ⟨_, (exec_linkLoss_up linked complete powered).trans (congrArg Host.Outcome.next (if_pos retains)), ?_⟩
    rw [State.retainBy_active active']
    exact ⟨st, retCause, linkUp⟩
  · exact (exec_linkLoss_up linked complete powered).trans
      (congrArg Host.Outcome.next (if_neg (by rw [loses]; exact Bool.false_ne_true)))

end Sys2Proof.Machine
end

section
/-!
WDG_CP, DEVICE faults and DEN faults (20 R673, R676, 22 R734 to R736).
-/

namespace Sys2Proof.Machine

theorem OnlyPosts.tim {s u : State} (posts : OnlyPosts s u) : u.tim = s.tim := by rw [posts]

theorem State.fault_tim (s : State) (cause : Nat) (loc : W64) : (s.fault cause loc).tim = s.tim := (s.fault_posts cause loc none).tim

/-! ### The CP (20 R673, R676, 22 R736) -/

section Cp
variable {s : State} (runs : s.hub = true)
include runs

theorem exec_wdgCpExpiry_running (running : s.tim.cpSt = .running) : exec .wdgCpExpiry s = .next
    ((State.fault { s with tim := { s.tim with cpExpiries := satAdd s.tim.cpExpiries 1 } } 0x0804 (mkLoc 11 0 none false 0)).beginGrace
      0x0804 4) :=
  congrArg Host.Outcome.next (if_pos ⟨runs, running⟩)

theorem exec_deviceFault_device (b : BootIn) {c : Nat} (first : 0x0801 ≤ c) (last : c ≤ 0x0803) : exec (.deviceFault c b) s = .next (
    if s.tim.cpSt = .grace then s.fault c (mkLoc 11 0 none false 0)
    else if c = 0x0801 then (s.fault c (mkLoc 11 0 none false 0)).deviceReset b 5
    else (s.fault c (mkLoc 11 0 none false 0)).beginGrace c 5) := by
  refine congrArg Host.Outcome.next ((if_pos ⟨runs, first, last⟩).trans ?_)
  dsimp only
  rw [s.fault_tim]

end Cp

theorem exec_wdgCpGraceEnd_fault {s : State} (b : BootIn) {c k : Nat} (pending : s.boot.graceFault = some (c, k)) :
    exec (.wdgCpGraceEnd b) s = .next (s.deviceReset b k) := by
  change execWdgCpGraceEnd b s = _
  rw [execWdgCpGraceEnd, pending]

/-! ### Dens (22 R734, R735) -/

section Quiesce
variable (s : State) (d : Nat)

/-- The same change of a run of rings. -/
theorem State.each_range_modRing (base n : Nat) (g : Ring → Ring) (id : Nat) :
    (s.each (List.range n) (fun s i => s.modRing (base + i) g)).ring (base + id) =
      if id < n then g (s.ring (base + id)) else s.ring (base + id) := by
  induction n with
  | zero => rfl
  | succ n ih =>
    have step : s.each (List.range (n + 1)) (fun s i => s.modRing (base + i) g) =
        (s.each (List.range n) (fun s i => s.modRing (base + i) g)).modRing (base + n) g := by
      rw [State.each, List.range_succ, List.foldl_append]
      rfl
    rw [step, State.modRing_ring]
    by_cases last : id = n
    · subst last
      rw [if_pos rfl, ih, if_neg (Nat.lt_irrefl id), if_pos (Nat.lt_succ_self id)]
    · rw [if_neg (by omega), ih]
      by_cases within : id < n
      · rw [if_pos within, if_pos (by omega)]
      · rw [if_neg within, if_neg (by omega)]

/-- A den is quiesced: its state says so, and its rings are disabled and empty (22 R734). -/
def State.Quiesced (u : State) (d : Nat) : Prop := (u.den d).st = .quiesced ∧
  ∀ id, id < 32 → (u.ring (32 * (d + 1) + id)).en = false ∧ (u.ring (32 * (d + 1) + id)).entries = []

theorem State.quiesce_quiesced : (s.quiesce d).Quiesced d := by
  unfold State.quiesce
  extract_lets posted killed dropped disabled
  refine ⟨by rw [State.modDen_den, if_pos rfl], fun id within => ?_⟩
  have ring : disabled.ring (32 * (d + 1) + id) = { dropped.ring (32 * (d + 1) + id) with en := false, entries := [] } :=
    (dropped.each_range_modRing (32 * (d + 1)) 32 _ id).trans (if_pos within)
  rw [State.modDen_ring, ring]
  exact ⟨rfl, rfl⟩

theorem State.dropTable_absent (t : Nat) : ((s.dropTable t).table t).present = false := by
  rw [State.table, State.dropTable, mget_merase, if_pos rfl]

variable {s d}

/-- What DESC_UNCORR does after the den is quiesced (22 R735). -/
theorem State.Quiesced.dropTable (quiesced : s.Quiesced d) (t : Nat) : (s.dropTable t).Quiesced d := quiesced

theorem State.Quiesced.markUncorr (quiesced : s.Quiesced d) : (s.modDen d (fun x => { x with uncorr := true })).Quiesced d := by
  obtain ⟨st, rings⟩ := quiesced
  exact ⟨by rw [State.modDen_den, if_pos rfl]; exact st, rings⟩

end Quiesce

theorem exec_denFault_den {s : State} {c d i : Nat} (runs : s.hub = true) (den : d < 32) (exists_ : (s.den d).st ≠ .free)
    (first : 0x0701 ≤ c) (last : c ≤ 0x0703) : ∃ v : State, v.Quiesced d ∧ exec (.denFault c d i) s = .next (
      if c = 0x0702 then (if (v.table i).present ∧ (v.table i).den = d then v.dropTable i else v)
      else if c = 0x0703 then v.modDen d (fun x => { x with uncorr := true }) else v) :=
  ⟨_, State.quiesce_quiesced _ d, congrArg Host.Outcome.next (if_pos ⟨runs, den, exists_, first, last⟩)⟩

/-- Settles O51: the grace and its end, DEVICE faults, and each DEN fault after the quiesce that it begins with. -/
theorem watchdogAndDenFaults : Obligations.WatchdogAndDenFaults := by
  unfold Obligations.WatchdogAndDenFaults
  refine ⟨fun s b runs => ⟨fun running => ?_, fun c k pending => ⟨fun phase retains => ?_, fun loses => ?_⟩, fun c two no_grace => ?_,
    fun no_grace => ?_, fun c first last grace => ?_⟩, fun s d i runs den exists_ c first last => ?_⟩
  · refine ⟨_, exec_wdgCpExpiry_running runs running, rfl, rfl, ?_, rfl⟩
    exact congrArg Machine.Timers.cpExpiries (State.fault_tim _ _ _)
  · exact (exec_wdgCpGraceEnd_fault b pending).trans (congrArg Host.Outcome.next (if_pos ⟨phase, retains⟩))
  · refine (exec_wdgCpGraceEnd_fault b pending).trans (congrArg Host.Outcome.next ((if_neg ?_).trans rfl))
    simp [loses]
  · have apart : c ≠ 0x0801 := by omega
    refine ⟨_, (exec_deviceFault_device runs b (by omega) (by omega)).trans
      (congrArg Host.Outcome.next ((if_neg no_grace).trans (if_neg apart))), rfl, rfl, rfl⟩
  · exact (exec_deviceFault_device runs b (by omega) (by omega)).trans
      (congrArg Host.Outcome.next ((if_neg no_grace).trans (if_pos rfl)))
  · exact (exec_deviceFault_device runs b first last).trans (congrArg Host.Outcome.next (if_pos grace))
  · obtain ⟨v, quiesced, faults⟩ := exec_denFault_den (i := i) runs den exists_ first last
    by_cases desc : c = 0x0702
    · subst desc
      rw [if_pos rfl] at faults
      refine ⟨_, faults, ?_⟩
      split
      next named =>
        obtain ⟨st, rings⟩ := quiesced.dropTable i
        exact ⟨st, rings, by simp, fun _ present => by simp [v.dropTable_absent i] at present⟩
      next other => exact ⟨quiesced.1, quiesced.2, by simp, fun _ present same => other ⟨present, same⟩⟩
    · rw [if_neg desc] at faults
      refine ⟨_, faults, ?_⟩
      split
      next =>
        obtain ⟨st, rings⟩ := quiesced.markUncorr
        exact ⟨st, rings, fun _ => by rw [State.modDen_den, if_pos rfl], fun same => absurd same desc⟩
      next other => exact ⟨quiesced.1, quiesced.2, fun same => absurd same other, fun same => absurd same desc⟩

end Sys2Proof.Machine
end
